-- ==== Sys2Proof/Word.lean ====
section
/-! DEFINITION. The word types of the block and their plainest arithmetic. -/

namespace Sys2Proof

/-- A control-register word (R8). -/
abbrev Word := BitVec 32

/-- One byte. -/
abbrev Byte := BitVec 8

/-- A 48-bit data address (R244). -/
abbrev Addr := BitVec 48

/-- The value of a byte list, least significant byte first (R5). -/
def leNat : List Byte → Nat
  | [] => 0
  | b :: bs => b.toNat + 256 * leNat bs

/-- `n` bytes of a value, least significant byte first (R5). -/
def leBytes : Nat → Nat → List Byte
  | 0, _ => []
  | n + 1, v => BitVec.ofNat 8 v :: leBytes n (v / 256)

/-- A natural number as a register word, saturating at `0xFFFF_FFFF`. -/
def satWord (n : Nat) : Word := BitVec.ofNat 32 (min n 0xFFFFFFFF)

end Sys2Proof
end

