-- ==== Sys2Proof/Syntax.lean ====
section
/-! DEFINITION. The commands of the block: one constructor of `Instr` for each row of
spec/opcode_table.json, with the operands that come from outside the block. -/

namespace Sys2Proof

/-- A stage core, by island ID d × 9 + c (R30). -/
abbrev Core := Fin 54
/-- A compute die (R15). -/
abbrev Die := Fin 6
/-- An edge die. -/
abbrev Edge := Fin 2
/-- An edge-die half, update engine or collective engine, 2e + h (R20, R277). -/
abbrev Half := Fin 4
/-- A Culvert port (R314). -/
abbrev Port := Fin 16
/-- A host lane (R348). -/
abbrev Lane := Fin 2
/-- A far-memory channel of the module (R256). -/
abbrev Chan := Fin 192
/-- An island with an ID of R30, in the order of that table: 54 stage cores, 6 die NoCs,
2 edge logics, 16 Culvert receive groups, 2 host receivers. -/
abbrev Isl := Fin 80
/-- A clock island (R24): those of R30, where a Culvert receive group stands for its five lane receivers
together; then the 192 memory PHYs by channel; then the 80 Culvert lane receivers, port by port. -/
abbrev ClkIsl := Fin 352
/-- An event-counter block (R471): 54 core blocks, 6 compute-die blocks, 2 edge blocks. -/
abbrev Block := Fin 62
/-- A link with flits and credits: the 16 Culvert ports, then the 2 host lanes. -/
abbrev Link := Fin 18
/-- An accessor of the control space with a latch of its own (R8): host lanes 0 and 1, then the
eight management cores of R20. -/
abbrev Accessor := Fin 10
/-- An arbitration point (R266): 24 bank ports for each compute die, then the 192 channel queues. -/
abbrev ArbPoint := Fin 336

/-- A host command as it takes effect (R351, R357): the lane that delivered it, its header fields
and its payload. -/
structure HostCmd where
  lane : Lane
  qid : Fin 16
  cseq : BitVec 32
  args : BitVec 160
  payload : List Byte
deriving DecidableEq, Repr

/-- A management-port command (R460): the command byte, the payload bytes and the PEC byte received. -/
structure MgmtCmd where
  code : Byte
  payload : List Byte
  pec : Byte
deriving DecidableEq, Repr

/-- What the check bits say of a memory unit as it is read (R252, R264). -/
inductive EccErr
  | none
  | single
  | double
  /-- far memory only: the folded address bits differ (R263) -/
  | addrMismatch
deriving DecidableEq, Repr

/-- A function that reports ready (R431, R440). -/
inductive ReadyFn
  | dieNoc (d : Die)
  | edgeLogic (e : Edge)
  | bridge (b : Fin 13)
  | updEngine (h : Half)
  | collEngine (h : Half)
  | hostLane (l : Lane)
  | core (c : Core)
  | package (p : Fin 48)
  | port (p : Port)
deriving DecidableEq, Repr

/-- A function with island power states (R458). -/
inductive PwrFn
  | core (c : Core)
  | dieNoc (d : Die)
  | chan (ch : Chan)
  | engines (h : Half)
deriving DecidableEq, Repr

/-- A rail of R445. -/
inductive Rail
  | bus6v
  | vcore (c : Core)
  | vnoc (d : Die)
  | vsram (d : Die)
  | vedge (h : Half)
  | vserdes (h : Half)
  | lpddr (h : Half)
deriving DecidableEq, Repr

/-- Why a stage core is declared failed (R393). -/
inductive CoreFailCause
  | underrun
  | watchdog
  | resync
  | replayLimit
deriving DecidableEq, Repr

/-- Why a polder is lost, beyond the bridge failure that has a command of its own (R401). -/
inductive PolderCause
  | secondCore (d : Die)
  | dieResync (d : Die)
  | edgeResync (h : Half)
  | channel (ch : Chan)
  | nearMemory (d : Die) (sram : Fin 2)
  | controllerHalf
deriving DecidableEq, Repr

/-- A flow's peer, virtual channel and flow index (R326). -/
structure FlowId where
  peer : BitVec 16
  vc : BitVec 2
  flow : BitVec 2
deriving DecidableEq, Repr

/-- A core, and which of the queue words that a command takes there fail their parity check, in the order in which
they are read (R147); a word beyond the list passes it. -/
structure CoreRead where
  core : Core
  bad : List Bool
deriving DecidableEq, Repr

/-- A port, and the data bits of the marker codewords that its receive lanes 0 to 3 bring (R316). -/
structure PortMarks where
  port : Port
  marks : List (BitVec 5140)
deriving DecidableEq, Repr

/-- What the error correction says of a flit (R315, R345): whether one of its codewords was uncorrectable, and, of
the codewords that end in it, how many were corrected and how many were uncorrectable. A codeword may span flits
(R317). -/
structure FecResult where
  uncorr : Bool
  corr : Byte
  lost : Byte
deriving DecidableEq, Repr

/-- What the adapter sends as a host lane trains (R348, R353): the data bits of a marker codeword, and the
credits of its hello, VC 0 to 3. -/
structure LaneHello where
  mark : BitVec 5140
  credits : BitVec 64
deriving DecidableEq, Repr

/-- The commands. Each constructor is one row of the table; the docstring names the rule. -/
inductive Instr
  /-- R9, R10: a write of a control register -/
  | registerWrite (a : Accessor) (addr : BitVec 32) (v : Word)
  /-- R11, R467 -/
  | unmappedAccess (addr : BitVec 32) (write : Bool)
  /-- R243 -/
  | prdAudRowsRead (a : Accessor) (d : Die) (l : Fin 256)
  /-- R243 -/
  | prdAudMissRead (a : Accessor) (d : Die) (l : Fin 256)
  /-- R17: the 1,024 bytes received and the CRC on the check wires -/
  | bridgeTransfer (b : Fin 13) (dir : Fin 2) (data : List Byte) (crc : BitVec 32)
  /-- R17 -/
  | bridgeFail (b : Fin 13) (dir : Fin 2) (lostLock : Bool)
  /-- R27, R28 -/
  | islandReset (i : ClkIsl)
  /-- R27, R28 -/
  | channelResync (i : ClkIsl)
  /-- R25, R446, R450 -/
  | clockChange (c : Core)
  /-- R23, R34, R368 -/
  | stepBeginIssue
  /-- R31: a non-core island receives its step-begin -/
  | islandStepBegin (i : Isl)
  /-- R149 -/
  | idleItem (rd : CoreRead)
  /-- R192; `bad` is a failed parity check of the word (R147) -/
  | stepBegin (c : Core) (bad : Bool)
  /-- R192, R193 -/
  | mbBegin (c : Core) (bad : Bool)
  /-- R191 -/
  | stageBind (c : Core) (bad : Bool)
  /-- R191 -/
  | stageUnbind (c : Core) (bad : Bool)
  /-- R193 -/
  | cmdqReservedOpcode (c : Core) (bad : Bool)
  /-- R195, R198 to R200 -/
  | spmm (rd : CoreRead)
  | sddmm (rd : CoreRead)
  | spgemm (rd : CoreRead)
  | gather (rd : CoreRead)
  | scatterAdd (rd : CoreRead)
  | conv (rd : CoreRead)
  | normstat (rd : CoreRead)
  /-- R118, R195 -/
  | copy (rd : CoreRead)
  /-- R195, R225 -/
  | predict (rd : CoreRead)
  | elemwise (rd : CoreRead)
  /-- R201 -/
  | mopComplete (c : Core)
  /-- R202 -/
  | mopEarlyStart (rd : CoreRead)
  /-- R192 -/
  | phaseDone (c : Core)
  /-- R193, R363, R370, R389 -/
  | phaseDoneReceive (rd : CoreRead)
  /-- R371 -/
  | resultCopyResume (w : Fin 64)
  /-- R127: the bytes of memory filled into the operand buffer -/
  | operandFill (c : Core) (addr : Addr) (len : Nat)
  /-- R128, R156 -/
  | stationaryLoad (rd : CoreRead)
  /-- R131 to R135 -/
  | wavefrontEmit (rd : CoreRead)
  /-- R138 to R140 -/
  | mergeSegment (rd : CoreRead)
  /-- R155, R158; `bad` is a failed parity check of the word (R147) -/
  | wavefront (c : Core) (bad : Bool)
  /-- R165 -/
  | tileInit (c : Core)
  /-- R158, R159, R166, R171, R172 -/
  | sumqAccumulate (c : Core) (bad : Bool)
  /-- R174 to R183 -/
  | tileDrain (rd : CoreRead)
  /-- R232 -/
  | auditRowReport (c : Core)
  /-- R224, R227 -/
  | predictStart (d : Die)
  /-- R229, R230 -/
  | predictComplete (d : Die)
  /-- R248, R358 -/
  | allocCreate (h : HostCmd)
  /-- R358 -/
  | allocFree (h : HostCmd)
  /-- R252: a 64-byte access at die offset `off`; `wr` holds the bytes of a write -/
  | nmemAccess (d : Die) (req : Fin 16) (off : BitVec 31) (wr : Option (List Byte)) (err : EccErr)
  /-- R252 -/
  | nmemPatrolScrub (d : Die) (off : BitVec 31) (err : EccErr)
  /-- R254: `req` is a core of the die, or 9 for the predictor and bridges -/
  | cacheFill (d : Die) (req : Fin 10) (addr : Addr)
  /-- R255: `own` when the die itself is the writer -/
  | cacheInvalidate (d : Die) (addr : Addr) (own : Bool)
  /-- R267: `want` has the bit of each requester with a request in this cycle -/
  | arbGrant (p : ArbPoint) (want : BitVec 22)
  /-- R267 -/
  | arbBackoffExpire (p : ArbPoint) (req : Fin 22)
  /-- R261, R262: `fail` has the bit of each channel of the package whose attempt failed -/
  | fmemTrain (pkg : Fin 48) (fail : BitVec 4)
  /-- R262: drift in 1/64 of a unit interval; whether each of two attempts succeeds -/
  | fmemDriftCheck (ch : Chan) (drift : BitVec 8) (ok1 ok2 : Bool)
  /-- R260: `busy` when the bank has queued requests -/
  | fmemRefresh (ch : Chan) (bank : Fin 16) (busy : Bool)
  /-- R259 -/
  | fmemZqLatch (ch : Chan)
  /-- R264: a 32-byte access; `wr` holds the bytes of a write and whether they are poisoned -/
  | fmemAccess (addr : Addr) (wr : Option (List Byte × Bool)) (err : EccErr)
  /-- R264 -/
  | fmemPatrolScrub (addr : Addr) (err : EccErr)
  /-- R265 -/
  | rowRetire (ch : Chan)
  /-- R396 -/
  | burstReconstruct (addr : Addr)
  /-- R286 -/
  | updChunk (e : Half)
  /-- R296 -/
  | updRowRecord (e : Half)
  /-- R287, R288, R298, R305 -/
  | normResult (e : Half)
  /-- R289 to R297 -/
  | pass2Start (e : Half) (g : Fin 4096)
  /-- R300 -/
  | groupLocalDone (e : Half) (g : Fin 4096)
  /-- R300 -/
  | commitRecordWrite
  /-- R300, R363 -/
  | stepCommit
  /-- R35, R302 -/
  | stepResume
  /-- R301, R397, R398 -/
  | twinLost (e : Half)
  /-- R303 -/
  | updRecompReq (a : Accessor) (e : Half) (v : Word)
  /-- R304 -/
  | recompRebuild (e : Half)
  /-- R304 -/
  | recompReady (e : Half)
  /-- R318 -/
  | portTrain (x : PortMarks)
  /-- R318 -/
  | portTrainTimeout (p : Port)
  /-- R319: a physical receive lane -/
  | laneFail (p : Port) (lane : Fin 5)
  /-- R319 -/
  | laneSwapComplete (p : Port)
  /-- R319 -/
  | linkSilence (p : Port)
  /-- R320, R321, R345: 256 bytes, and what the decoder says of their codewords -/
  | flitReceive (p : Port) (bytes : List Byte) (fec : FecResult)
  /-- R321 -/
  | retryTimeout (l : Link)
  /-- R325 -/
  | creditReturn (l : Link)
  /-- R325 -/
  | credit (p : Port)
  /-- R341 -/
  | nak (p : Port)
  /-- R326 -/
  | e2eAck (p : Port)
  /-- R326: the receive flow whose acknowledgement is due -/
  | e2eAckDue (f : FlowId)
  /-- R326: the send flow whose timer expires -/
  | e2eTimeout (f : FlowId)
  /-- R327 -/
  | write (p : Port)
  /-- R327 -/
  | read (p : Port)
  /-- R323 -/
  | readResp (p : Port)
  /-- R333, R334 -/
  | crs (p : Port)
  /-- R334 -/
  | stagedPartialAdd (e : Half)
  /-- R335 -/
  | cag (p : Port)
  /-- R336 -/
  | cscalar (p : Port)
  /-- R299 -/
  | mwr (p : Port)
  /-- R299 -/
  | mack (p : Port)
  /-- R318, R339, R399 -/
  | linkCtlHello (p : Port)
  /-- R399 -/
  | resyncUnitCopy (e : Half)
  /-- R319 -/
  | linkCtlSwapRequest (p : Port)
  /-- R319 -/
  | linkCtlSwapDone (p : Port)
  /-- R342 -/
  | linkCtlFenceNotice (p : Port)
  /-- R342, R344 -/
  | fence (p : Port)
  /-- R342, R344 -/
  | unfence (p : Port)
  /-- R348, R350, R353 -/
  | hostLaneTrain (l : Lane) (peer : LaneHello)
  /-- R378 -/
  | hostLaneSilence (l : Lane)
  /-- R349, R378 -/
  | hostFlitReceive (l : Lane) (bytes : List Byte) (fec : FecResult)
  /-- R353 -/
  | nhlCredit (l : Lane)
  /-- R377, R378 -/
  | nhlNak (l : Lane)
  /-- R355 -/
  | gapTimeout (q : Fin 16)
  /-- R358: the host commands -/
  | nop (h : HostCmd)
  | status (h : HostCmd)
  | regRead (h : HostCmd)
  | regWrite (h : HostCmd)
  | descCreate (h : HostCmd)
  | descDestroy (h : HostCmd)
  | memWrite (h : HostCmd)
  | memRead (h : HostCmd)
  | load (h : HostCmd)
  | unload (h : HostCmd)
  | run (h : HostCmd)
  | hold (h : HostCmd)
  | moduleReset (h : HostCmd)
  | feedOpen (h : HostCmd)
  | feedClose (h : HostCmd)
  | feedWrite (h : HostCmd)
  | feedCommit (h : HostCmd)
  /-- R368 -/
  | feedStall
  | resultOpen (h : HostCmd)
  | resultClose (h : HostCmd)
  | resultRead (h : HostCmd)
  | resultRelease (h : HostCmd)
  /-- R370 -/
  | resultStall
  /-- R434 -/
  | attest (h : HostCmd)
  /-- R435: the FLASH_WRITE subcommands -/
  | flashWrite (h : HostCmd)
  | flashErase (h : HostCmd)
  | activate (h : HostCmd)
  | advanceSvn (h : HostCmd)
  | revoke (h : HostCmd)
  | keyProgram (h : HostCmd)
  | flashRead (h : HostCmd)
  /-- R376 -/
  | eventDrop
  /-- R393 -/
  | coreWatchdog (c : Core)
  /-- R393 -/
  | coreFail (c : Core) (cause : CoreFailCause)
  /-- R393 -/
  | replayIssue
  /-- R408 -/
  | queuedBreach
  /-- R401 -/
  | polderLoss (why : PolderCause)
  /-- R411 -/
  | dumpWrite
  /-- R411 -/
  | dumpComplete
  /-- R403 -/
  | restoreStart
  /-- R404 -/
  | restoreComplete
  /-- R472 -/
  | evcCntHiWrite (b : Block) (i : Fin 32) (v : Word)
  /-- R472 -/
  | evcCntLoWrite (b : Block) (i : Fin 32) (v : Word)
  /-- R474 -/
  | clear (b : Block)
  /-- R474 -/
  | snap (b : Block)
  /-- R469 -/
  | clearAll
  /-- R469 -/
  | snapAll
  /-- R479 -/
  | evcBroadcastArrive (b : Block)
  /-- R477 -/
  | evcOvf (b : Block) (i : Fin 32)
  /-- R418 -/
  | bootRomStart
  /-- R431, R440 -/
  | functionReady (f : ReadyFn)
  /-- R430 -/
  | healthAreaWrite
  /-- R443 -/
  | inputTurnOn
  /-- R447, R488: the address straps at power good -/
  | powerGood (straps : BitVec 3)
  /-- R443, R444 -/
  | inputShutdown
  /-- R443, R444 -/
  | overcurrentTrip
  /-- R456 -/
  | thermalTrip
  /-- R448 -/
  | regulatorFail (r : Rail)
  /-- R450: the input power averaged over the last 100 µs, in watts -/
  | powerCapEval (p : BitVec 16)
  /-- R454 -/
  | thermalEval
  /-- R455 -/
  | coreThermalGate (c : Core)
  /-- R452 -/
  | droopResponse (c : Core)
  /-- R452 -/
  | droopEnd (c : Core)
  /-- R459 -/
  | idleEntry (f : PwrFn)
  /-- R459 -/
  | powerStateWake (f : PwrFn)
  /-- R464 -/
  | sensorUpdate (j : Fin 256) (v : BitVec 24)
  /-- R462: the management commands -/
  | getState (m : MgmtCmd)
  | readSensors (m : MgmtCmd)
  | readReg (m : MgmtCmd)
  | readBreach (m : MgmtCmd)
  | setCap (m : MgmtCmd)
  | getIdentity (m : MgmtCmd)
  | flash (m : MgmtCmd)
  | setAlert (m : MgmtCmd)
  | clearAlert (m : MgmtCmd)
  /-- R488 -/
  | modResetN
  /-- R490 -/
  | tapReset
  /-- R493 -/
  | extest
  /-- R491 -/
  | samplePreload
  /-- R491 -/
  | idcode
  /-- R493 -/
  | clamp
  /-- R493 -/
  | highz
  /-- R491: `BYPASS` or an unlisted code -/
  | bypass (code : Byte)
  /-- R350, R319 -/
  | hostLaneFail (l : Lane)
  /-- R350, R318 -/
  | hostLaneTrainTimeout (l : Lane)
  /-- R319 -/
  | spareLaneTrainTimeout (p : Port)
  /-- R259 -/
  | refreshManagementRequest (ch : Chan)
  /-- R488, R483 -/
  | housekeepingRailDown
  /-- R491, R492: the bits shifted in, first bit first, and the pin levels an input cell captures -/
  | dataRegisterScan (tdi : List Bool) (pins : BitVec 12)
  /-- R8, R9: a firmware or management-core read -/
  | registerRead (a : Accessor) (addr : BitVec 32)
deriving DecidableEq, Repr

end Sys2Proof
end

