-- ==== Sys2Proof/Decode.lean ====
section
/-! DEFINITION. The command that a word spells by the command table's bits. -/

namespace Sys2Proof

/-- No row of the table gives bits: a command reaches the block as a packet, a register access or an
event, never as a word, so that a word spells no command. -/
def decodeTableWord (_nbits _w : Nat) : Option Instr := none

end Sys2Proof
end

