-- ==== Sys2Proof/Config.lean ====
section
/-! DEFINITION. What the spec leaves open: the free values, as opaque constants that no proof can
evaluate, and the results the spec bounds without fixing them. -/

namespace Sys2Proof.Config

/-- A free value, by the number of values drawn before it (`State.freeCtr`): random draws of
stochastic rounding (R54), entropy (R433), and every value the spec leaves open. -/
opaque free : Nat → BitVec 64

/-- The free results of the activation functions, which R177 bounds and does not fix, on the FP32 operand
(`freeNear` keeps them within the bound). -/
opaque gelu : Word → Word
/-- GELU in its erf form. -/
opaque geluErf : Word → Word
opaque silu : Word → Word
opaque sigmoid : Word → Word
opaque tanh : Word → Word

/-- exp2 of the drain (R179) on the FP32 operand. -/
opaque exp2 : Word → Word

/-- Reciprocal square root of the drain (R179) on the FP32 operand. -/
opaque rsqrt : Word → Word

/-- exp2 of the update engines (R290) on the FP32 operand. -/
opaque exp2Upd : Word → Word

/-- The voltage that the table fused into a compute die sets for a stage-core clock (R446), on the die and the
clock in 50 MHz units. -/
opaque fusedVolt : Nat → Nat → BitVec 32

end Sys2Proof.Config
end

