-- ==== Sys2Proof/Machine/Types.lean ====
section
/-! DEFINITION. The plain-data types that State is made of, subsystem by subsystem. -/

namespace Sys2Proof.Machine

open Sys2Proof

/-- A sparse map: keys in strictly rising order, no entry equal to what an unlisted key reads as. -/
abbrev SMap (α : Type) := List (Nat × α)

/-- Byte storage, in the canonical form of `SMap`. -/
abbrev Memory := List Host.Cell

/-! ### Islands, logs and messages -/

/-- A clock island (R24): its step number, the next `SEQ` within that step (R29, R31), whether it is held
in reset, whether it has driven R27 since, whether a reset of its own is still to be counted, and the
neighbours with a reset that is still to be counted here (R38). -/
structure Island where
  step : Word
  seq : Nat
  inReset : Bool
  ready : Bool
  due : Bool
  dueNbr : List Nat
deriving DecidableEq, Repr

/-- The event that caused another: its island ID and `SEQ` (R32). -/
abbrev Cause := BitVec 8 × BitVec 24

/-- A logged event: stamp (R29), name code and argument (R481), and the cause field of R32. -/
structure LogEvent where
  stamp : BitVec 64
  name : BitVec 16
  arg : Word
  cause : Option Cause
deriving DecidableEq, Repr

/-- A breach record (R385). -/
structure Breach where
  stamp : BitVec 64
  cls : Byte
  polder : Byte
  action : Byte
  queued : Bool
  exposed : Bool
  causeIsl : Byte
  causeSeq : BitVec 24
  addr : BitVec 48
  obj : BitVec 16
  detail : Word
  rstep : Word
deriving DecidableEq, Repr

/-- What a breach says beside its stamp. -/
structure BreachInfo where
  cls : Nat
  polder : Nat
  action : Nat
  obj : Nat := 0
  addr : Nat := 0
  detail : Nat := 0
  rstep : Nat := 0
  causeIsl : Nat := 0xFF
  causeSeq : Nat := 0
deriving DecidableEq, Repr

/-- An open recovery window (R407): the class of the breach, its polder and its object. -/
structure RecWindow where
  cls : Byte
  polder : Byte
  obj : BitVec 16
deriving DecidableEq, Repr

/-- A step-begin message for an island other than a core's (R31): its step, and whether it is held at its sender
because the crossings on its way are not ready (R28). -/
structure IslMsg where
  isl : Nat
  step : Word
  held : Bool
deriving DecidableEq, Repr

/-- A `SNAP_ALL` or `CLEAR_ALL` message for a block of event counters (R479): whether it clears, and whether it
is held at its sender because the crossings on its way are not ready (R28). -/
structure EvcMsg where
  block : Nat
  clr : Bool
  held : Bool
deriving DecidableEq, Repr

/-- A fabric or NHL packet: the 32-byte header of R322 or R351 and its payload. -/
structure Pkt where
  hdr : BitVec 256
  payload : List Byte
deriving DecidableEq, Repr

/-- A fabric packet held at an edge die because the way to the other edge die, whose link it takes, is not
ready (R28, R329). -/
structure HeldPkt where
  edge : Nat
  link : Nat
  pkt : Pkt
deriving DecidableEq, Repr

/-! ### Number formats, descriptors and macro-operations -/

/-- The tensor element formats of R40. -/
inductive ElemFmt
  | fp32 | bf16 | e4m3 | e5m2 | fp4 | int4 | int2 | int32
deriving DecidableEq, Repr

/-- An exact value: a NaN, an infinity of a sign, or ±m × 2^e. -/
inductive Num
  | nan
  | inf (neg : Bool)
  | fin (neg : Bool) (m : Nat) (e : Int)
deriving DecidableEq, Repr

/-- What one conversion of a block gives (R53 to R64): the element codes and the scale byte, whether
it overtops, how many elements saturate or are clamped, whether it holds a NaN. -/
structure BlockConv where
  codes : List Nat
  scale : Nat
  overtop : Bool
  sat : Nat
  hasNan : Bool
deriving DecidableEq, Repr

/-- The compressed formats of R69. -/
inductive CFmt
  | dns | bmp
  | nm (n m : Nat)
  | tnm (n m : Nat)
  | csr | coo
  | bsr (b : Nat)
  | ohi
deriving DecidableEq, Repr

/-- The layout tags of R111. -/
inductive Layout
  | lin | ilB128 | ilA8 | ilAcc
deriving DecidableEq, Repr

/-- A dimension entry with its shard entry (R99). -/
structure DimE where
  ext : Nat
  stride : Int
  gext : Nat
  ways : Nat
  sidx : Nat
deriving DecidableEq, Repr

/-- A descriptor (R99) whose fields decoded. -/
structure Desc where
  fmt : ElemFmt
  blocked : Bool
  rd : Bool
  wr : Bool
  cfmt : CFmt
  layout : Layout
  blockAxis : Nat
  colAxis : Nat
  allocId : BitVec 16
  base : Nat
  nnzCap : Nat
  dims : List DimE
  /-- `MD0`, `MD1`, `SCL`, `SPILL`: base and capacity -/
  arrays : List (Nat × Nat)
  group : BitVec 16
  /-- in the copy of a COO descriptor that an issue makes: the entry count n read there (R86) -/
  count : Option Nat
deriving DecidableEq, Repr

/-- A live descriptor: who created it and what it says. -/
structure DescSlot where
  byLoader : Bool
  desc : Desc
deriving DecidableEq, Repr

/-- An allocation (R247). -/
structure Alloc where
  near : Bool
  die : Nat
  cache : Bool
  mirror : Bool
  zero : Bool
  base : Nat
  size : Nat
  mirrorOff : Nat
  byImage : Bool
deriving DecidableEq, Repr

/-- The rounding and headroom controls of a conversion point (R53, R54, R65). -/
structure CvtCtl where
  clamp : Bool
  freeboard : Nat
  stoch : Bool
deriving DecidableEq, Repr

/-- The four flags of a tile, a macro-operation or a segment (R165, R201). -/
structure Flags where
  sat : Bool
  poison : Bool
  nonfin : Bool
  empty : Bool
deriving DecidableEq, Repr

/-- The kinds of accumulator tile (R164). -/
inductive TileKind
  | fp32 | comp | int32 | sumsq | sumsqComp | meanVar
deriving DecidableEq, Repr

/-- An accumulator slot in use: its kind, the pair it holds (R203), the macro-operation it belongs
to, whether it has been initialized (R165). -/
structure Tile where
  kind : TileKind
  x : Nat
  y : Nat
  mop : Nat
  init : Bool
deriving DecidableEq, Repr

/-- The activity bitmap copied at issue (R233). -/
structure RowMap where
  layer : Nat
  allOn : Bool
  active : Nat
  audit : Nat
deriving DecidableEq, Repr

/-- A pair of the group in progress (R204): the pair (x, y) and its first accumulator slot. -/
structure GroupPair where
  x : Nat
  y : Nat
  slot : Nat
deriving DecidableEq, Repr

/-- A value that a drain lane has computed (R176): its poison, and whether `DRN_NONFIN_CNT` has counted the
element (R67). -/
structure OutVal where
  x : Num
  poison : Bool
  counted : Bool
deriving DecidableEq, Repr

/-- What a drop counts once for, however many values or rows of one reading it touches (R92): a spill
block, a pointer of a row or block row, an index entry of a row or block row. -/
inductive DropKey
  | spill (block : Nat)
  | pointer (row : Nat)
  | entry (row e : Nat)
deriving DecidableEq, Repr

/-- A macro-operation in progress on a core (R198 to R206). -/
structure RunMop where
  /-- number of the run on its core, so that tiles name their owner -/
  id : Nat
  /-- the five 128-bit words (R194) -/
  words : List (BitVec 128)
  fromCmdq : Bool
  pkt : Nat
  /-- the descriptors copied at issue, by handle (R98) -/
  descs : List (Nat × Desc)
  cvt : List CvtCtl
  bandEn : Bool
  mLen : Nat
  nLen : Nat
  kLen : Nat
  /-- the entries of `LEN_T` where N names it, and where K does (R209); empty otherwise -/
  rowLenN : List Nat
  rowLenK : List Nat
  rowMap : Option RowMap
  /-- index segments the merge unit has still to take (R138) -/
  segsLeft : Nat
  /-- surviving (index, row) pairs of the segments taken (R139, R140) -/
  merged : List (Nat × Nat)
  /-- pairs still to be walked, in groups (R204) -/
  groups : List (List (Nat × Nat))
  /-- the group in progress -/
  grp : List GroupPair
  /-- slots of the group whose tiles are still to be initialized -/
  toInit : List Nat
  /-- visited pair-windows (slot, window) of the group still to be loaded, in the order of R204 -/
  toLoad : List (Nat × Nat)
  /-- pair-windows loaded and not yet packed -/
  toPack : List (Nat × Nat)
  /-- the group whose windows are all packed while its last wavefronts pass the array (R128) -/
  tail : List GroupPair
  /-- slots whose tiles wait for the drain, in curve order (R206) -/
  drainQ : List Nat
  /-- drained values of each lane that wait for the rest of their block or row: by
  m × N_PLAN + n -/
  outBuf : List (SMap (Option OutVal))
  /-- output elements reached by a product, by m × N_PLAN + n (R141) -/
  reached : List Nat
  /-- pairs whose tile a poisoned metadata word has poisoned (R92), and memory units that this
  macro-operation has written with poison -/
  metaPoison : List (Nat × Nat)
  badUnits : List Nat
  /-- drops of a source read at tile initialization that have been counted, each once (R91, R92) -/
  dropped : List DropKey
  /-- audit rows found to be misses, and audit rows with a poisoned tile (R231, R232) -/
  auditMiss : List Nat
  auditBad : List Nat
  flags : Flags
deriving DecidableEq, Repr

/-- The bound stage of a core (R191). -/
structure Binding where
  stage : BitVec 16
  base : Nat
  nfwd : Nat
  nbwd : Nat
  neval : Nat
deriving DecidableEq, Repr

/-- The running segment (R192). -/
structure Segment where
  phase : Nat
  mb : Word
  replay : Bool
  pkt : Nat
  flags : Flags
deriving DecidableEq, Repr

/-- A 128-bit control word with its end mark (R144, R146). -/
structure CmdWord where
  bits : BitVec 128
  last : Bool
deriving DecidableEq, Repr

/-- A valid slot of a wavefront (R129), with the poison that follows the value (R147). -/
structure WfSlot where
  row : Nat
  slot : Nat
  value : BitVec 16
  scale : Byte
  spill : Bool
  lane : Nat
  poison : Bool
deriving DecidableEq, Repr

/-- A wavefront (R129): the m-block row of each lane in use, in lane order, the window, the valid
slots, and the accumulator slot and in-range count that travel with it to `SUMQ` (R161). -/
structure Wavefront where
  lanes : List Nat
  win : Nat
  winLast : Bool
  slots : List WfSlot
  tile : Nat
  npos : List Nat
  /-- rows of the window in range without a surviving value, with their in-range counts: the last
  wavefront of a `NORMSTAT` window (R170) -/
  idle : List (Nat × Nat)
  band : Bool
deriving DecidableEq, Repr

/-- A `SUMQ` word (R161): the lane sums in use as (lane, column, sum). -/
structure SumWord where
  lanes : List Nat
  win : Nat
  winLast : Bool
  sums : List (Nat × Nat × Word)
  poison : BitVec 8
  tile : Nat
  npos : List Nat
  idle : List (Nat × Nat)
  /-- whether a product or lane sum saturated or was non-finite (R51, R160) -/
  sat : Bool
  nonfin : Bool
deriving DecidableEq, Repr

/-- A value of a stationary register (R155). -/
structure StatVal where
  value : BitVec 16
  scale : Byte
  spill : Bool
  poison : Bool
deriving DecidableEq, Repr

/-- One of the two stationary registers of every PE: the pair-window it holds and the values by
row × 128 + column (R128, R155). -/
structure StatBank where
  pw : Option (Nat × Nat)
  vals : SMap StatVal
deriving DecidableEq, Repr

/-- A value of a row as it leaves the operand buffer (R129): its column, code, scale code, whether it
comes from a spill record, its poison. A scale code of `0xFF` marks a value that reads as NaN (R62). -/
structure Entry where
  k : Nat
  value : Nat
  scale : Nat
  spill : Bool
  poison : Bool
deriving DecidableEq, Repr

/-- A metadata drop (R92): subcause, amount, row for `FDR_MDROP_ROW`, the column that places it in a
window, when it has one, and what it counts once for. -/
structure Drop where
  sub : Nat
  n : Nat
  row : Nat
  col : Option Nat
  key : Option DropKey := none
deriving DecidableEq, Repr

/-- What reading one row of a matrix view gives: its values in ascending column order, the drops,
the columns of reserved INT2 codes (R43), and whether a metadata word was poisoned. -/
structure RowRead where
  ents : List Entry
  drops : List Drop
  rsv : List Nat
  metaBad : Bool
deriving DecidableEq, Repr

/-- What initialization does to one row of a tile: the words it writes by column, saturating and non-finite
additions of a sum of entries, whether a value is poisoned, and the reading of a source (R165, R118). -/
structure InitRow where
  words : List (Nat × Word)
  sat : Nat
  nf : Nat
  bad : Bool
  read : RowRead
deriving DecidableEq, Repr

/-- A word of `AQ` or `BQ` (R144): the operand row that it carries for a window of the tile in a slot, as it
left the operand buffer. DESIGN CHOICE: one word for each row (log entry 127). -/
structure RowWord where
  slot : Nat
  win : Nat
  row : Nat
  read : RowRead
deriving DecidableEq, Repr

/-- A word of `IXQ`: 64 bytes of an index stream from an address, with their poison. -/
structure IndexWord where
  addr : Nat
  bytes : List Byte
  bad : Bool
deriving DecidableEq, Repr

/-- A word of `DRQ` (R144): up to 64 drained bytes with their addresses and poison, of the run that made them. -/
structure DrqWord where
  run : Nat
  bytes : List (Nat × Byte × Bool)
deriving DecidableEq, Repr

/-- The slot packer's work on one pair-window (R133 to R135): the pending rows and their surviving
values, ascending. -/
structure Packer where
  pw : Nat × Nat
  pending : List (Nat × List Entry)
  /-- rows of a band group that fell back to row mode and are packed first (R135) -/
  fallback : List Nat
deriving DecidableEq, Repr

/-- Run-time lengths read at issue (R210): M′, N′, K′, and the entries of `LEN_T` for N and for K. -/
structure Lens where
  m : Nat
  n : Nat
  k : Nat
  rowN : List Nat
  rowK : List Nat
deriving DecidableEq, Repr

/-- A failure of an issue check: code, check and index (R198, R201). -/
abbrev IssueErr := Nat × Nat × Nat

/-- What the issue checks of the next macro-operation found while the previous one works (R202): its packet,
the failure with whether a poisoned length caused it, or the lengths read, and the descriptors checked. -/
structure Verdict where
  words : List (BitVec 128)
  named : List (Option Desc)
  err : Option (IssueErr × Bool)
  lens : Lens
deriving DecidableEq, Repr

/-- One stage core (R144 to R188). -/
structure CoreSt where
  cmdq : List CmdWord
  /-- words in the crossing from the die NoC, and words held at the sender (R28) -/
  xin : List CmdWord
  held : List CmdWord
  cplq : List (BitVec 64)
  /-- operand rows for the intersection units and for the next stationary load, index words for the merge
  unit, drained words for the crossing (R144) -/
  aq : List RowWord
  bq : List RowWord
  ixq : List IndexWord
  drq : List DrqWord
  /-- words that the drain holds while `DRQ` is full (R145) -/
  drHeld : List DrqWord
  wfq : List Wavefront
  sumq : List SumWord
  /-- last words read, which an empty data-class queue returns (R148, R149) -/
  aLast : Option RowWord
  bLast : Option RowWord
  ixLast : Option IndexWord
  drLast : Option DrqWord
  wfLast : Option Wavefront
  sumLast : Option SumWord
  bind : Option Binding
  seg : Option Segment
  cur : Option RunMop
  prev : Option RunMop
  nextId : Nat
  /-- the sequencer waits for the engine's completion of its `PREDICT` (R195, R224) -/
  waitPredict : Bool
  /-- the issue checks of the next macro-operation, when they ran before its turn (R202) -/
  verdict : Option Verdict
  /-- bytes filled into the operand buffer (R127), and the memory units that arrived poisoned -/
  opbuf : SMap (Option Byte)
  opPoison : List Nat
  /-- fills that wait for a crossing or a channel on their way (R27, R262): address and length -/
  fills : List (Nat × Nat)
  bankA : StatBank
  bankB : StatBank
  actB : Bool
  pack : Option Packer
  acc : SMap Word
  tiles : SMap (Option Tile)
  /-- the NONFIN and EMPTY flags of slots; SAT and POISON live in their registers (R187) -/
  tileNonfin : List Nat
  tileEmpty : List Nat
  /-- audit rows not yet reported: layer, miss (R232) -/
  auditQ : List (Nat × Bool)
  /-- thermal clock in 50 MHz units, thermal gating, droop response, and a clock step due (R450 to R455) -/
  thermClk : Nat
  thermGated : Bool
  droop : Bool
  droopAt : Nat
  clkDue : Option Nat
  /-- the set clock in 50 MHz units, which `FREQ` reports while the clock runs, and the voltage that the core's
  rail is set to, in mV (R446) -/
  setClk : Nat
  volt : Nat
  /-- time of the latest progress of R393, in µs -/
  progress : Nat
  failed : Bool
  retired : Bool
deriving DecidableEq, Repr

/-! ### Predictor engines, near memory and caches -/

/-- A `PREDICT` request at an engine (R224). -/
structure PredReq where
  core : Core
  words : List (BitVec 128)
  descs : List (Nat × Desc)
  mLen : Nat
  nLen : Nat
  kLen : Nat
  /-- the entries of `LEN_T`, when it is named (R209) -/
  rowLen : List Nat
  step : Word
  mb : Word
deriving DecidableEq, Repr

/-- The running `PREDICT`: its request and the values read when it started (R227, R239). -/
structure PredRun where
  req : PredReq
  thr : Word
  enable : Bool
  auditLog2 : Nat
deriving DecidableEq, Repr

/-- A shared-cache line (R253): the line number L = a >> 8, its bytes, its poison. -/
structure CacheLine where
  line : Nat
  bytes : List Byte
  poison : Bool
deriving DecidableEq, Repr

/-- A near-memory request held while its die's NoC is in reset or its clock is stopped (R27, R459): the die offset,
the bytes written, what the check bits say. -/
structure NearReq where
  off : Nat
  wr : Option (List Byte)
  err : EccErr
deriving DecidableEq, Repr

/-- The state of a compute die beside its cores. -/
structure DieSt where
  /-- near-memory requests held at their requesters, oldest first -/
  held : List NearReq
  predQ : List PredReq
  pred : Option PredRun
  /-- cache lines by set × 16 + way, and the pseudo-LRU bits of each set -/
  cache : SMap (Option CacheLine)
  plru : SMap (BitVec 15)
  /-- times in µs of uncorrectable lines of SRAM die 0 and 1 (R401) -/
  ueTimes0 : List Nat
  ueTimes1 : List Nat
deriving DecidableEq, Repr

/-- A requester at an arbitration point (R267): its back-off count, its consecutive losses, whether
it is capped. -/
structure ArbReq where
  count : Nat
  losses : Nat
  capped : Bool
deriving DecidableEq, Repr

/-- An arbitration point (R267): its requesters and the two rotation pointers. -/
structure Arb where
  reqs : SMap ArbReq
  last : Nat
  lastCapped : Nat
deriving DecidableEq, Repr

/-- A request that a far-memory channel's queue holds (R262): the burst, the data written with their
poison, what the check bits say. -/
structure FarReq where
  addr : Nat
  wr : Option (List Byte × Bool)
  err : EccErr
deriving DecidableEq, Repr

/-- A far-memory channel (R257 to R265) beside its `FMEM_CHAN_STAT`. -/
structure ChanSt where
  /-- steps of R261 completed, 0 to 9, and attempts made -/
  trainDone : Nat
  attempts : Nat
  /-- remap table: row and spare index (R265) -/
  remap : List (Nat × Nat)
  spareUsed : Nat
  /-- correctable counts of rows -/
  ceRow : SMap Nat
  /-- rows waiting for retirement, lower row first, with the poison of their bursts -/
  retireQ : List Nat
  /-- outstanding refreshes of each bank (R260), refresh commands issued -/
  refreshDue : SMap Nat
  refreshes : Nat
  rfm : Nat
  zqLatches : Nat
  /-- all-bank refresh commands, issued only in training (R259) -/
  allBank : Nat
  /-- requests that are held, oldest first: the first 64 fill the channel's queue, those after them wait at their
  requesters (R262, R267, R269) -/
  queue : List FarReq
deriving DecidableEq, Repr

/-! ### Culvert fabric -/

/-- A flit (R320): the fields of its trailer and the 248 content bytes. -/
structure Flit where
  fseq : BitVec 12
  ackseq : BitVec 12
  idle : Bool
  retry : Bool
  hdr : Nat
  content : List Byte
deriving DecidableEq, Repr

/-- The link layer of a Culvert port or host lane (R317 to R325, R349, R353). -/
structure LinkSt where
  trainStep : Nat
  /-- next `FSEQ` expected, next `FSEQ` sent, last flit the partner acknowledged -/
  rxNext : BitVec 12
  txNext : BitVec 12
  txAcked : BitVec 12
  retryBuf : List Flit
  needRetry : Bool
  /-- the `ACKSEQ` of the last flit put on the wire -/
  ackSent : BitVec 12
  /-- the marker count at which the receive lanes were aligned, and the partner's ID in their markers
  (R316, R348) -/
  marker : Option (BitVec 32 × BitVec 16)
  /-- bytes of a packet that continues in the next flit -/
  stream : List Byte
  /-- packets received and waiting in the receive buffers -/
  rx : List Pkt
  /-- packets waiting for credits, and flits put on the wire -/
  txq : List Pkt
  wire : List Flit
  /-- credits owed to the partner for VC 0 to 3, and credits this side has granted it -/
  owed : List Nat
  granted : List Nat
  /-- credits held for VC 0 to 3 (on a port, what `CLV_CREDIT_v` reads), and the hello's values -/
  held : List Nat
  heldMax : List Nat
  /-- times of violations within the last 1 ms, and the time each NAK code was last sent -/
  viol : List Nat
  nakAt : SMap (Option Nat)
  /-- a receive lane being swapped (R319), and lanes already failed -/
  swapping : Option Nat
  /-- a transmit lane is being swapped at the partner's request -/
  txSwap : Bool
  deadLanes : List Nat
  /-- the partner's hello has been received -/
  helloSeen : Bool
deriving DecidableEq, Repr

/-- A flow at its source (R326). -/
structure TxFlow where
  next : BitVec 32
  unacked : List Pkt
  /-- packets that wait because 256 are unacknowledged -/
  waiting : List Pkt
  resends : Nat
  lost : Bool
  /-- when the oldest unacknowledged packet was last sent, in µs -/
  sentAt : Nat
deriving DecidableEq, Repr

/-- A flow at its receiver (R326). -/
structure RxFlow where
  expect : BitVec 32
  unacked : Nat
deriving DecidableEq, Repr

/-- Why a READ is outstanding (R323): reconstruction, restore or pair check, with its address. -/
inductive ReadUse
  | reconstruct (addr : Nat)
  | restore (addr : Nat)
  | pairCheck
deriving DecidableEq, Repr

/-- An outstanding READ: its `TAG`, target node, byte count, use, and when it was sent. -/
structure ReadOut where
  tag : BitVec 16
  node : BitVec 16
  bytes : Nat
  use : ReadUse
  since : Nat
deriving DecidableEq, Repr

/-- A partial sum waiting for the own contribution (R334): its place in far memory and its values; for
row records the rows whose values lie there, the bytes of a record that has not arrived whole, and whether the
shard's stream is whole (R337). -/
structure Staged where
  coll : Nat
  step : Nat
  chunk : Nat
  half : Nat
  addr : Nat
  count : Nat
  rows : List Nat
  stream : List Byte
  whole : Bool
deriving DecidableEq, Repr

/-! ### Update engines -/

/-- A reduced gradient chunk or row record handed to an engine (R278, R296). -/
structure Chunk where
  group : Nat
  step : Word
  /-- offset within the sub-shard, or the local row of a row record -/
  off : Nat
  vals : List Word
  /-- the last row record of the group -/
  last : Bool
deriving DecidableEq, Repr

/-- A norm contribution or result (R287). -/
structure Norm where
  sqg : Word × Word
  squ : Word × Word
  sqw : Word × Word
  tMin : BitVec 16
  tMax : BitVec 16
  nonfin : Bool
  ready : Bool
deriving DecidableEq, Repr

/-- A norm all-reduce in progress (R336): engines of this module heard so far, their combination, a
reduce-leg value that waits for it, and whether it has gone on. -/
structure NormRun where
  group : Nat
  step : Nat
  heard : List (Nat × Norm)
  arrived : Option Norm
  sent : Bool
deriving DecidableEq, Repr

/-- A group in progress on an engine (R286 to R305). -/
structure GrpRun where
  step : Word
  covered : List Nat
  sqg : Word × Word
  squ : Word × Word
  sqw : Word × Word
  nonfin : Bool
  /-- touched rows and their place in `PARK` (R296) -/
  rows : List (Nat × Nat)
  normSent : Bool
  norm : Option Norm
  /-- clip coefficient, step count and swap decision once the norm result has been taken -/
  clip : Word
  t : Word
  swap : Bool
  skipped : Bool
  pass2 : Bool
  localDone : Bool
deriving DecidableEq, Repr

/-- A mask rebuild (R303, R304). -/
structure Rebuild where
  group : Nat
  /-- the bitmap that was requested (R303) -/
  base : Nat
  /-- committed generation it starts from -/
  gen : Word
  built : Bool
  /-- ready to be switched to (R304) -/
  ready : Bool
  /-- the `ESEQ` that follows its last mask write in the engine's mirror flow -/
  mark : Nat
deriving DecidableEq, Repr

/-- An update engine (R277). -/
structure EngineSt where
  inQ : List Chunk
  /-- runs by 2 × group + step mod 2 -/
  groups : SMap (Option GrpRun)
  /-- norm results to be taken: step, group, result -/
  normQ : List (Nat × Nat × Norm)
  rebuild : Option Rebuild
  /-- group records sent and not acknowledged: step, group, time sent -/
  pend : List (Word × Nat × Nat)
deriving DecidableEq, Repr

/-! ### Programs -/

/-- A stage of the loaded program (R215), with its assigned core. -/
structure Stage where
  core : Core
  base : Nat
  nfwd : Nat
  nbwd : Nat
  neval : Nat
  /-- handles of the accumulating outputs (R389) of each segment: forward, backward, evaluation -/
  accum : List (List Nat)
deriving DecidableEq, Repr

/-- A schedule entry (R216). -/
structure Sched where
  stage : Nat
  phase : Nat
  mb : Word
deriving DecidableEq, Repr

/-- A shard group (R331): members in ring order as node ID and rank. -/
structure ShardGroup where
  group : Nat
  w : Nat
  pos : Nat
  bf16 : Bool
  members : List (BitVec 16 × Nat)
deriving DecidableEq, Repr

/-- A collective (R331). -/
structure Coll where
  kind : Nat
  ugroup : Nat
  src : Nat
  dst : Nat
  sgroup : Nat
  stage : Nat
deriving DecidableEq, Repr

/-- An update group entry (R280). -/
structure UGroup where
  group : Nat
  rule : Nat
  kind : Nat
  engines : BitVec 4
  nesterov : Bool
  biascorr : Bool
  freeboard : Nat
  rnd : Nat
  sgroup : Nat
  curve : Nat
  wdesc : Nat
  b1 : Word
  b2 : Word
  eps : Word
  lambda : Word
  clip : Word
  trustMax : Word
  slots : Nat
  rowD : Nat
  maxRows : Nat
  bank0 : Nat
  bank1 : Nat
  recBase : Nat
  park : Nat
  mdset0 : Nat
  mdset1 : Nat
  mapBase : Nat
deriving DecidableEq, Repr

/-- The loaded program (R213 to R217). -/
structure Prog where
  addr : Nat
  len : Nat
  steps : Nat
  fuse : Bool
  stages : List Stage
  schedule : List Sched
  chains : List (BitVec 64)
  handles : List Nat
  allocIds : List Nat
  shardGroups : List ShardGroup
  colls : List Coll
  ugroups : List UGroup
  /-- the image has an `UPDATE_GROUPS` section, and with it a commit record -/
  hasUpd : Bool
  commit : Nat
  curves : List (List (Word × Word))
deriving DecidableEq, Repr

/-! ### Host link -/

/-- A command queue (R354, R355). -/
structure HostQ where
  expect : BitVec 32
  /-- accepted and not yet answered, oldest first: command code and the command -/
  accepted : List (BitVec 16 × HostCmd)
  /-- held behind a gap, lowest `CSEQ` first -/
  held : List (BitVec 16 × HostCmd)
  gapSince : Nat
  /-- headers of the responses sent, kept for duplicates: `CSEQ`, header -/
  sent : List (BitVec 32 × BitVec 256)
deriving DecidableEq, Repr

/-- A feed (R366, R367). -/
structure Feed where
  target : BitVec 16
  ring : BitVec 16
  slots : Nat
  /-- slot j holds step k, committed or not: (j, k, committed) -/
  held : List (Nat × Nat × Bool)
deriving DecidableEq, Repr

/-- Where a result of a window stands (R370 to R373). -/
inductive ResState
  | waiting | taken | posted | released
deriving DecidableEq, Repr

/-- A result window (R369). -/
structure Window where
  src : Nat
  size : Nat
  buf : Nat
  bufAlloc : BitVec 16
  srcAlloc : BitVec 16
  slots : Nat
  first : Nat
  /-- results by step, latest first -/
  results : List (Nat × ResState)
  /-- a copy has waited since this time, and its stall has been counted (R370) -/
  waitSince : Nat
  stalled : Bool
  /-- by step, where the free values start that poisoned bytes of its copy read as (R372) -/
  keys : List (Nat × Nat)
deriving DecidableEq, Repr

/-- A phase issued and not yet answered: the schedule entry and whether it is a replay. -/
structure Issued where
  entry : Sched
  core : Core
  replay : Bool
deriving DecidableEq, Repr

/-- The step controller (R23, R31 to R35, R193, R363, R389 to R393). -/
structure Ctl where
  /-- the step that runs, or the last committed one between steps -/
  begun : Nat
  /-- highest step to which `STEP_BEGIN` has been sent (R367) -/
  sentMax : Nat
  /-- highest begun step that is to run to its commit, replays included (R364) -/
  mustRun : Nat
  /-- the events that sent the latest step-begin, and took the twin's latest acknowledgement (R32) -/
  beginCause : Option Cause
  ackCause : Option Cause
  /-- the step whose schedule runs: entries to issue, issued, done -/
  step : Nat
  toIssue : List Sched
  issued : List Issued
  done : List Sched
  /-- phase replays of this step, and step replays of it (R392) -/
  phaseReplays : List (Sched × Nat)
  stepReplays : Nat
  /-- a collective of the step has sent a packet (R390) -/
  collSent : Bool
  /-- all-gather chunks sent or written: (step, collective, chunk) (R335) -/
  got : List (Nat × Nat × Nat)
  /-- a step cannot commit: a flow it needs is unreachable (R35, R387) -/
  failed : Bool
  /-- update collectives whose all-gather of the committed step goes out again (R405) -/
  resent : List Nat
  /-- tainted groups: (step, group) (R388) -/
  tainted : List (Nat × Nat)
  /-- taints that wait behind a recovery window (R408) -/
  taintWait : List (Nat × Nat)
  /-- the latest step whose collectives have started -/
  collStep : Nat
  holdWaiters : List HostCmd
  /-- the wait for committed feeds began at this time, and its stall has been reported -/
  feedWait : Option Nat
  feedStalled : Bool
  /-- commit record: step written, sent to the twin at this time, acknowledged -/
  record : Option (Nat × Nat × Bool)
  /-- a replay that waits for the running segments to end (R390, R393) -/
  replayWait : List (Core × Sched)
  /-- a step replay in progress (R390), and a step that cannot commit (R35) -/
  stepReplay : Bool
  abandoned : Bool
  /-- the commands last sent to cores and without completion (R387, CTRL_POISON) -/
  lastCmd : SMap (List CmdWord)
  /-- step-begin messages under way to non-core islands: island, step -/
  islMsgs : List IslMsg
  /-- completion words received from cores, latest first -/
  seen : List (Core × BitVec 64)
  /-- cores whose running phase met a poisoned `LEN_T` (R212, R392) -/
  lenPoison : List Nat
deriving DecidableEq, Repr

/-! ### Start-up, security, power and pins -/

/-- A root-key slot (R424). -/
structure KeySlot where
  digest : BitVec 512
  programmed : Bool
  revoked : Bool
deriving DecidableEq, Repr

/-- One-time-programmable memory of ED0 half 0 (R424, R425, R433). -/
structure Otp where
  keys : List KeySlot
  svn : Nat
  /-- identity key: private scalar, public X and Y -/
  ident : Option (Nat × Nat × Nat)
  /-- how many writes of the identity key will not read back as written (R433) -/
  badWrites : Nat
deriving DecidableEq, Repr

/-- What the SFDP table of the flash device says of the requirements of R419: Mbit, 1-1-4 fast read, 4-byte
addressing, an erase type of 64 KiB, bytes of a page. -/
structure FlashPart where
  mbit : Nat
  read114 : Bool
  addr4 : Bool
  erase64k : Bool
  page : Nat
deriving DecidableEq, Repr

/-- A configuration in force (R427). -/
structure Cfg where
  node : BitVec 16
  twin : BitVec 16
  port0 : Nat
  port1 : Nat
  mirrorBase : Nat
  mirrorSize : Nat
  dumpBase : Nat
  dumpSize : Nat
  spareBase : Nat
  spareSize : Nat
  caches : List Nat
  pwrLimit : Nat
  repair : List (List (BitVec 16))
deriving DecidableEq, Repr

/-- Whether the package has power (R443, R447). -/
inductive PkgPower
  | off | softStart | good
deriving DecidableEq, Repr

/-- A scan instruction of R491 in force. -/
inductive TapIns
  | extest | sample | idcode | clamp | highz | bypass
deriving DecidableEq, Repr

/-- The test access port (R490 to R493). -/
structure Tap where
  ins : TapIns
  refused : Bool
  boundary : BitVec 12
  bypassBit : Bool
  /-- the bits shifted out by the latest scan -/
  tdo : List Bool
deriving DecidableEq, Repr

/-- A restore in progress (R403, R404). -/
structure Restore where
  target : Nat
  /-- mirror bytes still to be pulled: far-memory address and length -/
  left : List (Nat × Nat)
  poisoned : Bool
deriving DecidableEq, Repr

/-- A resync in progress (R399): units still to be copied, by engine, address and bytes, and, once all are
sent, the `ESEQ` of each engine's mirror flow that their acknowledgement reaches. -/
structure Resync where
  units : List (Half × Nat × Nat)
  marks : List Nat
deriving DecidableEq, Repr

/-- A bridge direction (R16, R17). -/
structure BridgeSt where
  /-- the repair map in force, once it has been applied: entry j is the data wire that spare wire j
  replaces -/
  map : Option (List (BitVec 16))
  /-- levels of the 64 spare wires in the latest transfer -/
  spares : List Bool
  /-- the replay buffer: the latest transfers that were delivered, newest first, at most 32 -/
  replay : List (List Byte)
  /-- transfers to be sent again, in their original order -/
  resend : List (List Byte)
  delivered : Nat
  retryTimes : List Nat
  failed : Bool
deriving DecidableEq, Repr

/-- What an issue check looks at (R198): the descriptors, the drain-chain table and the fusion mode of
the program, the die of the core. -/
structure IssueEnv where
  descs : Nat → Option Desc
  chains : List (BitVec 64)
  fuse : Bool
  die : Nat

/-- Bytes that a drain is about to write, with their poison, by address. -/
abbrev Staging := SMap (Option (Byte × Bool))

/-- An element on its way through a drain lane (R176): its value, the value after step 3, its poison,
whether a stage met or made a non-finite value. -/
structure LaneVal where
  x : Num
  mid : Word
  poison : Bool
  nonfin : Bool

/-- What a tile offers the drain: the run, the tile and its slot, whether the tile is poisoned. -/
structure DrainTile where
  m : RunMop
  t : Tile
  slot : Nat
  poison : Bool
  /-- the output rows that the tile gives, each with the row of the tile that holds it (R139) -/
  rows : List (Nat × Nat)
  /-- elements that have taken their preload at the drain, by m × N_PLAN + n (R139) -/
  summed : SMap (Word × Word)

/-- Who writes: a compute die, an update engine, or another agent. -/
inductive Writer
  | die (d : Nat)
  | engine
  | other
deriving DecidableEq, Repr

/-- Where bytes are read from: memory, or an operand buffer in front of it; and which are poisoned. -/
structure Rd where
  byte : Nat → Byte
  bad : Nat → Bool

/-- A collective of the loaded program with what its ring needs: its index, its shard group, the
descriptor whose shard entries divide it (R333), its update group. -/
structure Ring where
  idx : Nat
  coll : Coll
  sg : ShardGroup
  d : Desc
  ug : Option UGroup

/-- A refusal of an image (R217, R218, R313): code, check, segment, stage, index; the result word of a
failed descriptor; the fields `NO_GROUP`, `TEST` and `GROUP` of `GLB_GRP_LOAD_ERR`. -/
structure LoadErr where
  code : Nat
  check : Nat
  seg : Nat := 3
  stage : Nat := 0x3F
  index : Nat := 0xFFFF
  desc : Option Nat := none
  grp : Option (Bool × Nat × Nat) := none
deriving DecidableEq, Repr

/-- An entry of an image's section table (R213): type, count, offset, size. -/
structure Sect where
  typ : Nat
  count : Nat
  off : Nat
  size : Nat
deriving DecidableEq, Repr

/-- A value with its escape resolved (R62): the entry without its column, the drop of a spill index
out of range, and a reserved INT2 code. -/
structure SlotRead where
  e : Entry
  spillDrop : Bool
  rsv : Bool

end Sys2Proof.Machine
end

