-- ==== Sys2Proof/Machine/State.lean ====
section
/-! DEFINITION. The state of the block as plain data, its faults and refusals, and its state right
after reset (the moment of power good, R418, R447). -/

namespace Sys2Proof.Machine

open Sys2Proof

/-- The faults of a step. -/
inductive Fault
  /-- A memory command names an address that R244 leaves unpopulated. Raised by FMEM_ACCESS,
  FMEM_PATROL_SCRUB, CACHE_FILL, CACHE_INVALIDATE and BURST_RECONSTRUCT. Safe: no requester of the spec can present
  such an address (R105, R358). -/
  | unpopulated (addr : Nat)
deriving DecidableEq, Repr

/-- The refusals of a step. -/
inductive Refusal
  /-- The command has no meaning in this model. Every command has one, so that nothing raises it.
  Safe: no effect is claimed. -/
  | notModelled (mnemonic : String)
deriving DecidableEq, Repr

/-- The state of the module. -/
structure State where
  /-- the control space (R8, R466): register words by address; an unlisted register holds its reset value -/
  regs : SMap Word
  /-- the latch of each accessor (R8): low-word address and latched high word -/
  latch : SMap (Option (Nat × Word))
  /-- the value that each accessor's last read returned -/
  readData : SMap Word
  /-- staged high words of counter writes, by address (R472) -/
  evcStage : SMap Word
  /-- SNAP_ALL and CLEAR_ALL messages under way (R479) -/
  evcMsgs : List EvcMsg
  /-- counters, by address, whose threshold event has been logged since they were last read (R499) -/
  thrFired : List Nat
  /-- memory (R244): near and far -/
  mem : Memory
  /-- poisoned units: base addresses of 64-byte near lines and 32-byte far bursts (R252, R263) -/
  poison : List Nat
  islands : SMap Island
  cores : SMap CoreSt
  dies : SMap DieSt
  arbs : SMap Arb
  chans : SMap ChanSt
  bridges : SMap BridgeSt
  engines : SMap EngineSt
  /-- Culvert ports 0 to 15, then host lanes 0 and 1 -/
  links : SMap LinkSt
  /-- packets held on the way from one edge die to the other (R28, R329) -/
  xfer : List HeldPkt
  /-- flows by peer × 16 + vc × 4 + flow -/
  txFlows : SMap TxFlow
  rxFlows : SMap RxFlow
  /-- outstanding READs and the next TAG -/
  reads : List ReadOut
  nextTag : BitVec 16
  staged : List Staged
  /-- norm all-reduces in progress (R336) -/
  norms : List NormRun
  allocs : SMap (Option Alloc)
  /-- ranges freed while a running macro-operation held a descriptor of theirs (R98): base and size -/
  freed : List (Nat × Nat)
  descs : SMap (Option DescSlot)
  prog : Option Prog
  feeds : SMap (Option Feed)
  windows : SMap (Option Window)
  ctl : Ctl
  hostQs : SMap HostQ
  /-- the next event sequence number (R376) -/
  evtSeq : BitVec 32
  log : List LogEvent
  /-- the breach ring, latest first (R386); breaches queued and windows open (R407, R408) -/
  breaches : List Breach
  breachQ : List Breach
  recWindows : List RecWindow
  dumpWritten : Bool
  dumpReleased : Bool
  /-- where the free values start that poisoned bytes of the dump read as (R374) -/
  dumpKey : Nat
  fatal : Option Breach
  lostPolders : List Nat
  /-- the standby of ED1 half 0 has taken the step controller over (R23) -/
  standby : Bool
  resync : Option Resync
  restore : Option Restore
  /-- a RUN after a restore has still to send its all-gathers (R405) -/
  restored : Bool
  flash : Memory
  flashPart : FlashPart
  /-- kinds whose slot `ACTIVATE` has named since the start (R436) -/
  activated : List Nat
  otp : Otp
  cfg : Option Cfg
  fwVerified : Bool
  cfgVerified : Bool
  healthDirty : Bool
  healthGen : Nat
  power : PkgPower
  /-- the rails that are up, in the order in which they came up, and those turned off by a failure (R447, R448) -/
  rails : List Rail
  railsOff : List Rail
  /-- power states of far-memory channels (by channel) and of a half's engines (192 + half): 0 running,
  1 clock-gated, 2 retention, 3 off (R457) -/
  pwrStates : SMap Nat
  /-- input energy since power good in µJ (R463) -/
  energy : Nat
  /-- when sensors 0 and 1 were last sampled (R463, R464) -/
  inputAt : Option Nat × Option Nat
  /-- `PWR_THROTTLE_T` as of the latest thermal evaluation, in 1/16 °C (R454, R455, R463) -/
  actThrottle : Int
  /-- `MOD_RESET_N` held low, the THERMTRIP_N latch, the housekeeping rail, the sampled straps (R488) -/
  resetHeld : Bool
  thermLatch : Bool
  houseRail : Bool
  straps : BitVec 3
  tap : Tap
  /-- the latest response of the management port: status byte and data (R460, R461) -/
  mgmtRsp : Byte × List Byte
  /-- when the latest command of the management port has run (R461) -/
  mgmtDue : Nat
  /-- the model's clock in µs, advanced by a step on an empty queue -/
  now : Nat
  /-- the model's own counter: how many free values have been drawn -/
  freeCtr : Nat
  /-- the queue of waiting commands, first in, first out -/
  pending : List Instr
deriving DecidableEq, Repr

/-- An island before start-up: in reset, crossings not ready, step 0, its reset still to be counted (R27,
R31, R38). -/
def Island.reset : Island :=
  { step := 0, seq := 0, inReset := true, ready := false, due := true, dueNbr := [] }

/-- Tile, macro-operation and segment flags all clear. -/
def Flags.clear : Flags := { sat := false, poison := false, nonfin := false, empty := false }

/-- A stationary register that holds nothing. -/
def StatBank.empty : StatBank := { pw := none, vals := [] }

/-- A stage core after reset: queues empty (R148), nothing bound, thermal clock 3.6 GHz (R454). DESIGN
CHOICE: accumulator words that no tile has initialized read 0 (R163 gives none; log entry 128). -/
def CoreSt.reset : CoreSt :=
  { cmdq := [], xin := [], held := [], cplq := [], aq := [], bq := [], ixq := [], drq := [], drHeld := [],
    wfq := [], sumq := [], aLast := none, bLast := none, ixLast := none, drLast := none, wfLast := none,
    sumLast := none, bind := none, seg := none, cur := none, prev := none, nextId := 0,
    waitPredict := false, verdict := none, opbuf := [], opPoison := [], fills := [], bankA := StatBank.empty,
    bankB := StatBank.empty, actB := false, pack := none, acc := [], tiles := [],
    tileNonfin := [], tileEmpty := [], auditQ := [], thermClk := 72, thermGated := false,
    droop := false, droopAt := 0, clkDue := none, setClk := 72, volt := 950, progress := 0, failed := false,
    retired := false }

/-- A compute die after reset: engine idle, cache empty. -/
def DieSt.reset : DieSt :=
  { held := [], predQ := [], pred := none, cache := [], plru := [], ueTimes0 := [], ueTimes1 := [] }

/-- A requester that has not lost. -/
def ArbReq.reset : ArbReq := { count := 0, losses := 0, capped := false }

/-- An arbitration point after reset; the rotation starts below index 0. -/
def Arb.reset : Arb := { reqs := [], last := 21, lastCapped := 21 }

/-- A channel before training (R274). -/
def ChanSt.reset : ChanSt :=
  { trainDone := 0, attempts := 0, remap := [], spareUsed := 0, ceRow := [], retireQ := [],
    refreshDue := [], refreshes := 0, rfm := 0, zqLatches := 0, allBank := 0, queue := [] }

/-- A bridge direction with nothing carried. -/
def BridgeSt.reset : BridgeSt :=
  { map := none, spares := [], replay := [], resend := [], delivered := 0, retryTimes := [],
    failed := false }

/-- An idle update engine. -/
def EngineSt.reset : EngineSt :=
  { inQ := [], groups := [], normQ := [], rebuild := none, pend := [] }

/-- A link that is down: sequence numbers 0, buffers empty. -/
def LinkSt.reset : LinkSt :=
  { trainStep := 0, rxNext := 0, txNext := 0, txAcked := 4095, retryBuf := [], needRetry := false,
    ackSent := 4095, marker := none,
    stream := [], rx := [], txq := [], wire := [], owed := [0, 0, 0, 0], granted := [0, 0, 0, 0],
    held := [0, 0, 0, 0], heldMax := [0, 0, 0, 0], viol := [], nakAt := [], swapping := none,
    txSwap := false, deadLanes := [], helloSeen := false }

/-- A flow at its source before its first packet (R326). -/
def TxFlow.reset : TxFlow :=
  { next := 0, unacked := [], waiting := [], resends := 0, lost := false, sentAt := 0 }

/-- A flow at its receiver before its first packet (R326). -/
def RxFlow.reset : RxFlow := { expect := 0, unacked := 0 }

/-- A command queue at module start (R354). -/
def HostQ.reset : HostQ := { expect := 0, accepted := [], held := [], gapSince := 0, sent := [] }

/-- The step controller before a program. -/
def Ctl.reset : Ctl :=
  { begun := 0, sentMax := 0, mustRun := 0, beginCause := none, ackCause := none, step := 0,
    toIssue := [], issued := [], done := [], phaseReplays := [], stepReplays := 0, collSent := false, got := [],
        failed := false, resent := [], tainted := [], taintWait := [], collStep := 0,
    holdWaiters := [], feedWait := none, feedStalled := false, record := none, replayWait := [],
    stepReplay := false, abandoned := false, lastCmd := [], islMsgs := [], seen := [],
    lenPoison := [] }

/-- An empty root-key slot. -/
def KeySlot.empty : KeySlot := { digest := 0, programmed := false, revoked := false }

/-- The module as shipped: slot 0 programmed (R424), no fuse blown, no identity key yet (R433). -/
def Otp.reset : Otp :=
  { keys := [{ digest := 0, programmed := true, revoked := false }, KeySlot.empty, KeySlot.empty,
      KeySlot.empty],
    svn := 0, ident := none, badWrites := 0 }

/-- A flash device that meets R419 and no more (DESIGN CHOICE, log entry 22). -/
def FlashPart.reset : FlashPart := { mbit := 1024, read114 := true, addr4 := true, erase64k := true, page := 256 }

/-- The TAP in Test-Logic-Reset: `IDCODE` selected (R491). -/
def Tap.reset : Tap :=
  { ins := .idcode, refused := false, boundary := 0, bypassBit := false, tdo := [] }

/-- The rails that power good finds up, in the order of R447: the 6 V bus, edge logic, die NoC and SRAM, SerDes,
LPDDR5X. A stage core's comes up with its island. -/
def railOrder : List Rail :=
  .bus6v :: (List.finRange 4).map .vedge ++ ((List.finRange 6).map .vnoc ++ (List.finRange 6).map .vsram) ++
    (List.finRange 4).map .vserdes ++ (List.finRange 4).map .lpddr

/-- The module right after reset: power good, state `BOOTING` (code 0 in `GLB_STATE`), every
register at its reset value, memory and queues empty, no event sent yet (DESIGN CHOICE, log entry 142). -/
def State.reset : State :=
  { regs := [], latch := [], readData := [], evcStage := [], evcMsgs := [], thrFired := [], mem := [], poison := [],
    islands := [], cores := [], dies := [], arbs := [], chans := [], bridges := [], engines := [],
    links := [], xfer := [], txFlows := [], rxFlows := [], reads := [], nextTag := 0, staged := [], norms := [],
    allocs := [], freed := [], descs := [], prog := none, feeds := [], windows := [], ctl := Ctl.reset,
    hostQs := [], evtSeq := 0, log := [], breaches := [],
    breachQ := [], recWindows := [], dumpWritten := false, dumpReleased := false, dumpKey := 0, fatal := none,
    lostPolders := [], standby := false, resync := none, restore := none, restored := false, flash := [],
        flashPart := FlashPart.reset, activated := [],
    otp := Otp.reset, cfg := none, fwVerified := false, cfgVerified := false, healthDirty := false,
    healthGen := 0, power := .good, rails := railOrder, railsOff := [], pwrStates := [], energy := 0,
        inputAt := (none, none), actThrottle := 1520, resetHeld := false,
    thermLatch := false, houseRail := true, straps := 7, tap := Tap.reset, mgmtRsp := (0x22, []), mgmtDue := 0,
    now := 0, freeCtr := 0, pending := [] }

end Sys2Proof.Machine
end

