-- ==== Sys2Proof/Machine/Registers.lean ====
section
/-! DEFINITION. The register tables of the control space (R466 to R468): for each window its rows,
with the field types of R9 as masks, the reset words, and the address of each register by name. -/

namespace Sys2Proof.Machine

open Sys2Proof

/-- A row of a register table: offset in its window, instances and their stride, the bits that are
RW, W1C and RC (every other bit is RO, WO or reserved), the reset word, and whether the register is
the low word of a pair (R8). -/
structure RegRow where
  off : Nat
  n : Nat
  stride : Nat
  rw : Nat
  w1c : Nat
  rc : Nat
  reset : Nat
  pair : Bool
deriving DecidableEq, Repr

/-- The module-global window, part 0. -/
def glbRows0 : List RegRow :=
  [⟨0x0, 1, 4, 0x0, 0x0, 0x0, 0x4E4B0940, false⟩,  -- GLB_ID R469
   ⟨0x4, 1, 4, 0x0, 0x0, 0x0, 0x10101, false⟩,  -- GLB_HWREV R469
   ⟨0x8, 1, 4, 0xFFFFFFFF, 0x0, 0x0, 0x0, false⟩,  -- GLB_SCRATCH R469
   ⟨0xC, 1, 4, 0x0, 0x0, 0x0, 0x8091062, false⟩,  -- GLB_TOPO R469
   ⟨0x10, 1, 4, 0x0, 0x0, 0x0, 0x10000, false⟩,  -- GLB_FTC_VERSION R1
   ⟨0x14, 1, 4, 0x0, 0x0, 0x0, 0x1FF, false⟩,  -- GLB_FTC_FEATURES R1
   ⟨0x18, 1, 4, 0x0, 0x0, 0xFFFFFFFF, 0x0, false⟩,  -- GLB_UNMAPPED_CNT R11
   ⟨0x1C, 1, 4, 0x0, 0x0, 0x0, 0x0, false⟩,  -- GLB_UNMAPPED_ADDR R469
   ⟨0x20, 1, 4, 0x0, 0x0, 0x0, 0x0, false⟩,  -- GLB_STEP_NUM R37
   ⟨0x24, 1, 4, 0x0, 0x0, 0x0, 0x0, false⟩,  -- GLB_EVC_CTL R469
   ⟨0x30, 1, 4, 0x0, 0x0, 0x0, 0x0, false⟩,  -- GLB_STATE R379
   ⟨0x34, 1, 4, 0x0, 0x0, 0xFFFFFFFF, 0x0, false⟩,  -- GLB_STATE_CONFLICT_CNT R380
   ⟨0x3C, 1, 4, 0x0, 0x0, 0x0, 0x0, false⟩,  -- GLB_STEP_LIMIT R380
   ⟨0x40, 1, 4, 0x0, 0x0, 0x0, 0x0, false⟩,  -- GLB_DESC_LAST_ERR R125
   ⟨0x44, 1, 4, 0x0, 0x0, 0xFFFFFFFF, 0x0, false⟩,  -- GLB_DESC_ERR_CNT R125
   ⟨0x48, 1, 4, 0x0, 0x0, 0xFFFFFFFF, 0x0, false⟩,  -- GLB_FEED_STALL_CNT R380
   ⟨0x4C, 1, 4, 0x0, 0x0, 0xFFFFFFFF, 0x0, false⟩,  -- GLB_RESULT_STALL_CNT R380
   ⟨0x50, 1, 4, 0x0, 0x0, 0x0, 0xFF0000, false⟩,  -- GLB_LOAD_STAT R218
   ⟨0x54, 1, 4, 0x0, 0x0, 0x0, 0x0, false⟩,  -- GLB_GRP_LOAD_ERR R313
   ⟨0x60, 1, 4, 0x0, 0x0, 0x0, 0x0, true⟩,  -- GLB_MIRROR_BASE_LO R270
   ⟨0x64, 1, 4, 0x0, 0x0, 0x0, 0x0, false⟩,  -- GLB_MIRROR_BASE_HI R270
   ⟨0x68, 1, 4, 0x0, 0x0, 0x0, 0x0, true⟩,  -- GLB_MIRROR_SIZE_LO R270
   ⟨0x6C, 1, 4, 0x0, 0x0, 0x0, 0x0, false⟩,  -- GLB_MIRROR_SIZE_HI R270
   ⟨0x70, 1, 4, 0x0, 0x0, 0x0, 0x0, true⟩]  -- GLB_DUMP_BASE_LO R270

/-- The module-global window, part 1. -/
def glbRows1 : List RegRow :=
  [⟨0x74, 1, 4, 0x0, 0x0, 0x0, 0x0, false⟩,  -- GLB_DUMP_BASE_HI R270
   ⟨0x78, 1, 4, 0x0, 0x0, 0x0, 0x0, true⟩,  -- GLB_DUMP_SIZE_LO R270
   ⟨0x7C, 1, 4, 0x0, 0x0, 0x0, 0x0, false⟩,  -- GLB_DUMP_SIZE_HI R270
   ⟨0x80, 1, 4, 0x0, 0x0, 0x0, 0x0, true⟩,  -- GLB_SPARE_BASE_LO R270
   ⟨0x84, 1, 4, 0x0, 0x0, 0x0, 0x0, false⟩,  -- GLB_SPARE_BASE_HI R270
   ⟨0x88, 1, 4, 0x0, 0x0, 0x0, 0x0, false⟩,  -- GLB_SPARE_SIZE R270
   ⟨0x90, 1, 4, 0xFFFFFFFF, 0x0, 0x0, 0x3E8, false⟩,  -- HLK_GAP_TMO R380
   ⟨0x94, 1, 4, 0xFFFFFFFF, 0x0, 0x0, 0x1FF, false⟩,  -- HLK_EVT_MASK R380
   ⟨0x98, 1, 4, 0x0, 0x0, 0xFFFFFFFF, 0x0, false⟩,  -- HLK_DUP_CNT R380
   ⟨0x9C, 1, 4, 0x0, 0x0, 0xFFFFFFFF, 0x0, false⟩,  -- HLK_EVT_LOST_CNT R380
   ⟨0x200, 1, 4, 0xFF, 0x0, 0x0, 0x3, false⟩,  -- FLT_CTL R414
   ⟨0x204, 1, 4, 0xFFFFFFFF, 0x0, 0x0, 0x4E20, false⟩,  -- FLT_CORE_WDOG R413
   ⟨0x208, 1, 4, 0x0, 0x0, 0x0, 0x0, false⟩,  -- FLT_STAT R415
   ⟨0x20C, 1, 4, 0x0, 0x0, 0x0, 0x0, false⟩,  -- FLT_LOG_HEAD R413
   ⟨0x210, 1, 4, 0xFFFFFFFF, 0x0, 0x0, 0x0, false⟩,  -- FLT_LOG_IDX R413
   ⟨0x220, 8, 4, 0x0, 0x0, 0x0, 0x0, false⟩,  -- FLT_LOG_DATA R413
   ⟨0x240, 1, 4, 0x0, 0x0, 0xFFFFFFFF, 0x0, false⟩,  -- FLT_BREACH_CNT R413
   ⟨0x244, 1, 4, 0x0, 0x0, 0xFFFFFFFF, 0x0, false⟩,  -- FLT_REPLAY_PHASE_CNT R413
   ⟨0x248, 1, 4, 0x0, 0x0, 0xFFFFFFFF, 0x0, false⟩,  -- FLT_REPLAY_STEP_CNT R413
   ⟨0x24C, 1, 4, 0x0, 0x0, 0xFFFFFFFF, 0x0, false⟩,  -- FLT_TAKEOVER_CNT R413
   ⟨0x250, 1, 4, 0x0, 0x0, 0xFFFFFFFF, 0x0, false⟩,  -- FLT_GRAD_LOST_CNT R413
   ⟨0x254, 1, 4, 0x0, 0x0, 0xFFFFFFFF, 0x0, false⟩,  -- FLT_RECON_CNT R413
   ⟨0x260, 1, 4, 0xFFFFFFFF, 0x0, 0x0, 0x0, false⟩,  -- FLT_RESTORE_TARGET R413
   ⟨0x264, 1, 4, 0x0, 0x0, 0x0, 0x0, false⟩]  -- FLT_RESTORE_CTL R413

/-- The module-global window, part 2. DESIGN CHOICE: `BOOT_READY_CORE_LO` and `_HI`, and `BOOT_READY_FMEM_LO`
and `_HI` (R440), are two masks each and no value wider than 32 bits: no latch (log entry 135). -/
def glbRows2 : List RegRow :=
  [⟨0x268, 1, 4, 0x0, 0x0, 0x0, 0x0, false⟩,  -- FLT_RESTORE_STAT R416
   ⟨0x270, 1, 4, 0x0, 0x0, 0x0, 0x0, true⟩,  -- FLT_RESYNC_LEFT_LO R413
   ⟨0x274, 1, 4, 0x0, 0x0, 0x0, 0x0, false⟩,  -- FLT_RESYNC_LEFT_HI R413
   ⟨0x300, 1, 4, 0x0, 0x0, 0x0, 0x0, false⟩,  -- BOOT_STAT R439
   ⟨0x304, 1, 4, 0x0, 0x0, 0x0, 0x0, false⟩,  -- BOOT_READY_DIE R440
   ⟨0x308, 1, 4, 0x0, 0x0, 0x0, 0x0, false⟩,  -- BOOT_READY_CORE_LO R440
   ⟨0x30C, 1, 4, 0x0, 0x0, 0x0, 0x0, false⟩,  -- BOOT_READY_CORE_HI R440
   ⟨0x310, 1, 4, 0x0, 0x0, 0x0, 0x0, false⟩,  -- BOOT_READY_FMEM_LO R440
   ⟨0x314, 1, 4, 0x0, 0x0, 0x0, 0x0, false⟩,  -- BOOT_READY_FMEM_HI R440
   ⟨0x318, 1, 4, 0x0, 0x0, 0x0, 0x0, false⟩,  -- BOOT_READY_PORT R440
   ⟨0x400, 1, 4, 0x0, 0x0, 0x0, 0x1000, false⟩,  -- SEC_STAT R441
   ⟨0x404, 1, 4, 0x0, 0x0, 0x0, 0x0, false⟩,  -- SEC_SVN R442
   ⟨0x440, 33, 4, 0x0, 0x0, 0x0, 0x0, false⟩,  -- SEC_ID_PUB R442
   ⟨0x500, 16, 4, 0x0, 0x0, 0x0, 0x0, false⟩,  -- SEC_FW_MEAS R442
   ⟨0x540, 16, 4, 0x0, 0x0, 0x0, 0x0, false⟩,  -- SEC_CFG_MEAS R442
   ⟨0x580, 16, 4, 0x0, 0x0, 0x0, 0x0, false⟩,  -- SEC_IMG_MEAS R442
   ⟨0x600, 1, 4, 0x0, 0x0, 0x0, 0x480000, false⟩,  -- PWR_STAT R463
   ⟨0x604, 1, 4, 0xFFFF, 0x0, 0x0, 0x0, false⟩,  -- PWR_CAP R463
   ⟨0x608, 1, 4, 0xFFFF, 0x0, 0x0, 0x64, false⟩,  -- PWR_CAP_HYST R463
   ⟨0x60C, 1, 4, 0xFF, 0x0, 0x0, 0x48, false⟩,  -- PWR_FMAX R463
   ⟨0x610, 1, 4, 0xFFFF, 0x0, 0x0, 0x5F0, false⟩,  -- PWR_THROTTLE_T R463
   ⟨0x620, 4, 4, 0xFFFFFFFF, 0x0, 0x0, 0x32, false⟩,  -- PWR_LATBUDGET R463
   ⟨0x640, 1, 4, 0x0, 0x0, 0x0, 0x0, true⟩,  -- PWR_ENERGY_LO R463
   ⟨0x644, 1, 4, 0x0, 0x0, 0x0, 0x0, false⟩]  -- PWR_ENERGY_HI R463

/-- The module-global window, part 3. -/
def glbRows3 : List RegRow :=
  [⟨0x648, 1, 4, 0x0, 0x0, 0xFFFFFFFF, 0x0, false⟩,  -- PWR_DROOP_CNT R463
   ⟨0x64C, 1, 4, 0x0, 0x0, 0xFFFF, 0x0, false⟩,  -- PWR_PEAK R463
   ⟨0x800, 256, 4, 0x0, 0x0, 0x0, 0x0, false⟩,  -- TEL_SENSOR R464
   ⟨0xC00, 8, 8, 0x800000FF, 0x0, 0x0, 0x0, false⟩,  -- TEL_ALERT_SEL R465
   ⟨0xC04, 8, 8, 0xFFFFFF, 0x0, 0x0, 0x0, false⟩,  -- TEL_ALERT_VAL R465
   ⟨0xC40, 1, 4, 0x0, 0xFF, 0x0, 0x0, false⟩]  -- TEL_ALERT_STAT R465

/-- The module-global window. -/
def glbRows : List RegRow := glbRows0 ++ glbRows1 ++ glbRows2 ++ glbRows3

/-- The die-common part of a compute-die window, part 0. -/
def dieRows0 : List RegRow :=
  [⟨0x8, 1, 4, 0x0, 0x0, 0xFF, 0x38280000, false⟩,  -- TEL_ISLAND_STAT R470
   ⟨0xC, 1, 4, 0x0, 0x0, 0xFFFFFFFF, 0x0, false⟩,  -- TEL_XING_DROP R470
   ⟨0x8000, 1, 4, 0x10F, 0x0, 0x0, 0x106, false⟩,  -- PRD_CTL R239
   ⟨0x8004, 1, 4, 0x0, 0x0, 0x0, 0x0, false⟩,  -- PRD_STAT R240
   ⟨0x8008, 1, 4, 0xFFFFFFFF, 0x0, 0x0, 0x0, false⟩,  -- PRD_MISS_EPS R241
   ⟨0x800C, 1, 4, 0x0, 0x0, 0xFFFFFFFF, 0x0, false⟩,  -- PRD_MAP_BAD_CNT R241
   ⟨0x8010, 1, 4, 0x0, 0x0, 0xFFFFFFFF, 0x0, false⟩,  -- PRD_DONE_CNT R241
   ⟨0x8014, 1, 4, 0xFFFFFFFF, 0x0, 0x0, 0x0, false⟩,  -- PRD_MISS_THR R241
   ⟨0x8400, 256, 4, 0xFFFFFFFF, 0x0, 0x0, 0x0, false⟩,  -- PRD_THR R242
   ⟨0x8800, 256, 4, 0x0, 0x0, 0xFFFFFFFF, 0x0, false⟩,  -- PRD_AUD_ROWS R242
   ⟨0x8C00, 256, 4, 0x0, 0x0, 0xFFFFFFFF, 0x0, false⟩,  -- PRD_AUD_MISS R242
   ⟨0x9000, 256, 4, 0x0, 0x0, 0x0, 0x0, false⟩,  -- PRD_OFFSET R242
   ⟨0xA000, 1, 4, 0x0, 0x0, 0x0, 0x0, false⟩,  -- NMEM_CFG R271
   ⟨0xA010, 10, 4, 0xFFFF, 0x0, 0x0, 0xFFFF, false⟩,  -- NMEM_CACHE_WAYMASK R272
   ⟨0xA040, 1, 4, 0x0, 0x0, 0xFFFFFFFF, 0x0, false⟩,  -- NMEM_CE_CNT R273
   ⟨0xA044, 1, 4, 0x0, 0x0, 0xFFFFFFFF, 0x0, false⟩,  -- NMEM_UE_CNT R273
   ⟨0xA048, 1, 4, 0x0, 0x0, 0xFFFFFFFF, 0x0, false⟩,  -- NMEM_INVAL_CNT R273
   ⟨0xA04C, 1, 4, 0x0, 0x0, 0xFFFFFFFF, 0x0, false⟩,  -- NMEM_ARB_CAP_CNT R273
   ⟨0xC0000, 32, 32, 0xB07F03FF, 0x40000000, 0x0, 0x207F0000, false⟩,  -- EVC_SEL R473
   ⟨0xC0004, 32, 32, 0xFFFFFFFF, 0x0, 0x0, 0x0, true⟩,  -- EVC_CNT_LO R472
   ⟨0xC0008, 32, 32, 0xFFFF, 0x0, 0x0, 0x0, false⟩,  -- EVC_CNT_HI R472
   ⟨0xC000C, 32, 32, 0x0, 0x0, 0x0, 0x0, true⟩,  -- EVC_SNAP_LO R472
   ⟨0xC0010, 32, 32, 0x0, 0x0, 0x0, 0x0, false⟩,  -- EVC_SNAP_HI R472
   ⟨0xC0800, 1, 4, 0xE, 0x0, 0x0, 0x0, false⟩]  -- EVC_CTL R474

/-- The die-common part of a compute-die window, part 1. -/
def dieRows1 : List RegRow :=
  [⟨0xC0804, 1, 4, 0x0, 0xFFFFFFFF, 0x0, 0x0, false⟩,  -- EVC_STAT R475
   ⟨0xC0808, 1, 4, 0x0, 0x0, 0x0, 0x0, false⟩,  -- EVC_SNAP_STEP R475
   ⟨0xC080C, 1, 4, 0x0, 0x0, 0x0, 0x0, false⟩]  -- EVC_SNAP_INFO R475

/-- The die-common part of a compute-die window. -/
def dieRows : List RegRow := dieRows0 ++ dieRows1

/-- A core window, part 0. -/
def coreRows0 : List RegRow :=
  [⟨0x8, 1, 4, 0x0, 0x0, 0xFF, 0xC00, false⟩,  -- CORE_ISLAND_STAT R38
   ⟨0xC, 1, 4, 0x0, 0x0, 0xFFFFFFFF, 0x0, false⟩,  -- CORE_XING_DROP R39
   ⟨0x10, 1, 4, 0x0, 0xFF00FC, 0x0, 0x0, false⟩,  -- CORE_Q_STAT R153
   ⟨0x14, 1, 4, 0x0, 0x0, 0x0, 0x0, false⟩,  -- CORE_Q_PKT0 R154
   ⟨0x18, 1, 4, 0x0, 0x0, 0x0, 0x0, false⟩,  -- CORE_Q_PKT1 R154
   ⟨0x1C, 1, 4, 0x0, 0x0, 0xFFFFFFFF, 0x0, false⟩,  -- CORE_Q_POISON_CNT R154
   ⟨0x4000, 1, 4, 0x0, 0x0, 0x0, 0x0, false⟩,  -- SEQ_STAGE R219
   ⟨0x4004, 1, 4, 0x0, 0x0, 0x0, 0x0, false⟩,  -- SEQ_STAT R220
   ⟨0x4010, 8, 4, 0xFFFFFFFF, 0x0, 0x0, 0x0, false⟩,  -- SEQ_LEN R221
   ⟨0x4030, 1, 4, 0x0, 0x0, 0xFFFFFFFF, 0x0, false⟩,  -- SEQ_PAIR_SKIP_CNT R222
   ⟨0x4034, 1, 4, 0x0, 0x0, 0xFFFFFFFF, 0x0, false⟩,  -- SEQ_WIN_SKIP_CNT R222
   ⟨0x4038, 1, 4, 0x0, 0x0, 0xFFFFFFFF, 0x0, false⟩,  -- SEQ_REFUSE_CNT R222
   ⟨0x403C, 1, 4, 0x0, 0x80000000, 0x0, 0x0, false⟩,  -- SEQ_LAST_REFUSE R223
   ⟨0x4040, 1, 4, 0x0, 0x0, 0xFFFFFFFF, 0x0, false⟩,  -- SEQ_MOP_CNT R222
   ⟨0x5000, 1, 4, 0x1, 0x0, 0x0, 0x1, false⟩,  -- FDR_CTL R150
   ⟨0x5004, 1, 4, 0x0, 0x0, 0x0, 0x0, false⟩,  -- FDR_STAT R151
   ⟨0x5100, 1, 4, 0x0, 0x0, 0xFFFFFFFF, 0x0, false⟩,  -- FDR_VAL_RSV_CNT R67
   ⟨0x5110, 1, 4, 0x0, 0x0, 0xFFFFFFFF, 0x0, false⟩,  -- FDR_MDROP_NEG_CNT R93
   ⟨0x5114, 1, 4, 0x0, 0x0, 0xFFFFFFFF, 0x0, false⟩,  -- FDR_MDROP_RANGE_CNT R93
   ⟨0x5118, 1, 4, 0x0, 0x0, 0xFFFFFFFF, 0x0, false⟩,  -- FDR_MDROP_NMEX_CNT R93
   ⟨0x511C, 1, 4, 0x0, 0x0, 0xFFFFFFFF, 0x0, false⟩,  -- FDR_MDROP_PTR_CNT R93
   ⟨0x5120, 1, 4, 0xFFFFFFFF, 0x0, 0x0, 0x0, false⟩,  -- FDR_MDROP_NEG_THR R94
   ⟨0x5124, 1, 4, 0xFFFFFFFF, 0x0, 0x0, 0x0, false⟩,  -- FDR_MDROP_RANGE_THR R94
   ⟨0x5128, 1, 4, 0xFFFFFFFF, 0x0, 0x0, 0x0, false⟩]  -- FDR_MDROP_NMEX_THR R94

/-- A core window, part 1. DESIGN CHOICE: `ACC_SAT_TILE0` and `1`, and `ACC_POISON_TILE0` and `1` (R187), are two maps
of 32 slots each and no value wider than 32 bits: no latch (log entry 135). -/
def coreRows1 : List RegRow :=
  [⟨0x512C, 1, 4, 0xFFFFFFFF, 0x0, 0x0, 0x0, false⟩,  -- FDR_MDROP_PTR_THR R94
   ⟨0x5130, 1, 4, 0x0, 0x80000000, 0x0, 0x0, false⟩,  -- FDR_MDROP_LAST R95
   ⟨0x5134, 1, 4, 0x0, 0x0, 0x0, 0x0, false⟩,  -- FDR_MDROP_ROW R95
   ⟨0x5140, 1, 4, 0x0, 0x0, 0xFFFFFFFF, 0x0, false⟩,  -- FDR_ISECT_DROP_CNT R152
   ⟨0x5144, 1, 4, 0x0, 0x0, 0xFFFFFFFF, 0x0, false⟩,  -- FDR_ZERO_SKIP_CNT R152
   ⟨0x5148, 1, 4, 0x0, 0x0, 0xFFFFFFFF, 0x0, false⟩,  -- FDR_BAND_SPLIT_CNT R152
   ⟨0x514C, 1, 4, 0x0, 0x0, 0xFFFFFFFF, 0x0, false⟩,  -- FDR_MRG_DUP_CNT R152
   ⟨0x5150, 1, 4, 0x0, 0x0, 0xFFFFFFFF, 0x0, false⟩,  -- FDR_MRG_SEG_CNT R152
   ⟨0x6000, 1, 4, 0x0, 0x0, 0x0, 0x0, false⟩,  -- DRN_CTL R184
   ⟨0x6004, 1, 4, 0x0, 0x0, 0x0, 0x0, false⟩,  -- DRN_STAT R185
   ⟨0x6100, 3, 4, 0x730, 0x0, 0x0, 0x0, false⟩,  -- DRN_CVT_CTL R65
   ⟨0x6110, 1, 4, 0x0, 0x0, 0xFFFFFFFF, 0x0, false⟩,  -- DRN_OVERTOP_CNT R67
   ⟨0x6114, 1, 4, 0x0, 0x0, 0xFFFFFFFF, 0x0, false⟩,  -- DRN_SPILL_FULL_CNT R67
   ⟨0x6118, 1, 4, 0x0, 0x0, 0xFFFFFFFF, 0x0, false⟩,  -- DRN_SAT_CNT R67
   ⟨0x611C, 1, 4, 0x0, 0x0, 0xFFFFFFFF, 0x0, false⟩,  -- DRN_NONFIN_CNT R67
   ⟨0x6120, 1, 4, 0xFFFFFFFF, 0x0, 0x0, 0x0, false⟩,  -- DRN_OVERTOP_THR R68
   ⟨0x6124, 1, 4, 0x0, 0x0, 0xFFFFFFFF, 0x0, false⟩,  -- DRN_CAP_FULL_CNT R119
   ⟨0x7000, 1, 4, 0x0, 0xF, 0x0, 0x0, false⟩,  -- ACC_STAT R186
   ⟨0x7004, 1, 4, 0x0, 0x0, 0xFFFFFFFF, 0x0, false⟩,  -- ACC_SAT_CNT R187
   ⟨0x7008, 2, 4, 0x0, 0x0, 0x0, 0x0, false⟩,  -- ACC_SAT_TILE R187
   ⟨0x7010, 2, 4, 0x0, 0x0, 0x0, 0x0, false⟩,  -- ACC_POISON_TILE R187
   ⟨0x7018, 1, 4, 0x0, 0x0, 0xFFFFFFFF, 0x0, false⟩,  -- ACC_NONFIN_CNT R187
   ⟨0x701C, 1, 4, 0xFFFFFFFF, 0x0, 0x0, 0x0, false⟩,  -- ACC_SAT_THR R188
   ⟨0xF000, 8, 32, 0xB07F03FF, 0x40000000, 0x0, 0x207F0000, false⟩]  -- EVC_SEL R473

/-- A core window, part 2. -/
def coreRows2 : List RegRow :=
  [⟨0xF004, 8, 32, 0xFFFFFFFF, 0x0, 0x0, 0x0, true⟩,  -- EVC_CNT_LO R472
   ⟨0xF008, 8, 32, 0xFFFF, 0x0, 0x0, 0x0, false⟩,  -- EVC_CNT_HI R472
   ⟨0xF00C, 8, 32, 0x0, 0x0, 0x0, 0x0, true⟩,  -- EVC_SNAP_LO R472
   ⟨0xF010, 8, 32, 0x0, 0x0, 0x0, 0x0, false⟩,  -- EVC_SNAP_HI R472
   ⟨0xF800, 1, 4, 0xE, 0x0, 0x0, 0x0, false⟩,  -- EVC_CTL R474
   ⟨0xF804, 1, 4, 0x0, 0xFF, 0x0, 0x0, false⟩,  -- EVC_STAT R475
   ⟨0xF808, 1, 4, 0x0, 0x0, 0x0, 0x0, false⟩,  -- EVC_SNAP_STEP R475
   ⟨0xF80C, 1, 4, 0x0, 0x0, 0x0, 0x0, false⟩]  -- EVC_SNAP_INFO R475

/-- A core window. -/
def coreRows : List RegRow := coreRows0 ++ coreRows1 ++ coreRows2

/-- An edge-die window, part 0. -/
def edgeRows0 : List RegRow :=
  [⟨0x8, 1, 4, 0x0, 0x0, 0xFF, 0x40280000, false⟩,  -- TEL_ISLAND_STAT R470
   ⟨0xC, 1, 4, 0x0, 0x0, 0xFFFFFFFF, 0x0, false⟩,  -- TEL_XING_DROP R470
   ⟨0x10000, 96, 4, 0x0, 0x0, 0xFF00, 0x0, false⟩,  -- FMEM_CHAN_STAT R274
   ⟨0x10200, 1, 4, 0x0, 0x0, 0xFFFFFFFF, 0x0, false⟩,  -- FMEM_CE_CNT R275
   ⟨0x10204, 1, 4, 0x0, 0x0, 0xFFFFFFFF, 0x0, false⟩,  -- FMEM_UE_CNT R275
   ⟨0x10208, 1, 4, 0x0, 0x0, 0xFFFFFFFF, 0x0, false⟩,  -- FMEM_RETIRE_CNT R275
   ⟨0x1020C, 1, 4, 0x0, 0x0, 0xFFFFFFFF, 0x0, false⟩,  -- FMEM_RETIRE_FULL_CNT R275
   ⟨0x10210, 1, 4, 0x0, 0x0, 0xFFFFFFFF, 0x0, false⟩,  -- FMEM_MIRROR_BYPASS_CNT R275
   ⟨0x10214, 1, 4, 0x0, 0x0, 0xFFFFFFFF, 0x0, false⟩,  -- FMEM_ARB_CAP_CNT R275
   ⟨0x10218, 1, 4, 0xFFFFFFFF, 0x0, 0x0, 0x10, false⟩,  -- FMEM_CE_ROW_THR R275
   ⟨0x10220, 1, 4, 0x0, 0x0, 0x0, 0x0, true⟩,  -- FMEM_ERR_LAST_LO R276
   ⟨0x10224, 1, 4, 0x0, 0x80000000, 0x0, 0x0, false⟩,  -- FMEM_ERR_LAST_HI R276
   ⟨0x20000, 2, 4096, 0xF00, 0x0, 0x0, 0x200, false⟩,  -- UPD_CTL R308
   ⟨0x20004, 2, 4096, 0x0, 0x0, 0x0, 0x0, false⟩,  -- UPD_STAT R309
   ⟨0x20008, 2, 4096, 0x0, 0x0, 0x0, 0x0, false⟩,  -- UPD_STEP R310
   ⟨0x2000C, 2, 4096, 0x0, 0x0, 0x0, 0x0, false⟩,  -- UPD_MIRROR_PEND R310
   ⟨0x20010, 2, 4096, 0xFFFFFFFF, 0x0, 0x0, 0x186A0, false⟩,  -- UPD_TWIN_TMO R310
   ⟨0x20020, 2, 4096, 0x0, 0x0, 0xFFFFFFFF, 0x0, false⟩,  -- UPD_STEP_SKEW_CNT R310
   ⟨0x20024, 2, 4096, 0x0, 0x0, 0xFFFFFFFF, 0x0, false⟩,  -- UPD_NONFIN_SKIP_CNT R310
   ⟨0x20028, 2, 4096, 0x0, 0x0, 0xFFFFFFFF, 0x0, false⟩,  -- UPD_CHUNK_DROP_CNT R310
   ⟨0x2002C, 2, 4096, 0x0, 0x0, 0xFFFFFFFF, 0x0, false⟩,  -- UPD_RECOMP_LATE_CNT R310
   ⟨0x20030, 2, 4096, 0x0, 0x0, 0xFFFFFFFF, 0x0, false⟩,  -- UPD_RECOMP_DROP_CNT R310
   ⟨0x20034, 2, 4096, 0x0, 0x0, 0xFFFFFFFF, 0x0, false⟩,  -- UPD_GRP_DONE_CNT R310
   ⟨0x20038, 2, 4096, 0x0, 0x0, 0xFFFFFFFF, 0x0, false⟩]  -- UPD_NONFIN_OUT_CNT R310

/-- An edge-die window, part 1. -/
def edgeRows1 : List RegRow :=
  [⟨0x2003C, 2, 4096, 0x0, 0x0, 0xFFFFFFFF, 0x0, false⟩,  -- UPD_SAT_CNT R310
   ⟨0x20040, 2, 4096, 0x0, 0x80000000, 0x0, 0x0, false⟩,  -- UPD_LAST_SKEW R311
   ⟨0x20044, 2, 4096, 0x0, 0x0, 0x0, 0x0, false⟩,  -- UPD_LAST_SKEW_T R311
   ⟨0x20050, 2, 4096, 0xFFFFFFFF, 0x0, 0x0, 0x0, true⟩,  -- UPD_RECOMP_MASK_LO R312
   ⟨0x20054, 2, 4096, 0xFFFF, 0x0, 0x0, 0x0, false⟩,  -- UPD_RECOMP_MASK_HI R312
   ⟨0x20058, 2, 4096, 0x0, 0x0, 0x0, 0x0, false⟩,  -- UPD_RECOMP_REQ R312
   ⟨0x2005C, 2, 4096, 0x0, 0x0, 0x0, 0x0, false⟩,  -- UPD_RECOMP_STAT R312
   ⟨0x30000, 8, 256, 0x0, 0x0, 0x0, 0x90FFFF, false⟩,  -- CLV_PORT_STAT R344
   ⟨0x30004, 8, 256, 0x0, 0x0, 0x0, 0x0, false⟩,  -- CLV_PORT_CTL R344
   ⟨0x30008, 8, 256, 0x0, 0x0, 0xFFFFFFFF, 0x0, false⟩,  -- CLV_CRC_RETRY_CNT R345
   ⟨0x3000C, 8, 256, 0x0, 0x0, 0xFFFFFFFF, 0x0, false⟩,  -- CLV_FEC_CORR_CNT R345
   ⟨0x30010, 8, 256, 0x0, 0x0, 0xFFFFFFFF, 0x0, false⟩,  -- CLV_FEC_UNCORR_CNT R345
   ⟨0x30014, 8, 256, 0x0, 0x0, 0xFFFFFFFF, 0x0, false⟩,  -- CLV_LANE_SWAP_CNT R345
   ⟨0x30018, 8, 256, 0x0, 0x0, 0xFFFFFFFF, 0x0, false⟩,  -- CLV_E2E_OOO_CNT R345
   ⟨0x3001C, 8, 256, 0x0, 0x0, 0xFFFFFFFF, 0x0, false⟩,  -- CLV_TTL_DROP_CNT R345
   ⟨0x30020, 8, 256, 0x0, 0x0, 0xFFFFFFFF, 0x0, false⟩,  -- CLV_VIOL_CNT_1 R345
   ⟨0x30024, 8, 256, 0x0, 0x0, 0xFFFFFFFF, 0x0, false⟩,  -- CLV_VIOL_CNT_2 R345
   ⟨0x30028, 8, 256, 0x0, 0x0, 0xFFFFFFFF, 0x0, false⟩,  -- CLV_VIOL_CNT_3 R345
   ⟨0x3002C, 8, 256, 0x0, 0x0, 0xFFFFFFFF, 0x0, false⟩,  -- CLV_VIOL_CNT_4 R345
   ⟨0x30030, 8, 256, 0x0, 0x0, 0xFFFFFFFF, 0x0, false⟩,  -- CLV_VIOL_CNT_5 R345
   ⟨0x30034, 8, 256, 0x0, 0x0, 0xFFFFFFFF, 0x0, false⟩,  -- CLV_VIOL_CNT_6 R345
   ⟨0x30038, 8, 256, 0x0, 0x0, 0xFFFFFFFF, 0x0, false⟩,  -- CLV_VIOL_CNT_7 R345
   ⟨0x3003C, 8, 256, 0x0, 0x0, 0xFFFFFFFF, 0x0, false⟩,  -- CLV_VIOL_CNT_8 R345
   ⟨0x30040, 8, 256, 0x0, 0x0, 0xFFFFFFFF, 0x0, false⟩]  -- CLV_VIOL_CNT_9 R345

/-- An edge-die window, part 2. -/
def edgeRows2 : List RegRow :=
  [⟨0x30050, 8, 256, 0x0, 0x0, 0x0, 0x0, false⟩,  -- CLV_CREDIT_0 R345
   ⟨0x30054, 8, 256, 0x0, 0x0, 0x0, 0x0, false⟩,  -- CLV_CREDIT_1 R345
   ⟨0x30058, 8, 256, 0x0, 0x0, 0x0, 0x0, false⟩,  -- CLV_CREDIT_2 R345
   ⟨0x3005C, 8, 256, 0x0, 0x0, 0x0, 0x0, false⟩,  -- CLV_CREDIT_3 R345
   ⟨0x30060, 8, 256, 0x0, 0x0, 0xFF, 0x0, false⟩,  -- CLV_TRAIN R345
   ⟨0x30064, 8, 256, 0x0, 0x80000000, 0x0, 0x0, false⟩,  -- CLV_LAST_VIOL R346
   ⟨0x30800, 1, 4, 0x0, 0x0, 0x0, 0xFFFF, false⟩,  -- CLV_NODE_ID R343
   ⟨0x30804, 1, 4, 0x0, 0x0, 0x0, 0xFFFF, false⟩,  -- CLV_TWIN_NODE R343
   ⟨0x30808, 1, 4, 0xFFFFFFFF, 0x0, 0x0, 0xC8, false⟩,  -- CLV_E2E_TMO R343
   ⟨0x3080C, 1, 4, 0xFFFFFFFF, 0x0, 0x0, 0x10, false⟩,  -- CLV_FENCE_THR R343
   ⟨0x30840, 4, 16, 0xFFFFFFFF, 0x0, 0x0, 0x0, true⟩,  -- CLV_WIN_BASE_LO R343
   ⟨0x30844, 4, 16, 0xFFFF, 0x0, 0x0, 0x0, false⟩,  -- CLV_WIN_BASE_HI R343
   ⟨0x30848, 4, 16, 0xFFFFFFFF, 0x0, 0x0, 0x0, true⟩,  -- CLV_WIN_SIZE_LO R343
   ⟨0x3084C, 4, 16, 0xFFFF, 0x0, 0x0, 0x0, false⟩,  -- CLV_WIN_SIZE_HI R343
   ⟨0x31000, 2, 256, 0x0, 0x0, 0x0, 0x0, false⟩,  -- CLV_COLL_STAT R347
   ⟨0x31004, 2, 256, 0x0, 0x0, 0xFFFFFFFF, 0x0, false⟩,  -- CLV_COLL_CHUNK_CNT R347
   ⟨0x31008, 2, 256, 0x0, 0x0, 0xFFFFFFFF, 0x0, false⟩,  -- CLV_COLL_STAGED_CNT R347
   ⟨0x3100C, 2, 256, 0x0, 0x0, 0xFFFFFFFF, 0x0, false⟩,  -- CLV_COLL_NONFIN_CNT R347
   ⟨0x32000, 256, 4, 0x8000FFFF, 0x0, 0x0, 0x0, false⟩,  -- CLV_RT1 R343
   ⟨0x32400, 256, 4, 0x8000FFFF, 0x0, 0x0, 0x0, false⟩,  -- CLV_RT2 R343
   ⟨0x40000, 1, 4, 0x0, 0x0, 0xFF, 0x0, false⟩,  -- HLK_LANE_STAT R381
   ⟨0x40008, 1, 4, 0x0, 0x0, 0xFFFFFFFF, 0x0, false⟩,  -- HLK_CRC_RETRY_CNT R382
   ⟨0x4000C, 1, 4, 0x0, 0x0, 0xFFFFFFFF, 0x0, false⟩,  -- HLK_FEC_CORR_CNT R382
   ⟨0x40010, 1, 4, 0x0, 0x0, 0xFFFFFFFF, 0x0, false⟩]  -- HLK_FEC_UNCORR_CNT R382

/-- An edge-die window, part 3. -/
def edgeRows3 : List RegRow :=
  [⟨0x40020, 5, 4, 0x0, 0x0, 0xFFFFFFFF, 0x0, false⟩,  -- HLK_VIOL_CNT R382
   ⟨0x40040, 1, 4, 0x0, 0x80000000, 0x0, 0x0, false⟩,  -- HLK_LAST_VIOL R382
   ⟨0xC0000, 32, 32, 0xB07F03FF, 0x40000000, 0x0, 0x207F0000, false⟩,  -- EVC_SEL R473
   ⟨0xC0004, 32, 32, 0xFFFFFFFF, 0x0, 0x0, 0x0, true⟩,  -- EVC_CNT_LO R472
   ⟨0xC0008, 32, 32, 0xFFFF, 0x0, 0x0, 0x0, false⟩,  -- EVC_CNT_HI R472
   ⟨0xC000C, 32, 32, 0x0, 0x0, 0x0, 0x0, true⟩,  -- EVC_SNAP_LO R472
   ⟨0xC0010, 32, 32, 0x0, 0x0, 0x0, 0x0, false⟩,  -- EVC_SNAP_HI R472
   ⟨0xC0800, 1, 4, 0xE, 0x0, 0x0, 0x0, false⟩,  -- EVC_CTL R474
   ⟨0xC0804, 1, 4, 0x0, 0xFFFFFFFF, 0x0, 0x0, false⟩,  -- EVC_STAT R475
   ⟨0xC0808, 1, 4, 0x0, 0x0, 0x0, 0x0, false⟩,  -- EVC_SNAP_STEP R475
   ⟨0xC080C, 1, 4, 0x0, 0x0, 0x0, 0x0, false⟩]  -- EVC_SNAP_INFO R475

/-- An edge-die window. -/
def edgeRows : List RegRow := edgeRows0 ++ edgeRows1 ++ edgeRows2 ++ edgeRows3

/-- The instance of a row that stands at an offset of the window. -/
def RegRow.index (r : RegRow) (off : Nat) : Option Nat :=
  if off < r.off then none
  else if (off - r.off) % r.stride = 0 ∧ (off - r.off) / r.stride < r.n then
    some ((off - r.off) / r.stride)
  else none

/-- The row at an offset of a window's table. -/
def findRow (rows : List RegRow) (off : Nat) : Option RegRow :=
  rows.find? fun r => (r.index off).isSome

/-- The row at a control-space address; `none` when the address is unmapped (R466, R467). -/
def regRow (addr : Nat) : Option RegRow :=
  if addr % 4 ≠ 0 then none
  else if addr < 0x01000000 then findRow glbRows addr
  else if addr < 0x07000000 then
    let off := addr % 0x01000000
    if off < 0x00100000 then findRow dieRows off
    else if off < 0x00A00000 then findRow coreRows (off % 0x00100000)
    else none
  else if addr < 0x09000000 then findRow edgeRows (addr % 0x01000000)
  else none

/-- The base address of core c's window (R38). -/
def coreBase (c : Nat) : Nat := 0x01000000 * (c / 9 + 1) + 0x00100000 * (c % 9 + 1)

/-- The base address of compute die d's window (R466). -/
def dieBase (d : Nat) : Nat := 0x01000000 * (d + 1)

/-- The base address of edge die e's window (R466). -/
def edgeBase (e : Nat) : Nat := 0x07000000 + 0x01000000 * e

/-- The reset word of a register: its table's, with the island ID in the island status registers
(R38, R470). -/
def regReset (addr : Nat) : Word :=
  match regRow addr with
  | none => 0
  | some r =>
    let w := addr / 0x01000000
    let off := addr % 0x01000000
    if r.off = 8 then
      if w = 0 then BitVec.ofNat 32 r.reset
      else if w < 7 then
        if off < 0x00100000 then BitVec.ofNat 32 (r.reset + (w - 1) * 0x01000000)
        else BitVec.ofNat 32 (r.reset + ((w - 1) * 9 + (off / 0x00100000 - 1)) * 0x01000000)
      else BitVec.ofNat 32 (r.reset + (w - 7) * 0x01000000)
    else BitVec.ofNat 32 r.reset

/-! The address of each register, by the name the spec gives it. A core register takes the core by
its island ID d × 9 + c, a compute-die register the die, an edge-die register the edge die; an array
takes its index last. -/

namespace Reg

def GLB_ID : Nat := 0x0
def GLB_HWREV : Nat := 0x4
def GLB_SCRATCH : Nat := 0x8
def GLB_TOPO : Nat := 0xC
def GLB_FTC_VERSION : Nat := 0x10
def GLB_FTC_FEATURES : Nat := 0x14
def GLB_UNMAPPED_CNT : Nat := 0x18
def GLB_UNMAPPED_ADDR : Nat := 0x1C
def GLB_STEP_NUM : Nat := 0x20
def GLB_EVC_CTL : Nat := 0x24
def GLB_STATE : Nat := 0x30
def GLB_STATE_CONFLICT_CNT : Nat := 0x34
def GLB_STEP_LIMIT : Nat := 0x3C
def GLB_DESC_LAST_ERR : Nat := 0x40
def GLB_DESC_ERR_CNT : Nat := 0x44
def GLB_FEED_STALL_CNT : Nat := 0x48
def GLB_RESULT_STALL_CNT : Nat := 0x4C
def GLB_LOAD_STAT : Nat := 0x50
def GLB_GRP_LOAD_ERR : Nat := 0x54
def GLB_MIRROR_BASE_LO : Nat := 0x60
def GLB_MIRROR_BASE_HI : Nat := 0x64
def GLB_MIRROR_SIZE_LO : Nat := 0x68
def GLB_MIRROR_SIZE_HI : Nat := 0x6C
def GLB_DUMP_BASE_LO : Nat := 0x70
def GLB_DUMP_BASE_HI : Nat := 0x74
def GLB_DUMP_SIZE_LO : Nat := 0x78
def GLB_DUMP_SIZE_HI : Nat := 0x7C
def GLB_SPARE_BASE_LO : Nat := 0x80
def GLB_SPARE_BASE_HI : Nat := 0x84
def GLB_SPARE_SIZE : Nat := 0x88
def HLK_GAP_TMO : Nat := 0x90
def HLK_EVT_MASK : Nat := 0x94
def HLK_DUP_CNT : Nat := 0x98
def HLK_EVT_LOST_CNT : Nat := 0x9C
def FLT_CTL : Nat := 0x200
def FLT_CORE_WDOG : Nat := 0x204
def FLT_STAT : Nat := 0x208
def FLT_LOG_HEAD : Nat := 0x20C
def FLT_LOG_IDX : Nat := 0x210
def FLT_LOG_DATA (i : Nat) : Nat := 0x220 + 0x4 * i
def FLT_BREACH_CNT : Nat := 0x240
def FLT_REPLAY_PHASE_CNT : Nat := 0x244
def FLT_REPLAY_STEP_CNT : Nat := 0x248
def FLT_TAKEOVER_CNT : Nat := 0x24C
def FLT_GRAD_LOST_CNT : Nat := 0x250
def FLT_RECON_CNT : Nat := 0x254
def FLT_RESTORE_TARGET : Nat := 0x260
def FLT_RESTORE_CTL : Nat := 0x264
def FLT_RESTORE_STAT : Nat := 0x268
def FLT_RESYNC_LEFT_LO : Nat := 0x270
def FLT_RESYNC_LEFT_HI : Nat := 0x274
def BOOT_STAT : Nat := 0x300
def BOOT_READY_DIE : Nat := 0x304
def BOOT_READY_CORE_LO : Nat := 0x308
def BOOT_READY_CORE_HI : Nat := 0x30C
def BOOT_READY_FMEM_LO : Nat := 0x310
def BOOT_READY_FMEM_HI : Nat := 0x314
def BOOT_READY_PORT : Nat := 0x318
def SEC_STAT : Nat := 0x400
def SEC_SVN : Nat := 0x404
def SEC_ID_PUB (i : Nat) : Nat := 0x440 + 0x4 * i
def SEC_FW_MEAS (i : Nat) : Nat := 0x500 + 0x4 * i
def SEC_CFG_MEAS (i : Nat) : Nat := 0x540 + 0x4 * i
def SEC_IMG_MEAS (i : Nat) : Nat := 0x580 + 0x4 * i
def PWR_STAT : Nat := 0x600
def PWR_CAP : Nat := 0x604
def PWR_CAP_HYST : Nat := 0x608
def PWR_FMAX : Nat := 0x60C
def PWR_THROTTLE_T : Nat := 0x610
def PWR_LATBUDGET (i : Nat) : Nat := 0x620 + 0x4 * i
def PWR_ENERGY_LO : Nat := 0x640
def PWR_ENERGY_HI : Nat := 0x644
def PWR_DROOP_CNT : Nat := 0x648
def PWR_PEAK : Nat := 0x64C
def TEL_SENSOR (i : Nat) : Nat := 0x800 + 0x4 * i
def TEL_ALERT_SEL (i : Nat) : Nat := 0xC00 + 0x8 * i
def TEL_ALERT_VAL (i : Nat) : Nat := 0xC04 + 0x8 * i
def TEL_ALERT_STAT : Nat := 0xC40

def DIE_TEL_ISLAND_STAT (d : Nat) : Nat := dieBase d + 0x8
def DIE_TEL_XING_DROP (d : Nat) : Nat := dieBase d + 0xC
def PRD_CTL (d : Nat) : Nat := dieBase d + 0x8000
def PRD_STAT (d : Nat) : Nat := dieBase d + 0x8004
def PRD_MISS_EPS (d : Nat) : Nat := dieBase d + 0x8008
def PRD_MAP_BAD_CNT (d : Nat) : Nat := dieBase d + 0x800C
def PRD_DONE_CNT (d : Nat) : Nat := dieBase d + 0x8010
def PRD_MISS_THR (d : Nat) : Nat := dieBase d + 0x8014
def PRD_THR (d : Nat) (i : Nat) : Nat := dieBase d + 0x8400 + 0x4 * i
def PRD_AUD_ROWS (d : Nat) (i : Nat) : Nat := dieBase d + 0x8800 + 0x4 * i
def PRD_AUD_MISS (d : Nat) (i : Nat) : Nat := dieBase d + 0x8C00 + 0x4 * i
def PRD_OFFSET (d : Nat) (i : Nat) : Nat := dieBase d + 0x9000 + 0x4 * i
def NMEM_CFG (d : Nat) : Nat := dieBase d + 0xA000
def NMEM_CACHE_WAYMASK (d : Nat) (i : Nat) : Nat := dieBase d + 0xA010 + 0x4 * i
def NMEM_CE_CNT (d : Nat) : Nat := dieBase d + 0xA040
def NMEM_UE_CNT (d : Nat) : Nat := dieBase d + 0xA044
def NMEM_INVAL_CNT (d : Nat) : Nat := dieBase d + 0xA048
def NMEM_ARB_CAP_CNT (d : Nat) : Nat := dieBase d + 0xA04C

def CORE_ISLAND_STAT (c : Nat) : Nat := coreBase c + 0x8
def CORE_XING_DROP (c : Nat) : Nat := coreBase c + 0xC
def CORE_Q_STAT (c : Nat) : Nat := coreBase c + 0x10
def CORE_Q_PKT0 (c : Nat) : Nat := coreBase c + 0x14
def CORE_Q_PKT1 (c : Nat) : Nat := coreBase c + 0x18
def CORE_Q_POISON_CNT (c : Nat) : Nat := coreBase c + 0x1C
def SEQ_STAGE (c : Nat) : Nat := coreBase c + 0x4000
def SEQ_STAT (c : Nat) : Nat := coreBase c + 0x4004
def SEQ_LEN (c : Nat) (i : Nat) : Nat := coreBase c + 0x4010 + 0x4 * i
def SEQ_PAIR_SKIP_CNT (c : Nat) : Nat := coreBase c + 0x4030
def SEQ_WIN_SKIP_CNT (c : Nat) : Nat := coreBase c + 0x4034
def SEQ_REFUSE_CNT (c : Nat) : Nat := coreBase c + 0x4038
def SEQ_LAST_REFUSE (c : Nat) : Nat := coreBase c + 0x403C
def SEQ_MOP_CNT (c : Nat) : Nat := coreBase c + 0x4040
def FDR_CTL (c : Nat) : Nat := coreBase c + 0x5000
def FDR_STAT (c : Nat) : Nat := coreBase c + 0x5004
def FDR_VAL_RSV_CNT (c : Nat) : Nat := coreBase c + 0x5100
def FDR_MDROP_NEG_CNT (c : Nat) : Nat := coreBase c + 0x5110
def FDR_MDROP_RANGE_CNT (c : Nat) : Nat := coreBase c + 0x5114
def FDR_MDROP_NMEX_CNT (c : Nat) : Nat := coreBase c + 0x5118
def FDR_MDROP_PTR_CNT (c : Nat) : Nat := coreBase c + 0x511C
def FDR_MDROP_NEG_THR (c : Nat) : Nat := coreBase c + 0x5120
def FDR_MDROP_RANGE_THR (c : Nat) : Nat := coreBase c + 0x5124
def FDR_MDROP_NMEX_THR (c : Nat) : Nat := coreBase c + 0x5128
def FDR_MDROP_PTR_THR (c : Nat) : Nat := coreBase c + 0x512C
def FDR_MDROP_LAST (c : Nat) : Nat := coreBase c + 0x5130
def FDR_MDROP_ROW (c : Nat) : Nat := coreBase c + 0x5134
def FDR_ISECT_DROP_CNT (c : Nat) : Nat := coreBase c + 0x5140
def FDR_ZERO_SKIP_CNT (c : Nat) : Nat := coreBase c + 0x5144
def FDR_BAND_SPLIT_CNT (c : Nat) : Nat := coreBase c + 0x5148
def FDR_MRG_DUP_CNT (c : Nat) : Nat := coreBase c + 0x514C
def FDR_MRG_SEG_CNT (c : Nat) : Nat := coreBase c + 0x5150
def DRN_CTL (c : Nat) : Nat := coreBase c + 0x6000
def DRN_STAT (c : Nat) : Nat := coreBase c + 0x6004
def DRN_CVT_CTL (c : Nat) (i : Nat) : Nat := coreBase c + 0x6100 + 0x4 * i
def DRN_OVERTOP_CNT (c : Nat) : Nat := coreBase c + 0x6110
def DRN_SPILL_FULL_CNT (c : Nat) : Nat := coreBase c + 0x6114
def DRN_SAT_CNT (c : Nat) : Nat := coreBase c + 0x6118
def DRN_NONFIN_CNT (c : Nat) : Nat := coreBase c + 0x611C
def DRN_OVERTOP_THR (c : Nat) : Nat := coreBase c + 0x6120
def DRN_CAP_FULL_CNT (c : Nat) : Nat := coreBase c + 0x6124
def ACC_STAT (c : Nat) : Nat := coreBase c + 0x7000
def ACC_SAT_CNT (c : Nat) : Nat := coreBase c + 0x7004
def ACC_SAT_TILE (c : Nat) (i : Nat) : Nat := coreBase c + 0x7008 + 0x4 * i
def ACC_POISON_TILE (c : Nat) (i : Nat) : Nat := coreBase c + 0x7010 + 0x4 * i
def ACC_NONFIN_CNT (c : Nat) : Nat := coreBase c + 0x7018
def ACC_SAT_THR (c : Nat) : Nat := coreBase c + 0x701C

def EDGE_TEL_ISLAND_STAT (e : Nat) : Nat := edgeBase e + 0x8
def EDGE_TEL_XING_DROP (e : Nat) : Nat := edgeBase e + 0xC
def FMEM_CHAN_STAT (e : Nat) (i : Nat) : Nat := edgeBase e + 0x10000 + 0x4 * i
def FMEM_CE_CNT (e : Nat) : Nat := edgeBase e + 0x10200
def FMEM_UE_CNT (e : Nat) : Nat := edgeBase e + 0x10204
def FMEM_RETIRE_CNT (e : Nat) : Nat := edgeBase e + 0x10208
def FMEM_RETIRE_FULL_CNT (e : Nat) : Nat := edgeBase e + 0x1020C
def FMEM_MIRROR_BYPASS_CNT (e : Nat) : Nat := edgeBase e + 0x10210
def FMEM_ARB_CAP_CNT (e : Nat) : Nat := edgeBase e + 0x10214
def FMEM_CE_ROW_THR (e : Nat) : Nat := edgeBase e + 0x10218
def FMEM_ERR_LAST_LO (e : Nat) : Nat := edgeBase e + 0x10220
def FMEM_ERR_LAST_HI (e : Nat) : Nat := edgeBase e + 0x10224
def UPD_CTL (e : Nat) (i : Nat) : Nat := edgeBase e + 0x20000 + 0x1000 * i
def UPD_STAT (e : Nat) (i : Nat) : Nat := edgeBase e + 0x20004 + 0x1000 * i
def UPD_STEP (e : Nat) (i : Nat) : Nat := edgeBase e + 0x20008 + 0x1000 * i
def UPD_MIRROR_PEND (e : Nat) (i : Nat) : Nat := edgeBase e + 0x2000C + 0x1000 * i
def UPD_TWIN_TMO (e : Nat) (i : Nat) : Nat := edgeBase e + 0x20010 + 0x1000 * i
def UPD_STEP_SKEW_CNT (e : Nat) (i : Nat) : Nat := edgeBase e + 0x20020 + 0x1000 * i
def UPD_NONFIN_SKIP_CNT (e : Nat) (i : Nat) : Nat := edgeBase e + 0x20024 + 0x1000 * i
def UPD_CHUNK_DROP_CNT (e : Nat) (i : Nat) : Nat := edgeBase e + 0x20028 + 0x1000 * i
def UPD_RECOMP_LATE_CNT (e : Nat) (i : Nat) : Nat := edgeBase e + 0x2002C + 0x1000 * i
def UPD_RECOMP_DROP_CNT (e : Nat) (i : Nat) : Nat := edgeBase e + 0x20030 + 0x1000 * i
def UPD_GRP_DONE_CNT (e : Nat) (i : Nat) : Nat := edgeBase e + 0x20034 + 0x1000 * i
def UPD_NONFIN_OUT_CNT (e : Nat) (i : Nat) : Nat := edgeBase e + 0x20038 + 0x1000 * i
def UPD_SAT_CNT (e : Nat) (i : Nat) : Nat := edgeBase e + 0x2003C + 0x1000 * i
def UPD_LAST_SKEW (e : Nat) (i : Nat) : Nat := edgeBase e + 0x20040 + 0x1000 * i
def UPD_LAST_SKEW_T (e : Nat) (i : Nat) : Nat := edgeBase e + 0x20044 + 0x1000 * i
def UPD_RECOMP_MASK_LO (e : Nat) (i : Nat) : Nat := edgeBase e + 0x20050 + 0x1000 * i
def UPD_RECOMP_MASK_HI (e : Nat) (i : Nat) : Nat := edgeBase e + 0x20054 + 0x1000 * i
def UPD_RECOMP_REQ (e : Nat) (i : Nat) : Nat := edgeBase e + 0x20058 + 0x1000 * i
def UPD_RECOMP_STAT (e : Nat) (i : Nat) : Nat := edgeBase e + 0x2005C + 0x1000 * i
def CLV_PORT_STAT (e : Nat) (i : Nat) : Nat := edgeBase e + 0x30000 + 0x100 * i
def CLV_PORT_CTL (e : Nat) (i : Nat) : Nat := edgeBase e + 0x30004 + 0x100 * i
def CLV_CRC_RETRY_CNT (e : Nat) (i : Nat) : Nat := edgeBase e + 0x30008 + 0x100 * i
def CLV_FEC_CORR_CNT (e : Nat) (i : Nat) : Nat := edgeBase e + 0x3000C + 0x100 * i
def CLV_FEC_UNCORR_CNT (e : Nat) (i : Nat) : Nat := edgeBase e + 0x30010 + 0x100 * i
def CLV_LANE_SWAP_CNT (e : Nat) (i : Nat) : Nat := edgeBase e + 0x30014 + 0x100 * i
def CLV_E2E_OOO_CNT (e : Nat) (i : Nat) : Nat := edgeBase e + 0x30018 + 0x100 * i
def CLV_TTL_DROP_CNT (e : Nat) (i : Nat) : Nat := edgeBase e + 0x3001C + 0x100 * i
def CLV_VIOL_CNT_1 (e : Nat) (i : Nat) : Nat := edgeBase e + 0x30020 + 0x100 * i
def CLV_VIOL_CNT_2 (e : Nat) (i : Nat) : Nat := edgeBase e + 0x30024 + 0x100 * i
def CLV_VIOL_CNT_3 (e : Nat) (i : Nat) : Nat := edgeBase e + 0x30028 + 0x100 * i
def CLV_VIOL_CNT_4 (e : Nat) (i : Nat) : Nat := edgeBase e + 0x3002C + 0x100 * i
def CLV_VIOL_CNT_5 (e : Nat) (i : Nat) : Nat := edgeBase e + 0x30030 + 0x100 * i
def CLV_VIOL_CNT_6 (e : Nat) (i : Nat) : Nat := edgeBase e + 0x30034 + 0x100 * i
def CLV_VIOL_CNT_7 (e : Nat) (i : Nat) : Nat := edgeBase e + 0x30038 + 0x100 * i
def CLV_VIOL_CNT_8 (e : Nat) (i : Nat) : Nat := edgeBase e + 0x3003C + 0x100 * i
def CLV_VIOL_CNT_9 (e : Nat) (i : Nat) : Nat := edgeBase e + 0x30040 + 0x100 * i
def CLV_CREDIT_0 (e : Nat) (i : Nat) : Nat := edgeBase e + 0x30050 + 0x100 * i
def CLV_CREDIT_1 (e : Nat) (i : Nat) : Nat := edgeBase e + 0x30054 + 0x100 * i
def CLV_CREDIT_2 (e : Nat) (i : Nat) : Nat := edgeBase e + 0x30058 + 0x100 * i
def CLV_CREDIT_3 (e : Nat) (i : Nat) : Nat := edgeBase e + 0x3005C + 0x100 * i
def CLV_TRAIN (e : Nat) (i : Nat) : Nat := edgeBase e + 0x30060 + 0x100 * i
def CLV_LAST_VIOL (e : Nat) (i : Nat) : Nat := edgeBase e + 0x30064 + 0x100 * i
def CLV_NODE_ID (e : Nat) : Nat := edgeBase e + 0x30800
def CLV_TWIN_NODE (e : Nat) : Nat := edgeBase e + 0x30804
def CLV_E2E_TMO (e : Nat) : Nat := edgeBase e + 0x30808
def CLV_FENCE_THR (e : Nat) : Nat := edgeBase e + 0x3080C
def CLV_WIN_BASE_LO (e : Nat) (i : Nat) : Nat := edgeBase e + 0x30840 + 0x10 * i
def CLV_WIN_BASE_HI (e : Nat) (i : Nat) : Nat := edgeBase e + 0x30844 + 0x10 * i
def CLV_WIN_SIZE_LO (e : Nat) (i : Nat) : Nat := edgeBase e + 0x30848 + 0x10 * i
def CLV_WIN_SIZE_HI (e : Nat) (i : Nat) : Nat := edgeBase e + 0x3084C + 0x10 * i
def CLV_COLL_STAT (e : Nat) (i : Nat) : Nat := edgeBase e + 0x31000 + 0x100 * i
def CLV_COLL_CHUNK_CNT (e : Nat) (i : Nat) : Nat := edgeBase e + 0x31004 + 0x100 * i
def CLV_COLL_STAGED_CNT (e : Nat) (i : Nat) : Nat := edgeBase e + 0x31008 + 0x100 * i
def CLV_COLL_NONFIN_CNT (e : Nat) (i : Nat) : Nat := edgeBase e + 0x3100C + 0x100 * i
def CLV_RT1 (e : Nat) (i : Nat) : Nat := edgeBase e + 0x32000 + 0x4 * i
def CLV_RT2 (e : Nat) (i : Nat) : Nat := edgeBase e + 0x32400 + 0x4 * i
def HLK_LANE_STAT (e : Nat) : Nat := edgeBase e + 0x40000
def HLK_CRC_RETRY_CNT (e : Nat) : Nat := edgeBase e + 0x40008
def HLK_FEC_CORR_CNT (e : Nat) : Nat := edgeBase e + 0x4000C
def HLK_FEC_UNCORR_CNT (e : Nat) : Nat := edgeBase e + 0x40010
def HLK_VIOL_CNT (e : Nat) (i : Nat) : Nat := edgeBase e + 0x40020 + 0x4 * i
def HLK_LAST_VIOL (e : Nat) : Nat := edgeBase e + 0x40040

/-- The base of event-counter block b (R472): cores, then compute dies, then edge dies. -/
def evcBase (b : Nat) : Nat :=
  if b < 54 then coreBase b + 0xF000
  else if b < 60 then dieBase (b - 54) + 0xC0000
  else edgeBase (b - 60) + 0xC0000

def EVC_SEL (b i : Nat) : Nat := evcBase b + 0x20 * i
def EVC_CNT_LO (b i : Nat) : Nat := evcBase b + 0x20 * i + 4
def EVC_CNT_HI (b i : Nat) : Nat := evcBase b + 0x20 * i + 8
def EVC_SNAP_LO (b i : Nat) : Nat := evcBase b + 0x20 * i + 0xC
def EVC_SNAP_HI (b i : Nat) : Nat := evcBase b + 0x20 * i + 0x10
def EVC_CTL (b : Nat) : Nat := evcBase b + 0x800
def EVC_STAT (b : Nat) : Nat := evcBase b + 0x804
def EVC_SNAP_STEP (b : Nat) : Nat := evcBase b + 0x808
def EVC_SNAP_INFO (b : Nat) : Nat := evcBase b + 0x80C

end Reg

end Sys2Proof.Machine
end

