-- ==== Sys2Proof/Machine/Ops.lean ====
section
/-! DEFINITION. The named operations shared by the meanings: sparse maps, memory and poison,
registers and their fields, stamps and logs, event counters, link transmission, host packets,
breach records and module states. -/

namespace Sys2Proof.Machine

open Sys2Proof

/-- What a step answers. -/
abbrev Out := Host.Outcome State Fault Refusal

/-! ### Bit fields and sparse maps -/

/-- Bits [hi:lo] of a number (R5). -/
def fld (n hi lo : Nat) : Nat := n / 2 ^ lo % 2 ^ (hi + 1 - lo)

/-- The number with bits [hi:lo] replaced by the low bits of v. -/
def setFld (n hi lo v : Nat) : Nat :=
  n - fld n hi lo * 2 ^ lo + v % 2 ^ (hi + 1 - lo) * 2 ^ lo

/-- Bit i of a number. -/
def bit (n i : Nat) : Bool := n.testBit i

/-- The entry of a listed key. -/
def SMap.find {α : Type} : SMap α → Nat → Option α
  | [], _ => none
  | (j, v) :: m, k => if j = k then some v else SMap.find m k

/-- What a key reads as: its entry, or the default of an unlisted key. -/
def SMap.get {α : Type} (d : Nat → α) (m : SMap α) (k : Nat) : α := (SMap.find m k).getD (d k)

/-- Insertion before the first higher key. -/
def SMap.insert {α : Type} : SMap α → Nat → α → SMap α
  | [], k, v => [(k, v)]
  | (j, w) :: m, k, v => if k < j then (k, v) :: (j, w) :: m else (j, w) :: SMap.insert m k v

/-- Removal of a key. -/
def SMap.erase {α : Type} (m : SMap α) (k : Nat) : SMap α := m.filter fun e => e.1 != k

/-- A write that keeps the canonical form: writing the default removes the entry. -/
def SMap.set {α : Type} [DecidableEq α] (d : Nat → α) (m : SMap α) (k : Nat) (v : α) : SMap α :=
  if v = d k then SMap.erase m k else SMap.insert (SMap.erase m k) k v

/-- Keys strictly rising, and no entry equal to the default of its key. -/
def SMap.wf {α : Type} [DecidableEq α] (d : Nat → α) (m : SMap α) : Bool :=
  (m.map Prod.fst).Pairwise (· < ·) && m.all fun e => decide (e.2 ≠ d e.1)

/-- Element i of a list of numbers, 0 beyond its end. -/
def at0 (l : List Nat) (i : Nat) : Nat := l.getD i 0

/-- A saturating 32-bit sum (R11 and the counter tables). -/
def satAdd (w : Word) (n : Nat) : Word := satWord (w.toNat + n)

/-! ### Memory -/

/-- What an unlisted byte of memory reads as. DESIGN CHOICE: 0 (log entry 2). -/
def memDefault (_ : Nat) : Byte := 0

/-- Erased flash reads as ones. DESIGN CHOICE (log entry 3). -/
def flashDefault (_ : Nat) : Byte := 0xFF

/-- The canonical form of memory. -/
def Memory.wf (m : Memory) : Bool := SMap.wf memDefault m

/-- Read one byte. -/
def Memory.byte (m : Memory) (a : Nat) : Byte := SMap.get memDefault m a

/-- Read n bytes from an address. -/
def Memory.bytes (m : Memory) (a : Nat) : Nat → List Byte
  | 0 => []
  | n + 1 => Memory.byte m a :: Memory.bytes m (a + 1) n

/-- Write bytes from an address. -/
def Memory.write (m : Memory) (a : Nat) : List Byte → Memory
  | [] => m
  | b :: bs => Memory.write (SMap.set memDefault m a b) (a + 1) bs

/-- n bytes of flash. -/
def flashBytes (m : Memory) (a : Nat) : Nat → List Byte
  | 0 => []
  | n + 1 => SMap.get flashDefault m a :: flashBytes m (a + 1) n

/-- Write bytes of flash. -/
def flashWriteBytes (m : Memory) (a : Nat) : List Byte → Memory
  | [] => m
  | b :: bs => flashWriteBytes (SMap.set flashDefault m a b) (a + 1) bs

/-- The bytes of far memory (R244). -/
def farSize : Nat := 0x02D000000000

/-- Near memory of die d starts here (R244). -/
def nearBase (d : Nat) : Nat := 0x100000000000 + 0x000100000000 * d

/-- The address lies in near memory. -/
def isNear (a : Nat) : Bool :=
  decide (0x100000000000 ≤ a) && decide ((a - 0x100000000000) / 0x100000000 < 6) &&
    decide ((a - 0x100000000000) % 0x100000000 < 0x80000000)

/-- The address is populated (R244). -/
def populated (a : Nat) : Bool := decide (a < farSize) || isNear a

/-- The unit that carries one poison mark: a 64-byte near line or a 32-byte far burst (R252, R263). -/
def poisonUnit (a : Nat) : Nat := if a < farSize then 32 * (a / 32) else 64 * (a / 64)

/-- The size of the poison unit at an address. -/
def unitSize (a : Nat) : Nat := if a < farSize then 32 else 64

/-- Base addresses of the units that a range touches. -/
def unitsOf (a n : Nat) : List Nat :=
  if n = 0 then []
  else
    let u := unitSize a
    (List.range ((a + n - 1) / u - a / u + 1)).map fun i => u * (a / u + i)

/-- Insert into a strictly rising list. -/
def insertSorted : List Nat → Nat → List Nat
  | [], k => [k]
  | j :: m, k => if k < j then k :: j :: m else if k = j then j :: m else j :: insertSorted m k

/-! ### Parts of State, each with what an unlisted part reads as -/

def State.reg (s : State) (a : Nat) : Word := SMap.get regReset s.regs a
def State.setReg (s : State) (a : Nat) (v : Word) : State :=
  { s with regs := SMap.set regReset s.regs a v }

def State.island (s : State) (i : Nat) : Island := SMap.get (fun _ => Island.reset) s.islands i
def State.setIsland (s : State) (i : Nat) (v : Island) : State :=
  { s with islands := SMap.set (fun _ => Island.reset) s.islands i v }

def State.core (s : State) (c : Nat) : CoreSt := SMap.get (fun _ => CoreSt.reset) s.cores c
def State.setCore (s : State) (c : Nat) (v : CoreSt) : State :=
  { s with cores := SMap.set (fun _ => CoreSt.reset) s.cores c v }

def State.die (s : State) (d : Nat) : DieSt := SMap.get (fun _ => DieSt.reset) s.dies d
def State.setDie (s : State) (d : Nat) (v : DieSt) : State :=
  { s with dies := SMap.set (fun _ => DieSt.reset) s.dies d v }

def State.arb (s : State) (p : Nat) : Arb := SMap.get (fun _ => Arb.reset) s.arbs p
def State.setArb (s : State) (p : Nat) (v : Arb) : State :=
  { s with arbs := SMap.set (fun _ => Arb.reset) s.arbs p v }

def State.chan (s : State) (ch : Nat) : ChanSt := SMap.get (fun _ => ChanSt.reset) s.chans ch
def State.setChan (s : State) (ch : Nat) (v : ChanSt) : State :=
  { s with chans := SMap.set (fun _ => ChanSt.reset) s.chans ch v }

/-- Bridge b, direction dir, is entry 2b + dir. -/
def State.bridge (s : State) (k : Nat) : BridgeSt := SMap.get (fun _ => BridgeSt.reset) s.bridges k
def State.setBridge (s : State) (k : Nat) (v : BridgeSt) : State :=
  { s with bridges := SMap.set (fun _ => BridgeSt.reset) s.bridges k v }

def State.engine (s : State) (e : Nat) : EngineSt := SMap.get (fun _ => EngineSt.reset) s.engines e
def State.setEngine (s : State) (e : Nat) (v : EngineSt) : State :=
  { s with engines := SMap.set (fun _ => EngineSt.reset) s.engines e v }

def State.link (s : State) (l : Nat) : LinkSt := SMap.get (fun _ => LinkSt.reset) s.links l
def State.setLink (s : State) (l : Nat) (v : LinkSt) : State :=
  { s with links := SMap.set (fun _ => LinkSt.reset) s.links l v }

def State.txFlow (s : State) (f : Nat) : TxFlow := SMap.get (fun _ => TxFlow.reset) s.txFlows f
def State.setTxFlow (s : State) (f : Nat) (v : TxFlow) : State :=
  { s with txFlows := SMap.set (fun _ => TxFlow.reset) s.txFlows f v }

def State.rxFlow (s : State) (f : Nat) : RxFlow := SMap.get (fun _ => RxFlow.reset) s.rxFlows f
def State.setRxFlow (s : State) (f : Nat) (v : RxFlow) : State :=
  { s with rxFlows := SMap.set (fun _ => RxFlow.reset) s.rxFlows f v }

def State.hostQ (s : State) (q : Nat) : HostQ := SMap.get (fun _ => HostQ.reset) s.hostQs q
def State.setHostQ (s : State) (q : Nat) (v : HostQ) : State :=
  { s with hostQs := SMap.set (fun _ => HostQ.reset) s.hostQs q v }

def State.alloc (s : State) (i : Nat) : Option Alloc := SMap.get (fun _ => none) s.allocs i
def State.setAlloc (s : State) (i : Nat) (v : Option Alloc) : State :=
  { s with allocs := SMap.set (fun _ => none) s.allocs i v }

def State.desc (s : State) (i : Nat) : Option DescSlot := SMap.get (fun _ => none) s.descs i
def State.setDesc (s : State) (i : Nat) (v : Option DescSlot) : State :=
  { s with descs := SMap.set (fun _ => none) s.descs i v }

def State.feed (s : State) (i : Nat) : Option Feed := SMap.get (fun _ => none) s.feeds i
def State.setFeed (s : State) (i : Nat) (v : Option Feed) : State :=
  { s with feeds := SMap.set (fun _ => none) s.feeds i v }

def State.window (s : State) (i : Nat) : Option Window := SMap.get (fun _ => none) s.windows i
def State.setWindow (s : State) (i : Nat) (v : Option Window) : State :=
  { s with windows := SMap.set (fun _ => none) s.windows i v }

/-- A free value: the opaque stream of Config at the model's counter, which advances. -/
def State.draw (s : State) : BitVec 64 × State :=
  (Config.free s.freeCtr, { s with freeCtr := s.freeCtr + 1 })

/-! ### Register words and fields -/

/-- Bits [hi:lo] of a register. -/
def State.regF (s : State) (a hi lo : Nat) : Nat := fld (s.reg a).toNat hi lo

/-- The register with bits [hi:lo] replaced. -/
def State.setRegF (s : State) (a hi lo v : Nat) : State :=
  s.setReg a (BitVec.ofNat 32 (setFld (s.reg a).toNat hi lo v))

/-- A counter that saturates at `0xFFFF_FFFF` takes n more. -/
def State.inc (s : State) (a n : Nat) : State := s.setReg a (satAdd (s.reg a) n)

/-- A counter field [hi:lo] that saturates at its maximum takes one more. -/
def State.incF (s : State) (a hi lo : Nat) : State :=
  s.setRegF a hi lo (min (s.regF a hi lo + 1) (2 ^ (hi + 1 - lo) - 1))

/-- A 48-bit value in a register pair. -/
def State.reg48 (s : State) (lo hi : Nat) : Nat := (s.reg lo).toNat + 0x100000000 * (s.reg hi).toNat

/-- Both words of a register pair. -/
def State.setReg48 (s : State) (lo hi v : Nat) : State :=
  (s.setReg lo (BitVec.ofNat 32 v)).setReg hi (BitVec.ofNat 32 (v / 0x100000000))

/-! ### Islands and stamps (R29 to R31) -/

/-- The index of the edge logic of ED0. -/
def islED0 : Nat := 60

/-- The island in which the step controller runs: ED0's edge logic, or ED1's once its standby has taken
over (R23). -/
def State.ctlIsl (s : State) : Nat := if s.standby then 61 else 60

/-- The island ID of R30 by index. A memory PHY and a lane receiver have no ID of their own: their events
carry that of their edge die and of their port (DEDUCED, log entry 120). -/
def islId (i : Nat) : Nat :=
  if i < 54 then i
  else if i < 60 then 0x38 + (i - 54)
  else if i < 62 then 0x40 + (i - 60)
  else if i < 78 then 0x50 + (i - 62)
  else if i < 80 then 0x60 + (i - 78)
  else if i < 272 then 0x40 + (i - 80) / 96
  else 0x50 + (i - 272) / 5

/-- The stamp that the island's next event carries (R29). -/
def State.stamp (s : State) (i : Nat) : BitVec 64 :=
  (s.island i).step ++ BitVec.ofNat 8 (islId i) ++ BitVec.ofNat 24 (s.island i).seq

/-- `SEQ` advances, and stays at `0xFF_FFFF` (R31). -/
def State.bumpSeq (s : State) (i : Nat) : State :=
  s.setIsland i { s.island i with seq := min ((s.island i).seq + 1) 0xFFFFFF }

/-! ### Packets and link transmission (R320 to R325, R349, R351) -/

/-- Bits [hi:lo] of a packet header. -/
def Pkt.fld (p : Pkt) (hi lo : Nat) : Nat := Machine.fld p.hdr.toNat hi lo
def Pkt.opcode (p : Pkt) : Nat := p.fld 7 0
def Pkt.vc (p : Pkt) : Nat := p.fld 9 8
/-- The `VC`, `FLOW` byte. -/
def Pkt.vcFlow (p : Pkt) : Nat := p.fld 15 8
def Pkt.len (p : Pkt) : Nat := p.fld 31 16
def Pkt.dst (p : Pkt) : Nat := p.fld 47 32
def Pkt.src (p : Pkt) : Nat := p.fld 63 48
def Pkt.eseq (p : Pkt) : Nat := p.fld 95 64
def Pkt.ttl (p : Pkt) : Nat := p.fld 103 96
/-- Bytes [hi:lo] of `OPS`. -/
def Pkt.ops (p : Pkt) (hi lo : Nat) : Nat := p.fld (128 + 8 * hi + 7) (128 + 8 * lo)

/-- A fabric header (R322). -/
def fabHdr (opcode vcFlow len dst src eseq ttl ops : Nat) : BitVec 256 :=
  BitVec.ofNat 256 (opcode + 2 ^ 8 * vcFlow + 2 ^ 16 * len + 2 ^ 32 * dst + 2 ^ 48 * src +
    2 ^ 64 * eseq + 2 ^ 96 * ttl + 2 ^ 128 * ops)

/-- An NHL header (R351). -/
def nhlHdr (opcode vc len qid status cmd cseq args : Nat) : BitVec 256 :=
  BitVec.ofNat 256 (opcode + 2 ^ 8 * vc + 2 ^ 16 * len + 2 ^ 32 * qid + 2 ^ 40 * status +
    2 ^ 48 * cmd + 2 ^ 64 * cseq + 2 ^ 96 * args)

/-- Credits a packet takes (R325): none for filler, `CREDIT`, `NAK` and `LINK_CTL`. -/
def Pkt.credits (p : Pkt) : Nat :=
  if p.opcode = 0 ∨ p.opcode = 1 ∨ p.opcode = 2 ∨ p.opcode = 0x40 then 0
  else (32 + p.len + 255) / 256

/-- The payload padded to a multiple of 8 bytes (R322). -/
def pad8 (l : List Byte) : List Byte := l ++ List.replicate ((8 - l.length % 8) % 8) 0

/-- The bytes of a packet on the stream. -/
def Pkt.stream (p : Pkt) : List Byte := leBytes 32 p.hdr.toNat ++ pad8 p.payload

/-- The bytes that a packet takes on the stream. -/
def Pkt.size (p : Pkt) : Nat := 32 + (pad8 p.payload).length

/-- One step of CRC-32C on a byte, least significant bit first. PRESUMED: the usual reflected form
with all-ones start and final complement (log entry 9). -/
def crcByte (c : BitVec 32) (b : Byte) : BitVec 32 :=
  (List.range 8).foldl
    (fun c _ => if c.getLsbD 0 then (c >>> 1) ^^^ 0x82F63B78#32 else c >>> 1) (c ^^^ b.zeroExtend 32)

/-- CRC-32C over bytes (R320, R17). -/
def crc32c (l : List Byte) : BitVec 32 := ~~~ (l.foldl crcByte 0xFFFFFFFF#32)

/-- The 256 bytes of a flit (R320). -/
def Flit.bytes (f : Flit) : List Byte :=
  let body := f.content ++ leBytes 4
    (f.fseq.toNat + 2 ^ 12 * f.ackseq.toNat + 2 ^ 24 * f.idle.toNat + 2 ^ 25 * f.retry.toNat +
      2 ^ 27 * f.hdr)
  body ++ leBytes 4 (crc32c body).toNat

/-- Quarter j of a flit, which goes on logical lane j (R317). -/
def Flit.quarter (f : Flit) (j : Nat) : List Byte := (f.bytes.drop (64 * j)).take 64

/-- The bits of a byte in the order in which a lane carries them, least significant first (R317). -/
def byteBits (b : Byte) : List Bool := (List.range 8).map b.getLsbD

/-- What logical lane j carries of a stream of flits: its quarters back to back, bit by bit (R317). -/
def laneBits (fs : List Flit) (j : Nat) : List Bool :=
  (fs.flatMap fun f => f.quarter j).flatMap byteBits

/-- Codeword n of a lane's stream holds the 5,140 bits from 5,140 × n on, the first of them at the lowest
place, whatever flit they belong to (R315, R317). -/
def dataCodeword (bits : List Bool) (n : Nat) : BitVec 5140 :=
  BitVec.ofNat 5140
    (((bits.drop (5140 * n)).take 5140).zipIdx.foldl (fun v b => v + b.1.toNat * 2 ^ b.2) 0)

/-- The data codewords that a link has filled whole on logical lane j with the flits put on its wire. -/
def LinkSt.laneWords (k : LinkSt) (j : Nat) : List (BitVec 5140) :=
  let bits := laneBits k.wire j
  (List.range (bits.length / 5140)).map (dataCodeword bits)

/-- `HDR` (R320): the offset of the first header that starts in a flit, in 8-byte units; 31 for none. -/
def hdrField : List Nat → Nat
  | [] => 31
  | a :: _ => if a < 248 then a / 8 else 31

/-- A stream of packets cut into flits (R322): its headers start at the given offsets, in rising order,
and what the last flit has left is filler. The first trailer carries `RETRY`. -/
def cutFlits (first ack : BitVec 12) (retry : Bool) : Nat → List Nat → List Byte → List Flit
  | 0, _, _ => []
  | n + 1, starts, l =>
    { fseq := first, ackseq := ack, idle := false, retry := retry, hdr := hdrField starts,
      content := l.take 248 ++ List.replicate (248 - (l.take 248).length) 0 } ::
    cutFlits (first + 1) ack false n ((starts.filter fun a => decide (248 ≤ a)).map fun a => a - 248)
      (l.drop 248)

/-- Where the headers of packets sent one after the other start. -/
def headerStarts (at_ : Nat) : List Pkt → List Nat
  | [] => []
  | p :: ps => at_ :: headerStarts (at_ + p.size) ps

/-- Flits that a number of stream bytes fills. -/
def flitsOf (n : Nat) : Nat := (n + 247) / 248

/-- Flits that the retry buffer of a link holds (R321, R349). -/
def retryCap (l : Nat) : Nat := if l < 16 then 2048 else 512

/-- Which waiting packets go out after the `used` bytes of those ahead: in order within a virtual channel,
only when credits and the retry buffer cover the whole packet. A blocked channel never holds up another,
nor a packet that takes no credits (R325). -/
def pumpQ (cap used : Nat) (held blocked : List Nat) : List Pkt → List Pkt × List Pkt × List Nat
  | [] => ([], [], held)
  | p :: ps =>
    if (decide (p.credits ≠ 0) && (blocked.contains p.vc || decide (at0 held p.vc < p.credits))) ||
        decide (cap < flitsOf (used + p.size)) then
      let r := pumpQ cap used held (p.vc :: blocked) ps
      (r.1, p :: r.2.1, r.2.2)
    else
      let r := pumpQ cap (used + p.size) (held.set p.vc (at0 held p.vc - p.credits)) blocked ps
      (p :: r.1, r.2.1, r.2.2)

/-- The `ACKSEQ` of the next trailer: the last flit received in order (R320). -/
def LinkSt.ack (k : LinkSt) : BitVec 12 := k.rxNext - 1

/-- Packets go on the wire of a link as one stream, and their flits into the retry buffer. -/
def LinkSt.emit (k : LinkSt) (ps : List Pkt) : LinkSt :=
  if ps.isEmpty then k
  else
    let stream := (ps.map Pkt.stream).flatten
    let fs := cutFlits k.txNext k.ack k.needRetry (flitsOf stream.length) (headerStarts 0 ps) stream
    { k with txNext := k.txNext + BitVec.ofNat 12 fs.length, retryBuf := k.retryBuf ++ fs,
             wire := k.wire ++ fs, needRetry := false, ackSent := k.ack }

/-- An idle flit (R320): no content, and an `FSEQ` that does not advance. DESIGN CHOICE: it carries the next
`FSEQ`, and goes out at once when an `ACKSEQ` or a `RETRY` waits and no other flit takes it along; the
others of the stream are counted only (log entry 121). -/
def LinkSt.idle (k : LinkSt) : LinkSt :=
  if k.needRetry || k.ackSent != k.ack then
    { k with wire := k.wire ++ [{ fseq := k.txNext, ackseq := k.ack, idle := true, retry := k.needRetry,
                                  hdr := 31, content := List.replicate 248 0 }],
             needRetry := false, ackSent := k.ack }
  else k

/-- The edge die of a Culvert port or host lane (R20). -/
def linkEdge (l : Nat) : Nat := if l < 16 then l / 8 else l - 16

/-- `CLV_PORT_STAT.STATE` or `HLK_LANE_STAT.STATE`: 0 down, 1 training, 2 up, 3 fenced. -/
def State.linkState (s : State) (l : Nat) : Nat :=
  if l < 16 then s.regF (Reg.CLV_PORT_STAT (l / 8) (l % 8)) 31 30
  else s.regF (Reg.HLK_LANE_STAT (l - 16)) 31 30

/-! ### Event counters (R471 to R477) -/

/-- The sources of R476: code, number of instances (0: none), maximum increment. -/
def evcSources : List (Nat × Nat × Nat) :=
  [(0x001, 0, 1), (0x002, 0, 1), (0x040, 0, 1), (0x041, 0, 1024), (0x042, 0, 8), (0x043, 0, 1),
   (0x044, 0, 1024), (0x045, 0, 1024), (0x046, 4, 1024), (0x047, 0, 1), (0x048, 0, 1),
   (0x049, 0, 8), (0x04A, 0, 8), (0x080, 0, 1), (0x081, 0, 1), (0x082, 0, 1024),
   (0x083, 0, 1024), (0x084, 0, 64), (0x0C0, 0, 1), (0x0C1, 0, 1), (0x0C2, 0, 1), (0x0C3, 0, 48),
   (0x0C4, 0, 4), (0x0C5, 0, 4), (0x100, 0, 1), (0x101, 0, 1), (0x102, 0, 1), (0x103, 0, 1),
   (0x104, 0, 1024), (0x105, 0, 1), (0x106, 0, 8), (0x107, 0, 6)] ++
  [(0x180, 0, 1), (0x181, 13, 64), (0x182, 13, 64), (0x183, 13, 4), (0x1C0, 0, 96), (0x1C1, 0, 96),
   (0x1C2, 0, 24), (0x1C3, 16, 360), (0x1C4, 16, 24), (0x200, 10, 24), (0x201, 10, 24),
   (0x202, 10, 24), (0x203, 0, 24), (0x240, 0, 1), (0x241, 0, 1), (0x242, 0, 8), (0x243, 0, 8)] ++
  [(0x280, 96, 96), (0x281, 96, 96), (0x282, 96, 96), (0x283, 96, 96), (0x284, 96, 96),
   (0x285, 96, 6144), (0x286, 22, 2016), (0x2C0, 8, 8), (0x2C1, 8, 8), (0x2C2, 8, 8), (0x2C3, 8, 8),
   (0x2C4, 32, 32), (0x2C5, 8, 8), (0x2C6, 8, 8), (0x2C7, 8, 8), (0x300, 2, 2), (0x301, 2, 2),
   (0x302, 2, 8), (0x303, 2, 128), (0x304, 2, 2), (0x305, 2, 2), (0x306, 2, 2), (0x340, 0, 1),
   (0x341, 0, 1), (0x342, 0, 1), (0x343, 0, 2), (0x344, 0, 1), (0x345, 0, 1)]

/-- The source with a code. -/
def evcSource (src : Nat) : Option (Nat × Nat × Nat) := evcSources.find? fun e => e.1 == src

/-- The source exists in blocks of this kind (R476): units 0 to 4 in core blocks, 6 to 9 in
compute-die blocks, A to D in edge-die blocks. -/
def evcLegal (b src : Nat) : Bool :=
  (evcSource src).isSome &&
    (if b < 54 then decide (src / 64 ≤ 4)
     else if b < 60 then decide (6 ≤ src / 64) && decide (src / 64 ≤ 9)
     else decide (0xA ≤ src / 64))

/-- Counters of a block (R471). -/
def evcSize (b : Nat) : Nat := if b < 54 then 8 else 32

/-- The 48-bit count. -/
def State.evcCount (s : State) (b i : Nat) : Nat :=
  s.reg48 (Reg.EVC_CNT_LO b i) (Reg.EVC_CNT_HI b i)

/-- The count is replaced. -/
def State.setEvcCount (s : State) (b i v : Nat) : State :=
  s.setReg48 (Reg.EVC_CNT_LO b i) (Reg.EVC_CNT_HI b i) v

/-- The island status register of an event-counter block's island (R38, R470). -/
def blockStat (b : Nat) : Nat :=
  if b < 54 then Reg.CORE_ISLAND_STAT b
  else if b < 60 then Reg.DIE_TEL_ISLAND_STAT (b - 54)
  else Reg.EDGE_TEL_ISLAND_STAT (b - 60)

/-- The clock of a block's island runs: `FREQ` reads 0 while it is stopped (R38, R470). -/
def State.clockRuns (s : State) (b : Nat) : Bool := decide (s.regF (blockStat b) 23 16 ≠ 0)

/-- Whether counter i of block b counts events of a source and instance: the island's clock runs (R480), the
counter is enabled and not frozen (R474), its selection names the source, and `INST` names the instance or
`0x7F` (R473). -/
def State.evcCounts (s : State) (b i src inst : Nat) : Bool :=
  match SMap.find s.regs (Reg.EVC_SEL b i) with
  | none => false
  | some w =>
    let n := w.toNat
    s.clockRuns b && bit n 31 && !bit (s.reg (Reg.EVC_CTL b)).toNat 1 && decide (fld n 9 0 = src) &&
      (decide (fld n 22 16 = 0x7F) || decide (fld n 22 16 = inst) ||
        (match evcSource src with
         | some (_, 0, _) => true
         | _ => false))

/-! ### Events and counting -/

/-- The lane that carries a host packet meant for a lane: that one, or the other while it is down
(R356, R376). -/
def State.hostLane (s : State) (lane : Nat) : Nat :=
  if s.linkState (16 + lane) = 2 then lane
  else if s.linkState (16 + (1 - lane)) = 2 then 1 - lane
  else lane

/-- A packet joins those that wait on a link. -/
def State.enqueue (s : State) (l : Nat) (p : Pkt) : State :=
  s.setLink l { s.link l with txq := (s.link l).txq ++ [p] }

/-- An event for the host waits on lane 0 (R376): nothing when its code is not enabled in
`HLK_EVT_MASK`; its sequence number counts enabled events. -/
def State.queueEvent (s : State) (code : Nat) (payload : List Byte) : State :=
  if bit (s.reg Reg.HLK_EVT_MASK).toNat (code - 1) then
    ({ s with evtSeq := s.evtSeq + 1 }).enqueue (16 + s.hostLane 0)
      ⟨nhlHdr 0x12 2 32 0 0 code s.evtSeq.toNat 0, payload⟩
  else s

/-! Name codes of the events that the worked example of R32 logs and R481 does not name. DESIGN CHOICE
(log entry 124). -/

/-- A step-begin is sent, and is received. -/
def evBeginSent : Nat := 0x0401
def evBeginReceived : Nat := 0x0402
/-- The argument of the events of a phase: micro-batch, the mark of a replay (R192), and phase (log entry
124). -/
def phaseArg (phase mb : Nat) (replay : Bool) : Nat :=
  mb % 2 ^ 29 + replay.toNat * 2 ^ 29 + phase * 2 ^ 30

/-- A phase of a stage is done: its output is drained, or its gradient sent. -/
def evPhaseDone : Nat := 0x0403
/-- The input of a phase is accepted. -/
def evInput : Nat := 0x0404
/-- Pass 2 of a group is complete. -/
def evPass2 : Nat := 0x0405
/-- The twin acknowledges a mirrored write. -/
def evTwinAck : Nat := 0x0406

/-- The island's next event joins the log, with the event that caused it (R29, R32, R376). -/
def State.addLogBy (s : State) (i name arg : Nat) (cause : Option Cause) : State :=
  { s.bumpSeq i with
    log := s.log ++ [⟨s.stamp i, BitVec.ofNat 16 name, BitVec.ofNat 32 arg, cause⟩] }

/-- An event that no other event caused. -/
def State.addLog (s : State) (i name arg : Nat) : State := s.addLogBy i name arg none

/-- The island's next event, as the cause of others (R32). -/
def State.nextEvent (s : State) (i : Nat) : Cause :=
  (BitVec.ofNat 8 (islId i), BitVec.ofNat 24 (s.island i).seq)

/-- The latest event of an island with a name and argument in a step, as the cause of another (R32). -/
def State.eventOf (s : State) (i name arg : Nat) (step : Word) : Option Cause :=
  ((s.log.reverse).find? fun e => e.name == BitVec.ofNat 16 name && e.arg == BitVec.ofNat 32 arg &&
    e.stamp.toNat / 2 ^ 24 == step.toNat * 2 ^ 8 + islId i).map fun e =>
      (BitVec.ofNat 8 (islId i), BitVec.ofNat 24 e.stamp.toNat)

/-- The end of a phase in an island's log, a replayed run's first. -/
def State.phaseEvent (s : State) (i phase mb : Nat) (step : Word) : Option Cause :=
  s.eventOf i evPhaseDone (phaseArg phase mb true) step <|>
    s.eventOf i evPhaseDone (phaseArg phase mb false) step

/-- A named event of R481 is logged; a threshold event (`0x01xx`) also waits for the host. -/
def State.queueNamed (s : State) (i name arg : Nat) : State :=
  if name / 256 = 1 then
    (s.addLog i name arg).queueEvent 8 (leBytes 8 (s.stamp i).toNat ++ leBytes 2 name ++
      leBytes 2 0 ++ leBytes 4 arg ++ List.replicate 16 0)
  else s.addLog i name arg

/-- Counter i of block b takes an increment (R477): modulo 2⁴⁸; a wrap sets `OVF`, and logs
`EVC_OVF` when `OVF` goes from 0 to 1 with `OVF_EVT` set. -/
def State.evcAdd (s : State) (b i n : Nat) : State :=
  let c := s.evcCount b i + n
  let s := s.setEvcCount b i (c % 2 ^ 48)
  if c < 2 ^ 48 then s
  else
    let sel := (s.reg (Reg.EVC_SEL b i)).toNat
    let s' := s.setRegF (Reg.EVC_SEL b i) 30 30 1
    if !bit sel 30 && bit sel 28 then s'.queueNamed b 0x0106 i else s'

/-- Block b counts n events of a source and instance; an overflow event waits for the next packet that
goes out. -/
def State.countQ (s : State) (b src inst n : Nat) : State :=
  if n = 0 then s
  else (List.range (evcSize b)).foldl
    (fun s i => if s.evcCounts b i src inst then s.evcAdd b i n else s) s

/-! ### Sending -/

/-- Packets that go out of a link are counted (R476): flits of a port, packets of a host lane. -/
def State.countSent (s : State) (l flits pkts : Nat) : State :=
  if l < 16 then s.countQ (60 + l / 8) 0x2C0 (l % 8) flits else s.countQ (60 + (l - 16)) 0x343 0 pkts

/-- Packets that may leave a link: all while it is up; `LINK_CTL` alone while a port trains or one of its
lanes is being swapped (R318, R319); the `NAK`s of R340 too while it is fenced. -/
def LinkSt.lets (k : LinkSt) (st : Nat) (p : Pkt) : Bool :=
  p.opcode == 0x40 ||
    (!k.swapping.isSome && !k.txSwap && (decide (st = 2) || (decide (st = 3) && p.opcode == 2)))

/-- A response of a queue that comes before another of the same queue (R356). -/
def Pkt.precedes (a b : Pkt) : Bool :=
  a.opcode == 0x11 && b.opcode == 0x11 && a.fld 39 32 == b.fld 39 32 && a.eseq != b.eseq &&
    decide (2 ^ 31 ≤ (a.eseq + 2 ^ 32 - b.eseq) % 2 ^ 32)

/-- A host packet waits for its turn: an earlier response of its queue waits on the other lane (R356). -/
def State.outOfTurn (s : State) (l : Nat) (p : Pkt) : Bool :=
  decide (16 ≤ l) && (s.link (33 - l)).txq.any fun q => q.precedes p

/-- After entry to `DUMPING` no Culvert port transmits (R402). -/
def State.portsMute (s : State) (l : Nat) : Bool :=
  decide (l < 16) && decide (5 ≤ s.regF Reg.GLB_STATE 2 0)

/-- Packets that wait on one link go out as far as credits reach, and an idle flit where none does. A link
that is down sends nothing. -/
def State.pumpOne (s : State) (l : Nat) : State :=
  let k := s.link l
  let st := s.linkState l
  if s.portsMute l || decide (st = 0) then s
  else
    let lets (p : Pkt) : Bool := k.lets st p && !s.outOfTurn l p
    let r := pumpQ (retryCap l - k.retryBuf.length) 0 k.held [] (k.txq.filter lets)
    let k' := LinkSt.emit
      { k with txq := (k.txq.filter fun p => !lets p) ++ r.2.1, held := r.2.2 } r.1
    let k'' := if decide (2 ≤ st) && !k.swapping.isSome && !k.txSwap then k'.idle else k'
    (s.setLink l k'').countSent l (k'.wire.length - k.wire.length) r.1.length

/-- The host lanes send in turn while a packet that leaves one may let the other go on (R356). -/
def State.pumpLanes : Nat → Nat → State → State
  | 0, _, s => s
  | n + 1, l, s =>
    let t := s.pumpOne l
    if (t.link l).txq.length = (s.link l).txq.length ∨ (t.link (33 - l)).txq.isEmpty then t
    else State.pumpLanes n (33 - l) t

/-- Packets that wait on a link go out as far as they can. -/
def State.pump (s : State) (l : Nat) : State :=
  if l < 16 then s.pumpOne l
  else State.pumpLanes ((s.link l).txq.length + (s.link (33 - l)).txq.length + 1) l s

/-- A packet joins the waiting packets of a link, and goes out when it can. -/
def State.linkSend (s : State) (l : Nat) (p : Pkt) : State := (s.enqueue l p).pump l

/-- A packet to the host. -/
def State.hostSend (s : State) (lane : Nat) (p : Pkt) : State := s.linkSend (16 + s.hostLane lane) p

/-- An event for the host (R376). -/
def State.sendEvent (s : State) (code : Nat) (payload : List Byte) : State :=
  (s.queueEvent code payload).pump (16 + s.hostLane 0)

/-- The 32-byte payload of an event: the stamp, then its arguments as 32-bit words. DESIGN CHOICE:
the words follow the stamp in the order of R376 (log entry 12). -/
def eventPayload (stamp : BitVec 64) (args : List Nat) : List Byte :=
  let body := leBytes 8 stamp.toNat ++ (args.map (leBytes 4)).flatten
  body ++ List.replicate (32 - body.length) 0

/-- An event takes its stamp in an island, is kept in the log with its cause, and is sent to the host under
its code (R29, R32, R376). -/
def State.announceBy (s : State) (i code arg : Nat) (args : List Nat) (cause : Option Cause) : State :=
  (s.addLogBy i code arg cause).sendEvent code (eventPayload (s.stamp i) args)

/-- An event that no other event caused. -/
def State.announce (s : State) (i code arg : Nat) (args : List Nat) : State :=
  s.announceBy i code arg args none

/-- A named event of R481 is logged; a threshold event (`0x01xx`) is also sent to the host. -/
def State.logNamed (s : State) (i name arg : Nat) : State :=
  if name / 256 = 1 then (s.queueNamed i name arg).pump (16 + s.hostLane 0) else s.queueNamed i name arg

/-- Block b counts n events of a source and instance. -/
def State.count (s : State) (b src inst n : Nat) : State :=
  let t := s.countQ b src inst n
  if t.evtSeq = s.evtSeq then t else t.pump (16 + t.hostLane 0)

/-- A counter register takes n more; when that takes it from below a threshold to it or above, and
no event was logged since it was last read, the threshold event is logged (R499). -/
def State.incThr (s : State) (a n thr : Nat) (isl name arg : Nat) : State :=
  let c := (s.reg a).toNat
  let s := s.inc a n
  if decide (c < thr) && decide (thr ≤ (s.reg a).toNat) && !s.thrFired.contains a then
    ({ s with thrFired := a :: s.thrFired }).logNamed isl name arg
  else s

/-! ### Breach records (R385 to R387, R407, R408) -/

/-- The 32 bytes of a record (R385). -/
def Breach.bytes (b : Breach) : List Byte :=
  leBytes 8 b.stamp.toNat ++ [b.cls, b.polder, b.action,
    BitVec.ofNat 8 (b.queued.toNat + 2 * b.exposed.toNat), b.causeIsl] ++
  leBytes 3 b.causeSeq.toNat ++ leBytes 6 b.addr.toNat ++ leBytes 2 b.obj.toNat ++
  leBytes 4 b.detail.toNat ++ leBytes 4 b.rstep.toNat

/-- A breach is held behind an open recovery window: it falls in another polder than that of every
window that has one; ECC, lane swaps and row retirement act at once (R408). The window of a breach that
concerns no part of this module holds nothing back (DEDUCED, log entry 47). -/
def State.defers (s : State) (cls polder : Nat) : Bool :=
  let ws := s.recWindows.filter fun w => decide (w.polder.toNat < 10)
  decide (cls ≠ 4 ∧ cls ≠ 7 ∧ cls ≠ 0xD ∧ cls ≠ 0xE ∧ polder < 10) && !ws.isEmpty &&
    ws.all fun w => decide (w.polder.toNat ≠ polder)

/-- The record of a breach raised now in an island. -/
def State.mkBreach (s : State) (i : Nat) (b : BreachInfo) : Breach :=
  { stamp := s.stamp i, cls := BitVec.ofNat 8 b.cls, polder := BitVec.ofNat 8 b.polder,
    action := BitVec.ofNat 8 b.action, queued := s.defers b.cls b.polder,
    exposed := bit (s.reg Reg.FLT_STAT).toNat 31, causeIsl := BitVec.ofNat 8 b.causeIsl,
    causeSeq := BitVec.ofNat 24 b.causeSeq, addr := BitVec.ofNat 48 b.addr,
    obj := BitVec.ofNat 16 b.obj, detail := BitVec.ofNat 32 b.detail,
    rstep := BitVec.ofNat 32 b.rstep }

/-- A breach: its record is appended to the ring of 131,072 (R386), counted (R387, R413), sent to
the host (R376), and queued when it waits behind a window (R408). -/
def State.breach (s : State) (i : Nat) (b : BreachInfo) : State :=
  let r := s.mkBreach i b
  let s := s.bumpSeq i
  let s := { s with breaches := (r :: s.breaches).take 131072 }
  let s := (s.inc Reg.FLT_LOG_HEAD 1).inc Reg.FLT_BREACH_CNT 1
  let s := (s.count 60 0x344 0 1).count 61 0x344 0 1
  let s :=
    if r.queued then
      let s := { s with breachQ := s.breachQ ++ [r] }
      s.setRegF Reg.FLT_STAT 23 16 (min s.breachQ.length 255)
    else s
  s.sendEvent 5 r.bytes

/-- A recovery window opens (R407). -/
def State.openWindow (s : State) (cls polder obj : Nat) : State :=
  { s with recWindows := s.recWindows ++
      [⟨BitVec.ofNat 8 cls, BitVec.ofNat 8 polder, BitVec.ofNat 16 obj⟩] }

/-- The windows of a class and object close. -/
def State.closeWindow (s : State) (cls obj : Nat) : State :=
  { s with recWindows := s.recWindows.filter fun w => !(w.cls.toNat == cls && w.obj.toNat == obj) }

/-- The polder of a core, die, port, channel or engine (R383, R20). -/
def polderOfHalf (h : Nat) : Nat := 6 + h
def halfOfPort (p : Nat) : Nat := p / 4
def halfOfChan (ch : Nat) : Nat := ch / 48
def edgeOfHalf (h : Nat) : Nat := h / 2

/-! ### Module state (R359, R360, R379) -/

/-- `GLB_STATE.STATE`. -/
def State.mode (s : State) : Nat := s.regF Reg.GLB_STATE 2 0

/-- A change of module state is written and reported by `STATE_CHANGE` (R360, R376). -/
def State.setMode (s : State) (m : Nat) : State :=
  let s := s.setRegF Reg.GLB_STATE 2 0 m
  s.announce s.ctlIsl 1 m [m, s.regF Reg.GLB_STATE 7 4]

/-! ### Host responses (R356, R357) -/

/-- Byte range [hi:lo] of a command's `ARGS`. -/
def harg (h : HostCmd) (hi lo : Nat) : Nat := Machine.fld h.args.toNat (8 * hi + 7) (8 * lo)

/-- The command codes of R358. -/
def cmdKnown (c : Nat) : Bool :=
  decide (c ≤ 3 ∨ (0x10 ≤ c ∧ c ≤ 0x13) ∨ c = 0x20 ∨ c = 0x21 ∨ (0x30 ≤ c ∧ c ≤ 0x34) ∨
    (0x40 ≤ c ∧ c ≤ 0x43) ∨ (0x50 ≤ c ∧ c ≤ 0x53) ∨ c = 0x60 ∨ c = 0x61)

/-- The kept response headers of a queue (R355): that of the last 64 sequence numbers, where a command that
ran again keeps its place. -/
def keepSent (cseq : BitVec 32) (hdr : BitVec 256) (l : List (BitVec 32 × BitVec 256)) :
    List (BitVec 32 × BitVec 256) :=
  if l.any fun e => e.1 == cseq then l.map fun e => if e.1 = cseq then (cseq, hdr) else e
  else ((cseq, hdr) :: l).take 64

/-- A response: it completes the command of its queue, its header is kept for duplicates, and it is sent
on the lane that delivered the command (R355, R356). -/
def State.answerHost (s : State) (h : HostCmd) (cmd status args : Nat) (data : List Byte) : State :=
  let hdr := nhlHdr 0x11 1 data.length h.qid.val status cmd h.cseq.toNat args
  let q := s.hostQ h.qid.val
  (s.setHostQ h.qid.val { q with
      accepted := q.accepted.eraseP (fun e => e.2.cseq == h.cseq),
      sent := keepSent h.cseq hdr q.sent }).hostSend h.lane.val ⟨hdr, data⟩

/-- Commands of reserved codes that have become the oldest of their queue are refused (R357, R358). -/
def State.flushBad (q : Nat) : Nat → State → State
  | 0, s => s
  | n + 1, s =>
    match (s.hostQ q).accepted with
    | [] => s
    | e :: _ =>
      if cmdKnown e.1.toNat then s
      else State.flushBad q n (s.answerHost e.2 e.1.toNat 0xB 0xFFFFFFFF [])

/-- The response to a command. -/
def State.respond (s : State) (h : HostCmd) (cmd status args : Nat) (data : List Byte) : State :=
  let s := s.answerHost h cmd status args data
  State.flushBad h.qid.val (s.hostQ h.qid.val).accepted.length s

/-- Refusal with `STATE_CONFLICT` (R362): counted, logged and reported. -/
def State.conflict (s : State) (h : HostCmd) (cmd : Nat) : State :=
  let i := 78 + h.lane.val
  let p := eventPayload (s.stamp i) [h.qid.val, h.cseq.toNat, s.mode]
  let s := (s.inc Reg.GLB_STATE_CONFLICT_CNT 1).count (60 + h.lane.val) 0x342 0 1
  let s := (s.addLog i 0x0204 s.mode).sendEvent 9 p
  s.respond h cmd 8 s.mode []

/-- Refusal with `BAD_COMMAND` and the byte offset of the first faulty field (R358). -/
def State.badCommand (s : State) (h : HostCmd) (cmd off : Nat) : State :=
  s.respond h cmd 0xB off []

/-- Refusal with `BAD_COMMAND` of a length the command does not allow; R357 states no `DETAIL` for
it, so it is a free value (log entry 13). -/
def State.badLen (s : State) (h : HostCmd) (cmd : Nat) : State :=
  s.draw.2.respond h cmd 0xB (s.draw.1.toNat % 2 ^ 32) []

end Sys2Proof.Machine
end

