-- ==== Sys2Proof/Machine/Approx.lean ====
section
/-! DEFINITION. The limits that the spec sets on results it does not fix (R177, R179, R290): the true
value in fixed point far below a unit in the last place, and the choice of a free value within so many
units of it. The exact arithmetic on numbers that the whole model uses stands here too. -/

namespace Sys2Proof.Machine

open Sys2Proof

/-! ### Exact values -/

def Num.zero : Num := .fin false 0 0
def Num.one : Num := .fin false 1 0

/-- An integer as an exact value. -/
def Num.ofInt (i : Int) : Num := .fin (decide (i < 0)) i.natAbs 0

def Num.isNan : Num → Bool
  | .nan => true
  | _ => false

def Num.isInf : Num → Bool
  | .inf _ => true
  | _ => false

/-- Neither a NaN nor an infinity. -/
def Num.isFin : Num → Bool
  | .fin _ _ _ => true
  | _ => false

/-- ±0. -/
def Num.isZero : Num → Bool
  | .fin _ 0 _ => true
  | _ => false

/-- The sign bit. -/
def Num.sign : Num → Bool
  | .nan => false
  | .inf n => n
  | .fin n _ _ => n

def Num.neg : Num → Num
  | .nan => .nan
  | .inf n => .inf (!n)
  | .fin n m e => .fin (!n) m e

def Num.abs : Num → Num
  | .nan => .nan
  | .inf _ => .inf false
  | .fin _ m e => .fin false m e

/-- Multiply by a power of two, exactly. -/
def Num.scale : Num → Int → Num
  | .fin n m e, k => .fin n m (e + k)
  | x, _ => x

/-- The signed coefficient of a finite value at exponent q, for q not above its own. -/
def coefAt (neg : Bool) (m : Nat) (e q : Int) : Int :=
  let k : Int := (m * 2 ^ (e - q).toNat : Nat)
  if neg then -k else k

/-- Exact sum, with the IEEE cases: +Inf and −Inf give NaN, an exact zero of opposite signs is +0. -/
def Num.add : Num → Num → Num
  | .nan, _ => .nan
  | _, .nan => .nan
  | .inf a, .inf b => if a = b then .inf a else .nan
  | .inf a, .fin _ _ _ => .inf a
  | .fin _ _ _, .inf b => .inf b
  | .fin a m e, .fin b n f =>
    let q := min e f
    let s := coefAt a m e q + coefAt b n f q
    if s = 0 then .fin (a && b) 0 0 else .fin (decide (s < 0)) s.natAbs q

/-- Exact product; Inf times zero is NaN. -/
def Num.mul : Num → Num → Num
  | .nan, _ => .nan
  | _, .nan => .nan
  | .inf a, .inf b => .inf (a != b)
  | .inf a, .fin b m _ => if m = 0 then .nan else .inf (a != b)
  | .fin a m _, .inf b => if m = 0 then .nan else .inf (a != b)
  | .fin a m e, .fin b n f => .fin (a != b) (m * n) (e + f)

/-- Exact comparison of values that are not NaN. -/
def Num.lt : Num → Num → Bool
  | .nan, _ => false
  | _, .nan => false
  | .inf a, .inf b => a && !b
  | .inf a, .fin _ _ _ => a
  | .fin _ _ _, .inf b => !b
  | .fin a m e, .fin b n f =>
    let q := min e f
    decide (coefAt a m e q < coefAt b n f q)

/-- floor(log2) of a nonzero magnitude. -/
def floorLog2 (m : Nat) (e : Int) : Int := (Nat.log2 m : Int) + e

/-- A value large enough to round as any quotient does: m / n with a sticky lowest bit. -/
def quot (m n : Nat) : Nat × Int :=
  let k := 64 + Nat.log2 n
  let q := m * 2 ^ k / n
  (2 * q + (if m * 2 ^ k % n = 0 then 0 else 1), -(k : Int) - 1)

/-- Quotient, exact as far as any rounding of it can tell. -/
def Num.div : Num → Num → Num
  | .nan, _ => .nan
  | _, .nan => .nan
  | .inf _, .inf _ => .nan
  | .inf a, .fin b _ _ => .inf (a != b)
  | .fin a _ _, .inf b => .fin (a != b) 0 0
  | .fin a m e, .fin b n f =>
    if n = 0 then (if m = 0 then .nan else .inf (a != b))
    else .fin (a != b) (quot m n).1 (e - f + (quot m n).2)

/-- Integer square root, bit by bit from bit b − 1. -/
def isqrtFrom (n : Nat) : Nat → Nat → Nat
  | 0, r => r
  | b + 1, r =>
    let t := r + 2 ^ b
    isqrtFrom n b (if t * t ≤ n then t else r)

/-- The integer square root. -/
def isqrt (n : Nat) : Nat := isqrtFrom n (Nat.log2 n / 2 + 1) 0

/-- Square root, exact as far as any rounding of it can tell. -/
def Num.sqrt : Num → Num
  | .nan => .nan
  | .inf n => if n then .nan else .inf false
  | .fin n m e =>
    if m = 0 then .fin n 0 0
    else if n then .nan
    else
      let m := if e % 2 = 0 then m else 2 * m
      let e := if e % 2 = 0 then e else e - 1
      let r := isqrt (m * 2 ^ 128)
      .fin false (2 * r + (if r * r = m * 2 ^ 128 then 0 else 1)) (e / 2 - 64 - 1)

/-! ### Fixed point with 640 fraction bits -/

/-- One in fixed point. -/
def fxOne : Int := 2 ^ 640

def fxMul (a b : Int) : Int := a * b / fxOne

/-- A finite value with at most 640 fraction bits, within ±lim. -/
def fxOf (lim : Nat) : Num → Int
  | .fin neg m e =>
    if lim.log2 + 1 < (floorLog2 m e).toNat then (if neg then -(lim : Int) else lim) * fxOne
    else
      let v : Int := (m * 2 ^ (640 + e).toNat : Nat)
      let v := min v (lim * fxOne)
      if neg then -v else v
  | _ => 0

def fxNum (v : Int) : Num := (Num.ofInt v).scale (-640)

/-- Σ from term n on of e^y, given the term of index n. -/
def expSum (y : Int) : Nat → Nat → Int → Int
  | 0, _, _ => 0
  | k + 1, n, t => t + expSum y k (n + 1) (fxMul t y / ((n : Int) + 1))

/-- ln 2 = Σ 1 / (k 2^k). -/
def ln2Sum : Nat → Nat
  | 0 => 0
  | k + 1 => 2 ^ 640 / ((k + 1) * 2 ^ (k + 1)) + ln2Sum k

def fxLn2 : Int := ln2Sum 640

/-- arctan (1 / n) by its series. -/
def atanInv (n : Int) : Nat → Int
  | 0 => 0
  | k + 1 =>
    let t := fxOne / ((2 * k + 1) * n ^ (2 * k + 1))
    (if k % 2 = 0 then t else -t) + atanInv n k

/-- π by Machin's formula. -/
def fxPi : Int := 16 * atanInv 5 150 - 4 * atanInv 239 60

/-- e^y. -/
def fxExp (y : Int) : Num :=
  let k := y / fxLn2
  (fxNum (expSum (y - k * fxLn2) 150 0 fxOne)).scale k

/-- 2^x. -/
def exp2Val (x : Num) : Num :=
  let v := fxOf 1000 x
  let k := v / fxOne
  (fxNum (expSum (fxMul (v - k * fxOne) fxLn2) 150 0 fxOne)).scale k

/-- 1 / (1 + e^(−y)), y in fixed point. -/
def sigmoidFx (y : Int) : Num := Num.one.div (Num.one.add (fxExp (-y)))

def tanhVal (x : Num) : Num :=
  let t := fxExp (-2 * fxOf 1000 x)
  (Num.one.add t.neg).div (Num.one.add t)

/-- The tanh form of GELU, as x times the logistic function of 2 √(2/π) (x + 0.044715 x³). -/
def geluVal (x : Num) : Num :=
  let v := fxOf 100 x
  let w := v + fxMul (fxMul v v) v * 44715 / 1000000
  let c : Int := isqrt (2 * 2 ^ 1920 / fxPi.toNat)
  x.mul (sigmoidFx (2 * fxMul w c))

/-- Σ (−1)^n x^(2n+1) / (2^n n! (2n+1)) from term n on, t = x^(2n+1) / (2^n n!). -/
def phiSum (xx : Int) : Nat → Nat → Int → Int
  | 0, _, _ => 0
  | k + 1, n, t => t / (2 * (n : Int) + 1) + phiSum xx k (n + 1) (-(fxMul t xx / (2 * ((n : Int) + 1))))

/-- The erf form of GELU: x times the normal distribution function. -/
def geluErfVal (x : Num) : Num :=
  let v := fxOf 20 x
  let c : Int := isqrt (2 ^ 1920 / (2 * fxPi.toNat))
  x.mul (fxNum (fxOne / 2 + fxMul c (phiSum (fxMul v v) 1000 0 v)))

/-! ### A free value within its limit -/

/-- c lies within n units in the last place of FP32 of y. -/
def withinUlp (n : Nat) (c y : Num) : Bool :=
  let u : Int := match y with
    | .fin _ m e => if m = 0 then -149 else max (floorLog2 m e - 23) (-149)
    | _ => -149
  !(Num.fin false n u).lt (c.add y.neg).abs

/-- The free value c where it lies within n units in the last place of y (an infinity: where that range
passes the largest value), else y rounded. -/
def bounded (n : Nat) (c : Num) (y : Num) : Option Num :=
  match c with
  | .fin _ _ _ => if withinUlp n c y then some c else none
  | .inf neg =>
    if neg == y.sign && withinUlp n (.fin neg (2 ^ 24) 104) y then some c else none
  | .nan => none

end Sys2Proof.Machine
end

