-- ==== Sys2Proof/Machine/Num.lean ====
section
/-! DEFINITION. Numbers: the element formats of R40, rounding (R54), conversion of
values and blocks (R46 to R64), and the FP32 operations of the array, drain and engines. -/

namespace Sys2Proof.Machine

open Sys2Proof

/-! ### Element formats (R40 to R43) -/

/-- The 4-bit code of a format. -/
def ElemFmt.code : ElemFmt → Nat
  | .fp32 => 0 | .bf16 => 1 | .e4m3 => 2 | .e5m2 => 3 | .fp4 => 4 | .int4 => 5 | .int2 => 6
  | .int32 => 7

/-- The format with a code; the others are reserved. -/
def ElemFmt.ofCode : Nat → Option ElemFmt
  | 0 => some .fp32 | 1 => some .bf16 | 2 => some .e4m3 | 3 => some .e5m2 | 4 => some .fp4
  | 5 => some .int4 | 6 => some .int2 | 7 => some .int32
  | _ => none

/-- Element width in bits. -/
def ElemFmt.width : ElemFmt → Nat
  | .fp32 => 32 | .bf16 => 16 | .e4m3 => 8 | .e5m2 => 8 | .fp4 => 4 | .int4 => 4 | .int2 => 2
  | .int32 => 32

def ElemFmt.isFloat : ElemFmt → Bool
  | .int4 | .int2 | .int32 => false
  | _ => true

/-- Four-bit and two-bit formats. -/
def ElemFmt.narrow : ElemFmt → Bool
  | .fp4 | .int4 | .int2 => true
  | _ => false

def ElemFmt.fp8 : ElemFmt → Bool
  | .e4m3 | .e5m2 => true
  | _ => false

/-- Mantissa bits of a float format. -/
def ElemFmt.mant : ElemFmt → Nat
  | .fp32 => 23 | .bf16 => 7 | .e4m3 => 3 | .e5m2 => 2 | .fp4 => 1
  | _ => 0

/-- Exponent of the smallest normal of a float format. -/
def ElemFmt.emin : ElemFmt → Int
  | .fp32 => -126 | .bf16 => -126 | .e4m3 => -6 | .e5m2 => -14 | .fp4 => 0
  | _ => 0

/-- Code of the largest finite magnitude. -/
def ElemFmt.maxCode : ElemFmt → Nat
  | .fp32 => 0x7F7FFFFF | .bf16 => 0x7F7F | .e4m3 => 0x7E | .e5m2 => 0x7B | .fp4 => 7
  | .int4 => 7 | .int2 => 1 | .int32 => 0x7FFFFFFF

/-- The exponent of the largest binade (R53). -/
def ElemFmt.emax : ElemFmt → Int
  | .fp4 => 2 | .int4 => 2 | .int2 => 0 | .e4m3 => 8 | .e5m2 => 15
  | _ => 127

/-- The canonical NaN (R42). -/
def ElemFmt.nanCode : ElemFmt → Nat
  | .fp32 => 0x7FC00000 | .bf16 => 0x7FC0 | .e4m3 => 0x7F | .e5m2 => 0x7E
  | _ => 0

/-- The value of a float code with sign bit at the top. -/
def decodeFloat (f : ElemFmt) (c : Nat) : Num :=
  let w := f.width
  let mb := f.mant
  let neg := bit c (w - 1)
  let mag := c % 2 ^ (w - 1)
  let ex := mag / 2 ^ mb
  let man := mag % 2 ^ mb
  let q := f.emin - (mb : Int)
  if f = .e4m3 ∧ mag = 0x7F then .nan
  else if f ≠ .e4m3 ∧ f ≠ .fp4 ∧ f.maxCode < mag then
    (if man = 0 then .inf neg else .nan)
  else if ex = 0 then .fin neg man q
  else .fin neg (2 ^ mb + man) (q + (ex : Int) - 1)

/-- A two's complement code of width w. -/
def signed (c w : Nat) : Int :=
  if bit c (w - 1) then (c : Int) - (2 ^ w : Nat) else c

/-- The value of an element code (R40, R43): the ternary code `0b10` reads as +0. -/
def decodeElem (f : ElemFmt) (c : Nat) : Num :=
  match f with
  | .int4 => .ofInt (signed c 4)
  | .int2 => if c = 1 then .fin false 1 0 else if c = 3 then .fin true 1 0 else .zero
  | .int32 => .ofInt (signed c 32)
  | f => decodeFloat f c

/-- The value of an E8M0 scale exponent applied to a value (R47). -/
def scaleBy (x : Num) (e : Nat) : Num := x.scale ((e : Int) - 127)

/-! ### Rounding (R54) -/

/-- m / 2^sh to nearest, ties to even. -/
def shiftRne (m sh : Nat) : Nat :=
  let q := m / 2 ^ sh
  let r := m % 2 ^ sh
  if 2 * r > 2 ^ sh ∨ (2 * r = 2 ^ sh ∧ q % 2 = 1) then q + 1 else q

/-- m × 2^e in units of 2^q: to nearest even, or by adding a 16-bit draw below the last retained bit
and truncating (R54). -/
def roundUnits (draw : Option (BitVec 16)) (m : Nat) (e q : Int) : Nat :=
  match draw with
  | none => if q ≤ e then m * 2 ^ (e - q).toNat else shiftRne m (q - e).toNat
  | some r =>
    let lo := min e (q - 16)
    (m * 2 ^ (e - lo).toNat + r.toNat * 2 ^ (q - 16 - lo).toNat) / 2 ^ (q - lo).toNat

/-- The magnitude code of m × 2^e in a format, without its range limit: the codes of a float format
continue past the largest finite one. -/
def magCode (f : ElemFmt) (draw : Option (BitVec 16)) (m : Nat) (e : Int) : Nat :=
  if m = 0 then 0
  else if f.isFloat then
    let qmin := f.emin - (f.mant : Int)
    let q := max (floorLog2 m e - (f.mant : Int)) qmin
    (q - qmin).toNat * 2 ^ f.mant + roundUnits draw m e q
  else roundUnits draw m e 0

/-- A value to FP32 by RNE, overflow to ±Inf (IEEE 754 binary32, R42). -/
def toF32 (x : Num) : Word :=
  match x with
  | .nan => 0x7FC00000#32
  | .inf n => BitVec.ofNat 32 (0x7F800000 + n.toNat * 2 ^ 31)
  | .fin n m e => BitVec.ofNat 32 (min (magCode .fp32 none m e) 0x7F800000 + n.toNat * 2 ^ 31)

/-- The value of an FP32 word. -/
def f32 (w : Word) : Num := decodeFloat .fp32 w.toNat

/-- A finite value whose RNE rounding to FP32 overflows. -/
def overflows32 : Num → Bool
  | .fin _ m e => decide (0x7F7FFFFF < magCode .fp32 none m e)
  | _ => false

/-- IEEE 754 binary32 operations with RNE. -/
def fadd (a b : Word) : Word := toF32 ((f32 a).add (f32 b))
def fsub (a b : Word) : Word := toF32 ((f32 a).add (f32 b).neg)
def fmul (a b : Word) : Word := toF32 ((f32 a).mul (f32 b))
def fdiv (a b : Word) : Word := toF32 ((f32 a).div (f32 b))
def fsqrt (a : Word) : Word := toF32 (f32 a).sqrt
def fneg (a : Word) : Word := toF32 (f32 a).neg

/-- IEEE maximum and minimum; NaN if either operand is. -/
def fmax (a b : Word) : Word :=
  if (f32 a).isNan || (f32 b).isNan then 0x7FC00000#32
  else if (f32 a).lt (f32 b) || ((f32 a).isZero && (f32 b).isZero && (f32 a).sign) then b else a
def fmin (a b : Word) : Word :=
  if (f32 a).isNan || (f32 b).isNan then 0x7FC00000#32
  else if (f32 b).lt (f32 a) || ((f32 a).isZero && (f32 b).isZero && (f32 b).sign) then b else a

/-- Not finite. -/
def nonfin (a : Word) : Bool := !(f32 a).isFin

/-- An addition of the array or accumulator (R160): its result, whether it saturates, whether it has
an Inf or NaN operand or result. -/
def accAdd (a b : Word) : Word × Bool × Bool :=
  let x := (f32 a).add (f32 b)
  if (f32 a).isFin && (f32 b).isFin && overflows32 x then
    (BitVec.ofNat 32 (0x7F7FFFFF + x.sign.toNat * 2 ^ 31), true, false)
  else (toF32 x, false, !(f32 a).isFin || !(f32 b).isFin || !x.isFin)

/-- rne32 of an exact product that begins a lane sum, and of later additions of one (R158, R160). -/
def accRound (finite : Bool) (x : Num) : Word × Bool :=
  if finite && overflows32 x then (BitVec.ofNat 32 (0x7F7FFFFF + x.sign.toNat * 2 ^ 31), true)
  else (toF32 x, false)

/-- An INT32 addition that saturates (R159): result and whether it saturated. -/
def satI32 (x : Int) : Word × Bool :=
  if 0x7FFFFFFF < x then (0x7FFFFFFF#32, true)
  else if x < -0x80000000 then (0x80000000#32, true)
  else (BitVec.ofInt 32 x, false)

/-- Largest integer not above a finite value. -/
def Num.floor : Num → Int
  | .fin n m e =>
    if 0 ≤ e then coefAt n m e 0
    else
      let q := m / 2 ^ (-e).toNat
      if n then (if m % 2 ^ (-e).toNat = 0 then -(q : Int) else -(q : Int) - 1) else q
  | _ => 0

/-- The pair arithmetic of R166 on (hi, lo) and a sum L: the new pair, saturated, non-finite. DESIGN CHOICE: where
only the last sum, rne32(t + e), overflows, the pair becomes the largest value of its sign and +0 too (log entry
149). -/
def pairAdd (p : Word × Word) (l : Word) : (Word × Word) × Bool × Bool :=
  let hi := p.1
  if nonfin hi || nonfin l then ((fadd hi l, 0#32), false, true)
  else
    let x := (f32 hi).add (f32 l)
    if overflows32 x then
      ((BitVec.ofNat 32 (0x7F7FFFFF + x.sign.toNat * 2 ^ 31), 0#32), true, false)
    else
      let t := toF32 x
      let e := toF32 (x.add (f32 t).neg)
      let e := fadd e p.2
      let y := (f32 t).add (f32 e)
      if overflows32 y then
        ((BitVec.ofNat 32 (0x7F7FFFFF + y.sign.toNat * 2 ^ 31), 0#32), true, false)
      else
        let h := toF32 y
        ((h, toF32 (y.add (f32 h).neg)), false, false)

/-! ### Conversion of elements and blocks (R53 to R64) -/

/-- An integer format's magnitude limit by sign. -/
def ElemFmt.limit (f : ElemFmt) (neg : Bool) : Nat :=
  match f with
  | .int4 => if neg then 8 else 7
  | .int32 => if neg then 0x80000000 else 0x7FFFFFFF
  | f => f.maxCode

/-- A magnitude code with a sign as an element code; integers are two's complement and write −0 as 0
(R41). -/
def signCode (f : ElemFmt) (neg : Bool) (mag : Nat) : Nat :=
  if f.isFloat then mag + (if neg then 2 ^ (f.width - 1) else 0)
  else if neg then (2 ^ f.width - mag) % 2 ^ f.width
  else mag

/-- A finite value lies outside the format's range before rounding. -/
def exceeds (f : ElemFmt) (neg : Bool) (m : Nat) (e : Int) : Bool :=
  let lim : Num := (decodeElem f (signCode f neg (f.limit neg))).abs
  lim.lt (.fin false m e)

/-- A scaled element overtops (R57), by the rounding mode in force. DESIGN CHOICE: an INT2 block whose scale is
clamped at 2^127 under a freeboard of 1 or more overtops by these thresholds alone (log entry 148). -/
def overtops (f : ElemFmt) (stoch : Bool) : Num → Bool
  | .nan => f.narrow
  | .inf _ => true
  | .fin n m e =>
    if stoch then exceeds f n m e else decide (f.limit n < magCode f none m e)

/-- A scaled element as its code: an overtopping one takes the extreme value of its sign. -/
def elemCode (f : ElemFmt) (draw : Option (BitVec 16)) : Num → Nat
  | .nan => f.nanCode
  | .inf n => signCode f n (f.limit n)
  | .fin n m e => signCode f n (min (magCode f draw m e) (f.limit n))

/-- A value into an unscaled format (R56, R58, R64): the code, and whether it saturated. -/
def convPlain (f : ElemFmt) (draw : Option (BitVec 16)) (x : Num) : Nat × Bool :=
  match f with
  | .fp32 => ((toF32 x).toNat, false)
  | .int32 =>
    match x with
    | .nan => (0, false)
    | .inf n => (signCode .int32 n (f.limit n), true)
    | .fin n m e =>
      let k := roundUnits none m e 0
      (signCode .int32 n (min k (f.limit n)), decide (f.limit n < k))
  | f =>
    match x with
    | .nan => (f.nanCode, false)
    | .inf n =>
      if f = .bf16 ∨ f = .e5m2 then (f.maxCode + 1 + (if n then 2 ^ (f.width - 1) else 0), false)
      else (signCode f n f.maxCode, true)
    | .fin n m e =>
      match f, draw with
      | .bf16, none => (signCode f n (min (magCode f none m e) 0x7F80), false)
      | f, d => (elemCode f d x, overtops f d.isSome x)

/-- The largest finite magnitude of a block. -/
def amax (l : List Num) : Num :=
  l.foldl (fun a x => if x.isFin && a.lt x.abs then x.abs else a) .zero

/-- The block exponent and its scale code (R53). -/
def blockScale (f : ElemFmt) (fb : Nat) (l : List Num) : Nat :=
  match amax l with
  | .fin _ 0 _ => 127
  | .fin _ m e =>
    let s := floorLog2 m e - f.emax + (min fb 2 : Nat)
    (min (max s (-127)) 127 + 127).toNat
  | _ => 127

/-- The draws of a block: one for each element under stochastic rounding. -/
def drawAt (stoch : Bool) (ctr i : Nat) : Option (BitVec 16) :=
  if stoch then some ((Config.free (ctr + i)).truncate 16) else none

/-- A block of values converted into a block-scaled format: codes as R63 clamps them, and what R57 to
R64 count. A clamped element is one that overtops and is not a NaN. -/
def convBlock (f : ElemFmt) (fb : Nat) (stoch : Bool) (ctr : Nat) (l : List Num) : BlockConv :=
  let sc := blockScale f fb l
  let v := l.map fun x => x.scale (127 - (sc : Int))
  let ot := v.map (overtops f stoch)
  { codes := (v.zipIdx).map fun p => elemCode f (drawAt stoch ctr p.2) p.1,
    scale := sc, overtop := f.narrow && ot.any id,
    sat := ((v.zip ot).filter fun p => p.2 && !p.1.isNan).length,
    hasNan := v.any Num.isNan }

/-- Bytes of codes packed from the least significant bits up (R49). -/
def packCodes (w : Nat) (codes : List Nat) : List Byte :=
  leBytes ((codes.length * w + 7) / 8)
    (codes.foldr (fun c acc => c % 2 ^ w + 2 ^ w * acc) 0)

/-- Code i of packed bytes. -/
def codeAt (w : Nat) (bytes : List Byte) (i : Nat) : Nat := leNat bytes / 2 ^ (w * i) % 2 ^ w

/-! ### Functions of the drain (R177, R179) -/

/-- A result that the spec bounds: the free value of `Config` where it stays within n units in the last
place of the true value y, and y rounded to nearest otherwise. -/
def freeNear (n : Nat) (c : Word) (y : Num) : Word := match bounded n (f32 c) y with
  | some _ => c
  | none => toF32 y

/-- An activation function by code; the codes above 7 are refused at issue. -/
def activation (code : Nat) (x : Word) : Word :=
  let n := f32 x
  match n with
  | .nan => 0x7FC00000#32
  | .inf neg =>
    match code with
    | 0 => x
    | 5 => if neg then 0#32 else 0x3F800000#32
    | 6 => if neg then 0xBF800000#32 else 0x3F800000#32
    | 2 | 3 | 4 => if neg then 0x80000000#32 else x
    | _ => if neg then 0#32 else x
  | .fin neg m _ =>
    match code with
    | 0 => x
    | 1 => if neg || m == 0 then 0#32 else x
    | 2 => freeNear 4 (Config.gelu x) (geluVal n)
    | 3 => freeNear 4 (Config.geluErf x) (geluErfVal n)
    | 4 => freeNear 4 (Config.silu x) (n.mul (sigmoidFx (fxOf 1000 n)))
    | 5 => freeNear 4 (Config.sigmoid x) (sigmoidFx (fxOf 1000 n))
    | 6 => freeNear 4 (Config.tanh x) (tanhVal n)
    | 7 => if neg || m == 0 then 0#32 else fmul x x
    | _ => x

/-- exp2 with its exact cases at the infinities; elsewhere within 2 units in the last place (R179). -/
def fexp2 (x : Word) : Word :=
  match f32 x with
  | .nan => 0x7FC00000#32
  | .inf neg => if neg then 0#32 else x
  | .fin _ _ _ => freeNear 2 (Config.exp2 x) (exp2Val (f32 x))

/-- 1 / √x with the cases of R179. -/
def frsqrt (x : Word) : Word :=
  match f32 x with
  | .nan => 0x7FC00000#32
  | .inf neg => if neg then 0x7FC00000#32 else 0#32
  | .fin neg m _ =>
    if m = 0 then (if neg then 0xFF800000#32 else 0x7F800000#32)
    else if neg then 0x7FC00000#32
    else freeNear 1 (Config.rsqrt x) (Num.one.div (f32 x).sqrt)

/-- A drain-chain operation by code, on x and operand b (R179). -/
def chainOp (op : Nat) (x b : Word) (imm : Nat) : Word :=
  match op with
  | 1 => fadd x b
  | 2 => fsub x b
  | 3 => fmul x b
  | 4 => fmax x b
  | 5 => fmin x b
  | 6 => activation (imm % 16) x
  | 7 => fexp2 x
  | 8 => fdiv 0x3F800000#32 x
  | 9 => frsqrt x
  | 10 => fmul x x
  | 11 => fneg x
  | 12 => toF32 (f32 x).abs
  | _ => x

end Sys2Proof.Machine
end

