-- ==== Sys2Proof/Machine/Tensor.lean ====
section
/-! DEFINITION. Tensors: formats and layouts by code, the matrix view (R70), element addresses (R100,
R111), and the reading of one row of a view in every compressed format with the metadata drops of R92. -/

namespace Sys2Proof.Machine

open Sys2Proof

/-! ### Format bytes -/

/-- The N:M variants of R69. -/
def nmVariant : Nat → Option (Nat × Nat)
  | 0 => some (1, 4) | 1 => some (2, 4) | 2 => some (2, 8) | 3 => some (4, 8)
  | _ => none

/-- The compressed format of a `CFMT` byte (R69). -/
def CFmt.ofByte (b : Nat) : Option CFmt :=
  let v := b / 16
  match b % 16 with
  | 0 => if v = 0 then some .dns else none
  | 1 => if v = 0 then some .bmp else none
  | 2 => (nmVariant v).map fun p => .nm p.1 p.2
  | 3 => (nmVariant v).map fun p => .tnm p.1 p.2
  | 4 => if v = 0 then some .csr else none
  | 5 => if v = 0 then some .coo else none
  | 6 => if v = 0 then some (.bsr 16) else if v = 1 then some (.bsr 32) else none
  | 7 => if v = 0 then some .ohi else none
  | _ => none

/-- The tag of a compressed format. -/
def CFmt.tag : CFmt → Nat
  | .dns => 0 | .bmp => 1 | .nm _ _ => 2 | .tnm _ _ => 3 | .csr => 4 | .coo => 5 | .bsr _ => 6
  | .ohi => 7

/-- The layout of a tag (R111). -/
def Layout.ofByte : Nat → Option Layout
  | 0 => some .lin | 1 => some .ilB128 | 2 => some .ilA8 | 3 => some .ilAcc
  | _ => none

/-- ⌈a / b⌉. -/
def cdiv (a b : Nat) : Nat := (a + b - 1) / b

/-! ### Shapes -/

/-- Product of a list of numbers. -/
def prodL (l : List Nat) : Nat := l.foldl (· * ·) 1

/-- The extents of a descriptor. -/
def Desc.exts (d : Desc) : List Nat := d.dims.map DimE.ext

/-- Columns of the matrix view (R70). -/
def Desc.cols (d : Desc) : Nat := at0 d.exts d.colAxis

/-- Extents of the dimensions that are flattened into rows. -/
def Desc.rowExts (d : Desc) : List Nat := d.exts.eraseIdx d.colAxis

/-- Rows of the matrix view. -/
def Desc.rows (d : Desc) : Nat := prodL d.rowExts

/-- The indices of a flat row-major position. -/
def unflat : List Nat → Nat → List Nat
  | [], _ => []
  | e :: es, i => i / prodL es % e :: unflat es i

/-- The flat row-major position of indices. -/
def flat : List Nat → List Nat → Nat
  | _ :: es, i :: is => i * prodL es + flat es is
  | _, _ => 0

/-- The index tuple of element (row, column) of the view. -/
def Desc.index (d : Desc) (i j : Nat) : List Nat := (unflat d.rowExts i).insertIdx d.colAxis j

/-- The (row, column) of an index tuple. -/
def Desc.viewPos (d : Desc) (ix : List Nat) : Nat × Nat :=
  (flat d.rowExts (ix.eraseIdx d.colAxis), at0 ix d.colAxis)

/-- The element offset of an index tuple: strides, or the tag's storage function (R100, R111). -/
def Desc.offset (d : Desc) (ix : List Nat) : Int :=
  let x := at0 ix 0
  let y := at0 ix 1
  let ex := at0 d.exts 0
  let ey := at0 d.exts 1
  match d.layout with
  | .lin => ((ix.zip d.dims).map fun p => (p.1 : Int) * p.2.stride).foldl (· + ·) 0
  | .ilB128 => (((y / 128) * cdiv ex 128 + x / 128) * 16384 + x % 128 * 128 + y % 128 : Nat)
  | .ilA8 => (x / 8 * 8 * (128 * cdiv ey 128) + y / 32 * 256 + x % 8 * 32 + y % 32 : Nat)
  | .ilAcc => ((x / 128 * cdiv ey 128 + y / 128) * 16384 + x % 128 * 128 + y % 128 : Nat)

/-- The storage of a tagged tensor, in elements. -/
def Desc.tagSize (d : Desc) : Nat :=
  let ex := at0 d.exts 0
  let ey := at0 d.exts 1
  match d.layout with
  | .lin => 0
  | .ilB128 => cdiv ex 128 * cdiv ey 128 * 16384
  | .ilA8 => cdiv ex 8 * 8 * (128 * cdiv ey 128)
  | .ilAcc => cdiv ex 128 * cdiv ey 128 * 16384

/-- Slots of the value array of a non-DNS format (R72). -/
def Desc.slots (d : Desc) : Nat :=
  match d.cfmt with
  | .dns => prodL d.exts
  | .nm n m => d.rows * cdiv d.cols m * n
  | .tnm n m => cdiv d.rows m * cdiv d.cols m * m * n
  | .bsr b => d.nnzCap * b * b
  | .ohi => 0
  | _ => d.nnzCap

/-- The tensor has block scales. -/
def Desc.scaled (d : Desc) : Bool := d.blocked && d.cfmt != .ohi

/-- The base and capacity of array a: 0 `MD0`, 1 `MD1`, 2 `SCL`, 3 `SPILL`. -/
def Desc.abase (d : Desc) (a : Nat) : Nat := (d.arrays.getD a (0, 0)).1
def Desc.acap (d : Desc) (a : Nat) : Nat := (d.arrays.getD a (0, 0)).2

/-- The descriptor names a spill area (R62, R99). -/
def Desc.hasSpill (d : Desc) : Bool := d.fmt.narrow && d.scaled && decide (d.acap 3 ≠ 0)

/-- Records of the spill area (R61). -/
def Desc.spillCap (d : Desc) : Nat := min ((d.acap 3 - 32) / 32) 0xFFFFFFFE

/-! ### Block positions -/

/-- The number and place of the scale block of an element of a DNS tensor (R48, R112). -/
def Desc.blockOf (d : Desc) (ix : List Nat) : Nat × Nat :=
  match d.layout with
  | .lin =>
    let b := d.blockAxis
    let p := at0 ix b
    (flat (d.exts.set b (cdiv (at0 d.exts b) 32)) (ix.set b (p / 32)), p % 32)
  | _ => ((d.offset ix).toNat / 32, (d.offset ix).toNat % 32)

/-- The index tuples of the block of an element of a DNS `LIN` tensor, in block order. -/
def Desc.blockLin (d : Desc) (ix : List Nat) : List (List Nat) :=
  let b := d.blockAxis
  let p := at0 ix b / 32 * 32
  (List.range (min 32 (at0 d.exts b - p))).map fun i => ix.set b (p + i)

/-- Codes that a spill pointer needs (R60). -/
def pointerCodes (f : ElemFmt) : Nat := 64 / f.width

/-! ### Reading codes -/

/-- n bytes as a number, least significant first (R5). -/
def Rd.le (r : Rd) (a : Nat) : Nat → Nat
  | 0 => 0
  | n + 1 => (r.byte a).toNat + 256 * r.le (a + 1) n

/-- Some of n bytes are poisoned. -/
def Rd.anyBad (r : Rd) (a : Nat) : Nat → Bool
  | 0 => false
  | n + 1 => r.bad a || r.anyBad (a + 1) n

/-- The byte that holds the start of element e of width w from a base (R100). -/
def codeByte (base : Nat) (e : Int) (w : Nat) : Nat := ((base : Int) + (e * w).fdiv 8).toNat

/-- The code of element e. -/
def Rd.code (r : Rd) (base : Nat) (e : Int) (w : Nat) : Nat :=
  let a := codeByte base e w
  if w < 8 then (r.byte a).toNat / 2 ^ ((e * w).fmod 8).toNat % 2 ^ w else r.le a (w / 8)

/-- The element's bytes are poisoned. -/
def Rd.codeBad (r : Rd) (base : Nat) (e : Int) (w : Nat) : Bool :=
  r.anyBad (codeByte base e w) (max (w / 8) 1)

/-- A value whose scale byte is `0xFF`, in a tensor with a spill area: its pointer decides (R62,
R64, R92). `pos` is its place in the block. DESIGN CHOICE: a pointer whose `SPILL_SCALE` is `0xFF` makes the
record's elements NaN (log entry 129). -/
def Rd.escaped (r : Rd) (d : Desc) (ptr : Nat) (pos : Nat) (bad : Bool) : SlotRead :=
  let idx := ptr % 2 ^ 32
  let sc := ptr / 2 ^ 32 % 256
  let a := d.abase 3 + 32 + 32 * idx + pos
  if idx = 0xFFFFFFFF then ⟨⟨0, 0, 0xFF, false, bad⟩, false, false⟩
  else if d.spillCap ≤ idx then ⟨⟨0, 0, 0x7F, false, bad⟩, true, false⟩
  else ⟨⟨0, (r.byte a).toNat, sc, true, bad || r.bad a⟩, false, false⟩

/-- A value of an unescaped block, or of an unscaled tensor (scale code `0x7F`). DESIGN CHOICE: a reserved INT2 code
in a block whose scale byte means NaN reads as NaN (R62), and is still counted as reserved (R43; log entry
146). -/
def plainRead (f : ElemFmt) (code scale : Nat) (bad : Bool) : SlotRead :=
  ⟨⟨0, code, scale, false, bad⟩, false, f == .int2 && code == 2⟩

/-- The value in slot k of a non-DNS tensor (R71). -/
def Rd.slot (r : Rd) (d : Desc) (k : Nat) : SlotRead :=
  let w := d.fmt.width
  let code := r.code d.base k w
  let bad := r.codeBad d.base k w
  if d.scaled then
    let sc := (r.byte (d.abase 2 + k / 32)).toNat
    let bad := bad || r.bad (d.abase 2 + k / 32)
    if sc = 0xFF ∧ d.hasSpill then
      let a := d.base + 32 * (k / 32) * w / 8
      r.escaped d (r.le a 8) (k % 32) (bad || r.anyBad a 8)
    else plainRead d.fmt code sc bad
  else plainRead d.fmt code 0x7F bad

/-- The spill pointer of the block of an element of a DNS tensor, when the block has room for one
(R60). -/
def Rd.pointer (r : Rd) (d : Desc) (ix : List Nat) : Option Nat :=
  let w := d.fmt.width
  match d.layout with
  | .lin =>
    let l := (d.blockLin ix).take (pointerCodes d.fmt)
    if l.length < pointerCodes d.fmt then none
    else some (l.foldr (fun ix acc => r.code d.base (d.offset ix) w + 2 ^ w * acc) 0)
  | _ => some (r.le (d.base + 32 * (d.blockOf ix).1 * w / 8) 8)

/-- The value of an element of a DNS tensor. -/
def Rd.elem (r : Rd) (d : Desc) (ix : List Nat) : SlotRead :=
  let w := d.fmt.width
  let e := d.offset ix
  let code := r.code d.base e w
  let bad := r.codeBad d.base e w
  if d.scaled then
    let blk := d.blockOf ix
    let sc := (r.byte (d.abase 2 + blk.1)).toNat
    let bad := bad || r.bad (d.abase 2 + blk.1)
    if sc = 0xFF ∧ d.hasSpill then
      match r.pointer d ix with
      | some p => r.escaped d p blk.2 bad
      | none => plainRead d.fmt 0 0xFF bad
    else plainRead d.fmt code sc bad
  else plainRead d.fmt code 0x7F bad

/-- The exact value of an entry in a format (R47, R62). -/
def Entry.num (f : ElemFmt) (e : Entry) : Num :=
  if e.scale = 0xFF then .nan
  else if e.spill then scaleBy (decodeFloat .e4m3 e.value) e.scale
  else scaleBy (decodeElem f e.value) e.scale

/-- A zero code: +0 or −0, also in a spill record, and the reserved INT2 code (R131). -/
def Entry.isZero (f : ElemFmt) (e : Entry) : Bool :=
  e.scale != 0xFF &&
    (if e.spill then e.value % 128 == 0 else (decodeElem f e.value).isZero)

/-! ### Reading rows -/

/-- A row that holds nothing. -/
def RowRead.empty : RowRead := ⟨[], [], [], false⟩

/-- The value of a slot read joins a row at a column; a spill drop counts for its block (R92). -/
def RowRead.push (a : RowRead) (row col : Nat) (x : SlotRead) (block : Nat) : RowRead :=
  { ents := a.ents ++ [{ x.e with k := col }],
    drops := if x.spillDrop then a.drops ++ [⟨1, 1, row, some col, some (.spill block)⟩] else a.drops,
    rsv := if x.rsv then a.rsv ++ [col] else a.rsv,
    metaBad := a.metaBad }

/-- A drop joins. -/
def RowRead.drop (a : RowRead) (sub n row : Nat) (col : Option Nat) : RowRead :=
  if n = 0 then a else { a with drops := a.drops ++ [⟨sub, n, row, col, none⟩] }

/-- The drops of one reading: what counts once stands once (R92). -/
def onceEach : List Drop → List DropKey → List Drop
  | [], _ => []
  | q :: l, seen =>
    match q.key with
    | none => q :: onceEach l seen
    | some k => if seen.contains k then onceEach l seen else q :: onceEach l (k :: seen)

/-- Slots in (column, slot) order read into a row. -/
def Rd.slotsRow (r : Rd) (d : Desc) (row : Nat) (l : List (Nat × Nat)) (a : RowRead) : RowRead :=
  l.foldl (fun a p => a.push row p.1 (r.slot d p.2) (p.2 / 32)) a

/-- Row i of a DNS view, or its column i when transposed. -/
def Rd.dnsRow (r : Rd) (d : Desc) (trans : Bool) (i : Nat) : RowRead :=
  let n := if trans then d.rows else d.cols
  (List.range n).foldl (fun a j =>
    let ix := if trans then d.index j i else d.index i j
    a.push (if trans then j else i) j (r.elem d ix) (d.blockOf ix).1) RowRead.empty

/-- Positions of set bits of a mask, ascending. -/
def setBits (mask n : Nat) : List Nat := (List.range n).filter fun p => mask.testBit p

/-- The chunks of a BMP row whose columns are known: those before the first poisoned bitmap, which governs the
slots of the later ones too (R78, R92; DEDUCED, log entry 147). -/
def Rd.goodChunks (r : Rd) (a0 c : Nat) : List Nat :=
  (List.range c).takeWhile fun q => !r.anyBad (a0 + 8 * q) 8

/-- Row i of a BMP tensor (R78, R92). DESIGN CHOICE: a bit that has no slot and lies beyond `COLS` counts as
`NM_EXCESS` (log entry 131). -/
def Rd.bmpRow (r : Rd) (d : Desc) (i : Nat) : RowRead :=
  let c := cdiv d.cols 64
  let lo := r.le (d.abase 1 + 8 * i) 8
  let hi := r.le (d.abase 1 + 8 * (i + 1)) 8
  let a0 := d.abase 0 + 8 * (i * c)
  if r.anyBad (d.abase 1 + 8 * i) 16 then { RowRead.empty with metaBad := true }
  else if hi < lo then RowRead.empty.drop 3 1 i none
  else
    let cols := (r.goodChunks a0 c).flatMap fun q => (setBits (r.le (a0 + 8 * q) 8) 64).map (64 * q + ·)
    cols.zipIdx.foldl (fun a p =>
      let k := lo + p.2
      if hi ≤ k then a.drop 2 1 i (some p.1)
      else if d.cols ≤ p.1 ∨ d.nnzCap ≤ k then a.drop 1 1 i (some p.1)
      else a.push i p.1 (r.slot d k) (k / 32)) { RowRead.empty with metaBad := r.anyBad a0 (8 * c) }

/-- Mask q of M bits (R79). -/
def Rd.mask (r : Rd) (d : Desc) (m q : Nat) : Nat :=
  if m = 4 then (r.byte (d.abase 0 + q / 2)).toNat / 2 ^ (4 * (q % 2)) % 16
  else (r.byte (d.abase 0 + q)).toNat

/-- The mask's byte is poisoned. -/
def Rd.maskBad (r : Rd) (d : Desc) (m q : Nat) : Bool :=
  r.bad (d.abase 0 + (if m = 4 then q / 2 else q))

/-- One mask of row i, group g, numbered q: its kept positions and slots, and the drops of R80 and of
positions outside the extent. -/
def Rd.maskRow (r : Rd) (d : Desc) (n m i g q : Nat) (a : RowRead) : RowRead :=
  if r.maskBad d m q then { a with metaBad := true }
  else
    ((setBits (r.mask d m q) m).zipIdx).foldl (fun a p =>
      let col := m * g + p.1
      if n ≤ p.2 then a.drop 2 1 i (some col)
      else if d.cols ≤ col ∨ d.rows ≤ i then a.drop 1 1 i (some col)
      else a.push i col (r.slot d (n * q + p.2)) ((n * q + p.2) / 32)) a

/-- The number of the mask of row i and group g (R79, R82). -/
def maskNo (tnm : Bool) (m groups i g : Nat) : Nat :=
  if tnm then (i / m * groups + g) * m + i % m else i * groups + g

/-- Row i of an NM or TNM tensor. Masks of a last band beyond `ROWS` are checked with the last row
(DEDUCED, log entry 20). -/
def Rd.nmRow (r : Rd) (d : Desc) (tnm : Bool) (n m i : Nat) : RowRead :=
  let gs := cdiv d.cols m
  let rows := if tnm && i + 1 == d.rows then List.range' i (m - i % m) else [i]
  rows.foldl (fun a i =>
    (List.range gs).foldl (fun a g => r.maskRow d n m i g (maskNo tnm m gs i g) a) a) RowRead.empty

/-- What the row check of R80 keeps of mask q: its lowest N set positions. -/
def Rd.keptBits (r : Rd) (d : Desc) (n m q : Nat) : List Nat := (setBits (r.mask d m q) m).take n

/-- Row i of the transposed view of a TNM tensor: column group i mod M of each square (R83). -/
def Rd.tnmCol (r : Rd) (d : Desc) (n m i : Nat) : RowRead :=
  let gs := cdiv d.cols m
  let p := i % m
  (List.range (cdiv d.rows m)).foldl (fun a b =>
    let t := b * gs + i / m
    let us := List.range m
    -- drops of the row and extent checks at this column; columns beyond the extent with the last one
    let a := us.foldl (fun a u =>
      let q := t * m + u
      let row := m * b + u
      let cs := if i + 1 == d.cols then List.range' p (m - p) else [p]
      if r.maskBad d m q then { a with metaBad := true }
      else cs.foldl (fun a c =>
        if !(r.mask d m q).testBit c then a
        else if !(r.keptBits d n m q).contains c then a.drop 2 1 row (some row)
        else if d.cols ≤ m * (i / m) + c ∨ d.rows ≤ row then a.drop 1 1 row (some row)
        else a) a) a
    let have_ := us.filter fun u =>
      !r.maskBad d m (t * m + u) && decide (m * b + u < d.rows) && (r.keptBits d n m (t * m + u)).contains p
    have_.zipIdx.foldl (fun a x =>
      let q := t * m + x.1
      let row := m * b + x.1
      if n ≤ x.2 then a.drop 2 1 row (some row)
      else
        let k := ((r.keptBits d n m q).filter (· < p)).length
        a.push row row (r.slot d (n * q + k)) ((n * q + k) / 32)) a) RowRead.empty

/-- Entries lo to hi − 1 of ascending signed indices, limited by a capacity: what is kept as (index,
entry) and the drops (R92, CSR and BSR). Positions are in units of `unit` columns. An entry whose index arrives
poisoned contributes nothing. -/
def Rd.indexRun (r : Rd) (d : Desc) (row bound unit : Nat) :
    Nat → Nat → Option Nat → List (Nat × Nat) × List Drop
  | 0, _, _ => ([], [])
  | n + 1, e, last =>
    let a := d.abase 1 + 4 * e
    let ix := signed (r.le a 4) 32
    if r.anyBad a 4 then r.indexRun d row bound unit n (e + 1) last
    else if ix < 0 then
      let x := r.indexRun d row bound unit n (e + 1) last
      (x.1, ⟨0, 1, row, none, some (.entry row e)⟩ :: x.2)
    else if bound ≤ ix.toNat then
      let x := r.indexRun d row bound unit n (e + 1) last
      (x.1, ⟨1, 1, row, none, some (.entry row e)⟩ :: x.2)
    else if (match last with
        | some l => decide (ix.toNat ≤ l)
        | none => false) then
      let x := r.indexRun d row bound unit n (e + 1) last
      (x.1, ⟨3, 1, row, some (unit * ix.toNat), some (.entry row e)⟩ :: x.2)
    else
      let x := r.indexRun d row bound unit n (e + 1) (some ix.toNat)
      ((ix.toNat, e) :: x.1, x.2)

/-- The index run of row (or block row) i, by the row pointers in `MD0`; `true` when a metadata word
is poisoned. -/
def Rd.ptrRun (r : Rd) (d : Desc) (i bound unit : Nat) : List (Nat × Nat) × List Drop × Bool :=
  let p := d.abase 0 + 8 * i
  let lo := r.le p 8
  let hi := r.le (p + 8) 8
  let n := min hi d.nnzCap - lo
  if r.anyBad p 16 then ([], [], true)
  else if hi < lo then ([], [⟨3, 1, i, none, some (.pointer i)⟩], false)
  else
    let x := r.indexRun d i bound unit n lo none
    let extra := hi - max lo d.nnzCap
    (x.1, x.2 ++ (if extra = 0 then [] else [⟨1, extra, i, none, some (.pointer i)⟩]),
      r.anyBad (d.abase 1 + 4 * lo) (4 * n))

/-- Row i of a CSR tensor (R85, R92). -/
def Rd.csrRow (r : Rd) (d : Desc) (i : Nat) : RowRead :=
  let x := r.ptrRun d i d.cols 1
  r.slotsRow d i x.1 ⟨[], x.2.1, [], x.2.2⟩

/-- Row i of a BSR tensor (R87, R92): every row of a block row reads its drops. -/
def Rd.bsrRow (r : Rd) (d : Desc) (b i : Nat) : RowRead :=
  let x := r.ptrRun d (i / b) (cdiv d.cols b) b
  let l := x.1.flatMap fun p => (List.range b).map fun c => (p.1 * b + c, b * b * p.2 + i % b * b + c)
  r.slotsRow d (i / b) (l.filter fun p => decide (p.1 < d.cols)) ⟨[], x.2.1, [], x.2.2⟩

/-- Row i of the transposed view of a BSR tensor. DESIGN CHOICE: a drop without a valid block column counts
with the first 128 rows of the view, in the window of its block row (log entry 130). -/
def Rd.bsrCol (r : Rd) (d : Desc) (b i : Nat) : RowRead :=
  (List.range (cdiv d.rows b)).foldl (fun a br =>
    let x := r.ptrRun d br (cdiv d.cols b) b
    let mine := x.2.1.filter fun q =>
      match q.col with
      | none => decide (i < 128)
      | some c => c / b == i / b
    let a : RowRead := { a with drops := a.drops ++ mine.map (fun q => { q with col := some (b * br) }),
                                metaBad := a.metaBad || x.2.2 }
    match x.1.find? fun p => p.1 == i / b with
    | none => a
    | some p =>
      let l := ((List.range b).map fun u => (b * br + u, b * b * p.2 + u * b + i % b)).filter
        fun q => decide (q.1 < d.rows)
      r.slotsRow d br l a) RowRead.empty

/-- The entries of a COO tensor that survive, as (row, column, entry), and the drops with their row, when
it lies within the view (R86, R92): entry e of n, after the last kept pair. An entry with two bad indices is
one drop, by its column first (DEDUCED, log entry 21). A pair that arrives poisoned contributes nothing. -/
def Rd.cooRun (r : Rd) (d : Desc) : Nat → Nat → Option (Nat × Nat) →
    List (Nat × Nat × Nat) × List (Option Nat × Drop)
  | 0, _, _ => ([], [])
  | n + 1, e, last =>
    let a := d.abase 0 + 8 * e
    let i := signed (r.le a 4) 32
    let j := signed (r.le (a + 4) 4) 32
    let row := (r.le a 4)
    let inRow : Bool := decide (0 ≤ i) && decide (i.toNat < d.rows)
    let bad (sub : Nat) (col : Option Nat) (x : List (Nat × Nat × Nat) × List (Option Nat × Drop)) :=
      (x.1, (if inRow then some i.toNat else none, ⟨sub, 1, row, col, some (.entry row e)⟩) :: x.2)
    if r.anyBad a 8 then r.cooRun d n (e + 1) last
    else if j < 0 then bad 0 none (r.cooRun d n (e + 1) last)
    else if d.cols ≤ j.toNat then bad 1 none (r.cooRun d n (e + 1) last)
    else if i < 0 then bad 0 (some j.toNat) (r.cooRun d n (e + 1) last)
    else if d.rows ≤ i.toNat then bad 1 (some j.toNat) (r.cooRun d n (e + 1) last)
    else if (match last with
        | some l => decide (i.toNat < l.1 ∨ (i.toNat = l.1 ∧ j.toNat ≤ l.2))
        | none => false) then bad 3 (some j.toNat) (r.cooRun d n (e + 1) last)
    else
      let x := r.cooRun d n (e + 1) (some (i.toNat, j.toNat))
      ((i.toNat, j.toNat, e) :: x.1, x.2)

/-- The entry count of a COO tensor: the one read at issue, where it is held (R86). -/
def Rd.cooCount (r : Rd) (d : Desc) : Nat := d.count.getD (r.le (d.abase 1) 8)

/-- The entry count of a COO tensor is poisoned. -/
def Rd.cooBad (r : Rd) (d : Desc) : Bool := d.count.isNone && r.anyBad (d.abase 1) 8

/-- A descriptor as an issue copies it: a COO tensor's entry count goes with it (R86, R98). -/
def Rd.copyDesc (r : Rd) (d : Desc) : Desc :=
  if d.cfmt = .coo ∧ r.anyBad (d.abase 1) 8 = false then { d with count := some (r.le (d.abase 1) 8) } else d

/-- Row i of a COO tensor. DESIGN CHOICE: an entry whose row index is out of range counts with the first 128
rows (log entry 130). A poisoned pair may be of any row, so that every row meets it (DEDUCED, log entry 147). -/
def Rd.cooRow (r : Rd) (d : Desc) (i : Nat) : RowRead :=
  let n := min (r.cooCount d) d.nnzCap
  if r.cooBad d then { RowRead.empty with metaBad := true }
  else
    let x := r.cooRun d n 0 none
    let here (q : Option Nat) : Bool := match q with
      | some row => row == i
      | none => decide (i < 128)
    r.slotsRow d i ((x.1.filter fun p => p.1 == i).map Prod.snd)
      ⟨[], (x.2.filter fun p => here p.1).map Prod.snd, [], r.anyBad (d.abase 0) (8 * n)⟩

/-- Row i of the view of a tensor, transposed or not (R76). OHI operands are read by the merge unit. -/
def Rd.row (r : Rd) (d : Desc) (trans : Bool) (i : Nat) : RowRead :=
  match d.cfmt with
  | .dns => r.dnsRow d trans i
  | .bmp => r.bmpRow d i
  | .nm n m => r.nmRow d false n m i
  | .tnm n m => if trans then r.tnmCol d n m i else r.nmRow d true n m i
  | .csr => r.csrRow d i
  | .coo => r.cooRow d i
  | .bsr b => if trans then r.bsrCol d b i else r.bsrRow d b i
  | .ohi => RowRead.empty

/-- What of a row lies in window w: values, drops and reserved codes by column. -/
def RowRead.window (a : RowRead) (w : Nat) : RowRead :=
  { ents := a.ents.filter fun e => e.k / 128 == w,
    drops := a.drops.filter fun q => match q.col with
      | some c => c / 128 == w
      | none => false,
    rsv := a.rsv.filter fun c => c / 128 == w,
    metaBad := a.metaBad }

/-- The drops of a row that no window holds. -/
def RowRead.placeless (a : RowRead) : List Drop := a.drops.filter fun q => q.col.isNone

/-- The index of row i of an OHI tensor (R88). -/
def Rd.ohi (r : Rd) (d : Desc) (i : Nat) : Int := signed (r.le (d.abase 0 + 4 * i) 4) 32

/-- A DNS element as an exact value with its poison. -/
def Rd.value (r : Rd) (d : Desc) (ix : List Nat) : Num × Bool :=
  let x := r.elem d ix
  (x.e.num d.fmt, x.e.poison)

end Sys2Proof.Machine
end

