-- ==== Sys2Proof/Machine/Store.lean ====
section
/-! DEFINITION. Writes to memory with everything they carry along (R106, R249, R252 to R255, R264),
allocations (R247, R248) and the creation of descriptors (R97 to R126). -/

namespace Sys2Proof.Machine

open Sys2Proof

/-! ### Far-memory channels (R257) -/

/-- The module channel of a far-memory address. -/
def chanOf (a : Nat) : Nat := a / 256 % 192

/-- The channel-local data row. -/
def rowOf (a : Nat) : Nat := (a / 256 / 192 * 256 + a % 256) / 2048

/-- The edge die that drives a channel (R256). -/
def edgeOfChan (ch : Nat) : Nat := ch / 96

/-- The 32-byte bursts of a data row, by module address. -/
def burstsOfRow (ch row : Nat) : List Nat :=
  (List.range 64).map fun i => ((row * 8 + i / 8) * 192 + ch) * 256 + i % 8 * 32

/-! ### Allocations -/

/-- The live allocation that holds an address. -/
def State.allocAt (s : State) (a : Nat) : Option (Nat × Alloc) :=
  s.allocs.findSome? fun e =>
    match e.2 with
    | some x => if x.base ≤ a ∧ a < x.base + x.size then some (e.1, x) else none
    | none => none

/-- A range lies wholly within one live allocation. -/
def State.inAlloc (s : State) (a n : Nat) : Option (Nat × Alloc) :=
  match s.allocAt a with
  | some (i, x) => if a + n ≤ x.base + x.size then some (i, x) else none
  | none => none

/-- Bytes of shared cache by size code (R253). -/
def cacheBytes (code : Nat) : Nat := if code = 0 then 0 else 0x04000000 * 2 ^ (code - 1)

/-- Two ranges share a byte. -/
def overlap (a n b m : Nat) : Bool := decide (0 < n ∧ 0 < m ∧ a < b + m ∧ b < a + n)

/-- The three far-memory regions of the configuration in force (R246): base and size. -/
def State.farRegions (s : State) : List (Nat × Nat) :=
  [(s.reg48 Reg.GLB_MIRROR_BASE_LO Reg.GLB_MIRROR_BASE_HI,
      s.reg48 Reg.GLB_MIRROR_SIZE_LO Reg.GLB_MIRROR_SIZE_HI),
   (s.reg48 Reg.GLB_DUMP_BASE_LO Reg.GLB_DUMP_BASE_HI,
      s.reg48 Reg.GLB_DUMP_SIZE_LO Reg.GLB_DUMP_SIZE_HI),
   (s.reg48 Reg.GLB_SPARE_BASE_LO Reg.GLB_SPARE_BASE_HI, (s.reg Reg.GLB_SPARE_SIZE).toNat)]

/-- A range lies in allocatable memory of its level (R245). -/
def State.allocatable (s : State) (near : Bool) (die a n : Nat) : Bool :=
  if near then
    decide (die < 6) && decide (nearBase die + 0x01000000 ≤ a) &&
      decide (a + n ≤ nearBase die + 0x80000000 - cacheBytes (s.regF (Reg.NMEM_CFG die) 3 0))
  else decide (a + n ≤ farSize) && s.farRegions.all fun r => !overlap a n r.1 r.2

/-- The fields of a 32-byte allocation entry (R247): `ALLOC_ID` and the allocation; `none` when the
level is neither 0 nor 1. -/
def parseAlloc (v : Nat) (byImage : Bool) : Option (Nat × Alloc) :=
  let lvl := fld v 23 16
  if 1 < lvl then none
  else some (fld v 15 0,
    { near := lvl == 1, die := fld v 31 24, cache := bit v 32, mirror := bit v 33, zero := bit v 34,
      base := fld v 111 64, size := fld v 175 128, mirrorOff := fld v 223 176,
      byImage := byImage })

/-! ### Writes -/

/-- Memory as a source of bytes. -/
def State.rd (s : State) : Rd :=
  { byte := Memory.byte s.mem, bad := fun a => s.poison.contains (poisonUnit a) }

/-- Poison marks after a write of n bytes at a: poisoned data marks every unit it touches; clean data
clears the units it covers whole, and a unit it covers in part keeps its mark (R106, R252, R264). -/
def poisonAfter (p : List Nat) (a n : Nat) (bad : Bool) : List Nat :=
  if bad then (unitsOf a n).foldl insertSorted p
  else p.filter fun u => !(decide (a ≤ u) && decide (u + unitSize u ≤ a + n))

/-- Bytes of one list replaced by those of a write at `a`; the list lies at `base`. -/
def overlay (base : Nat) (old : List Byte) (a : Nat) (new : List Byte) : List Byte :=
  old.zipIdx.map fun p =>
    if a ≤ base + p.2 ∧ base + p.2 < a + new.length then new.getD (base + p.2 - a) p.1 else p.1

/-- The cache of one die after a write to far memory (R254, R255): the writer's own die updates a
present line, every other die invalidates it and counts it. -/
def State.snoop (s : State) (d : Nat) (own : Bool) (a : Nat) (bytes : List Byte) : State :=
  let t := s.die d
  let hit (e : Nat × Option CacheLine) : Bool := match e.2 with
    | some l => overlap (256 * l.line) 256 a bytes.length
    | none => false
  let n := (t.cache.filter hit).length
  if n = 0 then s
  else if own then
    let upd (l : CacheLine) := { l with bytes := overlay (256 * l.line) l.bytes a bytes }
    s.setDie d { t with cache := t.cache.map fun e => if hit e then (e.1, e.2.map upd) else e }
  else
    (((s.setDie d { t with cache := t.cache.filter fun e => !hit e }).inc
      (Reg.NMEM_INVAL_CNT d) n).count (54 + d) 0x203 0 n)

/-- Memory accesses counted by the islands that serve them (R476): 64-byte units of near memory, bursts
of far memory by channel. -/
def State.countAccess (s : State) (write : Bool) (a n : Nat) : State :=
  if a < farSize then
    (unitsOf a n).foldl (fun s u =>
      s.count (60 + edgeOfChan (chanOf u)) (if write then 0x281 else 0x280) (chanOf u % 96) 1) s
  else
    s.count (54 + (a - 0x100000000000) / 0x100000000) (if write then 0x1C1 else 0x1C0) 0
      (unitsOf a n).length

/-- An uncorrectable burst is described (R276): kind 0 double-bit, 1 address, 2 poison pattern. -/
def State.noteBurst (s : State) (a kind : Nat) : State :=
  let ch := chanOf a
  let e := edgeOfChan ch
  let s := s.setReg (Reg.FMEM_ERR_LAST_LO e) (BitVec.ofNat 32 a)
  let s := s.setReg (Reg.FMEM_ERR_LAST_HI e)
    (BitVec.ofNat 32 (2 ^ 31 + ch % 96 * 2 ^ 24 + kind * 2 ^ 16 + a / 2 ^ 32))
  (s.inc (Reg.FMEM_UE_CNT e) 1).count (60 + e) 0x283 (ch % 96) 1

/-- A unit of memory is read (R252, R264): it is counted, and delivered with poison when it is marked so,
which the die or the edge die counts (R273, R275, R276). -/
def State.readUnit (s : State) (u : Nat) : State :=
  let s := s.countAccess false u 1
  if !s.poison.contains u then s
  else if u < farSize then s.noteBurst u 2
  else s.inc (Reg.NMEM_UE_CNT ((u - 0x100000000000) / 0x100000000)) 1

/-- The units of a range are read. -/
def State.readRange (s : State) (a n : Nat) : State := (unitsOf a n).foldl State.readUnit s

/-- The units of several ranges are read. -/
def State.readRanges (s : State) (l : List (Nat × Nat)) : State := l.foldl (fun s r => s.readRange r.1 r.2) s

/-- A far-memory channel's requests are served: it is trained, its PHY island is out of reset and it is in
no power state that stops its clock (R262, R457). -/
def State.chanServes (s : State) (ch : Nat) : Bool :=
  decide (s.regF (Reg.FMEM_CHAN_STAT (ch / 96) (ch % 96)) 31 30 = 2) && (s.island (80 + ch)).ready &&
    decide (SMap.get (fun _ => 0) s.pwrStates ch = 0)

/-- A channel takes a further request at once: it serves, and holds none that came before (R262, R269); or it has
failed for good. -/
def State.chanReady (s : State) (ch : Nat) : Bool :=
  (s.chanServes ch && (s.chan ch).queue.isEmpty) ||
    decide (s.regF (Reg.FMEM_CHAN_STAT (ch / 96) (ch % 96)) 31 30 = 3)

/-- The die NoC of a compute die is out of reset, and in no power state that stops its clock (R27, R457,
R470). -/
def State.nocRuns (s : State) (d : Nat) : Bool := (s.island (54 + d)).ready && s.clockRuns (54 + d)

/-- The update and collective engines of an edge-die half run: their island is out of reset, and they are in no power
state (R27, R457, R459). -/
def State.engineRuns (s : State) (h : Nat) : Bool :=
  (s.island (60 + h / 2)).ready && decide (SMap.get (fun _ => 0) s.pwrStates (192 + h) = 0)

/-- Every channel of a range of far memory takes its requests; near memory takes them while its die's NoC runs
(R262, R459). -/
def State.memReady (s : State) (a n : Nat) : Bool :=
  if a < farSize then
    (List.range (min 192 (n / 256 + 2))).all fun i =>
      s.chanReady ((a / 256 + i) % 192) || decide (a + n ≤ (a / 256 + i) * 256)
  else
    let d := (a - 0x100000000000) / 0x100000000
    s.nocRuns d && (s.die d).held.isEmpty

/-- A write into a `MIRROR` allocation by another agent than an update engine is counted, once for
each burst (R249, R275). -/
def State.countBypass (s : State) (w : Writer) (a n : Nat) : State :=
  if w = .engine ∨ farSize ≤ a then s
  else match s.allocAt a with
    | some (_, x) =>
      if x.mirror then
        (unitsOf a n).foldl (fun s u => s.inc (Reg.FMEM_MIRROR_BYPASS_CNT (edgeOfChan (chanOf u))) 1) s
      else s
    | none => s

/-- A write of bytes to memory: the bytes, their poison, the caches, the counters. -/
def State.put (s : State) (w : Writer) (a : Nat) (bytes : List Byte) (bad : Bool) : State :=
  if bytes.isEmpty then s
  else
    let s := { s with mem := Memory.write s.mem a bytes,
                      poison := poisonAfter s.poison a bytes.length bad }
    let s := (s.countAccess true a bytes.length).countBypass w a bytes.length
    if a < farSize then
      (List.range 6).foldl (fun s d => s.snoop d (w == .die d) a bytes) s
    else s

/-- Bits [lo + w − 1 : lo] of the byte at an address written, the others kept (R106). -/
def State.putBits (s : State) (w : Writer) (a lo width v : Nat) (bad : Bool) : State :=
  s.put w a [BitVec.ofNat 8 (setFld (Memory.byte s.mem a).toNat (lo + width - 1) lo v)] bad

/-- An element code written at its place (R100). -/
def State.putCode (s : State) (wr : Writer) (base : Nat) (e : Int) (w code : Nat) (bad : Bool) : State :=
  let a := codeByte base e w
  if w < 8 then s.putBits wr a ((e * w).fmod 8).toNat w code bad
  else s.put wr a (leBytes (w / 8) code) bad

/-! ### Descriptors (R97 to R126) -/

/-- A refusal of creation: code, check, index (R103). -/
abbrev DescErr := Nat × Nat × Nat

/-- The raw descriptor: 256 bytes as a number. Byte range [hi:lo]. -/
def db (v hi lo : Nat) : Nat := fld v (8 * hi + 7) (8 * lo)

/-- The dimension entry d with its shard entry. -/
def rawDim (v d : Nat) : DimE :=
  { ext := db v (32 + 16 * d + 3) (32 + 16 * d),
    stride := signed (db v (32 + 16 * d + 9) (32 + 16 * d + 4)) 48,
    gext := db v (192 + 8 * d + 3) (192 + 8 * d),
    ways := db v (192 + 8 * d + 5) (192 + 8 * d + 4),
    sidx := db v (192 + 8 * d + 7) (192 + 8 * d + 6) }

/-- The fields of a descriptor whose codes are defined; check `FIELDS` refuses the others. The element
format of an OHI tensor is ignored (R88). -/
def parseDesc (v : Nat) : Option Desc :=
  match CFmt.ofByte (db v 3 3), Layout.ofByte (db v 4 4) with
  | some cf, some ly =>
    let ohi := cf == .ohi
    match if ohi then some .int32 else ElemFmt.ofCode (fld (db v 2 2) 3 0) with
    | some f =>
      some
        { fmt := f, blocked := !ohi && bit (db v 2 2) 4,
          rd := bit (db v 2 2) 5, wr := bit (db v 2 2) 6,
          cfmt := cf, layout := ly, blockAxis := fld (db v 5 5) 2 0, colAxis := fld (db v 5 5) 6 4,
          allocId := BitVec.ofNat 16 (db v 7 6), base := db v 13 8, nnzCap := db v 21 16,
          dims := (List.range (db v 1 1)).map (rawDim v),
          arrays := (List.range 4).map fun a =>
            (db v (128 + 16 * a + 5) (128 + 16 * a), db v (128 + 16 * a + 13) (128 + 16 * a + 8)),
          group := BitVec.ofNat 16 (db v 241 240), count := none }
    | none => none
  | _, _ => none

/-- `BLOCKED` contradicts R46. -/
def blockedWrong (f : ElemFmt) (blocked : Bool) : Bool :=
  if f.narrow then !blocked else if f.fp8 then false else blocked

/-- Check `FIELDS` (R103), up to the layout tag, which check `LAYOUT` refuses. -/
def checkFields (v : Nat) : Option DescErr :=
  let cf := CFmt.ofByte (db v 3 3)
  let ohi := cf == some .ohi
  let nd := db v 1 1
  let f := ElemFmt.ofCode (fld (db v 2 2) 3 0)
  let fmtBad : Bool := !ohi &&
    match f with
    | none => true
    | some f => blockedWrong f (bit (db v 2 2) 4)
  if db v 0 0 ≠ 1 ∨ nd = 0 ∨ 6 < nd ∨ cf = none ∨ fmtBad ∨ fld (db v 2 2) 6 5 = 0 ∨
      nd ≤ fld (db v 5 5) 6 4 ∨
      (cf = some .dns ∧ bit (db v 2 2) 4 ∧ nd ≤ fld (db v 5 5) 2 0) then some (4, 1, 0xFF)
  else none

/-- The first index of a list of flags that holds. -/
def firstTrue (l : List Bool) : Option Nat := l.findIdx? id

/-- Check `LAYOUT` (R101, R111, R112). -/
def checkLayout (v : Nat) (nd : Nat) : Option DescErr :=
  match Layout.ofByte (db v 4 4), CFmt.ofByte (db v 3 3) with
  | some ly, some cf =>
    if ly ≠ .lin ∧ (cf ≠ .dns ∨ nd ≠ 2 ∨ fld (db v 5 5) 2 0 ≠ 1) then some (4, 2, 0xFF)
    else if cf ≠ .dns ∨ ly ≠ .lin then
      (firstTrue ((List.range nd).map fun d => decide ((rawDim v d).stride ≠ 0 ∧
          (rawDim v d).ext ≠ 1))).map fun i => (4, 2, i)
    else none
  | _, _ => some (4, 2, 0xFF)

/-- The shard length of R120. -/
def shardLen (x : DimE) : Nat := cdiv x.gext x.ways

/-- Check `SHARD_SHAPE` (R124), on dimensions with nonzero `SHARD_WAYS`. DESIGN CHOICE: every sharded
dimension of a TNM tensor counts as a matrix axis, the outer ones that R110 flattens too (log entry 125). -/
def checkShape (d : Desc) : Option DescErr :=
  (firstTrue (d.dims.zipIdx.map fun p =>
    decide (1 < p.1.ways) &&
      ((match d.cfmt with
        | .tnm _ m => decide (shardLen p.1 % m ≠ 0)
        | _ => false) ||
       (d.cfmt == .dns && d.blocked && p.2 == d.blockAxis && decide (shardLen p.1 % 32 ≠ 0))))).map
    fun i => (4, 3, i)

/-- The arrays that a format uses (R72, R99), by number. DESIGN CHOICE: a `SPILL` array of capacity 0 is no spill
area, so that it is not used and its base is not checked (log entry 150). -/
def Desc.usedArrays (d : Desc) : List Nat :=
  (match d.cfmt with
   | .dns => []
   | .nm _ _ | .tnm _ _ | .ohi => [0]
   | _ => [0, 1]) ++ (if d.scaled then [2] else []) ++ (if d.hasSpill then [3] else [])

/-- The access width at the descriptor's base (R104). -/
def Desc.accessWidth (d : Desc) : Nat := unitSize d.base

/-- The unit dimension (R104): the highest-numbered one of stride +1 and extent above 1. -/
def Desc.unitDim (d : Desc) : Option Nat :=
  ((d.dims.zipIdx.filter fun p => decide (p.1.stride = 1 ∧ 1 < p.1.ext)).map Prod.snd).getLast?

/-- Check `ALIGN` (R104): the base, then the arrays, then the dimensions. DESIGN CHOICE: of several parts that break
one check the first in this order is reported (log entry 151). -/
def checkAlign (d : Desc) : Option DescErr :=
  let w := d.accessWidth
  if d.base % w ≠ 0 then some (2, 4, 4)
  else match d.usedArrays.find? fun a => decide (d.abase a % w ≠ 0) with
    | some a => some (2, 4, a)
    | none =>
      if d.cfmt = .dns ∧ d.layout = .lin then
        (firstTrue (d.dims.zipIdx.map fun p =>
          decide (1 < p.1.ext) && d.unitDim != some p.2 &&
            decide (p.1.stride.natAbs * d.fmt.width % (8 * w) ≠ 0))).map fun i => (2, 4, i)
      else none

/-- Check `EXTENT` (R120, R122). -/
def checkExtent (d : Desc) : Option DescErr :=
  (firstTrue (d.dims.map fun x =>
    decide (x.ways = 0) || decide (x.ways ≤ x.sidx) ||
    decide (x.ext ≠ min (shardLen x) (x.gext - x.sidx * shardLen x)) ||
    (d.group == 0xFFFF && decide (x.ways ≠ 1 ∨ x.sidx ≠ 0 ∨ x.gext ≠ x.ext)))).map fun i => (1, 5, i)

/-- Scale bytes of a tensor (R48, R71, R72). -/
def Desc.sclBytes (d : Desc) : Nat :=
  if d.cfmt = .dns then
    (if d.layout = .lin then prodL (d.exts.set d.blockAxis (cdiv (at0 d.exts d.blockAxis) 32))
     else cdiv d.tagSize 32)
  else cdiv d.slots 32

/-- Bytes that R72 requires of an array. -/
def Desc.arrayNeed (d : Desc) (a : Nat) : Nat :=
  if a = 2 then d.sclBytes
  else match d.cfmt, a with
    | .bmp, 0 => d.rows * cdiv d.cols 64 * 8
    | .bmp, 1 => (d.rows + 1) * 8
    | .nm _ m, 0 => cdiv (d.rows * cdiv d.cols m * m) 8
    | .tnm _ m, 0 => cdiv (cdiv d.rows m * cdiv d.cols m * m * m) 8
    | .csr, 0 => (d.rows + 1) * 8
    | .csr, 1 => d.nnzCap * 4
    | .coo, 0 => d.nnzCap * 8
    | .coo, 1 => 8
    | .bsr b, 0 => (cdiv d.rows b + 1) * 8
    | .bsr _, 1 => d.nnzCap * 4
    | .ohi, 0 => d.rows * 4
    | _, _ => 0

/-- Check `ARRAY_CAP` (R72, R103). -/
def checkCap (d : Desc) : Option DescErr :=
  (d.usedArrays.find? fun a =>
    if a = 3 then decide (d.acap 3 < 64) else decide (d.acap a < d.arrayNeed a)).map fun a => (1, 6, a)

/-- The reach of a part: first byte and length, rounded out to access units; a part that addresses
no byte has length 0; `none` when a result leaves 48 bits (R105). -/
def Desc.valueReach (d : Desc) : Option (Nat × Nat) :=
  let w := d.fmt.width
  let a := d.accessWidth
  let span (lo hi : Int) : Option (Nat × Nat) :=
    let first := ((d.base : Int) + (lo * w).fdiv 8)
    let last := ((d.base : Int) + (hi * w + w - 1).fdiv 8 + 1)
    if first < 0 ∨ 2 ^ 48 < last then none
    else
      let f := first.toNat / a * a
      some (f, cdiv last.toNat a * a - f)
  if d.cfmt = .ohi then some (d.base, 0)
  else if d.cfmt ≠ .dns then
    (if d.slots = 0 then some (d.base, 0) else span 0 ((d.slots : Int) - 1))
  else if d.exts.any (· == 0) then some (d.base, 0)
  else if d.layout ≠ .lin then span 0 ((d.tagSize : Int) - 1)
  else
    let t := d.dims.map fun x => ((x.ext : Int) - 1) * x.stride
    span ((t.filter (· < 0)).foldl (· + ·) 0) ((t.filter (0 < ·)).foldl (· + ·) 0)

/-- The reach of array a. -/
def Desc.arrayReach (d : Desc) (a : Nat) : Option (Nat × Nat) :=
  let u := d.accessWidth
  if d.acap a = 0 then some (d.abase a, 0)
  else if 2 ^ 48 < d.abase a + d.acap a then none
  else
    let f := d.abase a / u * u
    some (f, cdiv (d.abase a + d.acap a) u * u - f)

/-- Every part of the reach, with its index: the used arrays, then the value array. DESIGN CHOICE: in this order a
check of several parts reports the first (log entry 151). -/
def Desc.parts (d : Desc) : List (Nat × Option (Nat × Nat)) :=
  (d.usedArrays.map fun a => (a, d.arrayReach a)) ++ [(4, d.valueReach)]

/-- The byte ranges a descriptor reaches. -/
def Desc.reach (d : Desc) : List (Nat × Nat) := d.parts.filterMap Prod.snd

/-- Two reaches share a byte. -/
def reachOverlap (a b : List (Nat × Nat)) : Bool :=
  a.any fun x => b.any fun y => overlap x.1 x.2 y.1 y.2

/-- The descriptors copied by macro-operations that run, on cores or predictor engines (R98). -/
def State.copies (s : State) : List Desc :=
  (s.cores.flatMap fun e => (e.2.cur.toList ++ e.2.prev.toList).flatMap fun m => m.descs.map Prod.snd) ++
    s.dies.flatMap fun e =>
      (e.2.predQ ++ (e.2.pred.map PredRun.req).toList).flatMap fun q => q.descs.map Prod.snd

/-- A macro-operation that runs holds a descriptor of an allocation. -/
def State.holds (s : State) (id : Nat) : Bool := s.copies.any fun d => d.allocId.toNat == id

/-- Freed memory that may not be used again yet (R98): a descriptor that reaches it is still held. -/
def State.stillHeld (s : State) (r : Nat × Nat) : Bool :=
  s.copies.any fun d => reachOverlap d.reach [r]

/-- An allocation is freed; while a macro-operation holds a descriptor of it, its range stays unused. -/
def State.freeAlloc (s : State) (id : Nat) : State :=
  match s.alloc id with
  | none => s
  | some x =>
    let s' := s.setAlloc id none
    if s.holds id then { s' with freed := (x.base, x.size) :: s'.freed.filter s.stillHeld } else s'

/-- An allocation may be created (R248); its range is none of those that R98 keeps from use. -/
def State.allocOk (s : State) (id : Nat) (x : Alloc) : Bool :=
  decide (id ≠ 0xFFFF) && (s.alloc id).isNone &&
  decide (x.base % 4096 = 0 ∧ x.size % 4096 = 0 ∧ x.size ≠ 0) &&
  s.allocatable x.near x.die x.base x.size &&
  (s.allocs.all fun e => match e.2 with
    | some y => !overlap x.base x.size y.base y.size
    | none => true) &&
  (!s.freed.any fun r => overlap x.base x.size r.1 r.2 && s.stillHeld r) &&
  (!x.near || (!x.cache && !x.mirror)) &&
  (!x.mirror ||
    (decide (x.mirrorOff % 4096 = 0) &&
     decide (x.mirrorOff + x.size ≤ s.reg48 Reg.GLB_MIRROR_SIZE_LO Reg.GLB_MIRROR_SIZE_HI) &&
     s.allocs.all fun e => match e.2 with
       | some y => !y.mirror || !overlap x.mirrorOff x.size y.mirrorOff y.size
       | none => true))

/-- Check `REACH` (R105): every part lies in the descriptor's allocation. -/
def State.checkReach (s : State) (d : Desc) : Option DescErr :=
  (d.parts.find? fun p => match p.2 with
    | none => true
    | some (_, 0) => false
    | some (a, n) =>
      match s.alloc d.allocId.toNat with
      | some x => !(decide (x.base ≤ a) && decide (a + n ≤ x.base + x.size))
      | none => true).map fun p => (1, 7, p.1)

/-- Check `GROUP` (R123): the group exists among those given, with the tensor's member count and this
module's rank. R121 speaks of replicated tensors of any group; DESIGN CHOICE: R123 holds for them too, so
that their group has one member (log entry 126); this module's rank is that of the list's record at `POS`, and 0
beyond the list (log entry 152). -/
def checkGroup (groups : List ShardGroup) (d : Desc) : Option DescErr :=
  if d.group = 0xFFFF then none
  else
    let ways := d.dims.map DimE.ways
    match groups.find? fun g => g.group == d.group.toNat with
    | none => some (1, 8, 0xFF)
    | some g =>
      if g.w = prodL ways ∧
          (g.members.getD g.pos (0, 0)).2 = flat ways (d.dims.map DimE.sidx) then none
      else some (1, 8, 0xFF)

/-- The injectivity check of R108 over (dimension, |stride|, extent) sorted by stride. -/
def aliasRun : List (Nat × Nat × Nat) → Nat → Option Nat
  | [], _ => none
  | (d, st, e) :: l, span => if st ≤ span then some d else aliasRun l (span + (e - 1) * st)

/-- Insertion by stride, ties by dimension. -/
def insertStride (x : Nat × Nat × Nat) : List (Nat × Nat × Nat) → List (Nat × Nat × Nat)
  | [] => [x]
  | y :: l => if x.2.1 < y.2.1 then x :: y :: l else y :: insertStride x l

/-- The later array of the first overlapping pair (R109). -/
def arrayAlias (parts : List (Nat × Option (Nat × Nat))) : Option Nat :=
  (parts.zipIdx.find? fun p =>
    (parts.take p.2).any fun q => match p.1.2, q.2 with
      | some x, some y => overlap x.1 x.2 y.1 y.2
      | _, _ => false).map fun p => p.1.1

/-- The ranges of R109 as declared: base and capacity, the value array by its slots. -/
def Desc.rawParts (d : Desc) : List (Nat × Option (Nat × Nat)) :=
  (d.usedArrays.map fun a => (a, some (d.abase a, d.acap a))) ++
    [(4, some (d.base, cdiv (d.slots * d.fmt.width) 8))]

/-- Check `ALIAS` (R108, R109). -/
def checkAlias (d : Desc) : Option DescErr :=
  if !d.wr then none
  else if d.cfmt = .dns then
    (if d.layout = .lin then
      (aliasRun ((d.dims.zipIdx.filter fun p => decide (1 < p.1.ext)).foldl
        (fun l p => insertStride (p.2, p.1.stride.natAbs, p.1.ext) l) []) 0).map fun i => (3, 9, i)
     else none)
  else (arrayAlias d.rawParts).map fun i => (3, 9, i)

/-- The checks of R103 in order, for a handle and 256 bytes as a number: the descriptor, or the first
failure. -/
def State.checkDesc (s : State) (groups : List ShardGroup) (h v : Nat) : Except DescErr Desc :=
  if h = 0xFFFF then .error (1, 0, 0xFF)
  else match checkFields v with
    | some e => .error e
    | none => match checkLayout v (db v 1 1) with
      | some e => .error e
      | none => match parseDesc v with
        | none => .error (4, 1, 0xFF)
        | some d =>
          match checkShape d <|> checkAlign d <|> checkExtent d <|> checkCap d <|> s.checkReach d <|>
              checkGroup groups d <|> checkAlias d with
          | some e => .error e
          | none => .ok d

/-- The result word of R103. -/
def descWord (e : DescErr) (h : Nat) : Nat :=
  e.1 * 2 ^ 28 + e.2.1 * 2 ^ 24 + e.2.2 * 2 ^ 16 + h

/-- A creation: on success the table takes the descriptor; on failure `GLB_DESC_LAST_ERR` and
`GLB_DESC_ERR_CNT` change together (R97, R103, R125, R126). Answers the error, if any. -/
def State.createDesc (s : State) (groups : List ShardGroup) (byLoader : Bool) (h v : Nat) :
    State × Option DescErr :=
  match s.checkDesc groups h v with
  | .ok d => (s.setDesc h (some ⟨byLoader, d⟩), none)
  | .error e =>
    ((s.setReg Reg.GLB_DESC_LAST_ERR (BitVec.ofNat 32 (descWord e h))).inc Reg.GLB_DESC_ERR_CNT 1,
     some e)

end Sys2Proof.Machine
end

