-- ==== Sys2Proof/Machine/Islands.lean ====
section
/-! DEFINITION. Islands: crossings, reset and resynchronization (R26 to R28), clocks and power
states of stage cores (R25, R38, R446, R458), the die bridges (R15 to R17) and the paths over them (R18). -/

namespace Sys2Proof.Machine

open Sys2Proof

/-! ### Bridges and paths (R15, R18) -/

/-- The row and column bridges between compute dies, 6 to 12 (R15). -/
def dieBridges : List (Nat × Nat) := [(0, 1), (1, 2), (3, 4), (4, 5), (0, 3), (1, 4), (2, 5)]

/-- The dies of a bridge as die numbers 0 to 5, and 6 and 7 for the edge dies, first named first (R15). -/
def bridgeDies (b : Nat) : Nat × Nat :=
  if b < 3 then (6, b)
  else if b < 6 then (7, b)
  else dieBridges.getD (b - 6) (0, 0)

/-- The direction, as entry 2 × bridge + direction, that carries traffic from one die to another; none
between dies that no bridge joins. -/
def bridgeDir (a b : Nat) : Option Nat :=
  (List.range 26).find? fun k =>
    let d := bridgeDies (k / 2)
    if k % 2 = 0 then d.1 == a && d.2 == b else d.1 == b && d.2 == a

/-- The dies that a bridge joins to a die, in the order in which R18 ranks them: compute dies by number,
then edge dies. -/
def bridgedDies (a : Nat) : List Nat := (List.range 8).filter fun b => (bridgeDir a b).isSome

/-- The first path of exactly n hops between two dies, compared hop by hop from the source (R18). -/
def pathOf : Nat → Nat → Nat → Option (List Nat)
  | 0, a, b => if a = b then some [a] else none
  | n + 1, a, b => ((bridgedDies a).findSome? fun x => pathOf n x b).map (a :: ·)

/-- The dies on the path of R18, both ends among them: a shortest one, and of several the first. -/
def diePath (a b : Nat) : List Nat := ((List.range 8).findSome? fun n => pathOf n a b).getD []

/-- The bridge directions that a path takes. -/
def pathDirs : List Nat → List Nat
  | a :: b :: l => (bridgeDir a b).toList ++ pathDirs (b :: l)
  | _ => []

/-! ### Crossings -/

/-- The islands, by index, that an island has crossings with (R15, R24): 80 to 271 are the memory PHYs of
channels 0 to 191, 272 to 351 the lane receivers 5p + j of ports p. -/
def neighbours (i : Nat) : List Nat :=
  if i < 54 then [54 + i / 9]
  else if i < 60 then
    let d := i - 54
    ((List.range 9).map (9 * d + ·)) ++ (bridgedDies d).map (54 + ·)
  else if i < 62 then
    let e := i - 60
    ((List.range 3).map (54 + 3 * e + ·)) ++ [78 + e] ++ ((List.range 96).map (80 + 96 * e + ·)) ++
      ((List.range 40).map (272 + 40 * e + ·))
  else if i < 78 then [60 + (i - 62) / 8]
  else if i < 80 then [60 + (i - 78)]
  else if i < 272 then [60 + (i - 80) / 96]
  else [60 + (i - 272) / 40]

/-- The island status register of an island that has one. -/
def islandStat (i : Nat) : Option Nat := if i < 62 then some (blockStat i) else none

/-- Every crossing of an island has completed R27: it and every island beside it are out of reset. -/
def State.xingReady (s : State) (i : Nat) : Bool :=
  (s.island i).ready && (neighbours i).all fun j => (s.island j).ready

/-- The crossings on the path between two dies are ready, both dies out of reset (R18, R27). -/
def State.dieRoute (s : State) (a b : Nat) : Bool :=
  (diePath a b).all fun d => (s.island (54 + d)).ready

/-- The die in which the step controller runs (R23). -/
def State.ctlDie (s : State) : Nat := s.ctlIsl - 54

/-- The crossings between the step controller and a stage core are ready. -/
def State.corePath (s : State) (c : Nat) : Bool :=
  (s.island c).ready && s.dieRoute s.ctlDie (c / 9)

/-- The crossings between the step controller and another island that keeps a step number are ready. -/
def State.islandPath (s : State) (i : Nat) : Bool :=
  (s.island i).ready &&
    s.dieRoute s.ctlDie (if i < 62 then i - 54 else if i < 78 then 6 + (i - 62) / 8 else 6 + (i - 78))

/-- The crossings between the step controller and a block of event counters are ready (R479). -/
def State.blockPath (s : State) (b : Nat) : Bool := if b < 54 then s.corePath b else s.islandPath b

/-- The die that serves an address (R244, R257): a compute die's near memory, or the edge die of its channel. -/
def dieOf (a : Nat) : Nat :=
  if a < farSize then 6 + edgeOfChan (chanOf a) else (a - 0x100000000000) / 0x100000000

/-- The dies that serve a range: both edge dies may, as far memory interleaves over every channel (R257). -/
def diesOf (a n : Nat) : List Nat :=
  if a < farSize then
    ((List.range (min 192 (cdiv (a % 256 + n) 256))).map fun i => dieOf (a + 256 * i)).eraseDups
  else [dieOf a]

/-- A range of memory can be reached from a die now: the crossings on the paths of R18 to the dies that serve it
are ready, and its channels serve (R27, R262). A request that cannot is held. -/
def State.memPath (s : State) (die a n : Nat) : Bool :=
  (diesOf a n).all (s.dieRoute die) && s.memReady a n

/-- Words move from the crossing into `CMDQ` while it has room (R144, R145). -/
def CoreSt.pull (k : CoreSt) : CoreSt :=
  let n := 64 - k.cmdq.length
  { k with cmdq := k.cmdq ++ k.xin.take n, xin := k.xin.drop n }

/-- Words whose packet has not ended (R28). -/
def partialTail (l : List CmdWord) : List CmdWord := (l.reverse.takeWhile fun w => !w.last).reverse

/-! ### Control words (R191) -/

def wStepBegin (k : Nat) : CmdWord := ⟨BitVec.ofNat 128 (0x01 + k % 2 ^ 32 * 2 ^ 32), true⟩

def wMbBegin (phase : Nat) (replay : Bool) (mb : Nat) : CmdWord :=
  ⟨BitVec.ofNat 128 (0x02 + phase % 4 * 2 ^ 8 + replay.toNat * 2 ^ 12 + mb % 2 ^ 32 * 2 ^ 32), true⟩

def wStageBind (stage base nf nb ne : Nat) : CmdWord :=
  ⟨BitVec.ofNat 128 (0x03 + stage % 2 ^ 16 * 2 ^ 16 + base % 2 ^ 48 * 2 ^ 32 + nf % 2 ^ 16 * 2 ^ 80 +
    nb % 2 ^ 16 * 2 ^ 96 + ne % 2 ^ 16 * 2 ^ 112), true⟩

def wStageUnbind : CmdWord := ⟨0x04#128, true⟩

/-- The words that go ahead of what waits for a stage core that leaves off: its stage binding and the
current step (R458). -/
def State.rebind (s : State) (c : Nat) : List CmdWord :=
  match s.prog with
  | none => []
  | some p =>
    match p.stages.findIdx? fun st => st.core.val == c with
    | none => []
    | some n =>
      match p.stages[n]? with
      | some st => [wStageBind n st.base st.nfwd st.nbwd st.neval, wStepBegin s.ctl.begun]
      | none => []

/-! ### Clocks -/

/-- `PWR_FMAX` as it acts (R463). -/
def State.fmax (s : State) : Nat := max 0x14 (min 0x48 (s.regF Reg.PWR_FMAX 7 0))

/-- The clock that R450 gives a stage core, in 50 MHz units. -/
def State.coreClock (s : State) (c : Nat) : Nat :=
  min s.fmax (min (s.regF Reg.PWR_STAT 23 16) (s.core c).thermClk)

/-- `PSTATE` of a stage core. -/
def State.pstate (s : State) (c : Nat) : Nat := s.regF (Reg.CORE_ISLAND_STAT c) 11 10

/-- `PSTATE` and `FREQ` of a stage core together: the clock is stopped in every state but running. -/
def State.setPstate (s : State) (c p : Nat) : State :=
  (s.setRegF (Reg.CORE_ISLAND_STAT c) 11 10 p).setRegF (Reg.CORE_ISLAND_STAT c) 23 16
    (if p = 0 then (s.core c).setClk else 0)

/-- The core is its die's unassigned spare (R19). -/
def State.isSpare (s : State) (c : Nat) : Bool :=
  decide (s.regF (Reg.CORE_ISLAND_STAT c) 9 9 = 1)

/-! ### Reset and resynchronization -/

/-- Registers of a stage core that mirror what a reset ends. DESIGN CHOICE (log entry 16): these and the
event counters return to their reset values; the other registers of the island stay. -/
def coreStatusRegs (c : Nat) : List Nat :=
  [Reg.SEQ_STAGE c, Reg.SEQ_STAT c, Reg.FDR_STAT c, Reg.DRN_STAT c, Reg.ACC_STAT c,
   Reg.ACC_SAT_TILE c 0, Reg.ACC_SAT_TILE c 1, Reg.ACC_POISON_TILE c 0, Reg.ACC_POISON_TILE c 1] ++
  (List.range 8).map (Reg.SEQ_LEN c)

/-- The registers of R472 to R475 of a block return to their reset values (R480). -/
def State.resetEvc (s : State) (b : Nat) : State :=
  let addrs := ((List.range (evcSize b)).flatMap fun i =>
      [Reg.EVC_SEL b i, Reg.EVC_CNT_LO b i, Reg.EVC_CNT_HI b i, Reg.EVC_SNAP_LO b i,
       Reg.EVC_SNAP_HI b i]) ++
    [Reg.EVC_CTL b, Reg.EVC_SNAP_STEP b, Reg.EVC_SNAP_INFO b]
  let s := addrs.foldl (fun s a => s.setReg a (regReset a)) s
  { s with evcStage := s.evcStage.filter fun e =>
      !((List.range (evcSize b)).any fun i => e.1 == Reg.EVC_CNT_HI b i) }

/-- Words discarded at the crossings of an island are counted by it (R28, R39, R470): a port's and a host
lane's by their edge die, a memory PHY's nowhere. -/
def State.dropWords (s : State) (i n : Nat) : State :=
  if i < 54 then s.inc (Reg.CORE_XING_DROP i) n
  else if i < 60 then s.inc (Reg.DIE_TEL_XING_DROP (i - 54)) n
  else if i < 62 then s.inc (Reg.EDGE_TEL_XING_DROP (i - 60)) n
  else if i < 78 then s.inc (Reg.EDGE_TEL_XING_DROP ((i - 62) / 8)) n
  else s.inc (Reg.EDGE_TEL_XING_DROP ((i - 78) % 2)) n

/-- A message waits in the crossings of an island, not at its sender. -/
def IslMsg.inCrossing (m : IslMsg) (i : Nat) : Bool := m.isl == i && !m.held
def EvcMsg.inCrossing (m : EvcMsg) (i : Nat) : Bool := m.block == i && !m.held

/-- Step-begin messages and messages to event counters that wait in the crossings of an island are discarded with
its reset; those held at their sender stay (R28). -/
def State.dropMsgs (s : State) (i : Nat) : State :=
  let n := (s.ctl.islMsgs.filter (·.inCrossing i)).length + (s.evcMsgs.filter (·.inCrossing i)).length
  ({ s with ctl := { s.ctl with islMsgs := s.ctl.islMsgs.filter fun m => !m.inCrossing i },
            evcMsgs := s.evcMsgs.filter fun m => !m.inCrossing i }).dropWords i n

/-- Messages held at their sender go on once their way is ready (R28). -/
def State.releaseMsgs (s : State) : State :=
  { s with ctl := { s.ctl with islMsgs := s.ctl.islMsgs.map fun m =>
                      { m with held := m.held && !s.islandPath m.isl } },
           evcMsgs := s.evcMsgs.map fun m => { m with held := m.held && !s.blockPath m.block } }

/-- The crossings on the way from one edge die to the other are ready (R18, R329). -/
def State.edgeRoute (s : State) (e f : Nat) : Bool := e == f || s.dieRoute (6 + e) (6 + f)

/-- A packet of an edge die goes out on a link; to a link of the other edge die it crosses the bridges by R18,
and is held while that way is not ready (R28, R329). -/
def State.sendFrom (s : State) (e l : Nat) (p : Pkt) : State :=
  if s.edgeRoute e (linkEdge l) then s.linkSend l p
  else { s with xfer := s.xfer ++ [⟨e, l, p⟩] }

/-- Packets held on their way between the edge dies go on once it is ready (R28). -/
def State.releaseXfer (s : State) : State :=
  let go (x : HeldPkt) : Bool := s.edgeRoute x.edge (linkEdge x.link)
  (s.xfer.filter go).foldl (fun s x => s.linkSend x.link x.pkt)
    { s with xfer := s.xfer.filter fun x => !go x }

/-- A stage core's part of its reset (R27, R28, R148): queues and crossing emptied, the discarded words
counted; words held at the sender stay. -/
def State.resetCore (s : State) (c : Nat) : State :=
  let k := s.core c
  (s.dropWords c k.xin.length).setCore c
    { CoreSt.reset with held := k.held, nextId := k.nextId, setClk := k.setClk, volt := k.volt,
                        failed := k.failed, retired := k.retired }

/-- The rail voltage that the fused table gives a clock (R446), within the range of R445: 0.65 V at 1.0 GHz, 0.95 V
at 3.6 GHz; between them it is fused at manufacture, a free value (DESIGN CHOICE, log entry 163). -/
def fusedMilliVolt (d clk : Nat) : Nat :=
  if clk ≤ 20 then 650
  else if 72 ≤ clk then 950
  else min 950 (650 + (Config.fusedVolt d clk).toNat)

/-- A stage core's rail is set to the voltage of a clock, and its clock is set (R446). -/
def CoreSt.setVolt (k : CoreSt) (d f : Nat) : CoreSt := { k with volt := fusedMilliVolt d f }
def CoreSt.setClock (k : CoreSt) (f : Nat) : CoreSt := { k with setClk := f, clkDue := none }

/-- A clock step of a stage core that falls due (R446): before the clock is raised the voltage is. -/
def CoreSt.stepDue (k : CoreSt) (d f : Nat) : CoreSt :=
  let k := { k with clkDue := some f }
  if k.setClk < f then k.setVolt d f else k

/-- A clock step takes effect, and the voltage follows it down (R446). -/
def CoreSt.stepClock (k : CoreSt) (d f : Nat) : CoreSt := (k.setClock f).setVolt d f

/-- `PWR_STAT.THERM_ACTIVE`: a thermal clock is below 3.6 GHz (R454). -/
def State.noteTherm (s : State) : State :=
  s.setRegF Reg.PWR_STAT 29 29 (if (List.range 54).any fun c => decide ((s.core c).thermClk < 72) then 1 else 0)

/-- The die NoC's reset at one of its cores: words in the crossing and a packet cut short are
discarded (R28). -/
def State.cutCore (s : State) (c : Nat) : State :=
  let k := s.core c
  let t := partialTail k.cmdq
  (s.dropWords c (k.xin.length + t.length)).setCore c
    { k with xin := [], cmdq := k.cmdq.take (k.cmdq.length - t.length) }

/-- A link loses what its edge die held of it. -/
def LinkSt.cut (k : LinkSt) : LinkSt := { k with stream := [], rx := [], txq := [], wire := [] }

/-- A bridge direction loses with its sender's reset the transfers that wait in its buffers (R27, R28). -/
def BridgeSt.cut (k : BridgeSt) : BridgeSt := { k with replay := [], resend := [], retryTimes := [] }

/-- The bridge directions whose sender is a die: entry 2b sends from the die named first (R15, R17). -/
def dirsFrom (d : Nat) : List Nat :=
  (List.range 26).filter fun k =>
    (if k % 2 = 0 then (bridgeDies (k / 2)).1 else (bridgeDies (k / 2)).2) == d

/-- The bridge directions of a die in reset are cut. -/
def State.cutBridges (s : State) (d : Nat) : State :=
  (dirsFrom d).foldl (fun s k => s.setBridge k (s.bridge k).cut) s

/-- An edge die's queues are emptied with its logic (log entry 16). How many crossing words the packets
received and not yet taken had filled is a free value (log entry 122). -/
def State.resetEdge (s : State) (e : Nat) : State :=
  let ls := (List.range 18).filter fun l => linkEdge l == e
  let s := if ls.any fun l => !(s.link l).stream.isEmpty || !(s.link l).rx.isEmpty then
      s.draw.2.dropWords (60 + e) (s.draw.1.toNat % 2 ^ 32)
    else s
  let s := [2 * e, 2 * e + 1].foldl
    (fun s h => s.setEngine h { s.engine h with inQ := [], normQ := [] }) s
  ls.foldl (fun s l => s.setLink l (s.link l).cut)
    { s with xfer := s.xfer.filter fun x => x.edge != e }

/-- The reset of an island is to be counted by the islands beside it that are out of reset: those in reset
take one count for both (R38). -/
def State.noteReset (s : State) (i : Nat) : State :=
  (neighbours i).foldl (fun s j =>
    let x := s.island j
    if j < 62 ∧ x.inReset = false then s.setIsland j { x with dueNbr := insertSorted x.dueNbr i } else s) s

/-- An island enters reset (R27, R28, R148, R480): its channels report not ready, its queues are
emptied. A port's island is its five lane receivers. `off` marks the reset that accompanies the off state,
which leaves registers unchanged. -/
def State.enterReset (s : State) (i : Nat) (off : Bool) : State :=
  let s := s.dropMsgs i
  let s :=
    if i < 54 then (s.resetCore i).noteTherm
    else if i < 60 then
      let d := i - 54
      let s := (List.range 9).foldl (fun s c => s.cutCore (9 * d + c)) s
      (s.setDie d { DieSt.reset with held := (s.die d).held, ueTimes0 := (s.die d).ueTimes0,
                                     ueTimes1 := (s.die d).ueTimes1 }).cutBridges d
    else if i < 62 then (s.resetEdge (i - 60)).cutBridges (i - 54)
    else s
  let s :=
    if off then s
    else
      let s := if i < 54 then (coreStatusRegs i).foldl (fun s a => s.setReg a (regReset a)) s else s
      if i < 62 then s.resetEvc i else s
  let lanes := if 62 ≤ i ∧ i < 78 then (List.range 5).map (272 + 5 * (i - 62) + ·) else []
  (i :: lanes).foldl (fun s j => (s.noteReset j).setIsland j Island.reset) s

/-- A completed resynchronization is counted by an island with a status register (R38, R470). -/
def State.countResync (s : State) (i : Nat) : State :=
  match islandStat i with
  | some a => s.incF a 7 0
  | none => s

/-- The counts of R38 that are due on an island: one for its own reset, one for each reset beside it,
once every crossing that the reset touched has completed R27. -/
def State.settleIsland (s : State) (i : Nat) : State :=
  let x := s.island i
  if x.inReset then s
  else
    let own := x.due && s.xingReady i
    let nbrs := x.dueNbr.filter s.xingReady
    let t := (List.range (own.toNat + nbrs.length)).foldl (fun s _ => s.countResync i) s
    t.setIsland i { x with due := x.due && !own, dueNbr := x.dueNbr.filter fun j => !nbrs.contains j }

/-- The islands of a half's SerDes: its four Culvert receive groups, and the host lane of half 0 (R20). -/
def serdesIslands (h : Nat) : List Nat :=
  (List.range 4).map (62 + 4 * h + ·) ++ (if h % 2 = 0 then [78 + h / 2] else [])

/-- The islands of a half's memory PHYs, by its 48 channels (R20, R256). -/
def phyIslands (h : Nat) : List Nat := (List.range 48).map (80 + 48 * h + ·)

/-- The islands that the loss of a rail holds in reset (R445, R448): an edge-die half's own, which its logic drives
(DEDUCED, log entry 30). -/
def railIslands : Rail → List Nat
  | .bus6v => []
  | .vcore c => [c.val]
  | .vnoc d => [54 + d.val]
  | .vsram d => [54 + d.val]
  | .vedge h => serdesIslands h ++ phyIslands h
  | .vserdes h => serdesIslands h
  | .lpddr h => phyIslands h

/-- An island is kept in reset: a core's while its die NoC is (R38), or it has failed or been retired (R393,
R431); any island while a rail of its own is off (R448). -/
def State.keptInReset (s : State) (i : Nat) : Bool :=
  (decide (i < 54) && (!(s.island (54 + i / 9)).ready || (s.core i).failed)) ||
    s.railsOff.any fun r => (railIslands r).contains i

/-- Words held at the sender of a stage core go through once its path is ready (R28). -/
def State.releaseHeld (s : State) (c : Nat) : State :=
  let k := s.core c
  if k.held.isEmpty || !s.corePath c then s
  else s.setCore c ({ k with xin := k.xin ++ k.held, held := [] } : CoreSt).pull

/-- Islands leave reset and complete R27 with every neighbour that is out of reset: the crossings between
them become ready, the counts of R38 that this ends are taken, words held at a sender go through. -/
def State.rejoin (s : State) (is : List Nat) : State :=
  let s := is.foldl (fun s i => s.setIsland i { s.island i with inReset := false, ready := true }) s
  let s := (List.range 62).foldl State.settleIsland s
  ((List.range 54).foldl State.releaseHeld s).releaseMsgs.releaseXfer

/-- A stage core's rail comes up with its island (R447). -/
def State.railUp (s : State) (c : Nat) : State :=
  let r := Rail.vcore (Fin.ofNat 54 c)
  if s.rails.contains r then s else { s with rails := s.rails ++ [r] }

/-- An island leaves reset (R27); a port's with its five lane receivers. A stage core runs from its clock's
start (R454), or stays clock-gated as its die's spare (R19). -/
def State.leaveReset (s : State) (i : Nat) : State :=
  if i < 54 then
    let k := s.core i
    let pre := if s.pstate i = 3 then s.rebind i else []
    let s := s.setCore i ((({ k with held := pre ++ k.held, progress := s.now } : CoreSt).setVolt (i / 9)
      (s.coreClock i)).setClock (s.coreClock i))
    let s := s.railUp i
    (s.setPstate i (if s.isSpare i then 1 else 0)).rejoin [i]
  else if 62 ≤ i ∧ i < 78 then s.rejoin (i :: (List.range 5).map (272 + 5 * (i - 62) + ·))
  else s.rejoin [i]

/-- The lane receivers that a port's four active lanes use are out of reset, as their common part is. -/
def State.portListens (s : State) (p : Nat) : Bool :=
  (s.island (62 + p)).ready && (List.range 5).all fun j =>
    decide (j = s.regF (Reg.CLV_PORT_STAT (p / 8) (p % 8)) 23 21) || (s.island (272 + 5 * p + j)).ready

/-- A gated clock starts again: a change that fell due meanwhile comes first (R459). -/
def State.ungate (s : State) (c : Nat) : State :=
  let k := s.core c
  let s := s.setCore c (({ k with progress := s.now } : CoreSt).stepClock (c / 9) (k.clkDue.getD k.setClk))
  s.setPstate c 0

/-! ### Bridges -/

/-- The polder of a bridge (R17). -/
def bridgePolder (b : Nat) : Nat :=
  if b < 6 then b else min (bridgeDies b).1 (bridgeDies b).2

/-- A compute die counts n bridge events of a source (R476). -/
def State.countBridge (s : State) (d src b n : Nat) : State :=
  if d < 6 then s.count (54 + d) src b n else s

/-- The compute die that counts a bridge's retries (R17, R476): the sender, or, when that is an edge die, which
has no such source, the compute die that the bridge joins to it (DESIGN CHOICE, log entry 145). -/
def retryDie (tx rx : Nat) : Nat := if tx < 6 then tx else rx

/-- Both dies of a bridge are out of reset, so that its channel is ready (R27). -/
def State.bridgeReady (s : State) (b : Nat) : Bool :=
  (s.island (54 + (bridgeDies b).1)).ready && (s.island (54 + (bridgeDies b).2)).ready

/-- The levels of the 8,192 data wires of a transfer of 1,024 bytes: wire i carries bit i. -/
def dataWire (data : List Byte) (i : Nat) : Bool := ((data.getD (i / 8) 0)).getLsbD (i % 8)

/-- The levels of the 64 spare wires under a repair map (R16): entry j is the data wire whose bit spare
wire j carries; an entry of `0xFFFF` names none, and its wire is idle. -/
def spareWires (map : List (BitVec 16)) (data : List Byte) : List Bool :=
  map.map fun w => decide (w.toNat < 8192) && dataWire data w.toNat

/-- BRIDGE_TRANSFER (R16, R17): a direction carries nothing before its repair map is applied. The receiver
checks the CRC; a failed transfer is discarded, and the sender sends it again from its replay buffer, so
that this command stands for one attempt. While transfers wait to be sent again the sender keeps their
order: the oldest of them is the next to arrive, and other data joins the buffer behind them, which holds
32. While one of the dies is in reset the transfer is held there too (R27, R28). -/
def execBridgeTransfer (b : Fin 13) (dir : Fin 2) (data : List Byte) (crc : BitVec 32) (s : State) : Out :=
  let key := 2 * b.val + dir.val
  let k := s.bridge key
  let dies := bridgeDies b
  let tx := if dir.val = 0 then dies.1 else dies.2
  let rx := if dir.val = 0 then dies.2 else dies.1
  match k.map with
  | none => .next s
  | some map =>
    if k.failed then .next s
    else if !s.bridgeReady b || (!k.resend.isEmpty && k.resend.head? != some data) then
      .next (if k.resend.length < 32 then s.setBridge key { k with resend := k.resend ++ [data] } else s)
    else if crc32c data = crc then
      let s := s.setBridge key
        { k with spares := spareWires map data, replay := (data :: k.replay).take 32,
                 resend := k.resend.drop 1, delivered := k.delivered + 1 }
      .next ((s.countBridge tx 0x181 b 16).countBridge rx 0x182 b 16)
    else
      let s := s.setBridge key
        { k with spares := spareWires map data, resend := if k.resend.isEmpty then [data] else k.resend,
                 retryTimes := s.now :: (k.retryTimes.filter fun t => decide (s.now < t + 1000)) }
      .next ((s.countBridge tx 0x181 b 16).countBridge (retryDie tx rx) 0x183 b 1)

/-- ISLAND_RESET (R27, R28). -/
def execIslandReset (i : ClkIsl) (s : State) : Out := .next (s.enterReset i false)

/-- CHANNEL_RESYNC (R27, R28): no event on an island that is out of reset, or is kept in it. -/
def execChannelResync (i : ClkIsl) (s : State) : Out :=
  .next (if (s.island i).ready || s.keptInReset i then s else s.leaveReset i)

/-- CLOCK_CHANGE (R25, R446): a clock that is due takes effect between two wavefronts, while the core
runs and no droop response is in force (R452). A higher one finds its voltage set; a lower one is followed by
its own. -/
def execClockChange (c : Core) (s : State) : Out :=
  let k := s.core c
  match k.clkDue with
  | none => .next s
  | some f =>
    if s.pstate c = 0 ∧ k.droop = false ∧ k.thermGated = false then
      .next ((s.setCore c (k.stepClock (c / 9) f)).setRegF
        (Reg.CORE_ISLAND_STAT c) 23 16 f)
    else .next s

end Sys2Proof.Machine
end

