-- ==== Sys2Proof/Machine/Counters.lean ====
section
/-! DEFINITION. The event-counter blocks (R471 to R480) and their commands. -/

namespace Sys2Proof.Machine

open Sys2Proof

/-- `OVF` of counter i of block b. -/
def State.evcOvf (s : State) (b i : Nat) : Bool := decide (s.regF (Reg.EVC_SEL b i) 30 30 = 1)

/-- Every count of a block becomes 0 and every `OVF` clears (R474). -/
def State.evcClear (s : State) (b : Nat) : State :=
  (List.range (evcSize b)).foldl
    (fun s i => (s.setEvcCount b i 0).setRegF (Reg.EVC_SEL b i) 30 30 0) s

/-- Counter i takes part in a snapshot: its count is copied when `SNAP_EN` is 1, and restarts from 0
when `SNAP_CLR` is 1 (R478). -/
def State.snapOne (s : State) (b : Nat) (clr : Bool) (i : Nat) : State :=
  if s.regF (Reg.EVC_SEL b i) 29 29 = 1 then
    let s := s.setReg48 (Reg.EVC_SNAP_LO b i) (Reg.EVC_SNAP_HI b i) (s.evcCount b i)
    if clr then s.setEvcCount b i 0 else s
  else s

/-- A snapshot of a block with a cause (R478): the pairs, `EVC_SNAP_STEP` and `EVC_SNAP_INFO`. The
block's island has the block's own index. -/
def State.evcSnap (s : State) (b cause : Nat) : State :=
  let clr := decide (s.regF (Reg.EVC_CTL b) 3 3 = 1)
  let s := (List.range (evcSize b)).foldl (fun s i => s.snapOne b clr i) s
  let n := min (s.regF (Reg.EVC_SNAP_INFO b) 15 0 + 1) 0xFFFF
  (s.setReg (Reg.EVC_SNAP_STEP b) (s.island b).step).setReg (Reg.EVC_SNAP_INFO b)
    (BitVec.ofNat 32 (cause * 2 ^ 30 + n))

/-- An island receives a step-begin for step k (R31): a block with `SNAP_ON_STEP` first takes a
snapshot with cause 2 (R474, R475); then the step number is set and `SEQ` restarts. DESIGN CHOICE: one that
repeats the island's current step restarts `SEQ` too (log entry 123). -/
def State.islandStep (s : State) (i : Nat) (k : Word) : State :=
  let s := if i < 62 ∧ s.regF (Reg.EVC_CTL i) 2 2 = 1 then s.evcSnap i 2 else s
  s.setIsland i { s.island i with step := k, seq := 0 }

/-- A message joins the asynchronous channels to every block (R479): `CLEAR` or `SNAP`. It is held at its sender
while the way to the block is not ready (R28). -/
def State.evcBroadcast (s : State) (clr : Bool) : State :=
  { s with evcMsgs := s.evcMsgs ++ (List.range 62).map fun b => ⟨b, clr, !s.blockPath b⟩ }

/-- A write of a counter's high word is staged (R472). -/
def State.evcWriteHi (s : State) (b i : Nat) (v : Word) : State :=
  { s with evcStage := SMap.set (fun _ => 0) s.evcStage (Reg.EVC_CNT_HI b i) v }

/-- A write of a counter's low word loads the 48-bit count from the staged high bits (R472). The
staging register keeps its value, and holds 0 before its first write (DESIGN CHOICE, log entry 14). -/
def State.evcWriteLo (s : State) (b i : Nat) (v : Word) : State :=
  s.setEvcCount b i
    (v.toNat + 2 ^ 32 * ((SMap.get (fun _ => 0) s.evcStage (Reg.EVC_CNT_HI b i)).toNat % 2 ^ 16))

/-- The selection as a write stores it (R473): a `SRC` that the block's kind does not list is 0. -/
def evcSelStored (b : Nat) (v : Nat) : Nat := if evcLegal b (fld v 9 0) then v else setFld v 9 0 0

/-- An access to an unmapped address (R11, R467). -/
def State.unmapped (s : State) (addr : Nat) (write : Bool) : State :=
  (s.inc Reg.GLB_UNMAPPED_CNT 1).setReg Reg.GLB_UNMAPPED_ADDR
    (BitVec.ofNat 32 (addr % 2 ^ 32 / 4 * 4 + write.toNat))

/-! ### Commands -/

/-- UNMAPPED_ACCESS (R11, R467): on an address that a register occupies it is no event. -/
def execUnmappedAccess (addr : BitVec 32) (write : Bool) (s : State) : Out :=
  .next (if (regRow addr.toNat).isNone then s.unmapped addr.toNat write else s)

/-- EVC_CNT_HI_WRITE (R472). A core block has no counters above 7: their addresses are unmapped. -/
def execEvcCntHiWrite (b : Block) (i : Fin 32) (v : Word) (s : State) : Out :=
  .next (if i.val < evcSize b then s.evcWriteHi b i v else s.unmapped (Reg.EVC_CNT_HI b i) true)

/-- EVC_CNT_LO_WRITE (R472). -/
def execEvcCntLoWrite (b : Block) (i : Fin 32) (v : Word) (s : State) : Out :=
  .next (if i.val < evcSize b then s.evcWriteLo b i v else s.unmapped (Reg.EVC_CNT_LO b i) true)

/-- CLEAR (R474). -/
def execClear (b : Block) (s : State) : Out := .next (s.evcClear b)

/-- SNAP (R474), with cause 1. -/
def execSnap (b : Block) (s : State) : Out := .next (s.evcSnap b 1)

/-- CLEAR_ALL (R469). -/
def execClearAll (s : State) : Out := .next (s.evcBroadcast true)

/-- SNAP_ALL (R469). -/
def execSnapAll (s : State) : Out := .next (s.evcBroadcast false)

/-- EVC_BROADCAST_ARRIVE (R479): the oldest message under way to the block acts in it, once the crossings on its way
are ready (R27, R28) and the island's clock, which takes it, runs (R480). -/
def execEvcBroadcastArrive (b : Block) (s : State) : Out :=
  match s.evcMsgs.find? fun m => m.block == b.val with
  | none => .next s
  | some m =>
    if s.blockPath b && s.clockRuns b then
      let s := { s with evcMsgs := s.evcMsgs.erase m }
      .next (if m.clr then s.evcClear b else s.evcSnap b 3)
    else .next s

/-- A counter takes an increment drawn as a free value; an overflow event that this queues is sent (R376, R477). -/
def State.evcOver (s : State) (b i n : Nat) : State :=
  let t := s.draw.2.evcAdd b i n
  if t.evtSeq = s.evtSeq then t else t.pump (16 + t.hostLane 0)

/-- EVC_OVF (R477): the counter's source delivers an increment that carries it past 2⁴⁸ − 1. It can
when the counter counts and lacks no more than the source's maximum; how far past is open. -/
def execEvcOvf (b : Block) (i : Fin 32) (s : State) : Out :=
  let src := s.regF (Reg.EVC_SEL b i) 9 0
  let need := 2 ^ 48 - s.evcCount b i
  match evcSource src with
  | some (_, n, max) =>
    let inst := s.regF (Reg.EVC_SEL b i) 22 16
    if decide (i.val < evcSize b) && evcLegal b src && s.evcCounts b i src inst &&
        (decide (inst = 0x7F ∨ n = 0 ∨ inst < n)) && decide (need ≤ max) then
      .next (s.evcOver b i (need + s.draw.1.toNat % (max - need + 1)))
    else .next s
  | none => .next s

end Sys2Proof.Machine
end

