-- ==== Sys2Proof/Machine/Control.lean ====
section
/-! DEFINITION. The step controller's plumbing and its fault handling: commands to cores, replay and
taint (R388 to R392), takeover (R393, R394), loss of a polder, of the twin and of the pair (R398,
R401, R402, R409, R410). -/

namespace Sys2Proof.Machine

open Sys2Proof

/-- A packet of control words for a core goes into its crossing, or is held at the sender while a channel
on its way is not ready (R28). -/
def State.sendCore (s : State) (c : Nat) (ws : List CmdWord) : State :=
  let k := s.core c
  if s.corePath c then s.setCore c ({ k with xin := k.xin ++ ws } : CoreSt).pull
  else s.setCore c { k with held := k.held ++ ws }

/-- A command of the step controller, remembered until it completes (R387, class `CTRL_POISON`). -/
def State.sendCmd (s : State) (c : Nat) (w : CmdWord) : State :=
  let s := s.sendCore c [w]
  { s with ctl := { s.ctl with lastCmd := SMap.set (fun _ => []) s.ctl.lastCmd c [w] } }

/-- The stage with a number, and the number of stages. -/
def State.stage (s : State) (n : Nat) : Option Stage :=
  match s.prog with
  | some p => p.stages[n]?
  | none => none

/-- `STAGE_BIND` of a stage to its core (R191). -/
def State.sendBind (s : State) (n : Nat) : State :=
  match s.stage n with
  | some st => s.sendCmd st.core.val (wStageBind n st.base st.nfwd st.nbwd st.neval)
  | none => s

/-- `MB_BEGIN` for a schedule entry, on the core that now carries its stage (R193). -/
def State.sendMb (s : State) (e : Sched) (replay : Bool) : State :=
  match s.stage e.stage with
  | some st =>
    let s := s.sendCmd st.core.val (wMbBegin e.phase replay e.mb.toNat)
    { s with ctl := { s.ctl with issued := s.ctl.issued ++ [⟨e, st.core, replay⟩] } }
  | none => s

/-- The last committed step. -/
def State.committed (s : State) : Nat := (s.reg Reg.GLB_STEP_NUM).toNat

/-! ### Breach helpers -/

/-- A breach whose `DETAIL` the spec leaves to its class without stating it: a free value (log entry 18). -/
def State.breachOpen (s : State) (i : Nat) (b : BreachInfo) : State :=
  s.draw.2.breach i { b with detail := s.draw.1.toNat % 2 ^ 32 }

/-- The response code of `HOLD` (R358). -/
def cmdHOLD : Nat := 0x33

/-- Every pending `HOLD` is answered (R364). -/
def State.answerHolds (s : State) (status detail : Nat) : State :=
  let l := s.ctl.holdWaiters
  let s := { s with ctl := { s.ctl with holdWaiters := [] } }
  (l.foldl (fun s h => s.respond h cmdHOLD status detail []) s).setRegF Reg.GLB_STATE 3 3 0

/-- Work under way above the last committed step is abandoned: no entry is issued any more, and what
runs on cores runs to its `PHASE_DONE` without effect (R35, R390, R410). -/
def State.abandonSteps (s : State) : State :=
  { s with ctl := { s.ctl with toIssue := [], done := [], replayWait := [], stepReplay := false,
                               abandoned := !s.ctl.issued.isEmpty, begun := s.committed,
                               step := s.committed, collStep := s.committed, feedWait := none,
                               record := none } }

/-- The register block of an update engine's edge-die half. -/
def updReg (f : Nat → Nat → Nat) (e : Nat) : Nat := f (e / 2) (e % 2)

/-- An engine gives its uncommitted work up: runs above a step, what waits in its queues, a rebuild that is not
switched to (R302, R305). -/
def EngineSt.drop (k : EngineSt) (c : Nat) : EngineSt :=
  let keep (x : Nat × Option GrpRun) : Bool := match x.2 with
    | some r => decide (r.step.toNat ≤ c)
    | none => false
  { k with inQ := [], normQ := [], rebuild := none, pend := [], groups := k.groups.filter keep }

/-- Uncommitted work of the engines is gone (R35, R302, R305). -/
def State.dropEngines (s : State) : State :=
  let c := s.committed
  let s := (List.range 4).foldl (fun s e =>
    let k := s.engine e
    let s := if k.rebuild.isSome then
        (s.setRegF (updReg Reg.UPD_RECOMP_STAT e) 31 28 0).setRegF (updReg Reg.UPD_CTL e) 12 12 0
      else s
    s.setEngine e (k.drop c)) s
  let s := (List.range 4).foldl (fun s h => s.setReg (Reg.CLV_COLL_STAT (h / 2) (h % 2)) 0) s
  let staged := s.staged.filter fun x => decide (x.step ≤ c)
  let norms := s.norms.filter fun x => decide (x.step ≤ c)
  { s with staged := staged, norms := norms }

/-- Results of steps that will run again are forgotten. -/
def State.forgetResults (s : State) (above : Nat) : State :=
  (List.range 64).foldl (fun s w => match s.window w with
    | some x => s.setWindow w (some { x with results := x.results.filter fun r => decide (r.1 ≤ above) })
    | none => s) s

/-- The module goes back to the last committed step: everything above it is given up (R35, R302, R410). -/
def State.giveUp (s : State) : State :=
  let s := s.abandonSteps.dropEngines.forgetResults s.committed
  { s with ctl := { s.ctl with failed := false, tainted := [], taintWait := [], feedStalled := false,
                               got := s.ctl.got.filter fun g => decide (g.1 ≤ s.committed) } }

/-- The breach of an event that another caused (R32, R385). -/
def BreachInfo.by (b : BreachInfo) (cause : Option Cause) : BreachInfo :=
  match cause with
  | some z => { b with causeIsl := z.1.toNat, causeSeq := z.2.toNat }
  | none => b

/-- The state becomes `HOLDING` for a cause, and pending `HOLD`s complete with OK (R360, R364, R379); a wait
for feeds ends with it (R368), and nothing is left that has to run. -/
def State.enterHolding (s : State) (cause : Nat) : State :=
  let s := { s with ctl := { s.ctl with feedWait := none, mustRun := s.committed } }
  ((s.setRegF Reg.GLB_STATE 7 4 cause).setMode 4).answerHolds 0 0

/-- `PAIR_LOSS` (R409, R410), detected in island i and caused by another event or none: the breach, the status
bit, the event; a running module gives up what is above the last committed step, and holds there. -/
def State.pairLoss (s : State) (i : Nat) (cause : Option Cause) (polder obj addr : Nat) : State :=
  let s := s.breachOpen i
    (BreachInfo.by { cls := 0xE, polder := polder, action := 11, obj := obj, addr := addr } cause)
  let s := (s.setRegF Reg.FLT_STAT 29 29 1).announce s.ctlIsl 7 s.committed [s.committed]
  if s.mode = 3 then s.giveUp.enterHolding 3 else s

/-- A twin is configured (R22, R395). -/
def State.hasTwin (s : State) : Bool := decide (s.reg (Reg.CLV_TWIN_NODE 0) ≠ 0xFFFF)

/-- The pair is not in sync, or there is none. -/
def State.alone (s : State) : Bool := !s.hasTwin || decide (s.regF Reg.FLT_STAT 31 31 = 1)

/-- The standby of ED1 half 0 takes the step controller over at the last committed step (R23). -/
def State.standbyTakes (s : State) : State := ({ s with standby := true }).abandonSteps

/-- `POLDER_LOSS` (R401, R402, R409): the standby takes over first where the step controller's half is lost
(R23); `PAIR_LOSS` where no copy is left; the breach; entry to `DUMPING`, where ports no longer transmit and
pending `HOLD`s fail. A module in `BOOTING`, `DUMPING` or `RETIRED` has no transition (R360). -/
def State.polderLoss (s : State) (i polder obj : Nat) (detail : Option Nat) : State :=
  if s.lostPolders.contains polder then s
  else
    let takes := decide (polder = 6) && !s.standby
    let s := if takes then s.standbyTakes else s
    let i := if takes then s.ctlIsl else i
    let s := if s.alone && decide (1 ≤ s.mode ∧ s.mode ≤ 4) then s.pairLoss i none polder obj 0 else s
    let b : BreachInfo := { cls := 0xD, polder := polder, action := 10, obj := obj }
    let s := match detail with
      | some d => s.breach i { b with detail := d }
      | none => s.breachOpen i b
    let s := { s with lostPolders := insertSorted s.lostPolders polder }
    if 1 ≤ s.mode ∧ s.mode ≤ 4 then
      (({ s with fatal := s.breaches.head? }).setMode 5).answerHolds 8 5
    else s

/-! ### Taint and replay -/

/-- Two descriptors reach a byte in common. -/
def State.handlesOverlap (s : State) (h g : Nat) : Bool :=
  match s.desc h, s.desc g with
  | some a, some b => reachOverlap a.desc.reach b.desc.reach
  | _, _ => false

/-- A group's gradient of a step is tainted (R388), as island i of a polder detects: once for each group and step.
Behind an open window the taint waits with its breach (R408). -/
def State.taint (s : State) (i polder : Nat) (cause : Option Cause) (step group : Nat) : State :=
  if s.ctl.tainted.contains (step, group) || s.ctl.taintWait.contains (step, group) then s
  else
    let held := s.defers 0xA polder
    let s := (s.breachOpen i (BreachInfo.by { cls := 0xA, polder := polder, action := 3, obj := group } cause)).inc
      Reg.FLT_GRAD_LOST_CNT 1
    if held then { s with ctl := { s.ctl with taintWait := s.ctl.taintWait ++ [(step, group)] } }
    else { s with ctl := { s.ctl with tainted := (step, group) :: s.ctl.tainted } }

/-- A taint that waited takes effect. -/
def State.taintNow (s : State) (group : Nat) : State :=
  match s.ctl.taintWait.find? fun t => t.2 == group with
  | some t => { s with ctl := { s.ctl with taintWait := s.ctl.taintWait.erase t, tainted := t :: s.ctl.tainted } }
  | none => s

/-- The update groups whose collective source overlaps an output (R389). -/
def State.groupsReading (s : State) (outs : List Nat) : List Nat :=
  match s.prog with
  | some p => ((p.colls.filter fun c =>
      decide (c.kind = 0) && outs.any (s.handlesOverlap c.src)).map Coll.ugroup).dedup
  | none => []

/-- Replays of an entry so far within the step. -/
def State.replaysOf (s : State) (e : Sched) : Nat :=
  match s.ctl.phaseReplays.find? fun p => p.1 == e with
  | some p => p.2
  | none => 0

/-- A phase is reissued with `REPLAY` = 1 (R389). -/
def State.replayPhase (s : State) (e : Sched) : State :=
  let n := s.replaysOf e
  let s := { s with ctl := { s.ctl with
      phaseReplays := (e, n + 1) :: s.ctl.phaseReplays.filter fun p => p.1 != e } }
  (s.inc Reg.FLT_REPLAY_PHASE_CNT 1).sendMb e true

/-- `REPLAY_MAX` (R414). -/
def State.replayMax (s : State) : Nat := s.regF Reg.FLT_CTL 7 0

/-- The polder of a core. -/
def polderOfCore (c : Nat) : Nat := c / 9

/-- The takeover of a failed core's stage by its die's spare (R393): the failed island is held in
reset, the spare runs and is bound, and the failed core's phases wait for their replay. -/
def State.takeover (s : State) (c spare stageNo : Nat) : State :=
  let mine := (s.ctl.issued.filter fun x => x.core.val == c).map fun x => (x.core, x.entry)
  let s := s.ungate spare
  let s := s.setRegF (Reg.CORE_ISLAND_STAT spare) 9 9 0
  let s := match s.prog with
    | some p =>
      let upd (st : Stage) : Stage := if h : spare < 54 then
        (if st.core.val = c then { st with core := ⟨spare, h⟩ } else st) else st
      { s with prog := some { p with stages := p.stages.map upd } }
    | none => s
  let s := { s with ctl := { s.ctl with
      issued := s.ctl.issued.filter fun x => !(x.core.val == c),
      replayWait := s.ctl.replayWait ++ mine } }
  let s := (s.sendBind stageNo).sendCmd spare (wStepBegin s.ctl.begun)
  (s.inc Reg.FLT_TAKEOVER_CNT 1).setReg Reg.FLT_STAT
    (s.reg Reg.FLT_STAT ||| BitVec.ofNat 32 (2 ^ (c / 9)))

/-- A stage core has failed (R393, R394, R431): its island is held in reset; when every other core of
the die is healthy and it carries a stage, the spare takes over; when another core of the die has
failed before, the polder is lost. -/
def State.loseCore (s : State) (c : Nat) : State :=
  let others := ((List.range 9).map (c / 9 * 9 + ·)).filter (· != c)
  let hurt := others.any fun j => (s.core j).failed || (s.core j).retired
  let s := s.enterReset c false
  let s := s.setCore c { s.core c with failed := true, retired := true }
  let s := (s.setPstate c 3).setRegF (Reg.CORE_ISLAND_STAT c) 9 9 0
  let s := { s with healthDirty := true }
  if hurt then s.polderLoss s.ctlIsl (c / 9) c none
  else match s.prog with
    | none => s
    | some p =>
      match p.stages.findIdx? (fun st => st.core.val == c), others.find? (fun j => s.isSpare j) with
      | some n, some spare => (s.takeover c spare n).openWindow 3 (c / 9) c
      | _, _ => s

/-- A core failure is declared (R393), as island i detects: the breach, and the recovery unless it is held behind an
open window (R408). -/
def State.coreFail (s : State) (i : Nat) (cause : Option Cause) (c : Nat) : State :=
  let held := s.defers 3 (c / 9)
  let s := s.breachOpen i (BreachInfo.by { cls := 3, polder := c / 9, action := 4, obj := c } cause)
  if held then s else s.loseCore c

/-- A step replay starts (R390): no further `MB_BEGIN`; what runs is abandoned; once it has ended, the
step's `STEP_BEGIN` and schedule go out again. -/
def State.startStepReplay (s : State) : State :=
  ({ s with ctl := { s.ctl with stepReplay := true, toIssue := [], replayWait := [],
                                stepReplays := s.ctl.stepReplays + 1 } }).inc
    Reg.FLT_REPLAY_STEP_CNT 1

/-- The accumulating outputs of a phase (R389). -/
def State.accumOf (s : State) (e : Sched) : List Nat := match s.stage e.stage with
  | some st => st.accum.getD e.phase []
  | none => []

/-- A step replay is allowed: no collective of the step has sent a packet, and the step has been replayed fewer
than `REPLAY_MAX` times (R390, R392). -/
def State.mayReplayStep (s : State) : Bool := !s.ctl.collSent && decide (s.ctl.stepReplays < s.replayMax)

/-- What absorbs a poisoned phase (R389), as the `ACTION` of R385: a phase replay, a step replay, or taint. -/
def State.phaseAction (s : State) (e : Sched) : Nat :=
  if (s.accumOf e).isEmpty then 1 else if s.mayReplayStep then 2 else 3

/-- A poisoned phase is absorbed. `true` in the second place when it counts as done (its groups are tainted). -/
def State.absorbPhase (s : State) (e : Sched) (c : Nat) (cause : Option Cause) : State × Bool :=
  match s.phaseAction e with
  | 1 => (s.replayPhase e, false)
  | 2 => (s.startStepReplay, false)
  | _ => ((s.groupsReading (s.accumOf e)).foldl
      (fun s g => s.taint c (polderOfCore c) cause s.ctl.step g) s, true)

/-- A phase is poisoned or cut short (R389, R392): the breach, detected in its core, with its `PHASE_DONE` as the
cause (R32); behind an open window it waits (R408). `true` in the second place when the phase counts as done. -/
def State.poisonedPhase (s : State) (e : Sched) (c : Nat) : State × Bool :=
  match s.stage e.stage with
  | none => (s, true)
  | some st =>
    let cause := s.phaseEvent c e.phase e.mb.toNat (s.island c).step
    if (s.accumOf e).isEmpty && decide (s.replayMax ≤ s.replaysOf e) then
      let x : Issued := ⟨e, st.core, true⟩
      (({ s with ctl := { s.ctl with issued := s.ctl.issued ++ [x] } }).coreFail s.ctlIsl cause c, false)
    else
      let held := s.defers 1 (polderOfCore c)
      let act := s.phaseAction e
      let s := s.breachOpen c (BreachInfo.by
        { cls := 1, polder := polderOfCore c, action := act, obj := e.stage,
          rstep := if act = 2 then s.ctl.step else 0 } cause)
      if held then
        ({ s with ctl := { s.ctl with replayWait := s.ctl.replayWait ++ [(st.core, e)] } }, false)
      else s.absorbPhase e c cause

/-! ### The twin -/

/-- The breach and the event of a lost twin (R301, R397). -/
def State.twinBreach (s : State) (detail : Option Nat) : State :=
  let b : BreachInfo := { cls := 0xC, polder := 0xFF, action := 9 }
  let s := match detail with
    | some d => s.breach s.ctlIsl { b with detail := d }
    | none => s.breachOpen s.ctlIsl b
  let twin := (s.reg (Reg.CLV_TWIN_NODE 0)).toNat
  s.announce s.ctlIsl 6 twin [twin]

/-- Records lost with the twin are waited for no more, and a commit record that waited on it may be committed
without it (R301, R398). -/
def State.dropMirror (s : State) : State :=
  let s := (List.range 4).foldl (fun s e => s.setEngine e { s.engine e with pend := [] }) s
  { s with ctl := { s.ctl with record := s.ctl.record.map fun r => (r.1, r.2.1, true) } }

/-- A restore in progress has lost its source (R409): `PAIR_LOSS`, and it reads as failed. -/
def State.failRestore (s : State) (cause : Option Cause) (addr : Nat) : State :=
  if s.restore.isSome then
    ((({ s with restore := none }).setReg Reg.FLT_RESTORE_STAT 0x30000000#32).closeWindow 0xC
      0xFFFF).pairLoss s.ctlIsl cause 0xFF 0 addr
  else s

/-- The module becomes exposed (R301, R398): the breach, the event, the recovery window. An uncommitted
step that waits on the twin may now commit without it. A pair check that fails while the module is exposed
raises the breach and the event again (R397), and so does a timeout in a resync or a restore, which ends with it.
A reconstruction or restore in progress has lost its source (R409). -/
def State.loseTwin (s : State) (detail : Option Nat) : State :=
  let cause := some (s.nextEvent s.ctlIsl)
  if s.regF Reg.FLT_STAT 31 31 = 1 then
    if s.resync.isSome then
      ((((({ s with resync := none }).setReg48 Reg.FLT_RESYNC_LEFT_LO Reg.FLT_RESYNC_LEFT_HI 0).setRegF
        Reg.FLT_STAT 30 30 0).twinBreach detail).dropMirror).failRestore cause 0
    else if detail.isSome || s.restore.isSome then (s.twinBreach detail).failRestore cause 0
    else s
  else
    let s := (((s.twinBreach detail).setRegF Reg.FLT_STAT 31 31 1).openWindow 0xC 0xFF 0).dropMirror
    let s := s.failRestore cause 0
    if s.recWindows.any fun w => w.cls == 7 then s.pairLoss s.ctlIsl cause 0xFF 0 0 else s

/-! ### Commands -/

/-- BRIDGE_FAIL (R17): a direction that loses lock, or retries more than 16 transfers within 1 ms. The
breach is detected in the island of the receiving die. -/
def execBridgeFail (b : Fin 13) (dir : Fin 2) (lostLock : Bool) (s : State) : Out :=
  let key := 2 * b.val + dir.val
  let k := s.bridge key
  let many := decide (16 < (k.retryTimes.filter fun t => decide (s.now < t + 1000)).length)
  if !k.failed && (lostLock || many) then
    let rx := if dir.val = 0 then (bridgeDies b).2 else (bridgeDies b).1
    .next ((s.setBridge key { k with failed := true }).polderLoss (54 + rx) (bridgePolder b) b.val
      (some (b.val + 256 * dir.val)))
  else .next s

/-- ISLAND_STEP_BEGIN (R31): the step controller's oldest step-begin under way to the island arrives, once
the crossings on its way are ready (R28). The event is logged with its cause (R32). -/
def execIslandStepBegin (i : Isl) (s : State) : Out :=
  match s.ctl.islMsgs.find? fun m => m.isl == i.val with
  | none => .next s
  | some m =>
    if s.islandPath i then
      .next ((({ s with ctl := { s.ctl with islMsgs := s.ctl.islMsgs.erase m } }).islandStep i m.step).addLogBy
        i evBeginReceived m.step.toNat s.ctl.beginCause)
    else .next s

end Sys2Proof.Machine
end

