-- ==== Sys2Proof/Machine/Mop.lean ====
section
/-! DEFINITION. Macro-operation packets (R194 to R197) and the checks at issue (R198, R207 to R210). -/

namespace Sys2Proof.Machine

open Sys2Proof

/-! ### Packets (R194) -/

/-- Bits [hi:lo] of word i of a packet. -/
def mopF (ws : List (BitVec 128)) (i hi lo : Nat) : Nat := fld (ws.getD i 0).toNat hi lo

def mopOp (ws : List (BitVec 128)) : Nat := mopF ws 0 7 0
def mopTransA (ws : List (BitVec 128)) : Bool := decide (mopF ws 0 8 8 = 1)
def mopTransB (ws : List (BitVec 128)) : Bool := decide (mopF ws 0 9 9 = 1)
def mopComp (ws : List (BitVec 128)) : Bool := decide (mopF ws 0 10 10 = 1)
/-- The pair-group size G. -/
def mopG (ws : List (BitVec 128)) : Nat := mopF ws 0 16 12 + 1
def mopQ (ws : List (BitVec 128)) : Int := signed (mopF ws 0 31 24) 8
def mopId (ws : List (BitVec 128)) : Nat := mopF ws 0 47 32
def mopA (ws : List (BitVec 128)) : Nat := mopF ws 0 79 64
def mopB (ws : List (BitVec 128)) : Nat := mopF ws 0 95 80
def mopPre (ws : List (BitVec 128)) : Nat := mopF ws 0 111 96
def mopAux (ws : List (BitVec 128)) : Nat := mopF ws 0 127 112
def mopM (ws : List (BitVec 128)) : Nat := mopF ws 1 31 0
def mopN (ws : List (BitVec 128)) : Nat := mopF ws 1 63 32
def mopK (ws : List (BitVec 128)) : Nat := mopF ws 1 95 64
def mopMsrc (ws : List (BitVec 128)) : Nat := mopF ws 1 99 96
def mopNsrc (ws : List (BitVec 128)) : Nat := mopF ws 1 103 100
def mopKsrc (ws : List (BitVec 128)) : Nat := mopF ws 1 107 104
def mopLenT (ws : List (BitVec 128)) : Nat := mopF ws 1 123 108
/-- Drain-lane word l (R177). -/
def mopLane (ws : List (BitVec 128)) (l : Nat) : Nat :=
  if l = 0 then mopF ws 2 63 0 else if l = 1 then mopF ws 2 127 64 else mopF ws 3 63 0
/-- The op-specific field (R196). -/
def mopSpec (ws : List (BitVec 128)) : Nat := mopF ws 3 127 64
def mopState (ws : List (BitVec 128)) : Nat := mopF ws 4 15 0

/-- "No tensor" (R97). -/
def noHandle : Nat := 0xFFFF

/-- The fields of a drain-lane word (R177). -/
def laneOut (w : Nat) : Nat := fld w 15 0
def laneScale (w : Nat) : Nat := fld w 31 16
def laneBias (w : Nat) : Nat := fld w 47 32
def laneAct (w : Nat) : Nat := fld w 51 48
def laneLen (w : Nat) : Nat := fld w 55 52
def laneIdx (w : Nat) : Nat := fld w 63 56

/-- The fields of a drain-chain entry (R179). -/
def chOp (e : Nat) : Nat := fld e 7 0
def chSrc (e : Nat) : Nat := fld e 10 8
def chHandle (e : Nat) : Nat := fld e 31 16
def chImm (e : Nat) : Nat := fld e 63 32

/-! ### What each opcode uses (R195) -/

def usesB (op : Nat) : Bool := (0x10 ≤ op && op ≤ 0x15) || op == 0x18
def usesPre (op : Nat) : Bool := op == 0x10 || op == 0x13 || op == 0x14 || op == 0x15
def usesAux (op : Nat) : Bool := op == 0x11 || op == 0x12 || op == 0x18
/-- Drain lanes that an opcode allows. -/
def lanesOf (op : Nat) : Nat :=
  match op with
  | 0x10 | 0x11 | 0x13 | 0x15 | 0x19 => 3
  | 0x12 | 0x14 | 0x16 | 0x17 => 1
  | _ => 0
def statsOk (op : Nat) : Bool := op == 0x10 || op == 0x13 || op == 0x15 || op == 0x19
/-- The opcodes that walk windows (R206). -/
def walksWindows (op : Nat) : Bool := decide (0x10 ≤ op ∧ op ≤ 0x16)
/-- The opcode may name an activity bitmap (R196). -/
def mapOk (op : Nat) : Bool := op == 0x10 || op == 0x11 || op == 0x12
/-- K is read and checked (R197). -/
def usesK (op : Nat) : Bool := op != 0x17 && op != 0x19

/-- `LEN_T` is named (R209). -/
def usesLenT (ws : List (BitVec 128)) : Bool :=
  mopNsrc ws == 9 || (usesK (mopOp ws) && mopKsrc ws == 9)

/-- The lanes in use, with their words. -/
def usedLanes (ws : List (BitVec 128)) : List (Nat × Nat) :=
  ((List.range (lanesOf (mopOp ws))).map fun l => (l, mopLane ws l)).filter
    fun p => laneOut p.2 != noHandle

/-- `ROWMAP`, where the opcode has one. -/
def mopMap (ws : List (BitVec 128)) : Nat :=
  if mapOk (mopOp ws) then fld (mopSpec ws) 15 0 else noHandle

/-- The entries of a lane's chain up to `END` (R179); `none` beyond the program's table. -/
def laneChain (v : IssueEnv) (w : Nat) : Option (List Nat) :=
  if laneLen w = 0 then some []
  else if v.chains.length < laneIdx w + laneLen w then none
  else some ((((v.chains.drop (laneIdx w)).take (laneLen w)).map BitVec.toNat).takeWhile
    fun e => chOp e != 0)

/-- The `OP0` entry of an `ELEMWISE` (R196). -/
def op0 (ws : List (BitVec 128)) : List Nat :=
  if mopOp ws = 0x19 ∧ chOp (mopSpec ws) ≠ 0 then [mopSpec ws] else []

/-- Every entry that runs on a lane. -/
def laneOps (v : IssueEnv) (ws : List (BitVec 128)) (w : Nat) : List Nat :=
  op0 ws ++ (laneChain v w).getD []

/-- Handles that a lane reads: scale, bias, chain operands. -/
def laneInputs (v : IssueEnv) (ws : List (BitVec 128)) (w : Nat) : List Nat :=
  ([laneScale w, laneBias w].filter (· != noHandle)) ++
    ((laneOps v ws w).filter fun e => decide (2 ≤ chSrc e ∧ chSrc e ≤ 4)).map chHandle

/-- Inputs in the order of R110 with their `INDEX` codes (R201); the activity bitmap comes last. -/
def mopInputs (v : IssueEnv) (ws : List (BitVec 128)) : List (Nat × Nat) :=
  let op := mopOp ws
  [(0, mopA ws)] ++ (if usesB op then [(1, mopB ws)] else []) ++
  (if usesPre op && mopPre ws != noHandle then [(2, mopPre ws)] else []) ++
  (if usesAux op then [(3, mopAux ws)] else []) ++
  (if usesLenT ws then [(4, mopLenT ws)] else []) ++
  ((usedLanes ws).flatMap fun p => (laneInputs v ws p.2).map fun h => (5 + p.1, h)) ++
  (if mopMap ws = noHandle then [] else [(0xF, mopMap ws)])

/-- Outputs: the lanes, the statistics state, the bitmap of a `PREDICT`. -/
def mopOutputs (ws : List (BitVec 128)) : List (Nat × Nat) :=
  ((usedLanes ws).map fun p => (5 + p.1, laneOut p.2)) ++
  (if statsOk (mopOp ws) && mopState ws != noHandle then [(8, mopState ws)] else []) ++
  (if mopOp ws = 0x18 then [(0xF, fld (mopSpec ws) 15 0)] else [])

/-- Every handle used, by ascending `INDEX`. -/
def mopHandles (v : IssueEnv) (ws : List (BitVec 128)) : List (Nat × Nat) :=
  let all := mopInputs v ws ++ mopOutputs ws
  (List.range 16).flatMap fun i => all.filter fun p => p.1 == i

/-- The first index of a list of (index, fails) pairs that fails. -/
def firstBad (l : List (Nat × Bool)) : Option Nat := (l.find? Prod.snd).map Prod.fst

/-! ### Checks 1 and 2 -/

/-- Check `HANDLE`. -/
def chkHandle (v : IssueEnv) (ws : List (BitVec 128)) : Option Nat :=
  if mopOp ws < 0x10 ∨ 0x19 < mopOp ws then none
  else firstBad ((mopHandles v ws).map fun p => (p.1, (v.descs p.2).isNone))

/-- Check `OPCODE`: a reserved opcode or length source, or an unused handle that is not `0xFFFF`. -/
def chkOpcode (ws : List (BitVec 128)) : Option Nat :=
  let op := mopOp ws
  if op < 0x10 ∨ 0x19 < op then some 0xF
  else if 9 ≤ mopMsrc ws ∨ 9 < mopNsrc ws ∨ (usesK op ∧ 9 < mopKsrc ws) then some 0xF
  else firstBad
    ([(1, !usesB op && mopB ws != noHandle), (2, !usesPre op && mopPre ws != noHandle),
      (3, !usesAux op && mopAux ws != noHandle), (4, !usesLenT ws && mopLenT ws != noHandle)] ++
     ((List.range 3).filter (lanesOf op ≤ ·)).map (fun l =>
       (5 + l, laneOut (mopLane ws l) != noHandle)) ++
     [(8, !statsOk op && mopState ws != noHandle)])

/-! ### Check 3 (R44, R45, R74, R84, R102, R112, R114, R116, R118, R165, R168, R195, R209, R225, R228) -/

/-- An array operand format (R44, R45). -/
def arrayFmt (f : ElemFmt) : Bool := f != .fp32 && f != .int32

/-- The operands may meet (R44): the slot count and whether the accumulator is INT32. -/
def pairSlots (a b : ElemFmt) : Option (Nat × Bool) :=
  let cls (f : ElemFmt) : Nat := match f with
    | .bf16 => 1 | .e4m3 | .e5m2 => 2 | .fp4 => 4 | .int4 => 4 | .int2 => 8 | _ => 0
  if !arrayFmt a || !arrayFmt b || a.isFloat != b.isFloat then none
  else some (min (cls a) (cls b), !a.isFloat)

/-- Formats that may be read transposed (R84, R114). -/
def transposable (c : CFmt) : Bool :=
  match c with
  | .dns | .tnm _ _ | .bsr _ => true
  | _ => false

/-- A role of R74 for A by opcode (R195). -/
def aFmtOk (op : Nat) (c : CFmt) : Bool :=
  match op, c with
  | 0x13, .ohi | 0x14, .ohi => true
  | 0x13, _ | 0x14, _ => false
  | _, .ohi => false
  | 0x11, c | 0x15, c | 0x18, c => c == .dns
  | 0x12, .bmp | 0x12, .csr | 0x12, .coo | 0x12, .bsr _ => true
  | 0x12, _ => false
  | _, _ => true

/-- A role of R74 for B by opcode. -/
def bFmtOk (op : Nat) (c : CFmt) : Bool :=
  match op, c with
  | _, .ohi | _, .coo => false
  | 0x11, c | 0x18, c => c == .dns
  | 0x12, .bmp | 0x12, .csr | 0x12, .bsr _ => true
  | 0x12, _ => false
  | _, _ => true

/-- The mask and scratch formats (R195). -/
def sampled (c : CFmt) : Bool :=
  match c with
  | .bmp | .csr | .coo | .bsr _ => true
  | _ => false

/-- Written formats by opcode (R74, R195). -/
def outFmtOk (op : Nat) (s : Option CFmt) (c : CFmt) : Bool :=
  match op with
  | 0x11 => s == some c
  | 0x12 => sampled c
  | 0x17 => c == .dns || sampled c
  | _ => c == .dns

/-- Layouts that a tagged tensor may have as the streamed operand (R112). -/
def aLayoutOk (op : Nat) (l : Layout) : Bool :=
  op == 0x17 || l == .lin || (l == .ilA8 && op != 0x15 && op != 0x18)

/-- The product accumulates in INT32: by its pair, or by the other operand of an OHI tensor (R88). -/
def mopInt (v : IssueEnv) (ws : List (BitVec 128)) : Bool :=
  let op := mopOp ws
  let isInt (h : Nat) : Bool := match v.descs h with
    | some d => !d.fmt.isFloat
    | none => false
  if op = 0x13 ∨ op = 0x14 then isInt (mopB ws)
  else if op = 0x10 ∨ op = 0x11 ∨ op = 0x12 ∨ op = 0x15 then isInt (mopA ws)
  else if op = 0x17 ∨ op = 0x19 then
    (match v.descs (mopA ws) with
     | some d => d.fmt == .int32
     | none => false)
  else false

/-- A lies in near memory of the core's die, as every operand of a `PREDICT` must (R225). -/
def nearDie (v : IssueEnv) (d : Desc) : Bool :=
  d.reach.all fun r => r.2 == 0 ||
    (decide (nearBase v.die ≤ r.1) && decide (r.1 + r.2 ≤ nearBase v.die + 0x80000000))

/-- An activity-bitmap descriptor for n rows (R228). -/
def bitmapOk (d : Desc) (n : Nat) : Bool :=
  d.rd && d.wr && d.cfmt == .dns && d.layout == .lin && d.fmt == .int32 &&
    d.dims.map (fun x => (x.ext, x.stride)) == [(8 + 2 * cdiv n 32, 1)]

/-- The matrix view of a descriptor, transposed or not (R70). -/
def viewOf (d : Desc) (t : Bool) : Nat × Nat := if t then (d.cols, d.rows) else (d.rows, d.cols)

/-- `PREDICT` operands, with their views (R225): index of the first that breaks the rule. -/
def chkPredict (v : IssueEnv) (ws : List (BitVec 128)) (a b x m : Desc) : Option Nat :=
  let weight (d : Desc) : Bool :=
    d.layout == .lin && d.cfmt == .dns && d.fmt == .int4 && d.blockAxis == 0 && nearDie v d && d.rd
  firstBad
    [(0, !(a.rd && a.layout == .lin && nearDie v a &&
        (a.fmt == .bf16 || a.fmt.fp8 || a.fmt == .fp4 || a.fmt == .int4) &&
        viewOf a (mopTransA ws) == (mopM ws, mopK ws))),
     (1, !weight b || mopTransB ws || b.rows != mopK ws || decide (256 < b.cols)),
     (3, !weight x || viewOf x false != (b.cols, mopN ws)),
     (0xF, !(bitmapOk m (mopN ws) && nearDie v m))]

/-- Operand B of an opcode that has one. -/
def chkB (ws : List (BitVec 128)) (a b : Desc) : Bool :=
  let op := mopOp ws
  !b.rd || !bFmtOk op b.cfmt || (b.layout != .lin && b.layout != .ilB128) ||
    (mopTransB ws && !(transposable b.cfmt && op != 0x15)) || !arrayFmt b.fmt ||
    (op != 0x13 && op != 0x14 && (pairSlots a.fmt b.fmt).isNone) ||
    (op == 0x15 && (b.dims.length != 4 || b.layout != .lin))

/-- A preload (R165). -/
def preOk (d : Desc) (int : Bool) : Bool :=
  d.rd && d.cfmt == .dns && (d.layout == .lin || d.layout == .ilAcc) &&
    (d.fmt == .fp32 || d.fmt == .bf16 || d.fmt.fp8 || d.fmt == .int32) && (d.fmt == .int32) == int

/-- Operand A. -/
def chkA (ws : List (BitVec 128)) (a : Desc) : Bool :=
  let op := mopOp ws
  !a.rd || !aFmtOk op a.cfmt || !aLayoutOk op a.layout ||
    (if op = 0x14 then !mopTransA ws
     else mopTransA ws && (op == 0x13 || op == 0x15 || op == 0x17 || op == 0x19 || !transposable a.cfmt)) ||
    (decide (op ≤ 0x16 ∧ op ≠ 0x13 ∧ op ≠ 0x14) && !arrayFmt a.fmt) ||
    (op == 0x15 && (a.dims.length != 4 || a.layout != .lin ||
      (decide (1 < at0 a.exts 3) && (a.dims.getD 3 ⟨0, 0, 0, 0, 0⟩).stride != 1) ||
      (a.blocked && a.blockAxis != 3)))

/-- Check `OPERAND`. `TRANS_B` of a `COPY` or `ELEMWISE` fails it (R118). DESIGN CHOICE: a wrong `ACCESS`, whose check
R102 calls `ACCESS`, is reported under its code 0x2, where R198 lists R102 (log entry 153). -/
def chkOperand (v : IssueEnv) (ws : List (BitVec 128)) : Option Nat :=
  let op := mopOp ws
  match v.descs (mopA ws) with
  | none => some 0
  | some a =>
    let int := mopInt v ws
    let bBad : Bool := if usesB op && op != 0x18 then
        (match v.descs (mopB ws) with
         | some b => chkB ws a b
         | none => true)
      else (op == 0x17 || op == 0x19) && mopTransB ws
    let compBad := mopComp ws &&
      (int || decide (0x17 ≤ op) || (op == 0x16 && bit (mopSpec ws) 0))
    let preBad : Bool := usesPre op && mopPre ws != noHandle &&
      (match v.descs (mopPre ws) with
       | some p => !preOk p int
       | none => true)
    let auxD := v.descs (mopAux ws)
    let auxBad : Bool :=
      if op = 0x11 then
        (match auxD with
         | some x => !(x.rd && sampled x.cfmt)
         | none => true)
      else if op = 0x12 then
        (match auxD with
         | some x => !(x.rd && x.wr && isNear x.base && x.cfmt != .ohi && x.layout == .lin)
         | none => true)
      else false
    let lenBad : Bool := usesLenT ws &&
      (match v.descs (mopLenT ws) with
       | some d => !(d.rd && d.cfmt == .dns && d.layout == .lin && d.fmt == .int32 &&
           d.exts == [mopM ws])
       | none => true)
    let laneBad (p : Nat × Nat) : Bool :=
      (match v.descs (laneOut p.2) with
       | some o => !(o.wr && outFmtOk op (auxD.map Desc.cfmt) o.cfmt &&
           (op == 0x17 || o.layout == .lin || o.layout == .ilAcc) &&
           (op != 0x16 || o.fmt == .fp32 || o.fmt == .bf16))
       | none => true) ||
      (laneInputs v ws p.2).any fun h => match v.descs h with
        | some d => !(d.rd && d.cfmt != .ohi && d.layout == .lin)
        | none => true
    let stBad : Bool := statsOk op && mopState ws != noHandle &&
      (match v.descs (mopState ws) with
       | some d => !(d.rd && d.wr && d.cfmt != .ohi)
       | none => true)
    let mapBad : Bool := mopMap ws != noHandle &&
      (match v.descs (mopMap ws) with
       | some d => !bitmapOk d (mopM ws)
       | none => true)
    let pred : Option Nat := if op = 0x18 then
        (match v.descs (mopB ws), auxD, v.descs (fld (mopSpec ws) 15 0) with
         | some b, some x, some m => chkPredict v ws a b x m
         | _, _, _ => some 0xF)
      else none
    firstBad [(0, chkA ws a), (1, bBad), (0xF, compBad), (2, preBad), (3, auxBad)] <|> pred <|>
      firstBad (((usedLanes ws).map fun p => (5 + p.1, laneBad p)) ++
        [(4, lenBad), (8, stBad), (0xF, mapBad)])

/-! ### Check 4 (R197, R225, R233) -/

/-- Output extent of a convolution along one axis (R197); 0 where there is none. -/
def convOut (h pad dil f st : Nat) : Nat :=
  let span := dil * (f - 1) + 1
  if st = 0 ∨ f = 0 ∨ h + 2 * pad < span then 0 else (h + 2 * pad - span) / st + 1

/-- The parameters of a `CONV` (R196): σ, δ, π and F for H, then W. -/
def convP (ws : List (BitVec 128)) : (Nat × Nat × Nat × Nat) × (Nat × Nat × Nat × Nat) :=
  let x := mopSpec ws
  ((fld x 7 0, fld x 23 16, fld x 39 32, fld x 55 48),
   (fld x 15 8, fld x 31 24, fld x 47 40, fld x 63 56))

/-- The shape of a `CONV` matches its plan (R117, R197): index of the first operand that does not. -/
def chkConv (ws : List (BitVec 128)) (a b : Desc) : Option Nat :=
  let (h, w) := convP ws
  let ae := a.exts
  let p := convOut (at0 ae 1) h.2.2.1 h.2.1 h.2.2.2 h.1
  let q := convOut (at0 ae 2) w.2.2.1 w.2.1 w.2.2.2 w.1
  firstBad [
    (0xF, h.1 == 0 || w.1 == 0 || h.2.1 == 0 || w.2.1 == 0 || h.2.2.2 == 0 || w.2.2.2 == 0),
    (0, mopM ws != at0 ae 0 * p * q || mopK ws != h.2.2.2 * w.2.2.2 * at0 ae 3),
    (1, b.colAxis != 3 || b.exts != [h.2.2.2, w.2.2.2, at0 ae 3, mopN ws])]

/-- Check `SHAPE`. -/
def chkShape (v : IssueEnv) (ws : List (BitVec 128)) : Option Nat :=
  let op := mopOp ws
  let M := mopM ws
  let N := mopN ws
  let K := mopK ws
  if M = 0 ∨ N = 0 ∨ 0x7FFFFFFF < M ∨ 0x7FFFFFFF < N ∨ (usesK op ∧ (K = 0 ∨ 0x800000 < K)) ∨
      (op = 0x18 ∧ 0x100000 < N) ∨ (mopMap ws ≠ noHandle ∧ 0x100000 < M) ∨
      (op = 0x16 ∧ N ≠ 1 + (mopSpec ws) % 2) then some 0xF
  else match v.descs (mopA ws) with
  | none => some 0
  | some a =>
    let va := viewOf a (mopTransA ws)
    let view (h : Nat) (t : Bool) (e : Nat × Nat) : Bool := match v.descs h with
      | some d => viewOf d t != e
      | none => true
    let aBad : Bool :=
      if op = 0x15 ∨ op = 0x18 then false
      else if op = 0x14 then viewOf a false != (K, M)
      else va != (if op = 0x17 ∨ op = 0x19 then (M, N) else (M, K))
    let bBad : Bool :=
      if op = 0x15 ∨ op = 0x18 ∨ !usesB op then false
      else view (mopB ws) (mopTransB ws) (K, N)
    let conv : Option Nat := if op = 0x15 then
        (match v.descs (mopB ws) with
         | some b => chkConv ws a b
         | none => some 1)
      else none
    let preBad := usesPre op && mopPre ws != noHandle && view (mopPre ws) false (M, N)
    let auxBad := op == 0x11 && view (mopAux ws) false (M, N)
    let laneBad (p : Nat × Nat) : Bool := match v.descs (laneOut p.2) with
      | some o =>
        if op = 0x17 then o.exts != a.exts
        else if op = 0x11 then
          (match v.descs (mopAux ws) with
           | some x => o.exts != x.exts || o.colAxis != x.colAxis
           | none => true)
        else viewOf o false != (M, N)
      | none => true
    firstBad [(0, aBad), (1, bBad)] <|> conv <|>
      firstBad ([(2, preBad), (3, auxBad)] ++ (usedLanes ws).map fun p => (5 + p.1, laneBad p))

/-! ### Check 5 (R177 to R179, R182) -/

/-- A per-column or per-row vector of an extent (R177). -/
def vecOk (v : IssueEnv) (h n : Nat) : Bool :=
  match v.descs h with
  | some d => d.cfmt == .dns && d.layout == .lin && (d.fmt == .fp32 || d.fmt == .bf16) && d.exts == [n]
  | none => false

/-- Operand sources that an operation allows (R179). -/
def srcOk (op src : Nat) : Bool :=
  if 1 ≤ op ∧ op ≤ 5 then decide (1 ≤ src ∧ src ≤ 4)
  else if op = 6 then src == 1
  else if 7 ≤ op ∧ op ≤ 12 then src == 0
  else false

/-- A chain entry is legal on a lane. -/
def entryOk (v : IssueEnv) (ws : List (BitVec 128)) (out e : Nat) : Bool :=
  srcOk (chOp e) (chSrc e) && (chOp e != 6 || decide (chImm e % 16 ≤ 7)) &&
    (match chSrc e with
     | 2 => vecOk v (chHandle e) (mopN ws)
     | 3 => vecOk v (chHandle e) (mopM ws)
     | 4 =>
       (match v.descs (chHandle e), v.descs out with
        | some d, some o => d.cfmt == .dns && d.exts == o.exts
        | _, _ => false)
     | _ => true)

/-- A lane in use breaks R177 to R179. -/
def laneBad (v : IssueEnv) (ws : List (BitVec 128)) (w : Nat) : Bool :=
  let ops := laneOps v ws w
  decide (7 < laneAct w) || decide (8 < laneLen w) || (decide (laneLen w ≠ 0) && !v.fuse) ||
    (laneScale w != noHandle && !vecOk v (laneScale w) (mopN ws)) ||
    (laneBias w != noHandle && !vecOk v (laneBias w) (mopN ws)) ||
    (laneChain v w).isNone || !(ops.all fun e => entryOk v ws (laneOut w) e) ||
    decide (2 < (ops.filter fun e => decide (2 ≤ chSrc e)).length)

/-- Words of 32 bits or less that make the 16 bytes of a state record (R181). -/
def stateOk (d : Desc) (m : Nat) : Bool :=
  d.cfmt == .dns && d.layout == .lin && !d.blocked && decide (prodL d.exts * d.fmt.width = 128 * m)

/-- Check `LANE`. -/
def chkLane (v : IssueEnv) (ws : List (BitVec 128)) : Option Nat :=
  firstBad (((usedLanes ws).map fun p => (5 + p.1, laneBad v ws p.2)) ++
    [(8, statsOk (mopOp ws) && mopState ws != noHandle &&
      (match v.descs (mopState ws) with
       | some d => !stateOk d (mopM ws)
       | none => true))])

/-! ### Checks 6, 7 and 9 (R110, R207, R208) -/

/-- Slots of a tile (R207). -/
def tileSlots (ws : List (BitVec 128)) : Nat := if mopComp ws then 2 else 1

/-- The window reservation of an operand (R208). -/
def windowBytes (d : Desc) : Nat :=
  match d.cfmt with
  | .ohi => 512
  | c =>
    let w := if d.hasSpill then 8 else d.fmt.width
    2048 * w + (if d.scaled then 512 else 0) +
      (match c with
       | .bmp => 3072
       | .nm _ _ | .tnm _ _ => 2048
       | .csr => 66560
       | .coo => 131072
       | .bsr _ => 4096
       | _ => 0)

/-- Checks `SLOTS` and `BUFFER`. -/
def chkFit (v : IssueEnv) (ws : List (BitVec 128)) : Option IssueErr :=
  let res (h : Nat) : Nat := match v.descs h with
    | some d => windowBytes d
    | none => 0
  if 64 < 2 * mopG ws * tileSlots ws then some (6, 5, 0xF)
  else if 6291456 < 2 * mopG ws * (res (mopA ws) + (if usesB (mopOp ws) then res (mopB ws) else 0)) then
    some (6, 6, 0xF)
  else none

/-- Two descriptors are identical in the sense of R110. The stride of a dimension of extent 1 is ignored (R107). -/
def sameTensor (a b : Desc) : Bool :=
  let shape (d : Desc) := d.dims.map fun x => (x.ext, if x.ext = 1 then 0 else x.stride)
  a.base == b.base && shape a == shape b &&
    a.fmt == b.fmt && a.cfmt == b.cfmt && a.layout == b.layout

/-- Whether an input may be the same tensor as the output of a lane: a preload, an `ELEMWISE` operand,
or a tensor operand of that lane's own chain (R110, R179). -/
def mayShare (v : IssueEnv) (ws : List (BitVec 128)) (i h o : Nat) : Bool :=
  let tensorOp (l : List Nat) : Bool := l.any fun e => chSrc e == 4 && chHandle e == h
  decide (5 ≤ o ∧ o ≤ 7) &&
    (i == 2 || (i == 0 && mopOp ws == 0x19) ||
      (decide (5 ≤ i ∧ i ≤ 7) &&
        (tensorOp (op0 ws) || (i == o && tensorOp (laneOps v ws (mopLane ws (o - 5)))))))

/-- Check `ALIAS` (R110). -/
def chkAlias (v : IssueEnv) (ws : List (BitVec 128)) : Option Nat :=
  firstBad ((mopInputs v ws).map fun p => (p.1, (mopOutputs ws).any fun o =>
    match v.descs p.2, v.descs o.2 with
    | some a, some b => reachOverlap a.reach b.reach &&
        !(sameTensor a b && mayShare v ws p.1 p.2 o.1)
    | _, _ => false))

/-- Checks 1 to 5 of R198, which a loader also runs (R217). -/
def checkStatic (v : IssueEnv) (ws : List (BitVec 128)) : Option IssueErr :=
  ((chkHandle v ws).map fun i => (1, 0, i)) <|> ((chkOpcode ws).map fun i => (4, 1, i)) <|>
  ((chkOperand v ws).map fun i => (4, 2, i)) <|> ((chkShape v ws).map fun i => (4, 3, i)) <|>
  ((chkLane v ws).map fun i => (4, 4, i))

/-! ### Run-time lengths (R209, R210) -/

/-- The state as an issue environment for a core. -/
def State.issueEnv (s : State) (c : Nat) : IssueEnv :=
  { descs := fun h => (s.desc h).map DescSlot.desc,
    chains := match s.prog with
      | some p => p.chains
      | none => [],
    fuse := match s.prog with
      | some p => p.fuse
      | none => decide (s.regF (Reg.DRN_CTL c) 0 0 = 1),
    die := c / 9 }

/-- Entry m of `LEN_T`. -/
def Rd.lenAt (r : Rd) (d : Desc) (m : Nat) : Nat := r.code d.base (d.offset [m]) 32

/-- The entries of `LEN_T`, and whether one is poisoned. -/
def State.lenEntries (s : State) (d : Desc) : List Nat × Bool :=
  let ms := List.range (at0 d.exts 0)
  (ms.map (s.rd.lenAt d), ms.any fun m => s.rd.codeBad d.base (d.offset [m]) 32)

/-- The length that a source gives. -/
def State.lenOf (s : State) (c src plan : Nat) : Nat :=
  if 1 ≤ src ∧ src ≤ 8 then (s.reg (Reg.SEQ_LEN c (src - 1))).toNat else plan

/-- Check `LENGTH` (R210, R212): the lengths, or the failure and whether a poisoned entry caused it. -/
def State.readLens (s : State) (c : Nat) (ws : List (BitVec 128)) : Except (IssueErr × Bool) Lens :=
  let useK := usesK (mopOp ws)
  let ent : List Nat × Bool := if usesLenT ws then
      (match s.desc (mopLenT ws) with
       | some d => s.lenEntries d.desc
       | none => ([], false))
    else ([], false)
  let m := s.lenOf c (mopMsrc ws) (mopM ws)
  let n := s.lenOf c (mopNsrc ws) (mopN ws)
  let k := if useK then s.lenOf c (mopKsrc ws) (mopK ws) else 0
  let tooLong (plan : Nat) (named : Bool) : Bool := named && ent.1.any (plan < ·)
  if ent.2 then .error ((1, 0, 4), true)
  else if mopM ws < m then .error ((5, 7, 0xF), false)
  else if mopN ws < n then .error ((5, 7, 0xF), false)
  else if tooLong (mopN ws) (mopNsrc ws == 9) then .error ((5, 7, 4), false)
  else if useK ∧ mopK ws < k then .error ((5, 7, 0xF), false)
  else if tooLong (mopK ws) (useK && mopKsrc ws == 9) then .error ((5, 7, 4), false)
  else .ok { m := m, n := n, k := k, rowN := if mopNsrc ws = 9 then ent.1 else [],
             rowK := if useK ∧ mopKsrc ws = 9 then ent.1 else [] }

/-- Every check of R198 in order. -/
def State.checkIssue (s : State) (c : Nat) (ws : List (BitVec 128)) : Except (IssueErr × Bool) Lens :=
  let v := s.issueEnv c
  match checkStatic v ws <|> chkFit v ws with
  | some e => .error (e, false)
  | none =>
    match s.readLens c ws with
    | .error e => .error e
    | .ok l =>
      match chkAlias v ws with
      | some i => .error ((3, 8, i), false)
      | none => .ok l

end Sys2Proof.Machine
end

