-- ==== Sys2Proof/Machine/Views.lean ====
section
/-! DEFINITION. Reads of the control space: registers that other state computes, latches and
clear-on-read (R8, R9). -/

namespace Sys2Proof.Machine

open Sys2Proof

/-- Bit 8 of an island status register (R38, R470). -/
def State.viewIsland (s : State) (a i : Nat) : Word :=
  BitVec.ofNat 32 (setFld (s.reg a).toNat 8 8 (s.xingReady i).toNat)

/-- `EVC_STAT` mirrors the `OVF` bits (R475). -/
def State.viewEvcStat (s : State) (b : Nat) : Word :=
  BitVec.ofNat 32 (((List.range (evcSize b)).map fun i => if s.evcOvf b i then 2 ^ i else 0).sum)

/-- Word j of the breach record that `FLT_LOG_IDX` names (R413): 0 when it has been overwritten or is
not yet written. -/
def State.viewLog (s : State) (j : Nat) : Word :=
  let head := (s.reg Reg.FLT_LOG_HEAD).toNat
  let idx := (s.reg Reg.FLT_LOG_IDX).toNat
  if idx < head then
    match s.breaches[head - 1 - idx]? with
    | some r => BitVec.ofNat 32 (leNat ((r.bytes.drop (4 * j)).take 4))
    | none => 0
  else 0

/-- Whole packets waiting in queues 4j to 4j + 3 (R146, R154). DESIGN CHOICE: a word of a data-class queue
is a packet by itself (log entry 127). -/
def State.viewPkt (s : State) (c j : Nat) : Word :=
  let k := s.core c
  if j = 0 then
    BitVec.ofNat 32 ((k.cmdq.filter CmdWord.last).length + 2 ^ 8 * k.cplq.length +
      2 ^ 16 * k.aq.length + 2 ^ 24 * k.bq.length)
  else BitVec.ofNat 32 (k.ixq.length + 2 ^ 8 * k.wfq.length + 2 ^ 16 * k.sumq.length +
    2 ^ 24 * k.drq.length)

/-- The edge-die half that reads a sensor (R20, R453, R464): that of its die, ED0 half 0 for the board's. -/
def sensorHalf (j : Nat) : Nat :=
  let ofDie (d : Nat) := [0, 1, 0, 3, 2, 3].getD d 0
  if 16 ≤ j ∧ j < 22 then ofDie (j - 16)
  else if 22 ≤ j ∧ j < 26 then j - 22
  else if 32 ≤ j ∧ j < 86 then ofDie ((j - 32) / 9)
  else if 88 ≤ j ∧ j < 94 then ofDie (j - 88)
  else if 94 ≤ j ∧ j < 98 then j - 94
  else if 146 ≤ j ∧ j < 200 then ofDie ((j - 146) / 9)
  else 0

/-- `TEL_SENSOR_j`: not valid once its half is lost (R453, R464). -/
def State.viewSensor (s : State) (j : Nat) : Word :=
  if s.lostPolders.contains (6 + sensorHalf j) then s.reg (Reg.TEL_SENSOR j) &&& 0x7FFFFFFF#32
  else s.reg (Reg.TEL_SENSOR j)

/-- The walk of a macro-operation has ended: its last group waits for the drain or is in it. -/
def RunMop.walked (m : RunMop) : Bool :=
  m.groups.isEmpty && m.grp.isEmpty && m.tail.isEmpty && m.segsLeft == 0

/-- The tile that the drain serves next or is at: the earlier run's first (R202). -/
def CoreSt.draining (k : CoreSt) : Option (RunMop × Nat) :=
  let front (m : RunMop) : Option (RunMop × Nat) := m.drainQ.head?.map fun t => (m, t)
  (k.prev.bind front) <|> (k.cur.bind front)

/-- `DRN_STAT` (R185): a tile is being drained from the moment it stands first at the drain (DESIGN CHOICE,
log entry 87). -/
def viewDrn (k : CoreSt) : Word :=
  match k.draining with
  | none => 0
  | some (m, t) =>
    let lanes := ((usedLanes m.words).map fun p => 2 ^ p.1).sum +
      (if statsOk (mopOp m.words) && mopState m.words != noHandle then 8 else 0)
    BitVec.ofNat 32 (2 ^ 16 + t % 64 * 2 ^ 8 + lanes)

/-- `SEQ_STAT` (R220). -/
def viewSeq (k : CoreSt) : Word :=
  let op := match k.cur with
    | some m => if m.walked then 0 else fld (m.words.getD 0 0).toNat 7 0
    | none => 0
  let drain := k.prev.isSome || (match k.cur with
    | some m => m.walked && !m.drainQ.isEmpty
    | none => false)
  let seg := match k.seg with
    | some g => g.phase * 2 ^ 16 + 2 ^ 15 + (g.pkt - 1) % 2 ^ 14
    | none => 0
  BitVec.ofNat 32 (op * 2 ^ 24 + seg + drain.toNat * 2 ^ 14)

/-- `FDR_STAT` (R151): `BUSY` while the packer has pending rows. -/
def viewFdr (w : Word) (k : CoreSt) : Word := BitVec.ofNat 32 (setFld w.toNat 0 0 k.pack.isSome.toNat)

/-- `ACC_STAT` (R186): `LIVE`. -/
def viewAcc (w : Word) (k : CoreSt) : Word := BitVec.ofNat 32 (setFld w.toNat 14 8 k.tiles.length)

/-- `PRD_STAT` (R240). -/
def viewPrd (t : DieSt) : Word :=
  let layer := match t.pred with
    | some p => fld (p.req.words.getD 3 0).toNat 87 80
    | none => 0
  BitVec.ofNat 32 (layer * 2 ^ 24 + min t.predQ.length 9 * 2 ^ 16 + t.pred.isSome.toNat)

/-- The runs of an engine. -/
def EngineSt.runs (e : EngineSt) : List (Nat × GrpRun) :=
  e.groups.filterMap fun x => x.2.map fun r => (x.1 / 2, r)

/-- `UPD_STAT` of an engine (R309): between a pass 2 and its local-done the pass runs. -/
def State.viewUpd (s : State) (n : Nat) : Word :=
  let rs := (s.engine n).runs
  let p1 := (rs.filter fun r => !r.2.normSent).length
  let wait := rs.any fun r => r.2.norm.isSome && !r.2.pass2 && !r.2.skipped &&
    decide ((s.reg Reg.GLB_STEP_NUM).toNat + 1 < r.2.step.toNat)
  let p2 := rs.find? fun r => r.2.pass2 && !r.2.localDone
  BitVec.ofNat 32 (min p1 0xFFF * 2 ^ 16 + wait.toNat * 2 ^ 13 +
    (match p2 with
     | some r => 2 ^ 12 + r.1
     | none => 0))

/-- `CLV_COLL_STAT` of a half (R347): a staged partial that waits there, else the collective that the half
works on, which the register holds. -/
def State.viewColl (s : State) (h : Nat) (w : Word) : Word :=
  match s.staged.find? fun x => x.half == h with
  | some x => BitVec.ofNat 32 (2 ^ 31 + x.coll)
  | none => w

/-- What a register reads as: the word held, or what other state makes of it. -/
def State.view (s : State) (a : Nat) : Word :=
  let w := a / 0x01000000
  let off := a % 0x01000000
  if w = 0 then
    if 0x220 ≤ off ∧ off < 0x240 then s.viewLog ((off - 0x220) / 4)
    else if 0x800 ≤ off ∧ off < 0xC00 then s.viewSensor ((off - 0x800) / 4)
    else s.reg a
  else if w < 7 then
    if off < 0x00100000 then
      if off = 8 then s.viewIsland a (53 + w)
      else if off = 0xC0804 then s.viewEvcStat (53 + w)
      else if off = 0x8004 then viewPrd (s.die (w - 1))
      else s.reg a
    else
      let c := (w - 1) * 9 + (off / 0x00100000 - 1)
      let o := off % 0x00100000
      if o = 8 then s.viewIsland a c
      else if o = 0x14 ∨ o = 0x18 then s.viewPkt c ((o - 0x14) / 4)
      else if o = 0xF804 then s.viewEvcStat c
      else if o = 0x4004 then viewSeq (s.core c)
      else if o = 0x5004 then viewFdr (s.reg a) (s.core c)
      else if o = 0x6004 then viewDrn (s.core c)
      else if o = 0x7000 then viewAcc (s.reg a) (s.core c)
      else s.reg a
  else
    if off = 8 then s.viewIsland a (53 + w)
    else if off = 0xC0804 then s.viewEvcStat (53 + w)
    else if off = 0x20004 ∨ off = 0x21004 then s.viewUpd (2 * (w - 7) + (off - 0x20004) / 0x1000)
    else if off = 0x2000C ∨ off = 0x2100C then
      satWord (s.engine (2 * (w - 7) + (off - 0x2000C) / 0x1000)).pend.length
    else if off = 0x31000 ∨ off = 0x31100 then s.viewColl (2 * (w - 7) + (off - 0x31000) / 0x100) (s.reg a)
    else if 0x30000 ≤ off ∧ off < 0x30800 ∧ 0x50 ≤ off % 0x100 ∧ off % 0x100 < 0x60 then
      BitVec.ofNat 32 (at0 (s.link ((w - 7) * 8 + (off - 0x30000) / 0x100)).held
        (off % 0x100 / 4 - 0x14))
    else s.reg a

/-- Clear-on-read fields of a register are cleared, and a threshold event of the counter may be logged
again (R9, R499). -/
def State.clearRc (s : State) (a : Nat) (rc : Nat) : State :=
  if rc = 0 then s
  else
    { s.setReg a (s.reg a &&& ~~~(BitVec.ofNat 32 rc)) with thrFired := s.thrFired.erase a }

/-- The latch of an accessor. -/
def State.latchOf (s : State) (acc : Nat) : Option (Nat × Word) :=
  SMap.get (fun _ => none) s.latch acc

/-- A latch is replaced. -/
def State.setLatch (s : State) (acc : Nat) (v : Option (Nat × Word)) : State :=
  { s with latch := SMap.set (fun _ => none) s.latch acc v }

/-! #### The pair of audit counters (R243) -/

/-- The latch of the miss counter of a layer: beside the latches of the accessors, since any read of
`PRD_AUD_ROWS_l` sets it (DEDUCED, log entry 56). -/
def audKey (d l : Nat) : Nat := 16 + 256 * d + l

/-- A read of `PRD_AUD_ROWS_l`. -/
def State.readAudRows (s : State) (d l : Nat) : Word × State :=
  let a := Reg.PRD_AUD_ROWS d l
  let m := Reg.PRD_AUD_MISS d l
  (s.reg a, (s.setLatch (audKey d l) (some (m, s.reg m))).clearRc a 0xFFFFFFFF)

/-- A read of `PRD_AUD_MISS_l`: the latched value, which is subtracted; without a latch the counter reads
and clears as any other. -/
def State.readAudMiss (s : State) (d l : Nat) : Word × State :=
  let m := Reg.PRD_AUD_MISS d l
  match s.latchOf (audKey d l) with
  | some (_, v) =>
    let s' := (s.setLatch (audKey d l) none).setReg m (BitVec.ofNat 32 ((s.reg m).toNat - v.toNat))
    (v, { s' with thrFired := s'.thrFired.erase m })
  | none => (s.reg m, s.clearRc m 0xFFFFFFFF)

/-- The audit counter at an address: die, layer, and true for the misses. -/
def audAt (a : Nat) : Option (Nat × Nat × Bool) :=
  let off := a % 0x01000000
  if a % 4 = 0 ∧ 0x01000000 ≤ a ∧ a < 0x07000000 ∧ 0x8800 ≤ off ∧ off < 0x9000 then
    some (a / 0x01000000 - 1, (off - 0x8800) / 4 % 256, decide (0x8C00 ≤ off))
  else none

/-- A read of a register that is no audit counter: a low word latches the high word; the next read of the
high word returns it (DEDUCED, log entry 15: once). DESIGN CHOICE: an accessor has one latch, so the low word
of another pair replaces it, and the first pair's high word then reads as the register (log entry 134). -/
def State.readPlain (s : State) (acc a : Nat) (r : RegRow) : Word × State :=
  let v := s.view a
  if r.pair then
    (v, (s.setLatch acc (some (a, s.view (a + 4)))).clearRc a r.rc)
  else
    match s.latchOf acc with
    | some (lo, hi) =>
      if lo + 4 = a then (hi, (s.setLatch acc none).clearRc a r.rc) else (v, s.clearRc a r.rc)
    | none => (v, s.clearRc a r.rc)

/-- A read of the control space by an accessor (R8, R9, R11, R243): the value, and the state after it. -/
def State.readReg (s : State) (acc : Nat) (a : Nat) : Word × State :=
  match regRow a with
  | none => (0, s.unmapped a false)
  | some r =>
    match audAt a with
    | some (d, l, true) => s.readAudMiss d l
    | some (d, l, false) => s.readAudRows d l
    | none => s.readPlain acc a r

/-- A read whose value stays with its accessor. -/
def State.readTo (s : State) (acc : Nat) (a : Nat) : State :=
  let r := s.readReg acc a
  { r.2 with readData := SMap.set (fun _ => 0) r.2.readData acc r.1 }

/-! ### Commands -/

/-- REGISTER_READ (R8, R9) by firmware or a management core. -/
def execRegisterRead (a : Accessor) (addr : BitVec 32) (s : State) : Out :=
  .next (s.readTo a addr.toNat)

/-- PRD_AUD_ROWS_READ (R243). -/
def execPrdAudRowsRead (a : Accessor) (d : Die) (l : Fin 256) (s : State) : Out :=
  .next (s.readTo a (Reg.PRD_AUD_ROWS d l))

/-- PRD_AUD_MISS_READ (R243). -/
def execPrdAudMissRead (a : Accessor) (d : Die) (l : Fin 256) (s : State) : Out :=
  .next (s.readTo a (Reg.PRD_AUD_MISS d l))

end Sys2Proof.Machine
end

