-- ==== Sys2Proof/Machine/Walk.lean ====
section
/-! DEFINITION. The tile walk of a core (R203 to R206, R211, R233): pairs in Hilbert order, groups, the
rows of A and B as the feeder reads them, visited windows, and the drops that reading counts. -/

namespace Sys2Proof.Machine

open Sys2Proof

/-! ### Crossings -/

/-- The core runs: its clock runs and its crossings have completed R27. -/
def State.coreRuns (s : State) (c : Nat) : Bool := decide (s.pstate c = 0) && (s.island c).ready

/-- The core runs, and its crossing with its die's NoC is ready on both sides (R27). -/
def State.coreLinked (s : State) (c : Nat) : Bool := s.coreRuns c && (s.island (54 + c / 9)).ready

/-! ### Operand buffer -/

/-- The bank and the word in it at which granule j, of 4 bytes, of row r of a tile or BSR block stands (R115):
diagonal addressing over 128 banks. Which base word a tile gets the spec does not say (log entry 50), so that
the buffer's bytes are held by the addresses that they were filled from. -/
def granulePlace (base r j : Nat) : Nat × Nat := ((r + j) % 128, base + j)

/-- The banks that one pass reads: for a row of n granules, and for granule j of the 128 rows of a tile, from
which a transposed reading takes a column (R115). -/
def rowPass (r n : Nat) : List Nat := (List.range n).map fun j => (granulePlace 0 r j).1
def columnPass (j : Nat) : List Nat := (List.range 128).map fun r => (granulePlace 0 r j).1

/-- Bytes as the feeder of a core reads them, from the operand buffer. DESIGN CHOICE: a byte that no `OPERAND_FILL`
has brought there arrives from memory as it is read (log entry 155). -/
def State.coreRd (s : State) (c : Nat) : Rd :=
  let k := s.core c
  { byte := fun a => match SMap.find k.opbuf a with
      | some (some b) => b
      | _ => Memory.byte s.mem a,
    bad := fun a => match SMap.find k.opbuf a with
      | some (some _) => k.opPoison.contains (poisonUnit a)
      | _ => s.poison.contains (poisonUnit a) }

/-! ### The Hilbert walk (R203) -/

/-- One level of the curve: from side s with position t. -/
def hilbertStep : Nat → Nat → Nat → Nat → Nat → Nat × Nat
  | 0, _, _, x, y => (x, y)
  | n + 1, s, t, x, y =>
    let rx := t / 2 % 2
    let ry := (t % 2 + rx) % 2
    let p := if ry = 0 then (if rx = 1 then (s - 1 - y, s - 1 - x) else (y, x)) else (x, y)
    hilbertStep n (2 * s) (t / 4) (p.1 + s * rx) (p.2 + s * ry)

/-- The point at position d of the curve over a square of side 2^h. -/
def hilbert (h d : Nat) : Nat × Nat := hilbertStep h 1 d 0 0

/-- The smallest h with 2^h ≥ n. -/
def ceilLog2 (n : Nat) : Nat := if n ≤ 1 then 0 else Nat.log2 (n - 1) + 1

/-- The pairs of an MB × NT grid in curve order. -/
def hilbertPairs (mb nt : Nat) : List (Nat × Nat) :=
  let h := ceilLog2 (max mb nt)
  ((List.range (4 ^ h)).map (hilbert h)).filter fun p => decide (p.1 < mb ∧ p.2 < nt)

/-- Consecutive groups of g. -/
def groupsOf {α : Type} (g : Nat) : Nat → List α → List (List α)
  | 0, _ => []
  | n + 1, l => if l.isEmpty then [] else l.take g :: groupsOf g n (l.drop g)

/-! ### The plan of a run -/

def RunMop.op (m : RunMop) : Nat := mopOp m.words
def RunMop.dA (m : RunMop) : Option Desc := (m.descs.find? fun p => p.1 == mopA m.words).map Prod.snd
def RunMop.dB (m : RunMop) : Option Desc :=
  if usesB m.op then (m.descs.find? fun p => p.1 == mopB m.words).map Prod.snd else none
/-- A copied descriptor by handle. -/
def RunMop.desc (m : RunMop) (h : Nat) : Option Desc := (m.descs.find? fun p => p.1 == h).map Prod.snd
def RunMop.M (m : RunMop) : Nat := mopM m.words
def RunMop.N (m : RunMop) : Nat := mopN m.words
/-- The k-windows within `K_PLAN`; none where no window is visited (R206). -/
def RunMop.windows (m : RunMop) : Nat := if walksWindows m.op then cdiv (mopK m.words) 128 else 0

/-- k_m: the length of row m (R211). -/
def RunMop.kOf (m : RunMop) (i : Nat) : Nat :=
  if m.rowLenK.isEmpty then m.kLen else min m.kLen (at0 m.rowLenK i)

/-- N′ for row m: the first column that is not written (R211). -/
def RunMop.nOf (m : RunMop) (i : Nat) : Nat :=
  if m.rowLenN.isEmpty then m.nLen else min m.nLen (at0 m.rowLenN i)

/-- Row m is active, or is an audit row (R233). -/
def RunMop.active (m : RunMop) (i : Nat) : Bool :=
  match m.rowMap with
  | none => true
  | some p => p.allOn || bit p.active i

/-- Row m is an audit row. -/
def RunMop.audit (m : RunMop) (i : Nat) : Bool :=
  match m.rowMap with
  | none => false
  | some p => !p.allOn && !bit p.active i && bit p.audit i

/-- Row m may be pending (R133, R233). -/
def RunMop.computed (m : RunMop) (i : Nat) : Bool := m.active i || m.audit i

/-- A pair is skipped (R211). -/
def RunMop.skipped (m : RunMop) (x y : Nat) : Bool :=
  decide (m.mLen ≤ 128 * x) || decide (m.nLen ≤ 128 * y) ||
    (!m.rowLenN.isEmpty && (List.range 128).all fun i =>
      decide (m.mLen ≤ 128 * x + i) || decide (at0 m.rowLenN (128 * x + i) ≤ 128 * y))

/-- The kind of the run's tiles (R164): the integer formats by their pair, `NORMSTAT` by `FORM`. -/
def RunMop.kind (m : RunMop) : TileKind :=
  let comp := mopComp m.words
  let isInt (d : Option Desc) : Bool := match d with
    | some d => !d.fmt.isFloat
    | none => false
  let ohiA := m.op == 0x13 || m.op == 0x14
  if m.op = 0x16 then
    (if bit (mopSpec m.words) 0 then .meanVar else if comp then .sumsqComp else .sumsq)
  else if m.op = 0x17 ∨ m.op = 0x19 then
    (match m.dA with
     | some d => if d.fmt = .int32 then .int32 else .fp32
     | none => .fp32)
  else if isInt (if ohiA then m.dB else m.dA) then .int32
  else if comp then .comp
  else .fp32

/-- The format of the values that enter the array as A; for OHI, the other operand's (R88). -/
def RunMop.aFmt (m : RunMop) : ElemFmt :=
  match (if m.op = 0x13 ∨ m.op = 0x14 then m.dB else m.dA) with
  | some d => d.fmt
  | none => .bf16

def RunMop.bFmt (m : RunMop) : ElemFmt :=
  match m.dB with
  | some d => d.fmt
  | none => m.aFmt

/-- The slot count s (R44). -/
def RunMop.slots (m : RunMop) : Nat :=
  match pairSlots m.aFmt m.bFmt with
  | some p => p.1
  | none => 1

/-- The code of 1. -/
def oneCode : ElemFmt → Nat
  | .bf16 => 0x3F80 | .e4m3 => 0x38 | .e5m2 => 0x3C | .fp4 => 2 | .fp32 => 0x3F800000
  | _ => 1

/-- The units of memory that hold elements of dense tensors and their scale bytes, each once (R106, R252). -/
def elemUnits (l : List (Desc × List Nat)) : List Nat :=
  (l.flatMap fun p =>
    poisonUnit (codeByte p.1.base (p.1.offset p.2) p.1.fmt.width) ::
      (if p.1.scaled then [poisonUnit (p.1.abase 2 + (p.1.blockOf p.2).1)] else [])).dedup

/-- Elements are read from memory, which the islands that serve them count (R264, R273, R476). -/
def State.readElems (s : State) (l : List (Desc × List Nat)) : State := (elemUnits l).foldl State.readUnit s

/-- The same for the feeder of a core, where the operand buffer does not hold them (R127). -/
def State.feedElems (s : State) (c : Nat) (l : List (Desc × List Nat)) : State :=
  ((elemUnits l).filter fun u => (SMap.find (s.core c).opbuf u).isNone).foldl State.readUnit s

/-! ### Rows of A and B -/

/-- Row m of the sliding-window operand of a `CONV` (R116). -/
def Rd.convRow (r : Rd) (ws : List (BitVec 128)) (d : Desc) (i : Nat) : RowRead :=
  let (h, w) := convP ws
  let e := d.exts
  let p := convOut (at0 e 1) h.2.2.1 h.2.1 h.2.2.2 h.1
  let q := convOut (at0 e 2) w.2.2.1 w.2.1 w.2.2.2 w.1
  let ch := at0 e 3
  let n := i / (p * q)
  let pp := i / q % p
  let qq := i % q
  (List.range (h.2.2.2 * w.2.2.2)).foldl (fun a t =>
    let y := pp * h.1 + t / w.2.2.2 * h.2.1
    let x := qq * w.1 + t % w.2.2.2 * w.2.1
    if h.2.2.1 ≤ y ∧ y - h.2.2.1 < at0 e 1 ∧ w.2.2.1 ≤ x ∧ x - w.2.2.1 < at0 e 2 then
      (List.range ch).foldl (fun a cc =>
        let ix := [n, y - h.2.2.1, x - w.2.2.1, cc]
        a.push (d.viewPos ix).1 (t * ch + cc) (r.elem d ix) (d.blockOf ix).1) a
    else a) RowRead.empty

/-- The index of row i of a `GATHER` that survives and is injected (R139, R211). -/
def RunMop.gatherIdx (m : RunMop) (i : Nat) : Option Nat :=
  ((m.merged.find? fun p => p.2 == i).map Prod.fst).bind fun k =>
    if i < m.mLen ∧ k < m.kOf i then some k else none

/-- The row that a `GATHER` computes for row i in n-tile y: the lowest row of i's segment with its index
whose pair is walked (R138, R139). -/
def RunMop.leader (m : RunMop) (y i : Nat) : Option Nat :=
  (m.gatherIdx i).bind fun k =>
    ((m.merged.filter fun p => p.1 == k && p.2 / 65536 == i / 65536).map Prod.snd).find? fun j =>
      m.gatherIdx j == some k && !m.skipped (j / 128) y

/-- The fan-out list of a computed row of a `GATHER` (R139): the rows that it serves, ascending. -/
def RunMop.served (m : RunMop) (y i : Nat) : List Nat :=
  match m.gatherIdx i with
  | none => []
  | some k =>
    (((m.merged.filter fun p => p.1 == k && p.2 / 65536 == i / 65536).map Prod.snd).filter fun j =>
      m.leader y j == some i).foldl insertSorted []

/-- Row i of the streamed operand for n-tile y. Rows of an OHI tensor come from the merge unit: the value 1 at
each index, in ascending order; of the rows of a `GATHER` with one index only the computed one (R139, R140). -/
def State.aRow (s : State) (c : Nat) (m : RunMop) (y i : Nat) : RowRead :=
  let r := s.coreRd c
  let ohi (l : List Nat) : RowRead :=
    { RowRead.empty with ents := l.map fun k => ⟨k, oneCode m.aFmt, 0x7F, false, false⟩ }
  match m.dA with
  | none => RowRead.empty
  | some d =>
    if m.op = 0x13 then ohi (if m.leader y i = some i then (m.gatherIdx i).toList else [])
    else if m.op = 0x14 then
      ohi ((m.merged.filter fun p => p.1 == i).foldl (fun l p => insertSorted l p.2) [])
    else if m.op = 0x15 then r.convRow m.words d i
    else r.row d (mopTransA m.words) i

/-- Row k of the stationary operand, within an n-tile, and the drops of it that a load there reads: those
placed in the tile and those without a place (R91), which every load of the row's window reads, whatever its n-tile
(DESIGN CHOICE, log entry 154). -/
def State.bRow (s : State) (c : Nat) (m : RunMop) (y k : Nat) : RowRead :=
  match m.dB with
  | none => RowRead.empty
  | some d =>
    let kRows := if mopTransB m.words then d.cols else d.rows
    if kRows ≤ k then RowRead.empty
    else
      let a := (s.coreRd c).row d (mopTransB m.words) k
      { a.window y with drops := (a.window y).drops ++ a.placeless }

/-- The occupancy bitmap of window w and n-tile y (R75): the occupied rows k. -/
def State.occupied (s : State) (c : Nat) (m : RunMop) (w y : Nat) : List Nat :=
  (List.range' (128 * w) 128).filter fun k => !(s.bRow c m y k).ents.isEmpty

/-- What the intersection units make of row i in window w (R131, R211): the surviving values, the B-side
drops, the zero codes; a value that two bullets of R131 drop counts under both. Values at or beyond k_m are not
injected and not counted. -/
def survive (fmt : ElemFmt) (occ : Option (List Nat)) (kLim : Nat) (a : RowRead) :
    List Entry × Nat × Nat :=
  let l := a.ents.filter fun e => decide (e.k < kLim)
  let out := match occ with
    | some o => l.filter fun (e : Entry) => !o.contains e.k
    | none => []
  let inn := match occ with
    | some o => l.filter fun (e : Entry) => o.contains e.k
    | none => l
  (inn.filter fun e => !e.isZero fmt, out.length, (l.filter (Entry.isZero fmt)).length)

/-- An `SDDMM` mask keeps row m for n-tile y (R132): it stores an element of the row there. -/
def State.masked (s : State) (c : Nat) (m : RunMop) (i y : Nat) : Bool :=
  if m.op = 0x11 then
    match m.desc (mopAux m.words) with
    | some d => !(((s.coreRd c).row d false i).window y).ents.isEmpty
    | none => true
  else true

/-- The rows of an m-block that may be pending for an n-tile, in ascending order. -/
def State.blockRows (s : State) (c : Nat) (m : RunMop) (x y : Nat) : List Nat :=
  (List.range' (128 * x) 128).filter fun i =>
    decide (i < m.mLen) && m.computed i && s.masked c m i y

/-- The in-range positions of row i in window w (R170). -/
def RunMop.npos (m : RunMop) (i w : Nat) : Nat :=
  let cols := match m.dA with
    | some d => (viewOf d (mopTransA m.words)).2
    | none => 0
  min (min (m.kOf i) cols) (128 * w + 128) - 128 * w

/-! ### Counting -/

/-- A metadata drop of a core is counted and recorded (R93 to R96): role, format tag, drop. -/
def State.metaDrop (s : State) (c role tag : Nat) (q : Drop) : State :=
  let s := s.incThr (Reg.FDR_MDROP_NEG_CNT c + 4 * q.sub) q.n
    (if s.reg (Reg.FDR_MDROP_NEG_THR c + 4 * q.sub) = 0 then 2 ^ 33
     else (s.reg (Reg.FDR_MDROP_NEG_THR c + 4 * q.sub)).toNat) c 0x0102 q.sub
  let s := s.setReg (Reg.FDR_MDROP_LAST c)
    (BitVec.ofNat 32 (2 ^ 31 + q.sub * 2 ^ 29 + role * 2 ^ 28 + tag * 2 ^ 24))
  (s.setReg (Reg.FDR_MDROP_ROW c) (BitVec.ofNat 32 q.row)).count c 0x046 q.sub q.n

/-- Drops and reserved INT2 codes of a reading of several rows are counted, each drop once, and none that has
been counted before (R43, R91, R92). -/
def State.countReadsOnce (s : State) (c role tag : Nat) (l : List RowRead) (seen : List DropKey) : State :=
  let s := (onceEach (l.flatMap RowRead.drops) seen).foldl (fun s q => s.metaDrop c role tag q) s
  s.inc (Reg.FDR_VAL_RSV_CNT c) ((l.map fun a => a.rsv.length).sum)

/-- The counting of a reading by itself. -/
def State.countReads (s : State) (c role tag : Nat) (l : List RowRead) : State := s.countReadsOnce c role tag l []

/-- A values dropped at intersection are counted (R131, R152). -/
def State.countIsect (s : State) (c out zc : Nat) : State :=
  let s := (s.inc (Reg.FDR_ISECT_DROP_CNT c) out).count c 0x044 0 out
  (s.inc (Reg.FDR_ZERO_SKIP_CNT c) zc).count c 0x045 0 zc

/-- A pair's tile is poisoned by a metadata word (R92). -/
def State.poisonPair (s : State) (c slot x y : Nat) : State :=
  let k := s.core c
  match k.cur with
  | none => s
  | some m =>
    let m := if m.metaPoison.contains (x, y) then m else { m with metaPoison := (x, y) :: m.metaPoison }
    let s := s.setCore c { k with cur := some m }
    let init := match SMap.get (fun _ => none) k.tiles slot with
      | some t => t.init
      | none => false
    if init then s.setRegF (Reg.ACC_POISON_TILE c (slot / 32)) (slot % 32) (slot % 32) 1 else s

/-- The tag of operand A. -/
def RunMop.tagA (m : RunMop) : Nat := match m.dA with
  | some d => d.cfmt.tag
  | none => 0

def RunMop.tagB (m : RunMop) : Nat := match m.dB with
  | some d => d.cfmt.tag
  | none => 0

/-- Window w is visited for a pair (R205); `NORMSTAT` visits every window with an in-range position
(R170). -/
def State.visits (s : State) (c : Nat) (m : RunMop) (x y w : Nat) : Bool :=
  let rows := s.blockRows c m x y
  if m.op = 0x16 then rows.any fun i => decide (0 < m.npos i w)
  else
    let occ := s.occupied c m w y
    !occ.isEmpty && rows.any fun i =>
      decide (128 * w < m.kOf i) &&
        !(survive m.aFmt (some occ) (m.kOf i) ((s.aRow c m y i).window w)).1.isEmpty

/-- The rows of A that the intersection units read in a window of a pair, ascending (R211). -/
def State.windowRows (s : State) (c : Nat) (m : RunMop) (x y w : Nat) : List Nat :=
  (s.blockRows c m x y).filter fun i => decide (128 * w < m.kOf i)

/-- A metadata word of B in window w and n-tile y is poisoned (R92); the rows of B that an OHI operand does
not name are not read. -/
def State.bPoisoned (s : State) (c : Nat) (m : RunMop) (w y : Nat) : Bool :=
  m.op != 0x13 && m.op != 0x14 &&
    (List.range' (128 * w) 128).any fun k => (s.bRow c m y k).metaBad

/-- What the feeder reads of a window that is not visited (R91, R131): of A nothing where B's occupancy is all
zero. Poisoned metadata of B poisons the pair (R92). -/
def State.readUnvisited (s : State) (c : Nat) (m : RunMop) (slot x y w : Nat) : State :=
  let s := if s.bPoisoned c m w y then s.poisonPair c slot x y else s
  let occ := s.occupied c m w y
  if m.op = 0x16 ∨ occ.isEmpty then s
  else
    let rows := (s.windowRows c m x y w).map fun i => (i, (s.aRow c m y i).window w)
    let cut := rows.map fun p => (survive m.aFmt (some occ) (m.kOf p.1) p.2).2
    (s.countReads c 0 m.tagA (rows.map Prod.snd)).countIsect c (cut.map Prod.fst).sum (cut.map Prod.snd).sum

/-- What reading the rows of an m-block counts once for the pair: drops without a place, and metadata
poison (R91, R92). A command without windows reads its operands at initialization. DESIGN CHOICE: a drop that lies in
no window is read once for each pair, whatever B's occupancy (log entry 154). -/
def State.readPair (s : State) (c : Nat) (m : RunMop) (slot x y : Nat) : State :=
  if m.windows = 0 then s
  else
    let rows := (s.blockRows c m x y).map (s.aRow c m y)
    let s := (onceEach (rows.flatMap RowRead.placeless) []).foldl (fun s q => s.metaDrop c 0 m.tagA q) s
    if rows.any RowRead.metaBad then s.poisonPair c slot x y else s

/-! ### Groups (R204, R206) -/

/-- Free slots for one tile of the run: the lowest free slot, or the lowest free even pair (R164). -/
def freeSlot (m : RunMop) (tiles : SMap (Option Tile)) : Option Nat :=
  let free (t : Nat) : Bool := (SMap.find tiles t).isNone
  if tileSlots m.words = 2 then
    (List.range 32).map (2 * ·) |>.find? fun t => free t && free (t + 1)
  else (List.range 64).find? free

/-- Slots for the tiles of a group, each pair with its slot; `none` when they are not all free. -/
def allocGroup (m : RunMop) : List (Nat × Nat) → SMap (Option Tile) →
    Option (List GroupPair × SMap (Option Tile))
  | [], tiles => some ([], tiles)
  | p :: ps, tiles =>
    match freeSlot m tiles with
    | none => none
    | some t =>
      let tile : Tile := { kind := m.kind, x := p.1, y := p.2, mop := m.id, init := false }
      let tiles := SMap.set (fun _ => none) tiles t (some tile)
      let tiles := if tileSlots m.words = 2 then SMap.set (fun _ => none) tiles (t + 1) (some tile) else tiles
      match allocGroup m ps tiles with
      | none => none
      | some (l, tiles) => some (⟨p.1, p.2, t⟩ :: l, tiles)

/-- A group of pairs begins: slots are allocated, the windows each pair visits are found, and what is
read of the others is counted. -/
def State.beginGroup (s : State) (c : Nat) (m : RunMop) (g : List GroupPair)
    (tiles : SMap (Option Tile)) : State :=
  let vis := (List.range m.windows).flatMap fun w =>
    (g.filter fun p => s.visits c m p.x p.y w).map fun p => (p.slot, w)
  let norm := m.op == 0x16
  let m := { m with groups := m.groups.drop 1, grp := g, toInit := g.map GroupPair.slot,
                    toLoad := if norm then [] else vis, toPack := if norm then vis else [] }
  let s := s.setCore c { s.core c with cur := some m, tiles := tiles }
  let s := g.foldl (fun s p => s.readPair c m p.slot p.x p.y) s
  let s := g.foldl (fun s p => (List.range m.windows).foldl (fun s w =>
    if vis.contains (p.slot, w) then s else s.readUnvisited c m p.slot p.x p.y w) s) s
  let skip := g.length * m.windows - vis.length
  ((((s.inc (Reg.SEQ_WIN_SKIP_CNT c) skip).count c 0x104 0 skip).count c 0x102 0 g.length).count c
    0x103 0 vis.length)

/-- Every window of the group in progress has been packed. -/
def groupPacked (k : CoreSt) (m : RunMop) : Bool :=
  m.toInit.isEmpty && m.toLoad.isEmpty && m.toPack.isEmpty && k.pack.isNone

/-- No wavefront and no lane sum of a group is still under way. -/
def groupOut (k : CoreSt) (g : List GroupPair) : Bool :=
  let mine (t : Nat) : Bool := g.any fun p => p.slot == t
  k.wfq.all (fun w => !mine w.tile) && k.sumq.all (fun w => !mine w.tile)

/-- A group whose last lane sums have been added goes to the drain in curve order (R206). -/
def RunMop.finishTail (k : CoreSt) (m : RunMop) : RunMop :=
  if groupOut k m.tail then { m with drainQ := m.drainQ ++ m.tail.map GroupPair.slot, tail := [] } else m

/-- A packed group makes room for the next one while its last wavefronts pass the array (R128). -/
def RunMop.shiftGroup (k : CoreSt) (m : RunMop) : RunMop :=
  if m.tail.isEmpty && groupPacked k m then { m with tail := m.grp, grp := [] } else m

/-- The walk moves on: a group that has run goes to the drain, a packed one makes room, and the next group
begins when the segments are merged and its slots are free. -/
def State.advance (s : State) (c : Nat) : State :=
  let k := s.core c
  match k.cur with
  | none => s
  | some m =>
    let m := (((m.finishTail k).shiftGroup k).finishTail k)
    let s := s.setCore c { k with cur := some m }
    if m.grp.isEmpty && m.segsLeft == 0 then
      match m.groups.head? with
      | none => s
      | some g =>
        match allocGroup m g k.tiles with
        | none => s
        | some (l, tiles) => s.beginGroup c m l tiles
    else s

/-! ### Stream queues (R144 to R149) -/

/-- What the feeder reads of the running macro-operation can come: each part of an operand, of a mask or of a
preload is in the operand buffer, or the crossings and channels on its way serve (R27, R262). -/
def State.feedReady (s : State) (c : Nat) (m : RunMop) : Bool :=
  let k := s.core c
  (m.dA.toList ++ m.dB.toList ++ ((if m.op = 0x11 then m.desc (mopAux m.words) else none).toList) ++
    ((if usesPre m.op then m.desc (mopPre m.words) else none).toList)).all fun d => d.reach.all fun r =>
      (s.coreLinked c && s.memPath (c / 9) r.1 r.2) ||
        (List.range' r.1 r.2).all fun a => (SMap.find k.opbuf a).isSome

/-- The rows of B that a load of window w reads: all 128, or those that surviving indices name when A is OHI
(R205). -/
def State.loadRows (s : State) (c : Nat) (m : RunMop) (x y w : Nat) : List Nat :=
  if m.op = 0x13 ∨ m.op = 0x14 then
    (s.blockRows c m x y).foldl (fun l i =>
      ((((s.aRow c m y i).window w).ents.filter fun e => decide (e.k < m.kOf i)).map Entry.k).foldl
        insertSorted l) []
  else List.range' (128 * w) 128

/-- The pair of a slot of the groups in progress. -/
def RunMop.pairOf (m : RunMop) (slot : Nat) : Nat × Nat :=
  match (m.grp ++ m.tail).find? fun g => g.slot == slot with
  | some g => (g.x, g.y)
  | none => (0, 0)

/-- The words that the next stationary load takes from `BQ`: the slot and window it is for, and its rows. -/
def State.bNext (s : State) (c : Nat) (m : RunMop) : List (Nat × Nat × Nat) :=
  match m.toLoad.head? with
  | some (slot, w) =>
    let (x, y) := m.pairOf slot
    (s.loadRows c m x y w).map fun r => (slot, w, r)
  | none => []

/-- The words that the intersection units take next from `AQ`. -/
def State.aNext (s : State) (c : Nat) (m : RunMop) (pack : Option Packer) : List (Nat × Nat × Nat) :=
  match pack, m.toPack.head? with
  | none, some (slot, w) =>
    let (x, y) := m.pairOf slot
    (s.windowRows c m x y w).map fun r => (slot, w, r)
  | _, _ => []

/-- A word of `AQ` or `BQ` as the read port makes it. -/
def State.rowWord (s : State) (c : Nat) (m : RunMop) (isA : Bool) (p : Nat × Nat × Nat) : RowWord :=
  let y := (m.pairOf p.1).2
  ⟨p.1, p.2.1, p.2.2, if isA then (s.aRow c m y p.2.2).window p.2.1 else s.bRow c m y p.2.2⟩

/-- The entries of the next index segment (R138): the first and how many, the bytes of each. -/
def RunMop.nextSegment (m : RunMop) : Option (Nat × Nat × Nat × Desc) :=
  match m.dA with
  | none => none
  | some d =>
    let coo := d.cfmt == .coo
    let total := if coo then min (d.count.getD 0) d.nnzCap else d.rows
    let lo := 65536 * (cdiv total 65536 - m.segsLeft)
    if m.segsLeft = 0 then none else some (lo, min 65536 (total - lo), if coo then 8 else 4, d)

/-- Word i of n bytes of an index stream from an address: 64 bytes of it. -/
def Rd.ixWord (r : Rd) (a n i : Nat) : IndexWord :=
  let len := min 64 (n - 64 * i)
  ⟨a + 64 * i, (List.range len).map fun j => r.byte (a + 64 * i + j), r.anyBad (a + 64 * i) len⟩

/-- The words of `IXQ` that the next segment fills, up to n of them. -/
def State.ixWords (s : State) (c : Nat) (m : RunMop) (n : Nat) : List IndexWord :=
  match m.nextSegment with
  | none => []
  | some (lo, cnt, esz, d) =>
    (List.range (min n (cdiv (esz * cnt) 64))).map ((s.coreRd c).ixWord (d.abase 0 + esz * lo) (esz * cnt))

/-- The last of them. -/
def State.ixEnd (s : State) (c : Nat) (m : RunMop) : Option IndexWord :=
  m.nextSegment.bind fun (lo, cnt, esz, d) =>
    if cnt = 0 then none
    else some ((s.coreRd c).ixWord (d.abase 0 + esz * lo) (esz * cnt) (cdiv (esz * cnt) 64 - 1))

/-- The read ports fill `AQ`, `BQ` and `IXQ` ahead of their consumers, and hold while they are full (R144,
R145). -/
def State.prefetch (s : State) (c : Nat) : State :=
  let k := s.core c
  match k.cur with
  | none => s
  | some m =>
    if s.feedReady c m = false then s else
    let more (isA : Bool) (q : List RowWord) (cap : Nat) (l : List (Nat × Nat × Nat)) : List RowWord :=
      q ++ ((l.drop q.length).take (cap - q.length)).map (s.rowWord c m isA)
    s.setCore c { k with aq := more true k.aq 16 (s.aNext c m k.pack), bq := more false k.bq 8 (s.bNext c m),
                         ixq := if k.ixq.isEmpty then s.ixWords c m 32 else k.ixq }

/-- Rows taken through a queue that holds the first of them, the rest as the port reads it; a word with bad
parity poisons the values it carries (R147). -/
def State.throughQueue (s : State) (c : Nat) (m : RunMop) (isA : Bool) (q : List RowWord)
    (l : List (Nat × Nat × Nat)) (bad : List Bool) : List RowWord :=
  (l.zipIdx).map fun p =>
    let w := match q[p.2]? with
      | some w => if (w.slot, w.win, w.row) = p.1 then w else s.rowWord c m isA p.1
      | none => s.rowWord c m isA p.1
    if bad.getD p.2 false then
      { w with read := { w.read with ents := w.read.ents.map fun e => { e with poison := true } } }
    else w

/-- A word with bad parity has been read from queue q (R147, R153, R154). -/
def State.qPoison (s : State) (c q : Nat) : State :=
  (((s.setRegF (Reg.CORE_Q_STAT c) (16 + q) (16 + q) 1).inc (Reg.CORE_Q_POISON_CNT c) 1).count c
    0x106 0 1)

/-- Of n words read from queue q, those with bad parity (R147). -/
def State.poisonWords (s : State) (c q n : Nat) (bad : List Bool) : State :=
  ((bad.take n).filter id).foldl (fun s _ => s.qPoison c q) s

/-- A read of an empty data-class queue (R149). -/
def State.underrun (s : State) (c q : Nat) : State :=
  (s.setRegF (Reg.CORE_Q_STAT c) q q 1).count c 0x107 0 1

end Sys2Proof.Machine
end

