-- ==== Sys2Proof/Machine/Seq.lean ====
section
/-! DEFINITION. The sequencer of a stage core: control commands (R147, R149, R191 to R193), issue and
refusal (R198 to R202), completion words (R201, R192). -/

namespace Sys2Proof.Machine

open Sys2Proof

/-! ### Queues -/

/-- Some word of the packet that a command takes fails its parity check (R147). -/
def readBad (rd : CoreRead) : Bool := rd.bad.any id

/-- A consumer without work reads its queue, which is empty then (R149): the word read last there, which `aLast`,
`bLast`, `ixLast` or `drLast` holds, comes again, and `UNDERRUN` is set. DESIGN CHOICE: no window, row, segment or
output waits for that word, which goes nowhere (log entry 144). -/
def State.idleRead (s : State) (c q : Nat) : State := if s.coreRuns c then s.underrun c q else s

/-- The packet at the front of `CMDQ`, when it is whole (R146). -/
def CoreSt.packet (k : CoreSt) : Option (List CmdWord) :=
  match k.cmdq.findIdx? CmdWord.last with
  | some n => some (k.cmdq.take (n + 1))
  | none => none

/-- The opcode of a packet. -/
def pktOp (p : List CmdWord) : Nat :=
  match p with
  | w :: _ => fld w.bits.toNat 7 0
  | [] => 0

/-- A packet of n words leaves `CMDQ`, and words in the crossing move up. -/
def State.popCmd (s : State) (c n : Nat) : State :=
  let k := s.core c
  s.setCore c ({ k with cmdq := k.cmdq.drop n } : CoreSt).pull

/-- The last command to a core without completion is sent again (R387). -/
def State.resendCmd (s : State) (c : Nat) : State :=
  let ws := SMap.get (fun _ => []) s.ctl.lastCmd c
  if ws.isEmpty then s else s.sendCore c ws

/-- A poisoned control packet is discarded, and the step controller resends (R147, R387). -/
def State.ctrlPoison (s : State) (c : Nat) (p : List CmdWord) : State :=
  let s := (s.popCmd c p.length).qPoison c 0
  let held := s.defers 2 (polderOfCore c)
  let s := s.breachOpen c { cls := 2, polder := polderOfCore c, action := 0, obj := c }
  if held then s else s.resendCmd c

/-- `CPLQ` has room (R144, R145). -/
def CoreSt.cplRoom (k : CoreSt) : Bool := decide (k.cplq.length < 16)

/-- A completion word (R201). -/
def cplWord (op code check index id pkt : Nat) (f : Flags) : BitVec 64 :=
  BitVec.ofNat 64 (op + code * 2 ^ 8 + check * 2 ^ 12 + f.sat.toNat * 2 ^ 16 + f.poison.toNat * 2 ^ 17 +
    f.nonfin.toNat * 2 ^ 18 + f.empty.toNat * 2 ^ 19 + index * 2 ^ 20 + id % 2 ^ 16 * 2 ^ 32 +
    pkt % 2 ^ 16 * 2 ^ 48)

/-- A completion word is written to `CPLQ`, which is progress (R393). -/
def State.writeCpl (s : State) (c : Nat) (w : BitVec 64) : State :=
  let k := s.core c
  s.setCore c { k with cplq := k.cplq ++ [w], progress := s.now }

/-- The OR of flags (R165, R192). -/
def Flags.or (a b : Flags) : Flags :=
  ⟨a.sat || b.sat, a.poison || b.poison, a.nonfin || b.nonfin, a.empty || b.empty⟩

/-! ### Refusals (R199, R201, R223) -/

/-- The word of `SEQ_LAST_REFUSE` (R223). -/
def refuseWord (e : IssueErr) (op pkt : Nat) : Word :=
  BitVec.ofNat 32 (2 ^ 31 + e.1 * 2 ^ 24 + e.2.1 * 2 ^ 20 + e.2.2 * 2 ^ 16 + op * 2 ^ 8 + pkt % 2 ^ 8)

/-- `SEQ_REFUSE_CNT` and `SEQ_LAST_REFUSE`. -/
def State.noteRefusal (s : State) (c : Nat) (e : IssueErr) (op pkt : Nat) : State :=
  ((s.inc (Reg.SEQ_REFUSE_CNT c) 1).setReg (Reg.SEQ_LAST_REFUSE c) (refuseWord e op pkt)).count c 0x101 0 1

/-- A macro-operation is refused: completion word, counters, event. -/
def State.refuseMop (s : State) (c : Nat) (ws : List (BitVec 128)) (pkt : Nat) (e : IssueErr) : State :=
  let s := s.writeCpl c (cplWord (mopOp ws) e.1 e.2.1 e.2.2 (mopId ws) pkt Flags.clear)
  (s.noteRefusal c e (mopOp ws) pkt).logNamed c 0x0201 (mopId ws)

/-! ### The next macro-operation -/

/-- Packets of a segment, and the index of its first in the stream (R190). -/
def Binding.count (b : Binding) (phase : Nat) : Nat :=
  if phase = 0 then b.nfwd else if phase = 1 then b.nbwd else b.neval
def Binding.first (b : Binding) (phase : Nat) : Nat :=
  if phase = 0 then 0 else if phase = 1 then b.nfwd else b.nfwd + b.nbwd

/-- The five words of a packet in memory. -/
def Rd.packet (r : Rd) (a : Nat) : List (BitVec 128) :=
  (List.range 5).map fun i => BitVec.ofNat 128 (r.le (a + 16 * i) 16)

/-- The next packet: its words, its index (`0xFFFF` from `CMDQ`), the words to take from `CMDQ`, and
whether a stream packet was read with poison. A stream packet whose memory cannot be reached waits (R262). -/
def State.nextMop (s : State) (c : Nat) : Option (List (BitVec 128) × Nat × Nat × Bool) :=
  let k := s.core c
  match k.seg, k.bind with
  | some g, some b =>
    let a := b.base + 80 * (b.first g.phase + g.pkt)
    if g.pkt < b.count g.phase ∧ s.memPath (c / 9) a 80 then some (s.rd.packet a, g.pkt, 0, s.rd.anyBad a 80)
    else none
  | some _, none => none
  | none, _ =>
    match k.packet with
    | some p =>
      if 0x10 ≤ pktOp p ∧ pktOp p ≤ 0x19 then some (p.map CmdWord.bits, 0xFFFF, p.length, false)
      else none
    | none => none

/-- The packet is taken: out of `CMDQ`, or the segment moves to its next one. -/
def State.takeMop (s : State) (c n : Nat) : State :=
  let k := s.core c
  match k.seg with
  | some g => s.setCore c { k with seg := some { g with pkt := g.pkt + 1 } }
  | none => s.popCmd c n

/-- A segment's flags take more. -/
def State.segFlags (s : State) (c : Nat) (f : Flags) : State :=
  let k := s.core c
  match k.seg with
  | some g => s.setCore c { k with seg := some { g with flags := g.flags.or f } }
  | none => s

/-! ### Start (R200) -/

/-- The controls of a conversion point (R65). -/
def cvtOf (w : Word) : CvtCtl :=
  { clamp := bit w.toNat 10, freeboard := min (fld w.toNat 9 8) 2, stoch := decide (fld w.toNat 5 4 = 1) }

/-- The spill header that step 2 writes (R61). -/
def spillHeader (d : Desc) : List Byte := leBytes 4 0 ++ leBytes 4 d.spillCap ++ List.replicate 24 0

/-- The activity bitmap is read (R233, R234): a header that does not fit makes every row active. -/
def State.readMap (s : State) (c : Nat) (ws : List (BitVec 128)) : Option RowMap × Bool × State :=
  if mopMap ws = noHandle then (none, false, s)
  else match s.desc (mopMap ws) with
  | none => (none, false, s)
  | some d =>
    let r := s.rd
    let a := d.desc.base
    let v := cdiv (mopM ws) 32
    if r.le a 4 = 0x50524D31 ∧ r.le (a + 4) 4 = mopM ws then
      (some { layer := r.le (a + 8) 1, allOn := false, active := r.le (a + 32) (4 * v),
              audit := r.le (a + 32 + 4 * v) (4 * v) },
       r.anyBad a (32 + 8 * v), s)
    else
      (some { layer := r.le (a + 8) 1, allOn := true, active := 0, audit := 0 }, r.anyBad a 32,
       (s.inc (Reg.PRD_MAP_BAD_CNT (c / 9)) 1).logNamed c 0x0202 0)

/-- Index segments of the merge unit (R138): the rows of the OHI tensor, or the entries of a COO source
of `COPY`. -/
def Rd.segments (r : Rd) (ws : List (BitVec 128)) (d : Desc) : Nat :=
  if d.cfmt = .ohi then cdiv d.rows 65536
  else if d.cfmt = .coo ∧ mopOp ws = 0x17 ∧ r.cooBad d = false then cdiv (min (r.cooCount d) d.nnzCap) 65536
  else 0

/-- The excess of a COO entry count is one drop, where the count is read at issue (R86, R92, R95). -/
def State.cooExcess (s : State) (c : Nat) (d : Desc) : State :=
  let n := s.rd.cooCount d
  if d.cfmt = .coo ∧ d.nnzCap < n ∧ s.rd.anyBad (d.abase 1) 8 = false then
    s.metaDrop c 0 d.cfmt.tag ⟨1, n - d.nnzCap, 0xFFFFFFFF, none, none⟩
  else s

/-- The run that a macro-operation makes: descriptors copied, controls read, the pairs to be walked in groups
(R198 to R204). A `COPY` whose COO entry count arrives poisoned poisons every tile (R92). -/
def State.planMop (s : State) (c : Nat) (ws : List (BitVec 128)) (l : Lens) (pkt : Nat)
    (map : Option RowMap) (mapBad : Bool) : RunMop :=
  let v := s.issueEnv c
  let hs := ((mopInputs v ws ++ mopOutputs ws).map Prod.snd).dedup
  let descs := hs.filterMap fun h => (v.descs h).map fun d => (h, s.rd.copyDesc d)
  let m : RunMop :=
    { id := (s.core c).nextId, words := ws, fromCmdq := decide (pkt = 0xFFFF), pkt := pkt, descs := descs,
      cvt := (List.range 3).map fun i => cvtOf (s.reg (Reg.DRN_CVT_CTL c i)),
      bandEn := decide (s.regF (Reg.FDR_CTL c) 0 0 = 1), mLen := l.m, nLen := l.n, kLen := l.k,
      rowLenN := l.rowN, rowLenK := l.rowK, rowMap := map, segsLeft := 0, merged := [], groups := [],
      grp := [], toInit := [], toLoad := [], toPack := [], tail := [], drainQ := [],
      outBuf := [[], [], []], reached := [], metaPoison := [], badUnits := [], auditMiss := [],
      auditBad := [], dropped := [], flags := { Flags.clear with poison := mapBad } }
  let nt := if mopOp ws = 0x16 then 1 else cdiv (mopN ws) 128
  let pairs := if mopOp ws = 0x18 then [] else hilbertPairs (cdiv (mopM ws) 128) nt
  let walk := pairs.filter fun p => !m.skipped p.1 p.2
  let a := m.dA
  let segs := match a with
    | some d => if walk.isEmpty then 0 else s.rd.segments ws d
    | none => 0
  let lost : Bool := match a with
    | some d => d.cfmt == .coo && mopOp ws == 0x17 && s.rd.cooBad d
    | none => false
  { m with groups := groupsOf (mopG ws) walk.length walk, segsLeft := segs,
           metaPoison := if lost then walk else [] }

/-- Pairs that the walk skips (R211). -/
def skippedPairs (ws : List (BitVec 128)) (m : RunMop) : Nat :=
  if mopOp ws = 0x18 then 0
  else cdiv (mopM ws) 128 * (if mopOp ws = 0x16 then 1 else cdiv (mopN ws) 128) -
    ((m.groups.map List.length).sum)

/-- A macro-operation starts (R200): descriptors copied, spill headers written, controls read, the walk
begun; a `PREDICT` goes to the die's engine (R195, R224). -/
def State.startMop (s : State) (c : Nat) (ws : List (BitVec 128)) (l : Lens) (pkt : Nat) : State :=
  let v := s.issueEnv c
  let outs := (usedLanes ws).filterMap fun p => v.descs (laneOut p.2)
  let s := outs.foldl (fun s d =>
    if d.hasSpill then s.put (.die (c / 9)) (d.abase 3) (spillHeader d) false else s) s
  let (map, mapBad, s) := s.readMap c ws
  let m := s.planMop c ws l pkt map mapBad
  let s := match m.dA with
    | some d => s.cooExcess c d
    | none => s
  let k := s.core c
  let s := s.setCore c { k with cur := some m, nextId := k.nextId + 1, verdict := none, fills := [],
                                waitPredict := decide (mopOp ws = 0x18), opbuf := [], opPoison := [] }
  let s := (s.inc (Reg.SEQ_PAIR_SKIP_CNT c) (skippedPairs ws m)).count c 0x100 0 1
  if mopOp ws = 0x18 then
    let t := s.die (c / 9)
    let mb := match k.seg with
      | some g => g.mb
      | none => 0
    if h : c < 54 then
      s.setDie (c / 9) { t with predQ := t.predQ ++
        [⟨⟨c, h⟩, ws, m.descs, l.m, l.n, l.k, if l.rowN.isEmpty then l.rowK else l.rowN,
          (s.island c).step, mb⟩] }
    else s
  else (s.advance c).prefetch c

/-- A poisoned `LEN_T` entry (R212, R392): the breach, and the phase is to be replayed once. -/
def State.lenPoisoned (s : State) (c : Nat) : State :=
  let k := s.core c
  let st := match k.bind with
    | some b => b.stage.toNat
    | none => 0
  let s := s.breachOpen c { cls := 1, polder := polderOfCore c, action := if k.seg.isSome then 1 else 0,
                            obj := st }
  if k.seg.isSome then { s with ctl := { s.ctl with lenPoison := c :: s.ctl.lenPoison.erase c } } else s

/-- The descriptors that a packet names. -/
def State.namedDescs (s : State) (c : Nat) (ws : List (BitVec 128)) : List (Option Desc) :=
  let v := s.issueEnv c
  (mopInputs v ws ++ mopOutputs ws).map fun h => v.descs h.2

/-- The issue checks of the next packet, unless they have run already on the descriptors that it names now (R98,
R198, R202). -/
def State.verdictOf (s : State) (c : Nat) (ws : List (BitVec 128)) : Verdict :=
  let named := s.namedDescs c ws
  let fresh : Verdict := match s.checkIssue c ws with
    | .error e => ⟨ws, named, some e, ⟨0, 0, 0, [], []⟩⟩
    | .ok l => ⟨ws, named, none, l⟩
  match (s.core c).verdict with
  | some v => if v.words = ws ∧ v.named = named then v else fresh
  | none => fresh

/-- The core works on a step beyond the first uncommitted one, of which nothing may show before the commit of the
step before it (R34). -/
def State.ahead (s : State) (c : Nat) : Bool := decide (s.committed + 1 < (s.island c).step)

/-- The tensor lies in far memory, where the host would see it. -/
def Desc.inFar (d : Desc) : Bool := decide (d.base < farSize)

/-- The issue of a packet need not wait: what it reads can be reached (R262), and no spill header that its start
writes would show too early in far memory (R34, R200). -/
def State.mayIssue (s : State) (c : Nat) (ws : List (BitVec 128)) (v : Verdict) : Bool :=
  let e := s.issueEnv c
  let outs := ((usedLanes ws).filterMap fun p => e.descs (laneOut p.2)).filter fun d => d.hasSpill
  let ins := ((if usesLenT ws then [mopLenT ws] else []) ++ [mopMap ws]).filterMap e.descs
  let coo := (e.descs (mopA ws)).toList.filter fun d => d.cfmt == .coo
  (ins ++ coo ++ outs).all (fun d => d.reach.all fun r => s.memPath (c / 9) r.1 r.2) &&
    (v.err.isSome || !s.ahead c || !outs.any Desc.inFar)

/-- The next packet, of an opcode that `p` admits, is issued or refused (R198 to R200). A packet from `CMDQ`
with bad parity is discarded (R147, R193). A stream packet that arrives poisoned is not executed, and poisons
its segment (DESIGN CHOICE, log entry 34). -/
def State.issue (s : State) (c : Nat) (p : Nat → Bool) (bad : Bool) : State :=
  let k := s.core c
  if s.coreLinked c && k.cplRoom && k.cur.isNone && k.prev.isNone then
    match s.nextMop c with
    | none => s
    | some (ws, pkt, n, lost) =>
      if p (mopOp ws) = false then s
      else if bad && k.seg.isNone then s.ctrlPoison c (k.cmdq.take n)
      else
        let v := s.verdictOf c ws
        if !lost && !s.mayIssue c ws v then s else
        let s := s.takeMop c n
        let s := s.setCore c { s.core c with verdict := none }
        if lost then s.segFlags c { Flags.clear with poison := true }
        else match v.err with
        | some e =>
          let s := s.refuseMop c ws pkt e.1
          if e.2 then s.lenPoisoned c else s
        | none => s.startMop c ws v.lens pkt
  else s

/-! ### Commands -/

/-- The sequencer takes its next control command (R192): nothing runs, and the packet at the front has an
opcode that `p` admits. A poisoned one is discarded (R147). -/
def State.control (s : State) (c : Nat) (bad : Bool) (p : Nat → Bool)
    (f : State → List CmdWord → State) : State :=
  let k := s.core c
  if s.coreRuns c && k.cur.isNone && k.prev.isNone && k.seg.isNone && k.cplRoom then
    match k.packet with
    | none => s
    | some q => if p (pktOp q) then (if bad then s.ctrlPoison c q else f (s.popCmd c q.length) q) else s
  else s

/-- Bits [hi:lo] of the first word of a packet. -/
def pktF (p : List CmdWord) (hi lo : Nat) : Nat :=
  match p with
  | w :: _ => fld w.bits.toNat hi lo
  | [] => 0

/-- IDLE_ITEM (R149): an empty `CMDQ` reads as NOP; a NOP packet is taken. Neither has an effect. -/
def execIdleItem (rd : CoreRead) (s : State) : Out :=
  .next (s.control rd.core (readBad rd) (· == 0) fun s _ => s)

/-- STEP_BEGIN (R192): the event is logged with the one that sent it (R32). -/
def execStepBegin (c : Core) (bad : Bool) (s : State) : Out :=
  .next (s.control c bad (· == 1) fun s q =>
    (s.islandStep c (BitVec.ofNat 32 (pktF q 63 32))).addLogBy c evBeginReceived (pktF q 63 32)
      s.ctl.beginCause)

/-- A refused `MB_BEGIN` or reserved opcode: the error of a control command (R193, R223). -/
def ctlErr : IssueErr := (4, 1, 0xF)

/-- The event at which another stage finished a phase of the running step, as the cause of work that takes its
output (R32, R193): its latest run, a replay or not (R192). -/
def State.phaseCause (s : State) (c stage phase mb : Nat) : Option Cause :=
  (s.stage stage).bind fun st => s.phaseEvent st.core.val phase mb (s.island c).step

/-- MB_BEGIN (R192, R193): a forward phase accepts the output of the stage before it. -/
def execMbBegin (c : Core) (bad : Bool) (s : State) : Out :=
  .next (s.control c bad (· == 2) fun s q =>
    let phase := pktF q 9 8
    let mb := pktF q 63 32
    match (s.core c).bind with
    | none =>
      (s.writeCpl c (cplWord 2 4 1 0xF mb 0xFFFF Flags.clear)).noteRefusal c ctlErr 2 0xFF
    | some b =>
      if phase = 3 then
        (s.writeCpl c (cplWord 2 4 1 0xF mb b.stage.toNat Flags.clear)).noteRefusal c ctlErr 2 0xFF
      else
        let s := s.setCore c { s.core c with
          seg := some { phase := phase, mb := BitVec.ofNat 32 mb, replay := decide (pktF q 12 12 = 1),
                        pkt := 0, flags := Flags.clear },
          progress := s.now }
        if phase = 0 ∧ b.stage ≠ 0 then
          s.addLogBy c evInput (phaseArg 0 mb (decide (pktF q 12 12 = 1))) (s.phaseCause c (b.stage.toNat - 1) 0 mb)
        else s)

/-- `SEQ_STAGE` of a bound core (R219). -/
def stageWord (n : Nat) : Word := BitVec.ofNat 32 (2 ^ 31 + n % 2 ^ 16)

/-- STAGE_BIND (R191, R193, R219). -/
def execStageBind (c : Core) (bad : Bool) (s : State) : Out :=
  .next (s.control c bad (· == 3) fun s q =>
    (s.setReg (Reg.SEQ_STAGE c) (stageWord (pktF q 31 16))).setCore c { s.core c with
      bind := some { stage := BitVec.ofNat 16 (pktF q 31 16), base := pktF q 79 32,
                     nfwd := pktF q 95 80, nbwd := pktF q 111 96, neval := pktF q 127 112 } })

/-- STAGE_UNBIND (R191, R219). DESIGN CHOICE: the field `STAGE`, valid while `BOUND` is 1, reads 0 then (log entry
162). -/
def execStageUnbind (c : Core) (bad : Bool) (s : State) : Out :=
  .next (s.control c bad (· == 4) fun s _ =>
    (s.setReg (Reg.SEQ_STAGE c) 0).setCore c { s.core c with bind := none })

/-- An opcode that names no macro-operation. -/
def noMop (o : Nat) : Bool := decide (o < 0x10 ∨ 0x19 < o)

/-- CMDQ_RESERVED_OPCODE (R193); in the running segment, a packet whose opcode names no macro-operation is
refused at issue (R195, R198). -/
def execCmdqReservedOpcode (c : Core) (bad : Bool) (s : State) : Out :=
  .next (if (s.core c).seg.isSome then s.issue c noMop bad
    else s.control c bad (fun o => decide (4 < o) && noMop o) fun s q =>
      (s.writeCpl c (cplWord (pktOp q) 4 1 0xF (pktF q 47 32) 0xFFFF Flags.clear)).noteRefusal c ctlErr
        (pktOp q) 0xFF)

/-- SPMM (R195, R198 to R200). -/
def execSpmm (rd : CoreRead) (s : State) : Out := .next (s.issue rd.core (· == 0x10) (readBad rd))
/-- SDDMM. -/
def execSddmm (rd : CoreRead) (s : State) : Out := .next (s.issue rd.core (· == 0x11) (readBad rd))
/-- SPGEMM. -/
def execSpgemm (rd : CoreRead) (s : State) : Out := .next (s.issue rd.core (· == 0x12) (readBad rd))
/-- GATHER. -/
def execGather (rd : CoreRead) (s : State) : Out := .next (s.issue rd.core (· == 0x13) (readBad rd))
/-- SCATTER_ADD. -/
def execScatterAdd (rd : CoreRead) (s : State) : Out := .next (s.issue rd.core (· == 0x14) (readBad rd))
/-- CONV. -/
def execConv (rd : CoreRead) (s : State) : Out := .next (s.issue rd.core (· == 0x15) (readBad rd))
/-- NORMSTAT. -/
def execNormstat (rd : CoreRead) (s : State) : Out := .next (s.issue rd.core (· == 0x16) (readBad rd))
/-- COPY (R118). -/
def execCopy (rd : CoreRead) (s : State) : Out := .next (s.issue rd.core (· == 0x17) (readBad rd))
/-- PREDICT (R225). -/
def execPredict (rd : CoreRead) (s : State) : Out := .next (s.issue rd.core (· == 0x18) (readBad rd))
/-- ELEMWISE. -/
def execElemwise (rd : CoreRead) (s : State) : Out := .next (s.issue rd.core (· == 0x19) (readBad rd))

/-- Words that the drain of a run has made wait in `DRQ` or in front of it. -/
def CoreSt.drqHolds (k : CoreSt) (m : RunMop) : Bool := (k.drq ++ k.drHeld).any fun w => w.run == m.id

/-- Every tile of a run has drained and its words have left `DRQ` (R201), and the engine has completed a `PREDICT`
of the core (R195). -/
def State.mopDone (s : State) (c : Nat) (m : RunMop) : Bool :=
  m.walked && m.drainQ.isEmpty && !(s.core c).drqHolds m && (m.op != 0x18 || !(s.core c).waitPredict)

/-- A run has ended: its completion word, count and flags. -/
def State.completeMop (s : State) (c : Nat) (m : RunMop) : State :=
  let s := s.writeCpl c (cplWord m.op 0 0 0xF (mopId m.words) m.pkt m.flags)
  let s := s.inc (Reg.SEQ_MOP_CNT c) 1
  if m.fromCmdq then s else s.segFlags c m.flags

/-- MOP_COMPLETE (R201, R202): the older of two runs first. -/
def execMopComplete (c : Core) (s : State) : Out :=
  let k := s.core c
  if s.coreRuns c && k.cplRoom then
    match k.prev, k.cur with
    | some m, _ =>
      .next (if s.mopDone c m then (s.setCore c { k with prev := none }).completeMop c m else s)
    | none, some m =>
      .next (if s.mopDone c m then (s.setCore c { k with cur := none }).completeMop c m else s)
    | none, none => .next s
  else .next s

/-- Inputs and outputs of the next macro-operation and the previous one do not meet (R202). -/
def apart (v : IssueEnv) (ws : List (BitVec 128)) (p : RunMop) : Bool :=
  let ins := (mopInputs v ws).map Prod.snd ++ ((mopOutputs ws).filter (fun o => o.1 == 8)).map Prod.snd
  let outs := (mopOutputs p.words).filterMap fun o => p.desc o.2
  ins.all fun h => match v.descs h with
    | some d => outs.all fun o => !reachOverlap d.reach o.reach
    | none => true

/-- MOP_EARLY_START (R202): while a macro-operation works, the issue checks of the next one run; once the
walk has ended, nothing that the next one reads is written by the other and the slots of its first group are
free, it starts. Otherwise its checks stand until its turn. -/
def execMopEarlyStart (rd : CoreRead) (s : State) : Out :=
  let k := s.core rd.core
  match k.cur, k.prev, s.nextMop rd.core with
  | some m, none, some (ws, pkt, n, false) =>
    if s.coreLinked rd.core && !((readBad rd) && k.seg.isNone) then
      let v := s.verdictOf rd.core ws
      let plan := s.planMop rd.core ws v.lens pkt none false
      if s.mayIssue rd.core ws v = false then .next s
      else if m.walked && m.op != 0x18 && mopOp ws != 0x18 && v.err.isNone && apart (s.issueEnv rd.core) ws m &&
          (allocGroup plan (plan.groups.headD []) k.tiles).isSome then
        let s := s.setCore rd.core { k with cur := none, prev := some m }
        .next ((s.takeMop rd.core n).startMop rd.core ws v.lens pkt)
      else .next (s.setCore rd.core { k with verdict := some v })
    else .next s
  | _, _, _ => .next s

/-- PHASE_DONE (R192): the segment's last macro-operation has completed. The event is logged; that of a
backward phase follows the one at which the next stage sent its gradient (R32). -/
def execPhaseDone (c : Core) (s : State) : Out :=
  let k := s.core c
  match k.seg, k.bind with
  | some g, some b =>
    if s.coreRuns c && k.cplRoom && k.cur.isNone && k.prev.isNone && decide (b.count g.phase ≤ g.pkt) then
      let s := s.writeCpl c (cplWord 2 0 0 0xF g.mb.toNat b.stage.toNat g.flags)
      let s := (s.setCore c { s.core c with seg := none }).count c 0x105 0 1
      .next (s.addLogBy c evPhaseDone (phaseArg g.phase g.mb.toNat g.replay)
        (if g.phase = 1 then s.phaseCause c (b.stage.toNat + 1) 1 g.mb.toNat else none))
    else .next s
  | _, _ => .next s

end Sys2Proof.Machine
end

