-- ==== Sys2Proof/Machine/Feeder.lean ====
section
/-! DEFINITION. The feeder: operand-buffer fills, stationary loads, the slot packer and the merge unit
(R127 to R141). -/

namespace Sys2Proof.Machine

open Sys2Proof

/-! ### Operand buffer and stationary registers -/

/-- Bytes of the operand buffer (R115). -/
def opBytes : Nat := 6291456

/-- Bytes are filled into the operand buffer. -/
def fillBytes (s : State) (l : List Nat) (m : SMap (Option Byte)) : SMap (Option Byte) :=
  l.foldl (fun m a => SMap.set (fun _ => none) m a (some (Memory.byte s.mem a))) m

/-- The rows of the view whose activity decides whether an element of A is fetched, by the unit of fetch
(R235): the row itself, its eight-row group, or every row of the tile that a transposed reading takes. -/
def dnsUnit (d : Desc) (trans : Bool) (i j : Nat) : List Nat :=
  if trans then List.range' (j / 128 * 128) 128
  else if d.layout = .ilA8 then List.range' (i / 8 * 8) 8
  else [i]

/-- The rows that decide over slot k of a compressed A: its row, band, block row, square or block. -/
def Rd.slotUnit (r : Rd) (d : Desc) (trans : Bool) (k : Nat) : List Nat :=
  let holders (rows e : Nat) : List Nat := (List.range rows).filter fun i =>
    let p := (if d.cfmt = .bmp then d.abase 1 else d.abase 0) + 8 * i
    decide (r.le p 8 ≤ e ∧ e < r.le (p + 8) 8)
  match d.cfmt with
  | .nm n m => [k / n / cdiv d.cols m]
  | .tnm n m =>
    let t := k / n / m
    if trans then List.range' (t % cdiv d.cols m * m) m else List.range' (t / cdiv d.cols m * m) m
  | .bsr b =>
    let e := k / (b * b)
    if trans then List.range' (r.le (d.abase 1 + 4 * e) 4 * b) b
    else (holders (cdiv d.rows b) e).flatMap fun q => List.range' (q * b) b
  | _ => holders d.rows k

/-- A byte of A holds data of a row that is active or audited, or data that is always read: pointers, spill
records, every entry of a COO or OHI tensor (R235). -/
def State.wanted (s : State) (m : RunMop) (d : Desc) (a : Nat) : Bool :=
  let r := s.rd
  let trans := mopTransA m.words
  let w := d.fmt.width
  let inVal := match d.valueReach with
    | some q => decide (q.1 ≤ a ∧ a < q.1 + q.2)
    | none => false
  let inArr (i : Nat) : Bool := d.usedArrays.contains i && decide (d.abase i ≤ a ∧ a < d.abase i + d.acap i)
  let on (l : List Nat) : Bool := l.any m.computed
  let slotsOn (lo n : Nat) : Bool := (List.range' lo n).any fun k => on (r.slotUnit d trans k)
  let elems (p : List Nat → Bool) : Bool := (List.range d.rows).any fun i => (List.range d.cols).any fun j =>
    p (d.index i j) && on (dnsUnit d trans i j)
  match d.cfmt with
  | .coo | .ohi => true
  | .dns =>
    if inVal then elems fun ix =>
      let b := codeByte d.base (d.offset ix) w
      decide (b ≤ a ∧ a < b + max (w / 8) 1)
    else if inArr 2 then elems fun ix => d.abase 2 + (d.blockOf ix).1 == a
    else true
  | _ =>
    if inVal then slotsOn (8 * (a - d.base) / w) (max (8 / w) 1)
    else if inArr 2 then slotsOn (32 * (a - d.abase 2)) 32
    else match d.cfmt with
    | .nm n mm | .tnm n mm =>
      if inArr 0 then slotsOn (8 * (a - d.abase 0) / mm * n) (8 / mm * n) else true
    | .bmp => if inArr 0 then on [(a - d.abase 0) / 8 / cdiv d.cols 64] else true
    | .csr => if inArr 1 then slotsOn ((a - d.abase 1) / 4) 1 else true
    | .bsr b => if inArr 1 then slotsOn ((a - d.abase 1) / 4 * (b * b)) 1 else true
    | _ => true

/-- The bytes of a fill that are requested: all of B and of a mask; of A what its row map wants (R235). -/
def State.fillList (s : State) (m : RunMop) (inA : Bool) (a len : Nat) : List Nat :=
  let all := List.range' a len
  match m.dA, m.rowMap with
  | some d, some p => if inA && !p.allOn then all.filter (s.wanted m d) else all
  | _, _ => all

/-- The lowest addresses leave a buffer that n more bytes would not fit (R115, R127). DESIGN CHOICE: which bytes make
room the spec does not say; one that is read again comes from memory (log entry 155). -/
def makeRoom (n : Nat) (m : SMap (Option Byte)) : SMap (Option Byte) := m.drop (m.length + n - opBytes)

/-- A fill arrives in the operand buffer, as memory or the shared cache holds it (R73, R127, R235). -/
def State.fillNow (s : State) (c : Nat) (m : RunMop) (a len : Nat) : State :=
  let inA := match m.dA with
    | some d => d.reach.any fun r => decide (r.1 ≤ a ∧ a + len ≤ r.1 + r.2)
    | none => false
  let l := s.fillList m inA a len
  let units := (l.map poisonUnit).dedup
  let bad := units.filter s.poison.contains
  let s := units.foldl (fun s u => s.readUnit u) s
  let k := s.core c
  let s := s.setCore c { k with opbuf := fillBytes s l (makeRoom l.length k.opbuf),
                                opPoison := bad.foldl insertSorted k.opPoison, progress := s.now }
  s.count c 0x049 0 (cdiv l.length 64)

/-- The fills that wait arrive in order, as far as the crossings and channels on their way serve (R18, R27, R262). -/
def State.serveFills (c : Nat) (m : RunMop) : List (Nat × Nat) → State → State
  | [], s => s.setCore c { s.core c with fills := [] }
  | (a, len) :: rest, s =>
    if s.coreLinked c && s.memPath (c / 9) a len then State.serveFills c m rest (s.fillNow c m a len)
    else s.setCore c { s.core c with fills := (a, len) :: rest }

/-- OPERAND_FILL (R127, R73, R235): bytes of an operand of the running macro-operation; it waits for its way behind
those that wait already. A fill of anything else, or of more than the buffer, is no event. -/
def execOperandFill (c : Core) (addr : Addr) (len : Nat) (s : State) : Out :=
  let k := s.core c
  let a := addr.toNat
  match k.cur with
  | none => .next s
  | some m =>
    let inOp (d : Option Desc) : Bool := match d with
      | some d => d.reach.any fun r => decide (r.1 ≤ a ∧ a + len ≤ r.1 + r.2)
      | none => false
    let mask := if m.op = 0x11 then m.desc (mopAux m.words) else none
    let l := s.fillList m (inOp m.dA) a len
    if s.coreRuns c && !l.isEmpty && decide (l.length ≤ opBytes) && (inOp m.dA || inOp m.dB || inOp mask) then
      .next (State.serveFills c m (k.fills ++ [(a, len)]) s)
    else .next s

/-- What rows of B put into a stationary register, by row and column of the window (R128, R155). -/
def stationaryVals (rows : List RowWord) : SMap StatVal :=
  rows.foldl (fun v p => p.read.ents.foldl (fun v e =>
    SMap.insert (SMap.erase v (p.row % 128 * 128 + e.k % 128)) (p.row % 128 * 128 + e.k % 128)
      ⟨BitVec.ofNat 16 e.value, BitVec.ofNat 8 e.scale, e.spill, e.poison⟩) v) []

/-- The register that wavefronts use, and the other one (R128). -/
def CoreSt.active (k : CoreSt) : StatBank := if k.actB then k.bankB else k.bankA
def CoreSt.idleBank (k : CoreSt) : StatBank := if k.actB then k.bankA else k.bankB

/-- The next stationary load goes into the B register of the two: the one that wavefronts use while it is empty,
else the other (R156). -/
def CoreSt.loadsB (k : CoreSt) : Bool := k.active.pw.isNone == k.actB

/-- STATIONARY_LOAD (R128, R156): the next pair-window's B values pass `BQ` into a free stationary register of
every PE; its drops are counted at each load (R91). Words with bad parity poison the values they carry
(R147). -/
def execStationaryLoad (rd : CoreRead) (s : State) : Out :=
  let k := s.core rd.core
  match k.cur with
  | none => .next (s.idleRead rd.core 3)
  | some m =>
    match m.toLoad with
    | [] => .next (s.idleRead rd.core 3)
    | (slot, w) :: rest =>
      if !s.coreRuns rd.core || (k.active.pw.isSome && k.idleBank.pw.isSome) || !s.feedReady rd.core m then .next s
      else
        let (x, y) := m.pairOf slot
        let rows := s.throughQueue rd.core m false k.bq (s.bNext rd.core m) rd.bad
        let bank : StatBank := { pw := some (slot, w), vals := stationaryVals rows }
        let toB := k.loadsB
        let m := { m with toLoad := rest, toPack := m.toPack ++ [(slot, w)] }
        let k := { k with cur := some m, bq := [], bLast := rows.getLast? <|> k.bLast }
        let k := if toB then { k with bankB := bank } else { k with bankA := bank }
        let s := s.setCore rd.core k
        let s := s.poisonWords rd.core 3 rows.length rd.bad
        let s := s.countReads rd.core 1 m.tagB (rows.map RowWord.read)
        let s := if rows.any fun p => p.read.metaBad then s.poisonPair rd.core slot x y else s
        .next (s.prefetch rd.core)

/-- The word of 4,096 bits that a row is in `AQ` or `BQ` (R144): 32 bits for each column of the window, laid out as
a slot of a wavefront without its lane (R129). DESIGN CHOICE: R144 gives the width alone (log entry 127). -/
def RowWord.word (w : RowWord) : BitVec 4096 :=
  BitVec.ofNat 4096 ((w.read.ents.map fun e =>
    (2 ^ 3 + e.spill.toNat * 2 ^ 4 + e.scale % 2 ^ 8 * 2 ^ 8 + e.value % 2 ^ 16 * 2 ^ 16) *
      2 ^ (32 * (e.k % 128))).sum)

/-! ### The slot packer (R133 to R135) -/

/-- Valid slots on a PE row. -/
def slotCount (l : List WfSlot) (r : Nat) : Nat := (l.filter fun t => t.row == r).length

/-- A row's values join a wavefront in a lane. -/
def putRow (l : List WfSlot) (lane : Nat) (es : List Entry) : List WfSlot :=
  l ++ es.map fun e =>
    { row := e.k % 128, slot := slotCount l (e.k % 128), value := BitVec.ofNat 16 e.value,
      scale := BitVec.ofNat 8 e.scale, spill := e.spill, lane := lane, poison := e.poison }

/-- The 32 bits of a valid slot (R129). -/
def WfSlot.word (t : WfSlot) : Nat :=
  t.lane % 8 + 2 ^ 3 + t.spill.toNat * 2 ^ 4 + t.scale.toNat * 2 ^ 8 + t.value.toNat * 2 ^ 16

/-- The word of 32,896 bits that a wavefront is in `WFQ` (R129): slots by PE row and number, then the header
with the lane map, the window's number and its last wavefront's mark. -/
def Wavefront.word (w : Wavefront) : BitVec 32896 :=
  BitVec.ofNat 32896
    ((w.slots.map fun t => t.word * 2 ^ (256 * (t.row % 128) + 32 * (t.slot % 8))).sum +
      (w.lanes.zipIdx.map fun l => (2 ^ 7 + l.1 % 128) * 2 ^ (32768 + 8 * l.2)).sum +
      w.win % 2 ^ 16 * 2 ^ (32768 + 64) + w.winLast.toNat * 2 ^ (32768 + 80))

/-- A row fits: every PE row of its values has a free slot of the s. -/
def rowFits (l : List WfSlot) (s : Nat) (es : List Entry) : Bool :=
  es.all fun e => decide (slotCount l (e.k % 128) < s)

/-- First-fit over candidate rows (R134): the rows taken, in lane order, and the slots. -/
def firstFit (s : Nat) : List (Nat × List Entry) → List Nat → List WfSlot → List Nat × List WfSlot
  | [], rows, l => (rows, l)
  | (m, es) :: ps, rows, l =>
    if rows.length < 8 ∧ rowFits l s es then firstFit s ps (rows ++ [m]) (putRow l rows.length es)
    else firstFit s ps rows l

/-- One wavefront in row mode from the first 32 candidates. -/
def packRows (s : Nat) (pending : List (Nat × List Entry)) : List Nat × List WfSlot :=
  firstFit s (pending.take 32) [] []

/-- The group size M of a TNM operand in band mode, and the bands b of a wavefront (R133). -/
def RunMop.bandOf (m : RunMop) : Option (Nat × Nat) :=
  match m.dA with
  | some d =>
    match d.cfmt with
    | .tnm n mm =>
      let b := min (m.slots / n) (8 / mm)
      if m.bandEn && decide (1 ≤ b) && m.op != 0x13 && m.op != 0x14 then some (mm, b) else none
    | _ => none
  | none => none

/-- The rows of the next b pending bands (R135). -/
def bandRows (mm b : Nat) (pending : List (Nat × List Entry)) : List (Nat × List Entry) :=
  let bands := ((pending.map fun p => p.1 / mm).dedup).take b
  pending.filter fun p => bands.contains (p.1 / mm)

/-- What the packer emits next: rows in lane order, slots, band mode, and the rows of a band group that
fall back to row mode. -/
def packNext (s : Nat) (band : Option (Nat × Nat)) (p : Packer) :
    List Nat × List WfSlot × Bool × List Nat × Bool :=
  if !p.fallback.isEmpty then
    let r := packRows s (p.pending.filter fun q => p.fallback.contains q.1)
    (r.1, r.2, false, p.fallback.filter fun i => !r.1.contains i, false)
  else match band with
  | none =>
    let r := packRows s p.pending
    (r.1, r.2, false, [], false)
  | some (mm, b) =>
    let rows := bandRows mm b p.pending
    let all := (rows.zipIdx).foldl (fun l q => putRow l q.2 q.1.2) []
    if all.all fun t => decide (t.slot < s) then (rows.map Prod.fst, all, true, [], false)
    else
      let r := packRows s rows
      (r.1, r.2, false, (rows.map Prod.fst).filter fun i => !r.1.contains i, true)

/-- The packer takes up the next pair-window, once it is loaded: its rows pass `AQ`, the intersection units
drop and count (R131), and the rows with surviving values are pending (R133). Words with bad parity poison
the values they carry (R147). -/
def State.takePack (s : State) (c : Nat) (m : RunMop) (bad : List Bool) : Option (Packer × State) :=
  match m.toPack with
  | [] => none
  | (slot, w) :: _ =>
    let (x, y) := m.pairOf slot
    let occ := if m.op = 0x16 then none else some (s.occupied c m w y)
    let k := s.core c
    let rows := s.throughQueue c m true k.aq (s.aNext c m none) bad
    let cut := rows.map fun p => (p.row, survive m.aFmt occ (m.kOf p.row) p.read)
    let s := s.setCore c { k with aq := [], aLast := rows.getLast? <|> k.aLast }
    let s := s.poisonWords c 2 rows.length bad
    let s := s.countReads c 0 m.tagA (rows.map RowWord.read)
    let s := s.countIsect c (cut.map fun p => p.2.2.1).sum (cut.map fun p => p.2.2.2).sum
    let s := if rows.any fun p => p.read.metaBad then s.poisonPair c slot x y else s
    some ({ pw := (slot, w), fallback := [],
            pending := (cut.filter fun p => !p.2.1.isEmpty).map fun p => (p.1 % 128, p.2.1) }, s)

/-- One wavefront leaves the packer. -/
def State.emitWave (s : State) (c : Nat) (m : RunMop) (p : Packer) : State :=
  let (x, y) := m.pairOf p.pw.1
  let w := p.pw.2
  let (rows, slots, band, fall, split) := packNext m.slots m.bandOf p
  let pending := p.pending.filter fun q => !rows.contains q.1
  let lastW := pending.isEmpty
  let norm := m.op == 0x16
  let idle : List (Nat × Nat) :=
    if norm && lastW then
      ((s.blockRows c m x y).filter fun i =>
        decide (0 < m.npos i w) &&
          (survive m.aFmt none (m.kOf i) ((s.aRow c m y i).window w)).1.isEmpty).map fun i =>
            (i % 128, m.npos i w)
    else []
  let wf : Wavefront :=
    { lanes := rows, win := w, winLast := lastW, slots := slots, tile := p.pw.1,
      npos := rows.map fun i => if norm then m.npos (128 * x + i) w else 0, idle := idle, band := band }
  let k := s.core c
  let m := if lastW then { m with toPack := m.toPack.drop 1 } else m
  let s := s.setCore c { k with
    wfq := k.wfq ++ [wf], cur := some m,
    pack := if lastW then none else some { p with pending := pending, fallback := fall } }
  let s := if split then s.inc (Reg.FDR_BAND_SPLIT_CNT c) 1 else s
  let s := (s.setRegF (Reg.FDR_STAT c) 11 8 rows.length).setRegF (Reg.FDR_STAT c) 1 1 band.toNat
  s.count c 0x043 0 band.toNat

/-- WAVEFRONT_EMIT (R131 to R135): not against a window that is not wholly loaded (R156), and only while
`WFQ` has room. -/
def execWavefrontEmit (rd : CoreRead) (s : State) : Out :=
  let k := s.core rd.core
  match k.cur with
  | none => .next (s.idleRead rd.core 2)
  | some m =>
    if !s.coreRuns rd.core || decide (4 ≤ k.wfq.length) then .next s
    else match k.pack with
    | some p => .next (((s.emitWave rd.core m p).advance rd.core).prefetch rd.core)
    | none =>
      if s.feedReady rd.core m = false then .next s
      else match s.takePack rd.core m rd.bad with
      | none => .next (s.idleRead rd.core 2)
      | some (p, t) => .next (((t.emitWave rd.core ((t.core rd.core).cur.getD m) p).advance rd.core).prefetch rd.core)

/-! ### The merge unit (R138 to R140) -/

/-- A segment of OHI indices: the surviving (index, row) pairs and the drops (R92). -/
def Rd.ohiSegment (r : Rd) (d : Desc) (rows : List Nat) : List (Nat × Nat) × List Drop :=
  rows.foldl (fun acc i =>
    let x := r.ohi d i
    if x < 0 then (acc.1, acc.2 ++ [⟨0, 1, i, none, none⟩])
    else if d.cols ≤ x.toNat then (acc.1, acc.2 ++ [⟨1, 1, i, none, none⟩])
    else (acc.1 ++ [(x.toNat, i)], acc.2)) ([], [])

/-- A segment of COO entries, as (place in the matrix view, entry) (R92, R118): order and duplicates are no
fault here, since the merge unit sorts and sums them. -/
def Rd.cooSegment (r : Rd) (d : Desc) (es : List Nat) : List (Nat × Nat) × List Drop :=
  es.foldl (fun acc e =>
    let a := d.abase 0 + 8 * e
    let i := signed (r.le a 4) 32
    let j := signed (r.le (a + 4) 4) 32
    let row := r.le a 4
    let sub : Option Nat :=
      if j < 0 then some 0 else if d.cols ≤ j.toNat then some 1
      else if i < 0 then some 0 else if d.rows ≤ i.toNat then some 1 else none
    match sub with
    | some q => (acc.1, acc.2 ++ [⟨q, 1, row, none, none⟩])
    | none => (acc.1 ++ [(i.toNat * d.cols + j.toNat, e)], acc.2)) ([], [])

/-- Insertion into a list sorted by first component, after its equals. -/
def insertPair (p : Nat × Nat) : List (Nat × Nat) → List (Nat × Nat)
  | [] => [p]
  | q :: l => if p.1 < q.1 then p :: q :: l else q :: insertPair p l

/-- Words of `IXQ` in front of memory, some of them poisoned by bad parity (R147). -/
def Rd.withWords (r : Rd) (l : List IndexWord) : Rd :=
  let holder (a : Nat) := l.find? fun w => decide (w.addr ≤ a ∧ a < w.addr + w.bytes.length)
  { byte := fun a => match holder a with
      | some w => w.bytes.getD (a - w.addr) 0
      | none => r.byte a,
    bad := fun a => match holder a with
      | some w => w.bad || r.bad a
      | none => r.bad a }

/-- The pairs whose tiles poisoned index words may reach (R92): those of the m-block of a `GATHER` row, which
contributes nothing; every pair for a source row or a COO entry, whose place is not known. -/
def RunMop.poisonedPairs (m : RunMop) (es : List Nat) : List (Nat × Nat) :=
  let all := m.groups.flatten
  if es.isEmpty then []
  else if m.op = 0x13 then all.filter fun p => es.any fun i => i / 128 == p.1
  else all

/-- The words of `IXQ` that carry the next segment: those in the queue, then those that the port reads as they are
taken, some with bad parity (R147). -/
def State.segmentWords (s : State) (c : Nat) (m : RunMop) (bad : List Bool) : List IndexWord :=
  let q := (s.core c).ixq
  (q ++ (s.ixWords c m bad.length).drop q.length).zipIdx.map fun w =>
    { w.1 with bad := w.1.bad || bad.getD w.2 false }

/-- Index entries lo to lo + n − 1, of esz bytes: those lost to poison, the surviving pairs in order of arrival, the
drops (R92, R138). -/
def Rd.segment (r : Rd) (d : Desc) (lo n esz : Nat) : List Nat × List (Nat × Nat) × List Drop :=
  let all := List.range' lo n
  let lost := all.filter fun e => r.anyBad (d.abase 0 + esz * e) esz
  let good := all.filter fun e => !lost.contains e
  (lost, if d.cfmt == .coo then r.cooSegment d good else r.ohiSegment d good)

/-- Pairs sorted by index, ties in order of arrival (R138). -/
def sortPairs (l : List (Nat × Nat)) : List (Nat × Nat) := l.foldl (fun l p => insertPair p l) []

/-- MERGE_SEGMENT (R138 to R140): the next index segment passes `IXQ`, is checked and sorted, ties in order of
arrival; output rows served by another row's index in the segment are counted for a `GATHER` (R139, R211). Poisoned
index words contribute nothing and poison the tiles that they govern (R92). -/
def execMergeSegment (rd : CoreRead) (s : State) : Out :=
  let k := s.core rd.core
  match k.cur with
  | none => .next (s.idleRead rd.core 4)
  | some m =>
    if (s.coreRuns rd.core && s.feedReady rd.core m) = false then .next s
    else match m.nextSegment with
    | none => .next (s.idleRead rd.core 4)
    | some (lo, n, esz, d) =>
      let words := s.segmentWords rd.core m rd.bad
      let (lost, pairs, drops) := ((s.coreRd rd.core).withWords words).segment d lo n esz
      let own := pairs.filter fun p => decide (p.2 < m.mLen ∧ p.1 < m.kOf p.2)
      let dup := if m.op = 0x13 then own.length - ((own.map Prod.fst).dedup).length else 0
      let m := { m with segsLeft := m.segsLeft - 1, merged := m.merged ++ sortPairs pairs,
                        metaPoison := (m.metaPoison ++ m.poisonedPairs lost).dedup }
      let s := s.setCore rd.core { k with cur := some m, ixq := [], ixLast := s.ixEnd rd.core m <|> k.ixLast }
      let s := s.poisonWords rd.core 4 words.length rd.bad
      let s := drops.foldl (fun s q => s.metaDrop rd.core 0 m.tagA q) s
      let s := if lo = 0 then s else s.inc (Reg.FDR_MRG_SEG_CNT rd.core) 1
      let s := (s.inc (Reg.FDR_MRG_DUP_CNT rd.core) dup).count rd.core 0x04A 0 dup
      .next ((s.advance rd.core).prefetch rd.core)

end Sys2Proof.Machine
end

