-- ==== Sys2Proof/Machine/Array.lean ====
section
/-! DEFINITION. The array and the accumulator memory (R51, R155 to R172): lane sums, tile
initialization, accumulation. -/

namespace Sys2Proof.Machine

open Sys2Proof

/-! ### Counting additions (R160, R187, R188) -/

/-- Saturating and non-finite additions of a core are counted. -/
def State.countAcc (s : State) (c sat nf : Nat) : State :=
  let thr := (s.reg (Reg.ACC_SAT_THR c)).toNat
  let s := s.incThr (Reg.ACC_SAT_CNT c) sat (if thr = 0 then 2 ^ 33 else thr) c 0x0103 0
  ((s.count c 0x082 0 sat).inc (Reg.ACC_NONFIN_CNT c) nf).count c 0x083 0 nf

/-- A tile's flags of R165 are set in its slot. DESIGN CHOICE: of the two slots of a compensated tile, the
map bit of the even one (log entry 133). -/
def State.flagTile (s : State) (c slot : Nat) (sat poison nonfin : Bool) : State :=
  let b := slot % 32
  let s := if sat then s.setRegF (Reg.ACC_SAT_TILE c (slot / 32)) b b 1 else s
  let s := if poison then s.setRegF (Reg.ACC_POISON_TILE c (slot / 32)) b b 1 else s
  if nonfin then s.setCore c { s.core c with tileNonfin := insertSorted (s.core c).tileNonfin slot } else s

/-! ### Lane sums (R158, R159) -/

/-- One lane sum in progress: its value, saturations, non-finite additions. -/
abbrev LaneSum := Word × Nat × Nat

/-- The first product begins a float lane sum. -/
def laneFirst (p : Num) : LaneSum :=
  let r := accRound p.isFin p
  (r.1, r.2.toNat, (!p.isFin).toNat)

/-- A product is added into a float lane sum, with one rounding. -/
def laneAdd (l : LaneSum) (p : Num) : LaneSum :=
  let x := (f32 l.1).add p
  let fin := (f32 l.1).isFin && p.isFin
  let r := accRound fin x
  (r.1, l.2.1 + r.2.toNat, l.2.2 + (!fin).toNat)

/-- A float lane sum over products in ascending PE row. -/
def laneSum : List Num → LaneSum
  | [] => (0, 0, 0)
  | p :: ps => ps.foldl laneAdd (laneFirst p)

/-- An integer product (R51): the largest integer not above a · b · 2^(−Q), saturated; a NaN gives 0. The
second part says saturated, the third NaN. -/
def intProduct (a b : Num) (q : Int) : Word × Bool × Bool :=
  let x := (a.mul b).scale (-q)
  if x.isNan then (0, false, true)
  else
    let r := satI32 x.floor
    (r.1, r.2, false)

/-- An integer lane sum: value, saturating additions, NaN products, and whether a product saturated. -/
def laneSumInt (ps : List (Word × Bool × Bool)) : LaneSum × Bool :=
  match ps with
  | [] => ((0, 0, 0), false)
  | p :: rest =>
    (rest.foldl (fun l q =>
      let r := satI32 (l.1.toInt + q.1.toInt)
      (r.1, l.2.1 + r.2.toNat, l.2.2 + q.2.2.toNat)) (p.1, 0, p.2.2.toNat),
     ps.any fun q => q.2.1)

/-- The exact value in a wavefront slot or a stationary register. -/
def slotNum (f : ElemFmt) (value scale : Nat) (spill : Bool) : Num :=
  (⟨0, value, scale, spill, false⟩ : Entry).num f

/-- The products that meet lane l in column j, in ascending PE row: the A and B values and their poison. A
PE row without a stored B value contributes nothing. -/
def laneProducts (m : RunMop) (b : StatBank) (w : Wavefront) (l j : Nat) : List (Num × Num × Bool) :=
  let mine := w.slots.filter fun t => t.lane == l
  let sorted := mine.foldl (fun acc t => insertPair (t.row, t.slot) acc) []
  sorted.filterMap fun p =>
    match mine.find? fun t => t.row == p.1 with
    | none => none
    | some t =>
      let a := slotNum m.aFmt t.value.toNat t.scale.toNat t.spill
      if m.op = 0x16 then
        (if j = 0 then some (a, .one, t.poison) else if j = 1 then some (a, a, t.poison) else none)
      else match SMap.find b.vals (p.1 * 128 + j) with
        | some v => some (a, slotNum m.bFmt v.value.toNat v.scale.toNat v.spill, t.poison || v.poison)
        | none => none

/-- The lane sum of lane l in column j: value, saturating and non-finite additions, whether a product
saturated or was NaN, poison; `none` when no product meets it. -/
def laneResult (m : RunMop) (b : StatBank) (w : Wavefront) (l j : Nat) :
    Option (Word × Nat × Nat × Bool × Bool) :=
  let ps := laneProducts m b w l j
  if ps.isEmpty then none
  else
    let bad := ps.any fun p => p.2.2
    if m.kind = .int32 then
      let r := laneSumInt (ps.map fun p => intProduct p.1 p.2.1 (mopQ m.words))
      some (r.1.1, r.1.2.1, r.1.2.2, r.2, bad)
    else
      let r := laneSum (ps.map fun p => p.1.mul p.2.1)
      some (r.1, r.2.1, r.2.2, false, bad)

/-- A zero word of `WFQ` (R149). -/
def Wavefront.zero : Wavefront :=
  { lanes := [], win := 0, winLast := false, slots := [], tile := 0, npos := [], idle := [], band := false }

/-- A zero word of `SUMQ`. -/
def SumWord.zero : SumWord :=
  { lanes := [], win := 0, winLast := false, sums := [], poison := 0, tile := 0, npos := [], idle := [],
    sat := false, nonfin := false }

/-- The word of 32,896 bits that lane sums are in `SUMQ` (R161): sums by column and lane, then the header. DESIGN
CHOICE: the rows of one word may have different counts in range (R170, R211), for which the one field `NPOS` has no
room; the model carries the count of each lane, and `NPOS` shows that of lane 0 (log entry 88). -/
def SumWord.word (w : SumWord) : BitVec 32896 :=
  BitVec.ofNat 32896
    ((w.sums.map fun q => q.2.2.toNat * 2 ^ (256 * (q.2.1 % 128) + 32 * (q.1 % 8))).sum +
      ((w.lanes.zipIdx.map fun l => (2 ^ 7 + l.1 % 128) * 2 ^ (8 * l.2)).sum + w.win % 2 ^ 16 * 2 ^ 64 +
        w.winLast.toNat * 2 ^ 80 + w.poison.toNat * 2 ^ 81 + w.tile % 2 ^ 6 * 2 ^ 89 +
        at0 w.npos 0 % 2 ^ 8 * 2 ^ 95) * 2 ^ 32768)

/-- The lane sums of a wavefront against a stationary register, by lane and column. -/
def waveSums (m : RunMop) (b : StatBank) (w : Wavefront) : List (Nat × Nat × Word × Nat × Nat × Bool × Bool) :=
  (List.range w.lanes.length).flatMap fun l =>
    (List.range 128).filterMap fun j => (laneResult m b w l j).map fun r => (l, j, r)

/-- The word of `SUMQ` that a wavefront makes (R161). -/
def sumWord (m : RunMop) (b : StatBank) (w : Wavefront) (bad : Bool) : SumWord :=
  let outs := waveSums m b w
  let poison := (List.range w.lanes.length).foldl (fun n l =>
    if bad || outs.any (fun o => o.1 == l && o.2.2.2.2.2.2) || w.slots.any (fun t => t.lane == l && t.poison)
    then n + 2 ^ l else n) 0
  { lanes := w.lanes, win := w.win, winLast := w.winLast,
    sums := outs.map fun o => (o.1, o.2.1, o.2.2.1), poison := BitVec.ofNat 8 poison, tile := w.tile,
    npos := w.npos, idle := w.idle, sat := outs.any fun o => decide (0 < o.2.2.2.1) || o.2.2.2.2.2.1,
    nonfin := outs.any fun o => decide (0 < o.2.2.2.2.1) }

/-- The wavefront passes the array (R155, R156). -/
def State.passWave (s : State) (c : Nat) (w : Wavefront) (bad : Bool) : State :=
  let k := s.core c
  match k.cur with
  | none => s
  | some m =>
    let outs := waveSums m k.active w
    let sat := (outs.map fun o => o.2.2.2.1).sum
    let nf := (outs.map fun o => o.2.2.2.2.1).sum
    let k := { k with sumq := k.sumq ++ [sumWord m k.active w bad] }
    let k := if w.winLast && m.op != 0x16 then
        (if k.actB then { k with bankB := StatBank.empty, actB := false }
         else { k with bankA := StatBank.empty, actB := true })
      else k
    (s.setCore c k).countAcc c sat nf

/-- WAVEFRONT (R155 to R161): the array reads a word from `WFQ`; an empty queue gives its last word again
and sets `UNDERRUN` (R149). A word with bad parity poisons its values (R147). -/
def execWavefront (c : Core) (bad : Bool) (s : State) : Out :=
  let k := s.core c
  if !s.coreRuns c || decide (4 ≤ k.sumq.length) then .next s
  else match k.wfq with
  | w :: rest =>
    let s := s.setCore c { k with wfq := rest, wfLast := some w, progress := s.now }
    let s := if bad then s.qPoison c 5 else s
    let s := ((s.count c 0x040 0 1).count c 0x041 0 w.slots.length).count c 0x042 0 w.lanes.length
    .next (s.passWave c w bad)
  | [] =>
    .next ((s.underrun c 5).passWave c (k.wfLast.getD Wavefront.zero) false)

/-! ### Tile initialization (R165, R118, R206) -/

/-- An exact value as a word of a tile: FP32, or a raw integer for an INT32 tile. -/
def tileWord (kind : TileKind) (x : Num) : Word :=
  if kind = .int32 then (satI32 x.floor).1 else toF32 x

/-- The sum of the entries of a COO tensor at one place, in storage order (R118); nothing where none lies. -/
def cooSum (kind : TileKind) (f : ElemFmt) : List Entry → LaneSum
  | [] => (0, 0, 0)
  | e :: rest =>
    if kind = .int32 then
      rest.foldl (fun (l : LaneSum) e =>
        let x := satI32 (l.1.toInt + (e.num f).floor)
        (x.1, l.2.1 + x.2.toNat, l.2.2)) (tileWord .int32 (e.num f), 0, 0)
    else rest.foldl (fun l e => laneAdd l (e.num f)) (toF32 (e.num f), 0, 0)

/-- One row of a `COPY` from COO in the columns given: each place is the sum of its entries (R118), and reading
them counts reserved codes and bad spill pointers (R43, R64). -/
def State.cooInit (s : State) (c : Nat) (m : RunMop) (d : Desc) (i : Nat) (cols : List Nat) : InitRow :=
  let r := s.coreRd c
  let mine (j : Nat) := (m.merged.filter fun p => p.1 == i * d.cols + j).map Prod.snd
  let sums := cols.map fun j => (j, cooSum m.kind d.fmt ((mine j).map fun e => (r.slot d e).e))
  let read := cols.foldl (fun a j => (mine j).foldl (fun a e => a.push i j (r.slot d e) (e / 32)) a) RowRead.empty
  { words := sums.map fun v => (v.1, v.2.1), sat := (sums.map fun v => v.2.2.1).sum,
    nf := (sums.map fun v => v.2.2.2).sum, bad := read.ents.any fun e => e.poison, read := read }

/-- The element of a `COPY` or `ELEMWISE` source at (i, j) of its view: word and poison. A place that a
compressed source does not store is 0. -/
def srcValue (r : Rd) (d : Desc) (row : RowRead) (kind : TileKind) (i j : Nat) : Word × Bool :=
  if d.cfmt = .dns then
    let v := r.value d (d.index i j)
    (tileWord kind v.1, v.2)
  else match row.ents.find? fun e => e.k == j with
  | some e => (tileWord kind (e.num d.fmt), e.poison)
  | none => (0, false)

/-- A row of a tile that initialization leaves at 0. -/
def InitRow.zero : InitRow := { words := [], sat := 0, nf := 0, bad := false, read := RowRead.empty }

/-- One row of a `COPY` or `ELEMWISE` source in the n-tile from column n0. -/
def State.srcInit (s : State) (c : Nat) (d : Desc) (kind : TileKind) (i n0 : Nat) (cols : List Nat) : InitRow :=
  let r := s.coreRd c
  let row := r.row d false i
  let vs := cols.map fun j => (j, srcValue r d row kind i j)
  let mine := row.window (n0 / 128)
  let mine : RowRead := if d.cfmt = .dns then
      { mine with drops := mine.drops.filter fun q => match q.col with
          | some j => cols.contains j
          | none => true,
                  rsv := mine.rsv.filter cols.contains }
    else mine
  { words := vs.map fun v => (v.1, v.2.1), sat := 0, nf := 0, bad := row.metaBad || vs.any fun v => v.2.2,
    read := { mine with drops := mine.drops ++ (if n0 = 0 then row.placeless else []) } }

/-- The preload that a macro-operation names. -/
def RunMop.pre (m : RunMop) : Option Desc :=
  if usesPre m.op ∧ mopPre m.words ≠ noHandle then m.desc (mopPre m.words) else none

/-- What initialization does to row i of a tile, in the n-tile from column n0 (R165). The rows that share an
index of a `GATHER` are computed from nothing, and each takes its preload when the drain writes it (R139):
−0 leaves a lane sum as it is. -/
def State.initRow (s : State) (c : Nat) (m : RunMop) (kind : TileKind) (i n0 : Nat) : InitRow :=
  let cols := (List.range' n0 128).filter (· < m.N)
  if m.op = 0x17 ∨ m.op = 0x19 then
    match m.dA with
    | none => InitRow.zero
    | some d =>
      if d.cfmt = .coo ∧ m.op = 0x17 then s.cooInit c m d i cols else s.srcInit c d kind i n0 cols
  else match m.pre with
    | none => InitRow.zero
    | some d =>
      if m.op = 0x13 ∧ (m.leader (n0 / 128) i).isSome then
        (if kind = .int32 then InitRow.zero
         else { InitRow.zero with words := cols.map fun j => (j, 0x80000000#32) })
      else
        let vs := cols.map fun j => (j, (s.coreRd c).value d (d.index i j))
        { InitRow.zero with words := vs.map fun v => (v.1, tileWord kind v.2.1), bad := vs.any fun v => v.2.2 }

/-- The elements that row i of a tile takes at its initialization: of the preload, or of a dense source. -/
def RunMop.initElems (m : RunMop) (i n0 : Nat) : List (Desc × List Nat) :=
  let cols := (List.range' n0 128).filter (· < m.N)
  let src := if m.op = 0x17 ∨ m.op = 0x19 then m.dA.filter fun d => d.cfmt == .dns
    else if m.op = 0x13 ∧ (m.leader (n0 / 128) i).isSome then none else m.pre
  match src with
  | some d => cols.map fun j => (d, d.index i j)
  | none => []

/-- Words of a slot are replaced: every word 0, then those given by row and column. -/
def clearSlot (acc : SMap Word) (slot : Nat) : SMap Word :=
  acc.filter fun e => !(decide (slot * 16384 ≤ e.1 ∧ e.1 < (slot + 1) * 16384))

/-- A word of the accumulator memory. -/
def accAt (acc : SMap Word) (slot i j : Nat) : Word :=
  SMap.get (fun _ => 0) acc (slot * 16384 + i * 128 + j)
def accPut (acc : SMap Word) (slot i j : Nat) (v : Word) : SMap Word :=
  SMap.set (fun _ => 0) acc (slot * 16384 + i * 128 + j) v

/-- The slot's four flags are cleared (R165, R187). -/
def State.clearFlags (s : State) (c slot : Nat) : State :=
  let b := slot % 32
  let s := (s.setRegF (Reg.ACC_SAT_TILE c (slot / 32)) b b 0).setRegF (Reg.ACC_POISON_TILE c (slot / 32)) b b 0
  let k := s.core c
  s.setCore c { k with tileNonfin := k.tileNonfin.filter (· != slot),
                       tileEmpty := k.tileEmpty.filter (· != slot) }

/-- The words of a slot that initialization leaves. -/
def fillSlot (acc : SMap Word) (slot : Nat) (rows : List (Nat × List (Nat × Word))) : SMap Word :=
  rows.foldl (fun acc r => r.2.foldl (fun acc v => accPut acc slot r.1 (v.1 % 128) v.2) acc) acc

/-- A tile of two slots (R166). -/
def Tile.two (t : Tile) : Bool := decide (t.kind = .comp ∨ t.kind = .sumsqComp)

/-- The rows of a tile with what initialization gives each (R165). -/
def State.initRows (s : State) (c : Nat) (m : RunMop) (t : Tile) : List (Nat × InitRow) :=
  ((List.range' (128 * t.x) 128).filter (· < m.M)).map fun i => (i % 128, s.initRow c m t.kind i (128 * t.y))

/-- The accumulator memory once a tile's slots are cleared and filled. -/
def initAcc (t : Tile) (acc : SMap Word) (slot : Nat) (got : List (Nat × InitRow)) : SMap Word :=
  fillSlot (if t.two then clearSlot (clearSlot acc slot) (slot + 1) else clearSlot acc slot) slot
    (got.map fun g => (g.1, g.2.words))

/-- TILE_INIT (R165): the next tile of the group is cleared or loaded. -/
def execTileInit (c : Core) (s : State) : Out :=
  let k := s.core c
  match k.cur with
  | none => .next s
  | some m =>
    match m.toInit with
    | [] => .next s
    | slot :: rest =>
      match SMap.get (fun _ => none) k.tiles slot with
      | none => .next s
      | some t =>
        if (s.coreLinked c && s.feedReady c m) = false then .next s
        else
          let rows := (List.range' (128 * t.x) 128).filter (· < m.M)
          let got := s.initRows c m t
          let sat := (got.map fun g => g.2.sat).sum
          let nf := (got.map fun g => g.2.nf).sum
          let bad := (got.any fun g => g.2.bad) || m.metaPoison.contains (t.x, t.y)
          let tiles := SMap.set (fun _ => none) k.tiles slot (some { t with init := true })
          let reads := got.map fun g => g.2.read
          let keys := (reads.flatMap RowRead.drops).filterMap Drop.key
          let s := s.setCore c { k with cur := some { m with toInit := rest, dropped := (m.dropped ++ keys).dedup },
                                        acc := initAcc t k.acc slot got, tiles := tiles }
          let s := s.clearFlags c slot
          let s := if t.two then s.clearFlags c (slot + 1) else s
          let s := (s.flagTile c slot (decide (0 < sat)) bad (decide (0 < nf))).countAcc c sat nf
          let s := s.feedElems c (rows.flatMap fun i => m.initElems i (128 * t.y))
          let s := s.countReadsOnce c 0 m.tagA reads m.dropped
          let s := (s.count c 0x080 0 1).count c 0x081 0 (got.any fun g => !g.2.words.isEmpty).toNat
          .next (s.advance c)

/-! ### Accumulation (R158, R159, R166, R171, R172) -/

/-- One lane sum into one element of a tile: the new accumulator, saturations, non-finite additions. -/
def addElem (kind : TileKind) (acc : SMap Word) (slot i j : Nat) (l : Word) : SMap Word × Nat × Nat :=
  match kind with
  | .comp | .sumsqComp =>
    let r := pairAdd (accAt acc slot i j, accAt acc (slot + 1) i j) l
    (accPut (accPut acc slot i j r.1.1) (slot + 1) i j r.1.2, r.2.1.toNat, r.2.2.toNat)
  | .int32 =>
    let r := satI32 ((accAt acc slot i j).toInt + l.toInt)
    (accPut acc slot i j r.1, r.2.toNat, 0)
  | _ =>
    let r := accAdd (accAt acc slot i j) l
    (accPut acc slot i j r.1, r.2.1.toNat, r.2.2.toNat)

/-- A count as FP32 (R172). -/
def natF32 (n : Nat) : Word := toF32 (.ofInt n)

/-- The parallel-variance rule on (n, mean, M2) (R172): the new state, and how many of its additions saturated
and how many were not finite (R160); a saturated count saturates too. -/
def combine (st : Word × Word × Word) (sw tw : Word) (nw : Nat) : (Word × Word × Word) × Nat × Nat :=
  let mu := fdiv sw (natF32 nw)
  let d := accAdd tw (fneg (fmul sw mu))
  let m2 := if (f32 d.1).lt .zero then 0#32 else d.1
  if st.1 = 0 then ((BitVec.ofNat 32 nw, mu, m2), d.2.1.toNat, d.2.2.toNat)
  else
    let np := satWord (st.1.toNat + nw)
    let delta := accAdd mu (fneg st.2.1)
    let f := fdiv (natF32 nw) (natF32 np.toNat)
    let mean := accAdd st.2.1 (fmul delta.1 f)
    let sum := accAdd st.2.2 m2
    let mm := accAdd sum.1 (fmul (fmul delta.1 delta.1) (fmul (natF32 st.1.toNat) f))
    let adds := [d, delta, mean, sum, mm]
    ((np, mean.1, mm.1),
     (decide (0xFFFFFFFF < st.1.toNat + nw)).toNat + (adds.map fun x => x.2.1.toNat).sum,
     (adds.map fun x => x.2.2.toNat).sum)

/-- A row of a mean-and-variance tile takes one window. -/
def addMoments (acc : SMap Word) (slot i : Nat) (sw tw : Word) (nw : Nat) : SMap Word × Nat × Nat :=
  let r := combine (accAt acc slot i 0, accAt acc slot i 1, accAt acc slot i 2) sw tw nw
  (accPut (accPut (accPut acc slot i 0 r.1.1) slot i 1 r.1.2.1) slot i 2 r.1.2.2, r.2.1, r.2.2)

/-- A sum added with its counts. -/
def addInto (a : SMap Word × Nat × Nat) (r : SMap Word → SMap Word × Nat × Nat) : SMap Word × Nat × Nat :=
  let x := r a.1
  (x.1, a.2.1 + x.2.1, a.2.2 + x.2.2)

/-- The sum of a lane and column of a `SUMQ` word, +0 where no product met it. -/
def SumWord.at (w : SumWord) (l j : Nat) : Word :=
  match w.sums.find? fun q => q.1 == l && q.2.1 == j with
  | some q => q.2.2
  | none => 0

/-- A `SUMQ` word is added into its tile. -/
def accumulate (t : Tile) (acc : SMap Word) (w : SumWord) : SMap Word × Nat × Nat :=
  let lanes := w.lanes.zipIdx
  match t.kind with
  | .meanVar =>
    let a := lanes.foldl (fun a p => addInto a fun acc =>
      addMoments acc w.tile p.1 (w.at p.2 0) (w.at p.2 1) (at0 w.npos p.2)) (acc, 0, 0)
    w.idle.foldl (fun a p => addInto a fun acc => addMoments acc w.tile p.1 0 0 p.2) a
  | .sumsq | .sumsqComp =>
    lanes.foldl (fun a p => addInto a fun acc => addElem t.kind acc w.tile p.1 0 (w.at p.2 1)) (acc, 0, 0)
  | kind =>
    w.sums.foldl (fun a q =>
      match w.lanes[q.1]? with
      | some row => addInto a fun acc => addElem kind acc w.tile row q.2.1 q.2.2
      | none => a) (acc, 0, 0)

/-- Output elements reached by a product, for `SPGEMM` (R141). -/
def RunMop.mark (m : RunMop) (t : Tile) (w : SumWord) : RunMop :=
  if m.op = 0x12 then
    { m with reached := w.sums.foldl (fun l q =>
        match w.lanes[q.1]? with
        | some row => insertSorted l ((128 * t.x + row) * m.N + 128 * t.y + q.2.1)
        | none => l) m.reached }
  else m

/-- A `SUMQ` word reaches the accumulator memory. -/
def State.addSums (s : State) (c : Nat) (w : SumWord) (bad : Bool) : State :=
  let k := s.core c
  match k.cur, SMap.get (fun _ => none) k.tiles w.tile with
  | some m, some t =>
    let r := accumulate t k.acc w
    let s := s.setCore c { k with cur := some (m.mark t w), acc := r.1 }
    let s := s.flagTile c w.tile (w.sat || decide (0 < r.2.1)) (bad || decide (w.poison ≠ 0))
      (w.nonfin || decide (0 < r.2.2))
    s.countAcc c r.2.1 r.2.2
  | _, _ => s

/-- The tile that a word is meant for has been initialized. -/
def CoreSt.tileReady (k : CoreSt) (slot : Nat) : Bool :=
  match SMap.get (fun _ => none) k.tiles slot with
  | some t => t.init
  | none => false

/-- SUMQ_ACCUMULATE (R158 to R172): a word waits for its tile's initialization; an empty queue gives its
last word again and sets `UNDERRUN` (R149). -/
def execSumqAccumulate (c : Core) (bad : Bool) (s : State) : Out :=
  let k := s.core c
  if s.coreRuns c = false then .next s
  else match k.sumq with
  | w :: rest =>
    if k.tileReady w.tile then
      let s := s.setCore c { k with sumq := rest, sumLast := some w }
      let s := if bad then s.qPoison c 6 else s
      .next (((s.addSums c w bad).advance c).prefetch c)
    else .next s
  | [] =>
    let w := k.sumLast.getD SumWord.zero
    let s := s.underrun c 6
    .next (if k.tileReady w.tile then s.addSums c w false else s)

end Sys2Proof.Machine
end

