-- ==== Sys2Proof/Machine/Crypto.lean ====
section
/-! DEFINITION. The functions that R423 names: SHA-512 (FIPS 180-4) and ECDSA verification on P-521
(FIPS 186-5), and the SMBus CRC-8 of R460. PRESUMED: their definitions come from those standards
(log entry 19). -/

namespace Sys2Proof.Machine

open Sys2Proof

/-- The number that bytes write, most significant byte first (R423). -/
def beNat (l : List Byte) : Nat := l.foldl (fun a b => a * 256 + b.toNat) 0

/-- n bytes of a number, most significant byte first. -/
def beBytes (n v : Nat) : List Byte := (leBytes n v).reverse

/-! ### SHA-512 -/

/-- Integer cube or square root by bits b − 1 down to 0: the largest r with r^k ≤ n. -/
def irootFrom (k n : Nat) : Nat → Nat → Nat
  | 0, r => r
  | b + 1, r => irootFrom k n b (if (r + 2 ^ b) ^ k ≤ n then r + 2 ^ b else r)

/-- The first 80 primes. -/
def primes80 : List Nat :=
  [2, 3, 5, 7, 11, 13, 17, 19, 23, 29, 31, 37, 41, 43, 47, 53, 59, 61, 67, 71, 73, 79, 83, 89, 97,
   101, 103, 107, 109, 113, 127, 131, 137, 139, 149, 151, 157, 163, 167, 173] ++
  [179, 181, 191, 193, 197, 199, 211, 223, 227, 229, 233, 239, 241, 251, 257, 263, 269, 271, 277,
   281, 283, 293, 307, 311, 313, 317, 331, 337, 347, 349, 353, 359, 367, 373, 379, 383, 389, 397,
   401, 409]

/-- Round constants: the first 64 fractional bits of the cube roots of the first 80 primes. -/
def shaK : List (BitVec 64) := primes80.map fun p => BitVec.ofNat 64 (irootFrom 3 (p * 2 ^ 192) 68 0)

/-- Initial hash: the first 64 fractional bits of the square roots of the first 8 primes. -/
def shaH0 : List (BitVec 64) :=
  (primes80.take 8).map fun p => BitVec.ofNat 64 (irootFrom 2 (p * 2 ^ 128) 67 0)

/-- Message schedule: the last 16 words, newest first; each round adds one. -/
def shaNext (w : List (BitVec 64)) : BitVec 64 :=
  let a := w.getD 14 0
  let b := w.getD 1 0
  let s0 := a.rotateRight 1 ^^^ a.rotateRight 8 ^^^ (a >>> 7)
  let s1 := b.rotateRight 19 ^^^ b.rotateRight 61 ^^^ (b >>> 6)
  s1 + w.getD 6 0 + s0 + w.getD 15 0

/-- The schedule of n more words after 16, in order, newest first in the accumulator. -/
def shaSchedule : Nat → List (BitVec 64) → List (BitVec 64)
  | 0, w => w
  | n + 1, w => shaSchedule n (shaNext w :: w)

/-- One round on (a … h). -/
def shaRound (v : List (BitVec 64)) (kw : BitVec 64) : List (BitVec 64) :=
  match v with
  | [a, b, c, d, e, f, g, h] =>
    let s1 := e.rotateRight 14 ^^^ e.rotateRight 18 ^^^ e.rotateRight 41
    let ch := (e &&& f) ^^^ (~~~e &&& g)
    let t1 := h + s1 + ch + kw
    let s0 := a.rotateRight 28 ^^^ a.rotateRight 34 ^^^ a.rotateRight 39
    let mj := (a &&& b) ^^^ (a &&& c) ^^^ (b &&& c)
    [t1 + (s0 + mj), a, b, c, d + t1, e, f, g]
  | v => v

/-- The words of a 128-byte block. -/
def shaWords : Nat → List Byte → List (BitVec 64)
  | 0, _ => []
  | n + 1, l => BitVec.ofNat 64 (beNat (l.take 8)) :: shaWords n (l.drop 8)

/-- The compression of one block into the hash. -/
def shaBlock (h : List (BitVec 64)) (blk : List Byte) : List (BitVec 64) :=
  let w := (shaSchedule 64 (shaWords 16 blk).reverse).reverse
  let v := ((shaK.zip w).map fun p => p.1 + p.2).foldl shaRound h
  (h.zip v).map fun p => p.1 + p.2

/-- Blocks in order. -/
def shaBlocks : Nat → List (BitVec 64) → List Byte → List (BitVec 64)
  | 0, h, _ => h
  | n + 1, h, l => shaBlocks n (shaBlock h (l.take 128)) (l.drop 128)

/-- SHA-512 of bytes, as 64 bytes. -/
def sha512 (l : List Byte) : List Byte :=
  let pad := l ++ [0x80#8] ++ List.replicate ((240 - (l.length + 1) % 128) % 128) 0 ++
    beBytes 16 (8 * l.length)
  (shaBlocks (pad.length / 128) shaH0 pad).flatMap fun w => beBytes 8 w.toNat

/-! ### P-521 -/

def p521 : Nat := 2 ^ 521 - 1

def p521n : Nat :=
  0x1fffffffffffffffffffffffffffffffffffffffffffffffffffffffffffffffffa51868783bf2f966b7fcc0148f709a5d03bb5c9b8899c47aebb6fb71e91386409

def p521b : Nat :=
  0x0051953EB9618E1C9A1F929A21A0B68540EEA2DA725B99B315F3B8B489918EF109E156193951EC7E937B1652C0BD3BB1BF073573DF883D2C34F1EF451FD46B503F00

def p521g : Nat × Nat :=
  (0x00C6858E06B70404E9CD9E3ECB662395B4429C648139053FB521F828AF606B4D3DBAA14B5E77EFE75928FE1DC127A2FFA8DE3348B3C1856A429BF97E7E31C2E5BD66,
   0x011839296A789A3BC0045C8A5FB42C7D1BD998F54449579B446817AFBD17273E662C97EE72995EF42640C550B9013FAD0761353C7086A272C24088BE94769FD16650)

/-- b^e modulo m over the bits of e, lowest first. -/
def powMod (m : Nat) : Nat → Nat → Nat → Nat
  | 0, _, _ => 1 % m
  | k + 1, b, e => (if e % 2 = 1 then b else 1) * powMod m k (b * b % m) (e / 2) % m

/-- Inverse modulo a prime of at most 521 bits. -/
def invMod (m a : Nat) : Nat := powMod m 521 (a % m) (m - 2)

/-- Difference modulo m of residues. -/
def subMod (m a b : Nat) : Nat := (a + m - b % m) % m

/-- Addition of points of y² = x³ − 3x + b; `none` is the point at infinity. -/
def ecAdd : Option (Nat × Nat) → Option (Nat × Nat) → Option (Nat × Nat)
  | none, q => q
  | q, none => q
  | some (x1, y1), some (x2, y2) =>
    if x1 = x2 ∧ (y1 + y2) % p521 = 0 then none
    else
      let l :=
        if x1 = x2 then subMod p521 (3 * x1 * x1) 3 * invMod p521 (2 * y1) % p521
        else subMod p521 y2 y1 * invMod p521 (subMod p521 x2 x1) % p521
      let x := subMod p521 (subMod p521 (l * l) x1) x2
      some (x, subMod p521 (l * subMod p521 x1 x) y1)

/-- Scalar multiple over k bits, lowest first. -/
def ecMul : Nat → Nat → Option (Nat × Nat) → Option (Nat × Nat)
  | 0, _, _ => none
  | k + 1, n, q => ecAdd (if n % 2 = 1 then q else none) (ecMul k (n / 2) (ecAdd q q))

/-- A coordinate pair is a point of the curve. -/
def onCurve (x y : Nat) : Bool :=
  decide (x < p521 ∧ y < p521 ∧ y * y % p521 = (subMod p521 (x * x * x) (3 * x) + p521b) % p521)

/-- ECDSA verification of a 512-bit digest (R423, check 5). -/
def ecdsaVerify (h : List Byte) (x y r sg : Nat) : Bool :=
  decide (0 < r ∧ r < p521n ∧ 0 < sg ∧ sg < p521n) && onCurve x y &&
    let w := invMod p521n sg
    let u1 := beNat h * w % p521n
    let u2 := r * w % p521n
    match ecAdd (ecMul 521 u1 (some p521g)) (ecMul 521 u2 (some (x, y))) with
    | none => false
    | some (px, _) => decide (px % p521n = r)

/-! ### CRC-8 -/

/-- One byte of the CRC with generator 0x07. -/
def crc8Byte (c b : Byte) : Byte :=
  (List.range 8).foldl (fun c _ => if c.getLsbD 7 then (c <<< 1) ^^^ 0x07#8 else c <<< 1) (c ^^^ b)

/-- The PEC of R460 over bytes. -/
def crc8 (l : List Byte) : Byte := l.foldl crc8Byte 0

end Sys2Proof.Machine
end

