-- ==== Sys2Proof/Machine/Boot.lean ====
section
/-! DEFINITION. Start-up, the flash, signed records, the configuration in force, readiness, identity
and attestation (R418 to R442). -/

namespace Sys2Proof.Machine

open Sys2Proof

/-! ### Draws and signatures -/

/-- A free number below 2^576, from nine draws. -/
def State.drawBig (s : State) : Nat × State :=
  ((List.range 9).foldl (fun a i => a + (Config.free (s.freeCtr + i)).toNat * 2 ^ (64 * i)) 0,
   { s with freeCtr := s.freeCtr + 9 })

/-- An ECDSA signature r, s of a digest under a private scalar with nonce k, as 132 bytes. -/
def ecdsaSign (h : List Byte) (d k : Nat) : List Byte :=
  match ecMul 521 k (some p521g) with
  | none => List.replicate 132 0
  | some (x, _) =>
    beBytes 66 (x % p521n) ++
      beBytes 66 (invMod p521n k * ((beNat h + x % p521n * d) % p521n) % p521n)

/-! ### Flash layout (R420) -/

/-- Base of the slot of a kind: 0 firmware, 1 configuration. -/
def slotBase (kind slot : Nat) : Nat :=
  if kind = 0 then 0x10000 + 0x2000000 * slot else 0x4010000 + 0x100000 * slot

/-- Size of a slot. -/
def slotSize (kind : Nat) : Nat := if kind = 0 then 0x2000000 else 0x100000

/-- n bytes of the flash at an address as a number, least significant byte first. -/
def State.flashLe (s : State) (a n : Nat) : Nat := leNat (flashBytes s.flash a n)

/-- Bytes programmed into flash: programming only clears bits (R436, R438). -/
def State.flashProgram (s : State) (a : Nat) (bytes : List Byte) : State :=
  let old := flashBytes s.flash a bytes.length
  { s with flash := flashWriteBytes s.flash a ((old.zip bytes).map fun p => p.1 &&& p.2) }

/-- Bytes rewritten: erased, then programmed. -/
def State.flashPut (s : State) (a : Nat) (bytes : List Byte) : State :=
  { s with flash := flashWriteBytes s.flash a bytes }

/-! ### Directory (R421) -/

/-- A directory copy is valid. -/
def State.dirValid (s : State) (a : Nat) : Bool :=
  decide (s.flashLe a 4 = 0x5249444E) && decide (s.flashLe (a + 8) 1 ≤ 1) &&
    decide (s.flashLe (a + 9) 1 ≤ 1) && decide (s.flashLe (a + 10) 18 = 0) &&
    decide (crc32c (flashBytes s.flash a 28) = BitVec.ofNat 32 (s.flashLe (a + 28) 4))

/-- The copy in use of two: the valid one, the higher generation of two valid ones, the first on a tie. -/
def pickCopy (v0 v1 : Bool) (g0 g1 a0 a1 : Nat) : Option Nat :=
  if v0 && (!v1 || decide (g1 ≤ g0)) then some a0 else if v1 then some a1 else none

/-- The directory copy in use. -/
def State.dir (s : State) : Option Nat :=
  pickCopy (s.dirValid 0) (s.dirValid 0x8000) (s.flashLe 4 4) (s.flashLe 0x8004 4) 0 0x8000

/-- The slot of a kind that the directory names. -/
def State.dirSlot (s : State) (kind : Nat) : Option Nat :=
  s.dir.map fun a => s.flashLe (a + 8 + kind) 1

/-- The 32 bytes of a directory copy. -/
def dirBytes (gen fw cf : Nat) : List Byte :=
  let b := leBytes 4 0x5249444E ++ leBytes 4 gen ++ leBytes 1 fw ++ leBytes 1 cf ++
    List.replicate 18 0
  b ++ leBytes 4 (crc32c b).toNat

/-- The directory is rewritten to name a slot (R421, R437): the copy not in use, with the next
generation. With no valid copy the first is written (DESIGN CHOICE, log entry 22). -/
def State.nameSlot (s : State) (kind slot : Nat) : State :=
  match s.dir with
  | some a =>
    let other := s.flashLe (a + 9 - kind) 1
    s.flashPut (0x8000 - a) (dirBytes (s.flashLe (a + 4) 4 + 1)
      (if kind = 0 then slot else other) (if kind = 0 then other else slot))
  | none =>
    s.flashPut 0 (dirBytes 1 (if kind = 0 then slot else 0) (if kind = 0 then 0 else slot))

/-! ### Signed records (R422 to R425) -/

/-- The body length that a use allows: type 1 firmware, 2 configuration, 3 revocation, 4 key. -/
def bodyLenOk (typ n : Nat) : Bool :=
  match typ with
  | 1 => decide (n ≤ 33553920)
  | 2 => decide (n = 3456)
  | 3 => decide (n = 4)
  | 4 => decide (n = 68)
  | _ => false

/-- Bytes [hi:lo] of a header as a number (R5). -/
def hd (h : List Byte) (lo n : Nat) : Nat := leNat ((h.drop lo).take n)

/-- The record digest H (R423). -/
def recDigest (hdr body : List Byte) : List Byte :=
  sha512 (hdr.take 156 ++ List.replicate 132 0 ++ hdr.drop 288 ++ body)

/-- A reserved byte of the body of a revocation or key record is not zero (R424). -/
def bodyRsvBad (typ : Nat) (body : List Byte) : Bool := decide ((typ = 3 ∨ typ = 4) ∧ hd body 1 3 ≠ 0)

/-- The checks of R423 in order: the `AUTH_FAIL` code of the first failure, 0 when none fails. A
`KEY_IDX` above 3 names no programmed slot. -/
def authCheck (otp : Otp) (typ : Nat) (hdr body : List Byte) : Nat :=
  let idx := hd hdr 6 2
  let key := otp.keys.getD idx KeySlot.empty
  if hd hdr 0 4 ≠ 0x47534B4E ∨ hd hdr 4 2 ≠ typ ∨ bodyLenOk typ (hd hdr 12 4) = false ∨
      hd hdr 12 4 ≠ body.length ∨ 64 < hd hdr 8 4 ∨ hd hdr 16 8 ≠ 0 ∨ hd hdr 288 224 ≠ 0 ∨
      bodyRsvBad typ body = true then 1
  else if key.programmed = false then 2
  else if key.revoked then 3
  else if beNat (sha512 ((hdr.drop 24).take 132)) ≠ key.digest.toNat then 4
  else if ecdsaVerify (recDigest hdr body) (beNat ((hdr.drop 24).take 66))
      (beNat ((hdr.drop 90).take 66)) (beNat ((hdr.drop 156).take 66))
      (beNat ((hdr.drop 222).take 66)) = false then 5
  else if hd hdr 8 4 < otp.svn then 6
  else 0

/-- `DETAIL` of `AUTH_FAIL` (R423). -/
def authDetail (code : Nat) (hdr : List Byte) : Nat := code + 256 * (hd hdr 6 2 % 256)

/-- Header and body of the record in a slot; a length beyond the slot is cut at its end. -/
def State.slotRecord (s : State) (kind slot : Nat) : List Byte × List Byte :=
  let a := slotBase kind slot
  let hdr := flashBytes s.flash a 512
  (hdr, flashBytes s.flash (a + 512) (min (hd hdr 12 4) (slotSize kind - 512)))

/-- The `SVN` of the record in a slot. -/
def State.slotSvn (s : State) (kind slot : Nat) : Nat := s.flashLe (slotBase kind slot + 8) 4

/-! ### Configuration (R427 to R429) -/

/-- A region breaks R246: alignment or reach. -/
def regionBad (base size : Nat) : Bool :=
  decide (base % 0x60000 ≠ 0) || decide (size % 0x60000 ≠ 0) || decide (farSize < base + size)

/-- The repair map of a bridge direction. -/
def repairMap (body : List Byte) (k : Nat) : List (BitVec 16) :=
  (List.range 64).map fun j => BitVec.ofNat 16 (hd body (128 + 128 * k + 2 * j) 2)

/-- The used entries of a repair map are ascending, distinct and in range, none after an unused one. -/
def repairOk (m : List (BitVec 16)) : Bool :=
  let used := (m.takeWhile (· != 0xFFFF)).map BitVec.toNat
  (m.drop used.length).all (· == 0xFFFF) && used.all (fun e => decide (e ≤ 8191)) &&
    (used.zip (used.drop 1)).all fun p => decide (p.1 < p.2)

/-- The checks of R428 in order: the first that fails, 0 when none does. -/
def configCheck (b : List Byte) : Nat :=
  let node := hd b 0 2
  let twin := hd b 2 2
  let rs := [(hd b 8 8, hd b 16 8), (hd b 24 8, hd b 32 8), (hd b 40 8, hd b 48 8)]
  let r (i : Nat) := rs.getD i (0, 0)
  let meets := overlap (r 0).1 (r 0).2 (r 1).1 (r 1).2 || overlap (r 0).1 (r 0).2 (r 2).1 (r 2).2 ||
    overlap (r 1).1 (r 1).2 (r 2).1 (r 2).2
  if 0xFFFD ≤ node ∨ twin = node ∨ twin = 0xFFFD ∨ twin = 0xFFFE then 1
  else if twin ≠ 0xFFFF ∧ (7 < hd b 4 1 ∨ hd b 5 1 < 8 ∨ 15 < hd b 5 1) then 2
  else if (rs.any fun x => regionBad x.1 x.2) = true ∨ meets = true ∨ 0x18000000 < (r 2).2 ∨
      (r 1).2 < 12977 * 0x100000 ∨ (twin ≠ 0xFFFF ∧ (r 0).2 = 0) then 3
  else if ((List.range 6).any fun d => decide (5 < hd b (56 + d) 1)) = true then 4
  else if ((List.range 26).all fun k => repairOk (repairMap b k)) = false then 5
  else if hd b 6 2 ≠ 0 ∨ hd b 62 2 ≠ 0 ∨ hd b 68 60 ≠ 0 then 6
  else if hd b 64 4 ≠ 0 ∧ (hd b 64 4 < 1500 ∨ 3600 < hd b 64 4) then 7
  else 0

/-- The configuration of a record body. -/
def parseConfig (b : List Byte) : Cfg :=
  { node := BitVec.ofNat 16 (hd b 0 2), twin := BitVec.ofNat 16 (hd b 2 2), port0 := hd b 4 1,
    port1 := hd b 5 1, mirrorBase := hd b 8 8, mirrorSize := hd b 16 8, dumpBase := hd b 24 8,
    dumpSize := hd b 32 8, spareBase := hd b 40 8, spareSize := hd b 48 8,
    caches := (List.range 6).map fun d => hd b (56 + d) 1, pwrLimit := hd b 64 4,
    repair := (List.range 26).map (repairMap b) }

/-- The effective power limit (R449). -/
def State.powerLimit (s : State) : Nat :=
  let lim := match s.cfg with
    | some c => if c.pwrLimit = 0 then 3600 else c.pwrLimit
    | none => 3600
  let w := s.regF Reg.PWR_CAP 15 0
  if w = 0 then lim else min lim (max 1500 (min 3600 w))

/-- The configuration is applied (R429, R395): the registers that report it, window 3, the repair
maps of the bridges (R16). -/
def State.applyConfig (s : State) (c : Cfg) : State :=
  let s := { s with cfg := some c }
  let s := c.repair.zipIdx.foldl (fun s m => s.setBridge m.2 { s.bridge m.2 with map := some m.1 }) s
  let s := [0, 1].foldl (fun s e =>
    let s := (s.setReg (Reg.CLV_NODE_ID e) (c.node.setWidth 32)).setReg (Reg.CLV_TWIN_NODE e)
      (c.twin.setWidth 32)
    if c.twin = 0xFFFF then s
    else (s.setReg48 (Reg.CLV_WIN_BASE_LO e 3) (Reg.CLV_WIN_BASE_HI e 3) c.mirrorBase).setReg48
      (Reg.CLV_WIN_SIZE_LO e 3) (Reg.CLV_WIN_SIZE_HI e 3) c.mirrorSize) s
  let s := (List.range 16).foldl (fun s p =>
    s.setRegF (Reg.CLV_PORT_STAT (p / 8) (p % 8)) 29 29
      (if c.twin ≠ 0xFFFF ∧ (p = c.port0 ∨ p = c.port1) then 1 else 0)) s
  let s := s.setReg48 Reg.GLB_MIRROR_BASE_LO Reg.GLB_MIRROR_BASE_HI c.mirrorBase
  let s := s.setReg48 Reg.GLB_MIRROR_SIZE_LO Reg.GLB_MIRROR_SIZE_HI c.mirrorSize
  let s := s.setReg48 Reg.GLB_DUMP_BASE_LO Reg.GLB_DUMP_BASE_HI c.dumpBase
  let s := s.setReg48 Reg.GLB_DUMP_SIZE_LO Reg.GLB_DUMP_SIZE_HI c.dumpSize
  let s := s.setReg48 Reg.GLB_SPARE_BASE_LO Reg.GLB_SPARE_BASE_HI c.spareBase
  let s := s.setReg Reg.GLB_SPARE_SIZE (BitVec.ofNat 32 c.spareSize)
  let s := (List.range 6).foldl
    (fun s d => s.setReg (Reg.NMEM_CFG d) (BitVec.ofNat 32 (c.caches.getD d 0))) s
  let s := (List.range 192).foldl (fun s ch =>
    s.setRegF (Reg.FMEM_CHAN_STAT (ch / 96) (ch % 96)) 26 16
      (c.spareSize / 0x60000 - (s.chan ch).spareUsed)) s
  s.setRegF Reg.PWR_STAT 15 0 s.powerLimit

/-! ### Health area (R430) -/

/-- A health copy is valid. -/
def State.healthValid (s : State) (a : Nat) : Bool :=
  decide (s.flashLe a 4 = 0x48544C48) &&
    decide (crc32c (flashBytes s.flash a 0x1FFFFC) = BitVec.ofNat 32 (s.flashLe (a + 0x1FFFFC) 4))

/-- The health copy in use. -/
def State.health (s : State) : Option Nat :=
  pickCopy (s.healthValid 0x4210000) (s.healthValid 0x4410000) (s.flashLe 0x4210004 4)
    (s.flashLe 0x4410004 4) 0x4210000 0x4410000

/-- The remap table of a channel in a health copy: valid entries as (row, spare index). -/
def State.healthRemap (s : State) (a ch : Nat) : List (Nat × Nat) :=
  (List.range 1024).filterMap fun j =>
    let p := a + 16 + 8 * (1024 * ch + j)
    if s.flashLe (p + 6) 2 = 1 then some (s.flashLe p 4, s.flashLe (p + 4) 2) else none

/-- The health area is read (R430): retired cores and remap tables, or `HEALTH_EMPTY`. -/
def State.readHealth (s : State) : State :=
  match s.health with
  | none => s.setRegF Reg.BOOT_STAT 11 11 1
  | some a =>
    let s := { s with healthGen := s.flashLe (a + 4) 4 }
    let s := (List.range 54).foldl (fun s c =>
      if bit (s.flashLe (a + 8) 8) c then s.setCore c { s.core c with retired := true } else s) s
    (List.range 192).foldl (fun s ch =>
      let t := s.healthRemap a ch
      s.setChan ch { s.chan ch with remap := t,
                                    spareUsed := t.foldl (fun m e => max m (e.2 + 1)) 0 }) s

/-- The bytes of a health copy: the fields of R430, zeros up to the CRC. -/
def State.healthBytes (s : State) (gen : Nat) : List Byte :=
  let cores := (List.range 54).foldl (fun m c => if (s.core c).retired then m + 2 ^ c else m) 0
  let table := (List.range 192).flatMap fun ch =>
    let t := (s.chan ch).remap
    (List.range 1024).flatMap fun j => match t[j]? with
      | some (row, sp) => leBytes 4 row ++ leBytes 2 sp ++ leBytes 2 1
      | none => List.replicate 8 0
  let b := leBytes 4 0x48544C48 ++ leBytes 4 gen ++ leBytes 8 cores ++ table
  let b := b ++ List.replicate (0x1FFFFC - b.length) 0
  b ++ leBytes 4 (crc32c b).toNat

/-! ### Start-up -/

/-- Consecutive registers written from the words of bytes (R442). -/
def State.setWords (s : State) (a : Nat) (bytes : List Byte) : State :=
  (List.range (bytes.length / 4)).foldl
    (fun s j => s.setReg (a + 4 * j) (BitVec.ofNat 32 (hd bytes (4 * j) 4))) s

/-- `SEC_STAT` reports the one-time-programmable memory (R441). -/
def State.showOtp (s : State) : State :=
  let mask (f : KeySlot → Bool) := (s.otp.keys.zipIdx.map fun p => if f p.1 then 2 ^ p.2 else 0).sum
  let s := s.setRegF Reg.SEC_STAT 22 16 s.otp.svn
  let s := s.setRegF Reg.SEC_STAT 15 12 (mask KeySlot.programmed)
  let s := s.setRegF Reg.SEC_STAT 11 8 (mask KeySlot.revoked)
  match s.otp.ident with
  | some (_, x, y) =>
    (s.setRegF Reg.SEC_STAT 31 31 1).setWords (Reg.SEC_ID_PUB 0) (beBytes 66 x ++ beBytes 66 y)
  | none => s

/-- Start-up cannot complete (R426): the cause, phase 15, `RETIRED`. -/
def State.bootFail (s : State) (cause : Nat) : State :=
  ((s.setRegF Reg.BOOT_STAT 27 24 cause).setRegF Reg.BOOT_STAT 31 28 15).setMode 6

/-- A slot is tried (R423, R428): whether it passes, and the state with the codes met. -/
def State.trySlot (s : State) (kind slot : Nat) : Bool × State :=
  let r := s.slotRecord kind slot
  let s := s.setWords (if kind = 0 then Reg.SEC_FW_MEAS 0 else Reg.SEC_CFG_MEAS 0) (recDigest r.1 r.2)
  let a := authCheck s.otp (kind + 1) r.1 r.2
  if a ≠ 0 then (false, s.setRegF Reg.BOOT_STAT 23 16 a)
  else if kind = 1 ∧ configCheck r.2 ≠ 0 then
    (false, s.setRegF Reg.BOOT_STAT 15 12 (configCheck r.2))
  else (true, s)

/-- The slot that passes, the named one first (R426). -/
def State.findSlot (s : State) (kind slot : Nat) : Option Nat × State :=
  let r := s.trySlot kind slot
  if r.1 then (some slot, r.2)
  else
    let q := r.2.trySlot kind (1 - slot)
    if q.1 then (some (1 - slot), q.2.setRegF Reg.BOOT_STAT (9 + kind) (9 + kind) 1)
    else (none, q.2)

/-- The running record of a kind is noted: slot, key and `SVN` (R439, R441, R442). -/
def State.noteRunning (s : State) (kind slot : Nat) : State :=
  let a := slotBase kind slot
  let s := s.setRegF Reg.BOOT_STAT (8 - kind) (8 - kind) slot
  let s := s.setRegF Reg.SEC_STAT (7 - 2 * kind) (6 - 2 * kind) (s.flashLe (a + 6) 2)
  s.setRegF Reg.SEC_SVN (if kind = 0 then 6 else 22) (if kind = 0 then 0 else 16) (s.flashLe (a + 8) 4)

/-- The private scalar d and its public point are written (R433). -/
def State.setIdent (s : State) (d : Nat) : Option (Nat × Nat) → State
  | some (x, y) => { s with otp := { s.otp with ident := some (d, x, y) } }
  | none => s

/-- The identity key of a random number: the scalar, and its multiple of the base point. -/
def State.makeIdent (s : State) (n : Nat) : State :=
  s.setIdent (n % (p521n - 1) + 1) (ecMul 521 (n % (p521n - 1) + 1) (some p521g))

/-- At most n tries to generate the identity key (R433): what is written is read back and checked, and another scalar
is tried when the one-time-programmable memory has not taken it. -/
def State.tryIdent : Nat → State → State
  | 0, s => s
  | n + 1, s =>
    if s.otp.badWrites = 0 then s.drawBig.2.makeIdent s.drawBig.1
    else State.tryIdent n { s.drawBig.2 with otp := { s.otp with badWrites := s.otp.badWrites - 1 } }

/-- The identity key is generated at the first start, in at most three tries (R433). -/
def State.genIdentity (s : State) : State := if s.otp.ident.isSome then s else State.tryIdent 3 s

/-- The flash device meets the requirements of R419. -/
def FlashPart.ok (p : FlashPart) : Bool :=
  decide (1024 ≤ p.mbit) && p.read114 && p.addr4 && p.erase64k && p.page == 256

/-- The bridge directions from ED0 half 0 to the other halves, on the path of R18. -/
def bootBridges : List Nat := pathDirs (diePath 6 7)

/-- ED0 half 0 cannot reach another half (R426): that half is lost, or what lies between them (R18). -/
def State.cutOff (s : State) : Bool :=
  let between (d : Nat) : Bool := (diePath 6 7).contains d
  bootBridges.any (fun k => (s.bridge k).failed) ||
    s.lostPolders.any (fun p => decide (7 ≤ p) || (decide (p < 6) && between p)) ||
    s.railsOff.any fun r => match r with
      | .vedge h => decide (h.val ≠ 0)
      | .vnoc d => between d
      | .vsram d => between d
      | _ => false

/-- Start-up after the firmware has been verified: identity key, configuration, health area, the
copies to the other halves, the step controller. -/
def State.bootRest (s : State) (dir fw : Nat) : State :=
  let s := { s.noteRunning 0 fw with fwVerified := true }
  let s := s.genIdentity.showOtp
  if s.otp.ident.isNone then s.bootFail 5
  else
    let s := s.setRegF Reg.BOOT_STAT 31 28 3
    match s.findSlot 1 (s.flashLe (dir + 9) 1) with
    | (none, s) => s.bootFail 4
    | (some cf, s) =>
      let s := { s.noteRunning 1 cf with cfgVerified := true }
      let s := (s.setRegF Reg.BOOT_STAT 31 28 4).readHealth
      if s.cutOff then s.bootFail 6
      else
        let s := s.applyConfig (parseConfig (s.slotRecord 1 cf).2)
        (s.setRegF Reg.BOOT_STAT 31 28 5).setMode 1

/-- Both host lanes begin training as the boot ROM starts (R350, R418). -/
def State.startLanes (s : State) : State :=
  [0, 1].foldl (fun s l =>
    if s.linkState (16 + l) = 0 then
      (s.setRegF (Reg.HLK_LANE_STAT l) 31 30 1).incF (Reg.HLK_LANE_STAT l) 7 0
    else s) s

/-- BOOT_ROM_START (R418 to R430): in `BOOTING` with package power. The flash is discovered first (R419). -/
def execBootRomStart (s : State) : Out :=
  if s.mode ≠ 0 ∨ s.power ≠ .good then .next s
  else
    let s := s.startLanes.showOtp
    let s := s.setRegF Reg.BOOT_STAT 31 28 1
    if !s.flashPart.ok then .next (s.bootFail 1) else
    match s.dir with
    | none => .next (s.bootFail 2)
    | some a =>
      let s := s.setRegF Reg.BOOT_STAT 31 28 2
      match s.findSlot 0 (s.flashLe (a + 8) 1) with
      | (none, s) => .next (s.bootFail 3)
      | (some fw, s) => .next (s.bootRest a fw)

/-- A function is up, by its own status (R431, R440); a bridge with its repair maps applied (R16). -/
def State.functionUp (s : State) : ReadyFn → Bool
  | .dieNoc d => (s.island (54 + d.val)).ready
  | .edgeLogic e => (s.island (60 + e.val)).ready
  | .bridge b =>
    (s.island (54 + (bridgeDies b).1)).ready && (s.island (54 + (bridgeDies b).2)).ready &&
      !(s.bridge (2 * b.val)).failed && !(s.bridge (2 * b.val + 1)).failed &&
      (s.bridge (2 * b.val)).map.isSome && (s.bridge (2 * b.val + 1)).map.isSome
  | .updEngine h => (s.island (60 + h.val / 2)).ready
  | .collEngine h => (s.island (60 + h.val / 2)).ready
  | .hostLane l => decide (s.linkState (16 + l.val) = 2)
  | .core c => (s.island c.val).ready
  | .package p => (List.range 4).all fun i =>
      decide (s.regF (Reg.FMEM_CHAN_STAT ((4 * p.val + i) / 96) ((4 * p.val + i) % 96)) 31 30 = 2)
  | .port p => decide (s.linkState p.val = 2)

/-- The readiness bit of a function: register and bit (R440). -/
def readyBit : ReadyFn → Nat × Nat
  | .dieNoc d => (Reg.BOOT_READY_DIE, d.val)
  | .edgeLogic e => (Reg.BOOT_READY_DIE, 6 + e.val)
  | .bridge b => (Reg.BOOT_READY_DIE, 8 + b.val)
  | .updEngine h => (Reg.BOOT_READY_DIE, 21 + h.val)
  | .collEngine h => (Reg.BOOT_READY_DIE, 25 + h.val)
  | .hostLane l => (Reg.BOOT_READY_DIE, 29 + l.val)
  | .core c => if c.val < 32 then (Reg.BOOT_READY_CORE_LO, c.val) else (Reg.BOOT_READY_CORE_HI, c.val - 32)
  | .package p => if p.val < 32 then (Reg.BOOT_READY_FMEM_LO, p.val) else (Reg.BOOT_READY_FMEM_HI, p.val - 32)
  | .port p => (Reg.BOOT_READY_PORT, p.val)

/-- FUNCTION_READY (R431, R440): a function that is up sets its bit. -/
def execFunctionReady (f : ReadyFn) (s : State) : Out :=
  let b := readyBit f
  .next (if s.functionUp f then s.setRegF b.1 b.2 b.2 1 else s)

/-- HEALTH_AREA_WRITE (R430): after a retirement or takeover, the copy not in use is rewritten. -/
def execHealthAreaWrite (s : State) : Out :=
  if s.healthDirty then
    let a := match s.health with
      | some 0x4210000 => 0x4410000
      | _ => 0x4210000
    .next { s.flashPut a (s.healthBytes (s.healthGen + 1)) with
              healthDirty := false, healthGen := s.healthGen + 1 }
  else .next s

/-! ### Flash subcommands (R435 to R438) -/

/-- What a flash subcommand answers: status, `DETAIL`, data. -/
abbrev FlashAns := Nat × Nat × List Byte

/-- A malformed flash command (R358, R435): the offset of the first faulty `ARGS` field, or none for a
length that the subcommand does not allow. Fields that a subcommand does not use are ignored (DEDUCED,
log entry 23). -/
def flashBad (args len : Nat) : Option (Option Nat) :=
  let sub := fld args 7 0
  let kind := fld args 15 8
  let n := fld args 79 64
  if 6 < sub then some (some 0)
  else if sub ≤ 2 ∧ 1 < kind then some (some 1)
  else if fld args 31 16 ≠ 0 then some (some 2)
  else if sub = 1 ∧ fld args 63 32 % 0x10000 ≠ 0 then some (some 4)
  else if sub = 6 ∧ (n < 4 ∨ 8192 < n ∨ n % 4 ≠ 0) then some (some 8)
  else if sub = 6 ∧ fld args 95 80 ≠ 0 then some (some 10)
  else if fld args 159 96 ≠ 0 then some (some 12)
  else
    let ok := match sub with
      | 0 => decide (256 ≤ len ∧ len ≤ 8192 ∧ len % 256 = 0)
      | 4 => decide (len = 516)
      | 5 => decide (len = 580)
      | _ => decide (len = 0)
    if ok then none else some none

/-- The slot of the running record of a kind, when one runs. -/
def State.runSlot (s : State) (kind : Nat) : Option Nat :=
  if (if kind = 0 then s.fwVerified else s.cfgVerified) then
    some (s.regF Reg.BOOT_STAT (8 - kind) (8 - kind))
  else none

/-- The writable slot of a kind (R436): none once `ACTIVATE` has named it. With no valid directory slot 0 is taken
unless it runs (DESIGN CHOICE, log entry 22). -/
def State.writableSlot (s : State) (kind : Nat) : Option Nat :=
  let cand := match s.dirSlot kind with
    | some n => 1 - n
    | none => 0
  if s.runSlot kind = some cand ∨ s.activated.contains kind = true then none else some cand

/-- A range lies in the writable slot: its flash address. -/
def State.inWritable (s : State) (kind off n : Nat) : Option Nat :=
  match s.writableSlot kind with
  | some w => if off + n ≤ slotSize kind then some (slotBase kind w + off) else none
  | none => none

/-- `WRITE`. -/
def State.flWrite (s : State) (kind off : Nat) (data : List Byte) : FlashAns × State :=
  match s.inWritable kind off data.length with
  | some a => ((0, 0, []), s.flashProgram a data)
  | none => ((0xC, 0, []), s)

/-- `ERASE`. -/
def State.flErase (s : State) (kind off : Nat) : FlashAns × State :=
  match s.inWritable kind off 0x10000 with
  | some a => ((0, 0, []), { s with flash := s.flash.filter fun e => !(decide (a ≤ e.1) &&
      decide (e.1 < a + 0x10000)) })
  | none => ((0xC, 0, []), s)

/-- `ACTIVATE` (R437). -/
def State.flActivate (s : State) (kind : Nat) : FlashAns × State :=
  match s.writableSlot kind with
  | none => ((0xC, 0, []), s)
  | some w =>
    let r := s.slotRecord kind w
    let a := authCheck s.otp (kind + 1) r.1 r.2
    if a ≠ 0 then ((0xE, authDetail a r.1, []), s)
    else if kind = 1 ∧ configCheck r.2 ≠ 0 then ((0xB, 0x100 + configCheck r.2, []), s)
    else ((0, 0, []), { s.nameSlot kind w with activated := insertSorted s.activated kind })

/-- `ADVANCE_SVN` (R425). -/
def State.flAdvance (s : State) (t : Nat) : FlashAns × State :=
  let named (kind : Nat) : Bool := match s.dirSlot kind with
    | some n => decide (t ≤ s.slotSvn kind n)
    | none => false
  if s.otp.svn < t ∧ s.fwVerified = true ∧ s.cfgVerified = true ∧ t ≤ s.regF Reg.SEC_SVN 6 0 ∧
      t ≤ s.regF Reg.SEC_SVN 22 16 ∧ named 0 = true ∧ named 1 = true then
    ((0, 0, []), { s with otp := { s.otp with svn := t } }.showOtp)
  else ((0xE, 8, []), s)

/-- `REVOKE` (R424). A record signed under its own target fails with `FORMAT` unless `LAST_KEY` holds
(DEDUCED, log entry 24). -/
def State.flRevoke (s : State) (rec : List Byte) : FlashAns × State :=
  let hdr := rec.take 512
  let body := rec.drop 512
  let a := authCheck s.otp 3 hdr body
  let tgt := hd body 0 1
  let rest := s.otp.keys.zipIdx.any fun p => p.1.programmed && !p.1.revoked && p.2 != tgt
  if a ≠ 0 then ((0xE, authDetail a hdr, []), s)
  else if 3 < tgt then ((0xE, authDetail 1 hdr, []), s)
  else if rest = false then ((0xE, authDetail 7 hdr, []), s)
  else if hd hdr 6 2 = tgt then ((0xE, authDetail 1 hdr, []), s)
  else
    let k := s.otp.keys.getD tgt KeySlot.empty
    ((0, 0, []),
      { s with otp := { s.otp with keys := s.otp.keys.set tgt { k with revoked := true } } }.showOtp)

/-- `KEY_PROGRAM` (R424). A target that is not empty fails with `FORMAT` (DEDUCED, log entry 24). -/
def State.flKey (s : State) (rec : List Byte) : FlashAns × State :=
  let hdr := rec.take 512
  let body := rec.drop 512
  let a := authCheck s.otp 4 hdr body
  let tgt := hd body 0 1
  let k := s.otp.keys.getD tgt KeySlot.empty
  if a ≠ 0 then ((0xE, authDetail a hdr, []), s)
  else if 3 < tgt ∨ k.programmed = true then ((0xE, authDetail 1 hdr, []), s)
  else
    let k := { k with programmed := true, digest := BitVec.ofNat 512 (beNat (body.drop 4)) }
    ((0, 0, []), { s with otp := { s.otp with keys := s.otp.keys.set tgt k } }.showOtp)

/-- A well-formed flash subcommand in a state that allows it. -/
def State.flashOp (s : State) (args : Nat) (payload : List Byte) : FlashAns × State :=
  let kind := fld args 15 8
  let off := fld args 63 32
  match fld args 7 0 with
  | 0 => s.flWrite kind off payload
  | 1 => s.flErase kind off
  | 2 => s.flActivate kind
  | 3 => s.flAdvance (fld args 95 64)
  | 4 => s.flRevoke payload
  | 5 => s.flKey payload
  | _ => ((0, 0, flashBytes s.flash off (fld args 79 64)), s)

/-! ### Attestation (R434) -/

/-- The words of consecutive registers as bytes. -/
def State.regBytes (s : State) (a n : Nat) : List Byte :=
  (List.range n).flatMap fun j => leBytes 4 (s.reg (a + 4 * j)).toNat

/-- Bytes [447:0] of a report. -/
def State.reportBody (s : State) (nonce : List Byte) : List Byte :=
  let node := match s.cfg with
    | some c => c.node.toNat
    | none => 0xFFFF
  let failed := decide (s.regF Reg.BOOT_STAT 31 28 = 15)
  leBytes 4 0x54415650 ++ leBytes 2 1 ++ leBytes 2 node ++ leBytes 8 (s.stamp islED0).toNat ++
    [BitVec.ofNat 8 s.mode,
     BitVec.ofNat 8 (s.fwVerified.toNat + 2 * s.cfgVerified.toNat + 4 * failed.toNat +
       8 * s.prog.isSome.toNat),
     BitVec.ofNat 8 s.otp.svn, BitVec.ofNat 8 (s.regF Reg.SEC_STAT 15 12 + 16 * s.regF Reg.SEC_STAT 11 8)] ++
    leBytes 4 s.committed ++ nonce ++ s.regBytes (Reg.SEC_FW_MEAS 0) 16 ++
    s.regBytes (Reg.SEC_CFG_MEAS 0) 16 ++ s.regBytes (Reg.SEC_IMG_MEAS 0) 16 ++
    s.regBytes (Reg.SEC_ID_PUB 0) 33 ++ List.replicate 36 0

/-- The 584-byte report, and the state after its stamp and its signature's nonce. Without an identity
key the signature is a free value (log entry 25). -/
def State.report (s : State) (nonce : List Byte) : List Byte × State :=
  let body := s.reportBody nonce
  let q := s.drawBig
  let r := q.2.drawBig
  let sig := match s.otp.ident with
    | some (d, _, _) => ecdsaSign (sha512 body) d (r.1 % (p521n - 1) + 1)
    | none => leBytes 132 (r.1 + 2 ^ 576 * q.1)
  (body ++ sig ++ List.replicate 4 0, r.2.bumpSeq islED0)

end Sys2Proof.Machine
end

