-- ==== Sys2Proof/Machine/Drain.lean ====
section
/-! DEFINITION. The drain (R173 to R183): the lane stages, conversion and the spillway (R53 to R64),
dense and compressed outputs (R118, R119, R141, R195), the statistics lane, audit rows (R231, R232). -/

namespace Sys2Proof.Machine

open Sys2Proof

/-! ### Staged writes -/

/-- A byte as it will be. -/
def stByte (mem : Memory) (st : Staging) (a : Nat) : Byte :=
  match SMap.find st a with
  | some (some p) => p.1
  | _ => Memory.byte mem a

/-- A byte joins, poisoned once any of its writes is. -/
def stPut (st : Staging) (a : Nat) (b : Byte) (bad : Bool) : Staging :=
  let old : Bool := match SMap.find st a with
    | some (some p) => p.2
    | _ => false
  SMap.set (fun _ => none) st a (some (b, old || bad))

/-- Bytes from an address. -/
def stBytes (st : Staging) (a : Nat) (bad : Bool) : List Byte → Staging
  | [] => st
  | b :: bs => stBytes (stPut st a b bad) (a + 1) bad bs

/-- An element code at its place (R100, R106). -/
def stCode (mem : Memory) (st : Staging) (base : Nat) (e : Int) (w code : Nat) (bad : Bool) : Staging :=
  let a := codeByte base e w
  if w < 8 then
    let lo := ((e * w).fmod 8).toNat
    stPut st a (BitVec.ofNat 8 (setFld (stByte mem st a).toNat (lo + w - 1) lo code)) bad
  else stBytes st a bad (leBytes (w / 8) code)

/-- An element is the last of its line: its place in the unit dimension is the last one, or there is none. -/
def Desc.lineEnd (d : Desc) (ix : List Nat) : Bool :=
  d.layout == .lin && (match d.unitDim with
    | some u => decide (at0 d.exts u ≤ at0 ix u + 1)
    | none => true)

/-- An element code of a dense tensor at offset e; the last of a line also writes the unused bits of its
byte as zero codes (R106). -/
def stElem (mem : Memory) (st : Staging) (d : Desc) (e : Int) (last : Bool) (code : Nat) (bad : Bool) :
    Staging :=
  let w := d.fmt.width
  let st := stCode mem st d.base e w code bad
  let top := ((e * w).fmod 8).toNat + w
  if last && decide (top < 8) then
    let a := codeByte d.base e w
    stPut st a (BitVec.ofNat 8 (setFld (stByte mem st a).toNat 7 top 0)) bad
  else st

/-- Consecutive staged bytes within one unit: start and bytes, the last run first. -/
def stRuns : List (Nat × Option (Byte × Bool)) → List (Nat × List Byte) → List (Nat × List Byte)
  | [], runs => runs
  | (a, x) :: l, runs =>
    let b : Byte := match x with
      | some p => p.1
      | none => 0
    match runs with
    | (f, bs) :: more =>
      if f + bs.length = a ∧ poisonUnit f = poisonUnit a then stRuns l ((f, bs ++ [b]) :: more)
      else stRuns l ((a, [b]) :: (f, bs) :: more)
    | [] => stRuns l [(a, [b])]

/-- The staged bytes go to memory, unit by unit. A clean write takes the poison off every unit it touches,
but for units that the same macro-operation has written with poison (R165, R389; DEDUCED, log entry 35). -/
def State.commitStage (s : State) (w : Writer) (badUnits : List Nat) (st : Staging) : State × List Nat :=
  let isBad (e : Nat × Option (Byte × Bool)) : Bool := match e.2 with
    | some p => p.2
    | none => false
  let bu := (st.filter isBad).foldl (fun l e => insertSorted l (poisonUnit e.1)) badUnits
  let s := (stRuns st []).reverse.foldl (fun s r =>
    let u := poisonUnit r.1
    let s := s.put w r.1 r.2 (bu.contains u)
    if bu.contains u then s else { s with poison := s.poison.filter (· != u) }) s
  (s, bu)

/-! ### Conversion counters (R67, R68) -/

/-- Overtopping blocks are counted, with the threshold event. -/
def State.countOvertop (s : State) (c : Nat) : State :=
  let thr := (s.reg (Reg.DRN_OVERTOP_THR c)).toNat
  (s.incThr (Reg.DRN_OVERTOP_CNT c) 1 (if thr = 0 then 2 ^ 33 else thr) c 0x0101 0).count c 0x0C3 0 1

/-- `DRN_SAT_CNT`, and `DRN_NONFIN_CNT`. -/
def State.countSat (s : State) (c n : Nat) : State := s.inc (Reg.DRN_SAT_CNT c) n
def State.countNonfin (s : State) (c n : Nat) : State := s.inc (Reg.DRN_NONFIN_CNT c) n

/-! ### Writing a block (R53 to R64) -/

/-- The pointer of a spilled block, or of a NaN block (R60, R63). -/
def spillPtr (idx scale : Nat) : Nat := idx % 2 ^ 32 + scale * 2 ^ 32

/-- The codes that carry a pointer: code i holds bits [w·i + w − 1 : w·i]; the codes behind it are 0. -/
def ptrCodes (w n ptr : Nat) : List Nat := (List.range n).map fun i => ptr / 2 ^ (w * i) % 2 ^ w

/-- A spill record is allocated, when the area has one free (R60): its index, and the state with `NEXT`
advanced. -/
def State.spillAlloc (s : State) (w : Writer) (d : Desc) : Option Nat × State :=
  let a := d.abase 3
  let next := s.rd.le a 4
  if next < s.rd.le (a + 4) 4 then (some next, s.put w a (leBytes 4 (next + 1)) false) else (none, s)

/-- A list in an order that free values choose: the element taken next is any of those left. -/
def freeOrder {α : Type} : Nat → Nat → List α → List α
  | 0, _, l => l
  | n + 1, c, l =>
    let i := (Config.free c).toNat % l.length
    match l[i]? with
    | some x => x :: freeOrder n (c + 1) (l.eraseIdx i)
    | none => l

/-- The order in which the blocks of a tile are converted. R60 leaves open which of several blocks gets
which spill record, or none: those that ask for one come last, in a free order (log entry 119). -/
def State.blockOrder {α : Type} (s : State) (asks : α → Bool) (l : List α) : List α × State :=
  let sp := l.filter asks
  if sp.length < 2 then (l, s)
  else (l.filter (fun x => !asks x) ++ freeOrder sp.length s.freeCtr sp,
    { s with freeCtr := s.freeCtr + sp.length })

/-- A block asks for a spill record: it overtops and may take the spillway (R57, R60). -/
def asksSpill (d : Desc) (ctl : CvtCtl) (room : Bool) (vals : List Num) : Bool :=
  d.hasSpill && room && !ctl.clamp && (convBlock d.fmt ctl.freeboard ctl.stoch 0 vals).overtop

/-- One block is converted (R53 to R64): the codes of its elements and the scale byte. `vals` are the 32
values, missing and unwritten elements 0; `room` says that a spill pointer fits. -/
def State.convertBlock (s : State) (c : Nat) (w : Writer) (d : Desc) (ctl : CvtCtl) (room : Bool)
    (vals : List Num) (bad : Bool) (st : Staging) : List Nat × Nat × State × Staging :=
  let b := convBlock d.fmt ctl.freeboard ctl.stoch s.freeCtr vals
  let s := if ctl.stoch then { s with freeCtr := s.freeCtr + vals.length } else s
  if !b.overtop then (b.codes, b.scale, s.countSat c b.sat, st)
  else
    let s := s.countOvertop c
    let area := d.hasSpill && room
    let (idx, s) := if !ctl.clamp && area then s.spillAlloc w d else (none, s)
    match idx with
    | some i =>
      let r := convBlock .e4m3 1 ctl.stoch s.freeCtr vals
      let s := if ctl.stoch then { s with freeCtr := s.freeCtr + vals.length } else s
      let st := stBytes st (d.abase 3 + 32 + 32 * i) bad (r.codes.map (BitVec.ofNat 8))
      (ptrCodes d.fmt.width vals.length (spillPtr i r.scale), 0xFF, s.countSat c r.sat, st)
    | none =>
      let s := if ctl.clamp then s else s.inc (Reg.DRN_SPILL_FULL_CNT c) 1
      if b.hasNan then
        (if area then ptrCodes d.fmt.width vals.length (spillPtr 0xFFFFFFFF 0)
         else vals.map fun _ => 0, 0xFF, s, st)
      else (b.codes, b.scale, s.countSat c b.sat, st)

/-- One value into an unscaled format: its code; a finite value that becomes an infinity is counted, unless
its element has been (R64, R67). -/
def State.convertPlain (s : State) (c : Nat) (f : ElemFmt) (ctl : CvtCtl) (v : OutVal) : Nat × State :=
  let stoch := ctl.stoch && f != .fp32 && f != .int32
  let r := convPlain f (drawAt stoch s.freeCtr 0) v.x
  let s := if stoch then { s with freeCtr := s.freeCtr + 1 } else s
  let inf := v.x.isFin && f.isFloat && (decodeElem f r.1).isInf && !v.counted
  (r.1, (s.countSat c r.2.toNat).countNonfin c inf.toNat)

/-! ### Dense outputs -/

/-- The index tuples of the block of an element, in block order; a tagged layout's padding has positions
(R48, R111). -/
def Desc.blockElems (d : Desc) (ix : List Nat) : List (List Nat) :=
  match d.layout with
  | .lin => d.blockLin ix
  | _ => (List.range 32).map fun i => ix.set 1 (at0 ix 1 / 32 * 32 + i)

/-- A spill pointer fits the block of an element (R60). -/
def Desc.ptrRoom (d : Desc) (ix : List Nat) : Bool :=
  decide (pointerCodes d.fmt ≤ (d.blockElems ix).length)

/-- An element of the output view that the run writes (R211). -/
def RunMop.writes (m : RunMop) (i j : Nat) : Bool := decide (i < m.mLen) && decide (j < m.nOf i)

/-- The place in the run's output grid of an index tuple of a lane's output: `COPY` maps by the tuple of
its source (R118). -/
def RunMop.gridPos (m : RunMop) (o : Desc) (ix : List Nat) : Nat × Nat :=
  if m.op = 0x17 then
    match m.dA with
    | some a => a.viewPos ix
    | none => o.viewPos ix
  else o.viewPos ix

/-- The index tuple of a lane's output at a place of the grid. -/
def RunMop.outIndex (m : RunMop) (o : Desc) (i j : Nat) : List Nat :=
  if m.op = 0x17 then
    match m.dA with
    | some a => a.index i j
    | none => o.index i j
  else o.index i j

/-- An index tuple lies within the extents. -/
def Desc.within (d : Desc) (ix : List Nat) : Bool := (ix.zip d.exts).all fun p => decide (p.1 < p.2)

/-- A value of 0 that no lane computed. -/
def OutVal.zero : OutVal := { x := .zero, poison := false, counted := false }

/-- A drained value in the lane's buffer. -/
def bufGet (buf : SMap (Option OutVal)) (key : Nat) : Option OutVal :=
  SMap.get (fun _ => none) buf key

/-- The values of the block of an element, in block order: what the run does not write is 0, and what has
not been drained is missing (R176, R211). -/
def RunMop.blockCells (m : RunMop) (o : Desc) (buf : SMap (Option OutVal)) (ix : List Nat) :
    List (Option OutVal) :=
  (o.blockElems ix).map fun ix =>
    let p := m.gridPos o ix
    if o.within ix && m.writes p.1 p.2 then bufGet buf (p.1 * m.N + p.2) else some OutVal.zero

/-- The 32 values of a block. -/
def blockVals (cells : List (Option OutVal)) : List Num :=
  (cells.map fun x => (x.getD OutVal.zero).x) ++ List.replicate (32 - cells.length) .zero

/-- A block whose values to be written have all been drained is converted and staged (R176, R211). -/
def State.writeBlock (s : State) (c : Nat) (w : Writer) (m : RunMop) (o : Desc) (ctl : CvtCtl)
    (buf : SMap (Option OutVal)) (ix : List Nat) (st : Staging) : State × Staging :=
  let ixs := o.blockElems ix
  let cells := m.blockCells o buf ix
  if cells.any Option.isNone then (s, st)
  else
    let vals := blockVals cells
    let bad := cells.any fun x => (x.getD OutVal.zero).poison
    let (codes, sc, s, st) := s.convertBlock c w o ctl (o.ptrRoom ix) vals bad st
    let st := (ixs.zip codes).foldl (fun st p =>
      stElem s.mem st o (o.offset p.1) (o.lineEnd p.1) p.2 bad) st
    (s, stPut st (o.abase 2 + (o.blockOf ix).1) (BitVec.ofNat 8 sc) bad)

/-- A drained tile's part of a dense output: unscaled elements at once, blocks as they fill up. `places`
are the grid places of the tile that the run writes. -/
def State.writeDense (s : State) (c : Nat) (w : Writer) (m : RunMop) (o : Desc) (ctl : CvtCtl)
    (buf : SMap (Option OutVal)) (places : List (Nat × Nat)) (st : Staging) : State × Staging :=
  if o.scaled then
    let firsts := (places.map fun p => (o.blockElems (m.outIndex o p.1 p.2)).headD []).dedup
    let r := s.blockOrder (fun ix =>
      let cells := m.blockCells o buf ix
      !cells.any Option.isNone && asksSpill o ctl (o.ptrRoom ix) (blockVals cells)) firsts
    r.1.foldl (fun a ix => a.1.writeBlock c w m o ctl buf ix a.2) (r.2, st)
  else
    places.foldl (fun a p =>
      match bufGet buf (p.1 * m.N + p.2) with
      | none => a
      | some v =>
        let r := a.1.convertPlain c o.fmt ctl v
        let ix := m.outIndex o p.1 p.2
        (r.2, stElem a.1.mem a.2 o (o.offset ix) (o.lineEnd ix) r.1 v.poison)) (s, st)

/-- The index tuples of a tagged output in the square of pair (x, y): the grid's place turned when the run's
columns are the output's dimension 0. -/
def RunMop.squareIdx (m : RunMop) (o : Desc) (x y : Nat) : List (Nat × Nat) :=
  let turned := (m.gridPos o [1, 0]).2 == 1
  let (a, b) := if turned then (y, x) else (x, y)
  (List.range' (128 * a) 128).flatMap fun i => (List.range' (128 * b) 128).map fun j => (i, j)

/-- A position of a tagged output's storage that is padding: outside the extents, and in a block that holds no
element, whose own writing would fill it. -/
def Desc.isPadding (o : Desc) (i j : Nat) : Bool :=
  let j0 := if o.scaled then j / 32 * 32 else j
  decide (at0 o.exts 0 ≤ i ∨ at0 o.exts 1 ≤ j0) && decide (o.offset [i, j] < (o.tagSize : Int)) &&
    (o.layout != .ilA8 || decide (i < cdiv (at0 o.exts 0) 8 * 8))

/-- Padding of a tagged output within the pair's square is written as zero codes (R48, R111); a block
that is all padding takes scale code `0x7F`. -/
def stagePadding (mem : Memory) (m : RunMop) (o : Desc) (x y : Nat) (st : Staging) : Staging :=
  if o.layout = .lin then st
  else
    (m.squareIdx o x y).foldl (fun st p =>
      if o.isPadding p.1 p.2 then
        let ix := [p.1, p.2]
        let st := stCode mem st o.base (o.offset ix) o.fmt.width 0 false
        if o.scaled && decide (p.2 % 32 = 0) then stPut st (o.abase 2 + (o.blockOf ix).1) 0x7F false else st
      else st) st

/-! ### Compressed outputs (R118, R119, R141, R195) -/

/-- The 32 values of a block of slots. -/
def slotCells (vals : SMap (Option OutVal)) (b : Nat) : List OutVal :=
  (List.range 32).map fun i => (bufGet vals (32 * b + i)).getD OutVal.zero

/-- Values by slot are converted and staged: blocks of 32 slots, the missing slots of the last one as zero codes
(R48, R71), or single slots. -/
def State.writeSlots (s : State) (c : Nat) (w : Writer) (o : Desc) (ctl : CvtCtl)
    (vals : SMap (Option OutVal)) (st : Staging) : State × Staging :=
  if o.scaled then
    let blocks := (vals.map fun e => e.1 / 32).dedup
    let r := s.blockOrder (fun b => asksSpill o ctl true ((slotCells vals b).map OutVal.x)) blocks
    r.1.foldl (fun a b =>
      let cells := slotCells vals b
      let bad := cells.any OutVal.poison
      let (codes, sc, s, st) := a.1.convertBlock c w o ctl true (cells.map OutVal.x) bad a.2
      let st := (codes.zipIdx).foldl (fun st p =>
        stCode s.mem st o.base (32 * b + p.2 : Nat) o.fmt.width p.1 bad) st
      (s, stPut st (o.abase 2 + b) (BitVec.ofNat 8 sc) bad)) (r.2, st)
  else
    vals.foldl (fun a e =>
      match e.2 with
      | none => a
      | some v =>
        let r := a.1.convertPlain c o.fmt ctl v
        (r.2, stCode a.1.mem a.2 o.base e.1 o.fmt.width r.1 v.poison)) (s, st)

/-- Stored elements, row by row in ascending column order, and the place each has. -/
abbrev Stored := List (List (Nat × OutVal))

/-- Rows of elements cut to n in all: what fits, and how many do not. -/
def fitRows : Nat → Stored → Stored × Nat
  | _, [] => ([], 0)
  | n, r :: rs =>
    let x := fitRows (n - (r.take n).length) rs
    (r.take n :: x.1, (r.length - n) + x.2)

/-- Row pointers of rows of given lengths. -/
def ptrsFrom : Nat → List Nat → List Nat
  | p, [] => [p]
  | p, n :: l => p :: ptrsFrom (p + n) l

/-- Numbers of n bytes each as bytes. -/
def wordsLE (n : Nat) (l : List Nat) : List Byte := (l.map (leBytes n)).flatten

/-- Slots in order for values in order. -/
def slotMap (l : List OutVal) : SMap (Option OutVal) :=
  l.zipIdx.map fun p => (p.2, some p.1)

/-- The blocks of one block row of a BSR output: block column and its b² values. -/
def bsrBlocks (b cols : Nat) (rows : List (List (Nat × OutVal))) :
    List (Nat × List OutVal) :=
  ((List.range (cdiv cols b)).filter fun q => rows.any fun r => r.any fun e => e.1 / b == q).map fun q =>
    (q, (List.range b).flatMap fun i => (List.range b).map fun j =>
      match (rows.getD i []).find? fun e => e.1 == q * b + j with
      | some e => e.2
      | none => OutVal.zero)

/-- A compressed output of `COPY` or `SPGEMM` from its stored elements: metadata and values are staged, and
what does not fit is counted (R119). -/
def State.writeCompressed (s : State) (c : Nat) (w : Writer) (o : Desc) (ctl : CvtCtl) (rows : Stored)
    (st : Staging) : State × Staging :=
  let bad := rows.any fun r => r.any fun e => e.2.poison
  let full (s : State) (n : Nat) : State := s.inc (Reg.DRN_CAP_FULL_CNT c) n
  match o.cfmt with
  | .bsr b =>
    let brs := (List.range (cdiv o.rows b)).map fun q =>
      bsrBlocks b o.cols ((rows.drop (q * b)).take b)
    let flat := brs.map fun r => r.map fun p => (p.1, p)
    let lens := fun (n : Nat) => flat.foldl (fun (a : Nat × List Nat) r =>
      (a.1 - (r.take a.1).length, a.2 ++ [(r.take a.1).length])) (n, [])
    let kept := (flat.flatten).take o.nnzCap
    let st := stBytes st (o.abase 0) bad (wordsLE 8 (ptrsFrom 0 (lens o.nnzCap).2))
    let st := stBytes st (o.abase 1) bad (wordsLE 4 (kept.map Prod.fst))
    full (s.writeSlots c w o ctl (slotMap (kept.flatMap fun p => p.2.2)) st).1
        ((flat.flatten.length - kept.length) * b * b) |> fun s' =>
      (s', (s.writeSlots c w o ctl (slotMap (kept.flatMap fun p => p.2.2)) st).2)
  | cf =>
    let (kept, lost) := fitRows o.nnzCap rows
    let flat := kept.flatten
    let ptrs := wordsLE 8 (ptrsFrom 0 (kept.map List.length))
    let st :=
      match cf with
      | .csr =>
        stBytes (stBytes st (o.abase 0) bad ptrs) (o.abase 1) bad (wordsLE 4 (flat.map Prod.fst))
      | .bmp =>
        let q := cdiv o.cols 64
        let masks := kept.flatMap fun r => (List.range q).map fun g =>
          ((r.filter fun e => e.1 / 64 == g).map fun e => 2 ^ (e.1 % 64)).sum
        stBytes (stBytes st (o.abase 1) bad ptrs) (o.abase 0) bad (wordsLE 8 masks)
      | .coo =>
        let pairs := (kept.zipIdx).flatMap fun p => p.1.map fun e => p.2 + 2 ^ 32 * e.1
        stBytes (stBytes st (o.abase 1) bad (leBytes 8 flat.length)) (o.abase 0) bad (wordsLE 8 pairs)
      | _ => st
    let r := s.writeSlots c w o ctl (slotMap (flat.map Prod.snd)) st
    (full r.1 lost, r.2)

/-- The stored elements of a mask tensor with their slots, row by row (R195). -/
def Rd.storedSlots (r : Rd) (d : Desc) : List (Nat × Nat × Nat) :=
  match d.cfmt with
  | .csr => (List.range d.rows).flatMap fun i => ((r.ptrRun d i d.cols 1).1).map fun p => (i, p.1, p.2)
  | .bsr b => (List.range (cdiv d.rows b)).flatMap fun q =>
      ((r.ptrRun d q (cdiv d.cols b) b).1).flatMap fun p =>
        (List.range (b * b)).map fun k => (q * b + k / b, p.1 * b + k % b, b * b * p.2 + k)
  | .coo => (r.cooRun d (min (r.cooCount d) d.nnzCap) 0 none).1
  | .bmp => (List.range d.rows).flatMap fun i =>
      let q := cdiv d.cols 64
      let lo := r.le (d.abase 1 + 8 * i) 8
      let hi := r.le (d.abase 1 + 8 * (i + 1)) 8
      let cols := (List.range q).flatMap fun g =>
        (setBits (r.le (d.abase 0 + 8 * (i * q + g)) 8) 64).map (64 * g + ·)
      (cols.zipIdx.filter fun p => decide (lo + p.2 < hi ∧ p.1 < d.cols ∧ lo + p.2 < d.nnzCap)).map fun p =>
        (i, p.1, lo + p.2)
  | _ => []

/-- The rows of a mask, or its block rows for BSR, that an `SDDMM` of mLen rows writes; those behind them are
empty in the output (R211). -/
def RunMop.maskRows (m : RunMop) (sd : Desc) : Nat :=
  match sd.cfmt with
  | .bsr b => min (cdiv m.mLen b) (cdiv sd.rows b)
  | _ => min m.mLen sd.rows

/-- The metadata of an `SDDMM` output: byte `i` of the mask's array a as it is copied, with the rows at or beyond
M′ empty (R195, R211): their row pointers repeat the last one, their masks are 0, and the COO count leaves
their entries out. -/
def Rd.sampledByte (r : Rd) (m : RunMop) (sd : Desc) (n a i : Nat) : Byte :=
  let lim := m.maskRows sd
  let own := r.byte (sd.abase a + i)
  let ptr := r.byte (sd.abase a + 8 * min (i / 8) lim + i % 8)
  match sd.cfmt, a with
  | .csr, 0 => ptr
  | .bsr _, 0 => ptr
  | .bmp, 1 => ptr
  | .bmp, 0 => if i / 8 / cdiv sd.cols 64 < lim then own else 0
  | .coo, 1 => if sd.rows ≤ m.mLen then own else (leBytes 8 n).getD i 0
  | _, _ => own

/-- An `SDDMM` output: the mask's metadata, and one value for each element it stores, in slot order; block
elements that lie beyond the extents or that the run does not write are zero codes (R87, R211). Values whose slot
the output lacks are counted as R119 counts them (DESIGN CHOICE, log entry 36). -/
def State.writeSampled (s : State) (c : Nat) (w : Writer) (m : RunMop) (sd o : Desc) (ctl : CvtCtl)
    (buf : SMap (Option OutVal)) (st : Staging) : State × Staging :=
  let r := s.coreRd c
  let all := r.storedSlots sd
  let cnt := (all.filter fun e => decide (e.1 < m.mLen)).length
  let st := (o.usedArrays.filter (· < 2)).foldl (fun st a =>
    let n := min (sd.arrayNeed a) (min (sd.acap a) (o.acap a))
    (List.range n).foldl (fun st i =>
      stPut st (o.abase a + i) (r.sampledByte m sd cnt a i) (r.bad (sd.abase a + i))) st) st
  let inside (e : Nat × Nat × Nat) : Bool := decide (e.1 < sd.rows ∧ e.2.1 < sd.cols) && m.writes e.1 e.2.1
  let els := all.filter fun e => inside e || (match sd.cfmt with
    | .bsr b => decide (e.1 / b < m.maskRows sd)
    | _ => false)
  let fit := els.filter fun e => decide (e.2.2 < o.slots)
  let vals : SMap (Option OutVal) := fit.foldl (fun v e =>
    SMap.set (fun _ => none) v e.2.2
      (if inside e then bufGet buf (e.1 * m.N + e.2.1) else some OutVal.zero)) []
  let x := s.writeSlots c w o ctl vals st
  (x.1.inc (Reg.DRN_CAP_FULL_CNT c) (els.length - fit.length), x.2)

/-! ### The lane stages (R176, R177, R179) -/

/-- The words of an element of a tile: its accumulator word, and the low word of a compensated one. -/
def DrainTile.word (d : DrainTile) (acc : SMap Word) (i j : Nat) : Word × Word :=
  match SMap.find d.summed (i * d.m.N + j) with
  | some p => p
  | none =>
    let row := match d.rows.find? fun p => p.1 == i with
      | some p => p.2
      | none => i
    (accAt acc d.slot (row % 128) (j % 128), accAt acc (d.slot + 1) (row % 128) (j % 128))

/-- Step 1: the element as the drain reads it (R166, R169, R173). -/
def DrainTile.readElem (d : DrainTile) (acc : SMap Word) (i j : Nat) : Word :=
  let w := d.word acc i j
  match d.t.kind with
  | .comp | .sumsqComp => fadd w.1 w.2
  | .int32 => toF32 ((Num.ofInt w.1.toInt).scale (mopQ d.m.words))
  | .meanVar =>
    let row := i % 128
    let n := (accAt acc d.slot row 0).toNat
    if n = 0 then 0
    else if j % 128 = 0 then accAt acc d.slot row 1
    else
      let div := if bit (mopSpec d.m.words) 1 then n - 1 else n
      if div = 0 then 0x7FC00000#32 else fdiv (accAt acc d.slot row 2) (natF32 div)
  | _ => w.1

/-- An element of a per-column or per-row vector, or of a tensor operand: FP32 and poison. DEDUCED: the drain's
reading of an INT2 code 0b10 or of a spill index out of range is not counted, since R67 and R93 count what the feeder
and the merge unit read (log entry 132). -/
def operandAt (r : Rd) (m : RunMop) (h : Nat) (ix : List Nat) : Word × Bool :=
  match m.desc h with
  | some d =>
    let v := r.value d ix
    (toF32 v.1, v.2)
  | none => (0, false)

/-- The second operand of a chain entry at a grid place. -/
def chainArg (r : Rd) (m : RunMop) (o : Desc) (e i j : Nat) : Word × Bool :=
  match chSrc e with
  | 1 => (BitVec.ofNat 32 (chImm e), false)
  | 2 => operandAt r m (chHandle e) [j]
  | 3 => operandAt r m (chHandle e) [i]
  | 4 => operandAt r m (chHandle e) (m.outIndex o i j)
  | _ => (0, false)

/-- Steps 1 to 4 on a lane for the element at grid place (i, j). -/
def laneFront (r : Rd) (m : RunMop) (w : Nat) (x : Word) (j : Nat) : LaneVal :=
  let sc := if laneScale w = noHandle then (x, false) else
    let v := operandAt r m (laneScale w) [j]
    (fmul x v.1, v.2)
  let bi := if laneBias w = noHandle then (sc.1, false) else
    let v := operandAt r m (laneBias w) [j]
    (fadd sc.1 v.1, v.2)
  let y := activation (laneAct w) bi.1
  { x := f32 y, mid := bi.1, poison := sc.2 || bi.2,
    nonfin := nonfin x || nonfin sc.1 || nonfin bi.1 || nonfin y }

/-- Step 5: the chain (R179), `OP0` first (R196). -/
def laneChainRun (r : Rd) (v : IssueEnv) (m : RunMop) (o : Desc) (w i j : Nat) (a : LaneVal) : LaneVal :=
  (laneOps v m.words w).foldl (fun a e =>
    let b := chainArg r m o e i j
    let y := chainOp (chOp e) (toF32 a.x) b.1 (chImm e)
    { a with x := f32 y, poison := a.poison || b.2, nonfin := a.nonfin || nonfin y }) a

/-- The lane has no stage that changes an element (R169). -/
def bareLane (v : IssueEnv) (m : RunMop) (w : Nat) : Bool :=
  laneScale w == noHandle && laneBias w == noHandle && laneAct w == 0 && (laneOps v m.words w).isEmpty

/-- A lane's value of an element that is written normally. An INT32 tile with Q = 0 passes a bare lane into
INT32 unchanged (R169). -/
def laneValue (r : Rd) (v : IssueEnv) (d : DrainTile) (acc : SMap Word) (o : Desc) (w i j : Nat) : LaneVal :=
  let x := d.readElem acc i j
  if d.t.kind = .int32 ∧ mopQ d.m.words = 0 ∧ o.fmt = .int32 ∧ bareLane v d.m w then
    { x := .ofInt (d.word acc i j).1.toInt, mid := x, poison := d.poison, nonfin := false }
  else
    let a := laneFront r d.m w x j
    let a := laneChainRun r v d.m o w i j a
    { a with poison := a.poison || d.poison }

/-- The output rows that tile (x, y) of a run gives, each with its row of the tile: of the rows of a `GATHER` that
share an index, the computed one gives them all, in ascending order (R139). -/
def RunMop.tileRows (m : RunMop) (x y : Nat) : List (Nat × Nat) :=
  (List.range' (128 * x) 128).flatMap fun i =>
    if m.op = 0x13 then
      match m.leader y i with
      | some l => if l = i then (m.served y i).map fun j => (j, i) else []
      | none => [(i, i)]
    else [(i, i)]

/-- The grid places of a tile that the run writes, in row order (R211). -/
def DrainTile.places (d : DrainTile) : List (Nat × Nat) :=
  d.rows.flatMap fun p =>
    ((List.range' (128 * d.t.y) 128).filter fun j => decide (j < d.m.N) && d.m.writes p.1 j).map fun j => (p.1, j)

/-- A preload is added to an element that a `GATHER` computed without it (R139, R165, R166): the words, and whether
the addition saturates or is not finite. -/
def preAdd (kind : TileKind) (pre l : Word) : (Word × Word) × Bool × Bool :=
  match kind with
  | .comp => pairAdd (pre, 0) l
  | .int32 =>
    let r := satI32 (pre.toInt + l.toInt)
    ((r.1, 0), r.2, false)
  | _ =>
    let r := accAdd pre l
    ((r.1, 0), r.2)

/-- The drained rows of a `GATHER` take their preload (R139): the sums by m × N_PLAN + n, how many additions
saturate, how many are not finite, and whether a preload is poisoned. -/
def State.gatherSums (s : State) (c : Nat) (d : DrainTile) : SMap (Word × Word) × Nat × Nat × Bool :=
  match (if d.m.op = 0x13 then d.m.pre else none) with
  | none => ([], 0, 0, false)
  | some p =>
    let k := s.core c
    let r := s.coreRd c
    let own := d.places.filter fun q => (d.m.leader d.t.y q.1).isSome
    own.foldl (fun (a : SMap (Word × Word) × Nat × Nat × Bool) q =>
      let v := r.value p (p.index q.1 q.2)
      let x := preAdd d.t.kind (tileWord d.t.kind v.1) (d.word k.acc q.1 q.2).1
      (SMap.insert (SMap.erase a.1 (q.1 * d.m.N + q.2)) (q.1 * d.m.N + q.2) x.1, a.2.1 + x.2.1.toNat,
       a.2.2.1 + x.2.2.toNat, a.2.2.2 || v.2)) ([], 0, 0, false)

/-- A lane drains a tile: values join its buffer; inactive and audit rows give zero codes (R176, R231). -/
def State.drainLane (s : State) (c : Nat) (v : IssueEnv) (d : DrainTile) (o : Desc) (w : Nat)
    (buf : SMap (Option OutVal)) : State × SMap (Option OutVal) × Bool :=
  let r := s.rd
  let acc := (s.core c).acc
  d.places.foldl (fun (a : State × SMap (Option OutVal) × Bool) p =>
    let key := p.1 * d.m.N + p.2
    if d.m.active p.1 then
      let x := laneValue r v d acc o w p.1 p.2
      (a.1.countNonfin c x.nonfin.toNat,
       SMap.set (fun _ => none) a.2.1 key (some { x := x.x, poison := x.poison, counted := x.nonfin }),
       a.2.2 || x.poison)
    else (a.1, SMap.set (fun _ => none) a.2.1 key (some { OutVal.zero with poison := d.poison }), a.2.2))
    (s, buf, false)

/-! ### The statistics lane (R180 to R183) -/

/-- A number read as consecutive codes of a DNS tensor in element order. -/
def Rd.record (r : Rd) (d : Desc) (e n : Nat) : Nat × Bool :=
  let w := d.fmt.width
  ((List.range n).foldr (fun i acc => r.code d.base (d.offset (unflat d.exts (e + i))) w + 2 ^ w * acc) 0,
   (List.range n).any fun i => r.codeBad d.base (d.offset (unflat d.exts (e + i))) w)

/-- A record is staged. -/
def stRecord (mem : Memory) (st : Staging) (d : Desc) (e n v : Nat) (bad : Bool) : Staging :=
  let w := d.fmt.width
  (List.range n).foldl (fun st i =>
    stCode mem st d.base (d.offset (unflat d.exts (e + i))) w (v / 2 ^ (w * i) % 2 ^ w) bad) st

/-- −Inf and the maximum that ignores a NaN (R183). -/
def negInf : Word := 0xFF800000#32
def maxIgnore (a x : Word) : Word := if (f32 x).isNan then a else fmax a x

/-- A term of the running sum: +0 when its maximum is −Inf. -/
def statTerm (sum mx top c : Word) : Word :=
  if mx = negInf then 0#32 else fmul sum (fexp2 (fmul (fsub mx top) c))

/-- One row's in-range values into its record (R183): the new (MAX, SUM). -/
def statRow (c : Word) (mx sum : Word) (xs : List Word) : Word × Word :=
  let mt := xs.foldl maxIgnore negInf
  let st := xs.foldl (fun a x => if x = negInf then a else fadd a (fexp2 (fmul (fsub x mt) c))) 0#32
  let top := fmax mx mt
  let total := fadd (statTerm sum mx top c) (statTerm st mt top c)
  (top, if xs.any fun x => (f32 x).isNan then 0x7FC00000#32 else total)

/-- The value that the statistics lane reads at (i, j): after step 3 of lane 0, or from the tile (R180). -/
def statValue (r : Rd) (d : DrainTile) (acc : SMap Word) (i j : Nat) : Word × Bool :=
  let x := d.readElem acc i j
  let w := mopLane d.m.words 0
  if laneOut w = noHandle then (x, false)
  else
    let a := laneFront r d.m w x j
    (a.mid, a.poison)

/-- The statistics lane takes a tile: staged records, rows updated, +Inf and NaN elements, poison met. -/
def State.drainStats (s : State) (c : Nat) (d : DrainTile) (st : Staging) : State × Staging × Bool :=
  if !statsOk d.m.op || mopState d.m.words == noHandle then (s, st, false)
  else match d.m.desc (mopState d.m.words) with
  | none => (s, st, false)
  | some o =>
    let r := s.rd
    let acc := (s.core c).acc
    let epoch := mopF d.m.words 4 95 64
    let scale := BitVec.ofNat 32 (mopF d.m.words 4 63 32)
    let n := 128 / o.fmt.width
    let rows := (d.rows.map Prod.fst).filter fun i => decide (i < d.m.mLen) && d.m.active i
    rows.foldl (fun (a : State × Staging × Bool) i =>
      let xs := (d.places.filter fun p => p.1 == i).map fun p => statValue r d acc i p.2
      let (rec, bad) := r.record o (i * n) n
      let fresh := fld rec 95 64 ≠ epoch
      let mx := if fresh then negInf else BitVec.ofNat 32 (fld rec 31 0)
      let sum := if fresh then 0#32 else BitVec.ofNat 32 (fld rec 63 32)
      let y := statRow scale mx sum (xs.map Prod.fst)
      let bad := bad || d.poison || xs.any Prod.snd
      let nf := (xs.filter fun x => (f32 x.1).isNan || x.1 == 0x7F800000#32).length
      let v := y.1.toNat + 2 ^ 32 * y.2.toNat + 2 ^ 64 * epoch
      ((a.1.countNonfin c nf).count c 0x0C4 0 1, stRecord a.1.mem a.2.1 o (i * n) n v bad, a.2.2 || bad))
      (s, st, false)

/-! ### Audit rows (R231, R232) -/

/-- An audit row of a tile is a miss: after steps 1 to 4 on the lowest lane in use some in-range element
exceeds `PRD_MISS_EPS` in magnitude or is NaN. -/
def State.auditTest (s : State) (c : Nat) (d : DrainTile) (i : Nat) : Bool :=
  match (usedLanes d.m.words).head? with
  | none => false
  | some (_, w) =>
    let eps := f32 (s.reg (Reg.PRD_MISS_EPS (c / 9)))
    (d.places.filter fun p => p.1 == i).any fun p =>
      let x := (laneFront s.rd d.m w (d.readElem (s.core c).acc i p.2) p.2).x
      x.isNan || eps.lt x.abs

/-- The audit rows of a tile's m-block. -/
def DrainTile.auditRows (d : DrainTile) : List Nat :=
  (List.range' (128 * d.t.x) 128).filter fun i => decide (i < d.m.mLen) && d.m.audit i

/-- Pairs of an m-block that have still to drain. -/
def RunMop.pairsLeft (m : RunMop) (tiles : SMap (Option Tile)) (x : Nat) : Bool :=
  m.groups.any (fun g => g.any fun p => p.1 == x) || (m.grp ++ m.tail).any (fun p => p.x == x) ||
    m.drainQ.any fun t => match SMap.get (fun _ => none) tiles t with
      | some q => q.x == x
      | none => false

/-! ### A tile (R174, R176, R206) -/

/-- A value for `reached`: a `COPY` stores elements whose source value is not zero (R118). -/
def DrainTile.nonzero (d : DrainTile) (acc : SMap Word) : List Nat :=
  (d.places.filter fun p =>
    if d.t.kind = .int32 then (d.word acc p.1 p.2).1 ≠ 0
    else !(f32 (d.word acc p.1 p.2).1).isZero).map fun p => p.1 * d.m.N + p.2

/-- The stored elements of a compressed output of `COPY` or `SPGEMM`, row by row. -/
def storedRows (m : RunMop) (o : Desc) (buf : SMap (Option OutVal)) : Stored :=
  let places := m.reached.map fun k => (k / m.N, k % m.N)
  (List.range o.rows).map fun r =>
    (List.range o.cols).filterMap fun cc =>
      let p := m.gridPos o (o.index r cc)
      if places.contains p && m.writes p.1 p.2 && m.active p.1 then
        (bufGet buf (p.1 * m.N + p.2)).map fun v => (cc, v)
      else none

/-- The compressed outputs are written when the last tile has drained. -/
def State.finishLanes (s : State) (c : Nat) (m : RunMop) (st : Staging) : State × Staging :=
  let w := Writer.die (c / 9)
  (usedLanes m.words).foldl (fun a p =>
    match m.desc (laneOut p.2) with
    | none => a
    | some o =>
      let buf := m.outBuf.getD p.1 []
      let ctl := m.cvt.getD p.1 ⟨false, 0, false⟩
      if o.cfmt = .dns then a
      else if m.op = 0x11 then
        (match m.desc (mopAux m.words) with
         | some sd => a.1.writeSampled c w m sd o ctl buf a.2
         | none => a)
      else a.1.writeCompressed c w o ctl (storedRows m o buf) a.2) (s, st)

/-- Every lane drains a tile: values into the buffers, dense outputs staged; poison met on the way. -/
def State.drainLanes (s : State) (c : Nat) (v : IssueEnv) (d : DrainTile) (st : Staging) :
    State × RunMop × Staging × Bool :=
  let w := Writer.die (c / 9)
  (usedLanes d.m.words).foldl (fun (a : State × RunMop × Staging × Bool) p =>
    match d.m.desc (laneOut p.2) with
    | none => a
    | some o =>
      let m := a.2.1
      let (s, buf, bad) := a.1.drainLane c v d o p.2 (m.outBuf.getD p.1 [])
      let ctl := m.cvt.getD p.1 ⟨false, 0, false⟩
      let (s, st) :=
        if o.cfmt = .dns then s.writeDense c w m o ctl buf d.places (stagePadding s.mem m o d.t.x d.t.y a.2.2.1)
        else (s, a.2.2.1)
      (s, { m with outBuf := m.outBuf.set p.1 buf }, st, a.2.2.2 || bad)) (s, d.m, st, false)

/-- A run is put back in its place. -/
def CoreSt.setRun (k : CoreSt) (m : RunMop) (prev : Bool) : CoreSt :=
  if prev then { k with prev := some m } else { k with cur := some m }

/-- The elements of an m-block that an `SPGEMM` merges are more than the sort store of 65,536 entries holds
(R138, R141): they pass through the scratch area that `AUX` names, which this leaves with bytes that the spec
does not give, 8 of each element as far as the area reaches (free values; log entry 136). -/
def State.passScratch (s : State) (c : Nat) (m : RunMop) (x : Nat) : State :=
  let n := (m.reached.filter fun k => k / m.N / 128 == x).length
  match (if m.op = 0x12 ∧ 65536 < n then m.desc (mopAux m.words) else none) with
  | none => s
  | some d =>
    match d.valueReach with
    | none => s
    | some (a, len) =>
      let k := min (8 * n) len
      let bytes := (List.range k).map fun i => (Config.free (s.freeCtr + i)).setWidth 8
      { s with freeCtr := s.freeCtr + k }.put (.die (c / 9)) a bytes false

/-! ### The words of the queues (R144, R147) -/

/-- The parity bit that a producer computes over a word of n bits and its end mark. DESIGN CHOICE: the two and it
have an even number of ones (log entry 127). -/
def parityBit (n : Nat) (w : BitVec n) (last : Bool) : Bool :=
  (((List.range n).filter w.getLsbD).length + last.toNat) % 2 == 1

/-- A word as its queue carries it: its n bits, then the end mark, then the parity bit. That it comes out with bad
parity is what the command says which reads it (`CoreRead`). -/
def carried (n : Nat) (w : BitVec n) (last : Bool) : Nat :=
  w.toNat + last.toNat * 2 ^ n + (parityBit n w last).toNat * 2 ^ (n + 1)

/-- The 512 bits of a word of `IXQ`, and of one of `DRQ`, from the first byte up. -/
def IndexWord.word (w : IndexWord) : BitVec 512 := BitVec.ofNat 512 (leNat w.bytes)
def DrqWord.word (w : DrqWord) : BitVec 512 := BitVec.ofNat 512 (leNat (w.bytes.map fun b => b.2.1))

/-- What stands in a core's queues, by the numbers of R144. A word of a queue other than `CMDQ` is a packet. -/
def CoreSt.queueWords (k : CoreSt) (q : Fin 8) : List Nat :=
  match q with
  | 0 => k.cmdq.map fun w => carried 128 w.bits w.last
  | 1 => k.cplq.map fun w => carried 64 w true
  | 2 => k.aq.map fun w => carried 4096 w.word true
  | 3 => k.bq.map fun w => carried 4096 w.word true
  | 4 => k.ixq.map fun w => carried 512 w.word true
  | 5 => k.wfq.map fun w => carried 32896 w.word true
  | 6 => k.sumq.map fun w => carried 32896 w.word true
  | 7 => k.drq.map fun w => carried 512 w.word true

/-! ### `DRQ` (R144 to R147) -/

/-- Staged bytes as words of `DRQ`, 64 bytes to a word. -/
def drqWords (run : Nat) (st : Staging) : List DrqWord :=
  (List.range (cdiv st.length 64)).map fun i =>
    ⟨run, ((st.drop (64 * i)).take 64).filterMap fun e => e.2.map fun p => (e.1, p.1, p.2)⟩

/-- The bytes of words as they are staged. -/
def drqStage (ws : List DrqWord) : Staging :=
  (ws.flatMap DrqWord.bytes).foldl (fun st b => stPut st b.1 b.2.1 b.2.2) []

/-- The crossing takes a word of `DRQ`: the ways to what it is written to are ready (R18, R27, R262). -/
def State.drqReady (s : State) (c : Nat) (w : DrqWord) : Bool :=
  s.coreLinked c && ((w.bytes.map fun b => poisonUnit b.1).dedup).all fun u => s.memPath (c / 9) u 32

/-- What a run has made has left `DRQ`: its bytes are written, and bad parity poisons them and the run (R147, R165,
R389). -/
def State.commitRun (s : State) (c : Nat) (ws : List DrqWord) (bad : Bool) (r : Nat) : State :=
  let k := s.core c
  let st := drqStage (ws.filter fun w => w.run == r)
  let upd (x : State × List Nat) (m : RunMop) : RunMop :=
    { m with badUnits := x.2, flags := { m.flags with poison := m.flags.poison || bad } }
  match k.prev, k.cur with
  | some m, cur =>
    if m.id = r then
      let x := s.commitStage (.die (c / 9)) m.badUnits st
      x.1.setCore c { x.1.core c with prev := some (upd x m) }
    else match cur with
    | some m =>
      let x := s.commitStage (.die (c / 9)) m.badUnits st
      x.1.setCore c { x.1.core c with cur := some (upd x m) }
    | none => s
  | none, some m =>
    let x := s.commitStage (.die (c / 9)) m.badUnits st
    x.1.setCore c { x.1.core c with cur := some (upd x m) }
  | none, none => s

/-- Words stand at `DRQ` in order: the crossing takes those whose ways are ready, up to 32 stay in the queue, and the
drain holds the rest (R28, R144, R145). `bad` says which of the words taken have bad parity (R147). -/
def State.crossDrq (s : State) (c : Nat) (ws : List DrqWord) (bad : List Bool) : State :=
  if ws.isEmpty then s
  else
    let go := ws.takeWhile (s.drqReady c)
    let rest := ws.drop go.length
    let marked := go.zipIdx.map fun w =>
      { w.1 with bytes := w.1.bytes.map fun b => (b.1, b.2.1, b.2.2 || bad.getD w.2 false) }
    let s := s.poisonWords c 7 go.length bad
    let s := s.setCore c { s.core c with drq := rest.take 32, drHeld := rest.drop 32,
                                         drLast := go.getLast? <|> (s.core c).drLast }
    let any := (bad.take go.length).any id
    let s := ((go.map DrqWord.run).dedup).foldl (fun s r => s.commitRun c marked any r) s
    if any then s.setReg (Reg.ACC_STAT c) (s.reg (Reg.ACC_STAT c) ||| 2#32) else s

/-! ### What a tile's drain reads -/

/-- Tensors that the drain of a run reads or updates in place: the lanes' operands, the statistics state, the
preload of a `GATHER`, a mask or a scratch area, and outputs whose spill header or whose bytes of several codes are
read as they are written. -/
def RunMop.drainTensors (m : RunMop) (v : IssueEnv) : List Desc :=
  let lane (w : Nat) : List Nat := [laneScale w, laneBias w] ++
    ((laneOps v m.words w).filter fun e => decide (2 ≤ chSrc e ∧ chSrc e ≤ 4)).map chHandle
  let ins := ((usedLanes m.words).flatMap fun p => lane p.2) ++ [mopState m.words] ++
    (if m.op = 0x11 ∨ m.op = 0x12 then [mopAux m.words] else [])
  ins.filterMap m.desc ++ (if m.op = 0x13 then m.pre.toList else []) ++
    ((usedLanes m.words).filterMap fun p => m.desc (laneOut p.2)).filter fun d =>
      d.hasSpill || decide (d.fmt.width < 8)

/-- They can be reached (R18, R27, R262). -/
def State.drainReady (s : State) (c : Nat) (m : RunMop) : Bool :=
  s.coreRuns c && (m.drainTensors { s.issueEnv c with descs := m.desc }).all fun d => d.reach.all fun r =>
    s.coreLinked c && s.memPath (c / 9) r.1 r.2

/-- The elements that the drain of a tile reads: the lanes' operands, the preload of a `GATHER`, the statistics
records. -/
def DrainTile.elems (d : DrainTile) (v : IssueEnv) : List (Desc × List Nat) :=
  let m := d.m
  let cols := (d.places.map Prod.snd).dedup
  let rows := (d.places.map Prod.fst).dedup
  let named (h : Nat) (ixs : List (List Nat)) : List (Desc × List Nat) := match m.desc h with
    | some o => ixs.map fun ix => (o, ix)
    | none => []
  let byCol := cols.map fun j => [j]
  let lanes := (usedLanes m.words).flatMap fun p =>
    named (laneScale p.2) byCol ++ named (laneBias p.2) byCol ++
      (laneOps v m.words p.2).flatMap fun e =>
        match chSrc e, m.desc (laneOut p.2) with
        | 2, _ => named (chHandle e) byCol
        | 3, _ => named (chHandle e) (rows.map fun i => [i])
        | 4, some o => named (chHandle e) (d.places.map fun q => m.outIndex o q.1 q.2)
        | _, _ => []
  let pre := match (if m.op = 0x13 then m.pre else none) with
    | some p => (d.places.filter fun q => (m.leader d.t.y q.1).isSome).map fun q => (p, p.index q.1 q.2)
    | none => []
  let stats := match (if statsOk m.op then m.desc (mopState m.words) else none) with
    | some o =>
      let n := 128 / o.fmt.width
      (rows.filter m.active).flatMap fun i => (List.range n).map fun q => (o, unflat o.exts (i * n + q))
    | none => []
  lanes ++ pre ++ stats

/-- A lane operand of an audit row arrives poisoned. -/
def State.auditPoison (s : State) (c : Nat) (d : DrainTile) : Bool :=
  match (usedLanes d.m.words).head? with
  | none => false
  | some (_, w) => (d.places.filter fun p => d.m.audit p.1).any fun p =>
      (laneFront s.rd d.m w (d.readElem (s.core c).acc p.1 p.2) p.2).poison

/-- A tile of a run is drained, and its words pass `DRQ`: `prev` when the run is the earlier of two. -/
def State.drainTile (s : State) (c : Nat) (m : RunMop) (prev : Bool) (slot : Nat) (t : Tile) (bad : List Bool) :
    State :=
  let k := s.core c
  let b := slot % 32
  let d : DrainTile :=
    { m := m, t := t, slot := slot, poison := false, rows := m.tileRows t.x t.y, summed := [] }
  let g := s.gatherSums c d
  let s := (s.flagTile c slot (decide (0 < g.2.1)) g.2.2.2 (decide (0 < g.2.2.1))).countAcc c g.2.1 g.2.2.1
  let poison := decide (s.regF (Reg.ACC_POISON_TILE c (slot / 32)) b b = 1)
  let sat := decide (s.regF (Reg.ACC_SAT_TILE c (slot / 32)) b b = 1)
  let nf := (s.core c).tileNonfin.contains slot
  let d := { d with poison := poison, summed := g.1 }
  let v : IssueEnv := { s.issueEnv c with descs := m.desc }
  let rows := (List.range' (128 * t.x) 128).filter fun i => decide (i < m.mLen)
  let empty := t.kind == .meanVar && rows.any fun i => accAt k.acc slot (i % 128) 0 == 0
  let miss := d.auditRows.filter fun i => s.auditTest c d i
  let bad0 := s.auditPoison c d
  let s := s.readElems (d.elems v)
  let (s, m, st, bad1) := s.drainLanes c v d []
  let (s, st, bad2) := s.drainStats c d st
  let m := if m.op = 0x17 then { m with reached := (d.nonzero k.acc).foldl insertSorted m.reached } else m
  let tiles := SMap.erase (if tileSlots m.words = 2 then SMap.erase k.tiles (slot + 1) else k.tiles) slot
  let m := { m with drainQ := m.drainQ.drop 1, auditMiss := miss.foldl insertSorted m.auditMiss,
                    auditBad := if poison || bad0 || bad1 || bad2 then d.auditRows.foldl insertSorted m.auditBad else m.auditBad }
  let done := !m.pairsLeft tiles t.x
  let s := if done then s.passScratch c m t.x else s
  let (s, st) := if m.walked && m.drainQ.isEmpty then s.finishLanes c m st else (s, st)
  let words := drqWords m.id st
  let pz := poison || bad1 || bad2
  let f : Flags := ⟨sat, pz, nf, empty⟩
  let m := { m with flags := m.flags.or f }
  let rep := if done then d.auditRows.filter fun i => !m.auditBad.contains i else []
  let layer := match m.rowMap with
    | some p => p.layer
    | none => 0
  let k := s.core c
  let k := (k.setRun m prev)
  let k := { k with tiles := tiles, progress := s.now,
                    auditQ := k.auditQ ++ rep.map fun i => (layer, m.auditMiss.contains i),
                    tileEmpty := if empty then insertSorted k.tileEmpty slot else k.tileEmpty }
  let s := (s.setCore c k).flagTile c slot false pz false
  let acc := (s.reg (Reg.ACC_STAT c)).toNat
  let s := s.setReg (Reg.ACC_STAT c) (BitVec.ofNat 32 (acc |||
    (sat.toNat + 2 * pz.toNat + 4 * nf.toNat + 8 * empty.toNat)))
  let s := ((s.count c 0x0C0 0 1).count c 0x0C2 0 words.length).count c 0x0C5 0 rep.length
  ((s.crossDrq c ((s.core c).drq ++ words) bad).advance c).prefetch c

/-- The drain of a run waits (R34): the core works on a step beyond the first uncommitted one, and an output, the
statistics state or a scratch area lies in far memory, where the host would see it. -/
def State.outputWaits (s : State) (c : Nat) (m : RunMop) : Bool :=
  let outs := (usedLanes m.words).map (fun p => laneOut p.2) ++ [mopState m.words] ++
    (if m.op = 0x12 then [mopAux m.words] else [])
  s.ahead c && (outs.filterMap m.desc).any Desc.inFar

/-- The run whose tile drains next: the earlier one's first (R202). -/
def CoreSt.drainRun (k : CoreSt) : Option (RunMop × Bool) :=
  match k.prev, k.cur with
  | some m, cur => if m.drainQ.isEmpty then cur.map fun m => (m, false) else some (m, true)
  | none, some m => some (m, false)
  | none, none => none

/-- The next tile drains, if one is due and its drain need not wait. -/
def State.drainNext (s : State) (c : Nat) (bad : List Bool) : State :=
  let k := s.core c
  match k.drainRun with
  | none => s
  | some (m, prev) =>
    match m.drainQ with
    | [] => s
    | slot :: _ =>
      match SMap.get (fun _ => none) k.tiles slot with
      | none => s
      | some t => if s.drainReady c m && !s.outputWaits c m then s.drainTile c m prev slot t bad else s

/-- TILE_DRAIN (R174, R176, R202): words that wait in `DRQ` or in front of it go on as far as their ways are ready;
once the drain holds none, the next tile drains, in order of issue. With nothing waiting and no tile due, the
crossing reads an empty `DRQ` (R149). `bad` says which words of `DRQ` have bad parity (R147). -/
def execTileDrain (rd : CoreRead) (s : State) : Out :=
  let c := rd.core
  let k := s.core c
  let waiting := k.drq ++ k.drHeld
  let t := s.crossDrq c waiting rd.bad
  let due := match k.drainRun with
    | some (m, _) => !m.drainQ.isEmpty
    | none => false
  .next (
    if !(t.core c).drHeld.isEmpty then t
    else if due then t.drainNext c (rd.bad.drop (waiting.length - ((t.core c).drq).length))
    else if waiting.isEmpty then s.idleRead c 7
    else t)

/-- AUDIT_ROW_REPORT (R232, R241, R242): the die's engine counts one audit row of a layer, and one miss. -/
def execAuditRowReport (c : Core) (s : State) : Out :=
  let k := s.core c
  let d := c.val / 9
  match k.auditQ with
  | [] => .next s
  | (l, miss) :: rest =>
    if s.coreLinked c = false then .next s else
    let s := s.setCore c { k with auditQ := rest }
    let s := (s.inc (Reg.PRD_AUD_ROWS d l) 1).count (54 + d) 0x242 0 1
    if miss then
      let thr := (s.reg (Reg.PRD_MISS_THR d)).toNat
      .next ((s.incThr (Reg.PRD_AUD_MISS d l) 1 (if thr = 0 then 2 ^ 33 else thr) (54 + d) 0x0104 l).count
        (54 + d) 0x243 0 1)
    else .next s

end Sys2Proof.Machine
end

