-- ==== Sys2Proof/Machine/Link.lean ====
section
/-! DEFINITION. The link layer of Culvert ports and host lanes: markers, flits, retry, credits, packet parsing
(R316 to R325, R340 to R342, R349 to R353, R377, R378), ports going up and down (R318, R319, R330,
R339), routes (R328 to R330) and end-to-end flows (R326). Link l below 16 is a port, 16 + lane a host lane. -/

namespace Sys2Proof.Machine

open Sys2Proof

/-! ### Registers of a port or lane -/

/-- A port's register by the base of its block and an offset within it. -/
def portReg (p off : Nat) : Nat := Reg.CLV_PORT_STAT (p / 8) (p % 8) + off

/-- The state of a link is replaced. -/
def State.setLinkState (s : State) (l v : Nat) : State :=
  if l < 16 then s.setRegF (portReg l 0) 31 30 v else s.setRegF (Reg.HLK_LANE_STAT (l - 16)) 31 30 v

/-- This module's node ID, and its twin's. -/
def State.node (s : State) : Nat := (s.reg (Reg.CLV_NODE_ID 0)).toNat
def State.twin (s : State) : Nat := (s.reg (Reg.CLV_TWIN_NODE 0)).toNat

/-- The partner's node ID from its hello. -/
def State.partner (s : State) (p : Nat) : Nat := s.regF (portReg p 0) 15 0

/-- The port is a twin port. -/
def State.isTwinPort (s : State) (p : Nat) : Bool := decide (s.regF (portReg p 0) 29 29 = 1)

/-- The island that receives on a link (R30). -/
def linkIsland (l : Nat) : Nat := 62 + l

/-- Receive credits of a port (R324) or host lane (R353). -/
def ownCredits (l : Nat) : List Nat := if l < 16 then [512, 1024, 512, 256] else [1024, 0, 0, 256]

/-! ### Markers (R316, R348) -/

/-- The data bits of a marker codeword: lane number, marker count, the sender's ID. -/
def markerWord (lane : Nat) (count : BitVec 32) (id : Nat) : BitVec 5140 :=
  BitVec.ofNat 5140 (lane % 8 + count.toNat * 2 ^ 3 + id % 2 ^ 16 * 2 ^ 35)

/-- The fields of a marker codeword. -/
def markerLane (m : BitVec 5140) : Nat := fld m.toNat 2 0
def markerCount (m : BitVec 5140) : BitVec 32 := BitVec.ofNat 32 (fld m.toNat 34 3)
def markerId (m : BitVec 5140) : Nat := fld m.toNat 50 35

/-- A codeword is the marker of a lane: its number, and no bit beyond the fields. -/
def isMarker (lane : Nat) (m : BitVec 5140) : Bool :=
  m == markerWord lane (markerCount m) (markerId m)

/-- The count of the marker sent last: one marker each 257 × 12.8 ns, counted from the start of the model's
clock (DESIGN CHOICE, log entry 141). -/
def State.markerNow (s : State) : BitVec 32 := BitVec.ofNat 32 (s.now * 10000 / 32896)

/-- The marker that a logical lane of a link sends now: a port's carries this module's node ID, a host lane's
`0xFFFE`. -/
def State.marker (s : State) (l lane : Nat) : BitVec 5140 :=
  if l < 16 then markerWord lane s.markerNow s.node else markerWord (l - 16) s.markerNow 0xFFFE

/-- The four logical lanes of a port are aligned by the markers they received: lane j's number is j, and the
counts are equal. -/
def aligned (ms : List (BitVec 5140)) : Option (BitVec 32 × BitVec 16) :=
  match ms with
  | [a, b, c, d] =>
    let n := markerCount a
    if isMarker 0 a && isMarker 1 b && isMarker 2 c && isMarker 3 d &&
        [b, c, d].all (fun m => markerCount m == n) then
      some (n, BitVec.ofNat 16 (markerId a))
    else none
  | _ => none

/-- A host lane's receiver is aligned to its own marker, the adapter's. -/
def hostAligned (lane : Nat) (m : BitVec 5140) : Bool :=
  isMarker lane m && decide (markerId m = 0xFFFD)

/-- The node at the other end of a port: the ID in its markers (R316), else the one of its last hello. -/
def State.linkPeer (s : State) (p : Nat) : Nat :=
  match (s.link p).marker with
  | some m => m.2.toNat
  | none => s.partner p

/-- A packet joins others that wait: a response of a command queue before those of the queue that it precedes
(R356), anything else behind them. -/
def joinTurn (l : List Pkt) (p : Pkt) : List Pkt :=
  match l with
  | [] => [p]
  | q :: qs => if p.precedes q then p :: q :: qs else q :: joinTurn qs p

/-- What may move from a host lane to the other: a hello and credits returned are for their lane alone (R353). -/
def Pkt.moves (q : Pkt) : Bool := q.opcode != 1 && q.opcode != 0x40
def movable (l : List Pkt) : List Pkt := l.filter Pkt.moves

/-! ### Ports that go down, and fences -/

/-- The breach of a lost or fenced port (R387). -/
def State.portLost (s : State) (p : Nat) : State :=
  s.breachOpen (linkIsland p) { cls := 5, polder := polderOfHalf (halfOfPort p), action := 6, obj := p }

/-- A link goes down: its stream, buffers and credits are gone (R319, R325, R353). What waits on a host
lane moves to the other lane (R350, R356), but for credits to return (R353). DESIGN CHOICE: sequence numbers restart
at 0 (log entry 37). -/
def State.linkDown (s : State) (l : Nat) : State :=
  let k := s.link l
  let s := (s.setLink l { LinkSt.reset with viol := k.viol, nakAt := k.nakAt,
                                            deadLanes := k.deadLanes }).setLinkState l 0
  if l < 16 then s
  else
    let o := 33 - l
    if s.linkState o = 2 then
      (s.setLink o { s.link o with txq := (movable k.txq).foldl joinTurn (s.link o).txq }).pump o
    else s.setLink l { s.link l with txq := movable k.txq }

/-- A `LINK_CTL` packet for the link partner: subtype and the hello's fields (R323). -/
def State.sendCtl (s : State) (p sub : Nat) : State :=
  let credits := (ownCredits p).zipIdx.foldl (fun n c => n + c.1 * 2 ^ (16 * c.2)) 0
  let ops := if sub = 0 then s.node * 2 ^ 16 + credits * 2 ^ 32 else sub
  s.linkSend p ⟨fabHdr 0x40 3 0 (s.linkPeer p) s.node 0 64 ops, []⟩

/-- The lanes of a port have trained: steps 1 to 3 of R318 are behind it. -/
def State.lanesUp (s : State) (p : Nat) : Bool := decide (3 ≤ (s.link p).trainStep)

/-- A port is fenced (R342, R344), whatever its state: the notice where its lanes carry one, the breach; it
leaves every route set, since only a port that is up is usable. -/
def State.fencePort (s : State) (p : Nat) : State :=
  if s.linkState p = 3 then s
  else ((if s.lanesUp p then s.sendCtl p 3 else s).setLinkState p 3).portLost p

/-! ### Violations and NAKs (R340, R341, R346) -/

/-- A violation by a port's partner: counted, described, logged; it fences the port when those within
1 ms reach the threshold (R342). Every case of R340 that has a NAK code is one, but for those it excepts
(DEDUCED, log entry 116). -/
def State.violate (s : State) (p code opcode src : Nat) : State :=
  let s := s.inc (portReg p (0x20 + 4 * (code - 1))) 1
  let s := s.setReg (portReg p 0x64)
    (BitVec.ofNat 32 (2 ^ 31 + code * 2 ^ 24 + opcode * 2 ^ 16 + src))
  let s := (s.count (60 + p / 8) 0x2C6 (p % 8) 1).addLog (linkIsland p) (0x300 + code) (opcode + src * 2 ^ 16)
  let k := s.link p
  let v := s.now :: k.viol.filter fun t => decide (s.now < t + 1000)
  let s := s.setLink p { k with viol := v }
  let thr := (s.reg (Reg.CLV_FENCE_THR (p / 8))).toNat
  if thr ≠ 0 ∧ thr ≤ v.length then s.fencePort p else s

/-- A `NAK` of a code may be sent on a link: at most one each 1 µs, one each 1 ms for `FENCED`. -/
def State.nakDue (s : State) (l code : Nat) : Bool :=
  match SMap.get (fun _ => none) (s.link l).nakAt code with
  | some t => decide (t + (if code = 9 then 1000 else 1) ≤ s.now)
  | none => true

/-- The sending of a `NAK` is noted. -/
def State.noteNak (s : State) (l code : Nat) : State :=
  let k := s.link l
  s.setLink l { k with nakAt := SMap.set (fun _ => none) k.nakAt code (some s.now) }

/-- The op-specific field of a `NAK` (R323). -/
def nakOps (code expected : Nat) (q : Pkt) : Nat :=
  code + q.opcode * 2 ^ 8 + q.src * 2 ^ 16 + q.eseq * 2 ^ 32 + q.vcFlow * 2 ^ 64 + expected * 2 ^ 72

/-! ### Routes (R328 to R330) -/

/-- Ports that may carry a packet for a destination, by the tables of an edge die. -/
def State.routePorts (s : State) (e dst : Nat) : List Nat :=
  let w := (if dst / 256 = s.node / 256 then s.reg (Reg.CLV_RT2 e (dst % 256))
    else s.reg (Reg.CLV_RT1 e (dst / 256))).toNat
  if bit w 31 then
    (List.range 16).filter fun p => bit w p && decide (s.linkState p = 2) && !s.isTwinPort p
  else []

/-- The port that a packet takes. -/
def State.route (s : State) (e : Nat) (q : Pkt) : Option Nat :=
  let ps := s.routePorts e q.dst
  if ps.isEmpty then none
  else ps[(crc32c (leBytes 2 q.src ++ leBytes 2 q.dst ++ leBytes 1 q.vcFlow)).toNat % ps.length]?

/-- A packet of this module goes out by its route, over the bridges where that is a port of the other edge die
(R18, R329), and is lost where there is none. -/
def State.sendRouted (s : State) (e : Nat) (q : Pkt) : State :=
  match s.route e q with
  | some p => s.sendFrom e p q
  | none => s

/-- The twin port that carries an edge die's mirror traffic: its own, or the other one (R339). -/
def State.twinPort (s : State) (e : Nat) : Option Nat :=
  let ok (p : Nat) : Bool := s.isTwinPort p && decide (s.linkState p = 2) && s.partner p == s.twin
  match (List.range 16).find? fun p => ok p && p / 8 == e with
  | some p => some p
  | none => (List.range 16).find? ok

/-- A packet for the twin on its mirror flow, or by route. -/
def State.transmit (s : State) (mirror : Bool) (e : Nat) (q : Pkt) : State :=
  if mirror then
    match s.twinPort e with
    | some p =>
      let s := if q.opcode = 0x30 then s.count (60 + e) 0x304 (q.fld 183 176 % 2) 1 else s
      s.sendFrom e p q
    | none => s
  else s.sendRouted e q

/-- A violating packet of a port is answered: to the link partner, or to its source (R340). -/
def State.nakTo (s : State) (p code expected : Nat) (q : Pkt) (hop : Bool) : State :=
  if q.opcode = 2 || !s.nakDue p code then s
  else
    let s := s.noteNak p code
    let h := fabHdr 2 3 0 (if hop then s.linkPeer p else q.src) s.node 0 64 (nakOps code expected q)
    if hop then s.linkSend p ⟨h, []⟩
    else if s.isTwinPort p then s.linkSend p ⟨h, []⟩
    else s.sendRouted (p / 8) ⟨h, []⟩

/-- A violation with its answer. -/
def State.refusePkt (s : State) (p code : Nat) (q : Pkt) (hop : Bool) : State :=
  (s.violate p code q.opcode q.src).nakTo p code 0 q hop

/-! ### End-to-end flows (R326) -/

/-- The key of a flow. -/
def flowKey (peer vc flow : Nat) : Nat := peer * 16 + vc * 4 + flow

/-- Mirror traffic has twin ports of its own: VC 2, and the replies to it. -/
def State.isMirror (s : State) (q : Pkt) : Bool :=
  s.hasTwin && q.dst == s.twin && (q.opcode == 0x30 || q.opcode == 0x31)

/-- The edge die that sends for a flow: an engine's for mirror traffic, ED0 otherwise. -/
def flowEdge (key : Nat) : Nat := if key / 4 % 4 = 2 then key % 4 / 2 else 0

/-- A packet joins its flow: sent, or waiting while 256 are unacknowledged. -/
def State.e2eSend (s : State) (e peer vc flow opcode ops : Nat) (payload : List Byte) : State :=
  let key := flowKey peer vc flow
  let f := s.txFlow key
  let q : Pkt := ⟨fabHdr opcode (vc + 4 * flow) payload.length peer s.node f.next.toNat 64 ops, payload⟩
  if f.unacked.length < 256 then
    (s.setTxFlow key { f with next := f.next + 1, unacked := f.unacked ++ [q],
                              sentAt := if f.unacked.isEmpty then s.now else f.sentAt }).transmit
      (s.isMirror q) e q
  else s.setTxFlow key { f with next := f.next + 1, waiting := f.waiting ++ [q] }

/-- The unacknowledged packets of a flow go out again from an `ESEQ`. -/
def State.resend (s : State) (e key from_ : Nat) : State :=
  ((s.txFlow key).unacked.filter fun q =>
      decide ((q.eseq + 2 ^ 32 - from_) % 2 ^ 32 < 2 ^ 31)).foldl
    (fun s q => s.transmit (s.isMirror q) e q) s

/-- Packets up to an `ESEQ` are acknowledged; waiting ones move up. -/
def State.ackFlow (s : State) (e key upTo : Nat) : State :=
  let f := s.txFlow key
  let left := f.unacked.filter fun q => decide (2 ^ 31 ≤ (upTo + 2 ^ 32 - q.eseq) % 2 ^ 32)
  if left.length = f.unacked.length then s
  else
    let new := f.waiting.take (256 - left.length)
    let s := s.setTxFlow key { f with unacked := left ++ new, waiting := f.waiting.drop new.length,
                                      resends := 0, lost := false, sentAt := s.now }
    new.foldl (fun s q => s.transmit (s.isMirror q) e q) s

/-- The acknowledgements of a flow from the twin go by the twin port: those of its mirrored writes, and, while
one is usable, those of the flows that carry its acknowledgements (R339). -/
def State.ackMirror (s : State) (e key : Nat) : Bool :=
  s.hasTwin && key / 16 == s.twin &&
    (key / 4 % 4 == 2 || (key / 4 % 4 == 3 && (s.twinPort e).isSome))

/-- The cumulative acknowledgement of a receive flow is sent. -/
def State.sendAck (s : State) (e key : Nat) : State :=
  let f := s.rxFlow key
  let peer := key / 16
  let ops := key / 4 % 4 + key % 4 * 4 + ((f.expect - 1).toNat) * 2 ^ 32
  let q : Pkt := ⟨fabHdr 3 3 0 peer s.node 0 64 ops, []⟩
  (s.setRxFlow key { f with unacked := 0 }).transmit (s.ackMirror e key) e q

/-- A packet is taken by its flow's receiver: only the expected `ESEQ` is accepted, and the sixteenth since the
last acknowledgement is acknowledged; one ahead is answered with `NAK` `0x03`, one behind with a fresh
acknowledgement. -/
def State.e2eAccept (s : State) (p : Nat) (q : Pkt) : Bool × State :=
  let key := flowKey q.src (q.fld 9 8) (q.fld 11 10)
  let f := s.rxFlow key
  if f.expect.toNat = q.eseq then
    let s := s.setRxFlow key { f with expect := f.expect + 1, unacked := f.unacked + 1 }
    (true, if f.unacked + 1 < 16 then s else s.sendAck (p / 8) key)
  else if (q.eseq + 2 ^ 32 - f.expect.toNat) % 2 ^ 32 < 2 ^ 31 then
    (false, (s.inc (portReg p 0x18) 1).nakTo p 3 f.expect.toNat q false)
  else (false, s.sendAck (p / 8) key)

/-! ### Receiving flits (R320, R321) -/

/-- A count register of a link: the port's, or the lane's. -/
def linkCnt (l port lane : Nat) : Nat := if l < 16 then portReg l port else Reg.HLK_LANE_STAT (l - 16) + lane

/-- A retry is requested. -/
def State.wantRetry (s : State) (l : Nat) : State :=
  let s := (s.setLink l { s.link l with needRetry := true }).inc (linkCnt l 0x08 0x08) 1
  if l < 16 then s.count (60 + l / 8) 0x2C3 (l % 8) 1 else s

/-- The flits of the retry buffer with trailers of now: the last flit received, and a request to resend with
the first (R320, R321). -/
def LinkSt.replayFlits (k : LinkSt) : List Flit :=
  k.retryBuf.zipIdx.map fun f =>
    { f.1 with ackseq := k.ack, retry := k.needRetry && decide (f.2 = 0) }

/-- Flits of the retry buffer go out again; from `DUMPING` on no port transmits (R402). -/
def State.replayLink (s : State) (l : Nat) : State :=
  let k := s.link l
  if s.portsMute l || s.linkState l = 0 || k.swapping.isSome || k.txSwap || k.retryBuf.isEmpty then s
  else (s.setLink l { k with wire := k.wire ++ k.replayFlits, needRetry := false,
                             ackSent := k.ack }).countSent l k.retryBuf.length 0

/-- The acknowledgement in a trailer: it covers flits that were sent, or is ignored; and a request to
resend. The result tells whether it names a flit that was sent: one of the retry buffer, or an earlier one
within half the range of `ACKSEQ`, as a flit sent again may carry it (DEDUCED, log entry 118). -/
def State.takeAck (s : State) (l : Nat) (ack : BitVec 12) (retry : Bool) : Bool × State :=
  let k := s.link l
  let adv := (ack - k.txAcked).toNat
  if adv ≤ k.retryBuf.length then
    let s := s.setLink l { k with txAcked := ack, retryBuf := k.retryBuf.drop adv }
    (true, (if retry then s.replayLink l else s).pump l)
  else (decide (2048 < adv), if retry && decide (2048 < adv) then s.replayLink l else s)

/-- Packets in a byte stream that starts at a header; a packet whose `LEN` is unusable ends the parse.
The second list is what is left of a packet that is not whole. -/
def parsePkts : Nat → List Byte → List (Pkt × Bool) × List Byte
  | 0, l => ([], l)
  | n + 1, l =>
    if (l.headD 0) = 0 then ([], [])
    else if l.length < 32 then ([], l)
    else
      let hdr := BitVec.ofNat 256 (leNat (l.take 32))
      let len := (⟨hdr, []⟩ : Pkt).len
      let whole := 32 + (len + 7) / 8 * 8
      if 8192 < len ∨ len % 4 ≠ 0 then ([(⟨hdr, []⟩, false)], [])
      else if l.length < whole then ([], l)
      else
        let r := parsePkts n (l.drop whole)
        ((⟨hdr, (l.drop 32).take len⟩, true) :: r.1, r.2)

/-- A flit arrives, in codewords of which some were corrected and some may be uncorrectable: CRC, `ACKSEQ`, `FSEQ`,
content. A flit ahead of the expected `FSEQ` asks for a retry, unless one is asked for already (R321). The packets in
it, each with whether its length is usable, and whether its `ACKSEQ` is one that this side sent. -/
def State.rxFlit (s : State) (l : Nat) (bytes : List Byte) (fec : FecResult) :
    List (Pkt × Bool) × Bool × State :=
  let s := (s.inc (linkCnt l 0x0C 0x0C) fec.corr.toNat).inc (linkCnt l 0x10 0x10) fec.lost.toNat
  let s := if l < 16 then s.count (60 + l / 8) 0x2C1 (l % 8) 1 else s
  let tr := leNat (bytes.drop 248)
  if fec.uncorr ∨ bytes.length ≠ 256 ∨ (crc32c (bytes.take 252)).toNat ≠ tr / 2 ^ 32 then
    ([], true, s.wantRetry l)
  else
    let a := s.takeAck l (BitVec.ofNat 12 (fld tr 23 12)) (bit tr 25)
    let s := a.2
    let k := s.link l
    let seq := BitVec.ofNat 12 (fld tr 11 0)
    if bit tr 24 then ([], a.1, s)
    else if seq = k.rxNext then
      let hdr := fld tr 31 27
      let content := bytes.take 248
      let body := if k.stream.isEmpty then (if hdr = 31 then [] else content.drop (8 * hdr))
        else k.stream ++ content
      let r := parsePkts 10 body
      (r.1, a.1, s.setLink l { k with rxNext := k.rxNext + 1, stream := r.2 })
    else if (k.rxNext - seq).toNat ≤ 2048 then ([], a.1, s)
    else ([], a.1, if k.needRetry then s else s.wantRetry l)

/-! ### Packets of a port (R322, R323, R329, R340) -/

/-- The virtual channel of an opcode; none for a reserved one. -/
def opcodeVc (op : Nat) : Option Nat :=
  if op = 0x10 ∨ op = 0x11 then some 0
  else if op = 0x20 ∨ op = 0x21 ∨ op = 0x22 then some 1
  else if op = 0x30 then some 2
  else if op = 1 ∨ op = 2 ∨ op = 3 ∨ op = 0x12 ∨ op = 0x31 ∨ op = 0x40 then some 3
  else none

/-- A packet is malformed: reserved opcode, wrong virtual channel, `DST` `0xFFFF`, a reserved bit set. -/
def Pkt.malformed (q : Pkt) : Bool :=
  opcodeVc q.opcode != some q.vc || q.fld 15 12 != 0 || q.dst == 0xFFFF || q.fld 127 104 != 0 ||
    ((q.opcode == 0x20 || q.opcode == 0x21) && q.ops 15 12 != 0)

/-- Buffer space of a packet is free again: its credits are owed to the partner. -/
def State.freeRx (s : State) (l : Nat) (q : Pkt) : State :=
  let k := s.link l
  s.setLink l { k with owed := k.owed.set q.vc (at0 k.owed q.vc + q.credits) }

/-- Hop-by-hop packets are never forwarded. -/
def Pkt.hop (q : Pkt) : Bool := q.opcode == 1 || q.opcode == 0x40

/-- A packet for another node goes on, by the bridges to a port of the other edge die (R18, R328, R329), or is
answered. -/
def State.forward (s : State) (p : Nat) (q : Pkt) : State :=
  let s := s.freeRx p q
  if q.ttl ≤ 1 then
    ((s.inc (portReg p 0x1C) 1).violate p 6 q.opcode q.src).nakTo p 6 0 q false
  else
    match s.route (p / 8) q with
    | none => s.refusePkt p 5 q false
    | some o =>
      let hdr := BitVec.ofNat 256 (setFld q.hdr.toNat 103 96 (q.ttl - 1))
      (s.count (60 + p / 8) 0x2C5 (p % 8) 1).sendFrom (p / 8) o ⟨hdr, q.payload⟩

/-- A node is heard from: its flows are no longer unreachable (R387). -/
def State.heard (s : State) (src : Nat) : State :=
  (s.txFlows.filter fun e => e.1 / 16 == src && e.2.lost).foldl
    (fun s e => s.setTxFlow e.1 { e.2 with lost := false }) s

/-- A packet that a twin port may bring (R339): mirror traffic, its acknowledgements and NAKs, and what the link
itself needs. -/
def Pkt.onTwin (q : Pkt) : Bool := q.hop || [2, 3, 0x30, 0x31].contains q.opcode

/-- A twin port does not carry the packet: another kind of traffic, or mirror traffic while its partner has reported
another node ID than the twin's (R339). -/
def State.offTwin (s : State) (p : Nat) (q : Pkt) : Bool :=
  s.isTwinPort p && (!q.onTwin || (!q.hop && s.partner p != s.twin))

/-- The credits that an arriving packet took (R325); false where the partner held too few. -/
def State.takeGrant (s : State) (p : Nat) (q : Pkt) : Bool × State :=
  let k := s.link p
  if at0 k.granted q.vc < q.credits then (false, s)
  else (true, s.setLink p { k with granted := k.granted.set q.vc (at0 k.granted q.vc - q.credits) })

/-- A packet that is discarded gives its buffer space back at once. -/
def State.dropRx (s : State) (p : Nat) (q : Pkt) : State :=
  let r := s.takeGrant p q
  if r.1 then r.2.freeRx p q else s

/-- One packet of a port: refused, forwarded, or kept for its command. A fenced port takes `LINK_CTL` alone. A
packet that a twin port does not carry is refused as malformed, an `MWR` as one not of the twin (DESIGN CHOICE, log
entry 140). -/
def State.portPkt (s : State) (p : Nat) (q : Pkt) (lenOk : Bool) : State :=
  if s.linkState p = 3 ∧ q.opcode ≠ 0x40 then
    (if lenOk then s.dropRx p q else s).refusePkt p 9 q true
  else if !lenOk then s.refusePkt p 1 q true
  else if q.malformed || s.offTwin p q then
    (s.dropRx p q).refusePkt p (if !q.malformed && q.opcode == 0x30 then 7 else 1) q true
  else
    let r := s.takeGrant p q
    if !r.1 then s.refusePkt p 2 q true
    else
      let s := r.2
      if s.linkState p ≠ 2 ∧ q.opcode ≠ 0x40 then s.freeRx p q
      else
        let s := s.heard q.src
        if q.hop || q.dst == s.node then
          s.setLink p { s.link p with rx := (s.link p).rx ++ [q] }
        else s.forward p q

/-- The oldest packet of an opcode that waits on a port leaves its buffer. -/
def State.takeRx (s : State) (p opcode : Nat) : Option (Pkt × State) :=
  let k := s.link p
  match k.rx.find? fun q => q.opcode == opcode with
  | none => none
  | some q => some (q, (s.setLink p { k with rx := k.rx.erase q }).freeRx p q)

/-- Credits come back (R325, R353): capped at the partner's hello values; the result tells whether none
was returned beyond what was owed. -/
def State.takeCredits (s : State) (l n : Nat) : Bool × State :=
  let k := s.link l
  let sum (v : Nat) := at0 k.held v + fld n (16 * v + 15) (16 * v)
  let ok := (List.range 4).all fun v => decide (sum v ≤ at0 k.heldMax v)
  (ok, (s.setLink l { k with held := (List.range 4).map fun v => min (sum v) (at0 k.heldMax v) }).pump l)

/-- What waits on a host lane that is down moves to the lane that comes up (R350, R356); events that wait on lane 1
go back to lane 0 when it comes up (R376). -/
def State.adoptQueue (s : State) (l : Nat) : State :=
  let o := 33 - l
  let goes (q : Pkt) : Bool := if s.linkState o = 2 then decide (l = 16) && q.opcode == 0x12 else q.moves
  if l < 16 then s
  else
    (s.setLink l { s.link l with txq := ((s.link o).txq.filter goes).foldl joinTurn (s.link l).txq }).setLink o
      { s.link o with txq := (s.link o).txq.filter fun q => !goes q }

/-- A link comes up: its partner's buffers and its own are empty (R325, R353). -/
def State.linkUp (s : State) (l : Nat) (credits : List Nat) : State :=
  (((s.setLink l { s.link l with held := credits, heldMax := credits, granted := ownCredits l,
                                 owed := [0, 0, 0, 0], helloSeen := true, trainStep := 4 }).setLinkState
    l 2).adoptQueue l).pump l

/-- A receiver recovers its clock (R318, step 1): its island leaves reset, a port's with its five lane
receivers (R27). -/
def State.clockIn (s : State) (i : Nat) : State :=
  if (s.island i).ready then s else s.leaveReset i

/-! ### Commands of ports -/

/-- A further training attempt of a port (R318, R345). -/
def State.portAttempt (s : State) (p : Nat) : State :=
  (s.setLinkState p 1).setRegF (portReg p 0x60) 7 0 (min (s.regF (portReg p 0x60) 7 0 + 1) 255)

/-- PORT_TRAIN (R318): one of the steps 1 to 3 is finished. With the first the receivers' clocks run; the
third needs the four logical lanes aligned by the markers that they last received (R316), and the hello goes
out after it. A port whose rail is off does not train (R448). -/
def execPortTrain (x : PortMarks) (s : State) : Out :=
  let st := s.linkState x.port
  let k := s.link x.port
  if st = 2 ∨ st = 3 ∨ 3 ≤ k.trainStep ∨ s.keptInReset (linkIsland x.port) = true then .next s
  else
    let s := if st = 0 then s.portAttempt x.port else s
    if k.trainStep = 2 then
      match aligned x.marks with
      | none => .next s
      | some m => .next ((s.setLink x.port { s.link x.port with trainStep := 3, marker := some m }).sendCtl x.port 0)
    else
      let s := s.setLink x.port { s.link x.port with trainStep := k.trainStep + 1 }
      .next (if k.trainStep = 0 then s.clockIn (linkIsland x.port) else s)

/-- PORT_TRAIN_TIMEOUT (R318): training starts again at step 1, as a further attempt. -/
def execPortTrainTimeout (p : Port) (s : State) : Out :=
  if s.linkState p = 1 then
    .next ((s.setLink p { s.link p with trainStep := 0, helloSeen := false, marker := none, stream := [],
                                        rx := [] }).portAttempt p)
  else .next s

/-- A port goes down with its breach (R319). -/
def State.portDown (s : State) (p : Nat) : State :=
  ((s.closeWindow 4 p).linkDown p).portLost p

/-- LANE_FAIL (R319): the lane's number moves to the spare; a second lane of the direction takes the port
down. The lane that is not in use cannot fail. -/
def execLaneFail (p : Port) (lane : Fin 5) (s : State) : Out :=
  let k := s.link p
  if (s.linkState p ≠ 2 ∧ s.linkState p ≠ 3) ∨ s.lanesUp p = false ∨ lane.val = s.regF (portReg p 0) 23 21 ∨
      k.deadLanes.contains lane.val then .next s
  else if !k.deadLanes.isEmpty then .next (s.portDown p)
  else
    let s := s.sendCtl p 1
    let s := s.setLink p { s.link p with swapping := some lane.val, deadLanes := [lane.val] }
    let pol := polderOfHalf (halfOfPort p)
    .next ((s.breachOpen (linkIsland p) { cls := 4, polder := pol, action := 5, obj := p }).openWindow
      4 pol p)

/-- A swap ends in one direction: counted, and the replay begins. -/
def State.swapDone (s : State) (p : Nat) : State :=
  ((s.inc (portReg p 0x14) 1).count (60 + p / 8) 0x2C7 (p % 8) 1).replayLink p

/-- LANE_SWAP_COMPLETE (R319): the receive spare is trained; swap-done is sent and the replay asked for. -/
def execLaneSwapComplete (p : Port) (s : State) : Out :=
  match (s.link p).swapping with
  | none => .next s
  | some lane =>
    let s := (s.setRegF (portReg p 0) 23 21 lane).setLink p
      { s.link p with swapping := none }
    .next ((((s.wantRetry p).sendCtl p 2).swapDone p).closeWindow 4 p)

/-- SPARE_LANE_TRAIN_TIMEOUT (R319): treated as a second failure. -/
def execSpareLaneTrainTimeout (p : Port) (s : State) : Out :=
  .next (if (s.link p).swapping.isSome || (s.link p).txSwap then s.portDown p else s)

/-- LINK_SILENCE (R319). -/
def execLinkSilence (p : Port) (s : State) : Out :=
  .next (if s.linkState p = 2 ∨ (s.linkState p = 3 ∧ s.lanesUp p = true) then s.portDown p
    else if s.linkState p = 1 then s.linkDown p else s)

/-- FLIT_RECEIVE (R320 to R322, R340): a port whose lanes have not trained, or whose receivers are in reset,
receives nothing. An acknowledgement or a request to resend that no other flit takes along goes out in an idle
flit. -/
def execFlitReceive (p : Port) (bytes : List Byte) (fec : FecResult) (s : State) : Out :=
  if s.linkState p = 0 ∨ s.lanesUp p = false ∨ s.portListens p = false then .next s
  else
    let r := s.rxFlit p bytes fec
    let s := r.2.2
    let s := if r.2.1 then s else s.refusePkt p 3 ⟨0, []⟩ true
    .next ((r.1.foldl (fun s q => s.portPkt p q.1 q.2) s).pump p)

/-- RETRY_TIMEOUT (R321, R349). -/
def execRetryTimeout (l : Link) (s : State) : Out := .next (s.replayLink l)

/-- CREDIT_RETURN (R325, R353). -/
def execCreditReturn (l : Link) (s : State) : Out :=
  let k := s.link l
  if k.owed.all (· == 0) ∨ s.linkState l ≠ 2 then .next s
  else
    let n := k.owed.zipIdx.foldl (fun n c => n + c.1 * 2 ^ (16 * c.2)) 0
    let s := s.setLink l { k with owed := [0, 0, 0, 0],
                                  granted := (k.granted.zip k.owed).map fun c => c.1 + c.2 }
    if l.val < 16 then .next (s.linkSend l ⟨fabHdr 1 3 0 (s.partner l) s.node 0 64 n, []⟩)
    else .next (s.linkSend l ⟨nhlHdr 1 3 0 0 0 0 0 n, []⟩)

/-- CREDIT (R325, R340). -/
def execCredit (p : Port) (s : State) : Out :=
  match s.takeRx p 1 with
  | none => .next s
  | some (q, s) =>
    let r := s.takeCredits p (q.ops 7 0)
    .next (if r.1 then r.2 else r.2.refusePkt p 2 q true)

/-- A `READ` of a restore. -/
def ReadUse.isRestore : ReadUse → Bool
  | .restore _ => true
  | _ => false

/-- A restore has `READ`s of a node outstanding (R404). -/
def State.restoresFrom (s : State) (node : Nat) : Bool :=
  s.reads.any fun r => r.use.isRestore && r.node.toNat == node

/-- NAK (R326, R341): code `0x03` for a flow resends from the expected `ESEQ`. A `READ` turned away by the
twin fails the pair check (R397), or loses the source of a restore (R409). The others need no action. -/
def execNak (p : Port) (s : State) : Out :=
  match s.takeRx p 2 with
  | none => .next s
  | some (q, s) =>
    let op := q.ops 1 1
    let vf := q.ops 8 8
    if q.ops 0 0 = 3 ∧ op ≠ 0 then
      .next (s.resend (p / 8) (flowKey q.src (vf % 4) (vf / 4 % 4)) (q.ops 12 9))
    else if op = 0x11 ∧ s.reads.any fun r => r.use == ReadUse.pairCheck && r.node.toNat == q.src then
      .next (({ s with reads := s.reads.filter fun r => r.use != ReadUse.pairCheck }).loseTwin (some 1))
    else if op = 0x11 ∧ s.restoresFrom q.src then .next (s.loseTwin none)
    else .next s

/-- E2E_ACK (R326, R340). -/
def execE2eAck (p : Port) (s : State) : Out :=
  match s.takeRx p 3 with
  | none => .next s
  | some (q, s) =>
    let vf := q.ops 0 0
    let key := flowKey q.src (vf % 4) (vf / 4 % 4)
    if (s.txFlow key).unacked.isEmpty then .next (s.refusePkt p 4 q false)
    else .next (s.ackFlow (p / 8) key (q.ops 7 4))

/-- E2E_ACK_DUE (R326). -/
def execE2eAckDue (f : FlowId) (s : State) : Out :=
  let key := flowKey f.peer.toNat f.vc.toNat f.flow.toNat
  .next (if (s.rxFlow key).unacked = 0 then s else s.sendAck (flowEdge key) key)

/-- E2E_TIMEOUT (R326, R387): `CLV_E2E_TMO` has passed since the oldest unacknowledged packet of the flow was
last sent; the ninth time without progress the flow is unreachable, and a step of the group it served is repeated
(R390). The loss of a mirror flow, or of the flow that a restore reads by, is the loss of the twin (R398, R399, R409;
DEDUCED, log entry 156). DESIGN CHOICE: its `ESEQ` goes back to the oldest packet discarded (log entry 38). -/
def execE2eTimeout (f : FlowId) (s : State) : Out :=
  let key := flowKey f.peer.toNat f.vc.toNat f.flow.toNat
  let t := s.txFlow key
  match t.unacked with
  | [] => .next s
  | q :: _ =>
    if s.now < t.sentAt + (s.reg (Reg.CLV_E2E_TMO (flowEdge key))).toNat then .next s
    else if t.resends < 8 then
      .next ((s.setTxFlow key { t with resends := t.resends + 1, sentAt := s.now }).resend
        (flowEdge key) key q.eseq)
    else
      let s := s.setTxFlow key { TxFlow.reset with next := BitVec.ofNat 32 q.eseq, lost := true }
      let s := s.breachOpen s.ctlIsl { cls := 6, polder := 0xFF, action := 2, obj := f.peer.toNat }
      let ofTwin := s.hasTwin && f.peer.toNat == s.twin
      .next (if ofTwin && (f.vc == 2 || (f.vc == 0 && s.restoresFrom f.peer.toNat)) then s.loseTwin none
        else if s.ctl.begun ≤ s.committed || (ofTwin && f.vc == 0) then s
        else { s with ctl := { s.ctl with failed := true } })

/-- FENCE (R342, R344). -/
def execFence (p : Port) (s : State) : Out := .next (s.fencePort p)

/-- A fence ends (R342): the hello again, with credits reset; a port whose lanes have not trained goes on with
its training. -/
def State.unfencePort (s : State) (p : Nat) : State :=
  if s.linkState p = 3 ∧ s.lanesUp p = false then
    s.setLinkState p (if (s.link p).trainStep = 0 then 0 else 1)
  else if s.linkState p = 3 then
    let s := s.setLink p { s.link p with trainStep := 3, helloSeen := false, viol := [], txq := [],
                                         rx := [], granted := ownCredits p, owed := [0, 0, 0, 0] }
    (s.setLinkState p 1).sendCtl p 0
  else s

/-- UNFENCE (R342, R344). -/
def execUnfence (p : Port) (s : State) : Out := .next (s.unfencePort p)

/-- LINK_CTL_SWAP_REQUEST (R319): the partner's receiver moves one of our transmit lanes. The packet does
not say which lane failed: a free value (log entry 39). -/
def execLinkCtlSwapRequest (p : Port) (s : State) : Out :=
  match s.takeRx p 0x40 with
  | some (q, t) =>
    if q.ops 0 0 = 1 then
      let t := t.setLink p { t.link p with txSwap := true }
      .next (t.draw.2.setRegF (portReg p 0) 20 18 (t.draw.1.toNat % 4))
    else .next s
  | none => .next s

/-- LINK_CTL_SWAP_DONE (R319). -/
def execLinkCtlSwapDone (p : Port) (s : State) : Out :=
  match s.takeRx p 0x40 with
  | some (q, t) =>
    if q.ops 0 0 = 2 then
      let was := (t.link p).txSwap
      let t := t.setLink p { t.link p with txSwap := false }
      .next (if was then (t.swapDone p).pump p else t)
    else .next s
  | none => .next s

/-- LINK_CTL_FENCE_NOTICE (R342): nothing is asked of the receiver. -/
def execLinkCtlFenceNotice (p : Port) (s : State) : Out :=
  match s.takeRx p 0x40 with
  | some (q, t) => .next (if q.ops 0 0 = 3 then t else s)
  | none => .next s

end Sys2Proof.Machine
end

