-- ==== Sys2Proof/Machine/Collective.lean ====
section
/-! DEFINITION. Collective engines: reduce-scatter (R333, R334, R337), all-gather (R335, R405), row
records of embedding groups (R337) and the norm all-reduce (R287, R336). -/

namespace Sys2Proof.Machine

open Sys2Proof

/-! ### Shards (R120, R279, R282) -/

/-- The canonical NaN (R42). -/
def qnan : Word := 0x7FC00000#32

/-- The descriptor of a handle. -/
def State.descOf (s : State) (h : Nat) : Option Desc := (s.desc h).map DescSlot.desc

/-- Shards that a descriptor's tensor is cut into. -/
def Desc.shards (d : Desc) : Nat := prodL (d.dims.map DimE.ways)

/-- The descriptor's shape as that of shard r. -/
def Desc.shard (d : Desc) (r : Nat) : Desc :=
  let ix := unflat (d.dims.map DimE.ways) r
  { d with dims := (d.dims.zip ix).map fun p =>
      let l := shardLen p.1
      { p.1 with sidx := p.2, ext := min l (p.1.gext - p.2 * l) } }

/-- A local index tuple in the whole tensor. -/
def Desc.toGlobal (d : Desc) (ix : List Nat) : List Nat :=
  (ix.zip d.dims).map fun p => p.1 + p.2.sidx * shardLen p.2

/-- A tuple of the whole tensor in the local shard, when it lies there. -/
def Desc.toLocal (d : Desc) (g : List Nat) : Option (List Nat) :=
  if (g.zip d.dims).all fun p =>
      let b := p.2.sidx * shardLen p.2
      decide (b ≤ p.1) && decide (p.1 < b + p.2.ext) then
    some ((g.zip d.dims).map fun p => p.1 - p.2.sidx * shardLen p.2)
  else none

/-- The engines of a mask in ascending number. -/
def enginesOf (mask : BitVec 4) : List Nat := (List.range 4).filter fun n => mask.getLsbD n

/-- The sub-shard length (R279). -/
def UGroup.subLen (u : UGroup) : Nat :=
  let e := (enginesOf u.engines).length
  if u.kind = 1 then cdiv u.slots e else cdiv (cdiv u.slots e) 2048 * 2048

/-- The engine that owns a slot or row. -/
def UGroup.owner (u : UGroup) (slot : Nat) : Nat := at0 (enginesOf u.engines) (slot / u.subLen)

/-- The first and the end slot or row of an engine's sub-shard. -/
def UGroup.range (u : UGroup) (n : Nat) : Nat × Nat :=
  let r := (enginesOf u.engines).idxOf n
  (min u.slots (r * u.subLen), min u.slots ((r + 1) * u.subLen))

/-- An update group of the program. -/
def State.ugroup (s : State) (g : Nat) : Option UGroup :=
  match s.prog with
  | some p => p.ugroups.find? fun u => u.group == g
  | none => none

/-- A collective with its ring. -/
def State.ring (s : State) (i : Nat) : Option Ring :=
  match s.prog with
  | none => none
  | some p =>
    match p.colls[i]? with
    | none => none
    | some c =>
      let ug := if c.kind = 0 then s.ugroup c.ugroup else none
      let h := match c.kind, ug with
        | 0, some u => u.wdesc
        | 1, _ => c.dst
        | _, _ => c.src
      match p.shardGroups.find? (fun g => g.group == c.sgroup), s.descOf h with
      | some g, some d => some ⟨i, c, g, d, ug⟩
      | _, _ => none

/-- The node of a ring position. -/
def ShardGroup.node (g : ShardGroup) (i : Nat) : Nat := (g.members.getD (i % g.w) (0, 0)).1.toNat

/-- The rank of a ring position. -/
def ShardGroup.rank (g : ShardGroup) (i : Nat) : Nat := (g.members.getD (i % g.w) (0, 0)).2

/-- The ring position of a rank. -/
def ShardGroup.posOf (g : ShardGroup) (r : Nat) : Nat := g.members.findIdx fun m => m.2 == r

/-- The collective belongs to a masked group. -/
def Ring.masked (R : Ring) : Bool := match R.ug with
  | some u => u.kind == 2
  | none => false

/-- The collective moves row records. -/
def Ring.rows (R : Ring) : Bool := match R.ug with
  | some u => u.kind == 1
  | none => false

/-- Local slots of shard r, and its chunks. -/
def Ring.slots (R : Ring) (r : Nat) : Nat := (R.d.shard r).slots
def Ring.chunks (R : Ring) (r : Nat) : Nat := cdiv (R.slots r) 2048

/-- The chunk number of chunk j of shard r. DESIGN CHOICE (log entry 40): j × shards + r. -/
def Ring.chunkNo (R : Ring) (r j : Nat) : Nat := j * R.d.shards + r

/-- Slots of a chunk. -/
def Ring.count (R : Ring) (r j : Nat) : Nat := min 2048 (R.slots r - 2048 * j)

/-! ### Elements -/

/-- An element of a tensor by its place in the whole tensor, with its poison. What a compressed tensor
does not store, and what a local part does not hold, is zero. -/
def State.element (s : State) (d : Desc) (g : List Nat) : Num × Bool :=
  match d.toLocal g with
  | none => (.zero, false)
  | some ix =>
    if d.cfmt = .dns then s.rd.value d ix
    else
      let p := d.viewPos ix
      let row := s.rd.row d false p.1
      match row.ents.find? fun e => e.k == p.2 with
      | some e => (e.num d.fmt, e.poison || row.metaBad)
      | none => (.zero, row.metaBad)

/-- The slot in which a TNM tensor stores element (i, j) of its view. -/
def Rd.tnmSlot (r : Rd) (d : Desc) (n m i j : Nat) : Option Nat :=
  let q := maskNo true m (cdiv d.cols m) i (j / m)
  let kept := r.keptBits d n m q
  if kept.contains (j % m) then some (n * q + (kept.filter (· < j % m)).length) else none

/-- The (row, group) of mask q of a TNM tensor (R82). -/
def tnmMaskAt (d : Desc) (m q : Nat) : Nat × Nat :=
  let gs := cdiv d.cols m
  (q / m / gs * m + q % m, q / m % gs)

/-- The element, by its place in the whole tensor, of slot k of a TNM shard whose masks `dst` holds. -/
def State.slotElem (s : State) (dst sh : Desc) (n m k : Nat) : Option (List Nat) :=
  let p := tnmMaskAt sh m (k / n)
  let stored (j : Nat) : Bool :=
    match dst.toLocal (sh.toGlobal (sh.index p.1 j)) with
    | some ix => (s.rd.tnmSlot dst n m (dst.viewPos ix).1 (dst.viewPos ix).2).isSome
    | none => false
  let cols := ((List.range m).map (m * p.2 + ·)).filter fun j =>
    decide (j < sh.cols ∧ p.1 < sh.rows) && stored j
  (cols[k % n]?).map fun j => sh.toGlobal (sh.index p.1 j)

/-- The elements of slots `lo` to `lo + n − 1` of shard r. -/
def State.slotElems (s : State) (R : Ring) (r lo n : Nat) : List (Option (List Nat)) :=
  let sh := R.d.shard r
  let slots := List.range' lo n
  match R.masked, sh.cfmt, s.descOf R.coll.dst with
  | true, .tnm n m, some dst => slots.map (s.slotElem dst sh n m)
  | _, _, _ => slots.map fun k => some (sh.toGlobal (unflat sh.exts k))

/-- The slot at which row i of a compressed tensor begins, by its own metadata. -/
def Rd.slotOfRow (r : Rd) (d : Desc) (i : Nat) : Nat :=
  match d.cfmt with
  | .nm n m => i * cdiv d.cols m * n
  | .csr => r.le (d.abase 0 + 8 * i) 8
  | .bmp => r.le (d.abase 1 + 8 * i) 8
  | .bsr b => r.le (d.abase 0 + 8 * cdiv i b) 8 * (b * b)
  | .coo => ((List.range (min (r.le (d.abase 1) 8) d.nnzCap)).filter fun e =>
      decide (r.le (d.abase 0 + 8 * e) 4 < i)).length
  | _ => 0

/-- The engine of a half met poison: the group is tainted, by what the half's edge die detects (R29, R388). -/
def State.taintRing (s : State) (half : Nat) (R : Ring) (step : Nat) : State :=
  match R.ug with
  | some u => s.taint (60 + half / 2) (polderOfHalf half) none step u.group
  | none => s

/-- Value slots of a compressed tensor are read. -/
def State.readSlots (s : State) (d : Desc) (lo n : Nat) : State :=
  let w := d.fmt.width
  if n = 0 then s else s.readRange (codeByte d.base (lo : Nat) w) (cdiv (n * w) 8)

/-- What a collective engine reads for elements of a tensor is counted where it is read (R264, R273, R476): dense
elements, and of a compressed tensor the value slots of their rows. -/
def State.readElements (s : State) (d : Desc) (gs : List (List Nat)) : State :=
  let ixs := gs.filterMap d.toLocal
  if d.cfmt = .dns then s.readElems (ixs.map fun ix => (d, ix))
  else ((ixs.map fun ix => (d.viewPos ix).1).dedup).foldl (fun s i =>
    s.readSlots d (s.rd.slotOfRow d i) (s.rd.slotOfRow d (i + 1) - s.rd.slotOfRow d i)) s

/-- Values as FP32, canonical NaN for poisoned ones (R388). -/
def clean32 (l : List (Num × Bool)) : List Word := l.map fun x => if x.2 then qnan else toF32 x.1

/-- This member's contribution to a chunk (R333, R388). -/
def State.contribution (s : State) (half : Nat) (R : Ring) (step r j : Nat) : List Word × State :=
  match s.descOf R.coll.src with
  | none => ([], s)
  | some d =>
    let es := s.slotElems R r (2048 * j) (R.count r j)
    let v := es.map fun e => match e with
      | some g => s.element d g
      | none => (.zero, false)
    let s := s.readElements d (es.filterMap id)
    (clean32 v, if v.any Prod.snd then s.taintRing half R step else s)

/-! ### Wire format (R331, R333) -/

/-- A value after wire(): its BF16 rounding, or itself. -/
def wireVal (bf16 : Bool) (w : Word) : Word :=
  if bf16 then BitVec.ofNat 32 ((convPlain .bf16 none (f32 w)).1 * 65536) else toF32 (f32 w)

/-- A list filled up to a multiple of 4 bytes. -/
def pad4 (l : List Byte) : List Byte := l ++ List.replicate ((4 - l.length % 4) % 4) 0

/-- Wired values as bytes. -/
def wireBytes (bf16 : Bool) (l : List Word) : List Byte :=
  pad4 (l.flatMap fun w => if bf16 then leBytes 2 (w.toNat / 65536) else leBytes 4 w.toNat)

/-- n values from bytes, BF16 widened exactly. -/
def unwire (bf16 : Bool) : Nat → List Byte → List Word
  | 0, _ => []
  | n + 1, l =>
    if bf16 then BitVec.ofNat 32 (leNat (l.take 2) * 65536) :: unwire bf16 n (l.drop 2)
    else BitVec.ofNat 32 (leNat (l.take 4)) :: unwire bf16 n (l.drop 4)

/-! ### Sending and counting -/

/-- The half whose collective engine works on an arriving packet, or on a chunk begun here. -/
def halfOfChunk (c : Nat) : Nat := c % 4

/-- A half works on a collective (R347). -/
def State.workColl (s : State) (half idx : Nat) : State :=
  s.setReg (Reg.CLV_COLL_STAT (half / 2) (half % 2)) (BitVec.ofNat 32 (2 ^ 31 + idx % 65536))

/-- A collective has ended: no half works on it any more (R347). -/
def State.restColl (s : State) (idx : Nat) : State :=
  (List.range 4).foldl (fun s h =>
    if (s.reg (Reg.CLV_COLL_STAT (h / 2) (h % 2))).toNat = 2 ^ 31 + idx % 65536 then
      s.setReg (Reg.CLV_COLL_STAT (h / 2) (h % 2)) 0 else s) s

/-- A packet of a collective for the next member. -/
def State.sendColl (s : State) (half op : Nat) (R : Ring) (step chunk : Nat) (payload : List Byte) :
    State :=
  let s := if step = s.ctl.step then { s with ctl := { s.ctl with collSent := true } } else s
  (s.workColl half R.idx).e2eSend (half / 2) (R.sg.node (R.sg.pos + 1)) 1 (chunk % 4) op
    (R.idx + step * 2 ^ 32 + chunk * 2 ^ 64) payload

/-- A chunk summed or forwarded is counted. -/
def State.countChunk (s : State) (half : Nat) : State :=
  (s.inc (Reg.CLV_COLL_CHUNK_CNT (half / 2) (half % 2)) 1).count (60 + half / 2) 0x300 (half % 2) 1

/-- Sums of two lists, their non-finite ones counted (R337). -/
def State.sumVals (s : State) (half : Nat) (a b : List Word) : List Word × State :=
  let v := (a.zip b).map fun p => fadd p.1 p.2
  (v, s.inc (Reg.CLV_COLL_NONFIN_CNT (half / 2) (half % 2)) (v.filter nonfin).length)

/-! ### All-gather (R335) -/

/-- A code of a local tensor, and its poison (R388: sent as NaN). -/
def State.gatherCode (s : State) (d : Desc) (e : Int) : Nat :=
  if s.rd.codeBad d.base e d.fmt.width then d.fmt.nanCode else s.rd.code d.base e d.fmt.width

/-- A scale byte; `0xFF` for a poisoned one. -/
def State.gatherScale (s : State) (d : Desc) (b : Nat) : Nat :=
  if s.rd.bad (d.abase 2 + b) then 0xFF else (s.rd.byte (d.abase 2 + b)).toNat

/-- The blocks of elements of a DNS tensor, in the order of their first element. -/
def Desc.blocksOf (d : Desc) (l : List (List Nat)) : List Nat :=
  if d.scaled then (l.map fun ix => (d.blockOf ix).1).eraseDups else []

/-- The squares that slots of a chunk lie in. -/
def squaresOf (n m lo count : Nat) : List Nat := List.range' (lo / (n * m)) (cdiv count (n * m))

/-- The payload of chunk j of the local shard (R335): codes, then the scale byte of each block. A TNM
chunk: value codes, scale bytes of its blocks of slots, masks of its squares (log entry 41); the other compressed
formats: value codes and scale bytes of blocks of slots (log entry 139). -/
def State.gatherPayload (s : State) (d : Desc) (lo count : Nat) : List Byte :=
  let slots := List.range' lo count
  pad4 (match d.cfmt with
    | .tnm n m =>
      packCodes d.fmt.width (slots.map fun k : Nat => s.gatherCode d (k : Int)) ++
      (if d.scaled then (List.range' (lo / 32) (cdiv count 32)).map fun b =>
        BitVec.ofNat 8 (s.gatherScale d b) else []) ++
      packCodes m ((squaresOf n m lo count).flatMap fun t =>
        (List.range m).map fun u => s.rd.mask d m (t * m + u))
    | .nm _ _ | .bmp | .csr | .coo | .bsr _ | .ohi =>
      packCodes d.fmt.width (slots.map fun k : Nat => s.gatherCode d (k : Int)) ++
      (if d.scaled then (List.range' (lo / 32) (cdiv count 32)).map fun b =>
        BitVec.ofNat 8 (s.gatherScale d b) else [])
    | .dns =>
      let ixs := slots.map (unflat d.exts)
      packCodes d.fmt.width (ixs.map fun ix => s.gatherCode d (d.offset ix)) ++
      (d.blocksOf ixs).map fun b => BitVec.ofNat 8 (s.gatherScale d b))

/-- What the payload of a chunk is read from is counted where it is read. -/
def State.gatherRead (s : State) (d : Desc) (lo count : Nat) : State :=
  if d.cfmt = .dns then s.readElems ((List.range' lo count).map fun k => (d, unflat d.exts k))
  else s.readSlots d lo count

/-- A mask of M bits at its place (R79). -/
def stMask (mem : Memory) (st : Staging) (base m q v : Nat) : Staging :=
  stCode mem st base (q : Int) m v false

/-- A gathered DNS chunk as bytes of `DST`. -/
def State.scatterDns (s : State) (sh dst : Desc) (lo count : Nat) (payload : List Byte) : Staging :=
  let w := dst.fmt.width
  let ixs := ((List.range' lo count).map fun k => dst.toLocal (sh.toGlobal (unflat sh.exts k)))
  let st := ixs.zipIdx.foldl (fun st p => match p.1 with
    | some ix => stElem s.mem st dst (dst.offset ix) (dst.lineEnd ix) (codeAt w payload p.2) false
    | none => st) []
  let at_ := (count * w + 7) / 8
  (dst.blocksOf (ixs.filterMap id)).zipIdx.foldl (fun st b =>
    stBytes st (dst.abase 2 + b.1) false [payload.getD (at_ + b.2) 0]) st

/-- A gathered TNM chunk as bytes of `DST`: each square at its place there. -/
def State.scatterTnm (s : State) (sh dst : Desc) (n m lo count : Nat) (payload : List Byte) : Staging :=
  let w := dst.fmt.width
  let atS := (count * w + 7) / 8
  let atM := atS + (if dst.scaled then cdiv count 32 else 0)
  let gs := cdiv dst.cols m
  (squaresOf n m lo count).zipIdx.foldl (fun st t =>
    let p := tnmMaskAt sh m (t.1 * m)
    match dst.toLocal (sh.toGlobal (sh.index p.1 (m * p.2))) with
    | none => st
    | some ix =>
      let x := dst.viewPos ix
      (List.range m).foldl (fun st u =>
        let q := maskNo true m gs (x.1 + u) (x.2 / m)
        let st := stMask s.mem st (dst.abase 0) m q (codeAt m (payload.drop atM) (t.2 * m + u))
        (List.range n).foldl (fun st j =>
          let k := (t.2 * m + u) * n + j
          if count ≤ k then st
          else
            let st := stCode s.mem st dst.base (n * q + j : Nat) w (codeAt w payload k) false
            if dst.scaled then
              stBytes st (dst.abase 2 + (n * q + j) / 32) false [payload.getD (atS + k / 32) 0]
            else st) st) st) []

/-- The slots, in order, of the elements of a compressed tensor in a region of rows and columns, whole blocks of BSR
and whole groups of NM. -/
def Rd.regionSlots (r : Rd) (d : Desc) (i0 j0 rows cols : Nat) : List Nat :=
  let within (b : Nat) (e : Nat × Nat × Nat) : Bool :=
    decide (i0 ≤ e.1 / b * b ∧ e.1 / b * b < i0 + rows ∧ j0 ≤ e.2.1 / b * b ∧ e.2.1 / b * b < j0 + cols)
  match d.cfmt with
  | .nm n m => (List.range' i0 rows).flatMap fun i =>
      (List.range' (j0 / m) (cdiv cols m)).flatMap fun g => List.range' (n * (i * cdiv d.cols m + g)) n
  | .bsr b => ((r.storedSlots d).filter (within b)).map fun e => e.2.2
  | _ => ((r.storedSlots d).filter (within 1)).map fun e => e.2.2

/-- A gathered chunk of another compressed format as bytes of `DST`: the slots of a shard of rows follow one
another from the slot at which `DST`'s metadata lets those rows begin, up to where they end; those of a shard of
columns are, in order, the slots that `DST`'s metadata gives its rows and columns (DESIGN CHOICE, log entry 139). -/
def State.scatterSlots (s : State) (sh dst : Desc) (lo count : Nat) (payload : List Byte) : Staging :=
  let w := dst.fmt.width
  let atS := (count * w + 7) / 8
  match dst.toLocal (sh.toGlobal (sh.index 0 0)) with
  | none => []
  | some ix =>
    let row := (dst.viewPos ix).1
    if sh.cols ≠ dst.cols then
      let own := s.rd.regionSlots dst row (dst.viewPos ix).2 sh.rows sh.cols
      ((own.drop lo).take count).zipIdx.foldl (fun st q =>
        let st := stCode s.mem st dst.base (q.1 : Nat) w (codeAt w payload q.2) false
        if dst.scaled then stBytes st (dst.abase 2 + q.1 / 32) false [payload.getD (atS + q.2 / 32) 0] else st) []
    else
    let first := s.rd.slotOfRow dst row
    let stop := min (s.rd.slotOfRow dst (row + sh.rows)) dst.slots
    (List.range count).foldl (fun st k =>
      let q := first + lo + k
      if stop ≤ q then st
      else
        let st := stCode s.mem st dst.base (q : Nat) w (codeAt w payload k) false
        if dst.scaled then stBytes st (dst.abase 2 + q / 32) false [payload.getD (atS + k / 32) 0] else st) []

/-- A chunk of shard r written into `DST`. -/
def State.scatter (s : State) (R : Ring) (r j : Nat) (payload : List Byte) : State :=
  match s.descOf R.coll.dst with
  | none => s
  | some dst =>
    let sh := R.d.shard r
    let st := match dst.cfmt with
      | .tnm n m => s.scatterTnm sh dst n m (2048 * j) (R.count r j) payload
      | .dns => s.scatterDns sh dst (2048 * j) (R.count r j) payload
      | _ => s.scatterSlots sh dst (2048 * j) (R.count r j) payload
    (s.commitStage .other [] st).1

/-- The runs of a group's step on its engines have all skipped it (R288). -/
def State.skippedGroup (s : State) (u : UGroup) (step : Nat) : Bool :=
  (enginesOf u.engines).all fun n =>
    match SMap.get (fun _ => none) (s.engine n).groups (2 * u.group + step % 2) with
    | some g => g.step.toNat == step && g.skipped
    | none => false

/-- Every chunk of a collective's all-gather of a step has been written here. -/
def State.gatherDone (s : State) (R : Ring) (step : Nat) : Bool :=
  (match R.ug with
   | some u => s.skippedGroup u step
   | none => false) ||
  (List.range R.d.shards).all fun r =>
    (List.range (R.chunks r)).all fun j => s.ctl.got.contains (step, R.idx, R.chunkNo r j)

/-- A chunk of an all-gather: written, marked, and forwarded unless the next member owns it. -/
def State.gatherChunk (s : State) (half : Nat) (R : Ring) (step r j : Nat) (payload : List Byte)
    (own : Bool) : State :=
  let c := R.chunkNo r j
  let s := s.scatter R r j payload
  let s := if s.ctl.got.contains (step, R.idx, c) then s
    else { s with ctl := { s.ctl with got := (step, R.idx, c) :: s.ctl.got } }
  let s := s.workColl half R.idx
  let s := if s.gatherDone R step then s.restColl R.idx else s
  if (R.sg.pos + 1) % R.sg.w = R.sg.posOf r then s
  else (if own then s else s.countChunk half).sendColl half 0x21 R step c payload

/-- The local source of an all-gather: the group's working copy, or `SRC`; a copy in another format goes
whole when there is nobody to share it with. -/
def State.startGather (s : State) (R : Ring) (step : Nat) : State :=
  let r := R.sg.rank R.sg.pos
  let src := if R.coll.kind = 0 then some R.d else s.descOf R.coll.src
  match src with
  | none => s
  | some d =>
    if r < R.d.shards then
      (List.range (R.chunks r)).foldl (fun s j =>
        let s := s.gatherRead d (2048 * j) (R.count r j)
        s.gatherChunk (halfOfChunk (R.chunkNo r j)) R step r j
          (s.gatherPayload d (2048 * j) (R.count r j)) true) s
    else s

/-! ### Reduce-scatter of dense and masked groups (R333, R334) -/

/-- This member starts the chunks of the shard whose owner stands before it in the ring. -/
def Ring.starts (R : Ring) (r : Nat) : Bool := (R.sg.posOf r + 1) % R.sg.w == R.sg.pos

/-- The place of a chunk in the staging area: shards in order, without the one this member starts. -/
def Ring.stageAt (R : Ring) (r j : Nat) : Nat :=
  let e := if R.sg.bf16 then 2 else 4
  R.coll.stage + e * (2048 * j +
    (((List.range r).filter fun q => !R.starts q).map R.slots).sum)

/-- The reduced chunk reaches its owner: the update engine of its slots, or an all-reduce's result,
which goes to the staging area and from there to `DST` and around the ring (R335); a ring of one member has no
staging area (R332). -/
def State.deliver (s : State) (half : Nat) (R : Ring) (step r j : Nat) (vals : List Word) : State :=
  match R.ug with
  | some u =>
    let e := u.owner (2048 * j)
    let k := s.engine e
    s.setEngine e { k with inQ := k.inQ ++
      [⟨u.group, BitVec.ofNat 32 step, 2048 * j - (u.range e).1, vals, false⟩] }
  | none =>
    let l := wireBytes R.sg.bf16 vals
    let s := if R.sg.w ≤ 1 then s
      else s.put .other (R.stageAt r j) (l.take ((if R.sg.bf16 then 2 else 4) * vals.length)) false
    s.gatherChunk half R step r j l true

/-- A summed chunk goes on: to its owner's engine here, or wired to the next member. -/
def State.reduceOn (s : State) (half : Nat) (R : Ring) (step r j : Nat) (vals : List Word) : State :=
  let v := vals.map (wireVal R.sg.bf16)
  if R.sg.pos = R.sg.posOf r then s.deliver half R step r j v
  else s.sendColl half 0x20 R step (R.chunkNo r j) (wireBytes R.sg.bf16 v)

/-- The own contribution of a step may be read: its schedule is done. -/
def State.scheduleDone (s : State) : Bool :=
  s.ctl.toIssue.isEmpty && s.ctl.issued.isEmpty && s.ctl.replayWait.isEmpty && !s.ctl.stepReplay &&
    !s.ctl.abandoned

/-- The contribution to a step is ready, and what comes of it may leave the module: the step before it has
committed (R34). -/
def State.contribReady (s : State) (step : Nat) : Bool :=
  decide (step ≤ s.committed + 1) &&
    (decide (step < s.ctl.step) || (decide (step = s.ctl.step ∧ step ≤ s.ctl.begun) && s.scheduleDone))

/-- A half's engine can reach its own contribution now (R18, R27, R262). -/
def State.srcReady (s : State) (half : Nat) (R : Ring) : Bool :=
  match s.descOf R.coll.src with
  | some d => d.reach.all fun r => s.memPath (6 + half / 2) r.1 r.2
  | none => true

/-- The collective engine that adds a partial: the one of the port it came by; for the last addition, the
one beside the update engine that receives the chunk (R333). -/
def Ring.hopHalf (R : Ring) (half r j : Nat) : Nat :=
  match R.ug with
  | some u => if R.sg.pos = R.sg.posOf r then u.owner (2048 * j) else half
  | none => half

/-- A partial sum meets the own contribution. -/
def State.hopAdd (s : State) (half : Nat) (R : Ring) (step r j : Nat) (arr : List Word) : State :=
  let half := R.hopHalf half r j
  let c := s.contribution half R step r j
  let v := c.2.sumVals half arr c.1
  (v.2.countChunk half).reduceOn half R step r j v.1

/-! ### Row records (R296, R337) -/

/-- A row record on the wire: local row, then D values (log entry 42). -/
def rowBytes (bf16 : Bool) (x : Nat × List Word) : List Byte := leBytes 4 x.1 ++ wireBytes bf16 x.2

/-- Bytes of a row record on the wire. -/
def rowSize (bf16 : Bool) (d : Nat) : Nat := 4 + cdiv (d * (if bf16 then 2 else 4)) 4 * 4

/-- Row records from a stream. -/
def parseRows (bf16 : Bool) (d : Nat) : Nat → List Byte → List (Nat × List Word)
  | 0, _ => []
  | n + 1, l =>
    let size := rowSize bf16 d
    if l.length < size then []
    else (leNat (l.take 4), unwire bf16 d (l.drop 4)) :: parseRows bf16 d n (l.drop size)

/-- This member's rows of shard r: those that `SRC` stores an element of. -/
def State.ownRows (s : State) (half : Nat) (R : Ring) (step r : Nat) : List (Nat × List Word) × State :=
  match s.descOf R.coll.src, R.ug with
  | some d, some u =>
    let sh := R.d.shard r
    let rows := (List.range sh.rows).filterMap fun i =>
      match d.toLocal (sh.toGlobal (sh.index i 0)) with
      | some ix =>
        let row := s.rd.row d false (d.viewPos ix).1
        if row.ents.isEmpty && !row.metaBad then none
        else some (i, (List.range u.rowD).map fun j => s.element d (sh.toGlobal (sh.index i j)))
      | none => none
    let s := s.readElements d (rows.flatMap fun x => (List.range u.rowD).map fun j => sh.toGlobal (sh.index x.1 j))
    (rows.map fun x => (x.1, clean32 x.2),
     if rows.any fun x => x.2.any Prod.snd then s.taintRing half R step else s)
  | _, _ => ([], s)

/-- Rows merged in ascending order, values of equal rows added; the rows with non-finite sums, each with their
number. The first argument bounds the steps. -/
def mergeRows : Nat → List (Nat × List Word) → List (Nat × List Word) →
    List (Nat × List Word) × List (Nat × Nat)
  | 0, a, b => (a ++ b, [])
  | _ + 1, a, [] => (a, [])
  | _ + 1, [], b => (b, [])
  | n + 1, x :: a, y :: b =>
    if x.1 < y.1 then
      let t := mergeRows n a (y :: b)
      (x :: t.1, t.2)
    else if y.1 < x.1 then
      let t := mergeRows n (x :: a) b
      (y :: t.1, t.2)
    else
      let v := (x.2.zip y.2).map fun p => fadd p.1 p.2
      let t := mergeRows n a b
      ((x.1, v) :: t.1, (x.1, (v.filter nonfin).length) :: t.2)

/-- A stream cut into pieces of 8,192 bytes; the last one is shorter. -/
def pieces : Nat → List Byte → List (List Byte)
  | 0, l => [l]
  | n + 1, l => if l.length < 8192 then [l] else l.take 8192 :: pieces n (l.drop 8192)

/-- The rows of shard r go on: to the engines with the mark of the last record, or to the next member. -/
def State.rowsOn (s : State) (half : Nat) (R : Ring) (step r : Nat) (rows : List (Nat × List Word)) :
    State :=
  let v := rows.map fun x => (x.1, x.2.map (wireVal R.sg.bf16))
  match R.ug with
  | none => s
  | some u =>
    if R.sg.pos = R.sg.posOf r then
      let give (s : State) (e : Nat) (c : Chunk) := s.setEngine e
        { s.engine e with inQ := (s.engine e).inQ ++ [c] }
      let s := v.foldl (fun s x => give s (u.owner x.1)
        ⟨u.group, BitVec.ofNat 32 step, x.1, x.2, false⟩) s
      (enginesOf u.engines).foldl (fun s e => give s e ⟨u.group, BitVec.ofNat 32 step, 0, [], true⟩) s
    else
      let l := v.flatMap (rowBytes R.sg.bf16)
      (pieces (l.length / 8192) l).zipIdx.foldl (fun s p =>
        s.sendColl half 0x20 R step (p.2 * (4 * R.d.shards) + r) p.1) s

/-- Arrived rows meet the own ones. Sums that are not finite are counted by the engine that makes them: for the
last addition the one beside the update engine that receives the row (R333, R337). -/
def State.hopRows (s : State) (half : Nat) (R : Ring) (step r : Nat) (arr : List (Nat × List Word)) : State :=
  match R.ug with
  | none => s
  | some u =>
    let own := s.ownRows half R step r
    let m := mergeRows (arr.length + own.1.length) arr own.1
    let last := decide (R.sg.pos = R.sg.posOf r)
    let t := m.2.foldl (fun s x =>
      let h := if last then u.owner x.1 else half
      s.inc (Reg.CLV_COLL_NONFIN_CNT (h / 2) (h % 2)) x.2) own.2
    (t.countChunk (R.hopHalf half r 0)).rowsOn half R step r m.1

/-- The place in the staging area of the values of row i of shard r. -/
def Ring.rowAt (R : Ring) (d r i : Nat) : Nat := R.stageAt r 0 + (if R.sg.bf16 then 2 else 4) * (d * i)

/-- The values of row records are written to the staging area, each at its row's place (R334). -/
def State.stageRows (s : State) (R : Ring) (d r : Nat) (recs : List (Nat × List Word)) : State :=
  recs.foldl (fun s x => s.put .other (R.rowAt d r x.1)
    ((wireBytes R.sg.bf16 x.2).take ((if R.sg.bf16 then 2 else 4) * d)) false) s

/-- Staged row records: the rows with their values, and whether one is poisoned (R388). -/
def State.unstageRows (s : State) (R : Ring) (d r : Nat) (rows : List Nat) : List (Nat × List Word) × Bool :=
  let w := if R.sg.bf16 then 2 else 4
  let vals (i : Nat) : List (Word × Bool) :=
    (unwire R.sg.bf16 d (Memory.bytes s.mem (R.rowAt d r i) (w * d))).zipIdx.map fun v =>
      let bad := s.rd.anyBad (R.rowAt d r i + w * v.2) w
      (if bad then qnan else v.1, bad)
  let l := rows.map fun i => (i, vals i)
  (l.map fun x => (x.1, x.2.map Prod.fst), l.any fun x => x.2.any Prod.snd)

/-- An engine whose sub-shard is empty has no chunk to wait for: it is told that the last one is in. -/
def State.tellEmpty (s : State) (R : Ring) (step : Nat) : State :=
  match R.ug with
  | some u =>
    if R.rows then s
    else (enginesOf u.engines).foldl (fun s e =>
      if (u.range e).1 = (u.range e).2 then
        s.setEngine e { s.engine e with inQ := (s.engine e).inQ ++
          [⟨u.group, BitVec.ofNat 32 step, 0, [], true⟩] }
      else s) s
  | none => s

/-- The reduce-scatter of a collective starts here. -/
def State.startReduce (s : State) (R : Ring) (step : Nat) : State :=
  let s := s.tellEmpty R step
  ((List.range R.d.shards).filter R.starts).foldl (fun s r =>
    if R.rows then
      let own := s.ownRows (halfOfChunk r) R step r
      own.2.rowsOn (halfOfChunk r) R step r own.1
    else
      (List.range (R.chunks r)).foldl (fun s j =>
        let c := s.contribution (halfOfChunk (R.chunkNo r j)) R step r j
        c.2.reduceOn (halfOfChunk (R.chunkNo r j)) R step r j c.1) s) s

/-- The collectives of a step start when its schedule is done (log entry 43). -/
def State.startColls (s : State) (step : Nat) : State :=
  match s.prog with
  | none => s
  | some p =>
    (List.range p.colls.length).foldl (fun s i =>
      match s.ring i with
      | some R => if R.coll.kind = 2 then s.startGather R step else s.startReduce R step
      | none => s) s

/-! ### Arriving partials (R334) -/

/-- A partial is written to the staging area. -/
def State.stagePartial (s : State) (half : Nat) (R : Ring) (step r j : Nat) (payload : List Byte) :
    State :=
  let a := R.stageAt r j
  let s := s.put .other a payload false
  let x : Staged := ⟨R.idx, step, R.chunkNo r j, half, a, R.count r j, [], [], true⟩
  let s := { s with staged := s.staged ++ [x] }
  (s.inc (Reg.CLV_COLL_STAGED_CNT (half / 2) (half % 2)) 1).count (60 + half / 2) 0x301 (half % 2) 1

/-- A partial of a dense or masked collective. -/
def State.takePartial (s : State) (half : Nat) (R : Ring) (step chunk : Nat) (payload : List Byte) :
    State :=
  let r := chunk % R.d.shards
  let j := chunk / R.d.shards
  if s.contribReady step && s.srcReady half R then
    s.hopAdd half R step r j (unwire R.sg.bf16 (R.count r j) payload)
  else s.stagePartial half R step r j payload

/-- Row records that wait in the staging area meet the own ones. -/
def State.addRows (s : State) (half : Nat) (R : Ring) (step r : Nat) (rows : List Nat) : State :=
  match R.ug with
  | none => s
  | some u =>
    let v := s.unstageRows R u.rowD r rows
    let s := rows.foldl (fun s i => s.readRange (R.rowAt u.rowD r i) ((if R.sg.bf16 then 2 else 4) * u.rowD)) s
    (if v.2 then s.taintRing half R step else s).hopRows half R step r v.1

/-- A piece of row records (R334, R337): while the own contribution is ready the engine takes the stream as it
comes, and has added it once its last piece is here; else its records go to the staging area as they arrive, which
is counted once, and are added when the stream is whole and the contribution ready. -/
def State.takeRows (s : State) (half : Nat) (R : Ring) (step chunk : Nat) (payload : List Byte) :
    State :=
  let r := chunk % (4 * R.d.shards)
  let mine (x : Staged) : Bool := x.coll == R.idx && x.step == step && x.chunk == r && !x.whole
  let d := match R.ug with
    | some u => u.rowD
    | none => 0
  let old := s.staged.find? mine
  let stream := (match old with
    | some x => x.stream
    | none => []) ++ payload
  let whole := decide (payload.length < 8192)
  let recs := parseRows R.sg.bf16 d stream.length stream
  let before := match old with
    | some x => x.rows
    | none => []
  let s := { s with staged := s.staged.filter fun x => !mine x }
  let wait (s : State) (rows : List Nat) (left : List Byte) : State :=
    { s with staged := s.staged ++ [⟨R.idx, step, r, half, R.stageAt r 0, 0, rows, left, whole⟩] }
  if before.isEmpty && s.contribReady step && s.srcReady half R then
    (if whole then s.hopRows half R step r recs else wait s [] stream)
  else
    let rows := before ++ recs.map Prod.fst
    let s := s.stageRows R d r recs
    let s := if before.isEmpty && (whole || !recs.isEmpty) then
        (s.inc (Reg.CLV_COLL_STAGED_CNT (half / 2) (half % 2)) 1).count (60 + half / 2) 0x301 (half % 2) 1
      else s
    if whole && s.contribReady step && s.srcReady half R then s.addRows half R step r rows
    else wait s rows (stream.drop (recs.length * rowSize R.sg.bf16 d))

/-- A chunk number names a chunk of the collective that this member does not start. -/
def Ring.chunkOk (R : Ring) (chunk : Nat) (reduce : Bool) : Bool :=
  let r := chunk % R.d.shards
  decide (0 < R.d.shards) &&
  (if R.rows && reduce then decide (chunk % (4 * R.d.shards) < R.d.shards) && !R.starts r
   else decide (chunk / R.d.shards < R.chunks r) &&
    (if reduce then !R.starts r else R.sg.posOf r != R.sg.pos))

/-- A collective packet of a step that is more than one ahead, or completed (R340). -/
def State.outOfStep (s : State) (step : Nat) (done : Bool) : Bool :=
  decide (s.ctl.begun + 1 < step) || done || decide (step ≤ s.committed)

/-! ### Norm all-reduce (R287, R336) -/

/-- Pairs added in two steps (R287). -/
def pairSum (a b : Word × Word) : Word × Word := (pairAdd (pairAdd a b.1).1 b.2).1

/-- Two contributions combined. -/
def Norm.combine (a b : Norm) : Norm :=
  { sqg := pairSum a.sqg b.sqg, squ := pairSum a.squ b.squ, sqw := pairSum a.sqw b.sqw,
    tMin := if a.tMin.toNat ≤ b.tMin.toNat then a.tMin else b.tMin,
    tMax := if a.tMax.toNat ≤ b.tMax.toNat then b.tMax else a.tMax,
    nonfin := a.nonfin || b.nonfin, ready := a.ready && b.ready }

/-- The 32 bytes of a contribution. -/
def Norm.bytes (a : Norm) : List Byte :=
  let p (x : Word × Word) := leBytes 4 x.1.toNat ++ leBytes 4 x.2.toNat
  p a.sqg ++ p a.squ ++ p a.sqw ++ leBytes 2 a.tMin.toNat ++ leBytes 2 a.tMax.toNat ++
    leBytes 4 (a.nonfin.toNat + 2 * a.ready.toNat)

/-- A contribution from its bytes. -/
def Norm.ofBytes (l : List Byte) : Norm :=
  let w (i : Nat) : Word := BitVec.ofNat 32 (leNat ((l.drop i).take 4))
  { sqg := (w 0, w 4), squ := (w 8, w 12), sqw := (w 16, w 20),
    tMin := BitVec.ofNat 16 (leNat ((l.drop 24).take 2)),
    tMax := BitVec.ofNat 16 (leNat ((l.drop 26).take 2)),
    nonfin := bit (leNat (l.drop 28)) 0, ready := bit (leNat (l.drop 28)) 1 }

/-- A norm result reaches the engines of the group. -/
def State.normOut (s : State) (u : UGroup) (step : Nat) (a : Norm) : State :=
  (enginesOf u.engines).foldl (fun s e =>
    s.setEngine e { s.engine e with normQ := (s.engine e).normQ ++ [(step, u.group, a)] }) s

/-- A `CSCALAR` packet for the next member: leg 0 reduce, 1 broadcast. -/
def State.sendNorm (s : State) (u : UGroup) (g : ShardGroup) (step leg : Nat) (a : Norm) : State :=
  let s := if step = s.ctl.step then { s with ctl := { s.ctl with collSent := true } } else s
  s.e2eSend (at0 (enginesOf u.engines) 0 / 2) (g.node (g.pos + 1)) 1 (u.group % 4) 0x22
    (u.group + step * 2 ^ 32 + leg * 2 ^ 64) a.bytes

/-- The module's norm of a group goes on once its engines have been heard, and the arriving value has come
where one is due. -/
def State.normGo (s : State) (u : UGroup) (g : ShardGroup) (step : Nat) : State :=
  match s.norms.find? fun x => x.group == u.group && x.step == step with
  | none => s
  | some x =>
    let es := enginesOf u.engines
    let vals := es.filterMap fun e => (x.heard.find? fun h => h.1 == e).map Prod.snd
    if x.sent || vals.length < es.length || (g.pos != 0 && x.arrived.isNone) then s
    else match vals with
      | [] => s
      | v :: vs =>
        let own := vs.foldl Norm.combine v
        let total := match x.arrived with
          | some a => if g.pos = 0 then own else a.combine own
          | none => own
        let s := { s with norms := (s.norms.erase x) ++ [{ x with sent := true }] }
        if g.pos + 1 = g.w then
          let s := s.normOut u step total
          if g.w = 1 then s else s.sendNorm u g step 1 total
        else s.sendNorm u g step 0 total

/-- A change of the norm all-reduce of a group and step. -/
def State.setNorm (s : State) (u : UGroup) (step : Nat) (f : NormRun → NormRun) : State :=
  let mine (x : NormRun) : Bool := x.group == u.group && x.step == step
  let old : NormRun := (s.norms.find? mine).getD ⟨u.group, step, [], none, false⟩
  let rest := s.norms.filter fun x => !mine x
  { s with norms := rest ++ [f old] }

/-- The shard group of an update group. -/
def State.sgroupOf (s : State) (u : UGroup) : Option ShardGroup :=
  match s.prog with
  | some p => p.shardGroups.find? fun g => g.group == u.sgroup
  | none => none

/-- An engine's contribution. -/
def State.normHear (s : State) (u : UGroup) (e step : Nat) (a : Norm) : State :=
  match s.sgroupOf u with
  | some g => (s.setNorm u step fun x => { x with heard := x.heard ++ [(e, a)] }).normGo u g step
  | none => s

/-! ### Commands: a half whose engines do not run holds what comes for them (R459) -/

/-- The collective half of a port (R20). -/
def halfOfRx (p : Nat) : Nat := p / 4

/-- CRS (R333, R334, R340). -/
def execCrs (p : Port) (s : State) : Out :=
  if s.engineRuns (halfOfRx p) = false then .next s else
  match s.takeRx p 0x20 with
  | none => .next s
  | some (q, s) =>
    let a := s.e2eAccept p q
    let s := a.2
    if !a.1 then .next s
    else
      let step := q.ops 7 4
      let chunk := q.ops 11 8
      match s.ring (q.ops 1 0) with
      | none => .next (s.refusePkt p 8 q false)
      | some R =>
        if R.coll.kind = 2 || s.outOfStep step (s.gatherDone R step) || !R.chunkOk chunk true then
          .next (s.refusePkt p 8 q false)
        else if R.rows then .next (s.takeRows (halfOfRx p) R step chunk q.payload)
        else .next (s.takePartial (halfOfRx p) R step chunk q.payload)

/-- STAGED_PARTIAL_ADD (R334, R388): the oldest staged partial of the half whose contribution is ready. -/
def execStagedPartialAdd (e : Half) (s : State) : Out :=
  if s.engineRuns e = false then .next s else
  match s.staged.find? fun x => x.half == e.val && x.whole && s.contribReady x.step &&
      s.memPath (6 + e.val / 2) x.addr 1 with
  | none => .next s
  | some x =>
    let s := { s with staged := s.staged.erase x }
    match s.ring x.coll with
    | none => .next s
    | some R =>
      let r := x.chunk % R.d.shards
      if R.rows then .next (s.addRows e R x.step r x.rows)
      else
        let w := if R.sg.bf16 then 2 else 4
        let vals := unwire R.sg.bf16 x.count (Memory.bytes s.mem x.addr (w * x.count))
        let bad := (List.range x.count).map fun i => s.rd.anyBad (x.addr + w * i) w
        let s := s.readRange x.addr (w * x.count)
        let s := if bad.any id then s.taintRing e R x.step else s
        .next (s.hopAdd e R x.step r (x.chunk / R.d.shards)
          ((vals.zip bad).map fun v => if v.2 then qnan else v.1))

/-- CAG (R335, R340, R405): a chunk of the committed step is taken again, and the first one of a collective makes this
member send its own shard again (DEDUCED, log entry 157). -/
def execCag (p : Port) (s : State) : Out :=
  if s.engineRuns (halfOfRx p) = false then .next s else
  match s.takeRx p 0x21 with
  | none => .next s
  | some (q, s) =>
    let a := s.e2eAccept p q
    let s := a.2
    if !a.1 then .next s
    else
      let step := q.ops 7 4
      let chunk := q.ops 11 8
      match s.ring (q.ops 1 0) with
      | none => .next (s.refusePkt p 8 q false)
      | some R =>
        let done := s.gatherDone R step
        let again := decide (R.coll.kind = 0 ∧ step = s.committed)
        if (!again && s.outOfStep step done) || !R.chunkOk chunk false then
          .next (s.refusePkt p 8 q false)
        else
          let s := s.gatherChunk (halfOfRx p) R step (chunk % R.d.shards) (chunk / R.d.shards) q.payload
            false
          .next (if again && !s.ctl.resent.contains R.idx then
              ({ s with ctl := { s.ctl with resent := R.idx :: s.ctl.resent } }).startGather R step
            else s)

/-- CSCALAR (R336, R340): a reduce-leg value waits for the module's own; a result reaches the engines and
goes on to position W − 2. -/
def execCscalar (p : Port) (s : State) : Out :=
  if s.engineRuns (halfOfRx p) = false then .next s else
  match s.takeRx p 0x22 with
  | none => .next s
  | some (q, s) =>
    let a := s.e2eAccept p q
    let s := a.2
    if !a.1 then .next s
    else
      let step := q.ops 7 4
      match s.ugroup (q.ops 1 0) with
      | none => .next (s.refusePkt p 8 q false)
      | some u =>
        match s.sgroupOf u with
        | none => .next (s.refusePkt p 8 q false)
        | some g =>
          let v := Norm.ofBytes q.payload
          if s.outOfStep step false then .next (s.refusePkt p 8 q false)
          else if q.ops 8 8 = 0 then
            .next ((s.setNorm u step fun x => { x with arrived := some v }).normGo u g step)
          else
            let s := s.normOut u step v
            .next (if g.pos + 2 = g.w then s else s.sendNorm u g step 1 v)

end Sys2Proof.Machine
end

