-- ==== Sys2Proof/Machine/Memory.lean ====
section
/-! DEFINITION. Near memory and the shared caches (R250 to R255), far-memory training and upkeep (R259
to R262), arbitration (R266 to R268). -/

namespace Sys2Proof.Machine

open Sys2Proof

/-! ### Near memory -/

/-- The SRAM die of a die-local offset: banks 0 to 127 lie on the first (DEDUCED, log entry 28). -/
def sramOf (off : Nat) : Nat := off / 64 % 256 / 128

/-- Times of uncorrectable lines within the last second. -/
def recentUe (now : Nat) (l : List Nat) : List Nat := l.filter fun t => decide (now < t + 1000000)

/-- An uncorrectable line is noted against its SRAM die; more than 64 in 1 s lose the polder (R401). -/
def State.noteUe (s : State) (d off : Nat) : State :=
  let t := s.die d
  let l0 := if sramOf off = 0 then s.now :: recentUe s.now t.ueTimes0 else recentUe s.now t.ueTimes0
  let l1 := if sramOf off = 1 then s.now :: recentUe s.now t.ueTimes1 else recentUe s.now t.ueTimes1
  let s := s.setDie d { t with ueTimes0 := l0, ueTimes1 := l1 }
  if 64 < l0.length ∨ 64 < l1.length then s.polderLoss (54 + d) d d none else s

/-- The place in the shared cache, as entry 16 × set + way, whose data lie at a die-local offset: the cache
fills the top of the die's 2 GiB (R245), set by set (DESIGN CHOICE, log entry 137). -/
def State.cacheSlot (s : State) (d off : Nat) : Option Nat :=
  let base := 0x80000000 - cacheBytes (s.regF (Reg.NMEM_CFG d) 3 0)
  if base ≤ off then some ((off - base) / 256) else none

/-- The poison of a near-memory line: its own mark, or its cache line's. -/
def State.linePoison (s : State) (d off : Nat) : Bool :=
  match s.cacheSlot d off with
  | some k => (SMap.get (fun _ => none) (s.die d).cache k).any CacheLine.poison
  | none => s.poison.contains (nearBase d + off / 64 * 64)

/-- The poison bit of a near-memory line is set (R252); in the shared cache it is its cache line's. -/
def State.poisonLine (s : State) (d off : Nat) : State :=
  match s.cacheSlot d off with
  | some k =>
    let t := s.die d
    let l := (SMap.get (fun _ => none) t.cache k).map fun l => { l with poison := true }
    s.setDie d { t with cache := SMap.set (fun _ => none) t.cache k l }
  | none => { s with poison := insertSorted s.poison (nearBase d + off / 64 * 64) }

/-- A near-memory line is read with what its check bits say (R252): a single-bit error is corrected, a
double-bit error sets the line's poison; a poisoned line is delivered with poison. -/
def State.readLine (s : State) (d off : Nat) (err : EccErr) : State :=
  let s := if err = .single then (s.inc (Reg.NMEM_CE_CNT d) 1).count (54 + d) 0x1C2 0 1 else s
  let s := if err = .double then s.poisonLine d off else s
  if err = .double then (s.inc (Reg.NMEM_UE_CNT d) 1).noteUe d off
  else if s.linePoison d off then s.inc (Reg.NMEM_UE_CNT d) 1
  else s

/-- Near memory serves a request: a 64-byte line of the die. -/
def State.serveNear (s : State) (d : Nat) (q : NearReq) : State :=
  let a := nearBase d + q.off / 64 * 64
  match q.wr with
  | some bytes => s.put (.die d) a (bytes.take 64) false
  | none => (s.countAccess false a 64).readLine d q.off q.err

/-- A die whose NoC runs serves the requests that were held, in arrival order (R459). -/
def State.serveDie (s : State) (d : Nat) : State :=
  let l := (s.die d).held
  if l.isEmpty || !s.nocRuns d then s
  else l.foldl (fun s q => s.serveNear d q) (s.setDie d { s.die d with held := [] })

/-- NMEM_ACCESS (R250 to R252): it follows the requests held before; a die whose NoC is in reset or stopped holds it
(R27, R459). -/
def execNmemAccess (d : Die) (_req : Fin 16) (off : BitVec 31) (wr : Option (List Byte)) (err : EccErr)
    (s : State) : Out :=
  let q : NearReq := ⟨off.toNat, wr, err⟩
  if s.nocRuns d then .next ((s.serveDie d).serveNear d q)
  else .next (s.setDie d { s.die d with held := (s.die d).held ++ [q] })

/-- NMEM_PATROL_SCRUB (R252, R458): it goes on while the die's NoC runs. -/
def execNmemPatrolScrub (d : Die) (off : BitVec 31) (err : EccErr) (s : State) : Out :=
  .next (if s.nocRuns d then s.readLine d off.toNat err else s)

/-! ### Shared cache -/

/-- Sets of a die's cache (R253); 0 without one. -/
def State.cacheSets (s : State) (d : Nat) : Nat := cacheBytes (s.regF (Reg.NMEM_CFG d) 3 0) / 4096

/-- The address lies in a live `CACHE` = 1 allocation (R253). -/
def State.cached (s : State) (a : Nat) : Bool :=
  match s.allocAt a with
  | some (_, x) => x.cache
  | none => false

/-- The way that holds a line. -/
def State.cacheWay (s : State) (d line : Nat) : Option Nat :=
  let set := line % s.cacheSets d
  (List.range 16).find? fun w =>
    match SMap.get (fun _ => none) (s.die d).cache (16 * set + w) with
    | some l => l.line == line
    | none => false

/-- The pseudo-LRU bits of a set. -/
def State.plruBits (s : State) (d set : Nat) : BitVec 15 := SMap.get (fun _ => 0) (s.die d).plru set

/-- The way that a tree of pseudo-LRU bits points to, among allowed ways: node i (1 to 15) has its bit
at i − 1, clear for the lower half; a half without an allowed way is passed over. -/
def plruVictim (bits : Nat) (mask : Nat) : Nat → Nat → Nat → Nat
  | 0, _, lo => lo
  | n + 1, node, lo =>
    let half := 2 ^ n
    let left := fld mask (lo + half - 1) lo ≠ 0
    let right := fld mask (lo + 2 * half - 1) (lo + half) ≠ 0
    if (bit bits (node - 1) ∧ right) ∨ ¬left then plruVictim bits mask n (2 * node + 1) (lo + half)
    else plruVictim bits mask n (2 * node) lo

/-- The bits after an access to a way: every node on its path points away from it. -/
def plruTouch (bits : Nat) (way : Nat) : Nat → Nat → Nat
  | 0, _ => bits
  | n + 1, node =>
    let r := way / 2 ^ n % 2
    setFld (plruTouch bits way n (2 * node + r)) (node - 1) (node - 1) (1 - r)

/-- An access to a way is noted in its set. -/
def State.touchWay (s : State) (d set way : Nat) : State :=
  let t := s.die d
  let v := BitVec.ofNat 15 (plruTouch (s.plruBits d set).toNat way 4 1)
  s.setDie d { t with plru := SMap.set (fun _ => 0) t.plru set v }

/-- A way of a set is replaced. -/
def State.setWay (s : State) (d set way : Nat) (l : Option CacheLine) : State :=
  let t := s.die d
  s.setDie d { t with cache := SMap.set (fun _ => none) t.cache (16 * set + way) l }

/-- The way that a fill takes: an empty allowed way first (DESIGN CHOICE, log entry 27), else the tree's. -/
def State.fillWay (s : State) (d set mask : Nat) : Nat :=
  match (List.range 16).find? fun w => bit mask w &&
      (SMap.get (fun _ => none) (s.die d).cache (16 * set + w)).isNone with
  | some w => w
  | none => plruVictim (s.plruBits d set).toNat mask 4 1 0

/-- A line comes from far memory (R254, R255): poisoned data are delivered and not installed, nor does a
requester without a way fill. -/
def State.fillLine (s : State) (d req line : Nat) : State :=
  let set := line % s.cacheSets d
  let mask := s.regF (Reg.NMEM_CACHE_WAYMASK d req) 15 0
  let s := (s.readRange (256 * line) 256).count (54 + d) 0x201 req 1
  if mask = 0 ∨ (unitsOf (256 * line) 256).any s.poison.contains then s
  else
    let w := s.fillWay d set mask
    let s := s.setWay d set w (some ⟨line, Memory.bytes s.mem (256 * line) 256, false⟩)
    (s.touchWay d set w).count (54 + d) 0x202 req 1

/-- CACHE_FILL (R253 to R255): a read of a cached far-memory line by a requester of the die. A line that
is present is a hit; a poisoned one is invalidated, counted and read again from far memory. The request is
held while the die's NoC does not run, a miss also while the line's channels do not serve or the way to them is not
ready (R27, R262, R459). -/
def execCacheFill (d : Die) (req : Fin 10) (addr : Addr) (s : State) : Out :=
  let a := addr.toNat
  let line := a / 256
  let sets := s.cacheSets d
  let set := line % sets
  let ready := s.memPath d (256 * line) 256
  if populated a = false then .fault (.unpopulated a)
  else if farSize ≤ a ∨ sets = 0 ∨ s.cached a = false ∨ s.nocRuns d = false then .next s
  else match s.cacheWay d line with
    | some w =>
      match SMap.get (fun _ => none) (s.die d).cache (16 * set + w) with
      | some l =>
        if l.poison && !ready then .next s
        else if l.poison then .next (((s.setWay d set w none).inc (Reg.NMEM_UE_CNT d) 1).fillLine d req line)
        else .next ((s.touchWay d set w).count (54 + d) 0x200 req 1)
      | none => .next s
    | none => .next (if ready then s.fillLine d req line else s)

/-- CACHE_INVALIDATE (R255): the line is updated when the die itself wrote, and removed otherwise. -/
def execCacheInvalidate (d : Die) (addr : Addr) (own : Bool) (s : State) : Out :=
  let a := addr.toNat
  let line := a / 256
  let set := line % s.cacheSets d
  if populated a = false then .fault (.unpopulated a)
  else match s.cacheWay d line with
    | none => .next s
    | some w =>
      if own then .next (s.setWay d set w (some ⟨line, Memory.bytes s.mem (256 * line) 256, false⟩))
      else .next (((s.setWay d set w none).inc (Reg.NMEM_INVAL_CNT d) 1).count (54 + d) 0x203 0 1)

/-! ### Arbitration (R266 to R268) -/

/-- Requesters of a point: 144 bank ports, then 192 channel queues. -/
def arbSize (p : Nat) : Nat := if p < 144 then 16 else 22

/-- A requester of a point. -/
def Arb.req (a : Arb) (i : Nat) : ArbReq := SMap.get (fun _ => ArbReq.reset) a.reqs i

/-- A requester of a point is replaced. -/
def Arb.setReq (a : Arb) (i : Nat) (r : ArbReq) : Arb :=
  { a with reqs := SMap.set (fun _ => ArbReq.reset) a.reqs i r }

/-- The first of some requesters in rotating order after the one last granted. -/
def rotate (n last : Nat) (l : List Nat) : Option Nat :=
  ((List.range n).map fun k => (last + 1 + k) % n).find? l.contains

/-- An uncapped loser backs off: 2 on its first consecutive loss, doubling up to 256 (R267). -/
def ArbReq.lose (r : ArbReq) : ArbReq :=
  if r.capped then r
  else { r with losses := r.losses + 1, count := min 256 (2 ^ min (r.losses + 1) 8) }

/-- Who presents: requesters that want the point and whose back-off count is 0. -/
def Arb.presenting (a : Arb) (n : Nat) (want : BitVec 22) : List Nat :=
  (List.range n).filter fun i => want.getLsbD i && decide ((a.req i).count = 0)

/-- The grant of a cycle, with whether it goes to a capped requester (R267). -/
def Arb.winner (a : Arb) (n : Nat) (want : BitVec 22) : Option (Nat × Bool) :=
  let pr := a.presenting n want
  match rotate n a.lastCapped (pr.filter fun i => (a.req i).capped) with
  | some i => some (i, true)
  | none => (rotate n a.last pr).map fun i => (i, false)

/-- The point after a cycle in which it grants `w`. -/
def Arb.grant (a : Arb) (n : Nat) (want : BitVec 22) (w : Nat) (capped : Bool) : Arb :=
  let losers := (a.presenting n want).filter (· != w)
  let a := losers.foldl (fun a i => a.setReq i (a.req i).lose) a
  { a.setReq w ArbReq.reset with last := w, lastCapped := if capped then w else a.lastCapped }

/-- Losses and capped grants are counted by the island of the point (R273, R275, R476). -/
def State.countArb (s : State) (p : Nat) (losers : List Nat) (w : Nat) (capped : Bool) : State :=
  if p < 144 then
    let d := p / 24
    let s := losers.foldl (fun s i => s.count (54 + d) 0x1C3 i 1) s
    if capped then (s.inc (Reg.NMEM_ARB_CAP_CNT d) 1).count (54 + d) 0x1C4 w 1 else s
  else
    let e := edgeOfChan (p - 144)
    let s := losers.foldl (fun s i => s.count (60 + e) 0x286 i 1) s
    if capped then s.inc (Reg.FMEM_ARB_CAP_CNT e) 1 else s

/-- A point can accept a request: a channel's queue that is full cannot (R267, R269). -/
def State.arbAccepts (s : State) (p : Nat) : Bool :=
  decide (p < 144) || decide ((s.chan (p - 144)).queue.length < 64)

/-- ARB_GRANT (R267): in a cycle in which the point cannot accept, none is granted and none backs off. -/
def execArbGrant (p : ArbPoint) (want : BitVec 22) (s : State) : Out :=
  let a := s.arb p
  let n := arbSize p
  if !s.arbAccepts p then .next s
  else match a.winner n want with
  | none => .next s
  | some (w, capped) =>
    .next ((s.setArb p (a.grant n want w capped)).countArb p
      ((a.presenting n want).filter (· != w)) w capped)

/-- ARB_BACKOFF_EXPIRE (R267): the requester presents again, capped when it served 256. -/
def execArbBackoffExpire (p : ArbPoint) (req : Fin 22) (s : State) : Out :=
  let a := s.arb p
  let r := a.req req
  if r.count = 0 ∨ arbSize p ≤ req.val then .next s
  else .next (s.setArb p (a.setReq req { r with count := 0, capped := r.capped || r.count == 256 }))

/-! ### Far-memory training and upkeep -/

/-- `FMEM_CHAN_STAT` of a module channel. -/
def chanReg (ch : Nat) : Nat := Reg.FMEM_CHAN_STAT (ch / 96) (ch % 96)

/-- The channel's state: 0 untrained, 1 training, 2 ready, 3 failed (R274). -/
def State.chanState (s : State) (ch : Nat) : Nat := s.regF (chanReg ch) 31 30

/-- A channel has failed for good (R262): the loss of its half's polder (R401). -/
def State.failChan (s : State) (ch : Nat) : State :=
  (s.setRegF (chanReg ch) 31 30 3).polderLoss (60 + edgeOfChan ch) (polderOfHalf (halfOfChan ch)) ch none

/-- Step 9 of R261: zeros with valid check bits in every burst of a channel. -/
def State.zeroChan (s : State) (ch : Nat) : State :=
  { s with mem := s.mem.filter fun e => !(decide (e.1 < farSize) && chanOf e.1 == ch),
           poison := s.poison.filter fun u => !(decide (u < farSize) && chanOf u == ch) }

/-- One attempt of a channel through the nine steps (R261, R262); the first brings its PHY out of reset, unless a
rail that is off keeps it there (R448). -/
def State.trainChan (s : State) (ch : Nat) (fails : Bool) : State :=
  let k := s.chan ch
  if 2 ≤ s.chanState ch ∨ (s.island (60 + edgeOfChan ch)).ready = false ∨ s.keptInReset (80 + ch) = true then s
  else if fails then
    let s := s.setChan ch { k with attempts := k.attempts + 1, trainDone := 0 }
    if k.attempts = 0 then s.setRegF (chanReg ch) 31 30 1 else s.failChan ch
  else
    ((((s.setChan ch { k with attempts := k.attempts + 1, trainDone := 9 }).setRegF
      (chanReg ch) 31 30 2).zeroChan ch).rejoin [80 + ch])

/-- FMEM_TRAIN (R261, R262): one attempt of a package's four channels; those that are ready or failed
take no part, nor does a package whose edge die is in reset. -/
def execFmemTrain (pkg : Fin 48) (fail : BitVec 4) (s : State) : Out :=
  .next ((List.range 4).foldl (fun s i => s.trainChan (4 * pkg.val + i) (fail.getLsbD i)) s)

/-- A run-time retrain of steps 4 to 7 is counted (R262). -/
def State.countRetrain (s : State) (ch : Nat) : State := s.incF (chanReg ch) 15 8

/-- FMEM_DRIFT_CHECK (R262): a drift above one eighth of a unit interval retrains the channel; a failed
retrain is retried once at once. -/
def execFmemDriftCheck (ch : Chan) (drift : BitVec 8) (ok1 ok2 : Bool) (s : State) : Out :=
  if s.chanState ch ≠ 2 ∨ drift.toNat ≤ 8 then .next s
  else
    let s := s.countRetrain ch
    if ok1 then .next s
    else
      let s := s.countRetrain ch
      .next (if ok2 then s else s.failChan ch)

/-- n refresh commands are issued by a channel (R476). -/
def State.issueRefresh (s : State) (ch n : Nat) : State :=
  (s.setChan ch { s.chan ch with refreshes := (s.chan ch).refreshes + n }).count (60 + edgeOfChan ch)
    0x284 (ch % 96) n

/-- A trained channel is out of self-refresh, which the retention and off power states enter, and its PHY
is out of reset: its controller issues commands (R259). -/
def State.chanActive (s : State) (ch : Nat) : Bool :=
  decide (s.chanState ch = 2) && (s.island (80 + ch)).ready &&
    decide (SMap.get (fun _ => 0) s.pwrStates ch < 2)

/-- FMEM_REFRESH (R259, R260): per bank, postponed while the bank has requests, forced at the ninth
outstanding one; of all banks while the channel trains (DESIGN CHOICE, log entry 138). -/
def execFmemRefresh (ch : Chan) (bank : Fin 16) (busy : Bool) (s : State) : Out :=
  let k := s.chan ch
  let due := SMap.get (fun _ => 0) k.refreshDue bank + 1
  if s.chanState ch = 1 then .next (s.setChan ch { k with refreshDue := [], allBank := k.allBank + 1 })
  else if !s.chanActive ch then .next s
  else
    let n := if busy then due - 8 else due
    let q := SMap.set (fun _ => 0) k.refreshDue bank (due - n)
    .next ((s.setChan ch { k with refreshDue := q }).issueRefresh ch n)

/-- FMEM_ZQ_LATCH (R259), on a channel out of self-refresh. -/
def execFmemZqLatch (ch : Chan) (s : State) : Out :=
  .next (if s.chanActive ch then s.setChan ch { s.chan ch with zqLatches := (s.chan ch).zqLatches + 1 } else s)

/-- REFRESH_MANAGEMENT_REQUEST (R259): the refresh-management command is issued, by a channel out of
self-refresh. -/
def execRefreshManagementRequest (ch : Chan) (s : State) : Out :=
  .next (if s.chanActive ch then s.setChan ch { s.chan ch with rfm := (s.chan ch).rfm + 1 } else s)

end Sys2Proof.Machine
end

