-- ==== Sys2Proof/Machine/Update.lean ====
section
/-! DEFINITION. The update engines: pass 1 (R286, R296), norm results (R287, R288, R298), pass 2 and
its rules (R289 to R297), mirroring (R299), local completion (R300), mask re-compaction (R303 to
R305), and the working copies at a resume (R302). -/

namespace Sys2Proof.Machine

open Sys2Proof

/-! ### Scalar arithmetic (R285, R290) -/

/-- 1.0 in FP32. -/
def one32 : Word := 0x3F800000#32

/-- Fraction bits of log2 by repeated squaring of y in [1, 2), in units of 2^-256. -/
def log2Bits : Nat → Nat → Nat → Nat
  | 0, _, acc => acc
  | n + 1, y, acc =>
    let z := y * y / 2 ^ 256
    if 2 ^ 257 ≤ z then log2Bits n (z / 2) (2 * acc + 1) else log2Bits n z (2 * acc)

/-- log2 of a positive value m × 2^e, exact for powers of two; else within 2^-200, with a sticky last
bit (R290: correctly rounded). -/
def log2Num (m : Nat) (e : Int) : Num :=
  let k := floorLog2 m e
  if m = 2 ^ Nat.log2 m then Num.ofInt k
  else
    let f := log2Bits 200 (m * 2 ^ 256 / 2 ^ Nat.log2 m) 0
    (Num.ofInt (2 * (k * 2 ^ 200 + f) + 1)).scale (-201)

/-- log2 in FP32. -/
def flog2 (x : Word) : Word :=
  match f32 x with
  | .nan => qnan
  | .inf neg => if neg then qnan else x
  | .fin neg m e =>
    if m = 0 then 0xFF800000#32
    else if neg then qnan
    else toF32 (log2Num m e)

/-- exp2 of an update engine: exact at the infinities, free within 2 units in the last place elsewhere (R290). -/
def fexp2Upd (x : Word) : Word :=
  match f32 x with
  | .nan => qnan
  | .inf neg => if neg then 0#32 else x
  | .fin _ _ _ => freeNear 2 (Config.exp2Upd x) (exp2Val (f32 x))

/-- pow(x, n) of R290. -/
def fpow (x : Word) (n : Nat) : Word :=
  if n = 0 ∨ x = one32 then one32 else fexp2Upd (fmul (toF32 (Num.ofInt n)) (flog2 x))

/-- The rate between the points of a curve. -/
def rateIn (k : Nat) : List (Word × Word) → Word
  | [] => 0
  | [p] => p.2
  | p :: q :: l =>
    if k < q.1.toNat then
      let f := fdiv (toF32 (Num.ofInt (k - p.1.toNat : Nat))) (toF32 (Num.ofInt (q.1.toNat - p.1.toNat : Nat)))
      fadd p.2 (fmul (fsub q.2 p.2) f)
    else rateIn k (q :: l)

/-- The learning rate of step k (R285). -/
def rateOf (pts : List (Word × Word)) (k : Nat) : Word :=
  match pts with
  | [] => 0
  | p :: l => if k ≤ p.1.toNat then p.2 else rateIn k (p :: l)

/-- A norm from its pair (R287). -/
def pairNorm (p : Word × Word) : Word := fsqrt (fadd p.1 p.2)

/-! ### The rules (R291 to R294) -/

/-- What an update of one slot computes with beside its operands: rate, bias corrections, trust ratio. -/
structure Coefs where
  eta : Word
  bc1 : Word
  bc2 : Word
  ratio : Word

/-- 1 − β. -/
def compl (b : Word) : Word := fsub one32 b

/-- First and second moment and d of AM and LT. -/
def adam (u : UGroup) (c : Coefs) (g m v : Word) : Word × Word × Word :=
  let m := fadd (fmul u.b1 m) (fmul (compl u.b1) g)
  let v := fadd (fmul u.b2 v) (fmul (fmul (compl u.b2) g) g)
  (m, v, fdiv (fdiv m c.bc1) (fadd (fsqrt (fdiv v c.bc2)) u.eps))

/-- The candidate update of LT. -/
def ltStep (u : UGroup) (c : Coefs) (g w m v : Word) : Word :=
  fadd (adam u c g m v).2.2 (fmul u.lambda w)

/-- One slot: new W and moments from the scaled gradient and the old ones. -/
def updateSlot (u : UGroup) (c : Coefs) (g w m v : Word) : Word × Word × Word :=
  let keep := fsub one32 (fmul c.eta u.lambda)
  let move (d : Word) := fsub (fmul w keep) (fmul c.eta d)
  match u.rule with
  | 0 =>
    let a := adam u c g m v
    (move a.2.2, a.1, a.2.1)
  | 1 =>
    let m := fadd (fmul u.b1 m) g
    (move (if u.nesterov then fadd g (fmul u.b1 m) else m), m, v)
  | 2 =>
    let cc := fadd (fmul u.b1 m) (fmul (compl u.b1) g)
    let d := match f32 cc with
      | .nan => cc
      | x => if x.isZero then 0#32 else if x.sign then 0xBF800000#32 else one32
    (move d, fadd (fmul u.b2 m) (fmul (compl u.b2) g), v)
  | _ =>
    let a := adam u c g m v
    (fsub w (fmul (fmul c.eta c.ratio) (ltStep u c g w m v)), a.1, a.2.1)

/-- Results that are not finite though every input is. -/
def nonfinOut (u : UGroup) (g w m v : Word) (r : Word × Word × Word) : Nat :=
  let two := u.rule == 0 || u.rule == 3
  if [g, w, m].any nonfin || (two && nonfin v) then 0
  else (nonfin r.1).toNat + (nonfin r.2.1).toNat + (two && nonfin r.2.2).toNat

/-- The bias corrections for a count t. -/
def UGroup.bias (u : UGroup) (t : Nat) : Word × Word :=
  if u.biascorr then (compl (fpow u.b1 t), compl (fpow u.b2 t)) else (one32, one32)

/-! ### State in memory (R282, R283) -/

/-- S64 of R282. -/
def UGroup.s64 (u : UGroup) : Nat := cdiv (u.slots * max 1 u.rowD) 64 * 64

/-- States of a slot. -/
def UGroup.states (u : UGroup) : Nat := if u.rule = 0 ∨ u.rule = 3 then 3 else 2

/-- A bank's base. -/
def UGroup.bank (u : UGroup) (j : Nat) : Nat := if j = 0 then u.bank0 else u.bank1

/-- A mask set's base, by parity. -/
def UGroup.mdset (u : UGroup) (g : Nat) : Nat := if g % 2 = 0 then u.mdset0 else u.mdset1

/-- Record j of the pair, and of a row. -/
def UGroup.recAt (u : UGroup) (j : Nat) : Nat := u.recBase + 32 * j
def UGroup.rowRec (u : UGroup) (i j : Nat) : Nat := u.recBase + 64 + 16 * i + 8 * j

/-- A 32-bit word of memory. -/
def State.word (s : State) (a : Nat) : Word := BitVec.ofNat 32 (s.rd.le a 4)

/-- The current one of two records whose tags lie at two addresses, with a limit step (R283). -/
def State.current (s : State) (a0 a1 limit : Nat) : Nat :=
  let t0 := (s.word a0).toNat
  let t1 := (s.word a1).toNat
  if t1 ≤ limit ∧ (limit < t0 ∨ t0 < t1) then 1 else 0

/-- The current record of a group, and of a row. -/
def State.curRec (s : State) (u : UGroup) (limit : Nat) : Nat := s.current (u.recAt 0) (u.recAt 1) limit
def State.curRow (s : State) (u : UGroup) (i limit : Nat) : Nat :=
  s.current (u.rowRec i 0 + 4) (u.rowRec i 1 + 4) limit

/-- `T` and `GEN` of a record. -/
def State.recT (s : State) (u : UGroup) (j : Nat) : Word := s.word (u.recAt j + 4)
def State.recGen (s : State) (u : UGroup) (j : Nat) : Word := s.word (u.recAt j + 8)

/-- State word a (0 W, 1 and 2 moments) of slot k in a bank. -/
def UGroup.stateAt (u : UGroup) (j a k : Nat) : Nat := u.bank j + 4 * u.s64 * a + 4 * k

/-- The parked gradient of a slot; of value j of record x, for rows. -/
def UGroup.parkAt (u : UGroup) (k : Nat) : Nat :=
  u.park + cdiv (cdiv (cdiv u.slots 2048) 8) 256 * 256 + 4 * k
def UGroup.parkRow (u : UGroup) (x : Nat) : Nat := u.park + 256 + x * (8 + 4 * u.rowD)

/-- Some byte of a list of ranges is poisoned: the unit. -/
def State.poisonIn (s : State) (l : List (Nat × Nat)) : Option Nat :=
  s.poison.find? fun p => l.any fun r => overlap p (unitSize p) r.1 r.2

/-! ### Mirroring (R249, R299) -/

/-- Mirror writes are sent: a twin is configured, and the pair is in sync or resyncing (R398, R399). -/
def State.mirroring (s : State) : Bool :=
  s.hasTwin && (decide (s.regF Reg.FLT_STAT 31 31 = 0) || s.resync.isSome)

/-- The offset of an address in the twin's mirror region. -/
def State.mirrorOff (s : State) (a : Nat) : Option Nat :=
  match s.allocAt a with
  | some (_, x) => if x.mirror then some (x.mirrorOff + (a - x.base)) else none
  | none => none

/-- One `MWR` packet of an engine. -/
def State.sendMwr (s : State) (e step group off : Nat) (bytes : List Byte) (isRec : Bool) : State :=
  s.e2eSend (e / 2) s.twin 2 (e % 4) 0x30
    (off + e * 2 ^ 48 + step * 2 ^ 64 + group * 2 ^ 96 + isRec.toNat * 2 ^ 112) bytes

/-- A write of an update engine that is mirrored where its allocation is. -/
def State.updWrite (s : State) (e step group a : Nat) (bytes : List Byte) (isRec bad : Bool) : State :=
  if bytes.isEmpty then s
  else
    let s := s.put .engine a bytes bad
    match s.mirrorOff a with
    | some off => if s.mirroring then s.sendMwr e step group off bytes isRec else s
    | none => s

/-- Words as bytes. -/
def wordBytes (l : List Word) : List Byte := l.flatMap fun w => leBytes 4 w.toNat

/-- One bit of a byte is written by an update engine (R286), mirrored like any write of it (R249). -/
def State.updBit (s : State) (e step group a i v : Nat) : State :=
  s.updWrite e step group a [BitVec.ofNat 8 (setFld (Memory.byte s.mem a).toNat i i v)] false false

/-- A run of words is written in mirror packets of at most 8,192 bytes. -/
def State.updWords (s : State) (e step group : Nat) : Nat → Nat → List Word → State
  | 0, _, _ => s
  | n + 1, a, l =>
    if l.isEmpty then s
    else (s.updWrite e step group a (wordBytes (l.take 2048)) false false).updWords e step group n
      (a + 8192) (l.drop 2048)

/-! ### Runs -/

/-- A run before its first chunk. -/
def GrpRun.fresh (step : Nat) : GrpRun :=
  { step := BitVec.ofNat 32 step, covered := [], sqg := (0, 0), squ := (0, 0), sqw := (0, 0),
    nonfin := false, rows := [], normSent := false, norm := none, clip := one32, t := 0, swap := false,
    skipped := false, pass2 := false, localDone := false }

/-- The run of a group's step on an engine. -/
def State.run? (s : State) (e g step : Nat) : Option GrpRun :=
  match SMap.get (fun _ => none) (s.engine e).groups (2 * g + step % 2) with
  | some r => if r.step.toNat = step then some r else none
  | none => none

/-- A run is replaced. -/
def State.setRun (s : State) (e g step : Nat) (r : GrpRun) : State :=
  let k := s.engine e
  s.setEngine e { k with groups := SMap.set (fun _ => none) k.groups (2 * g + step % 2) (some r) }

/-- A chunk or record is dropped (R307). -/
def State.dropChunk (s : State) (e g : Nat) : State :=
  (s.inc (updReg Reg.UPD_CHUNK_DROP_CNT e) 1).breachOpen (60 + e / 2)
    { cls := 0xB, polder := polderOfHalf e, action := 0, obj := g }

/-! ### Poisoned state (R307, R392, R396, R409) -/

/-- The committed state of a group holds an address of its ranges: false for the other bank, the other
records and the mask set of the other parity. -/
def State.groupHolds (s : State) (u : UGroup) (a : Nat) : Bool :=
  let c := s.committed
  let j := s.curRec u c
  let len := 4 * u.states * u.s64
  let inBank (b : Nat) : Bool := decide (u.bank b ≤ a ∧ a < u.bank b + len)
  let b := if inBank 0 then some 0 else if inBank 1 then some 1 else none
  match b with
  | some b =>
    if u.kind = 1 then
      s.curRow u ((a - u.bank b) / 4 % u.s64 / u.rowD) c == b
    else b == j
  | none =>
    if u.recBase ≤ a ∧ a < u.recBase + 64 then (a - u.recBase) / 32 == j
    else if u.kind = 1 ∧ u.recBase + 64 ≤ a ∧ a < u.recBase + 64 + 16 * u.slots then
      let o := a - u.recBase - 64
      s.curRow u (o / 16) c == o % 16 / 8
    else if u.kind = 2 then
      let g := (s.recGen u j).toNat
      let md := match s.descOf u.wdesc with
        | some d => d.arrayNeed 0
        | none => 0
      !decide (u.mdset (g + 1) ≤ a ∧ a < u.mdset (g + 1) + md)
    else true

/-- A burst holds committed mirrored state (R396). -/
def State.committedAt (s : State) (a : Nat) : Bool :=
  match s.prog, s.mirrorOff a with
  | some p, some _ =>
    let words := (List.range 8).map (a / 32 * 32 + 4 * ·)
    words.any fun w => p.ugroups.all fun u => s.groupHolds u w
  | _, _ => false

/-- A poisoned word of state under update has been read: committed mirrored state is reconstructed from the twin, or
lost where there is none (R396, R409); with anything else the step fails to commit (R35). -/
def State.stateBad (s : State) (g addr : Nat) : State :=
  let pol := polderOfHalf (halfOfChan (chanOf addr))
  if s.committedAt addr then
    if s.alone then
      (if s.regF Reg.FLT_STAT 29 29 = 1 then s else (s.readUnit addr).pairLoss (60 + edgeOfChan (chanOf addr)) none pol g addr)
    else if s.recWindows.any fun w => w.cls == 7 && w.obj.toNat == chanOf addr then s
    else
      ((s.readUnit addr).breachOpen (60 + edgeOfChan (chanOf addr))
        { cls := 1, polder := pol, action := 8, obj := g, addr := addr }).openWindow 7 pol (chanOf addr)
  else if s.ctl.failed then s
  else
    let s := (s.readUnit addr).breachOpen (60 + edgeOfChan (chanOf addr))
      { cls := 1, polder := pol, action := 2, obj := g, addr := addr, rstep := s.committed }
    { s with ctl := { s.ctl with failed := true } }

/-- Engine e can reach what a group keeps in memory: banks, records, parked gradients, slot map, working copy (R18, R27,
R262, R459). -/
def State.groupReach (s : State) (e : Nat) (u : UGroup) : Bool :=
  let len := 4 * u.states * u.s64
  let park := if u.kind = 1 then u.parkRow u.maxRows - u.park else u.parkAt u.slots - u.park
  s.engineRuns e &&
    ([(u.bank0, len), (u.bank1, len), (u.recBase, 64 + (if u.kind = 1 then 16 * u.slots else 0)), (u.park, park)] ++
      (if u.kind = 2 then [(u.mapBase, 4 * u.slots)] else []) ++
      (match s.descOf u.wdesc with
       | some d => d.reach
       | none => [])).all fun r => s.memPath (6 + e / 2) r.1 r.2

/-! ### Pass 1 (R286, R296) -/

/-- Rebuild status of the group's rebuild engine on this module (R303). -/
def State.recompReady (s : State) (u : UGroup) : Bool :=
  let n := at0 (enginesOf u.engines) 0
  match (s.engine n).rebuild with
  | some b => b.group == u.group && b.ready
  | none => false

/-- The parked gradients that an engine reads: under a swap those of the whole group (R305). -/
def UGroup.parkRanges (u : UGroup) (e : Nat) (r : GrpRun) : List (Nat × Nat) :=
  if u.kind = 1 then r.rows.map fun x => (u.parkRow x.2, 8 + 4 * u.rowD)
  else if r.swap then [(u.parkAt 0, 4 * u.slots)]
  else [(u.parkAt (u.range e).1, 4 * ((u.range e).2 - (u.range e).1))]

/-- Pass 1 ends: the coverage bits are cleared and the contribution goes out (R286 to R288, R388). -/
def State.endPass1 (s : State) (u : UGroup) (e step : Nat) (r : GrpRun) : State :=
  let s := r.covered.foldl (fun s c => s.updBit e step u.group (u.park + c / 8) (c % 8) 0) s
  let bad := (s.poisonIn (u.parkRanges e r)).isSome
  let s := if bad then s.taint (60 + e / 2) (polderOfHalf e) none step u.group else s
  let t := (s.recT u (s.curRec u (step - 1))).truncate 16
  let r := { r with covered := [], normSent := true }
  (s.setRun e u.group step r).normHear u e step
    { sqg := r.sqg, squ := r.squ, sqw := r.sqw, tMin := t, tMax := t,
      nonfin := r.nonfin || bad || s.ctl.tainted.contains (step, u.group), ready := s.recompReady u }

/-- A sum of squares of a chunk in slot order. -/
def sumSq (l : List Word) : Word := l.foldl (fun q g => fadd q (fmul g g)) 0

/-- The state words of some slots in a bank. -/
def State.stateOf (s : State) (u : UGroup) (j lo n : Nat) : List (Word × Word × Word) :=
  (List.range' lo n).map fun k =>
    (s.word (u.stateAt j 0 k), s.word (u.stateAt j 1 k), if u.states = 3 then s.word (u.stateAt j 2 k) else 0)

/-- The ranges of some slots in a bank. -/
def UGroup.stateRanges (u : UGroup) (j lo n : Nat) : List (Nat × Nat) :=
  (List.range u.states).map fun a => (u.stateAt j a lo, 4 * n)

/-- The rate of an engine's step (R285). -/
def State.rate (s : State) (u : UGroup) (e : Nat) : Word :=
  rateOf (match s.prog with
    | some p => p.curves.getD u.curve []
    | none => []) (s.island (60 + e / 2)).step.toNat

/-- LT's part of pass 1 for a chunk: Σ u² and Σ W². -/
def State.ltSums (s : State) (u : UGroup) (e step lo : Nat) (vals : List Word) (r : GrpRun) : GrpRun :=
  let j := s.curRec u (step - 1)
  let t := (s.recT u j).toNat + 1
  let b := u.bias t
  let st := s.stateOf u j lo vals.length
  let us := (vals.zip st).map fun p => ltStep u ⟨s.rate u e, b.1, b.2, one32⟩ p.1 p.2.1 p.2.2.1 p.2.2.2
  { r with squ := (pairAdd r.squ (sumSq us)).1, sqw := (pairAdd r.sqw (sumSq (st.map Prod.fst))).1 }

/-- Gradient accepted, in 64-byte units. -/
def State.countIntake (s : State) (e bytes : Nat) : State :=
  s.count (60 + e / 2) 0x302 (e % 2) (cdiv bytes 64)

/-- Bytes of a value as the reduce-scatter delivered it. -/
def State.wireWidth (s : State) (u : UGroup) : Nat := match s.sgroupOf u with
  | some g => if g.bf16 then 2 else 4
  | none => 4

/-- Every chunk of the engine's sub-shard is covered. -/
def UGroup.covers (u : UGroup) (e : Nat) (r : GrpRun) : Bool :=
  let lo := (u.range e).1
  (List.range (cdiv ((u.range e).2 - lo) 2048)).all fun i => r.covered.contains (lo / 2048 + i)

/-- A chunk at an engine (R286). -/
def State.passChunk (s : State) (u : UGroup) (e step : Nat) (c : Chunk) (r : GrpRun) : State :=
  let lo := (u.range e).1 + c.off
  let ch := lo / 2048
  let s := (s.countIntake e (s.wireWidth u * c.vals.length)).updBit e step u.group (u.park + ch / 8) (ch % 8) 1
  let s := s.updWrite e step u.group (u.parkAt lo) (wordBytes c.vals) false false
  let r := { r with covered := r.covered ++ [ch], sqg := (pairAdd r.sqg (sumSq c.vals)).1,
                    nonfin := r.nonfin || c.vals.any nonfin }
  let r := if u.rule = 3 then s.ltSums u e step lo c.vals r else r
  if u.covers e r then s.endPass1 u e step r else s.setRun e u.group step r

/-- UPD_CHUNK (R278, R286, R307): the oldest chunk that waits at the engine. -/
def execUpdChunk (e : Half) (s : State) : Out :=
  if s.engineRuns e = false then .next s else
  match (s.engine e).inQ with
  | [] => .next s
  | c :: l =>
    let step := c.step.toNat
    let t := s.setEngine e { s.engine e with inQ := l }
    match s.ugroup c.group with
    | none => .next (t.dropChunk e c.group)
    | some u =>
      if u.kind = 1 ∨ s.groupReach e u = false then .next s
      else
        let r := (s.run? e u.group step).getD (GrpRun.fresh step)
        let lo := (u.range e).1 + c.off
        if c.last then .next (if r.normSent then t else t.endPass1 u e step r)
        else if !(enginesOf u.engines).contains e || decide (c.off % 2048 ≠ 0) ||
            decide ((u.range e).2 < lo + c.vals.length) || r.normSent ||
            r.covered.contains (lo / 2048) then .next (t.dropChunk e u.group)
        else
          let j := s.curRec u (step - 1)
          let need := (u.recAt j, 32) ::
            (if u.rule = 3 then u.stateRanges j lo c.vals.length else [])
          match s.poisonIn need with
          | some a => .next (s.stateBad u.group a)
          | none => .next ((t.readRanges need).passChunk u e step c r)

/-- Rows recorded for a group's step by all its engines. -/
def State.rowsTaken (s : State) (u : UGroup) (step : Nat) : Nat :=
  ((enginesOf u.engines).map fun n => match s.run? n u.group step with
    | some r => r.rows.length
    | none => 0).sum

/-- UPD_ROW_RECORD (R296, R307). -/
def execUpdRowRecord (e : Half) (s : State) : Out :=
  if s.engineRuns e = false then .next s else
  match (s.engine e).inQ with
  | [] => .next s
  | c :: l =>
    let step := c.step.toNat
    let t := s.setEngine e { s.engine e with inQ := l }
    match s.ugroup c.group with
    | none => .next (t.dropChunk e c.group)
    | some u =>
      if u.kind ≠ 1 ∨ s.groupReach e u = false then .next s
      else
        let r := (s.run? e u.group step).getD (GrpRun.fresh step)
        match s.poisonIn [(u.recAt (s.curRec u (step - 1)), 32)] with
        | some a => .next (s.stateBad u.group a)
        | none =>
          if c.last then .next (if r.normSent then t else t.endPass1 u e step r)
          else
            let x := s.rowsTaken u step
            let own := decide ((u.range e).1 ≤ c.off ∧ c.off < (u.range e).2)
            if !(enginesOf u.engines).contains e || !own || r.normSent || decide (u.maxRows ≤ x) ||
                r.rows.any (fun p => p.1 == c.off) then .next (t.dropChunk e u.group)
            else
              let t := t.countIntake e (s.wireWidth u * c.vals.length)
              let t := t.updWrite e step u.group (u.parkRow x)
                (leBytes 4 c.off ++ leBytes 4 0 ++ wordBytes c.vals) false false
              .next (t.setRun e u.group step { r with
                rows := r.rows ++ [(c.off, x)], sqg := (pairAdd r.sqg (sumSq c.vals)).1,
                nonfin := r.nonfin || c.vals.any nonfin })

/-! ### Norm results (R288, R298, R305) -/

/-- The clip coefficient. -/
def UGroup.clipCoef (u : UGroup) (a : Norm) : Word :=
  let n := pairNorm a.sqg
  if (f32 u.clip).isZero || (!(f32 n).isNan && !(f32 u.clip).lt (f32 n)) then one32 else fdiv u.clip n

/-- A group under step-count skew (R298). -/
def State.skew (s : State) (u : UGroup) (e : Nat) (t : Word) : State :=
  let s := (s.inc (updReg Reg.UPD_STEP_SKEW_CNT e) 1).setReg (updReg Reg.UPD_LAST_SKEW e)
    (BitVec.ofNat 32 (2 ^ 31 + u.group))
  (s.setReg (updReg Reg.UPD_LAST_SKEW_T e) t).breachOpen (60 + e / 2)
    { cls := 9, polder := polderOfHalf e, action := 0, obj := u.group }

/-- A rebuild of the group that is pending here is late (R305). -/
def State.lateRebuild (s : State) (u : UGroup) (e : Nat) : State :=
  match (s.engine e).rebuild with
  | some b =>
    if b.group = u.group then
      (s.inc (updReg Reg.UPD_RECOMP_LATE_CNT e) 1).setRegF (updReg Reg.UPD_CTL e) 12 12 1
    else s
  | none => s

/-- No half works any more on the collectives of a group whose step is skipped (R288, R347). -/
def State.restGroup (s : State) (g step : Nat) : State :=
  match s.prog with
  | none => s
  | some p =>
    (List.range p.colls.length).foldl (fun s i => match s.ring i with
      | some R => if R.coll.kind = 0 ∧ R.coll.ugroup = g ∧ s.gatherDone R step = true then s.restColl R.idx else s
      | none => s) s

/-- NORM_RESULT (R287, R288, R298, R305): the oldest result that waits at the engine. A step that is skipped swaps
nothing, and a rebuild that is late is late at it too. -/
def execNormResult (e : Half) (s : State) : Out :=
  if s.engineRuns e = false then .next s else
  match (s.engine e).normQ with
  | [] => .next s
  | (step, g, a) :: l =>
    let s := s.setEngine e { s.engine e with normQ := l }
    match s.ugroup g, s.run? e g step with
    | some u, some r =>
      if a.nonfin then
        let s := if u.kind = 2 ∧ a.ready = false then s.lateRebuild u e else s
        let s := s.setRun e g step { r with norm := some a, skipped := true }
        let s := (s.inc (updReg Reg.UPD_NONFIN_SKIP_CNT e) 1).logNamed (60 + e / 2) 0x0203 g
        .next (s.restGroup g step)
      else
        let own := s.recT u (s.curRec u (step - 1))
        let skewed := a.tMin != a.tMax
        let t : Word := if skewed then (own &&& 0xFFFF0000#32) + a.tMax.zeroExtend 32 + 1 else own + 1
        let s := if skewed then s.skew u e t else s
        let s := if u.kind = 2 ∧ a.ready = false then s.lateRebuild u e else s
        .next (s.setRun e g step { r with
          norm := some a, clip := u.clipCoef a, t := t, swap := decide (u.kind = 2) && a.ready })
    | _, _ => .next s

/-! ### Working copies (R295, R302) -/

/-- The descriptor index of slot k of a dense or embedding group, and back. -/
def UGroup.ixOf (u : UGroup) (d : Desc) (k : Nat) : List Nat :=
  if u.kind = 1 then d.index (k / u.rowD) (k % u.rowD) else unflat d.exts k
def UGroup.slotOf (u : UGroup) (d : Desc) (ix : List Nat) : Nat :=
  if u.kind = 1 then (d.viewPos ix).1 * u.rowD + (d.viewPos ix).2 else flat d.exts ix

/-- The master of a slot and its poison: in bank j, or for rows in each row's current bank under a limit
step. -/
def State.master (s : State) (u : UGroup) (j limit k : Nat) : Num × Bool :=
  let j := if u.kind = 1 then s.curRow u (k / u.rowD) limit else j
  let a := u.stateAt j 0 k
  (f32 (s.word a), s.rd.anyBad a 4)

/-- A block of masters converted: its codes, its scale byte, the clamped elements. A block that holds a
NaN becomes a NaN block. -/
def copyBlock (d : Desc) (u : UGroup) (ctr : Nat) (room : Bool) (v : List Num) : List Nat × Nat × Nat :=
  let b := convBlock d.fmt u.freeboard (u.rnd == 1) ctr v
  if b.hasNan then
    (if d.hasSpill && room then ptrCodes d.fmt.width v.length (spillPtr 0xFFFFFFFF 0) else v.map fun _ => 0,
     0xFF, 0)
  else (b.codes, b.scale, b.sat)

/-- Draws taken by n conversions of a group. -/
def State.drew (s : State) (u : UGroup) (n : Nat) : State :=
  if u.rnd = 1 then { s with freeCtr := s.freeCtr + n } else s

/-- The block of slots or elements that starts with slot k is converted by engine e, into staged bytes; the
missing slots of a last block are zero codes (R48, R71). -/
def State.copyBlockAt (s : State) (d : Desc) (u : UGroup) (e j limit k : Nat) (st : Staging) :
    State × Staging :=
  let tnm := d.cfmt != .dns
  let ix := u.ixOf d k
  let places : List (Option Nat × Int × Bool) :=
    if tnm then (List.range' k 32).map fun q => (if q < u.slots then some q else none, (q : Int), false)
    else (d.blockElems ix).map fun x =>
      (if (x.zip d.exts).all fun p => decide (p.1 < p.2) then some (u.slotOf d x) else none, d.offset x,
        d.lineEnd x)
  let v := places.map fun p => match p.1 with
    | some q => s.master u j limit q
    | none => (.zero, false)
  let bad := v.any Prod.snd
  let b := copyBlock d u s.freeCtr (tnm || d.ptrRoom ix) (v.map Prod.fst)
  let st := (places.zip b.1).foldl (fun st p =>
    stElem s.mem st d p.1.2.1 p.1.2.2 p.2 bad) st
  let blk := if tnm then k / 32 else (d.blockOf ix).1
  ((s.drew u v.length).inc (updReg Reg.UPD_SAT_CNT e) b.2.2,
   stBytes st (d.abase 2 + blk) bad [BitVec.ofNat 8 b.2.1])

/-- One slot of an unscaled working copy. -/
def State.copySlot (s : State) (d : Desc) (u : UGroup) (e j limit k : Nat) (st : Staging) :
    State × Staging :=
  let m := s.master u j limit k
  let r := convPlain d.fmt (drawAt (u.rnd == 1) s.freeCtr 0) m.1
  let ix := u.ixOf d k
  let dns := d.cfmt == .dns
  let off : Int := if dns then d.offset ix else (k : Int)
  ((s.drew u 1).inc (updReg Reg.UPD_SAT_CNT e) r.2.toNat,
   stElem s.mem st d off (dns && d.lineEnd ix) r.1 m.2)

/-- Slots of the group in all. -/
def UGroup.allSlots (u : UGroup) : Nat := u.slots * max 1 u.rowD

/-- The slot begins a scale block of the working copy. -/
def UGroup.blockStart (u : UGroup) (d : Desc) (k : Nat) : Bool :=
  if d.cfmt = .dns then decide ((d.blockOf (u.ixOf d k)).2 = 0) else decide (k % 32 = 0)

/-- The engine that converts a block: the one whose sub-shard holds its first slot. -/
def UGroup.slotOwner (u : UGroup) (k : Nat) : Nat := u.owner (if u.kind = 1 then k / u.rowD else k)

/-- The slots of a block that starts at slot k. -/
def UGroup.blockSlots (u : UGroup) (d : Desc) (k : Nat) : List Nat :=
  if d.cfmt = .dns then
    ((d.blockElems (u.ixOf d k)).filter fun x => (x.zip d.exts).all fun p => decide (p.1 < p.2)).map
      (u.slotOf d)
  else List.range' k (min 32 (u.slots - k))

/-- The working copy is written for slots that are wanted: whole blocks when it is block-scaled. -/
def State.copyOut (s : State) (u : UGroup) (j limit : Nat) (want : Nat → Bool) (mine : Nat → Bool) :
    State :=
  match s.descOf u.wdesc with
  | none => s
  | some d =>
    let r := (List.range u.allSlots).foldl (fun (a : State × Staging) k =>
      if d.scaled then
        (if u.blockStart d k && mine k && (u.blockSlots d k).any want then
          a.1.copyBlockAt d u (u.slotOwner k) j limit k a.2 else a)
      else if mine k && want k then a.1.copySlot d u (u.slotOwner k) j limit k a.2 else a) (s, [])
    (r.1.commitStage .engine [] r.2).1

/-- `MD0` of the working copy takes mask bytes of a generation. -/
def State.copyMasks (s : State) (u : UGroup) (gen lo n : Nat) : State :=
  match s.descOf u.wdesc with
  | some d =>
    let a := u.mdset gen + lo
    s.put .engine (d.abase 0 + lo) (Memory.bytes s.mem a n) (s.rd.anyBad a n)
  | none => s

/-- A group's working copy is rewritten from its current bank and committed generation (R302). -/
def State.rewriteGroup (s : State) (u : UGroup) (limit : Nat) : State :=
  let j := s.curRec u limit
  let s := s.readRanges [(u.recAt j, 32), (u.stateAt j 0 0, 4 * u.allSlots)]
  let s := match u.kind, s.descOf u.wdesc with
    | 2, some d => s.copyMasks u (s.recGen u j).toNat 0 (d.arrayNeed 0)
    | _, _ => s
  s.copyOut u j limit (fun _ => true) (fun _ => true)

/-- Every working copy is rewritten, at a resume. -/
def State.rewriteAll (s : State) : State :=
  match s.prog with
  | some p => p.ugroups.foldl (fun s u => s.rewriteGroup u s.committed) s
  | none => s

/-! ### Pass 2 (R289 to R297) -/

/-- The trust ratio of LT. -/
def UGroup.trust (u : UGroup) (a : Norm) : Word :=
  let nw := pairNorm a.sqw
  let nu := pairNorm a.squ
  if Num.zero.lt (f32 nw) && Num.zero.lt (f32 nu) then fmin (fdiv nw nu) u.trustMax else one32

/-- The coefficients of a run, for a count t. -/
def State.coefs (s : State) (u : UGroup) (e t : Nat) (a : Norm) : Coefs :=
  let b := u.bias t
  ⟨s.rate u e, b.1, b.2, if u.rule = 3 then u.trust a else one32⟩

/-- The group record of step k is written, the last write of the group (R289). -/
def State.writeRec (s : State) (u : UGroup) (e step j : Nat) (t gen : Word) : State :=
  let a := u.recAt (1 - j)
  let sent := s.mirroring && (s.mirrorOff a).isSome
  let s := s.updWrite e step u.group a
    (leBytes 4 step ++ leBytes 4 t.toNat ++ leBytes 4 gen.toNat ++ List.replicate 20 0) true false
  if sent then
    let k := s.engine e
    s.setEngine e { k with pend := k.pend ++ [(BitVec.ofNat 32 step, u.group, s.now)] }
  else s

/-- Old and new slots of a pass: under a swap each new slot reads the slot that `MAP` names (R305). -/
def State.oldSlot (s : State) (u : UGroup) (swap : Bool) (k : Nat) : Option Nat :=
  if swap then
    let m := (s.word (u.mapBase + 4 * k)).toNat
    if m = 0xFFFFFFFF then none else some m
  else some k

/-- Some slots of a dense or masked group: the new state, and the count of R290. -/
def State.newSlots (s : State) (u : UGroup) (c : Coefs) (clip : Word) (j : Nat) (swap : Bool)
    (lo n : Nat) : List (Word × Word × Word) × Nat :=
  let l := (List.range' lo n).map fun k => match s.oldSlot u swap k with
    | none => ((0, 0, 0), 0)
    | some q =>
      let g := fmul clip (s.word (u.parkAt q))
      let w := s.word (u.stateAt j 0 q)
      let m := s.word (u.stateAt j 1 q)
      let v := if u.states = 3 then s.word (u.stateAt j 2 q) else 0
      let r := updateSlot u c g w m v
      (r, nonfinOut u g w m v r)
  (l.map Prod.fst, (l.map Prod.snd).sum)

/-- The state of some slots is written to a bank. -/
def State.writeState (s : State) (u : UGroup) (e step j lo : Nat) (l : List (Word × Word × Word)) :
    State :=
  let n := cdiv l.length 2048
  let s := s.updWords e step u.group n (u.stateAt j 0 lo) (l.map Prod.fst)
  let s := s.updWords e step u.group n (u.stateAt j 1 lo) (l.map fun x => x.2.1)
  if u.states = 3 then s.updWords e step u.group n (u.stateAt j 2 lo) (l.map fun x => x.2.2) else s

/-- Slots written by pass 2 are counted. -/
def State.countPass2 (s : State) (e n nf : Nat) : State :=
  (s.inc (updReg Reg.UPD_NONFIN_OUT_CNT e) nf).count (60 + e / 2) 0x303 (e % 2) n

/-- Pass 2 of a dense or masked group on an engine. -/
def State.passDense (s : State) (u : UGroup) (e step : Nat) (r : GrpRun) (a : Norm) : State :=
  let j := s.curRec u (step - 1)
  let gen := s.recGen u j
  let lo := (u.range e).1
  let n := (u.range e).2 - lo
  let x := s.newSlots u (s.coefs u e r.t.toNat a) r.clip j r.swap lo n
  let s := (s.writeState u e step (1 - j) lo x.1).countPass2 e n x.2
  let gen' := if r.swap then gen + 1 else gen
  let s := match r.swap, s.descOf u.wdesc with
    | true, some d =>
      match d.cfmt with
      | .tnm p m => s.copyMasks u gen'.toNat (lo / p * m / 8) (cdiv ((lo + n) / p * m) 8 - lo / p * m / 8)
      | _ => s
    | _, _ => s
  let own (k : Nat) : Bool := decide (lo ≤ k ∧ k < lo + n)
  let s := s.copyOut u (1 - j) step own own
  s.writeRec u e step j r.t gen'

/-- One touched row (R296, R297). -/
def State.passRow (s : State) (u : UGroup) (e step : Nat) (r : GrpRun) (a : Norm) (row x : Nat) :
    State :=
  let j := s.curRow u row (step - 1)
  let cnt := (s.word (u.rowRec row j)).toNat
  let last := (s.word (u.rowRec row j + 4)).toNat
  let c := s.coefs u e (cnt + 1) a
  let decay := fpow (fsub one32 (fmul c.eta u.lambda)) (step - last - 1)
  let l := (List.range u.rowD).map fun i =>
    let k := row * u.rowD + i
    let g := fmul r.clip (s.word (u.parkRow x + 8 + 4 * i))
    let w := s.word (u.stateAt j 0 k)
    let m := s.word (u.stateAt j 1 k)
    let v := if u.states = 3 then s.word (u.stateAt j 2 k) else 0
    let y := updateSlot u c g (fmul w decay) m v
    (y, nonfinOut u g w m v y)
  let s := (s.writeState u e step (1 - j) (row * u.rowD) (l.map Prod.fst)).countPass2 e u.rowD
    (l.map Prod.snd).sum
  s.updWrite e step u.group (u.rowRec row (1 - j))
    (leBytes 4 (cnt + 1) ++ leBytes 4 step) false false

/-- Insertion by row. -/
def insertRow (x : Nat × Nat) : List (Nat × Nat) → List (Nat × Nat)
  | [] => [x]
  | y :: l => if x.1 < y.1 then x :: y :: l else y :: insertRow x l

/-- The blocks of an embedding group's working copy cross rows of several engines. -/
def State.rowsCross (s : State) (u : UGroup) : Bool :=
  match s.descOf u.wdesc with
  | some d => decide (u.kind = 1) && d.scaled && d.blockAxis != d.colAxis &&
      decide (1 < (enginesOf u.engines).length)
  | none => false

/-- Every engine of a group has run its pass 2 of a step. -/
def State.allPassed (s : State) (u : UGroup) (step : Nat) : Bool :=
  (enginesOf u.engines).all fun n => match s.run? n u.group step with
    | some r => r.pass2
    | none => false

/-- Rows touched in a step on the group's engines. -/
def State.touched (s : State) (u : UGroup) (step row : Nat) : Bool :=
  (enginesOf u.engines).any fun n => match s.run? n u.group step with
    | some r => r.rows.any fun p => p.1 == row
    | none => false

/-- Pass 2 of an embedding group on an engine: rows in ascending order, then the record; blocks that cross
rows of several engines are converted once the last engine has written its rows. -/
def State.passRows (s : State) (u : UGroup) (e step : Nat) (r : GrpRun) (a : Norm) : State :=
  let j := s.curRec u (step - 1)
  let rows := r.rows.foldl (fun l x => insertRow x l) []
  let s := rows.foldl (fun s x => s.passRow u e step r a x.1 x.2) s
  let want (k : Nat) : Bool := s.touched u step (k / u.rowD)
  let s := if s.rowsCross u then
      (if s.allPassed u step then s.copyOut u 0 step want (fun _ => true) else s)
    else s.copyOut u 0 step want (fun k => u.slotOwner k == e)
  s.writeRec u e step j r.t (s.recGen u j)

/-- What pass 2 of a run reads: current records, current state, the slot map; what the run will write again may be
poisoned (R396, R409). -/
def State.passReads (s : State) (u : UGroup) (e step : Nat) (r : GrpRun) : List (Nat × Nat) :=
  let j := s.curRec u (step - 1)
  (u.recAt j, 32) ::
    (if u.kind = 1 then r.rows.flatMap fun x =>
      (u.rowRec x.1 (s.curRow u x.1 (step - 1)), 8) :: (u.stateRanges (s.curRow u x.1 (step - 1)) (x.1 * u.rowD) u.rowD)
     else if r.swap then (u.mapBase, 4 * u.slots) :: u.stateRanges j 0 u.slots
     else u.stateRanges j (u.range e).1 ((u.range e).2 - (u.range e).1))

/-- The run of a group whose pass 2 may start: the norm result has arrived, the previous step has
committed (R289). -/
def State.startable (s : State) (e g : Nat) : Option GrpRun :=
  ([s.committed, s.committed + 1].filterMap (s.run? e g)).find? fun r =>
    r.norm.isSome && !r.skipped && !r.pass2

/-- The rebuild engine's rebuild has been switched to. -/
def State.switched (s : State) (u : UGroup) (e : Nat) (r : GrpRun) : State :=
  if r.swap && e == at0 (enginesOf u.engines) 0 then
    ((s.setEngine e { s.engine e with rebuild := none }).setRegF (updReg Reg.UPD_RECOMP_STAT e) 31 28
      0).setRegF (updReg Reg.UPD_CTL e) 12 12 0
  else s

/-- The count t of a run (R290, R298): the one that skew set, else `T` + 1 of the record that is current as pass 2
starts. -/
def State.runT (s : State) (u : UGroup) (step : Nat) (r : GrpRun) (a : Norm) : Word :=
  if a.tMin = a.tMax then s.recT u (s.curRec u (step - 1)) + 1 else r.t

/-- PASS2_START (R289 to R297, R305): withheld while a word it reads is poisoned. -/
def execPass2Start (e : Half) (g : Fin 4096) (s : State) : Out :=
  match s.ugroup g, s.startable e g with
  | some u, some r =>
    let step := r.step.toNat
    if s.groupReach e u = false then .next s else
    match s.poisonIn (s.passReads u e step r ++ u.parkRanges e r), r.norm with
    | some a, _ => .next (s.stateBad g a)
    | none, none => .next s
    | none, some a =>
      let r := { r with t := s.runT u step r a }
      let s := s.readRanges (s.passReads u e step r ++ u.parkRanges e r)
      let s := (s.setRun e g step { r with pass2 := true }).setReg (updReg Reg.UPD_STEP e) r.step
      let s := if u.kind = 1 then s.passRows u e step r a else s.passDense u e step r a
      .next (s.switched u e r)
  | _, _ => .next s

/-- The collectives that gather a group's working copy start. -/
def State.gatherGroup (s : State) (g step : Nat) : State :=
  match s.prog with
  | none => s
  | some p =>
    (List.range p.colls.length).foldl (fun s i => match s.ring i with
      | some R => if R.coll.kind = 0 ∧ R.coll.ugroup = g then s.startGather R step else s
      | none => s) s

/-- GROUP_LOCAL_DONE (R300): the engine reports; with the last engine the all-gather starts. -/
def execGroupLocalDone (e : Half) (g : Fin 4096) (s : State) : Out :=
  if s.engineRuns e = false then .next s else
  let ready (r : GrpRun) : Bool := r.pass2 && !r.localDone
  match s.ugroup g, ([s.committed, s.committed + 1].filterMap (s.run? e g)).find? ready with
  | some u, some r =>
    let step := r.step.toNat
    if s.rowsCross u && !s.allPassed u step then .next s
    else
      let s := (s.setRun e g step { r with localDone := true }).inc (updReg Reg.UPD_GRP_DONE_CNT e) 1
      let s := (s.count (60 + e / 2) 0x306 (e % 2) 1).addLog (60 + e / 2) evPass2 g
      let all := (enginesOf u.engines).all fun n => match s.run? n g step with
        | some x => x.localDone
        | none => false
      .next (if all then s.gatherGroup g step else s)
  | _, _ => .next s

/-! ### Step commit (R300) -/

/-- Every group of the program is complete on every engine in a step (R33). -/
def State.groupsDone (s : State) (step : Nat) : Bool :=
  match s.prog with
  | none => false
  | some p => p.ugroups.all fun u => (enginesOf u.engines).all fun n => match s.run? n u.group step with
    | some r => r.localDone || r.skipped
    | none => false

/-- No mirrored record of a step waits for the twin; an exposed module does not wait (R398). -/
def State.allMirrored (s : State) (step : Nat) : Bool :=
  s.alone || (List.range 4).all fun e => (s.engine e).pend.all fun p => p.1.toNat != step

/-- The twin has acknowledged what an engine's mirror flow carried before a mark. -/
def State.flowAcked (s : State) (e mark : Nat) : Bool :=
  !s.mirroring ||
    ((s.txFlow (flowKey s.twin 2 (e % 4))).unacked ++ (s.txFlow (flowKey s.twin 2 (e % 4))).waiting).all
      fun q => decide ((q.eseq + 2 ^ 32 - mark) % 2 ^ 32 < 2 ^ 31)

/-- The copied units of a resync are all acknowledged (R399). -/
def State.resyncAcked (s : State) : Bool := match s.resync with
  | some r => r.units.isEmpty && r.marks.zipIdx.all fun m => s.flowAcked m.2 m.1
  | none => false

/-- The schedule of a step is done: a later step runs, or the phases of this one have ended. -/
def State.stepOver (s : State) (k : Nat) : Bool :=
  decide (k ≤ s.ctl.begun) && (decide (k < s.ctl.step) || s.scheduleDone)

/-- COMMIT_RECORD_WRITE (R300): engine 0 writes the record of the next step to commit. -/
def execCommitRecordWrite (s : State) : Out :=
  if s.engineRuns 0 = false then .next s else
  let k := s.committed + 1
  match s.prog with
  | none => .next s
  | some p =>
    if !p.hasUpd || !s.memPath 6 p.commit 64 || s.ctl.record.isSome || !s.stepOver k || !s.groupsDone k ||
        !s.allMirrored k || s.ctl.failed then .next s
    else
      let wait := s.mirroring && (s.mirrorOff p.commit).isSome && (!s.alone || s.resyncAcked)
      let s := s.updWrite 0 k 0 p.commit
        (leBytes 4 0x434D5431 ++ leBytes 4 k ++ List.replicate 56 0) true false
      .next { s with ctl := { s.ctl with record := some (k, s.now, !wait) } }

/-! ### Twin timeout (R301, R398) -/

/-- TWIN_LOST (R301, R397): a mirrored record, the commit record or the pair check has not been answered
within `UPD_TWIN_TMO`. -/
def execTwinLost (e : Half) (s : State) : Out :=
  let tmo := (s.reg (updReg Reg.UPD_TWIN_TMO e)).toNat
  let late (t : Nat) : Bool := decide (t + tmo < s.now)
  let recs := (s.engine e).pend.any fun p => late p.2.2
  let commit := match s.ctl.record with
    | some (_, t, acked) => decide (e.val = 0) && !acked && late t
    | none => false
  let check := decide (e.val = 0) && s.reads.any fun r => r.use == ReadUse.pairCheck && late r.since
  if !s.hasTwin then .next s
  else if s.mirroring && (recs || commit) then .next (s.loseTwin none)
  else if check then
    .next (({ s with reads := s.reads.filter fun r => r.use != ReadUse.pairCheck }).loseTwin (some 1))
  else .next s

/-! ### Mask re-compaction (R303, R304) -/

/-- Bytes of a group's mask bitmap. -/
def Desc.bitmapBytes (d : Desc) : Nat := cdiv (d.rows * d.cols) 8

/-- A request for a rebuild (R303). -/
def State.recompReq (s : State) (e : Nat) (v : Word) : State :=
  let g := v.toNat % 4096
  let answer (n : Nat) := s.setReg (updReg Reg.UPD_RECOMP_STAT e) (BitVec.ofNat 32 (n * 2 ^ 28 + g))
  if (s.engine e).rebuild.isSome then answer 3
  else match s.ugroup g with
    | none => answer 4
    | some u =>
      if u.kind ≠ 2 ∨ at0 (enginesOf u.engines) 0 ≠ e then answer 4
      else match s.descOf u.wdesc with
        | none => answer 4
        | some d =>
          let a := s.reg48 (updReg Reg.UPD_RECOMP_MASK_LO e) (updReg Reg.UPD_RECOMP_MASK_HI e)
          match s.inAlloc a d.bitmapBytes with
          | some (_, x) =>
            if x.near then answer 5
            else
              let gen := s.recGen u (s.curRec u s.committed)
              let k := s.engine e
              (answer 1).setEngine e { k with rebuild := some ⟨g, a, gen, false, false, 0⟩ }
          | none => answer 5

/-- UPD_RECOMP_REQ (R303). -/
def execUpdRecompReq (_a : Accessor) (e : Half) (v : Word) (s : State) : Out := .next (s.recompReq e v)

/-- The masks of a square that the transposable rule leaves of given rows of set columns: the lowest N of
each row, then of each column the N bits of lowest row. -/
def keepSquare (n m : Nat) (rows : List (List Nat)) : List (List Nat) :=
  let a := rows.map (List.take n)
  a.zipIdx.map fun r => r.1.filter fun c =>
    decide (c < m) && decide (((a.take r.2).filter fun q => q.contains c).length < n)

/-- The set bits of square t of the requested mask, row by row. -/
def State.bitmapSquare (s : State) (d : Desc) (base m t : Nat) : List (List Nat) :=
  (List.range m).map fun u =>
    let p := tnmMaskAt d m (t * m + u)
    (List.range m).filter fun c =>
      let i := p.1
      let j := m * p.2 + c
      let b := i * d.cols + j
      decide (i < d.rows ∧ j < d.cols) && (s.rd.byte (base + b / 8)).getLsbD (b % 8)

/-- A mask from its set columns. -/
def maskOf (l : List Nat) : Nat := (l.map fun c => 2 ^ c).sum

/-- RECOMP_REBUILD (R304): masks of the new generation through the mirror, then the slot map. -/
def execRecompRebuild (e : Half) (s : State) : Out :=
  match (s.engine e).rebuild with
  | none => .next s
  | some b =>
    if b.built ∨ s.regF (updReg Reg.UPD_CTL e) 11 8 = 0 then .next s
    else match s.ugroup b.group with
      | none => .next s
      | some u =>
        match s.descOf u.wdesc with
        | none => .next s
        | some d =>
          if (s.groupReach e u && s.memPath (6 + e.val / 2) b.base d.bitmapBytes) = false then .next s else
          match d.cfmt with
          | .tnm n m =>
            let base := b.base
            let bad := s.rd.anyBad base d.bitmapBytes
            let s := s.readRange base d.bitmapBytes
            let squares := cdiv d.rows m * cdiv d.cols m
            let raw := (List.range squares).map (s.bitmapSquare d base m)
            let kept := raw.map (keepSquare n m)
            let count (l : List (List (List Nat))) := (l.map fun r => (r.map List.length).sum).sum
            let s := s.inc (updReg Reg.UPD_RECOMP_DROP_CNT e) (count raw - count kept)
            let new := u.mdset (b.gen.toNat + 1)
            let bytes := packCodes m (kept.flatMap fun r => r.map maskOf)
            let s := (pieces (bytes.length / 8192) bytes).zipIdx.foldl (fun s p =>
              s.updWrite e 0 u.group (new + 8192 * p.2) p.1 false bad) s
            let old := { d with arrays := d.arrays.set 0 (u.mdset b.gen.toNat, d.acap 0) }
            let map := (List.range u.slots).map fun k =>
              let q := k / n
              match ((kept.getD (q / m) []).getD (q % m) [])[k % n]? with
              | some c =>
                let p := tnmMaskAt d m q
                (match s.rd.tnmSlot old n m p.1 (m * p.2 + c) with
                 | some o => BitVec.ofNat 32 o
                 | none => 0xFFFFFFFF#32)
              | none => 0xFFFFFFFF#32
            let s := s.updWrite e 0 u.group u.mapBase (wordBytes map) false bad
            let mark := (s.txFlow (flowKey s.twin 2 (e % 4))).next.toNat
            .next (s.setEngine e { s.engine e with rebuild := some { b with built := true, mark := mark } })
          | _ => .next s

/-- RECOMP_READY (R304): the twin has acknowledged every mask write. -/
def execRecompReady (e : Half) (s : State) : Out :=
  match (s.engine e).rebuild with
  | some b =>
    .next (if b.built && s.flowAcked e b.mark then
        (s.setEngine e { s.engine e with rebuild := some { b with ready := true } }).setReg
          (updReg Reg.UPD_RECOMP_STAT e) (BitVec.ofNat 32 (2 * 2 ^ 28 + b.group))
      else s)
  | none => .next s

end Sys2Proof.Machine
end

