-- ==== Sys2Proof/Machine/Stepctl.lean ====
section
/-! DEFINITION. The step controller's sequence: step-begin with feeds (R34, R367, R368), the schedule
(R193, R216), completions with replay (R389 to R392), result copies (R370, R371), commit (R33, R300,
R363, R364) and resume (R35). -/

namespace Sys2Proof.Machine

open Sys2Proof

/-- A change of the controller's part. -/
def State.setCtl (s : State) (f : Ctl → Ctl) : State := { s with ctl := f s.ctl }

/-- Bytes copied with their poison by the management cores; the source is read (R264). -/
def State.copyMem (s : State) (src dst n : Nat) : State :=
  let bad := (List.range n).filter fun i => s.rd.bad (src + i)
  let s := (s.readRange src n).put .other dst (Memory.bytes s.mem src n) false
  { s with poison := bad.foldl (fun p i => insertSorted p (poisonUnit (dst + i))) s.poison }

/-- Some byte of a range is poisoned. -/
def State.badRange (s : State) (a n : Nat) : Bool := (s.poisonIn [(a, n)]).isSome

/-! ### Issuing phases (R193) -/

/-- The inputs of an entry are complete: the phases of the schedule that it waits for are done. -/
def State.depsDone (s : State) (sched : List Sched) (e : Sched) : Bool :=
  let ok (st ph : Nat) : Bool :=
    let x : Sched := ⟨st, ph, e.mb⟩
    !sched.contains x || s.ctl.done.contains x
  if e.phase = 1 then ok (e.stage + 1) 1 && ok e.stage 0
  else e.stage == 0 || ok (e.stage - 1) e.phase

/-- Entries go out in the order of the schedule, as far as their inputs are complete. -/
def State.issueMbs (sched : List Sched) : Nat → State → State
  | 0, s => s
  | n + 1, s =>
    match s.ctl.toIssue with
    | [] => s
    | e :: l =>
      if s.depsDone sched e then
        State.issueMbs sched n ((s.setCtl fun c => { c with toIssue := l }).sendMb e false)
      else s

/-- The schedule of the loaded program. -/
def State.schedule (s : State) : List Sched := match s.prog with
  | some p => p.schedule
  | none => []

/-! ### Result copies (R370, R371) -/

/-- The slot of a step in a window is free for it: no other step's result stands there. -/
def Window.slotFree (w : Window) (k : Nat) : Bool :=
  w.results.all fun r => decide (r.1 = k) || decide (r.1 % w.slots ≠ k % w.slots) ||
    r.2 == .released

/-- The result of a step takes a state. Of the slot's earlier results, released by then, the latest stays on
record, so that they stay gone when the step has to run again (R372). -/
def Window.mark (w : Window) (k : Nat) (st : ResState) : Window :=
  let rest := w.results.filter fun r => decide (r.1 ≠ k)
  { w with results := (k, st) :: rest.filter fun r =>
      rest.all fun q => decide (q.1 % w.slots ≠ r.1 % w.slots) || decide (q.1 ≤ r.1) }

/-- The phase, latest first, of the done ones whose segment writes into a range. -/
def State.writerOf (s : State) (a n : Nat) : Option (Sched × Nat) :=
  (s.ctl.done.reverse.find? fun e =>
    match s.stage e.stage with
    | none => false
    | some st =>
      let b : Binding := ⟨0, st.base, st.nfwd, st.nbwd, st.neval⟩
      (List.range (b.count e.phase)).any fun i =>
        (mopOutputs (s.rd.packet (st.base + 80 * (b.first e.phase + i)))).any fun o =>
          match s.descOf o.2 with
          | some d => reachOverlap d.reach [(a, n)]
          | none => false).map fun e =>
    (e, match s.stage e.stage with
      | some st => st.core.val
      | none => 0)

/-- A copy is taken: the source range into the step's slot. A poisoned source is read once more for a second copy;
poisoned again, it is a poisoned output of the phase that wrote it (R392). What its poisoned bytes read as is drawn
once (R372). -/
def State.takeCopy (s : State) (w k : Nat) (x : Window) : State :=
  let bad := s.badRange x.src x.size
  let s := if bad then s.readRange x.src x.size else s
  let s := s.copyMem x.src (x.buf + k % x.slots * x.size) x.size
  let s := { s.setWindow w (some { x.mark k .taken with
               keys := (k, s.freeCtr) :: x.keys.filter fun e => e.1 != k }) with
    freeCtr := s.freeCtr + 2 ^ 48 }
  if bad then
    match s.writerOf x.src x.size with
    | some e =>
      let s := s.setCtl fun c => { c with done := c.done.erase e.1 }
      let r := s.poisonedPhase e.1 e.2
      if r.2 then r.1.setCtl fun c => { c with done := c.done ++ [e.1] } else r.1
    | none => s.breachOpen s.ctlIsl { cls := 1, polder := 6, action := 0, obj := w, addr := x.src }
  else s

/-- A copy of step k can be taken: its slot holds no other result, the step before k has committed, as
nothing of k is to be seen in the host's memory earlier (R34, R370), and the memory of both ends can be reached
from the step controller (R27, R262). -/
def State.copyFree (s : State) (x : Window) (k : Nat) : Bool :=
  decide (k ≤ s.committed + 1) && x.slotFree k && s.memPath s.ctlDie x.src x.size &&
    s.memPath s.ctlDie (x.buf + k % x.slots * x.size) x.size

/-- The copies of a step are taken; one that cannot be taken yet waits. -/
def State.takeCopies (s : State) (k : Nat) : State :=
  (List.range 64).foldl (fun s w =>
    match s.window w with
    | some x =>
      if k < x.first then s
      else if s.copyFree x k then s.takeCopy w k x
      else s.setWindow w (some { x with
        results := (k, .waiting) :: x.results.filter (fun r => r.1 != k),
        waitSince := s.now, stalled := false })
    | none => s) s

/-- No copy waits. -/
def State.copiesTaken (s : State) : Bool :=
  (List.range 64).all fun w => match s.window w with
    | some x => x.results.all fun r => r.2 != .waiting
    | none => true

/-- A result is posted (R370). -/
def State.postResult (s : State) (w k : Nat) : State :=
  match s.window w with
  | some x =>
    let res := x.results.map fun r => if r.1 = k then (k, ResState.posted) else r
    (s.setWindow w (some { x with results := res })).announce s.ctlIsl 3 w [w, k]
  | none => s

/-- A copy that waits in a window is taken when it can be; of a committed step, it is posted (R371). -/
def State.resumeCopy (s : State) (w : Nat) : State :=
  match s.window w with
  | none => s
  | some x =>
    match x.results.find? fun r => r.2 == .waiting with
    | none => s
    | some r =>
      if s.copyFree x r.1 then
        let s := s.takeCopy w r.1 x
        if r.1 ≤ s.committed then s.postResult w r.1 else s
      else s

/-- The copies that waited for a commit are taken (R34, R371). -/
def State.takeWaiting (s : State) : State := (List.range 64).foldl State.resumeCopy s

/-- The copies taken for a step are posted. -/
def State.postStep (s : State) (k : Nat) : State :=
  (List.range 64).foldl (fun s w => match s.window w with
    | some x => if x.results.contains (k, .taken) then s.postResult w k else s
    | none => s) s

/-! ### The schedule of a step -/

/-- The own contributions to every collective can be read where they are needed. -/
def State.srcsReady (s : State) : Bool :=
  match s.prog with
  | none => true
  | some p => (List.range p.colls.length).all fun i => match s.ring i with
    | some R => (List.range 4).all fun h => s.srcReady h R
    | none => true

/-- The collectives of a step start, once: its schedule is done, and the step before it has committed, as what they
make leaves the module or goes to far memory (R34). -/
def State.kickColls (s : State) : State :=
  let k := s.ctl.step
  if s.ctl.collStep < k && s.contribReady k && s.srcsReady then
    (s.setCtl fun c => { c with collStep := k }).startColls k
  else s

/-- The schedule of a step is done: result copies, and the collectives. -/
def State.endSchedule (s : State) : State := (s.takeCopies s.ctl.step).kickColls

/-- Phases go out; a schedule that is done ends. -/
def State.goOn (s : State) : State :=
  let l := s.schedule
  let s := State.issueMbs l (l.length + 1) s
  if s.scheduleDone then s.endSchedule else s

/-- `STEP_BEGIN` to every assigned core (R192). -/
def State.beginCores (s : State) (k : Nat) : State :=
  match s.prog with
  | some p => p.stages.foldl (fun s st => s.sendCmd st.core.val (wStepBegin k)) s
  | none => s

/-! ### Step-begin (R31, R34, R367, R368) -/

/-- The open feeds without a committed slot for a step. -/
def State.missingFeeds (s : State) (k : Nat) : List Nat :=
  (List.range 16).filter fun f => match s.feed f with
    | some x => !x.held.contains (k % x.slots, k, true)
    | none => false

/-- A feed's slot is copied into its target; a poisoned slot is read once more for a second copy, and poison that
stays goes along with its breach (R375, R392). No phase wrote the slot. -/
def State.copyFeed (s : State) (k f : Nat) : State :=
  match s.feed f with
  | none => s
  | some x =>
    match s.alloc x.target.toNat, s.alloc x.ring.toNat with
    | some t, some r =>
      let src := r.base + k % x.slots * t.size
      let s := if s.badRange src t.size then
          (s.readRange src t.size).breachOpen s.ctlIsl { cls := 1, polder := 6, action := 0, obj := f, addr := src }
        else s
      s.copyMem src t.base t.size
    | _, _ => s

/-- Every open feed's slot for a step is copied (R368). -/
def State.copyFeeds (s : State) (k : Nat) : State := (List.range 16).foldl (fun s f => s.copyFeed k f) s

/-- Memory can accept every feed's copy now (R27, R262, R368). -/
def State.feedsReach (s : State) (k : Nat) : Bool :=
  (List.range 16).all fun f => match s.feed f with
    | none => true
    | some x =>
      match s.alloc x.target.toNat, s.alloc x.ring.toNat with
      | some t, some r =>
        s.memPath s.ctlDie (r.base + k % x.slots * t.size) t.size && s.memPath s.ctlDie t.base t.size
      | _, _ => true

/-- The step replay begins anew once nothing runs any more and memory accepts the feeds: their intact slots are
copied again, and step-begin and the whole schedule go out (R368, R390). -/
def State.restartStep (s : State) : State :=
  let k := s.ctl.step
  if !s.ctl.issued.isEmpty || !s.feedsReach k then s
  else
    let s := ((s.forgetResults (k - 1)).setCtl fun c =>
      { c with stepReplay := false, toIssue := s.schedule, done := [] }).copyFeeds k
    (s.beginCores k).goOn

/-- What follows an ended phase: the end of abandoned work, a step replay, or further phases. -/
def State.afterPhase (s : State) : State :=
  if s.ctl.abandoned then
    (if s.ctl.issued.isEmpty then s.setCtl fun c => { c with abandoned := false } else s)
  else if s.ctl.stepReplay then s.restartStep
  else s.goOn

/-- All-gathers of update groups of a step are complete here (R34). -/
def State.gathersDone (s : State) (k : Nat) : Bool :=
  match s.prog with
  | none => true
  | some p => (List.range p.colls.length).all fun i => match s.ring i with
    | some R => R.coll.kind != 0 || s.gatherDone R k
    | none => true

/-- Step-begin k may be sent, feeds apart (R34, R363, R364, R370). A `HOLD` that has taken effect lets only a
step through that had begun before and has to run again. -/
def State.mayBegin (s : State) (k : Nat) : Bool :=
  let limit := (s.reg Reg.GLB_STEP_LIMIT).toNat
  s.mode == 3 && (s.regF Reg.GLB_STATE 3 3 == 0 || decide (k ≤ s.ctl.mustRun)) &&
    (limit == 0 || decide (k ≤ limit)) &&
    s.scheduleDone && !s.ctl.failed && s.copiesTaken && decide (s.ctl.step ≤ s.ctl.collStep) &&
        (k == 1 || s.gathersDone (k - 1)) &&
    decide (k ≤ s.committed + 2)

/-- Step k begins in the step controller's own island (R31), and its sending is logged as the cause of what
follows (R32). -/
def State.beginHere (s : State) (k : Nat) : State :=
  let s := s.islandStep s.ctlIsl (BitVec.ofNat 32 k)
  (s.setCtl fun c => { c with beginCause := some (s.nextEvent s.ctlIsl) }).addLog s.ctlIsl evBeginSent k

/-- Step k begins: step-begin to the cores and the other islands, and the schedule. -/
def State.beginStep (s : State) (k : Nat) : State :=
  let s := s.beginHere k
  let s := s.setCtl fun c =>
    { c with begun := k, sentMax := max c.sentMax k, mustRun := max c.mustRun k, step := k,
             toIssue := s.schedule, issued := [], done := [], phaseReplays := [],
             stepReplays := 0, collSent := false, feedWait := none, feedStalled := false,
             got := c.got.filter (fun g => decide (k ≤ g.1 + 2)),
             islMsgs := c.islMsgs ++ ((List.range' 54 26).filter (· != s.ctlIsl)).map
               fun i => ⟨i, BitVec.ofNat 32 k, !s.islandPath i⟩ }
  (s.beginCores k).goOn

/-- STEP_BEGIN_ISSUE (R23, R31, R34, R368, R390): the next step's; of a step replay that waits, the replayed
step's; and the collectives that have waited start. -/
def execStepBeginIssue (s : State) : Out :=
  let k := s.ctl.begun + 1
  if s.ctl.stepReplay && !s.ctl.abandoned then .next s.restartStep
  else if s.ctl.collStep < s.ctl.step then .next s.kickColls
  else if s.prog.isNone || !s.mayBegin k then .next s
  else if !(s.missingFeeds k).isEmpty then
    .next (if s.ctl.feedWait.isSome then s else s.setCtl fun c => { c with feedWait := some s.now })
  else if !s.feedsReach k then .next s
  else .next ((s.copyFeeds k).beginStep k)

/-- FEED_STALL (R368): the wait exceeds 1 ms, once for the step. -/
def execFeedStall (s : State) : Out :=
  let k := s.ctl.begun + 1
  match s.ctl.feedWait, s.missingFeeds k with
  | some t, f :: _ =>
    if t + 1000 < s.now ∧ s.ctl.feedStalled = false ∧ s.mode = 3 then
      .next (((s.setCtl fun c => { c with feedStalled := true }).inc Reg.GLB_FEED_STALL_CNT 1).announce
        s.ctlIsl 4 f [f, k])
    else .next s
  | _, _ => .next s

/-! ### Completions (R193, R389 to R392) -/

/-- A phase counts as done. -/
def State.phaseEnded (s : State) (e : Sched) : State :=
  s.setCtl fun c => { c with done := c.done ++ [e] }

/-- A phase that a poisoned `LEN_T` cut short is replayed (R212, R392); behind an open window it waits (R408). -/
def State.lenReplay (s : State) (e : Sched) (c : Core) : State :=
  let held := s.defers 1 (polderOfCore c)
  let s := s.breachOpen c (BreachInfo.by { cls := 1, polder := polderOfCore c, action := 1, obj := e.stage }
    (s.phaseEvent c e.phase e.mb.toNat (s.island c).step))
  if held then s.setCtl fun x => { x with replayWait := x.replayWait ++ [(c, e)] } else s.replayPhase e

/-- A phase has ended: its poison decides (R389, R392, R212). -/
def State.phaseResult (s : State) (e : Sched) (c : Core) (poison lenBad : Bool) : State :=
  if poison || (lenBad && !(s.accumOf e).isEmpty) then
    let r := s.poisonedPhase e c
    if r.2 then r.1.phaseEnded e else r.1
  else if lenBad && s.replaysOf e == 0 then s.lenReplay e c
  else s.phaseEnded e

/-- A `PHASE_DONE` of a core: the oldest phase under way on it has ended. -/
def State.phaseDone (s : State) (c : Core) (w : BitVec 64) : State :=
  let lenBad := s.ctl.lenPoison.contains c.val
  let s := s.setCtl fun x =>
    { x with lastCmd := SMap.set (fun _ => []) x.lastCmd c [], lenPoison := x.lenPoison.erase c.val }
  match s.ctl.issued.find? fun i => i.core == c with
  | none => s
  | some i =>
    let s := s.setCtl fun x => { x with issued := x.issued.erase i }
    if s.ctl.abandoned || s.ctl.stepReplay then s.afterPhase
    else (s.phaseResult i.entry c (fld w.toNat 17 17 = 1) lenBad).afterPhase

/-- A poisoned completion word is discarded with a breach record, and the step controller resends the last
command to the core that has no completion (R147, R387). -/
def State.cplPoison (s : State) (c : Nat) : State :=
  let s := s.qPoison c 1
  let held := s.defers 2 (polderOfCore c)
  let s := s.breachOpen s.ctlIsl { cls := 2, polder := polderOfCore c, action := 0, obj := c }
  if held then s else s.resendCmd c

/-- PHASE_DONE_RECEIVE (R192, R193, R363, R370, R389): the step controller takes the oldest word of `CPLQ`,
once the crossings on its way are ready; a `PHASE_DONE` ends a phase, the completion of a macro-operation
or a refused command is noted. `bad` is the word's parity (R147). -/
def execPhaseDoneReceive (rd : CoreRead) (s : State) : Out :=
  match (s.core rd.core).cplq with
  | [] => .next s
  | w :: rest =>
    if s.corePath rd.core then
      let s := s.setCore rd.core { s.core rd.core with cplq := rest }
      if readBad rd then .next (s.cplPoison rd.core)
      else
        let s := s.setCtl fun x => { x with seen := (rd.core, w) :: x.seen }
        .next (if fld w.toNat 7 0 = 2 then s.phaseDone rd.core w else s)
    else .next s

/-! ### Result copies that waited -/

/-- RESULT_COPY_RESUME (R371). -/
def execResultCopyResume (w : Fin 64) (s : State) : Out :=
  .next (if s.mode = 3 ∨ s.mode = 4 then s.resumeCopy w else s)

/-- RESULT_STALL (R370): once for a step whose copy waits for a release more than 1 ms. -/
def execResultStall (s : State) : Out :=
  let late (w : Nat) : Bool := match s.window w with
    | some x => x.results.any (fun r => r.2 == .waiting && !x.slotFree r.1) && !x.stalled &&
        decide (x.waitSince + 1000 < s.now)
    | none => false
  if (List.range 64).any late then
    let s := (List.range 64).foldl (fun s w => match s.window w with
      | some x => s.setWindow w (some { x with stalled := true })
      | none => s) s
    .next (s.inc Reg.GLB_RESULT_STALL_CNT 1)
  else .next s

/-! ### Commit (R33, R300, R363, R364) -/

/-- The slots of a committed step become free (R367). -/
def State.freeFeeds (s : State) (k : Nat) : State :=
  (List.range 16).foldl (fun s f => match s.feed f with
    | some x => s.setFeed f (some { x with held := x.held.filter fun h => decide (k < h.2.1) })
    | none => s) s

/-- The module holds when nothing more is to run (R363, R364). -/
def State.holdCheck (s : State) : State :=
  let limit := (s.reg Reg.GLB_STEP_LIMIT).toNat
  if s.mode ≠ 3 ∨ s.committed < s.ctl.mustRun then s
  else if s.regF Reg.GLB_STATE 3 3 = 1 then s.enterHolding 1
  else if limit ≠ 0 ∧ s.committed = limit then s.enterHolding 2
  else s

/-- Step k is committed; the twin's acknowledgement is the cause (R32). Copies that wait are taken now, and the
collectives of the step after it start if its schedule is done (R34). -/
def State.commitStep (s : State) (k : Nat) : State :=
  let s := (s.setReg Reg.GLB_STEP_NUM (BitVec.ofNat 32 k)).setCtl fun c =>
    { c with record := none, resent := [], tainted := c.tainted.filter fun t => decide (k < t.1) }
  let s := { s with norms := s.norms.filter fun x => decide (k < x.step) }
  let s := (((s.announceBy s.ctlIsl 2 k [k] s.ctl.ackCause).setCtl fun c =>
    { c with ackCause := none }).count 60 0x345 0 1).count 61 0x345 0 1
  ((s.freeFeeds k).postStep k).takeWaiting.kickColls.holdCheck

/-- The next step may commit. -/
def State.committable (s : State) : Bool :=
  let k := s.committed + 1
  match s.prog with
  | none => false
  | some p =>
    if !p.hasUpd then s.stepOver k && !s.ctl.failed
    else match s.ctl.record with
      | some (j, _, acked) => decide (j = k) && (acked || (s.alone && !s.resyncAcked)) && !s.ctl.failed
      | none => false

/-- STEP_COMMIT (R33, R300, R363). -/
def execStepCommit (s : State) : Out :=
  .next (if s.committable then s.commitStep (s.committed + 1) else s)

/-! ### Resume after a failed commit (R35, R302, R390) -/

/-- The controller goes back to the last committed step. -/
def State.resumeWork (s : State) : State := s.giveUp.rewriteAll

/-- STEP_RESUME (R35, R302, R390): a step that cannot commit is given up, once the nodes that it needs
have been heard from; step-begin then names the step after the last committed one again. -/
def execStepResume (s : State) : Out :=
  if s.ctl.failed && decide (s.mode = 3) && decide (s.committed < s.ctl.begun) &&
      s.txFlows.all (fun f => !f.2.lost) then
    .next (s.resumeWork.inc Reg.FLT_REPLAY_STEP_CNT 1)
  else .next s

end Sys2Proof.Machine
end

