-- ==== Sys2Proof/Machine/Fabric.lean ====
section
/-! DEFINITION. What arrives for this module from the fabric: memory windows (R327, R343, R395), READs of
its own and their answers (R323, R396, R397, R404), mirror traffic (R299, R339), hellos and the resync
(R318, R339, R399); and far-memory accesses with row retirement and reconstruction (R263 to R265, R396). -/

namespace Sys2Proof.Machine

open Sys2Proof

/-! ### Windows and READs -/

/-- Fabric windows of an edge die that hold a range. -/
def State.winsOf (s : State) (e a n : Nat) : List Nat :=
  (List.range 4).filter fun k =>
    let base := s.reg48 (Reg.CLV_WIN_BASE_LO e k) (Reg.CLV_WIN_BASE_HI e k)
    let size := s.reg48 (Reg.CLV_WIN_SIZE_LO e k) (Reg.CLV_WIN_SIZE_HI e k)
    decide (size ≠ 0 ∧ base ≤ a ∧ a + n ≤ base + size)

/-- A range has a byte in window 3 of an edge die. -/
def State.inWin3 (s : State) (e a n : Nat) : Bool :=
  overlap a n (s.reg48 (Reg.CLV_WIN_BASE_LO e 3) (Reg.CLV_WIN_BASE_HI e 3))
    (s.reg48 (Reg.CLV_WIN_SIZE_LO e 3) (Reg.CLV_WIN_SIZE_HI e 3))

/-- A node may write, or read, a range: in a window; what lies in window 3 of a module with a twin is for the
twin's READs alone, whatever other window holds it too (R395). -/
def State.permitted (s : State) (e src a n : Nat) (rd : Bool) : Bool :=
  populated a && populated (a + n - 1) && !(s.winsOf e a n).isEmpty &&
    (!(s.hasTwin && s.inWin3 e a n) || (rd && src == s.twin))

/-- WRITE (R327, R340); held while the range cannot be reached from the port's edge die (R27, R262). -/
def execWrite (p : Port) (s : State) : Out :=
  match s.takeRx p 0x10 with
  | none => .next s
  | some (q, t) =>
    let addr := q.ops 5 0
    let a := t.e2eAccept p q
    let u := a.2
    if t.permitted (p / 8) q.src addr q.len false && !t.memPath (6 + p / 8) addr q.len then .next s
    else if !a.1 then .next u
    else if u.permitted (p / 8) q.src addr q.len false then .next (u.put .other addr q.payload false)
    else .next (u.refusePkt p 7 q false)

/-- READ (R323, R327, R340): the bytes as they are now; held while the range cannot be reached (R27, R262). Data with
poison is answered by an empty `READ_RESP` (DESIGN CHOICE, log entry 44). -/
def execRead (p : Port) (s : State) : Out :=
  match s.takeRx p 0x11 with
  | none => .next s
  | some (q, t) =>
    let addr := q.ops 5 0
    let n := q.ops 7 6
    let a := t.e2eAccept p q
    let u := a.2
    if t.permitted (p / 8) q.src addr n true && !t.memPath (6 + p / 8) addr n then .next s
    else if !a.1 then .next u
    else if n < 4 ∨ 8192 < n ∨ n % 4 ≠ 0 then .next (u.refusePkt p 1 q false)
    else if u.permitted (p / 8) q.src addr n true then
      let data := if u.badRange addr n then [] else Memory.bytes u.mem addr n
      .next ((u.readRange addr n).e2eSend (p / 8) q.src 3 (q.fld 11 10) 0x12
        (q.ops 9 8 * 2 ^ 64) data)
    else .next (u.refusePkt p 7 q false)

/-- A READ of this module goes out over the ordinary routes. -/
def State.sendRead (s : State) (e node addr n : Nat) (use : ReadUse) : State :=
  let tag := s.nextTag
  let r : ReadOut := ⟨tag, BitVec.ofNat 16 node, n, use, s.now⟩
  ({ s with nextTag := tag + 1, reads := s.reads ++ [r] }).e2eSend e node 0 0 0x11
    (addr + n * 2 ^ 48 + tag.toNat * 2 ^ 64) []

/-- The place of a mirrored address in the twin's memory (R249, R395). -/
def State.twinAddr (s : State) (a : Nat) : Option Nat :=
  (s.mirrorOff a).map (s.reg48 Reg.GLB_MIRROR_BASE_LO Reg.GLB_MIRROR_BASE_HI + ·)

/-- The poisoned bursts of committed mirrored state within some bytes (R396). -/
def State.lostBursts (s : State) (a n : Nat) : List Nat :=
  ((List.range (cdiv n 32)).map fun i => a + 32 * i).filter fun b => s.poison.contains b && s.committedAt b

/-- The channel's recovery window closes once its reconstruction is complete (R407): no READ is out, and no burst of
committed mirrored state is poisoned. -/
def State.closeChan (s : State) (ch : Nat) : State :=
  let more := s.reads.any fun r => match r.use with
    | .reconstruct b => chanOf b == ch
    | _ => false
  if more || s.poison.any fun u => decide (u < farSize) && chanOf u == ch && s.committedAt u then s
  else s.closeWindow 7 ch

/-- Bytes of a row come back from the twin (R396): each poisoned burst of committed state among them is written back.
When a granule is answered without data, some burst of it is poisoned at the twin, and each burst that this module
needs is asked for alone (log entry 103); one that the twin has poisoned is lost (R409). -/
def State.burstBack (s : State) (addr n : Nat) (data : List Byte) : State :=
  let ch := chanOf addr
  let l := s.lostBursts addr n
  if !data.isEmpty then
    (l.foldl (fun s b => (s.put .other b ((data.drop (b - addr)).take 32) false).inc Reg.FLT_RECON_CNT 1) s).closeChan ch
  else if 32 < n then
    (l.foldl (fun s b => match s.twinAddr b with
      | some t => s.sendRead (edgeOfChan ch) s.twin t 32 (.reconstruct b)
      | none => s) s).closeChan ch
  else if l.isEmpty then s.closeChan ch
  else (s.closeChan ch).pairLoss (60 + edgeOfChan ch) none (polderOfHalf (halfOfChan ch)) ch addr

/-- Restored bytes arrive (R404, R409). -/
def State.restoreBack (s : State) (addr : Nat) (data : List Byte) : State :=
  match s.restore with
  | none => s
  | some r =>
    if data.isEmpty then s.failRestore none addr
    else
      ({ s with restore := some { r with left := r.left.filter fun x => x.1 != addr } }).put .other addr
        data false

/-- The twin's copy of the commit record arrives (R397). -/
def State.pairBack (s : State) (data : List Byte) : State :=
  match s.prog with
  | none => s
  | some p =>
    let own := Memory.bytes s.mem p.commit 64
    let step (l : List Byte) := leNat ((l.drop 4).take 4)
    let magic (l : List Byte) := leNat (l.take 4)
    let zero := s.committed = 0 ∧ data.all (· == 0) ∧ own.all (· == 0)
    if data.length = 64 ∧ ((magic data = 0x434D5431 ∧ magic own = magic data ∧ step own = step data) ∨ zero)
    then s
    else s.loseTwin (some 1)

/-- READ_RESP (R323, R340). -/
def execReadResp (p : Port) (s : State) : Out :=
  match s.takeRx p 0x12 with
  | none => .next s
  | some (q, s) =>
    let a := s.e2eAccept p q
    let s := a.2
    if !a.1 then .next s
    else match s.reads.find? fun r => r.tag.toNat == q.ops 9 8 && r.node.toNat == q.src with
      | none => .next (s.refusePkt p 4 q false)
      | some r =>
        let s := { s with reads := s.reads.erase r }
        let data := if q.len = r.bytes then q.payload else []
        match r.use with
        | .reconstruct addr => .next (s.burstBack addr r.bytes data)
        | .restore addr => .next (s.restoreBack addr data)
        | .pairCheck => .next (s.pairBack data)

/-! ### Mirror traffic (R299, R339) -/

/-- MWR (R299, R339, R340): written into the mirror region; a record is acknowledged; held while the region cannot
be reached (R27, R262). A commit record is
the one of 64 bytes (DEDUCED, log entry 45). -/
def execMwr (p : Port) (s : State) : Out :=
  match s.takeRx p 0x30 with
  | none => .next s
  | some (q, t) =>
    let a := t.e2eAccept p q
    let off := q.ops 5 0
    let base := s.reg48 Reg.GLB_MIRROR_BASE_LO Reg.GLB_MIRROR_BASE_HI
    let size := s.reg48 Reg.GLB_MIRROR_SIZE_LO Reg.GLB_MIRROR_SIZE_HI
    let held := decide (off + q.len ≤ size) && !s.memPath (6 + p / 8) (base + off) q.len
    if held then .next s else
    let s := a.2
    if !a.1 then .next s
    else if s.hasTwin = false ∨ q.src ≠ s.twin ∨ size < off + q.len then .next (s.refusePkt p 7 q false)
    else
      let s := s.put .other (base + off) q.payload false
      if q.ops 14 14 = 1 then
        let e := q.ops 6 6
        .next (s.e2eSend (p / 8) q.src 3 (e % 4) 0x31
          (e * 2 ^ 48 + q.ops 11 8 * 2 ^ 64 + q.ops 13 12 * 2 ^ 96 +
            (decide (q.len = 64)).toNat * 2 ^ 112) [])
      else .next s

/-- The pair is in sync again (R399); the window of a restore that is complete closes with it (R407). -/
def State.inSync (s : State) : State :=
  let s := (({ s with resync := none }).setReg48 Reg.FLT_RESYNC_LEFT_LO Reg.FLT_RESYNC_LEFT_HI 0).setRegF
    Reg.FLT_STAT 31 30 0 |>.closeWindow 0xC 0
  if s.restore.isSome then s else s.closeWindow 0xC 0xFFFF

/-- MACK (R299, R300, R340). -/
def execMack (p : Port) (s : State) : Out :=
  match s.takeRx p 0x31 with
  | none => .next s
  | some (q, s) =>
    let a := s.e2eAccept p q
    let s := a.2
    let e := q.ops 6 6 % 4
    let step := q.ops 11 8
    if !a.1 then .next s
    else if q.ops 14 14 = 1 then
      match s.ctl.record with
      | some (k, t, false) =>
        if k = step then
          let s := (s.setCtl fun c => { c with record := some (k, t, true),
                                               ackCause := some (s.nextEvent (linkIsland p)) }).addLog
            (linkIsland p) evTwinAck step
          let s := s.count (60 + e / 2) 0x305 (e % 2) 1
          .next (if s.regF Reg.FLT_STAT 31 31 = 1 ∧ s.resyncAcked = true then s.inSync else s)
        else .next (s.refusePkt p 4 q false)
      | _ => .next (s.refusePkt p 4 q false)
    else
      let k := s.engine e
      match k.pend.find? fun x => x.1.toNat == step && x.2.1 == q.ops 13 12 with
      | some x =>
        .next ((s.setEngine e { k with pend := k.pend.erase x }).count (60 + e / 2) 0x305 (e % 2) 1)
      | none => .next (s.refusePkt p 4 q false)

/-! ### Hello and resync (R318, R339, R399) -/

/-- The mirrored ranges of a group by the engine that owns them: of the banks and row records its sub-shard; the
record pair and the mask sets belong to the group's first engine (DEDUCED, log entry 158). -/
def State.ownedRanges (s : State) (u : UGroup) : List (Half × Nat × Nat) :=
  let d := max 1 u.rowD
  let md := match s.descOf u.wdesc with
    | some w => w.arrayNeed 0
    | none => 0
  let es := enginesOf u.engines
  let first : Half := Fin.ofNat 4 (at0 es 0)
  es.flatMap (fun n =>
    let r := u.range n
    let e : Half := Fin.ofNat 4 n
    ((List.range 2).flatMap fun j => (List.range u.states).map fun a =>
      (e, u.stateAt j a (r.1 * d), 4 * ((r.2 - r.1) * d))) ++
      (if u.kind = 1 then [(e, u.rowRec r.1 0, 16 * (r.2 - r.1))] else [])) ++
    (first, u.recBase, 64) :: (if u.kind = 2 then [(first, u.mdset0, md), (first, u.mdset1, md)] else [])

/-- Every range of the update groups with its owner. -/
def State.allOwned (s : State) : List (Half × Nat × Nat) := match s.prog with
  | some p => p.ugroups.flatMap s.ownedRanges
  | none => []

/-- Insertion by address. -/
def insertRange (x : Nat × Nat) : List (Nat × Nat) → List (Nat × Nat)
  | [] => [x]
  | y :: l => if x.1 < y.1 then x :: y :: l else y :: insertRange x l

/-- What ranges in ascending order leave of [lo, hi). -/
def gapsIn (hi : Nat) : Nat → List (Nat × Nat) → List (Nat × Nat)
  | lo, [] => if lo < hi then [(lo, hi - lo)] else []
  | lo, x :: l => (if lo < x.1 then [(lo, x.1 - lo)] else []) ++ gapsIn hi (max lo (x.1 + x.2)) l

/-- A range in units of 64 KiB. -/
def unitsIn (x : Half × Nat × Nat) : List (Half × Nat × Nat) :=
  (List.range (cdiv x.2.2 0x10000)).map fun i =>
    (x.1, x.2.1 + 0x10000 * i, min 0x10000 (x.2.2 - 0x10000 * i))

/-- The units of a resync (R399): each engine's ranges, and for engine 0 what they leave of the `MIRROR`
allocations. -/
def State.mirrorUnits (s : State) : List (Half × Nat × Nat) :=
  let own := s.allOwned.filter fun x => (s.mirrorOff x.2.1).isSome
  let rest := s.allocs.flatMap fun x => match x.2 with
    | some al =>
      if al.mirror then
        let l := (own.filter fun o => overlap o.2.1 o.2.2 al.base al.size).foldl (fun l o => insertRange o.2 l) []
        (gapsIn (al.base + al.size) al.base l).map fun g => ((0 : Half), g.1, g.2)
      else []
    | none => []
  (own ++ rest).flatMap unitsIn

/-- Bytes that the resync has still to copy are shown. -/
def State.showLeft (s : State) (l : List (Half × Nat × Nat)) : State :=
  s.setReg48 Reg.FLT_RESYNC_LEFT_LO Reg.FLT_RESYNC_LEFT_HI (l.map fun u => u.2.2).sum

/-- The `ESEQ` that each mirror flow has reached. -/
def State.flowMarks (s : State) : List Nat :=
  (List.range 4).map fun e => (s.txFlow (flowKey s.twin 2 e)).next.toNat

/-- The resync begins (R399). -/
def State.startResync (s : State) : State :=
  let l := s.mirrorUnits
  (({ s with resync := some ⟨l, s.flowMarks⟩ }).setRegF Reg.FLT_STAT 30 30 (!l.isEmpty).toNat).showLeft l

/-- A twin port has a partner: the twin, or a breach (R339). -/
def State.twinPartner (s : State) (p node : Nat) : State :=
  if !s.isTwinPort p then s
  else if node ≠ s.twin then s.portLost p
  else if s.regF Reg.FLT_STAT 31 31 = 1 ∧ s.resync.isNone then s.startResync
  else s

/-- LINK_CTL_HELLO (R318, R325, R339, R342): the last step of training; a hello on a port that is up
resets its credits and is answered. -/
def execLinkCtlHello (p : Port) (s : State) : Out :=
  match s.takeRx p 0x40 with
  | none => .next s
  | some (q, t) =>
    if q.ops 0 0 ≠ 0 then .next s
    else
      let node := q.ops 3 2
      let credits := (List.range 4).map fun v => q.ops (5 + 2 * v) (4 + 2 * v)
      let st := t.linkState p
      if st = 1 ∧ (t.link p).trainStep = 3 then
        .next (((t.setRegF (portReg p 0) 15 0 node).linkUp p credits).twinPartner p node)
      else if st = 2 then
        .next ((((t.setRegF (portReg p 0) 15 0 node).linkUp p credits).sendCtl p 0).twinPartner p node)
      else .next t

/-- A piece of a unit goes to the twin; poisoned bursts are left out (log entry 46). -/
def State.copyPiece (s : State) (e a n : Nat) : State :=
  let send (s : State) (a n : Nat) : State := match s.mirrorOff a with
    | some off => s.sendMwr e 0 0 off (Memory.bytes s.mem a n) false
    | none => s
  let s := s.readRange a n
  if s.badRange a n then
    (List.range (cdiv n 32)).foldl (fun s i =>
      if s.badRange (a + 32 * i) 32 then s else send s (a + 32 * i) (min 32 (n - 32 * i))) s
  else send s a n

/-- RESYNC_UNIT_COPY (R399): the engine's next unit; it waits while the engine does not run or the unit cannot be
reached (R27, R262, R459). -/
def execResyncUnitCopy (e : Half) (s : State) : Out :=
  match s.resync with
  | none => .next s
  | some r =>
    match r.units.find? fun u => u.1 == e with
    | none => .next s
    | some u =>
      let a := u.2.1
      let n := u.2.2
      if (s.engineRuns e && s.memPath (6 + e.val / 2) a n) = false then .next s else
      let s := (List.range (cdiv n 8192)).foldl (fun s i =>
        s.copyPiece e (a + 8192 * i) (min 8192 (n - 8192 * i))) s
      let left := r.units.erase u
      let s := { s with resync := some ⟨left, s.flowMarks⟩ }
      .next ((if left.isEmpty then s.setRegF Reg.FLT_STAT 30 30 0 else s).showLeft left)

/-! ### Far memory (R263 to R265, R396) -/

/-- The group whose working copy an address lies in. -/
def State.copyAt (s : State) (a : Nat) : Option UGroup :=
  match s.prog with
  | none => none
  | some p => p.ugroups.find? fun u => match s.descOf u.wdesc with
    | some d => reachOverlap d.reach [(a / 32 * 32, 32)]
    | none => false

/-- A row waits for retirement, lower row first (R265). -/
def State.queueRetire (s : State) (a : Nat) : State :=
  let k := s.chan (chanOf a)
  s.setChan (chanOf a) { k with retireQ := insertSorted k.retireQ (rowOf a) }

/-- The recovery window of a channel's reconstruction opens, once (R407). -/
def State.openChan (s : State) (ch : Nat) : State :=
  if s.recWindows.any fun w => w.cls == 7 && w.obj.toNat == ch then s
  else s.openWindow 7 (polderOfHalf (halfOfChan ch)) ch

/-- A burst is read with what its check bits say (R264, R265, R409). -/
def State.readBurst (s : State) (a : Nat) (err : EccErr) : State :=
  let ch := chanOf a
  let e := edgeOfChan ch
  match err with
  | .single =>
    let s := (s.inc (Reg.FMEM_CE_CNT e) 1).count (60 + e) 0x282 (ch % 96) 1
    let k := s.chan ch
    let n := SMap.get (fun _ => 0) k.ceRow (rowOf a) + 1
    let s := s.setChan ch { k with ceRow := SMap.set (fun _ => 0) k.ceRow (rowOf a) n }
    let thr := (s.reg (Reg.FMEM_CE_ROW_THR e)).toNat
    let s := if thr ≠ 0 ∧ thr ≤ n then s.queueRetire a else s
    if s.poison.contains a then s.noteBurst a 2 else s
  | .none => if s.poison.contains a then s.noteBurst a 2 else s
  | bad =>
    let s := ({ s with poison := insertSorted s.poison a }).noteBurst a
      (if bad = EccErr.addrMismatch then 1 else 0)
    let s := s.queueRetire a
    if s.committedAt a then
      (if s.alone then
        (if s.regF Reg.FLT_STAT 29 29 = 1 then s
         else s.pairLoss (60 + e) none (polderOfHalf (halfOfChan ch)) ch a)
       else s.openChan ch)
    else s

/-- A channel serves a request: a write by a requester that the command does not name, which mirrors
nothing (R249), or a read. -/
def State.serveReq (s : State) (q : FarReq) : State :=
  match q.wr with
  | some (bytes, bad) => s.put .other q.addr (bytes.take 32) bad
  | none => (s.countAccess false q.addr 32).readBurst q.addr q.err

/-- A channel that serves takes what its queue holds, in arrival order (R262, R269). -/
def State.serveChan (s : State) (ch : Nat) : State :=
  let k := s.chan ch
  if k.queue.isEmpty || !s.chanServes ch then s
  else k.queue.foldl State.serveReq (s.setChan ch { k with queue := [] })

/-- FMEM_ACCESS (R263, R264): a 32-byte burst. It follows what was held before; a channel that does not serve holds
it, and while its queue is full the request waits at its requester (R262, R267, R269). -/
def execFmemAccess (addr : Addr) (wr : Option (List Byte × Bool)) (err : EccErr) (s : State) : Out :=
  let a := addr.toNat / 32 * 32
  let ch := chanOf a
  let k := s.chan ch
  if farSize ≤ a then .fault (.unpopulated a)
  else if s.chanServes ch then .next ((s.serveChan ch).serveReq ⟨a, wr, err⟩)
  else .next (s.setChan ch { k with queue := k.queue ++ [⟨a, wr, err⟩] })

/-- FMEM_PATROL_SCRUB (R264). -/
def execFmemPatrolScrub (addr : Addr) (err : EccErr) (s : State) : Out :=
  let a := addr.toNat / 32 * 32
  if farSize ≤ a then .fault (.unpopulated a)
  else .next (if s.chanServes (chanOf a) then s.readBurst a err else s)

/-- ROW_RETIRE (R265): the lowest row that waits on the channel. DESIGN CHOICE: the correctable count of the row starts
again at 0, retired or not (log entry 160). -/
def execRowRetire (ch : Chan) (s : State) : Out :=
  let k := s.chan ch
  match k.retireQ with
  | [] => .next s
  | row :: l =>
    let e := edgeOfChan ch
    let pol := polderOfHalf (halfOfChan ch)
    let addr := (row * 8 * 192 + ch.val) * 256
    let s := s.setChan ch { k with retireQ := l, ceRow := SMap.set (fun _ => 0) k.ceRow row 0 }
    let free := s.regF (chanReg ch) 26 16
    if free = 0 then
      .next ((s.inc (Reg.FMEM_RETIRE_FULL_CNT e) 1).breachOpen (60 + e)
        { cls := 8, polder := pol, action := 0, obj := ch, addr := addr })
    else
      let k := s.chan ch
      let map := (k.remap.filter fun x => x.1 != row) ++ [(row, k.spareUsed)]
      let s := s.setChan ch { k with remap := map, spareUsed := k.spareUsed + 1 }
      let s := (s.setRegF (chanReg ch) 26 16 (free - 1)).inc (Reg.FMEM_RETIRE_CNT e) 1
      .next ({ s with healthDirty := true }.breachOpen (60 + e)
        { cls := 7, polder := pol, action := 7, obj := ch, addr := addr })

/-- The granules of the row of an address that lie in `MIRROR` allocations and are not asked for yet (R265, R396). -/
def State.rowAsk (s : State) (a : Nat) : List Nat :=
  (((List.range 8).map fun i => (rowOf a * 8 + i) * 192 * 256 + chanOf a * 256).filter fun g =>
    (s.twinAddr g).isSome).filter fun g => !s.reads.any fun r => match r.use with
      | .reconstruct b => decide (g ≤ b ∧ b < g + 256)
      | _ => false

/-- BURST_RECONSTRUCT (R302, R396): for a poisoned burst of committed mirrored state the row's bytes are asked of
the twin, a READ for each of its granules; a poisoned working copy is written again from its current bank. -/
def execBurstReconstruct (addr : Addr) (s : State) : Out :=
  let a := addr.toNat / 32 * 32
  if farSize ≤ a then .fault (.unpopulated a)
  else if !s.poison.contains a then .next s
  else if s.committedAt a && !s.alone then
    let ch := chanOf a
    .next ((s.rowAsk a).foldl (fun s g => match s.twinAddr g with
      | some t => s.sendRead (edgeOfChan ch) s.twin t 256 (.reconstruct g)
      | none => s) (s.openChan ch))
  else match s.copyAt a with
    | some u => .next (s.rewriteGroup u s.committed)
    | none => .next s

end Sys2Proof.Machine
end

