-- ==== Sys2Proof/Machine/Faults.lean ====
section
/-! DEFINITION. Failures declared (R393, R394, R401), what waited behind a recovery window (R408), the
fatal dump (R411, R412) and the restore of a replacement module (R403, R404). -/

namespace Sys2Proof.Machine

open Sys2Proof

/-! ### Stage-core failures (R393) -/

/-- A core's watchdog has expired (R393): the core runs a segment and has shown no progress for `FLT_CORE_WDOG`; the
watchdog is stopped while a thermal gate stops the core (R455). -/
def State.wdogExpired (s : State) (c : Nat) : Bool :=
  (s.core c).seg.isSome && !(s.core c).thermGated &&
    decide ((s.core c).progress + (s.reg Reg.FLT_CORE_WDOG).toNat ≤ s.now)

/-- CORE_WATCHDOG (R393, R455). -/
def execCoreWatchdog (c : Core) (s : State) : Out :=
  .next (if s.wdogExpired c && !(s.core c).failed then s.coreFail s.ctlIsl none c else s)

/-- A cause of R393 holds for a core. That an island does not complete R27 in time is told by the command:
here it has not completed it although its die's NoC has. -/
def State.coreFailed (s : State) (c : Core) : CoreFailCause → Bool
  | .underrun => decide (s.regF (Reg.CORE_Q_STAT c) 7 0 ≠ 0)
  | .watchdog => s.wdogExpired c
  | .resync => !(s.island c).ready && (s.island (54 + c.val / 9)).ready
  | .replayLimit => s.ctl.issued.any fun x => x.core == c && decide (s.replayMax < s.replaysOf x.entry)

/-- The island that detects a core's failure (R385): an underrun is seen in the core, all else by the step
controller. -/
def State.failIsl (s : State) (c : Core) : CoreFailCause → Nat
  | .underrun => c
  | _ => s.ctlIsl

/-- CORE_FAIL (R393, R394): the breach and the takeover, once for a core. -/
def execCoreFail (c : Core) (cause : CoreFailCause) (s : State) : Out :=
  .next (if s.coreFailed c cause && !(s.core c).failed && !(s.core c).retired then
    s.coreFail (s.failIsl c cause) none c else s)

/-- A phase that was cut short or poisoned starts anew: with no accumulating output it is replayed, else
the rules of an accumulating segment apply (R389). -/
def State.rerun (s : State) (e : Sched) : State :=
  match s.stage e.stage with
  | none => s
  | some st =>
    if (st.accum.getD e.phase []).isEmpty then s.replayPhase e
    else
      let r := s.poisonedPhase e st.core
      if r.2 then r.1.phaseEnded e else r.1

/-- A waiting phase was cut short on a core that no longer carries its stage. -/
def State.takenOver (s : State) (x : Core × Sched) : Bool := match s.stage x.2.stage with
  | some st => st.core != x.1
  | none => true

/-- REPLAY_ISSUE (R393): the phase that a takeover cut short, once the running segments of a step replay
have ended. Its count of replays starts anew on the spare core (DEDUCED, log entry 48). The recovery
window of the failure closes. -/
def execReplayIssue (s : State) : Out :=
  match s.ctl.replayWait.find? s.takenOver with
  | none =>
    .next { s with recWindows := s.recWindows.filter fun w => w.cls != 3 }
  | some x =>
    if s.ctl.stepReplay && !s.ctl.issued.isEmpty then .next s
    else
      let left := s.ctl.replayWait.erase x
      let counts := s.ctl.phaseReplays.filter fun p => p.1 != x.2
      let s := (s.setCtl fun c => { c with replayWait := left, phaseReplays := counts }).closeWindow 3 x.1
      if s.ctl.abandoned || s.ctl.stepReplay then .next s.afterPhase
      else
        let s := match s.stage x.2.stage with
          | some st =>
            if (st.accum.getD x.2.phase []).isEmpty then
              s.breachOpen s.ctlIsl { cls := 1, polder := x.1.val / 9, action := 1, obj := x.2.stage }
            else s
          | none => s
        .next (s.rerun x.2).afterPhase

/-! ### Second faults (R408) -/

/-- The cause that a breach record names (R385). -/
def Breach.cause (r : Breach) : Option Cause := if r.causeIsl = 0xFF then none else some (r.causeIsl, r.causeSeq)

/-- What a breach that waited does when its turn comes: a phase is absorbed, a command goes out again, a core is
replaced, a gradient is tainted. Other classes leave nothing to be done later (log entry 47). -/
def State.actOn (s : State) (r : Breach) : State :=
  let obj := r.obj.toNat
  if r.cls = 1 then
    match s.ctl.replayWait.find? fun x => x.2.stage == obj && !s.takenOver x with
    | some x =>
      let t := (s.setCtl fun c => { c with replayWait := c.replayWait.erase x }).absorbPhase x.2 x.1 r.cause
      (if t.2 then t.1.phaseEnded x.2 else t.1).afterPhase
    | none => s
  else if r.cls = 2 then s.resendCmd obj
  else if r.cls = 3 then (if (s.core obj).failed then s else s.loseCore obj)
  else if r.cls = 0xA then s.taintNow obj
  else s

/-- QUEUED_BREACH (R408): the oldest breach that waits, once no window holds it back. -/
def execQueuedBreach (s : State) : Out :=
  match s.breachQ with
  | [] => .next s
  | r :: l =>
    if s.defers r.cls.toNat r.polder.toNat then .next s
    else
      let s := { s with breachQ := l }
      .next ((s.setRegF Reg.FLT_STAT 23 16 (min l.length 255)).actOn r)

/-! ### Loss of a polder (R401) -/

/-- A cause of R401 holds: what State shows of it. -/
def State.polderLost (s : State) : PolderCause → Bool
  | .secondCore d => decide (2 ≤ ((List.range 9).filter fun c =>
      (s.core (9 * d.val + c)).failed || (s.core (9 * d.val + c)).retired).length)
  | .dieResync d => !(s.island (54 + d.val)).ready
  | .edgeResync h => !(s.island (60 + h.val / 2)).ready
  | .channel ch => decide (s.chanState ch = 3)
  | .nearMemory d sram =>
    let t := if sram.val = 0 then (s.die d).ueTimes0 else (s.die d).ueTimes1
    decide (64 < (t.filter fun x => decide (s.now < x + 1000000)).length)
  | .controllerHalf => true

/-- The polder of a cause, and its object. -/
def polderOfCause : PolderCause → Nat × Nat
  | .secondCore d => (d, d)
  | .dieResync d => (d, d)
  | .edgeResync h => (6 + h, h)
  | .channel ch => (polderOfHalf (halfOfChan ch), ch)
  | .nearMemory d _ => (d, d)
  | .controllerHalf => (6, 0)

/-- The island that detects a cause. -/
def State.islandOfCause (s : State) : PolderCause → Nat
  | .nearMemory d _ => 54 + d
  | .channel ch => 60 + edgeOfChan ch
  | _ => s.ctlIsl

/-- POLDER_LOSS (R401, R402): once for a polder. -/
def execPolderLoss (why : PolderCause) (s : State) : Out :=
  .next (if s.polderLost why then s.polderLoss (s.islandOfCause why) (polderOfCause why).1 (polderOfCause why).2 none else s)

/-! ### The fatal dump (R411, R412) -/

/-- Where the dump region starts. -/
def State.dumpBase (s : State) : Nat := s.reg48 Reg.GLB_DUMP_BASE_LO Reg.GLB_DUMP_BASE_HI

/-- A MiB. -/
def mib : Nat := 0x100000

/-- Bytes of the dump. -/
def dumpSize : Nat := 12977 * mib

/-- A byte of far memory stands on a channel of an edge-die half that is lost. -/
def State.onLostHalf (s : State) (a : Nat) : Bool :=
  decide (a < farSize) && s.lostPolders.contains (6 + halfOfChan (chanOf a))

/-- The polder whose loss makes a control-space word unreadable: of a window of an edge die, the half that
its unit belongs to; `none` for words that the two halves share (DEDUCED, log entry 49). -/
def wordHalf (off : Nat) : Option Nat :=
  if 0x10000 ≤ off ∧ off < 0x10180 then some ((off - 0x10000) / 4 / 48)
  else if 0x20000 ≤ off ∧ off < 0x22000 then some ((off - 0x20000) / 0x1000)
  else if 0x30000 ≤ off ∧ off < 0x30800 then some ((off - 0x30000) / 0x100 / 4)
  else if 0x31000 ≤ off ∧ off < 0x31200 then some ((off - 0x31000) / 0x100)
  else if 0x40000 ≤ off ∧ off < 0x41000 then some 0
  else none

/-- A control-space word can be read in the dump. -/
def State.wordAlive (s : State) (a : Nat) : Bool :=
  let w := a / 0x01000000
  let lost (p : Nat) := s.lostPolders.contains p
  if w = 0 then true
  else if w < 7 then !lost (w - 1)
  else
    match wordHalf (a % 0x01000000) with
    | some h => !lost (6 + 2 * (w - 7) + h)
    | none => !(lost (6 + 2 * (w - 7)) && lost (7 + 2 * (w - 7)))

/-- The addresses of a window's registers. -/
def windowAddrs (rows : List RegRow) (base : Nat) : List Nat :=
  rows.flatMap fun r => (List.range r.n).map fun i => base + r.off + r.stride * i

/-- Every register of the control space. -/
def regAddrs : List Nat :=
  windowAddrs glbRows 0 ++ (List.range 6).flatMap (fun d => windowAddrs dieRows (dieBase d)) ++
    (List.range 54).flatMap (fun c => windowAddrs coreRows (coreBase c)) ++
    (List.range 2).flatMap fun e => windowAddrs edgeRows (edgeBase e)

/-- The 4 KiB header (R412) up to its last field. -/
def State.dumpHeader (s : State) : List Byte :=
  leBytes 4 0x31504D44 ++ leBytes 2 s.node ++ leBytes 2 (s.lostPolders.map (2 ^ ·)).sum ++
    leBytes 4 s.committed ++ leBytes 4 (s.reg Reg.FLT_LOG_HEAD).toNat ++
    (match s.fatal with
     | some b => b.bytes
     | none => List.replicate 32 0) ++ List.replicate 16 0

/-- The registers in the dump: offset and bytes. -/
def State.dumpRegs (s : State) : List (Nat × List Byte) :=
  (regAddrs.filter s.wordAlive).map fun a => (5 * mib + a, leBytes 4 (s.view a).toNat)

/-- The operand buffer of a core (R115): the spec does not say where in it a filled byte stands, so that
what a buffer in use holds is a free value for each byte (log entry 50). -/
def State.dumpOperands (s : State) (c : Nat) : List (Nat × List Byte) :=
  if (s.core c).opbuf.isEmpty then []
  else [(149 * mib + 6 * mib * c, (List.range (6 * mib)).map fun i =>
    (Config.free (s.freeCtr + 6 * mib * c + i)).setWidth 8)]

/-- The accumulator memory of a core (R163). -/
def State.dumpAcc (s : State) (c : Nat) : List (Nat × List Byte) :=
  (s.core c).acc.map fun e => (473 * mib + 4 * mib * c + 4 * e.1, leBytes 4 e.2.toNat)

/-- The dump's offset of a near-memory address. -/
def dumpNear (a : Nat) : Nat :=
  689 * mib + (a - 0x100000000000) / 0x100000000 * (2048 * mib) + a % 0x100000000

/-- Near memory of a die. -/
def State.dumpDie (s : State) (d : Nat) : List (Nat × List Byte) :=
  (s.mem.filter fun e => decide (nearBase d ≤ e.1 ∧ e.1 < nearBase d + 0x80000000)).map fun e =>
    (dumpNear e.1, [e.2])

/-- What the dump holds beside zeros: offset and bytes. -/
def State.dumpParts (s : State) : List (Nat × List Byte) :=
  let alive (d : Nat) : Bool := !s.lostPolders.contains d
  let dies := (List.range 6).filter alive
  let cores := (List.range 54).filter fun c => alive (c / 9)
  ([0, 12, 24, 36].map fun k => (k * 1024, s.dumpHeader)) ++
    (s.breaches.reverse.zipIdx.map fun p => (mib + 32 * p.2, p.1.bytes)) ++ s.dumpRegs ++
    cores.flatMap s.dumpOperands ++ cores.flatMap s.dumpAcc ++ dies.flatMap s.dumpDie

/-- Poisoned near-memory lines keep their mark in the dump. -/
def State.dumpPoison (s : State) : List Nat :=
  (s.poison.filter fun u => decide (farSize ≤ u) &&
      !s.lostPolders.contains ((u - 0x100000000000) / 0x100000000)).flatMap fun u =>
    [s.dumpBase + dumpNear u, s.dumpBase + dumpNear u + 32]

/-- The dump is written: zeros, then what it holds; granules on a lost half stay as they are. What its poisoned
bytes read as is drawn once (R374). -/
def State.writeDump (s : State) : State :=
  let b := s.dumpBase
  let inDump (a : Nat) : Bool := decide (b ≤ a ∧ a < b + dumpSize) && !s.onLostHalf a
  let mem := s.mem.filter fun e => !inDump e.1
  let cells := s.dumpParts.flatMap fun p => p.2.zipIdx.map fun x => (b + p.1 + x.2, x.1)
  let mem := (cells.filter fun e => inDump e.1).foldl (fun m e => SMap.set memDefault m e.1 e.2) mem
  let poison := (s.dumpPoison.filter inDump).foldl insertSorted (s.poison.filter fun u => !inDump u)
  let key := s.freeCtr + 54 * 6 * mib
  { s with mem := mem, poison := poison, dumpKey := key, freeCtr := key + 2 ^ 48, dumpWritten := true }

/-- DUMP_WRITE (R411, R412): in `DUMPING`, once. -/
def execDumpWrite (s : State) : Out :=
  .next (if s.mode = 5 ∧ s.dumpWritten = false then s.writeDump else s)

/-- DUMP_COMPLETE (R411): `RETIRED`. -/
def execDumpComplete (s : State) : Out :=
  .next (if s.mode = 5 ∧ s.dumpWritten = true then s.setMode 6 else s)

/-! ### The restore (R403, R404) -/

/-- `FLT_RESTORE_STAT.STATE`. -/
def State.setRestoreStat (s : State) (n : Nat) : State :=
  s.setReg Reg.FLT_RESTORE_STAT (BitVec.ofNat 32 (n * 2 ^ 28))

/-- The mirrored bytes to be pulled, in READs of at most 8,192 bytes (R351). -/
def State.restorePieces (s : State) : List (Nat × Nat) :=
  s.allocs.flatMap fun x => match x.2 with
    | some al => if al.mirror then (List.range (cdiv al.size 8192)).map fun i =>
        (al.base + 8192 * i, min 8192 (al.size - 8192 * i)) else []
    | none => []

/-- A write of 1 to `FLT_RESTORE_CTL.START` (R403): refused outside `LOADED`. A module without a twin has
no mirror to pull: refused too (DESIGN CHOICE, log entry 51). -/
def State.restoreStart (s : State) : State :=
  if s.mode ≠ 2 ∨ s.hasTwin = false then s.setRestoreStat 4
  else
    let l := s.restorePieces
    let s := { s with reads := s.reads.filter fun r => match r.use with
      | .restore _ => false
      | _ => true }
    let s := ({ s with restore := some ⟨(s.reg Reg.FLT_RESTORE_TARGET).toNat, l, false⟩ }).setRestoreStat 1
    let s := s.openWindow 0xC 0xFF 0xFFFF
    l.foldl (fun s p => match s.twinAddr p.1 with
      | some t => s.sendRead 0 s.twin t p.2 (.restore p.1)
      | none => s) s

/-- RESTORE_START (R403). -/
def execRestoreStart (s : State) : Out := .next s.restoreStart

/-- The restore ends at a step (R404). Its window stays open until the pair is in sync (R407). -/
def State.restoreDone (s : State) (c : Nat) : State :=
  let s := s.setCtl fun x => { x with begun := c, sentMax := c, mustRun := c, step := c, collStep := c }
  let s := s.setRestoreStat 2
  { (if s.alone then s else s.closeWindow 0xC 0xFFFF) with restored := true }

/-- RESTORE_COMPLETE (R404): every mirrored byte has arrived. -/
def execRestoreComplete (s : State) : Out :=
  match s.restore, s.prog with
  | some r, some p =>
    if !r.left.isEmpty || decide (s.mode ≠ 2) then .next s
    else
      let s := { s with restore := none }
      let km := (s.word (p.commit + 4)).toNat
      if r.target = km then
        .next ((s.setReg Reg.GLB_STEP_NUM (BitVec.ofNat 32 km)).restoreDone km)
      else if r.target = km + 1 then
        let s := s.updWrite 0 r.target 0 p.commit
          (leBytes 4 0x434D5431 ++ leBytes 4 r.target ++ List.replicate 56 0) true false
        .next ((s.commitStep r.target).restoreDone r.target)
      else .next ((s.setRestoreStat 4).closeWindow 0xC 0xFFFF)
  | _, _ => .next s

end Sys2Proof.Machine
end

