-- ==== Sys2Proof/Machine/HostLink.lean ====
section
/-! DEFINITION. The host lanes (R348 to R353), the command queues (R354 to R356), events that find no
credit (R376) and violations by the host (R377, R378). -/

namespace Sys2Proof.Machine

open Sys2Proof

/-! ### Lanes (R350, R353) -/

/-- One more training attempt of a lane (R381). -/
def State.laneAttempt (s : State) (l : Nat) : State :=
  (s.setLinkState (16 + l) 1).incF (Reg.HLK_LANE_STAT l) 7 0

/-- HOST_LANE_TRAIN (R348, R350, R353): a lane that is not up trains; its receiver's clock runs; once it is
aligned by the adapter's marker each side tells its credits, and the lane is up. A lane whose rail is off does not
train (R448). -/
def execHostLaneTrain (l : Lane) (peer : LaneHello) (s : State) : Out :=
  if s.linkState (16 + l) = 2 ∨ s.keptInReset (78 + l) = true then .next s
  else
    let s := if s.linkState (16 + l) = 0 then s.laneAttempt l else s
    let s := s.clockIn (78 + l)
    if hostAligned l peer.mark = false then .next s
    else
      let s := s.setLink (16 + l) { s.link (16 + l) with
        marker := some (markerCount peer.mark, BitVec.ofNat 16 (markerId peer.mark)) }
      let own := (ownCredits (16 + l)).zipIdx.foldl (fun n c => n + c.1 * 2 ^ (16 * c.2)) 0
      let s := s.linkSend (16 + l) ⟨nhlHdr 0x40 3 0 0 0 0 0 own, []⟩
      .next (s.linkUp (16 + l) ((List.range 4).map fun v => fld peer.credits.toNat (16 * v + 15) (16 * v)))

/-- A lane that is up goes down: the breach, and training starts again (R350, R378, R387). What waited on
it moves to the other lane. -/
def State.laneLost (s : State) (l : Nat) : State :=
  let s := (s.linkDown (16 + l)).breachOpen (78 + l)
    { cls := 4, polder := polderOfHalf (2 * l), action := 5, obj := 16 + l }
  s.laneAttempt l

/-- HOST_LANE_SILENCE (R378). -/
def execHostLaneSilence (l : Lane) (s : State) : Out :=
  .next (if s.linkState (16 + l) = 2 then s.laneLost l else s)

/-- HOST_LANE_FAIL (R350, R319): there is no spare lane. -/
def execHostLaneFail (l : Lane) (s : State) : Out :=
  .next (if s.linkState (16 + l) = 2 then s.laneLost l else s)

/-- HOST_LANE_TRAIN_TIMEOUT (R350, R318): a further attempt, from step 1. -/
def execHostLaneTrainTimeout (l : Lane) (s : State) : Out :=
  .next (if s.linkState (16 + l) = 1 then s.laneAttempt l else s)

/-- The link on which events wait: the event lane's, or, where none waits there, the other one's. -/
def State.eventLink (s : State) : Nat :=
  let l := 16 + s.hostLane 0
  if (s.link l).txq.any fun p => p.vc == 2 then l else 33 - l

/-- EVENT_DROP (R376): the oldest event that waits for credit is dropped. -/
def execEventDrop (s : State) : Out :=
  let l := s.eventLink
  let k := s.link l
  match k.txq.find? fun p => p.vc == 2 with
  | none => .next s
  | some p => .next ((s.setLink l { k with txq := k.txq.erase p }).inc Reg.HLK_EVT_LOST_CNT 1)

/-! ### Violations (R377, R378, R382) -/

/-- A violation by the host: counted, described and logged under a code of the model's own (log entry 58);
answered by a `NAK`, unless the packet is a `NAK`, or one of the code went out within 1 µs. -/
def State.hostViolate (s : State) (l code : Nat) (q : Pkt) (expected : Nat) : State :=
  let isCmd := decide (q.opcode = 0x10)
  let qid := if isCmd then q.fld 35 32 else 0
  let cseq := q.fld 95 64
  let s := s.inc (Reg.HLK_VIOL_CNT l (code - 1)) 1
  let s := s.setReg (Reg.HLK_LAST_VIOL l)
    (BitVec.ofNat 32 (2 ^ 31 + code * 2 ^ 24 + q.opcode * 2 ^ 16 + qid * 2 ^ 12 + cseq % 2 ^ 12))
  let s := s.addLog (78 + l) (0x300 + code) (q.opcode + qid * 2 ^ 8)
  if q.opcode = 2 || !s.nakDue (16 + l) code then s
  else
    (s.noteNak (16 + l) code).hostSend l
      ⟨nhlHdr 2 3 0 0 0 0 0 (code + q.opcode * 2 ^ 8 + q.fld 35 32 * 2 ^ 16 + cseq * 2 ^ 32 +
        expected * 2 ^ 64), []⟩

/-- A packet from the host is malformed (R352, R378): `RSP` and `EVENT`, which only the module sends, meet
the action of R378 (log entry 59). -/
def Pkt.hostMalformed (q : Pkt) : Bool :=
  let vc := if q.opcode = 0x10 then some 0
    else if q.opcode = 1 ∨ q.opcode = 2 ∨ q.opcode = 0x40 then some 3 else none
  vc != some q.vc || q.fld 15 10 != 0 || q.fld 39 36 != 0

/-! ### Queues (R354 to R356) -/

/-- Held commands whose turn it is are accepted. -/
def HostQ.pull : Nat → HostQ → HostQ
  | 0, k => k
  | n + 1, k =>
    match k.held.find? fun e => e.2.cseq == k.expect with
    | none => k
    | some e => HostQ.pull n
        { k with expect := k.expect + 1, accepted := k.accepted ++ [e], held := k.held.erase e }

/-- A duplicate that runs again takes its place by `CSEQ` among the commands not yet answered. -/
def insertCmd (e : BitVec 16 × HostCmd) : List (BitVec 16 × HostCmd) → List (BitVec 16 × HostCmd)
  | [] => [e]
  | x :: l => if (x.2.cseq - e.2.cseq).toNat < 2 ^ 31 ∧ x.2.cseq ≠ e.2.cseq then e :: x :: l
      else x :: insertCmd e l

/-- Commands whose duplicates are executed again (R355). -/
def runsAgain (cmd : Nat) : Bool := [0, 1, 2, 0x21, 0x52, 0x60].contains cmd

/-- A duplicate (R355): counted; executed again, or answered with the header of its response. One whose
command is still unanswered is answered by that command's own response (DESIGN CHOICE, log entry 60). -/
def State.hostDuplicate (s : State) (l qid cmd : Nat) (h : HostCmd) : State :=
  let s := s.inc Reg.HLK_DUP_CNT 1
  let k := s.hostQ qid
  if runsAgain cmd then s.setHostQ qid { k with accepted := insertCmd (BitVec.ofNat 16 cmd, h) k.accepted }
  else match k.sent.find? fun e => e.1 == h.cseq with
    | some e => s.hostSend l ⟨BitVec.ofNat 256 (setFld e.2.toNat 31 16 0), []⟩
    | none => s

/-- A command is accepted, and held ones that follow; counted on the lane that carried them (R476). -/
def State.hostAccept (s : State) (qid : Nat) (e : BitVec 16 × HostCmd) : State :=
  let k := s.hostQ qid
  let k := HostQ.pull k.held.length { k with expect := k.expect + 1, accepted := k.accepted ++ [e], gapSince := s.now }
  let new := (s.hostQ qid).held.filter fun x => !k.held.contains x
  let s := s.setHostQ qid k
  let s := (e :: new).foldl (fun s x => s.count (60 + x.2.lane.val) 0x341 0 1) s
  State.flushBad qid k.accepted.length s

/-- A command packet (R355, R378). -/
def State.hostCmd (s : State) (lane : Lane) (q : Pkt) : State :=
  let qid := q.fld 35 32
  let h : HostCmd := ⟨lane, Fin.ofNat 16 qid, BitVec.ofNat 32 (q.fld 95 64),
    BitVec.ofNat 160 (q.fld 255 96), q.payload⟩
  let cmd := q.fld 63 48
  let e := (BitVec.ofNat 16 cmd, h)
  let k := s.hostQ qid
  let d := (h.cseq - k.expect).toNat
  if 2 ^ 32 - 64 ≤ d then s.hostDuplicate lane qid cmd h
  else if 64 ≤ d then s.hostViolate lane 3 q k.expect.toNat
  else if k.held.any (fun x => x.2.cseq == h.cseq) then
    s.setHostQ qid { k with held := k.held.map fun x => if x.2.cseq = h.cseq then e else x }
  else if 64 ≤ k.accepted.length + k.held.length then s.hostViolate lane 5 q k.expect.toNat
  else if d = 0 then s.hostAccept qid e
  else s.setHostQ qid { k with held := insertCmd e k.held,
                               gapSince := if k.held.isEmpty then s.now else k.gapSince }

/-- One packet of a lane: refused, queued, or kept for its command. `LINK_CTL` on a lane that is up asks
for nothing. -/
def State.hostPkt (s : State) (lane : Lane) (q : Pkt) (lenOk : Bool) : State :=
  let l := 16 + lane.val
  let k := s.link l
  let c := q.credits
  if !lenOk || q.hostMalformed then
    (if lenOk then s.dropRx l q else s).hostViolate lane 1 q (if q.opcode = 0x10 then (s.hostQ (q.fld 35 32)).expect.toNat else 0)
  else if at0 k.granted q.vc < c then s.hostViolate lane 2 q (s.hostQ (q.fld 35 32)).expect.toNat
  else if q.opcode = 0x10 then
    let s := (s.setLink l { k with granted := k.granted.set q.vc (at0 k.granted q.vc - c) }).freeRx l q
    s.hostCmd lane q
  else if q.opcode = 0x40 then s
  else s.setLink l { k with rx := k.rx ++ [q] }

/-- HOST_FLIT_RECEIVE (R349, R351, R378): a lane that is not up, or whose receiver is in reset, receives
nothing. -/
def execHostFlitReceive (l : Lane) (bytes : List Byte) (fec : FecResult) (s : State) : Out :=
  if s.linkState (16 + l) ≠ 2 ∨ (s.island (78 + l)).ready = false then .next s
  else
    let r := s.rxFlit (16 + l) bytes fec
    let s := r.2.2
    let s := if r.2.1 then s else s.hostViolate l 3 ⟨0, []⟩ 0
    .next ((r.1.foldl (fun s q => s.hostPkt l q.1 q.2) s).pump (16 + l))

/-- NHL_CREDIT (R353, R378). -/
def execNhlCredit (l : Lane) (s : State) : Out :=
  match s.takeRx (16 + l) 1 with
  | none => .next s
  | some (q, s) =>
    let r := s.takeCredits (16 + l) (q.fld 159 96)
    .next (if r.1 then r.2 else r.2.hostViolate l 2 q 0)

/-- NHL_NAK (R377, R378): the adapter's answer to a packet of this module; nothing is asked of the module. -/
def execNhlNak (l : Lane) (s : State) : Out :=
  match s.takeRx (16 + l) 2 with
  | none => .next s
  | some (_, s) => .next s

/-- The offending packet that a command came in, for its `NAK`. -/
def HostQ.pktOf (e : BitVec 16 × HostCmd) : Pkt :=
  ⟨nhlHdr 0x10 0 e.2.payload.length e.2.qid.val 0 e.1.toNat e.2.cseq.toNat e.2.args.toNat, []⟩

/-- GAP_TIMEOUT (R355): every held command is discarded and answered with `NAK` `0x03` carrying x. -/
def execGapTimeout (q : Fin 16) (s : State) : Out :=
  let k := s.hostQ q
  if k.held.isEmpty ∨ s.now ≤ k.gapSince + (s.reg Reg.HLK_GAP_TMO).toNat then .next s
  else
    .next (k.held.foldl (fun s e => s.hostViolate e.2.lane 3 (HostQ.pktOf e) k.expect.toNat)
      (s.setHostQ q { k with held := [] }))

end Sys2Proof.Machine
end

