-- ==== Sys2Proof/Machine/Loader.lean ====
section
/-! DEFINITION. The Cibex loader (R213 to R218, R280 to R284, R331, R332): the checks in order, and what a
load leaves (R19, R184, R189, R190, R283). -/

namespace Sys2Proof.Machine

open Sys2Proof

/-! ### Reading the image -/

/-- Memory as a management core reads it for the host or the loader: the bytes of a poisoned unit are free
values (log entry 52), from a number on. -/
def State.openAt (s : State) (key : Nat) : Rd :=
  { byte := fun a => if s.rd.bad a then (Config.free (key + a)).setWidth 8 else Memory.byte s.mem a,
    bad := s.rd.bad }

/-- The same with values not drawn before. -/
def State.openRd (s : State) : Rd := s.openAt s.freeCtr

/-- n bytes. -/
def Rd.list (r : Rd) (a n : Nat) : List Byte := (List.range n).map fun i => r.byte (a + i)

/-- Free bytes have been drawn where a range was poisoned. -/
def State.drewRange (s : State) (a n : Nat) : State :=
  if s.badRange a n then { s with freeCtr := s.freeCtr + 2 ^ 48 } else s

/-- A failure of check 1 or 2, and of others without a stage. -/
def imgErr (check : Nat) : LoadErr := { code := 7, check := check }

/-- Entries of the section table. -/
def readSects (r : Rd) (a n : Nat) : List Sect :=
  (List.range n).map fun i =>
    let p := a + 64 + 24 * i
    ⟨r.le p 2, r.le (p + 4) 4, r.le (p + 8) 8, r.le (p + 16) 8⟩

/-- A section's size follows from its count (R214). -/
def sectSizeOk (x : Sect) : Bool :=
  match x.typ with
  | 1 | 6 => x.size == 32 * x.count
  | 2 => x.size == 80 * x.count
  | 3 | 5 => x.size == 8 * x.count
  | 4 => x.size == 256 * x.count
  | 7 => true
  | 8 => x.size == 128 + 128 * x.count
  | 9 => x.size == 520 * x.count
  | _ => false

/-- A section of a type. -/
def sect (l : List Sect) (t : Nat) : Option Sect := l.find? fun x => x.typ == t

/-- Entries of a section; none when it is absent. -/
def sectCount (l : List Sect) (t : Nat) : Nat := match sect l t with
  | some x => x.count
  | none => 0

/-- Two sections share a byte or a type. -/
def sectsClash : List Sect → Bool
  | [] => false
  | x :: l => (l.any fun y => y.typ == x.typ || overlap x.off x.size y.off y.size) || sectsClash l

/-- Check 1 (R213, R214): the sections, when nothing fails. `room` is what the allocation holds from the
image's address. -/
def checkHeader (r : Rd) (a room : Nat) : Except LoadErr (List Sect) :=
  let len := r.le (a + 16) 8
  let nsect := r.le (a + 12) 2
  let l := readSects r a nsect
  let need := [1, 2, 3, 4, 6] ++ (if r.le (a + 8) 1 = 1 then [5] else []) ++
    (if (sect l 8).isSome then [9] else [])
  if r.le a 4 ≠ 0x58424943 ∨ room < 64 ∨ len < 64 ∨ room < len ∨ 1 < r.le (a + 8) 1 ∨
      len < 64 + 24 * nsect then .error (imgErr 0)
  else if (l.all fun x => sectSizeOk x && x.off % 64 == 0 && decide (x.off + x.size ≤ len)) = false ∨
      sectsClash l = true ∨ (need.all fun t => (sect l t).isSome) = false then .error (imgErr 0)
  else if r.le (a + 10) 2 = 0 ∨ 48 < r.le (a + 10) 2 ∨ sectCount l 1 ≠ r.le (a + 10) 2 then
    .error (imgErr 0)
  else .ok l

/-- Address of entry i of a section. -/
def entryAt (l : List Sect) (a t i size : Nat) : Nat := match sect l t with
  | some x => a + x.off + size * i
  | none => a

/-! ### Allocations and descriptors -/

/-- Check 3 (R248): the allocations join the table one by one. -/
def State.loadAllocs (r : Rd) : List Nat → State → Except LoadErr State
  | [], s => .ok s
  | p :: l, s =>
    match parseAlloc (r.le p 32) true with
    | none => .error { code := 1, check := 2 }
    | some (id, x) =>
      if s.allocOk id x then State.loadAllocs r l (s.setAlloc id (some x))
      else .error { code := 1, check := 2 }

/-- Check 4 (R103): the descriptors, from handle h on. -/
def State.loadDescs (r : Rd) (groups : List ShardGroup) : Nat → List Nat → State → Except LoadErr State
  | _, [], s => .ok s
  | h, p :: l, s =>
    match s.checkDesc groups h (r.le p 256) with
    | .error e => .error { code := e.1, check := 3, index := h, desc := some (descWord e h) }
    | .ok d => State.loadDescs r groups (h + 1) l (s.setDesc h (some ⟨true, d⟩))

/-! ### Shard groups and collectives (R331, R332) -/

/-- A group entry as read, when it and its member list lie within the section. -/
def readGroup (r : Rd) (base size i : Nat) : Option ShardGroup :=
  let p := base + 64 + 32 * i
  let w := r.le (p + 2) 4
  let lst := r.le (p + 16) 8
  if size < 96 + 32 * i ∨ size < lst + 4 * w then none
  else some
    { group := r.le p 2, w := w, pos := r.le (p + 6) 4, bf16 := r.le (p + 10) 1 == 1,
      members := (List.range w).map fun k =>
        (BitVec.ofNat 16 (r.le (base + lst + 4 * k) 2), r.le (base + lst + 4 * k + 2) 2) }

/-- The group entries of the section, each with whether its wire format is defined. -/
def readGroups (r : Rd) (a : Nat) (l : List Sect) : List ShardGroup := match sect l 7 with
  | none => []
  | some x =>
    if x.size < 64 then []
    else (List.range (r.le (a + x.off) 2)).filterMap fun i => readGroup r (a + x.off) x.size i

/-- A shard group keeps R331 and R332. -/
def groupOk (node : Nat) (g : ShardGroup) : Bool :=
  decide (1 ≤ g.w ∧ g.w ≤ 65535 ∧ g.pos < g.w) &&
    ((List.range g.w).all fun r => g.members.any fun m => m.2 == r) &&
    decide ((g.members.filter fun m => m.1.toNat == node).length = 1) &&
    decide ((g.members.getD g.pos (0, 0)).1.toNat = node)

/-- A collective entry. -/
def readColl (r : Rd) (p : Nat) : Coll :=
  { kind := r.le p 2, ugroup := r.le (p + 2) 2, src := r.le (p + 4) 2, dst := r.le (p + 6) 2,
    sgroup := r.le (p + 8) 2, stage := r.le (p + 10) 6 }

/-- The collective entries. -/
def readColls (r : Rd) (a : Nat) (l : List Sect) : List Coll := match sect l 7 with
  | none => []
  | some x =>
    let b := a + x.off
    (List.range (r.le (b + 2) 2)).map fun i => readColl r (b + 64 + 32 * (r.le b 2 + i))

/-- Ranges of a list, none of which meets another. -/
def rangesApart (l : List (Nat × Nat)) : Bool :=
  l.zipIdx.all fun x => l.zipIdx.all fun y =>
    decide (x.2 = y.2) || !overlap x.1.1 x.1.2 y.1.1 y.1.2

/-- The member lists of ng groups of a section at b: offset and bytes. -/
def memberLists (r : Rd) (b ng : Nat) : List (Nat × Nat) :=
  (List.range ng).map fun i => (r.le (b + 80 + 32 * i) 8, 4 * r.le (b + 66 + 32 * i) 4)

/-- The section keeps R331 and R332 up to its collectives: the member lists follow the entries, apart from one
another, and with them fill the section. -/
def shardOk (r : Rd) (a node : Nat) (l : List Sect) : Bool := match sect l 7 with
  | none => true
  | some x =>
    let b := a + x.off
    let ng := r.le b 2
    let nc := r.le (b + 2) 2
    let gs := readGroups r a l
    decide (64 ≤ x.size) && decide (x.count = ng + nc) &&
      decide (64 + 32 * (ng + nc) ≤ x.size) && decide (gs.length = ng) &&
      (memberLists r b ng).all (fun m => decide (64 + 32 * (ng + nc) ≤ m.1)) &&
      rangesApart (memberLists r b ng) &&
      decide (x.size = 64 + 32 * (ng + nc) + (gs.map fun g => 4 * g.w).sum) &&
      ((List.range ng).all fun i => decide (r.le (b + 64 + 32 * i + 10) 1 ≤ 1)) &&
      gs.all (groupOk node) && decide (gs.map ShardGroup.group).Nodup &&
      (readColls r a l).all fun c => decide (c.kind ≤ 2)

/-- Global extents. -/
def Desc.gexts (d : Desc) : List Nat := d.dims.map DimE.gext

/-- The source of an all-gather and `DST` agree (R332, R335). -/
def gatherAgree (x y : Desc) : Bool :=
  x.fmt == y.fmt && x.blocked == y.blocked && x.cfmt == y.cfmt &&
    (!x.blocked || x.cfmt != .dns || x.blockAxis == y.blockAxis)

/-- A collective keeps R332: 0, or the code of its fault. The reduced shards of an all-reduce are dense
values in the wire format, so that `DST` has that format (DEDUCED, log entry 53). -/
def State.collBad (s : State) (groups : List ShardGroup) (us : List UGroup) (c : Coll) : Nat :=
  let ug := us.find? fun u => u.group == c.ugroup
  let wd := match ug with
    | some u => s.descOf u.wdesc
    | none => none
  match groups.find? (fun g => g.group == c.sgroup), s.descOf c.src, s.descOf c.dst with
  | some g, some x, some y =>
    let full (d : Desc) : Bool := d.exts == d.gexts
    let shapes := x.gexts == y.gexts && (match c.kind, ug, wd with
      | 0, some u, some w => u.sgroup == c.sgroup && w.gexts == x.gexts && full x && full y &&
          gatherAgree w y
      | 0, _, _ => false
      | 1, _, _ => y.cfmt == .dns && !y.blocked && y.fmt == (if g.bf16 then .bf16 else .fp32)
      | _, _, _ => gatherAgree x y)
    let need := cdiv (cdiv ((g.w - 1) * prodL x.exts) g.w * (if g.bf16 then 2 else 4)) 256 * 256
    if !shapes then 7
    else if need = 0 then 0
    else match s.inAlloc c.stage need with
      | some (_, al) => if al.near then 1 else 0
      | none => 1
  | _, _, _ => 7

/-! ### Update groups and curves (R280 to R284) -/

/-- A group entry. -/
def readUGroup (r : Rd) (p : Nat) : UGroup :=
  let w (o : Nat) : Word := BitVec.ofNat 32 (r.le (p + o) 4)
  { group := r.le p 2, rule := r.le (p + 2) 1, kind := r.le (p + 3) 1,
    engines := BitVec.ofNat 4 (r.le (p + 4) 1), nesterov := bit (r.le (p + 5) 1) 0,
    biascorr := bit (r.le (p + 5) 1) 1, freeboard := fld (r.le (p + 6) 1) 1 0,
    rnd := fld (r.le (p + 6) 1) 3 2, sgroup := r.le (p + 8) 2, curve := r.le (p + 10) 2,
    wdesc := r.le (p + 12) 2, b1 := w 16, b2 := w 20, eps := w 24, lambda := w 28, clip := w 32,
    trustMax := w 36, slots := r.le (p + 40) 8, rowD := r.le (p + 48) 4, maxRows := r.le (p + 52) 4,
    bank0 := r.le (p + 64) 6, bank1 := r.le (p + 72) 6, recBase := r.le (p + 80) 6,
    park := r.le (p + 88) 6, mdset0 := r.le (p + 96) 6, mdset1 := r.le (p + 104) 6,
    mapBase := r.le (p + 112) 6 }

/-- A curve: its points, none when `NPTS` is out of range. -/
def readCurve (r : Rd) (p : Nat) : List (Word × Word) :=
  let n := r.le p 2
  if n = 0 ∨ 64 < n then []
  else (List.range n).map fun i =>
    (BitVec.ofNat 32 (r.le (p + 8 + 8 * i) 4), BitVec.ofNat 32 (r.le (p + 12 + 8 * i) 4))

/-- FP32 tests on the bits: in [0, 1); finite and not negative; at most 0. -/
def unitF (w : Word) : Bool := decide (w.toNat < 0x3F800000) || w == 0x80000000#32
def nonnegF (w : Word) : Bool := decide (w.toNat < 0x7F800000) || w == 0x80000000#32
def nonposF (w : Word) : Bool := w == 0 || decide (0x80000000 ≤ w.toNat ∧ w.toNat ≤ 0xFF800000)
def zeroF (w : Word) : Bool := w == 0 || w == 0x80000000#32

/-- A curve keeps R284. -/
def curveOk (c : List (Word × Word)) : Bool :=
  !c.isEmpty && ((c.zip (c.drop 1)).all fun p => decide (p.1.1.toNat < p.2.1.toNat)) &&
    c.all fun p => nonnegF p.2

/-- A base of R280; that its range lies in far memory is test 4 of R281. -/
def farBase (b : Nat) : Bool := b % 256 == 0

/-- Test 1 of R281 fails. -/
def UGroup.fieldsBad (u : UGroup) : Bool :=
  decide (3 < u.rule) || decide (2 < u.kind) || u.engines == 0 ||
    (u.rule == 3 && (u.kind == 1 || !zeroF u.clip)) || !unitF u.b1 || !unitF u.b2 ||
    !nonnegF u.eps || !nonnegF u.lambda || !nonnegF u.clip || (u.rule == 3 && nonposF u.trustMax)

/-- Test 3 of R281 fails. -/
def State.wdescBad (s : State) (u : UGroup) : Bool := match s.descOf u.wdesc with
  | none => true
  | some d =>
    !d.wr || decide (farSize ≤ d.base) || d.fmt == .fp32 || d.fmt == .int32 ||
      (if u.kind = 2 then
        (match d.cfmt with
         | .tnm _ _ => false
         | _ => true)
       else d.cfmt != .dns) ||
      (if u.kind = 1 then decide (d.rows ≠ u.slots ∨ d.cols ≠ u.rowD) else decide (d.slots ≠ u.slots))

/-- The ranges of a group (R282), each with whether a twin mirrors it. -/
def State.ugroupRanges (s : State) (u : UGroup) : List (Nat × Nat × Bool) :=
  let b := 4 * u.states * u.s64
  let md := match s.descOf u.wdesc with
    | some d => d.arrayNeed 0
    | none => 0
  [(u.bank0, b, true), (u.bank1, b, true), (u.recBase, 64 + (if u.kind = 1 then 16 * u.slots else 0), true),
   (u.park, if u.kind = 1 then 256 + u.maxRows * (8 + 4 * u.rowD)
     else cdiv (cdiv (cdiv u.slots 2048) 8) 256 * 256 + 4 * u.slots, false)] ++
    (if u.kind = 2 then [(u.mdset0, md, true), (u.mdset1, md, true), (u.mapBase, 4 * u.slots, false)]
     else [])

/-- A range breaks test 4 of R281. -/
def State.rangeBad (s : State) (x : Nat × Nat × Bool) : Bool := match s.inAlloc x.1 x.2.1 with
  | none => true
  | some (_, al) => al.near || (s.hasTwin && x.2.2 && !al.mirror)

/-- Some two of a list of ranges share a byte. -/
def rangesClash : List (Nat × Nat × Bool) → Bool
  | [] => false
  | x :: l => (l.any fun y => overlap x.1 x.2.1 y.1 y.2.1) || rangesClash l

/-- The first group whose ranges clash with each other or with those before (test 5). -/
def State.clashGroup (s : State) : List (Nat × Nat × Bool) → List UGroup → Option Nat
  | _, [] => none
  | seen, u :: l =>
    let rs := s.ugroupRanges u
    if rangesClash (rs ++ seen) then some u.group else s.clashGroup (rs ++ seen) l

/-- Test 6 of R281 fails: the shard group breaks R123 for `WDESC`. -/
def State.sgroupBad (s : State) (groups : List ShardGroup) (u : UGroup) : Bool :=
  match s.descOf u.wdesc, groups.find? fun g => g.group == u.sgroup with
  | some d, some g =>
    let ways := d.dims.map DimE.ways
    !(decide (g.w = prodL ways) &&
      decide ((g.members.getD g.pos (0, 0)).2 = flat ways (d.dims.map DimE.sidx)))
  | _, _ => true

/-- A failed test of R281. -/
def grpErr (code test g : Nat) : LoadErr := { code := code, check := 9, grp := some (false, test, g % 4096) }
/-- A failed test that lies in no group entry. -/
def grpErr0 (code test g : Nat) : LoadErr := { code := code, check := 9, grp := some (true, test, g % 4096) }

/-- The first entry whose `GROUP` repeats, is out of range, or whose bases break R280 (test 0): the number
that R313 reports. -/
def firstTest0 (bases : List (List Nat)) : List UGroup → List Nat → Nat → Option Nat
  | [], _, _ => none
  | u :: l, seen, i =>
    if seen.contains u.group then some i
    else if 4095 < u.group ∨ ((bases.getD i []).all farBase) = false then some u.group
    else firstTest0 bases l (u.group :: seen) (i + 1)

/-- The first curve that breaks R284: test 2 of R281. -/
def curveErr (curves : List (List (Word × Word))) : Option LoadErr :=
  (curves.findIdx? fun c => !curveOk c).map fun i => grpErr0 7 2 i

/-- The tests of R281. -/
def State.checkUGroups (s : State) (groups : List ShardGroup) (commit : Nat) (us : List UGroup)
    (curves : List (List (Word × Word))) : Option LoadErr :=
  let bases := us.map fun u => [u.bank0, u.bank1, u.recBase, u.park, u.mdset0, u.mdset1, u.mapBase]
  let first (code test : Nat) (f : UGroup → Bool) : Option LoadErr :=
    (us.find? f).map fun u => grpErr code test u.group
  (if 4096 < us.length then some (grpErr0 7 0 0) else none) <|>
  ((firstTest0 bases us [] 0).map fun g => grpErr 7 0 g) <|>
  first 7 1 UGroup.fieldsBad <|>
  first 7 2 (fun u => decide (curves.length ≤ u.curve)) <|>
  curveErr curves <|>
  first 4 3 s.wdescBad <|>
  (if s.rangeBad (commit, 64, true) then some (grpErr0 1 4 0) else none) <|>
  first 1 4 (fun u => (s.ugroupRanges u).any s.rangeBad) <|>
  (if (us.flatMap s.ugroupRanges).any fun x => overlap commit 64 x.1 x.2.1 then some (grpErr0 3 5 0) else none) <|>
  ((s.clashGroup [] us).map fun g => grpErr 3 5 g) <|>
  first 1 6 (s.sgroupBad groups)

/-! ### Stages (R215, R189) -/

/-- An entry of the stage table: stage, die, core code, first packet, packets of the three segments. -/
def readStage (r : Rd) (p : Nat) : List Nat :=
  [r.le p 2, r.le (p + 2) 1, r.le (p + 3) 1, r.le (p + 4) 8, r.le (p + 12) 2, r.le (p + 14) 2,
   r.le (p + 16) 2]

/-- Packets of a stage. -/
def stagePkts (e : List Nat) : Nat := at0 e 4 + at0 e 5 + at0 e 6

/-- A failure of check 5. -/
def stageErr (n : Nat) : LoadErr := { code := 7, check := 4, stage := min n 0x3F }

/-- Stages take cores, in the order given: stage and island. -/
def placeStages (retired : Nat → Bool) : List (List Nat) → List (Nat × Nat) →
    Except LoadErr (List (Nat × Nat))
  | [], got => .ok got
  | e :: l, got =>
    let d := at0 e 1
    let taken := (got.map Prod.snd).filter fun c => c / 9 == d
    let free (c : Nat) : Bool := !taken.contains c && !retired c
    let pick := if at0 e 2 = 0xFF then ((List.range 9).map (9 * d + ·)).find? free
      else if free (9 * d + at0 e 2) then some (9 * d + at0 e 2) else none
    match pick with
    | some c =>
      if 8 ≤ taken.length then .error (stageErr (at0 e 0))
      else placeStages retired l (got ++ [(at0 e 0, c)])
    | none => .error (stageErr (at0 e 0))

/-- Check 5: the cores by stage. -/
def checkStages (retired : Nat → Bool) (es : List (List Nat)) (streams : Nat) :
    Except LoadErr (List (Nat × Nat)) :=
  match es.zipIdx.find? fun p => decide (at0 p.1 0 ≠ p.2 ∨ 5 < at0 p.1 1 ∨
      (8 < at0 p.1 2 ∧ at0 p.1 2 ≠ 0xFF) ∨ streams < at0 p.1 3 + stagePkts p.1) with
  | some p => .error (stageErr p.2)
  | none =>
    match placeStages retired (es.filter (fun e => at0 e 2 != 0xFF) ++ es.filter fun e => at0 e 2 == 0xFF)
        [] with
    | .error e => .error e
    | .ok got =>
      let load (d : Nat) (upTo : Nat) := ((es.take upTo).filter fun e => at0 e 1 == d).map stagePkts
      match es.find? fun e => decide (209715 < (load (at0 e 1) (at0 e 0 + 1)).sum) with
      | some e => .error (stageErr (at0 e 0))
      | none => .ok got

/-- The island of a stage. -/
def coreOf (got : List (Nat × Nat)) (n : Nat) : Nat := match got.find? fun p => p.1 == n with
  | some p => p.2
  | none => 0

/-- Where a stage's stream goes in its die's stage-stream region (R190). -/
def streamBase (es : List (List Nat)) (n : Nat) : Nat :=
  let d := at0 (es.getD n []) 1
  nearBase d + 80 * (((es.take n).filter fun e => at0 e 1 == d).map stagePkts).sum

/-! ### Packets (R198, R217) -/

/-- A packet of a program: stage, segment, index within it, words. -/
abbrev ProgPkt := Nat × Nat × Nat × List (BitVec 128)

/-- The packets of a stage, from the image. -/
def stageMops (r : Rd) (streams : Nat) (e : List Nat) : List ProgPkt :=
  let at_ (i : Nat) := r.packet (streams + 80 * (at0 e 3 + i))
  ((List.range (at0 e 4)).map fun i => (at0 e 0, 0, i, at_ i)) ++
  ((List.range (at0 e 5)).map fun i => (at0 e 0, 1, i, at_ (at0 e 4 + i))) ++
  (List.range (at0 e 6)).map fun i => (at0 e 0, 2, i, at_ (at0 e 4 + at0 e 5 + i))

/-- Check 6 for one packet: the code. -/
def pktBad (v : IssueEnv) (p : ProgPkt) : Option Nat :=
  ((checkStatic v p.2.2.2).map Prod.fst) <|> ((chkAlias v p.2.2.2).map fun _ => 3) <|>
    (if p.2.1 = 1 ∧ (mopOp p.2.2.2 = 0x18 ∨ mopMap p.2.2.2 ≠ noHandle) then some 4 else none)

/-- The first packet that a check refuses. -/
def firstPkt (check : Nat) (bad : ProgPkt → Option Nat) : List ProgPkt → Option LoadErr
  | [] => none
  | p :: l => match bad p with
    | some code => some { code := code, check := check, seg := p.2.1, stage := p.1, index := p.2.2.1 }
    | none => firstPkt check bad l

/-- What a packet writes (check 8): outputs, statistics states, bitmaps and scratch areas. -/
def State.pktReach (s : State) (ws : List (BitVec 128)) : List (Nat × Nat) :=
  ((mopOutputs ws).map Prod.snd ++ (if mopOp ws = 0x12 then [mopAux ws] else [])).flatMap fun h =>
    match s.descOf h with
    | some d => d.reach
    | none => []

/-- Check 8: the first stage whose write reach overlaps that of an earlier stage. -/
def State.writesClash (s : State) (ps : List ProgPkt) (n : Nat) : Option Nat :=
  let reach (k : Nat) := (ps.filter fun p => p.1 == k).flatMap fun p => s.pktReach p.2.2.2
  (List.range n).find? fun k => (List.range k).any fun j => reachOverlap (reach j) (reach k)

/-- Handles of the accumulating outputs of a packet (R389): the allowed case of R110. -/
def accumOut (v : IssueEnv) (ws : List (BitVec 128)) : List Nat :=
  ((mopOutputs ws).filter fun o => (mopInputs v ws).any fun i =>
    mayShare v ws i.1 i.2 o.1 && match v.descs i.2, v.descs o.2 with
      | some a, some b => sameTensor a b && reachOverlap a.reach b.reach
      | _, _ => false).map Prod.snd

/-! ### Schedule (R216) -/

/-- A schedule entry. -/
def readSched (r : Rd) (p : Nat) : Sched :=
  ⟨r.le p 2, r.le (p + 2) 1, BitVec.ofNat 32 (r.le (p + 4) 4)⟩

/-- Packets of a segment of a stage. -/
def segLen (es : List (List Nat)) (n phase : Nat) : Nat := at0 (es.getD n []) (4 + phase)

/-- An entry's inputs come before it (R193): those whose segment is not empty (DEDUCED, log entry 54). -/
def inputsBefore (es : List (List Nat)) (seen : List Sched) (e : Sched) : Bool :=
  let ok (n ph : Nat) : Bool := segLen es n ph == 0 || seen.contains ⟨n, ph, e.mb⟩
  if e.phase = 1 then ok (e.stage + 1) 1 && ok e.stage 0
  else e.stage == 0 || ok (e.stage - 1) e.phase

/-- Check 9: the first entry that fails. -/
def schedBad (es : List (List Nat)) : List Sched → List Sched → Option LoadErr
  | [], _ => none
  | e :: l, seen =>
    if es.length ≤ e.stage ∨ 2 < e.phase ∨ segLen es e.stage e.phase = 0 ∨ seen.contains e = true ∨
        inputsBefore es seen e = false then
      some { code := 7, check := 8, stage := if e.stage < es.length then e.stage else 0x3F }
    else schedBad es l (e :: seen)

/-! ### The load -/

/-- Checks 5 to 10 of an image whose allocations and descriptors are in place: the program, and where the
macro-operations of each stage start. -/
def State.checkProg (s : State) (r : Rd) (a : Nat) (l : List Sect) : Except LoadErr (Prog × List Nat) := do
  let allocAddrs := (List.range (sectCount l 6)).map fun i => entryAt l a 6 i 32
  let groups := readGroups r a l
  let handles := List.range (sectCount l 4)
  let es := (List.range (sectCount l 1)).map fun i => readStage r (entryAt l a 1 i 32)
  let got ← checkStages (fun c => (s.core c).retired) es (sectCount l 2)
  let chains := (List.range (sectCount l 5)).map fun i => BitVec.ofNat 64 (r.le (entryAt l a 5 i 8) 8)
  let fuse := r.le (a + 8) 1 == 1
  let env (n : Nat) : IssueEnv :=
    { descs := s.descOf, chains := chains, fuse := fuse, die := at0 (es.getD n []) 1 }
  let ps := es.flatMap (stageMops r (entryAt l a 2 0 80))
  match firstPkt 5 (fun p => pktBad (env p.1) p) ps with
  | some e => throw e
  | none => pure ()
  match firstPkt 6 (fun p => (chkFit (env p.1) p.2.2.2).map Prod.fst) ps with
  | some e => throw e
  | none => pure ()
  match s.writesClash ps es.length with
  | some n => throw { code := 3, check := 7, stage := n }
  | none => pure ()
  let sched := (List.range (sectCount l 3)).map fun i => readSched r (entryAt l a 3 i 8)
  match schedBad es sched [] with
  | some e => throw e
  | none => pure ()
  if !shardOk r a s.node l then throw (grpErr0 7 0 0)
  let us := (List.range (sectCount l 8)).map fun i => readUGroup r (entryAt l a 8 0 0 + 128 + 128 * i)
  let commit := if (sect l 8).isSome then r.le (entryAt l a 8 0 0) 6 else 0
  let curves := (List.range (sectCount l 9)).map fun i => readCurve r (entryAt l a 9 i 520)
  match if (sect l 8).isSome then s.checkUGroups groups commit us curves else curveErr curves with
  | some e => throw e
  | none => pure ()
  let colls := readColls r a l
  match colls.map (s.collBad groups us) |>.find? (· != 0) with
  | some code => throw (grpErr0 code 0 0)
  | none => pure ()
  let acc (n ph : Nat) := ((ps.filter fun p => p.1 == n && p.2.1 == ph).flatMap fun p =>
    accumOut (env n) p.2.2.2).dedup
  let stages := es.map fun e =>
    { core := Fin.ofNat 54 (coreOf got (at0 e 0)), base := streamBase es (at0 e 0), nfwd := at0 e 4,
      nbwd := at0 e 5, neval := at0 e 6, accum := [acc (at0 e 0) 0, acc (at0 e 0) 1, acc (at0 e 0) 2] : Stage }
  let prog : Prog :=
    { addr := a, len := r.le (a + 16) 8, steps := r.le (a + 24) 8, fuse := fuse,
      stages := stages, schedule := sched, chains := chains, handles := handles,
      allocIds := allocAddrs.map fun p => r.le p 2, shardGroups := groups, colls := colls, ugroups := us,
      hasUpd := (sect l 8).isSome, commit := commit, curves := curves }
  pure (prog, es.map fun e => entryAt l a 2 (at0 e 3) 80)

/-- The fields of an image that the checks of R217 passed, and the state with its allocations and
descriptors. -/
def State.checkImage (s : State) (a room : Nat) : Except LoadErr (Prog × List Nat × State) := do
  let r := s.openRd
  let l ← checkHeader r a room
  if r.le (a + 4) 2 ≠ 1 then throw (imgErr 1)
  let s ← s.loadAllocs r ((List.range (sectCount l 6)).map fun i => entryAt l a 6 i 32)
  let s ← s.loadDescs r (readGroups r a l) 0 ((List.range (sectCount l 4)).map fun i => entryAt l a 4 i 256)
  let p ← s.checkProg r a l
  pure (p.1, p.2, s)

/-- Cores of a die that no stage of a list has, and that are not retired. -/
def State.freeCores (s : State) (stages : List Stage) (d : Nat) : List Nat :=
  ((List.range 9).map (9 * d + ·)).filter fun c =>
    !(stages.any fun st => st.core.val == c) && !(s.core c).retired

/-- The empty stages of R189, after the image's. DESIGN CHOICE: the highest-numbered core is left as the
spare (log entry 55). -/
def State.emptyStages (s : State) (stages : List Stage) : List Stage :=
  (List.range 6).flatMap fun d =>
    let n := (stages.filter fun st => st.core.val / 9 == d).length
    if n = 0 then []
    else ((s.freeCores stages d).take (8 - n)).map fun c =>
      { core := Fin.ofNat 54 c, base := nearBase d, nfwd := 0, nbwd := 0, neval := 0, accum := [] }

/-- The core left on a die with stages is its spare: clock-gated, and shown as such (R19, R38). -/
def State.markSpares (s : State) (stages : List Stage) : State :=
  (List.range 6).foldl (fun s d =>
    if stages.any (fun st => st.core.val / 9 == d) then
      (s.freeCores stages d).foldl (fun s c =>
        let s := s.setRegF (Reg.CORE_ISLAND_STAT c) 9 9 1
        if s.pstate c = 3 then s else s.setPstate c 1) s
    else s) s

/-- `GLB_LOAD_STAT` and `GLB_GRP_LOAD_ERR` of a load (R218, R313). -/
def State.setLoadStat (s : State) (e : LoadErr) : State :=
  let s := s.setReg Reg.GLB_LOAD_STAT (BitVec.ofNat 32
    (e.code * 2 ^ 28 + e.check * 2 ^ 24 + e.seg * 2 ^ 22 + e.stage % 64 * 2 ^ 16 + e.index % 2 ^ 16))
  s.setReg Reg.GLB_GRP_LOAD_ERR (match e.grp with
    | some (no, test, g) => BitVec.ofNat 32 (2 ^ 31 + no.toNat * 2 ^ 30 + test * 2 ^ 24 + g)
    | none => 0)

/-- What the load of a program writes: streams, allocations with `ZERO`, records. -/
def State.loadRanges (s : State) (p : Prog) : List (Nat × Nat) :=
  (p.stages.map fun x => (x.base, 80 * (x.nfwd + x.nbwd + x.neval))) ++
    (p.allocIds.filterMap fun i => match s.alloc i with
      | some x => if x.zero then some (x.base, x.size) else none
      | none => none) ++
    p.ugroups.map fun u => (u.recBase, 64 + (if u.kind = 1 then 16 * u.slots else 0))

/-- The loader can reach the image, and all that the load of a faultless one writes (R27, R262, R431). -/
def State.loadReach (s : State) (a room : Nat) : Bool :=
  s.memPath s.ctlDie a room && match s.checkImage a room with
    | .ok (p, _, t) => (t.loadRanges p).all fun r => t.memPath t.ctlDie r.1 r.2
    | .error _ => true

/-- n zero bytes written. -/
def State.zeroRange (s : State) (a n : Nat) : State := s.put .other a (List.replicate n 0) false

/-- The program takes its place (R184, R189, R190, R247, R283, R217). Its step number starts anew at 0. -/
def State.install (s : State) (p : Prog) (streams : List Nat) : State :=
  let r := s.openRd
  let meas := sha512 (r.list p.addr p.len)
  let data := (p.stages.zip streams).map fun x =>
    (x.1.base, r.list x.2 (80 * (x.1.nfwd + x.1.nbwd + x.1.neval)))
  let s := (s.drewRange p.addr p.len).readRange p.addr p.len
  let s := data.foldl (fun s x => s.put .other x.1 x.2 false) s
  let s := p.allocIds.foldl (fun s i => match s.alloc i with
    | some x => if x.zero then s.zeroRange x.base x.size else s
    | none => s) s
  let s := p.ugroups.foldl (fun s u =>
    s.zeroRange u.recBase (64 + (if u.kind = 1 then 16 * u.slots else 0))) s
  let stages := p.stages ++ s.emptyStages p.stages
  let holds := s.ctl.holdWaiters
  let s := { s with prog := some { p with stages := stages }, staged := [], norms := [], engines := [],
                    ctl := { Ctl.reset with holdWaiters := holds } }
  let s := (s.setWords (Reg.SEC_IMG_MEAS 0) meas).setReg Reg.GLB_STEP_NUM 0
  let s := (List.range 54).foldl (fun s c => s.setReg (Reg.DRN_CTL c) (BitVec.ofNat 32 p.fuse.toNat)) s
  let s := s.markSpares stages
  (List.range stages.length).foldl (fun s n => s.sendBind n) s

/-- `LOAD` at an address of a far-memory allocation: the state after it and the status. -/
def State.loadAt (s : State) (a room : Nat) : Nat × State :=
  match s.checkImage a room with
  | .error e =>
    let s := s.setLoadStat e
    (e.code, match e.desc with
      | some w => (s.setReg Reg.GLB_DESC_LAST_ERR (BitVec.ofNat 32 w)).inc Reg.GLB_DESC_ERR_CNT 1
      | none => s)
  | .ok (p, streams, t) => (0, ((t.install p streams).setLoadStat { code := 0, check := 0 }).setMode 2)

end Sys2Proof.Machine
end

