-- ==== Sys2Proof/Machine/Power.lean ====
section
/-! DEFINITION. Power input, power good and its removal, power cap, thermal and droop control, island
power states, sensors and alerts (R443 to R459, R463 to R465, R488). -/

namespace Sys2Proof.Machine

open Sys2Proof

/-! ### Power -/

/-- The package's state after a reset of the whole module (R365) or a loss of its power (R444): reset
values everywhere, with what outlives it: flash, fuses and what the registers show of them (R441, R442), the pins'
state, failed rails. Memory contents are gone (DESIGN CHOICE, log entry 29). -/
def State.cleared (s : State) : State :=
  State.showOtp { State.reset with
    flash := s.flash, flashPart := s.flashPart, otp := s.otp,
    rails := railOrder.filter fun r => !s.railsOff.contains r, resetHeld := s.resetHeld, thermLatch := s.thermLatch,
    houseRail := s.houseRail, straps := s.straps, tap := s.tap, railsOff := s.railsOff, now := s.now,
    freeCtr := s.freeCtr, pending := s.pending }

/-- The module boots anew, and reports the change (R360, R365). -/
def State.bootAnew (s : State) : State := s.cleared.setMode 0

/-- Package power is removed (R444, R488): nothing is written or recorded; the test port is held in
reset (R490, R493). -/
def State.powerOff (s : State) : State :=
  { s.cleared with power := .off, rails := [], railsOff := [], tap := Tap.reset }

/-- INPUT_TURN_ON (R443, R447, R483, R488): from an unpowered package, soft start begins, and the housekeeping rail is
there. While `MOD_RESET_N` is held low the module stays unpowered: where the input comes back it only raises the
housekeeping rail, and where it was there the event is the release of the pin, for which the table has no row
(DESIGN CHOICE, log entry 164). -/
def execInputTurnOn (s : State) : Out :=
  .next (
    if s.power ≠ .off then s
    else if s.resetHeld && !s.houseRail then { s with houseRail := true }
    else { s with power := .softStart, resetHeld := false, houseRail := true })

/-- POWER_GOOD (R447, R488): the straps are sampled and the module boots. -/
def execPowerGood (straps : BitVec 3) (s : State) : Out :=
  .next (if s.power = .softStart then ({ s with straps := straps }).bootAnew else s)

/-- INPUT_SHUTDOWN (R443, R444). -/
def execInputShutdown (s : State) : Out := .next (if s.power = .off then s else s.powerOff)

/-- OVERCURRENT_TRIP (R443, R444). -/
def execOvercurrentTrip (s : State) : Out := .next (if s.power = .off then s else s.powerOff)

/-- THERMAL_TRIP (R456, R488): a shutdown that sets the `THERMTRIP_N` latch. -/
def execThermalTrip (s : State) : Out :=
  .next (if s.power = .off then s else { s.powerOff with thermLatch := true })

/-- MOD_RESET_N (R488): held low for 1 ms. The latch of `THERMTRIP_N` is released. -/
def execModResetN (s : State) : Out :=
  .next { (if s.power = .off then s else s.powerOff) with resetHeld := true, thermLatch := false }

/-- HOUSEKEEPING_RAIL_DOWN (R483, R488): `VIN` falls below 40 V. -/
def execHousekeepingRailDown (s : State) : Out := .next { s with houseRail := false, thermLatch := false }

/-- REGULATOR_FAIL (R448): the rail is turned off and its islands are held in reset; a stage core then fails R27
(CORE_FAIL), anything else loses its polder. The halves of an edge die are separate reset domains, so that a half's
rail resets the islands of that half (DEDUCED, log entry 30). The 6 V bus shuts the module down, in soft start too. -/
def execRegulatorFail (r : Rail) (s : State) : Out :=
  if s.power = .off ∨ (s.power = .softStart ∧ r ≠ .bus6v) ∨ s.railsOff.contains r = true then .next s
  else
    let t := (railIslands r).foldl (fun s i => s.enterReset i false)
      { s with railsOff := s.railsOff ++ [r], rails := s.rails.filter (· != r) }
    match r with
    | .bus6v => .next s.powerOff
    | .vcore _ => .next t
    | .vnoc d => .next (t.polderLoss s.ctlIsl d d none)
    | .vsram d => .next (t.polderLoss s.ctlIsl d d none)
    | .vedge h => .next (t.polderLoss (60 + h.val / 2) (6 + h) h none)
    | .vserdes h => .next (t.polderLoss (60 + h.val / 2) (6 + h) h none)
    | .lpddr h => .next (t.polderLoss (60 + h.val / 2) (6 + h) h none)

/-! ### Clocks -/

/-- Every core out of reset takes its clock of R450 as due when it differs from the set one; a higher one raises
its voltage first (R446). -/
def State.dueClocks (s : State) : State :=
  (List.range 54).foldl (fun s c =>
    let k := s.core c
    let f := s.coreClock c
    if (s.island c).inReset ∨ f = k.setClk then
      (if k.clkDue = none then s else s.setCore c { k with clkDue := none })
    else s.setCore c (k.stepDue (c / 9) f)) s

/-- The cap clock after an evaluation (R450). -/
def capAfter (cap p l hyst fmax : Nat) : Nat :=
  if l < p then max 20 (cap - 1)
  else if p + hyst < l ∧ cap < fmax then cap + 1
  else cap

/-- Input energy of 100 µs at p watts is added (R463). -/
def State.addEnergy (s : State) (p : Nat) : State :=
  let e := s.energy + 100 * p
  ({ s with energy := e }).setReg48 Reg.PWR_ENERGY_LO Reg.PWR_ENERGY_HI (e / 1000 % 2 ^ 48)

/-- POWER_CAP_EVAL (R449, R450, R463). -/
def execPowerCapEval (p : BitVec 16) (s : State) : Out :=
  let l := s.powerLimit
  let cap := capAfter (s.regF Reg.PWR_STAT 23 16) p.toNat l (s.regF Reg.PWR_CAP_HYST 15 0) s.fmax
  let s := (s.setRegF Reg.PWR_STAT 23 16 cap).setRegF Reg.PWR_STAT 15 0 l
  let s := s.setRegF Reg.PWR_STAT 30 30 (if cap < s.fmax then 1 else 0)
  let s := s.setRegF Reg.PWR_STAT 28 28 (if cap = 20 ∧ l < p.toNat then 1 else 0)
  .next (s.addEnergy p.toNat).dueClocks

/-- A sensor's value as a number of its encoding: temperatures are signed. -/
def sensorNum (j v : Nat) : Int :=
  if (6 ≤ j ∧ j ≤ 8) ∨ (32 ≤ j ∧ j ≤ 145) then signed v 24 else v

/-- The temperature of a stage core in 1/16 °C, when its sensor is valid. -/
def State.coreTemp (s : State) (c : Nat) : Option Int :=
  let w := (s.viewSensor (32 + c)).toNat
  if bit w 31 then some (signed (fld w 23 0) 24) else none

/-- `PWR_THROTTLE_T` as it acts (R463). -/
def State.throttle (s : State) : Int := min 1600 (signed (s.regF Reg.PWR_THROTTLE_T 15 0) 16)

/-- The thermal clock after an evaluation (R454). -/
def thermAfter (clk : Nat) (t thr : Int) : Nat :=
  if thr ≤ t then max 20 (clk - 1) else if t < thr - 80 then min 72 (clk + 1) else clk

/-- THERMAL_EVAL (R454): a written `PWR_THROTTLE_T` takes effect (R463). -/
def execThermalEval (s : State) : Out :=
  let s := (List.range 54).foldl (fun s c =>
    match s.coreTemp c with
    | none => s
    | some t =>
      let k := s.core c
      if (s.island c).inReset then s
      else s.setCore c { k with thermClk := thermAfter k.thermClk t s.throttle }) s
  .next ({ s with actThrottle := s.throttle }.noteTherm).dueClocks

/-- CORE_THERMAL_GATE (R455): gated at the throttle temperature plus 10 °C and 1.0 GHz, released at the
throttle temperature. -/
def execCoreThermalGate (c : Core) (s : State) : Out :=
  let k := s.core c
  match s.coreTemp c with
  | none => .next s
  | some t =>
    if k.thermGated = true ∧ t ≤ s.actThrottle then
      .next ((s.setCore c { k with thermGated := false }).ungate c)
    else if k.thermGated = false ∧ s.pstate c = 0 ∧ k.thermClk = 20 ∧ s.actThrottle + 160 ≤ t then
      .next ((s.setCore c { k with thermGated := true }).setPstate c 1)
    else .next s

/-- DROOP_RESPONSE (R452): while the core's clock runs. -/
def execDroopResponse (c : Core) (s : State) : Out :=
  let k := s.core c
  if k.droop = true ∨ s.pstate c ≠ 0 then .next s
  else .next ((s.setCore c { k with droop := true, droopAt := s.now }).inc Reg.PWR_DROOP_CNT 1)

/-- DROOP_END (R452): after at least 1 µs; a step that fell due is applied. -/
def execDroopEnd (c : Core) (s : State) : Out :=
  let k := s.core c
  if k.droop = false ∨ s.now < k.droopAt + 1 then .next s
  else
    let f := k.clkDue.getD k.setClk
    let s := s.setCore c (({ k with droop := false } : CoreSt).stepClock (c / 9) f)
    .next (if s.pstate c = 0 then s.setRegF (Reg.CORE_ISLAND_STAT c) 23 16 f else s)

/-! ### Island power states (R457 to R459) -/

/-- The state that a class may enter under a budget in ns: its bounds in the order clock-gated,
retention, off. -/
def deepest (budget : Nat) (hasRet : Bool) (offBound : Option Nat) : Nat :=
  if (match offBound with
      | some b => decide (b ≤ budget)
      | none => false) then 3
  else if hasRet && decide (20000 ≤ budget) then 2
  else if 50 ≤ budget then 1
  else 0

/-- The bound of a state of class k, in ns. -/
def stateBound (k st : Nat) : Nat :=
  if st = 0 then 0
  else if st = 1 then 50
  else if st = 2 then 20000
  else 2000000 + (if k = 0 then 20000 else if k = 2 then 4000 else 0)

/-- The class of a function (R458). -/
def pwrClass : PwrFn → Nat
  | .core _ => 0
  | .dieNoc _ => 1
  | .chan _ => 2
  | .engines _ => 3

/-- The deepest state of a function under its class's budget. -/
def State.deepestOf (s : State) (f : PwrFn) : Nat :=
  let k := pwrClass f
  deepest (s.reg (Reg.PWR_LATBUDGET k)).toNat true (if k = 1 then none else some (stateBound k 3))

/-- The power state of a channel or of a half's engines (R457). -/
def State.pwrState (s : State) (key : Nat) : Nat := SMap.get (fun _ => 0) s.pwrStates key
def State.setPwrState (s : State) (key v : Nat) : State :=
  { s with pwrStates := SMap.set (fun _ => 0) s.pwrStates key v }

/-- The power state of a function. A die NoC that is clock-gated shows a stopped clock with `PSTATE`
0b00 (R470). -/
def State.fnState (s : State) : PwrFn → Nat
  | .core c => s.pstate c
  | .dieNoc d =>
    if s.regF (Reg.DIE_TEL_ISLAND_STAT d) 11 10 = 2 then 2
    else if s.regF (Reg.DIE_TEL_ISLAND_STAT d) 23 16 = 0 then 1
    else 0
  | .chan ch => s.pwrState ch
  | .engines h => s.pwrState (192 + h)

/-- Every queue of a core is empty and no segment runs or drains. -/
def CoreSt.idle (k : CoreSt) : Bool :=
  k.seg.isNone && k.cur.isNone && k.prev.isNone && k.cmdq.isEmpty && k.xin.isEmpty && k.held.isEmpty &&
    k.cplq.isEmpty && k.aq.isEmpty && k.bq.isEmpty && k.ixq.isEmpty && k.wfq.isEmpty && k.sumq.isEmpty &&
    k.drq.isEmpty && k.drHeld.isEmpty

/-- No collective is in progress (R458): none waits to start, and the all-gathers of the latest step that started
some are complete. -/
def State.collsIdle (s : State) : Bool :=
  s.staged.isEmpty && s.norms.isEmpty && decide (s.ctl.step ≤ s.ctl.collStep) && match s.prog with
    | none => true
    | some p => decide (s.ctl.collStep ≤ s.committed) || (List.range p.colls.length).all fun i => match s.ring i with
      | some R => s.gatherDone R s.ctl.collStep
      | none => true

/-- A function is idle (R458). Class 0 holds the assigned cores: those that carry a stage. -/
def State.fnIdle (s : State) : PwrFn → Bool
  | .core c =>
    (match s.prog with
     | some p => p.stages.any fun st => st.core == c
     | none => false) && (s.island c).ready && !(s.core c).thermGated && (s.core c).idle
  | .dieNoc d =>
    (s.island (54 + d.val)).ready && (s.die d).pred.isNone && (s.die d).predQ.isEmpty && (s.die d).held.isEmpty &&
      (dirsFrom d).all (fun k => (s.bridge k).resend.isEmpty) &&
      (List.range 9).all fun c => decide (2 ≤ s.pstate (9 * d.val + c))
  | .chan ch => decide (s.chanState ch = 2) && (s.chan ch).retireQ.isEmpty && (s.chan ch).queue.isEmpty
  | .engines h =>
    (s.engine h).groups.all (fun x => match x.2 with
      | some r => r.localDone || r.skipped
      | none => true) && (s.engine h).inQ.isEmpty && (s.engine h).normQ.isEmpty &&
      (s.engine h).rebuild.isNone && s.collsIdle

/-- A stage core's rail goes down with its off state (R458). -/
def State.railDown (s : State) (c : Core) : State := { s with rails := s.rails.filter (· != Rail.vcore c) }

/-- A function enters a state: one that goes off is held in reset while its rail is down, a channel's device in
self-refresh; of its training, steps 4 to 7 are lost (R458). -/
def State.enterPower (s : State) (f : PwrFn) (st : Nat) : State :=
  match f with
  | .core c => ((if st = 3 then (s.enterReset c true).railDown c else s).setPstate c st)
  | .dieNoc d =>
    (s.setRegF (Reg.DIE_TEL_ISLAND_STAT d) 11 10 (if st = 2 then 2 else 0)).setRegF
      (Reg.DIE_TEL_ISLAND_STAT d) 23 16 0
  | .chan ch =>
    let s := if st = 3 then (s.enterReset (80 + ch) true).setChan ch { s.chan ch with trainDone := 3 } else s
    s.setPwrState ch st
  | .engines h => s.setPwrState (192 + h) st

/-- A function wakes (R457 to R459): an off stage core leaves reset, and its stage binding and the
current step go ahead of what waits for it; an off channel's PHY leaves reset, and steps 4 to 7 of its training
run again. DEDUCED: they are no retrain of R262, and its count does not move (log entry 161). -/
def State.wake (s : State) (f : PwrFn) : State :=
  match f with
  | .core c =>
    if s.pstate c = 3 then s.leaveReset c
    else s.ungate c
  | .dieNoc d =>
    (s.setRegF (Reg.DIE_TEL_ISLAND_STAT d) 11 10 0).setRegF (Reg.DIE_TEL_ISLAND_STAT d) 23 16 0x28
  | .chan ch =>
    let s := if s.pwrState ch = 3 then (s.leaveReset (80 + ch)).setChan ch { s.chan ch with trainDone := 9 } else s
    s.setPwrState ch 0
  | .engines h => s.setPwrState (192 + h) 0

/-- IDLE_ENTRY (R459): an idle function enters the deepest state that its class and budget allow. -/
def execIdleEntry (f : PwrFn) (s : State) : Out :=
  .next (if s.fnIdle f && decide (s.fnState f < s.deepestOf f) then s.enterPower f (s.deepestOf f) else s)

/-- A function that a request may wake: not held in reset, not the spare, not thermally gated. -/
def State.wakeable (s : State) (f : PwrFn) : Bool :=
  decide (s.fnState f ≠ 0) && match f with
    | .core c => !s.keptInReset c && !s.isSpare c && !(s.core c).thermGated &&
        (decide (s.pstate c ≠ 3) || match s.prog with
          | some p => p.stages.any fun st => st.core == c
          | none => false)
    | .chan ch => !s.keptInReset (80 + ch) || decide (s.pwrState ch ≠ 3)
    | _ => true

/-- POWER_STATE_WAKE (R459). -/
def execPowerStateWake (f : PwrFn) (s : State) : Out := .next (if s.wakeable f then s.wake f else s)

/-- The functions of a class. -/
def fnsOfClass (k : Nat) : List PwrFn :=
  match k with
  | 0 => (List.finRange 54).map .core
  | 1 => (List.finRange 6).map .dieNoc
  | 2 => (List.finRange 192).map .chan
  | _ => (List.finRange 4).map .engines

/-- A write of a budget (R459): functions whose present state's bound exceeds it resume at once. -/
def State.budgetWritten (s : State) (k : Nat) : State :=
  (fnsOfClass k).foldl (fun s f =>
    if s.wakeable f && decide ((s.reg (Reg.PWR_LATBUDGET k)).toNat < stateBound k (s.fnState f)) then
      s.wake f
    else s) s

/-! ### Sensors and alerts (R464, R465) -/

/-- Sensors that exist (R464). -/
def sensorExists (j : Nat) : Bool :=
  decide (j ≤ 8) || decide (16 ≤ j ∧ j ≤ 26) || decide (32 ≤ j ∧ j ≤ 85) || decide (88 ≤ j ∧ j ≤ 145) ||
    decide (146 ≤ j ∧ j ≤ 199)

/-- Alert k is enabled on a valid sensor whose value has reached the threshold: its `HIT` bit is set,
and logged when it was clear (R465). -/
def State.checkAlert (s : State) (k : Nat) : State :=
  let sel := (s.reg (Reg.TEL_ALERT_SEL k)).toNat
  let j := fld sel 7 0
  let w := (s.viewSensor j).toNat
  if bit sel 31 && bit w 31 &&
      decide (sensorNum j (s.regF (Reg.TEL_ALERT_VAL k) 23 0) ≤ sensorNum j (fld w 23 0)) then
    let was := s.regF Reg.TEL_ALERT_STAT k k
    let s := s.setRegF Reg.TEL_ALERT_STAT k k 1
    if was = 0 then s.logNamed s.ctlIsl 0x0105 k else s
  else s

/-- Alerts that a write of 1 clears are set again while their sensors stand at the threshold (R11, R465). -/
def State.recheckAlerts (s : State) (mask : Nat) : State :=
  (List.range 8).foldl (fun s k => if bit mask k then s.checkAlert k else s) s

/-- The input registers that sensors 0 and 1 feed: `IN_RANGE`, and `PWR_PEAK` from voltage and current sampled
together (DEDUCED, log entry 31). -/
def State.inputSample (s : State) (j : Nat) : State :=
  let at_ := (if j = 0 then some s.now else s.inputAt.1, if j = 1 then some s.now else s.inputAt.2)
  let s := { s with inputAt := at_ }
  let v := s.regF (Reg.TEL_SENSOR 0) 23 0
  let s := if j = 0 then
      s.setRegF Reg.PWR_STAT 31 31 (if 54000 ≤ v ∧ v ≤ 66000 then 1 else 0) else s
  if j ≤ 1 ∧ at_.1 = at_.2 then
    let p := min (v * s.regF (Reg.TEL_SENSOR 1) 23 0 / 1000000) 0xFFFF
    if s.regF Reg.PWR_PEAK 15 0 < p then s.setRegF Reg.PWR_PEAK 15 0 p else s
  else s

/-- SENSOR_UPDATE (R464, R465): a new sample, and the alerts on it; an input of 40 V or more runs the housekeeping
regulator (R483). -/
def execSensorUpdate (j : Fin 256) (v : BitVec 24) (s : State) : Out :=
  if sensorExists j = false ∨ s.lostPolders.contains (6 + sensorHalf j) = true then .next s
  else
    let s := if j.val = 0 ∧ 40000 ≤ v.toNat then { s with houseRail := true } else s
    let s := (s.setReg (Reg.TEL_SENSOR j) (BitVec.ofNat 32 (2 ^ 31 + v.toNat))).inputSample j
    .next ((List.range 8).foldl (fun s k =>
      if s.regF (Reg.TEL_ALERT_SEL k) 7 0 = j.val then s.checkAlert k else s) s)

end Sys2Proof.Machine
end

