-- ==== Sys2Proof/Machine/RegAccess.lean ====
section
/-! DEFINITION. Writes of the control space (R9 to R11): the fields a write sets or clears, and what a
write starts. -/

namespace Sys2Proof.Machine

open Sys2Proof

/-! ### The event-counter blocks (R472 to R475) -/

/-- The block and the offset in it of an address in a counter block. -/
def evcPlace (a : Nat) : Option (Nat × Nat) :=
  let w := a / 0x01000000
  let off := a % 0x01000000
  if w = 0 then none
  else if w < 7 ∧ 0x00100000 ≤ off then
    let o := off % 0x00100000
    if o < 0xF000 then none else some ((w - 1) * 9 + (off / 0x00100000 - 1), o - 0xF000)
  else if off < 0xC0000 then none
  else some (53 + w, off - 0xC0000)

/-- `OVF` of the counters that a mask names is cleared (R475). -/
def State.clearOvf (s : State) (b v : Nat) : State :=
  (List.range (evcSize b)).foldl
    (fun s i => if bit v i then s.setRegF (Reg.EVC_SEL b i) 30 30 0 else s) s

/-- A write of `EVC_SEL_i` (R473). -/
def State.evcWriteSel (s : State) (b i v : Nat) : State :=
  let a := Reg.EVC_SEL b i
  let keep := fld (s.reg a).toNat 30 30 * (1 - fld v 30 30)
  s.setReg a (BitVec.ofNat 32 (setFld (evcSelStored b (v &&& 0xB07F03FF)) 30 30 keep))

/-- A write of `EVC_CTL` (R474). DESIGN CHOICE: of `SNAP` and `CLEAR` in one write, the snapshot comes
first (log entry 57). -/
def State.evcWriteCtl (s : State) (b v : Nat) : State :=
  let s := s.setReg (Reg.EVC_CTL b) (BitVec.ofNat 32 (v &&& 0xE))
  let s := if bit v 4 then s.evcSnap b 1 else s
  if bit v 5 then s.evcClear b else s

/-- A write at an offset of a counter block. -/
def State.writeEvc (s : State) (b o : Nat) (v : Word) : State :=
  if o < 0x400 then
    if o % 32 = 0 then s.evcWriteSel b (o / 32) v.toNat
    else if o % 32 = 4 then s.evcWriteLo b (o / 32) v
    else if o % 32 = 8 then s.evcWriteHi b (o / 32) v
    else s
  else if o = 0x800 then s.evcWriteCtl b v.toNat
  else if o = 0x804 then s.clearOvf b v.toNat
  else s

/-! ### Other registers -/

/-- Fabric window 3 belongs to firmware while a twin is configured (R395): a write has no effect then. -/
def State.winLocked (s : State) (a : Nat) : Bool :=
  s.hasTwin && decide (0x07000000 ≤ a) && decide (0x30870 ≤ a % 0x01000000) &&
    decide (a % 0x01000000 < 0x30880)

/-- What a write starts beyond the fields it sets: `GLB_EVC_CTL` (R469), `FLT_RESTORE_CTL` (R403),
`PWR_LATBUDGET_k` (R459), `TEL_ALERT` (R465), `UPD_RECOMP_REQ` (R303), `CLV_PORT_CTL` (R344). -/
def State.writeStarts (s : State) (a : Nat) (v : Word) : State :=
  let n := v.toNat
  let off := a % 0x01000000
  if a = Reg.GLB_EVC_CTL then
    let s := if bit n 0 then s.evcBroadcast false else s
    if bit n 1 then s.evcBroadcast true else s
  else if a = Reg.FLT_RESTORE_CTL then (if bit n 0 then s.restoreStart else s)
  else if 0x620 ≤ a ∧ a < 0x630 then s.budgetWritten ((a - 0x620) / 4)
  else if 0xC00 ≤ a ∧ a < 0xC40 then s.checkAlert ((a - 0xC00) / 8)
  else if a = Reg.TEL_ALERT_STAT then s.recheckAlerts n
  else if a < 0x07000000 then s
  else if off = 0x20058 ∨ off = 0x21058 then
    s.recompReq (2 * (a / 0x01000000 - 7) + (off - 0x20058) / 0x1000) v
  else if 0x30000 ≤ off ∧ off < 0x30800 ∧ off % 0x100 = 4 then
    let p := 8 * (a / 0x01000000 - 7) + (off - 0x30000) / 0x100
    let s := if bit n 1 then s.fencePort p else s
    if bit n 0 then s.unfencePort p else s
  else s

/-- The word that a write leaves: RW fields as written, W1C fields cleared where a 1 is written, every
other bit kept (R9, R10). -/
def RegRow.written (r : RegRow) (old v : Word) : Word :=
  let rw := BitVec.ofNat 32 r.rw
  (old &&& ~~~rw &&& ~~~(BitVec.ofNat 32 r.w1c &&& v)) ||| (v &&& rw)

/-- A write of the control space (R9 to R11, R467). -/
def State.writeReg (s : State) (a : Nat) (v : Word) : State :=
  match regRow a with
  | none => s.unmapped a true
  | some r =>
    match evcPlace a with
    | some (b, o) => s.writeEvc b o v
    | none => if s.winLocked a then s else (s.setReg a (r.written (s.reg a) v)).writeStarts a v

/-- REGISTER_WRITE (R9, R10) by the host's queues or firmware. -/
def execRegisterWrite (_a : Accessor) (addr : BitVec 32) (v : Word) (s : State) : Out :=
  .next (s.writeReg addr.toNat v)

end Sys2Proof.Machine
end

