-- ==== Sys2Proof/Machine/Host.lean ====
section
/-! DEFINITION. The host commands (R356 to R374, R434, R435): their field checks, the states they are legal
in, their effects and their responses. -/

namespace Sys2Proof.Machine

open Sys2Proof

/-! ### The course of a command -/

/-- A field of `ARGS`: its highest and lowest byte, and the values it may have. -/
abbrev ArgF := Nat × Nat × (Nat → Bool)

/-- A field without limits, and a reserved one. -/
def anyF (hi lo : Nat) : ArgF := (hi, lo, fun _ => true)
def rsvF (hi lo : Nat) : ArgF := (hi, lo, fun v => v == 0)
/-- A field within limits. -/
def inF (hi lo a b : Nat) : ArgF := (hi, lo, fun v => decide (a ≤ v ∧ v ≤ b))
/-- A byte count of a read: the data of a response has a multiple of 4 bytes (R351; DEDUCED, log entry 61). -/
def lenF (hi lo : Nat) : ArgF := (hi, lo, fun v => decide (4 ≤ v ∧ v ≤ 8192 ∧ v % 4 = 0))
/-- A result window, or the dump's (R358, R374). -/
def winF (hi lo : Nat) : ArgF := (hi, lo, fun v => decide (v ≤ 63 ∨ v = 255))

/-- The fields of a command's `ARGS` in order (R358). -/
def cmdFields (cmd : Nat) : List ArgF :=
  if cmd = 0x02 ∨ cmd = 0x03 then [anyF 3 0, inF 5 4 1 64, rsvF 19 6]
  else if cmd = 0x11 ∨ cmd = 0x12 ∨ cmd = 0x13 then [anyF 1 0, rsvF 19 2]
  else if cmd = 0x20 ∨ cmd = 0x30 then [anyF 5 0, rsvF 19 6]
  else if cmd = 0x21 then [anyF 5 0, rsvF 7 6, lenF 9 8, rsvF 19 10]
  else if cmd = 0x32 then [anyF 3 0, rsvF 19 4]
  else if cmd = 0x40 then [inF 1 0 0 15, anyF 3 2, anyF 5 4, inF 6 6 2 64, rsvF 19 7]
  else if cmd = 0x41 then [inF 1 0 0 15, rsvF 19 2]
  else if cmd = 0x42 then [inF 1 0 0 15, rsvF 3 2, anyF 7 4, anyF 13 8, rsvF 19 14]
  else if cmd = 0x43 then [inF 1 0 0 15, rsvF 3 2, anyF 7 4, rsvF 19 8]
  else if cmd = 0x50 then
    [inF 1 0 0 63, anyF 3 2, anyF 9 4, (13, 10, fun v => decide (4 ≤ v ∧ v ≤ 0x4000000 ∧ v % 4 = 0)),
     anyF 15 14, inF 16 16 1 64, rsvF 19 17]
  else if cmd = 0x51 then [inF 1 0 0 63, rsvF 19 2]
  else if cmd = 0x52 then [winF 1 0, rsvF 3 2, anyF 7 4, anyF 11 8, lenF 13 12, rsvF 19 14]
  else if cmd = 0x53 then [winF 1 0, rsvF 3 2, anyF 7 4, rsvF 19 8]
  else [rsvF 19 0]

/-- The length of a command's payload is allowed (R358). -/
def lenOk (cmd : Nat) (h : HostCmd) : Bool :=
  let n := h.payload.length
  if cmd = 0x03 then n == 4 * harg h 5 4
  else if cmd = 0x10 then n == 32
  else if cmd = 0x12 then n == 256
  else if cmd = 0x20 ∨ cmd = 0x42 then decide (4 ≤ n ∧ n ≤ 8192)
  else if cmd = 0x60 then n == 64
  else n == 0

/-- The first faulty field of a command's `ARGS`: its byte offset. -/
def firstBadArg (h : HostCmd) (l : List ArgF) : Option Nat :=
  (l.find? fun f => !f.2.2 (harg h f.1 f.2.1)).map fun f => f.2.1

/-- A malformed command (R358): the offset of the first faulty field, or none for its length. -/
def cmdBad (cmd : Nat) (h : HostCmd) : Option (Option Nat) :=
  match firstBadArg h (cmdFields cmd) with
  | some off => some (some off)
  | none => if lenOk cmd h then none else some none

/-- A command is legal in a module state (R361). -/
def cmdLegal (cmd mode : Nat) : Bool :=
  if cmd ≤ 2 then true
  else if cmd = 0x03 ∨ cmd = 0x21 ∨ cmd = 0x60 then decide ((1 ≤ mode ∧ mode ≤ 4) ∨ mode = 6)
  else if cmd = 0x10 ∨ cmd = 0x11 ∨ cmd = 0x20 then decide (mode = 1 ∨ mode = 2 ∨ mode = 4)
  else if cmd = 0x12 ∨ cmd = 0x13 then decide (1 ≤ mode ∧ mode ≤ 4)
  else if cmd = 0x30 then decide (mode = 1)
  else if cmd = 0x31 ∨ cmd = 0x32 ∨ cmd = 0x40 ∨ cmd = 0x41 ∨ cmd = 0x50 ∨ cmd = 0x51 then
    decide (mode = 2 ∨ mode = 4)
  else if cmd = 0x33 then decide (mode = 3)
  else if cmd = 0x34 then decide (mode = 1 ∨ mode = 2 ∨ mode = 4 ∨ mode = 6)
  else if cmd = 0x42 ∨ cmd = 0x43 then decide (2 ≤ mode ∧ mode ≤ 4)
  else if cmd = 0x52 ∨ cmd = 0x53 then decide ((2 ≤ mode ∧ mode ≤ 4) ∨ mode = 6)
  else decide (mode = 1 ∨ mode = 6)

/-- It is the command's turn (R356): of a command that its queue has accepted, when it is the oldest one not
yet answered; a command that no lane has brought takes effect as it stands (DESIGN CHOICE, log entry 62). An
unpowered module runs nothing. -/
def State.hostTurn (s : State) (h : HostCmd) (cmd : Nat) : Bool :=
  let q := s.hostQ h.qid.val
  decide (s.power = .good) &&
    (!(q.accepted.any fun e => e.2.cseq == h.cseq) || q.accepted.head? == some (BitVec.ofNat 16 cmd, h))

/-- The course of a command (R356 to R358, R361, R362): its fields, then the state, then its effect. `bad`
and `ok` are the answers of the first two checks. -/
def State.runCmd (s : State) (h : HostCmd) (cmd : Nat) (bad : Option (Option Nat)) (ok : Bool)
    (act : State → State) : Out :=
  if !s.hostTurn h cmd then .next s
  else match bad with
    | some (some off) => .next (s.badCommand h cmd off)
    | some none => .next (s.badLen h cmd)
    | none => .next (if ok then act s else s.conflict h cmd)

/-- A command of the table of R358. -/
def State.hostRun (s : State) (h : HostCmd) (cmd : Nat) (act : State → State) : Out :=
  s.runCmd h cmd (cmdBad cmd h) (cmdLegal cmd s.mode) act

/-- OK without anything more. -/
def State.ok (s : State) (h : HostCmd) (cmd : Nat) : State := s.respond h cmd 0 0 []

/-- The result word of R103 in a refusal with `DESC_RANGE` of a command that checks no descriptor (R357): code
1, an index that names no dimension or array; its check and its handle, which the spec does not state, are
free values (log entry 63). -/
def rangeWord (v : Nat) : Nat := 2 ^ 28 + v % 2 ^ 4 * 2 ^ 24 + 0xFF * 2 ^ 16 + v / 2 ^ 4 % 2 ^ 16

/-- A refusal with `DESC_RANGE`. -/
def State.refuseRange (s : State) (h : HostCmd) (cmd : Nat) : State :=
  s.draw.2.respond h cmd 1 (rangeWord s.draw.1.toNat) []

/-! ### Status and registers -/

/-- NOP. -/
def execNop (h : HostCmd) (s : State) : Out := s.hostRun h 0x00 fun s => s.ok h 0x00

/-- STATUS: `GLB_STATE`, `GLB_STEP_NUM`, `GLB_STEP_LIMIT`. -/
def execStatus (h : HostCmd) (s : State) : Out :=
  s.hostRun h 0x01 fun s =>
    s.respond h 0x01 0 (2 ^ 32 * (s.reg Reg.GLB_STATE).toNat + 2 ^ 64 * (s.reg Reg.GLB_STEP_NUM).toNat +
      2 ^ 96 * (s.reg Reg.GLB_STEP_LIMIT).toNat) []

/-- n words read from an address on. -/
def State.readRegs (s : State) (acc : Nat) : Nat → Nat → List Byte × State
  | _, 0 => ([], s)
  | a, n + 1 =>
    let r := s.readReg acc (a % 2 ^ 32)
    let t := State.readRegs r.2 acc (a + 4) n
    (leBytes 4 r.1.toNat ++ t.1, t.2)

/-- Words written from an address on. -/
def State.writeRegs (s : State) : Nat → List Word → State
  | _, [] => s
  | a, v :: l => State.writeRegs (s.writeReg (a % 2 ^ 32) v) (a + 4) l

/-- REG_READ. -/
def execRegRead (h : HostCmd) (s : State) : Out :=
  s.hostRun h 0x02 fun s =>
    let r := s.readRegs h.lane.val (harg h 3 0) (harg h 5 4)
    r.2.respond h 0x02 0 0 r.1

/-- The words of a payload. -/
def wordsOf (n : Nat) (l : List Byte) : List Word :=
  (List.range n).map fun i => BitVec.ofNat 32 (leNat ((l.drop (4 * i)).take 4))

/-- REG_WRITE. -/
def execRegWrite (h : HostCmd) (s : State) : Out :=
  s.hostRun h 0x03 fun s => (s.writeRegs (harg h 3 0) (wordsOf (harg h 5 4) h.payload)).ok h 0x03

/-! ### Allocations and descriptors (R97 to R103, R248, R358) -/

/-- ALLOC_CREATE (R248). -/
def execAllocCreate (h : HostCmd) (s : State) : Out :=
  s.hostRun h 0x10 fun s =>
    match parseAlloc (leNat h.payload) false with
    | some (id, x) => if s.allocOk id x then (s.setAlloc id (some x)).ok h 0x10 else s.refuseRange h 0x10
    | none => s.refuseRange h 0x10

/-- A descriptor, a feed, a window or the loaded image names an allocation. -/
def State.allocNamed (s : State) (id : Nat) : Bool :=
  (s.descs.any fun e => match e.2 with
    | some d => d.desc.allocId.toNat == id
    | none => false) ||
  (s.feeds.any fun e => match e.2 with
    | some f => f.target.toNat == id || f.ring.toNat == id
    | none => false) ||
  (s.windows.any fun e => match e.2 with
    | some w => w.srcAlloc.toNat == id || w.bufAlloc.toNat == id
    | none => false) ||
  (match s.prog with
   | some p => p.allocIds.contains id
   | none => false)

/-- ALLOC_FREE (R98, R358). -/
def execAllocFree (h : HostCmd) (s : State) : Out :=
  s.hostRun h 0x11 fun s =>
    let id := harg h 1 0
    if (s.alloc id).isNone then s.respond h 0x11 0xD 0 []
    else if s.allocNamed id then s.refuseRange h 0x11
    else (s.freeAlloc id).ok h 0x11

/-- The shard groups of the loaded program (R123). -/
def State.groups (s : State) : List ShardGroup := match s.prog with
  | some p => p.shardGroups
  | none => []

/-- DESC_CREATE (R97, R98, R103): the result word in either case. -/
def execDescCreate (h : HostCmd) (s : State) : Out :=
  s.hostRun h 0x12 fun s =>
    let r := s.createDesc s.groups false (harg h 1 0) (leNat h.payload)
    match r.2 with
    | none => r.1.respond h 0x12 0 (descWord (0, 0, 0xFF) (harg h 1 0)) []
    | some e => r.1.respond h 0x12 e.1 (descWord e (harg h 1 0)) []

/-- DESC_DESTROY (R98). A handle that is not live is answered with `NO_OBJECT` (DEDUCED, log entry 64). -/
def execDescDestroy (h : HostCmd) (s : State) : Out :=
  s.hostRun h 0x13 fun s =>
    if (s.desc (harg h 1 0)).isNone then s.respond h 0x13 0xD 0 []
    else (s.setDesc (harg h 1 0) none).ok h 0x13

/-! ### Memory (R262, R358, R431) -/

/-- A command that touches memory is held while that memory cannot be reached, as `reach` says (R27, R262, R431). -/
def State.heldRun (s : State) (h : HostCmd) (cmd : Nat) (reach : Bool) (act : State → State) : Out :=
  if (cmdBad cmd h).isNone && cmdLegal cmd s.mode && !reach then .next s else s.hostRun h cmd act

/-- A range that no allocation holds is refused at once; any other waits until it can be reached. -/
def State.hostReach (s : State) (a n : Nat) : Bool := (s.inAlloc a n).isNone || s.memPath s.ctlDie a n

/-- MEM_WRITE: within one live allocation. -/
def execMemWrite (h : HostCmd) (s : State) : Out :=
  s.heldRun h 0x20 (s.hostReach (harg h 5 0) h.payload.length) fun s =>
    if (s.inAlloc (harg h 5 0) h.payload.length).isSome then
      (s.put .other (harg h 5 0) h.payload false).ok h 0x20
    else s.respond h 0x20 0xC 0 []

/-- Bytes read for the host: counted, with poison too (R264), and free where poisoned (log entry 52). -/
def State.hostBytes (s : State) (a n : Nat) : List Byte × State :=
  (s.openRd.list a n, (s.drewRange a n).readRange a n)

/-- MEM_READ: within one live allocation. -/
def execMemRead (h : HostCmd) (s : State) : Out :=
  s.heldRun h 0x21 (s.hostReach (harg h 5 0) (harg h 9 8)) fun s =>
    if (s.inAlloc (harg h 5 0) (harg h 9 8)).isSome then
      let r := s.hostBytes (harg h 5 0) (harg h 9 8)
      r.2.respond h 0x21 0 0 r.1
    else s.respond h 0x21 0xC 0 []

/-! ### Programs (R217, R218, R358, R363 to R365) -/

/-- Bytes from an address to the end of its far-memory allocation. -/
def State.roomAt (s : State) (a : Nat) : Option Nat := match s.allocAt a with
  | some (_, x) => if x.near then none else some (x.base + x.size - a)
  | none => none

/-- LOAD (R217, R218, R358): the loader's answer; held while the loader cannot reach what it reads and writes
(R431). -/
def execLoad (h : HostCmd) (s : State) : Out :=
  let reach := match s.roomAt (harg h 5 0) with
    | some room => s.loadReach (harg h 5 0) room
    | none => true
  s.heldRun h 0x30 reach fun s =>
    match s.roomAt (harg h 5 0) with
    | none => s.respond h 0x30 0xC 0 []
    | some room =>
      let r := s.loadAt (harg h 5 0) room
      r.2.respond h 0x30 r.1 (r.2.reg Reg.GLB_LOAD_STAT).toNat []

/-- A stage's core is unbound, and its spare is no spare any more. -/
def State.unbind (s : State) (stages : List Stage) : State :=
  let s := stages.foldl (fun s st => s.sendCmd st.core.val wStageUnbind) s
  (List.range 54).foldl (fun s c =>
    if s.isSpare c then
      let s := s.setRegF (Reg.CORE_ISLAND_STAT c) 9 9 0
      if s.pstate c = 1 then s.ungate c else s
    else s) s

/-- What a program leaves is dropped (R365): feeds, windows, the loader's descriptors, the image's
allocations, under the rule of R98, with the descriptors of the host that name them, the stages. -/
def State.unload (s : State) : State :=
  let gone (id : Nat) : Bool := match s.alloc id with
    | some x => x.byImage
    | none => false
  let descs := s.descs.filter fun e => match e.2 with
    | some d => !d.byLoader && !gone d.desc.allocId.toNat
    | none => false
  let own := (s.allocs.filter fun e => match e.2 with
    | some x => x.byImage
    | none => true).map Prod.fst
  let stages := match s.prog with
    | some p => p.stages
    | none => []
  let s := { s with feeds := [], windows := [], descs := descs, ctl := Ctl.reset }
  let s := (own.foldl State.freeAlloc s).unbind stages
  let s := { s with prog := none, engines := [], norms := [], staged := [], restore := none, restored := false }
  let s := (List.range 54).foldl (fun s c => s.setReg (Reg.DRN_CTL c) 0) s
  (s.setWords (Reg.SEC_IMG_MEAS 0) (List.replicate 64 0)).setMode 1

/-- UNLOAD (R365): without a program no fusion mode is in force (R184; DEDUCED, log entry 65). -/
def execUnload (h : HostCmd) (s : State) : Out := s.hostRun h 0x31 fun s => s.unload.ok h 0x31

/-- The limit that a `RUN` sets (R213, R363); a number of steps beyond 32 bits is held at the highest one (DESIGN
CHOICE, log entry 143). -/
def State.runLimit (s : State) (arg : Nat) : Nat :=
  if arg ≠ 0 then arg else match s.prog with
    | some p => min p.steps (2 ^ 32 - 1)
    | none => 0

/-- The all-gathers that a restored module sends again (R405). -/
def State.regather (s : State) : State := match s.prog with
  | none => s
  | some p => (List.range p.colls.length).foldl (fun s i => match s.ring i with
    | some R => if R.coll.kind = 0 then s.startGather R s.committed else s
    | none => s) s

/-- The pair check of a `RUN` starts (R397): the twin's copy of the commit record is read, where the program has
one. -/
def State.pairCheck (s : State) : State := match s.prog with
  | none => s
  | some p =>
    if !s.hasTwin || !p.hasUpd then s
    else match s.twinAddr p.commit with
      | some t => s.sendRead 0 s.twin t 64 .pairCheck
      | none => s

/-- RUN (R302, R363, R397, R405). -/
def execRun (h : HostCmd) (s : State) : Out :=
  s.hostRun h 0x32 fun s =>
    let limit := s.runLimit (harg h 3 0)
    if limit ≠ 0 ∧ limit ≤ s.committed then s.respond h 0x32 0x10 s.committed []
    else
      let again := decide (s.mode = 4) || s.restored
      let s := (s.setReg Reg.GLB_STEP_LIMIT (BitVec.ofNat 32 limit)).setRegF Reg.FLT_STAT 29 29 0
      let s := if again then s.rewriteAll else s
      let s := if s.restored then { s.regather with restored := false } else s
      (s.pairCheck.setMode 3).ok h 0x32

/-- HOLD (R364): answered on reaching `HOLDING`; once it has taken effect it waits. -/
def execHold (h : HostCmd) (s : State) : Out :=
  if s.ctl.holdWaiters.contains h then .next s
  else s.hostRun h 0x33 fun s =>
    let s := ({ s with ctl := { s.ctl with holdWaiters := s.ctl.holdWaiters ++ [h] } }).setRegF
      Reg.GLB_STATE 3 3 1
    if s.ctl.mustRun ≤ s.committed then s.enterHolding 1 else s

/-- What the lanes have sent stays sent through a reset of the module. -/
def State.keepWire (t s : State) : State :=
  [16, 17].foldl (fun t l => t.setLink l { t.link l with wire := (s.link l).wire }) t

/-- MODULE_RESET (R365): the response, then the reset of the whole module; both lanes go down. -/
def execModuleReset (h : HostCmd) (s : State) : Out :=
  s.hostRun h 0x34 fun s =>
    let s := s.ok h 0x34
    (s.cleared.keepWire s).setMode 0

/-! ### Feeds (R366, R367) -/

/-- FEED_OPEN (R366). -/
def execFeedOpen (h : HostCmd) (s : State) : Out :=
  s.hostRun h 0x40 fun s =>
    let f := harg h 1 0
    let t := harg h 3 2
    let r := harg h 5 4
    let d := harg h 6 6
    match s.alloc t, s.alloc r, s.feed f with
    | some x, some y, none =>
      if y.size < d * x.size ∨ t = r then s.refuseRange h 0x40
      else (s.setFeed f (some ⟨BitVec.ofNat 16 t, BitVec.ofNat 16 r, d, []⟩)).ok h 0x40
    | _, _, _ => s.respond h 0x40 0xD 0 []

/-- FEED_CLOSE (R366). -/
def execFeedClose (h : HostCmd) (s : State) : Out :=
  s.hostRun h 0x41 fun s =>
    if (s.feed (harg h 1 0)).isNone then s.respond h 0x41 0xD 0 []
    else (s.setFeed (harg h 1 0) none).ok h 0x41

/-- The step of the committed feed that keeps a slot from step k (R367). -/
def Feed.busy (x : Feed) (k : Nat) : Option Nat :=
  (x.held.find? fun e => e.1 == k % x.slots && e.2.2).map fun e => e.2.1

/-- Slot k mod D takes step k. -/
def Feed.take (x : Feed) (k : Nat) (committed : Bool) : Feed :=
  { x with held := (k % x.slots, k, committed) :: x.held.filter fun e => e.1 != k % x.slots }

/-- The address of byte `off` of the slot of step k. -/
def State.slotAddr (s : State) (x : Feed) (k off : Nat) : Nat :=
  match s.alloc x.ring.toNat, s.alloc x.target.toNat with
  | some r, some t => r.base + k % x.slots * t.size + off
  | _, _ => 0

/-- The size of a feed's slots. -/
def State.slotSize (s : State) (x : Feed) : Nat := match s.alloc x.target.toNat with
  | some t => t.size
  | none => 0

/-- Rules 1 and 2 of R367, and a feed that is not open (DEDUCED, log entry 64): the refusal, or the feed. -/
def State.feedCheck (s : State) (h : HostCmd) (cmd : Nat) (go : Feed → State) : State :=
  let k := harg h 7 4
  match s.feed (harg h 1 0) with
  | none => s.respond h cmd 0xD 0 []
  | some x =>
    if k ≤ s.ctl.sentMax then s.respond h cmd 0x10 s.committed []
    else match x.busy k with
      | some j => s.respond h cmd 0xF j []
      | none => go x

/-- FEED_WRITE (R367). -/
def execFeedWrite (h : HostCmd) (s : State) : Out :=
  let reach := match s.feed (harg h 1 0) with
    | some x => s.hostReach (s.slotAddr x (harg h 7 4) (harg h 13 8)) h.payload.length
    | none => true
  s.heldRun h 0x42 reach fun s =>
    s.feedCheck h 0x42 fun x =>
      let k := harg h 7 4
      if s.slotSize x < harg h 13 8 + h.payload.length then s.respond h 0x42 0xC 0 []
      else
        let s := s.put .other (s.slotAddr x k (harg h 13 8)) h.payload false
        (s.setFeed (harg h 1 0) (some (x.take k false))).ok h 0x42

/-- FEED_COMMIT (R367). -/
def execFeedCommit (h : HostCmd) (s : State) : Out :=
  s.hostRun h 0x43 fun s =>
    s.feedCheck h 0x43 fun x =>
      (s.setFeed (harg h 1 0) (some (x.take (harg h 7 4) true))).ok h 0x43

/-! ### Result windows (R369 to R374) -/

/-- Ranges that the update engines write (R369). -/
def State.engineRanges (s : State) : List (Nat × Nat) := match s.prog with
  | none => []
  | some p =>
    if !p.hasUpd then []
    else (p.commit, 64) :: p.ugroups.flatMap fun u =>
      ((s.ugroupRanges u).map fun r => (r.1, r.2.1)) ++
        (match s.descOf u.wdesc with
         | some d => d.reach
         | none => [])

/-- RESULT_OPEN (R369, R370). -/
def execResultOpen (h : HostCmd) (s : State) : Out :=
  s.hostRun h 0x50 fun s =>
    let w := harg h 1 0
    let off := harg h 9 4
    let size := harg h 13 10
    let d := harg h 16 16
    match s.alloc (harg h 3 2), s.alloc (harg h 15 14), s.window w with
    | some x, some y, none =>
      if x.size < off + size ∨ y.size < d * size ∨ reachOverlap s.engineRanges [(x.base + off, size)] = true then
        s.refuseRange h 0x50
      else
        let first := s.ctl.begun + 1
        (s.setWindow w (some
          { src := x.base + off, size := size, buf := y.base, bufAlloc := BitVec.ofNat 16 (harg h 15 14),
            srcAlloc := BitVec.ofNat 16 (harg h 3 2), slots := d, first := first, results := [],
            waitSince := 0, stalled := false, keys := [] })).respond h 0x50 0 (2 ^ 32 * first) []
    | _, _, _ => s.respond h 0x50 0xD 0 []

/-- RESULT_CLOSE (R373). -/
def execResultClose (h : HostCmd) (s : State) : Out :=
  s.hostRun h 0x51 fun s =>
    if (s.window (harg h 1 0)).isNone then s.respond h 0x51 0xD 0 []
    else (s.setWindow (harg h 1 0) none).ok h 0x51

/-- How step k stands in a window (R372, R373): 0 posted, or the status of the refusal. -/
def Window.standing (x : Window) (k : Nat) : Nat :=
  if k < x.first then 0xA
  else match x.results.find? fun r => r.1 == k with
    | some (_, .posted) => 0
    | some (_, .released) => 0xA
    | some _ => 9
    | none =>
      if x.results.any fun r => decide (k < r.1 ∧ r.1 % x.slots = k % x.slots) && r.2 != .waiting then 0xA
      else 9

/-- How the fatal dump stands (R374). -/
def State.dumpStanding (s : State) : Nat :=
  if s.mode = 5 then 9 else if s.dumpWritten && !s.dumpReleased then 0 else 0xA

/-- Legal states of a window's commands (R361). -/
def State.winLegal (s : State) (h : HostCmd) (cmd : Nat) : Bool :=
  if harg h 1 0 = 255 then decide (s.mode = 5 ∨ s.mode = 6) else cmdLegal cmd s.mode

/-- The dump's data (R374, R412): zeros stand for what a lost half held. -/
def State.dumpBytes (s : State) (off n : Nat) : List Byte :=
  (List.range n).map fun i =>
    if s.onLostHalf (s.dumpBase + off + i) then 0 else (s.openAt s.dumpKey).byte (s.dumpBase + off + i)

/-- n bytes of a standing result (R373): refused with a status, or beyond its size. -/
def State.answerResult (s : State) (h : HostCmd) (st size : Nat) (r : List Byte × State) : State :=
  if st ≠ 0 then s.respond h 0x52 st 0 []
  else if size < harg h 11 8 + harg h 13 12 then s.respond h 0x52 0xC 0 []
  else r.2.respond h 0x52 0 0 r.1

/-- The bytes of a step's result in a window: read again, they are the same (R372). -/
def State.resultBytes (s : State) (x : Window) (k off n : Nat) : List Byte × State :=
  let a := x.buf + k % x.slots * x.size + off
  ((s.openAt (((x.keys.find? fun e => e.1 == k).map Prod.snd).getD 0)).list a n, s.readRange a n)

/-- The memory that a `RESULT_READ` reads can be reached (R262). -/
def State.resultReach (s : State) (h : HostCmd) : Bool :=
  let off := harg h 11 8
  let n := harg h 13 12
  if harg h 1 0 = 255 then
    decide (s.dumpStanding ≠ 0 ∨ dumpSize < off + n) || s.memPath s.ctlDie (s.dumpBase + off) n
  else match s.window (harg h 1 0) with
    | none => true
    | some x => decide (x.standing (harg h 7 4) ≠ 0 ∨ x.size < off + n) ||
        s.memPath s.ctlDie (x.buf + harg h 7 4 % x.slots * x.size + off) n

/-- RESULT_READ of a window (R373) or of the dump (R412). -/
def State.resultRead (s : State) (h : HostCmd) : State :=
  let off := harg h 11 8
  let n := harg h 13 12
  if harg h 1 0 = 255 then
    s.answerResult h s.dumpStanding dumpSize (s.dumpBytes off n, s.readRange (s.dumpBase + off) n)
  else match s.window (harg h 1 0) with
    | none => s.respond h 0x52 0xD 0 []
    | some x => s.answerResult h (x.standing (harg h 7 4)) x.size
        (s.resultBytes x (harg h 7 4) off n)

/-- RESULT_READ (R262, R372, R374). -/
def execResultRead (h : HostCmd) (s : State) : Out :=
  if (cmdBad 0x52 h).isNone && s.winLegal h 0x52 && !s.resultReach h then .next s
  else s.runCmd h 0x52 (cmdBad 0x52 h) (s.winLegal h 0x52) fun s => s.resultRead h

/-- RESULT_RELEASE (R373, R374). -/
def execResultRelease (h : HostCmd) (s : State) : Out :=
  s.runCmd h 0x53 (cmdBad 0x53 h) (s.winLegal h 0x53) fun s =>
    let k := harg h 7 4
    if harg h 1 0 = 255 then
      (if s.dumpStanding = 0 then ({ s with dumpReleased := true }).ok h 0x53
       else s.respond h 0x53 s.dumpStanding 0 [])
    else match s.window (harg h 1 0) with
      | none => s.respond h 0x53 0xD 0 []
      | some x =>
        if x.standing k = 0 then
          let res := x.results.map fun r => if r.1 = k then (k, ResState.released) else r
          (s.setWindow (harg h 1 0) (some { x with results := res })).ok h 0x53
        else s.respond h 0x53 (x.standing k) 0 []

/-! ### Attestation and flash (R434 to R437) -/

/-- ATTEST (R434). -/
def execAttest (h : HostCmd) (s : State) : Out :=
  s.hostRun h 0x60 fun s => (s.report h.payload).2.respond h 0x60 0 0 (s.report h.payload).1

/-- A `FLASH_WRITE` command whose subcommand is not the row's is another row's. -/
def State.flashRun (s : State) (h : HostCmd) (mine : Nat → Bool) : Out :=
  if !mine (harg h 0 0) then .next s
  else s.runCmd h 0x61 (flashBad h.args.toNat h.payload.length) (cmdLegal 0x61 s.mode) fun s =>
    let r := s.flashOp h.args.toNat h.payload
    r.2.respond h 0x61 r.1.1 r.1.2.1 r.1.2.2

/-- FLASH_WRITE: subcommand `WRITE`, and the reserved ones. -/
def execFlashWrite (h : HostCmd) (s : State) : Out := s.flashRun h fun n => n == 0 || decide (6 < n)
/-- FLASH_ERASE: subcommand `ERASE`. -/
def execFlashErase (h : HostCmd) (s : State) : Out := s.flashRun h fun n => n == 1
/-- ACTIVATE (R437). -/
def execActivate (h : HostCmd) (s : State) : Out := s.flashRun h fun n => n == 2
/-- ADVANCE_SVN (R425). -/
def execAdvanceSvn (h : HostCmd) (s : State) : Out := s.flashRun h fun n => n == 3
/-- REVOKE (R424). -/
def execRevoke (h : HostCmd) (s : State) : Out := s.flashRun h fun n => n == 4
/-- KEY_PROGRAM (R424). -/
def execKeyProgram (h : HostCmd) (s : State) : Out := s.flashRun h fun n => n == 5
/-- FLASH_READ: subcommand `READ`. -/
def execFlashRead (h : HostCmd) (s : State) : Out := s.flashRun h fun n => n == 6

end Sys2Proof.Machine
end

