-- ==== Sys2Proof/Machine/Pins.lean ====
section
/-! DEFINITION. The sideband pins, the test access port (R487 to R493) and the management port (R460 to
R462). -/

namespace Sys2Proof.Machine

open Sys2Proof

/-! ### Sideband outputs -/

/-- The status outputs as their functions drive them, true where released (R488): `MGMT_SCL`,
`MGMT_SDA`, `MGMT_ALERT_N`, `PGOOD_N`, `THERMTRIP_N`, `ATTN_N`, at cells 5, 7, 8, 9, 10, 11 of R492.
The management lines are released between transactions. -/
def State.fnOut (s : State) (cell : Nat) : Bool :=
  match cell with
  | 8 => decide (s.regF Reg.TEL_ALERT_STAT 7 0 = 0)
  | 9 => decide (s.power ≠ .good)
  | 10 => !s.thermLatch
  | 11 => decide (s.mode < 5) && decide (s.regF Reg.FLT_STAT 29 29 = 0)
  | _ => true

/-- A scan instruction has the pins (R493). -/
def Tap.hasPins (t : Tap) : Bool := t.ins == .extest || t.ins == .clamp || t.ins == .highz

/-- The level of an output pin, true where released: the scan instruction's while it has the pins; the
latch of `THERMTRIP_N` always drives (R488, R492, R493). Without the housekeeping rail nothing drives the outputs, nor
their pull-ups (R483). -/
def State.pinOut (s : State) (cell : Nat) : Bool :=
  if !s.houseRail then true
  else if cell = 10 ∧ s.thermLatch = true then false
  else match s.tap.ins with
    | .extest => s.tap.boundary.getLsbD cell
    | .clamp => s.tap.boundary.getLsbD cell
    | .highz => true
    | _ => s.fnOut cell

/-! ### Test access port -/

/-- The instruction register's capture value, least significant bit first (R491). -/
def Tap.irCapture (t : Tap) : List Bool := [true, false, t.refused, false, false, false, false, false]

/-- An instruction is loaded (R491): the captured bits are shifted out. The port is held in reset
without package power (R490). -/
def State.loadTap (s : State) (i : TapIns) (refused : Bool) : State :=
  if s.power = .good then
    { s with tap := { s.tap with ins := i, refused := refused, tdo := s.tap.irCapture } }
  else s

/-- An instruction that takes the pins: in `IDLE` or `RETIRED` only, otherwise `BYPASS` with the refusal
noted (R493). -/
def State.loadPins (s : State) (i : TapIns) : State :=
  if s.mode = 1 ∨ s.mode = 6 then s.loadTap i false else s.loadTap .bypass true

/-- TAP_RESET (R490). -/
def execTapReset (s : State) : Out := .next { s with tap := Tap.reset }

/-- EXTEST (R493). -/
def execExtest (s : State) : Out := .next (s.loadPins .extest)

/-- CLAMP (R493). -/
def execClamp (s : State) : Out := .next (s.loadPins .clamp)

/-- HIGHZ (R493). -/
def execHighz (s : State) : Out := .next (s.loadPins .highz)

/-- SAMPLE/PRELOAD (R491). -/
def execSamplePreload (s : State) : Out := .next (s.loadTap .sample false)

/-- IDCODE (R491). -/
def execIdcode (s : State) : Out := .next (s.loadTap .idcode false)

/-- BYPASS (R491): code `0xFF`, or any unlisted code. A listed code loads its own instruction. -/
def execBypass (code : Byte) (s : State) : Out :=
  match code.toNat with
  | 0 => .next (s.loadPins .extest)
  | 1 => .next (s.loadTap .sample false)
  | 2 => .next (s.loadTap .idcode false)
  | 3 => .next (s.loadPins .clamp)
  | 4 => .next (s.loadPins .highz)
  | _ => .next (s.loadTap .bypass false)

/-- The identification register (R491). -/
def State.idWord (s : State) : Nat :=
  s.regF Reg.GLB_HWREV 3 0 * 2 ^ 28 + 0x0940 * 2 ^ 12 + 0x1B7 * 2 + 1

/-- Cells that are inputs (R492). -/
def inputCell (i : Nat) : Bool := decide (i ≤ 4) || decide (i = 6)

/-- What the boundary register captures: pin levels in input cells, what the functions drive in output
cells (DEDUCED, log entry 32). -/
def State.boundaryCapture (s : State) (pins : BitVec 12) : List Bool :=
  (List.range 12).map fun i => if inputCell i then pins.getLsbD i else s.fnOut i

/-- Bits shifted through a register, its cell 0 next to TDO: the bits out and the register after. -/
def shiftBits : List Bool → List Bool → List Bool × List Bool
  | r, [] => ([], r)
  | [], _ => ([], [])
  | b :: r, t :: ts =>
    let x := shiftBits (r ++ [t]) ts
    (b :: x.1, x.2)

/-- The bits of a number, lowest first. -/
def bitsOf (n w : Nat) : List Bool := (List.range w).map n.testBit

/-- A bit list as a 12-bit word. -/
def bits12 (l : List Bool) : BitVec 12 :=
  BitVec.ofNat 12 ((l.zipIdx.map fun p => if p.1 then 2 ^ p.2 else 0).sum)

/-- DATA_REGISTER_SCAN (R491, R492): capture, shift and update of the selected data register. -/
def execDataRegisterScan (tdi : List Bool) (pins : BitVec 12) (s : State) : Out :=
  if s.power ≠ .good then .next s
  else match s.tap.ins with
    | .extest | .sample =>
      let r := shiftBits (s.boundaryCapture pins) tdi
      .next { s with tap := { s.tap with tdo := r.1, boundary := bits12 r.2 } }
    | .idcode =>
      .next { s with tap := { s.tap with tdo := (shiftBits (bitsOf s.idWord 32) tdi).1 } }
    | .clamp | .highz | .bypass =>
      let r := shiftBits [false] tdi
      .next { s with tap := { s.tap with tdo := r.1, bypassBit := r.2.headD false } }

/-! ### Management port (R460 to R462) -/

/-- The address byte of a transaction on the port, without its direction bit (R460). -/
def State.mgmtAddr (s : State) : Nat := 2 * (0x2A + s.straps.toNat)

/-- A command has its response, which is readable within some time in µs from now on; when exactly is a free value
(log entry 159). Its effect is at once. -/
def State.answerIn (s : State) (lo hi status : Nat) (data : List Byte) : State :=
  { s.draw.2 with mgmtRsp := (BitVec.ofNat 8 status, data),
                  mgmtDue := s.now + lo + s.draw.1.toNat % (hi - lo + 1) }

/-- The response of a command other than `FLASH` (R462). -/
def State.answer (s : State) (status : Nat) (data : List Byte) : State := s.answerIn 20 1000 status data

/-- The bytes of a read transaction (R460, R461): status, length, data and PEC; `BUSY` and no data while the command
still runs. -/
def State.mgmtRead (s : State) : List Byte :=
  let r := if s.now < s.mgmtDue then (0x20#8, []) else s.mgmtRsp
  let l := r.1 :: (leBytes 2 r.2.length ++ r.2)
  l ++ [crc8 (BitVec.ofNat 8 (s.mgmtAddr + 1) :: l)]

/-- The earliest and latest answer of a flash subcommand on the port, in µs (R438, R462). -/
def flashTime (sub : Nat) : Nat × Nat :=
  match sub with
  | 0 => (20, 100000)
  | 1 => (100000, 2100000)
  | 2 => (20, 720000)
  | 3 => (1000, 64 * 50000)
  | 4 => (1000, 50000)
  | 5 => (1000, 50000)
  | _ => (20, 1000)

/-- The PEC that a command transaction must carry: over the address byte, the command byte, the length
and the payload (R460). -/
def State.mgmtPec (s : State) (code : Nat) (payload : List Byte) : Byte :=
  crc8 ([BitVec.ofNat 8 s.mgmtAddr, BitVec.ofNat 8 code] ++
    leBytes 2 payload.length ++ payload)

/-- The command bytes of R462. -/
def mgmtListed (code : Byte) : Bool := decide (1 ≤ code.toNat ∧ code.toNat ≤ 9)

/-- A command of the port (R460 to R462): not received while a scan instruction has the pins or without
power; discarded while one runs, or on a wrong PEC; `BAD_COMMAND` when malformed or of no listed command byte, then
`STATE_CONFLICT` outside its states (counted, R362); otherwise its effect. A listed command byte of another row's is
that row's. -/
def State.mgmt (s : State) (code : Nat) (m : MgmtCmd) (ok legal : Bool) (run : State → State) : State :=
  if s.power ≠ .good ∨ s.tap.hasPins = true ∨ s.now < s.mgmtDue then s
  else if m.code.toNat ≠ code ∧ mgmtListed m.code = true then s
  else if m.pec ≠ s.mgmtPec m.code.toNat m.payload then s.answer 0x21 []
  else if m.code.toNat ≠ code ∨ ok = false then s.answer 0xB []
  else if legal = false then (s.inc Reg.GLB_STATE_CONFLICT_CNT 1).answer 8 []
  else run s

/-- Payload bytes [lo + n − 1 : lo] as a number. -/
def marg (m : MgmtCmd) (lo n : Nat) : Nat := hd m.payload lo n

/-- GET_STATE. -/
def execGetState (m : MgmtCmd) (s : State) : Out :=
  .next (s.mgmt 1 m (decide (m.payload.length = 0)) true fun s =>
    s.answer 0 (leBytes 4 (s.view Reg.GLB_STATE).toNat ++ leBytes 4 (s.view Reg.GLB_STEP_NUM).toNat ++
      leBytes 4 (s.view Reg.BOOT_STAT).toNat ++ leBytes 4 (s.view Reg.FLT_STAT).toNat))

/-- READ_SENSORS. -/
def execReadSensors (m : MgmtCmd) (s : State) : Out :=
  let j := marg m 0 1
  let n := marg m 1 1
  .next (s.mgmt 2 m (decide (m.payload.length = 2 ∧ 1 ≤ n ∧ n ≤ 64 ∧ j + n ≤ 256)) true fun s =>
    s.answer 0 ((List.range n).flatMap fun i => leBytes 4 (s.view (Reg.TEL_SENSOR (j + i))).toNat))

/-- A word read without side effect: 0 at an unmapped address (R462). -/
def State.peek (s : State) (a : Nat) : Nat := if (regRow a).isSome then (s.view a).toNat else 0

/-- READ_REG. -/
def execReadReg (m : MgmtCmd) (s : State) : Out :=
  let n := marg m 4 1
  .next (s.mgmt 3 m (decide (m.payload.length = 5 ∧ 1 ≤ n ∧ n ≤ 64)) (decide (s.mode ≠ 0)) fun s =>
    s.answer 0 ((List.range n).flatMap fun i => leBytes 4 (s.peek (marg m 0 4 + 4 * i))))

/-- READ_BREACH. -/
def execReadBreach (m : MgmtCmd) (s : State) : Out :=
  .next (s.mgmt 4 m (decide (m.payload.length = 4)) (decide (s.mode ≠ 0)) fun s =>
    let head := (s.reg Reg.FLT_LOG_HEAD).toNat
    let idx := if marg m 0 4 = 0xFFFFFFFF then head - 1 else marg m 0 4
    if head ≤ idx then s.answer 0xD []
    else match s.breaches[head - 1 - idx]? with
      | some b => s.answer 0 b.bytes
      | none => s.answer 0xD [])

/-- SET_CAP. -/
def execSetCap (m : MgmtCmd) (s : State) : Out :=
  .next (s.mgmt 5 m (decide (m.payload.length = 2)) (decide (s.mode ≠ 0)) fun s =>
    (s.setReg Reg.PWR_CAP (BitVec.ofNat 32 (marg m 0 2))).answer 0 [])

/-- GET_IDENTITY. -/
def execGetIdentity (m : MgmtCmd) (s : State) : Out :=
  .next (s.mgmt 6 m (decide (m.payload.length = 0)) true fun s =>
    s.answer 0 (leBytes 2 (s.reg (Reg.CLV_NODE_ID 0)).toNat ++ leBytes 4 (s.reg Reg.SEC_STAT).toNat ++
      s.regBytes (Reg.SEC_ID_PUB 0) 33))

/-- FLASH: a `FLASH_WRITE` subcommand with 12 `ARGS` bytes (R438). The data are those of the response's
payload (DEDUCED, log entry 33). -/
def execFlash (m : MgmtCmd) (s : State) : Out :=
  let args := marg m 0 12
  .next (s.mgmt 7 m (decide (12 ≤ m.payload.length) && (flashBad args (m.payload.length - 12)).isNone)
    (decide (s.mode = 1 ∨ s.mode = 6)) fun s =>
    let r := s.flashOp args (m.payload.drop 12)
    r.2.answerIn (flashTime (args % 256)).1 (flashTime (args % 256)).2 r.1.1 r.1.2.2)

/-- SET_ALERT. -/
def execSetAlert (m : MgmtCmd) (s : State) : Out :=
  let k := marg m 0 1
  let en := marg m 2 1
  .next (s.mgmt 8 m (decide (m.payload.length = 6 ∧ k ≤ 7 ∧ en ≤ 1)) (decide (s.mode ≠ 0)) fun s =>
    let s := s.setReg (Reg.TEL_ALERT_SEL k) (BitVec.ofNat 32 (en * 2 ^ 31 + marg m 1 1))
    ((s.setReg (Reg.TEL_ALERT_VAL k) (BitVec.ofNat 32 (marg m 3 3))).checkAlert k).answer 0 [])

/-- CLEAR_ALERT: a write of 1 to `TEL_ALERT_STAT` (R465). -/
def execClearAlert (m : MgmtCmd) (s : State) : Out :=
  .next (s.mgmt 9 m (decide (m.payload.length = 1)) (decide (s.mode ≠ 0)) fun s =>
    ((s.setReg Reg.TEL_ALERT_STAT
      (s.reg Reg.TEL_ALERT_STAT &&& ~~~(BitVec.ofNat 32 (marg m 0 1)))).recheckAlerts (marg m 0 1)).answer 0 [])

end Sys2Proof.Machine
end

