-- ==== Sys2Proof/Machine/Predict.lean ====
section
/-! DEFINITION. The activity predictor engine of a compute die (R224 to R232). -/

namespace Sys2Proof.Machine

open Sys2Proof

/-! ### The network (R227) -/

/-- The run-time N of row m of the input, and its K (R209, R211). -/
def PredReq.rowN (q : PredReq) (m : Nat) : Nat :=
  if mopNsrc q.words = 9 then at0 q.rowLen m else q.nLen
def PredReq.rowK (q : PredReq) (m : Nat) : Nat :=
  if mopKsrc q.words = 9 then at0 q.rowLen m else q.kLen

/-- The descriptor a request copied under a handle. -/
def PredReq.desc (q : PredReq) (h : Nat) : Option Desc :=
  (q.descs.find? fun e => e.1 == h).map Prod.snd

/-- A list of values in blocks of 32, each requantized to INT4 with freeboard 1 and overtopping clamped
(R53, R63); a block that holds a NaN reads as NaN. -/
def requant (l : List Num) : List Num :=
  (List.range (cdiv l.length 32)).flatMap fun j =>
    let b := (l.drop (32 * j)).take 32
    let c := convBlock .int4 1 false 0 b
    if c.hasNan then b.map fun _ => .nan
    else c.codes.map fun x => scaleBy (decodeElem .int4 x) c.scale

/-- One score: FP32 sums over blocks of 32, each block's sum exact (R227). -/
def dotBlocks (x y : List Num) : Word :=
  (List.range (cdiv x.length 32)).foldl (fun h j =>
    let b := ((x.drop (32 * j)).take 32).zip ((y.drop (32 * j)).take 32)
    toF32 ((f32 h).add (b.foldl (fun a p => a.add (p.1.mul p.2)) .zero))) 0

/-- Element (i, j) of a tensor's view, transposed or not, with its poison. -/
def Rd.at (r : Rd) (d : Desc) (trans : Bool) (i j : Nat) : Num × Bool :=
  r.value d (if trans then d.index j i else d.index i j)

/-- Row m of the layer input up to its K, exact, with its poison: elements at or beyond K′ are 0. -/
def Rd.predRow (r : Rd) (q : PredReq) (d : Desc) (m : Nat) : List (Num × Bool) :=
  (List.range (32 * cdiv (q.rowK m) 32)).map fun k =>
    if k < q.rowK m then r.at d (mopTransA q.words) m k else (.zero, false)

/-- What the network finds: the active neurons, whether a score is not finite. -/
structure PredScores where
  active : List Nat
  nonfin : Bool

/-- The scores of every row against every neuron below N′ (R227). -/
def Rd.scores (r : Rd) (q : PredReq) (thr : Word) (a b x : Desc) : PredScores :=
  let rank := b.cols
  let rows := (List.range q.mLen).map fun m =>
    let v := (r.predRow q a m).map Prod.fst
    let v := if a.fmt = .int4 then v else requant v
    let h := (List.range rank).map fun c =>
      let p := (List.range v.length).map fun k =>
        if k < q.rowK m then (r.at b false k c).1 else .zero
      fmax (dotBlocks v p) 0
    requant (h.map f32)
  let score (m n : Nat) : Word :=
    dotBlocks (rows.getD m []) ((List.range rank).map fun c => (r.at x false c n).1)
  let cells (n : Nat) := ((List.range q.mLen).filter fun m => decide (n < q.rowN m)).map fun m => score m n
  let hit (w : Word) : Bool := (f32 w).isNan || (!(f32 thr).isNan && !(f32 w).lt (f32 thr))
  { active := (List.range q.nLen).filter fun n => (cells n).any hit,
    nonfin := (List.range q.nLen).any fun n => (cells n).any nonfin }

/-- An operand word that the network reads is poisoned. -/
def Rd.predBad (r : Rd) (q : PredReq) (a b x : Desc) : Bool :=
  let kMax := (List.range q.mLen).foldl (fun k m => max k (q.rowK m)) 0
  ((List.range q.mLen).any fun m => (r.predRow q a m).any Prod.snd) ||
  ((List.range kMax).any fun k => (List.range b.cols).any fun c => (r.at b false k c).2) ||
  ((List.range b.cols).any fun c => (List.range q.nLen).any fun n => (r.at x false c n).2)

/-- An input element is not finite. -/
def Rd.predNonfin (r : Rd) (q : PredReq) (a : Desc) : Bool :=
  (List.range q.mLen).any fun m => (r.predRow q a m).any fun p => !p.1.isFin

/-! ### The bitmap (R228 to R230) -/

/-- The audit rows among n rows for exponent e and offset o (R230). -/
def auditRows (n e o : Nat) (active : List Nat) : List Nat :=
  if e = 0 then []
  else
    let live := active.map (· / 128)
    (List.range n).filter fun r => !active.contains r &&
      (if live.contains (r / 128) then decide ((r + o) % 2 ^ e = 0)
       else decide ((r / 128 + o) % 2 ^ e = 0))

/-- The bytes of a set of rows as bits, in words. -/
def bitBytes (words : Nat) (l : List Nat) : List Byte :=
  (List.range (4 * words)).map fun i =>
    BitVec.ofNat 8 (((List.range 8).filter fun b => l.contains (8 * i + b)).map (2 ^ ·)).sum

/-- The eight header words (R228). -/
def mapHeader (q : PredReq) (d : Nat) (nAct nAud : Nat) (allOn nonf poi : Bool) : List Byte :=
  ([0x50524D31, mopN q.words, fld (mopSpec q.words) 23 16 + 2 ^ 8 * d, q.step.toNat, q.mb.toNat, nAct,
    nAud, allOn.toNat + 2 * nonf.toNat + 4 * poi.toNat].map (leBytes 4)).flatten

/-- A completed `PREDICT` is noted on its core: its sequencer waits no longer, its flags, and progress of the
cores that wait for the engine (R224, R393). -/
def State.predNote (s : State) (d : Nat) (q : PredReq) (poi nonf : Bool) : State :=
  let k := s.core q.core.val
  let s := match k.cur with
    | some m =>
      if m.words = q.words then
        s.setCore q.core.val { k with
          waitPredict := false,
          cur := some { m with flags := m.flags.or { Flags.clear with poison := poi, nonfin := nonf } } }
      else s
    | none => s
  (q :: (s.die d).predQ).foldl
    (fun s r => s.setCore r.core.val { s.core r.core.val with progress := s.now }) s

/-- The elements that the network reads: of the source rows as far as it is dense, of the two operands. -/
def PredReq.elems (q : PredReq) (a b x : Desc) : List (Desc × List Nat) :=
  let kMax := (List.range q.mLen).foldl (fun k m => max k (q.rowK m)) 0
  (if a.cfmt = .dns then
    (List.range q.mLen).flatMap fun m => (List.range (q.rowK m)).map fun k => (a, a.index m k) else []) ++
  ((List.range kMax).flatMap fun k => (List.range b.cols).map fun c => (b, b.index k c)) ++
  ((List.range b.cols).flatMap fun c => (List.range q.nLen).map fun n => (x, x.index c n))

/-- The running `PREDICT` completes: bitmap, header, offset, counters (R227 to R230). -/
def State.predFinish (s : State) (d : Nat) (p : PredRun) : State :=
  let q := p.req
  let r := s.rd
  let layer := fld (mopSpec q.words) 23 16
  match q.desc (mopA q.words), q.desc (mopB q.words), q.desc (mopAux q.words),
      q.desc (fld (mopSpec q.words) 15 0) with
  | some a, some b, some x, some o =>
    let off := bit (mopSpec q.words) 24 || !p.enable
    let poi := !off && r.predBad q a b x
    let bad := !off && r.predNonfin q a
    let net := !off && !poi && !bad
    let sc := if net then r.scores q p.thr a b x else ⟨List.range q.nLen, bad⟩
    let s := if off then s else s.readElems (q.elems a b x)
    let e := p.auditLog2
    let oa := s.regF (Reg.PRD_OFFSET d layer) 11 0 % 2 ^ e
    let aud := if net then auditRows q.nLen e oa sc.active else []
    let v := cdiv (mopN q.words) 32
    let s := s.put (.die d) (o.base + 32) (bitBytes v sc.active ++ bitBytes v aud) false
    let s := s.put (.die d) o.base
      (mapHeader q d sc.active.length aud.length (!net) sc.nonfin poi) false
    let s := if net then s.setReg (Reg.PRD_OFFSET d layer) (BitVec.ofNat 32 ((oa + 1) % 2 ^ e)) else s
    let s := s.setDie d { s.die d with pred := none }
    ((s.inc (Reg.PRD_DONE_CNT d) 1).count (54 + d) 0x240 0 1).predNote d q poi sc.nonfin
  | _, _, _, _ => (s.setDie d { s.die d with pred := none }).predNote d q false false

/-- The engine may complete its `PREDICT`: its die's NoC runs, what it reads and writes can be reached (R27, R262,
R459), and a bitmap in far memory waits for the commit of the step before (R34). -/
def State.predReady (s : State) (d : Nat) (p : PredRun) : Bool :=
  let q := p.req
  s.nocRuns d &&
    (([mopA q.words, mopB q.words, mopAux q.words, fld (mopSpec q.words) 15 0].filterMap q.desc).all fun t =>
      t.reach.all fun r => s.memPath d r.1 r.2) &&
    !(decide (s.committed + 1 < q.step) && ((q.desc (fld (mopSpec q.words) 15 0)).map Desc.inFar).getD false)

/-! ### Commands -/

/-- PREDICT_START (R224, R227, R239): the engine takes the request at the head of its queue, and reads
the layer's threshold and its controls. -/
def execPredictStart (d : Die) (s : State) : Out :=
  let t := s.die d
  match t.pred, t.predQ with
  | none, q :: rest =>
    if s.nocRuns d then
      let layer := fld (mopSpec q.words) 23 16
      .next (s.setDie d { t with
        predQ := rest,
        pred := some ⟨q, s.reg (Reg.PRD_THR d layer), decide (s.regF (Reg.PRD_CTL d) 8 8 = 1),
          min 12 (s.regF (Reg.PRD_CTL d) 3 0)⟩ })
    else .next s
  | _, _ => .next s

/-- PREDICT_COMPLETE (R227 to R230). -/
def execPredictComplete (d : Die) (s : State) : Out :=
  match (s.die d).pred with
  | some p => .next (if s.predReady d p then s.predFinish d p else s)
  | none => .next s

end Sys2Proof.Machine
end

