-- ==== Sys2Proof/Machine/Dispatch.lean ====
section
/-! DEFINITION. The dispatch: one arm for each command, one direct call of its meaning. -/

namespace Sys2Proof.Machine

open Sys2Proof

def exec (i : Instr) (s : State) : Host.Outcome State Fault Refusal :=
  match i with
  | .registerWrite a addr v => Sys2Proof.Machine.execRegisterWrite a addr v s
  | .unmappedAccess addr write => Sys2Proof.Machine.execUnmappedAccess addr write s
  | .prdAudRowsRead a d l => Sys2Proof.Machine.execPrdAudRowsRead a d l s
  | .prdAudMissRead a d l => Sys2Proof.Machine.execPrdAudMissRead a d l s
  | .bridgeTransfer b dir data crc => Sys2Proof.Machine.execBridgeTransfer b dir data crc s
  | .bridgeFail b dir lostLock => Sys2Proof.Machine.execBridgeFail b dir lostLock s
  | .islandReset n => Sys2Proof.Machine.execIslandReset n s
  | .channelResync n => Sys2Proof.Machine.execChannelResync n s
  | .clockChange c => Sys2Proof.Machine.execClockChange c s
  | .stepBeginIssue => Sys2Proof.Machine.execStepBeginIssue s
  | .islandStepBegin n => Sys2Proof.Machine.execIslandStepBegin n s
  | .idleItem rd => Sys2Proof.Machine.execIdleItem rd s
  | .stepBegin c bad => Sys2Proof.Machine.execStepBegin c bad s
  | .mbBegin c bad => Sys2Proof.Machine.execMbBegin c bad s
  | .stageBind c bad => Sys2Proof.Machine.execStageBind c bad s
  | .stageUnbind c bad => Sys2Proof.Machine.execStageUnbind c bad s
  | .cmdqReservedOpcode c bad => Sys2Proof.Machine.execCmdqReservedOpcode c bad s
  | .spmm rd => Sys2Proof.Machine.execSpmm rd s
  | .sddmm rd => Sys2Proof.Machine.execSddmm rd s
  | .spgemm rd => Sys2Proof.Machine.execSpgemm rd s
  | .gather rd => Sys2Proof.Machine.execGather rd s
  | .scatterAdd rd => Sys2Proof.Machine.execScatterAdd rd s
  | .conv rd => Sys2Proof.Machine.execConv rd s
  | .normstat rd => Sys2Proof.Machine.execNormstat rd s
  | .copy rd => Sys2Proof.Machine.execCopy rd s
  | .predict rd => Sys2Proof.Machine.execPredict rd s
  | .elemwise rd => Sys2Proof.Machine.execElemwise rd s
  | .mopComplete c => Sys2Proof.Machine.execMopComplete c s
  | .mopEarlyStart rd => Sys2Proof.Machine.execMopEarlyStart rd s
  | .phaseDone c => Sys2Proof.Machine.execPhaseDone c s
  | .phaseDoneReceive rd => Sys2Proof.Machine.execPhaseDoneReceive rd s
  | .resultCopyResume w => Sys2Proof.Machine.execResultCopyResume w s
  | .operandFill c addr len => Sys2Proof.Machine.execOperandFill c addr len s
  | .stationaryLoad rd => Sys2Proof.Machine.execStationaryLoad rd s
  | .wavefrontEmit rd => Sys2Proof.Machine.execWavefrontEmit rd s
  | .mergeSegment rd => Sys2Proof.Machine.execMergeSegment rd s
  | .wavefront c bad => Sys2Proof.Machine.execWavefront c bad s
  | .tileInit c => Sys2Proof.Machine.execTileInit c s
  | .sumqAccumulate c bad => Sys2Proof.Machine.execSumqAccumulate c bad s
  | .tileDrain rd => Sys2Proof.Machine.execTileDrain rd s
  | .auditRowReport c => Sys2Proof.Machine.execAuditRowReport c s
  | .predictStart d => Sys2Proof.Machine.execPredictStart d s
  | .predictComplete d => Sys2Proof.Machine.execPredictComplete d s
  | .allocCreate h => Sys2Proof.Machine.execAllocCreate h s
  | .allocFree h => Sys2Proof.Machine.execAllocFree h s
  | .nmemAccess d req off wr err => Sys2Proof.Machine.execNmemAccess d req off wr err s
  | .nmemPatrolScrub d off err => Sys2Proof.Machine.execNmemPatrolScrub d off err s
  | .cacheFill d req addr => Sys2Proof.Machine.execCacheFill d req addr s
  | .cacheInvalidate d addr own => Sys2Proof.Machine.execCacheInvalidate d addr own s
  | .arbGrant p want => Sys2Proof.Machine.execArbGrant p want s
  | .arbBackoffExpire p req => Sys2Proof.Machine.execArbBackoffExpire p req s
  | .fmemTrain pkg fail => Sys2Proof.Machine.execFmemTrain pkg fail s
  | .fmemDriftCheck ch drift ok1 ok2 => Sys2Proof.Machine.execFmemDriftCheck ch drift ok1 ok2 s
  | .fmemRefresh ch bank busy => Sys2Proof.Machine.execFmemRefresh ch bank busy s
  | .fmemZqLatch ch => Sys2Proof.Machine.execFmemZqLatch ch s
  | .fmemAccess addr wr err => Sys2Proof.Machine.execFmemAccess addr wr err s
  | .fmemPatrolScrub addr err => Sys2Proof.Machine.execFmemPatrolScrub addr err s
  | .rowRetire ch => Sys2Proof.Machine.execRowRetire ch s
  | .burstReconstruct addr => Sys2Proof.Machine.execBurstReconstruct addr s
  | .updChunk e => Sys2Proof.Machine.execUpdChunk e s
  | .updRowRecord e => Sys2Proof.Machine.execUpdRowRecord e s
  | .normResult e => Sys2Proof.Machine.execNormResult e s
  | .pass2Start e g => Sys2Proof.Machine.execPass2Start e g s
  | .groupLocalDone e g => Sys2Proof.Machine.execGroupLocalDone e g s
  | .commitRecordWrite => Sys2Proof.Machine.execCommitRecordWrite s
  | .stepCommit => Sys2Proof.Machine.execStepCommit s
  | .stepResume => Sys2Proof.Machine.execStepResume s
  | .twinLost e => Sys2Proof.Machine.execTwinLost e s
  | .updRecompReq a e v => Sys2Proof.Machine.execUpdRecompReq a e v s
  | .recompRebuild e => Sys2Proof.Machine.execRecompRebuild e s
  | .recompReady e => Sys2Proof.Machine.execRecompReady e s
  | .portTrain x => Sys2Proof.Machine.execPortTrain x s
  | .portTrainTimeout p => Sys2Proof.Machine.execPortTrainTimeout p s
  | .laneFail p lane => Sys2Proof.Machine.execLaneFail p lane s
  | .laneSwapComplete p => Sys2Proof.Machine.execLaneSwapComplete p s
  | .linkSilence p => Sys2Proof.Machine.execLinkSilence p s
  | .flitReceive p bytes fec => Sys2Proof.Machine.execFlitReceive p bytes fec s
  | .retryTimeout l => Sys2Proof.Machine.execRetryTimeout l s
  | .creditReturn l => Sys2Proof.Machine.execCreditReturn l s
  | .credit p => Sys2Proof.Machine.execCredit p s
  | .nak p => Sys2Proof.Machine.execNak p s
  | .e2eAck p => Sys2Proof.Machine.execE2eAck p s
  | .e2eAckDue f => Sys2Proof.Machine.execE2eAckDue f s
  | .e2eTimeout f => Sys2Proof.Machine.execE2eTimeout f s
  | .write p => Sys2Proof.Machine.execWrite p s
  | .read p => Sys2Proof.Machine.execRead p s
  | .readResp p => Sys2Proof.Machine.execReadResp p s
  | .crs p => Sys2Proof.Machine.execCrs p s
  | .stagedPartialAdd e => Sys2Proof.Machine.execStagedPartialAdd e s
  | .cag p => Sys2Proof.Machine.execCag p s
  | .cscalar p => Sys2Proof.Machine.execCscalar p s
  | .mwr p => Sys2Proof.Machine.execMwr p s
  | .mack p => Sys2Proof.Machine.execMack p s
  | .linkCtlHello p => Sys2Proof.Machine.execLinkCtlHello p s
  | .resyncUnitCopy e => Sys2Proof.Machine.execResyncUnitCopy e s
  | .linkCtlSwapRequest p => Sys2Proof.Machine.execLinkCtlSwapRequest p s
  | .linkCtlSwapDone p => Sys2Proof.Machine.execLinkCtlSwapDone p s
  | .linkCtlFenceNotice p => Sys2Proof.Machine.execLinkCtlFenceNotice p s
  | .fence p => Sys2Proof.Machine.execFence p s
  | .unfence p => Sys2Proof.Machine.execUnfence p s
  | .hostLaneTrain l peer => Sys2Proof.Machine.execHostLaneTrain l peer s
  | .hostLaneSilence l => Sys2Proof.Machine.execHostLaneSilence l s
  | .hostFlitReceive l bytes fec => Sys2Proof.Machine.execHostFlitReceive l bytes fec s
  | .nhlCredit l => Sys2Proof.Machine.execNhlCredit l s
  | .nhlNak l => Sys2Proof.Machine.execNhlNak l s
  | .gapTimeout q => Sys2Proof.Machine.execGapTimeout q s
  | .nop h => Sys2Proof.Machine.execNop h s
  | .status h => Sys2Proof.Machine.execStatus h s
  | .regRead h => Sys2Proof.Machine.execRegRead h s
  | .regWrite h => Sys2Proof.Machine.execRegWrite h s
  | .descCreate h => Sys2Proof.Machine.execDescCreate h s
  | .descDestroy h => Sys2Proof.Machine.execDescDestroy h s
  | .memWrite h => Sys2Proof.Machine.execMemWrite h s
  | .memRead h => Sys2Proof.Machine.execMemRead h s
  | .load h => Sys2Proof.Machine.execLoad h s
  | .unload h => Sys2Proof.Machine.execUnload h s
  | .run h => Sys2Proof.Machine.execRun h s
  | .hold h => Sys2Proof.Machine.execHold h s
  | .moduleReset h => Sys2Proof.Machine.execModuleReset h s
  | .feedOpen h => Sys2Proof.Machine.execFeedOpen h s
  | .feedClose h => Sys2Proof.Machine.execFeedClose h s
  | .feedWrite h => Sys2Proof.Machine.execFeedWrite h s
  | .feedCommit h => Sys2Proof.Machine.execFeedCommit h s
  | .feedStall => Sys2Proof.Machine.execFeedStall s
  | .resultOpen h => Sys2Proof.Machine.execResultOpen h s
  | .resultClose h => Sys2Proof.Machine.execResultClose h s
  | .resultRead h => Sys2Proof.Machine.execResultRead h s
  | .resultRelease h => Sys2Proof.Machine.execResultRelease h s
  | .resultStall => Sys2Proof.Machine.execResultStall s
  | .attest h => Sys2Proof.Machine.execAttest h s
  | .flashWrite h => Sys2Proof.Machine.execFlashWrite h s
  | .flashErase h => Sys2Proof.Machine.execFlashErase h s
  | .activate h => Sys2Proof.Machine.execActivate h s
  | .advanceSvn h => Sys2Proof.Machine.execAdvanceSvn h s
  | .revoke h => Sys2Proof.Machine.execRevoke h s
  | .keyProgram h => Sys2Proof.Machine.execKeyProgram h s
  | .flashRead h => Sys2Proof.Machine.execFlashRead h s
  | .eventDrop => Sys2Proof.Machine.execEventDrop s
  | .coreWatchdog c => Sys2Proof.Machine.execCoreWatchdog c s
  | .coreFail c cause => Sys2Proof.Machine.execCoreFail c cause s
  | .replayIssue => Sys2Proof.Machine.execReplayIssue s
  | .queuedBreach => Sys2Proof.Machine.execQueuedBreach s
  | .polderLoss why => Sys2Proof.Machine.execPolderLoss why s
  | .dumpWrite => Sys2Proof.Machine.execDumpWrite s
  | .dumpComplete => Sys2Proof.Machine.execDumpComplete s
  | .restoreStart => Sys2Proof.Machine.execRestoreStart s
  | .restoreComplete => Sys2Proof.Machine.execRestoreComplete s
  | .evcCntHiWrite b n v => Sys2Proof.Machine.execEvcCntHiWrite b n v s
  | .evcCntLoWrite b n v => Sys2Proof.Machine.execEvcCntLoWrite b n v s
  | .clear b => Sys2Proof.Machine.execClear b s
  | .snap b => Sys2Proof.Machine.execSnap b s
  | .clearAll => Sys2Proof.Machine.execClearAll s
  | .snapAll => Sys2Proof.Machine.execSnapAll s
  | .evcBroadcastArrive b => Sys2Proof.Machine.execEvcBroadcastArrive b s
  | .evcOvf b n => Sys2Proof.Machine.execEvcOvf b n s
  | .bootRomStart => Sys2Proof.Machine.execBootRomStart s
  | .functionReady f => Sys2Proof.Machine.execFunctionReady f s
  | .healthAreaWrite => Sys2Proof.Machine.execHealthAreaWrite s
  | .inputTurnOn => Sys2Proof.Machine.execInputTurnOn s
  | .powerGood straps => Sys2Proof.Machine.execPowerGood straps s
  | .inputShutdown => Sys2Proof.Machine.execInputShutdown s
  | .overcurrentTrip => Sys2Proof.Machine.execOvercurrentTrip s
  | .thermalTrip => Sys2Proof.Machine.execThermalTrip s
  | .regulatorFail r => Sys2Proof.Machine.execRegulatorFail r s
  | .powerCapEval p => Sys2Proof.Machine.execPowerCapEval p s
  | .thermalEval => Sys2Proof.Machine.execThermalEval s
  | .coreThermalGate c => Sys2Proof.Machine.execCoreThermalGate c s
  | .droopResponse c => Sys2Proof.Machine.execDroopResponse c s
  | .droopEnd c => Sys2Proof.Machine.execDroopEnd c s
  | .idleEntry f => Sys2Proof.Machine.execIdleEntry f s
  | .powerStateWake f => Sys2Proof.Machine.execPowerStateWake f s
  | .sensorUpdate j v => Sys2Proof.Machine.execSensorUpdate j v s
  | .getState m => Sys2Proof.Machine.execGetState m s
  | .readSensors m => Sys2Proof.Machine.execReadSensors m s
  | .readReg m => Sys2Proof.Machine.execReadReg m s
  | .readBreach m => Sys2Proof.Machine.execReadBreach m s
  | .setCap m => Sys2Proof.Machine.execSetCap m s
  | .getIdentity m => Sys2Proof.Machine.execGetIdentity m s
  | .flash m => Sys2Proof.Machine.execFlash m s
  | .setAlert m => Sys2Proof.Machine.execSetAlert m s
  | .clearAlert m => Sys2Proof.Machine.execClearAlert m s
  | .modResetN => Sys2Proof.Machine.execModResetN s
  | .tapReset => Sys2Proof.Machine.execTapReset s
  | .extest => Sys2Proof.Machine.execExtest s
  | .samplePreload => Sys2Proof.Machine.execSamplePreload s
  | .idcode => Sys2Proof.Machine.execIdcode s
  | .clamp => Sys2Proof.Machine.execClamp s
  | .highz => Sys2Proof.Machine.execHighz s
  | .bypass code => Sys2Proof.Machine.execBypass code s
  | .hostLaneFail l => Sys2Proof.Machine.execHostLaneFail l s
  | .hostLaneTrainTimeout l => Sys2Proof.Machine.execHostLaneTrainTimeout l s
  | .spareLaneTrainTimeout p => Sys2Proof.Machine.execSpareLaneTrainTimeout p s
  | .refreshManagementRequest ch => Sys2Proof.Machine.execRefreshManagementRequest ch s
  | .housekeepingRailDown => Sys2Proof.Machine.execHousekeepingRailDown s
  | .dataRegisterScan tdi pins => Sys2Proof.Machine.execDataRegisterScan tdi pins s
  | .registerRead a addr => Sys2Proof.Machine.execRegisterRead a addr s

end Sys2Proof.Machine
end

