-- ==== Sys2Proof/Machine/Tick.lean ====
section
/-! DEFINITION. The passing of time on an empty queue: 1 µs, in which the clocks run and the counters that
count their cycles go on (R476). -/

namespace Sys2Proof.Machine

open Sys2Proof

/-- The clock of an island status register in MHz: 0 while it is stopped (R38, R470). -/
def State.clockOf (s : State) (a : Nat) : Nat :=
  if s.regF a 11 10 = 0 then 50 * s.regF a 23 16 else 0

/-- The clock cycles of a stage core in 1 µs (R476): halved during a droop response (R452). While a pair
runs and no command moves it on, the array reads no wavefront; it waits for a stationary load while a
window is still to be loaded (DESIGN CHOICE, log entry 1). -/
def State.tickCore (s : State) (c : Nat) : State :=
  let k := s.core c
  let f := s.clockOf (Reg.CORE_ISLAND_STAT c)
  let n := if k.droop then f / 2 else f
  let runs := match k.cur with
    | some m => !m.grp.isEmpty
    | none => false
  let loads := match k.cur with
    | some m => !m.toLoad.isEmpty && m.toPack.isEmpty
    | none => false
  let s := s.count c 0x001 0 n
  let s := s.count c 0x002 0 (if k.droop then n else 0)
  let s := s.count c 0x047 0 (if runs then n else 0)
  let s := s.count c 0x048 0 (if runs && loads then n else 0)
  let s := s.count c 0x0C1 0 (if k.draining.isSome then n else 0)
  s.count c 0x084 0 (n * k.tiles.length)

/-- The cycles of a compute die's own clock, and those in which its predictor engine is busy. -/
def State.tickDie (s : State) (d : Nat) : State :=
  let f := s.clockOf (Reg.DIE_TEL_ISLAND_STAT d)
  (s.count (54 + d) 0x180 0 f).count (54 + d) 0x241 0 (if (s.die d).pred.isSome then f else 0)

/-- The cycles of an edge die's clock, and in each the requests in its channels' queues of 64 (R269). -/
def State.tickEdge (s : State) (e : Nat) : State :=
  let f := s.clockOf (Reg.EDGE_TEL_ISLAND_STAT e)
  (List.range 96).foldl (fun s i => s.count (60 + e) 0x285 i (f * min 64 (s.chan (96 * e + i)).queue.length))
    (s.count (60 + e) 0x340 0 f)

/-- A port that is up: the cycles in which a packet of a virtual channel waits for credit, and its idle
flits, of which 1 µs holds at most 781 (R317); how many is open, a free value (log entry 1). -/
def State.tickPort (s : State) (p : Nat) : State :=
  let k := s.link p
  let f := s.clockOf (Reg.EDGE_TEL_ISLAND_STAT (p / 8))
  if s.linkState p = 2 then
    let s := (List.range 4).foldl (fun s v =>
      s.count (60 + p / 8) 0x2C4 (4 * (p % 8) + v) (if k.txq.any fun q => q.vc == v then f else 0)) s
    s.draw.2.count (60 + p / 8) 0x2C2 (p % 8) (s.draw.1.toNat % 782)
  else s

/-- The clocks of the cores, the compute dies, the edge dies and the ports run for 1 µs. -/
def State.runClocks (s : State) : State :=
  (List.range 16).foldl State.tickPort
    ((List.range 2).foldl State.tickEdge
      ((List.range 6).foldl State.tickDie ((List.range 54).foldl State.tickCore s)))

/-- 1 µs passes: the model's clock advances; a powered module's clocks run, and its far-memory channels and dies that
serve empty their queues (R262). -/
def tick (s : State) : State :=
  if s.power = .good then
    (List.range 6).foldl State.serveDie
      ((List.range 192).foldl State.serveChan ({ s with now := s.now + 1 }).runClocks)
  else { s with now := s.now + 1 }

end Sys2Proof.Machine
end

