-- ==== Sys2Proof/Safety.lean ====
section
/-! DEFINITION. What holds of every state that a run reaches, and what a safe run is. -/

namespace Sys2Proof.Machine

open Sys2Proof

/-- Every sparse part of the state is in its one canonical form, so that equal contents are equal
data: registers, memory, flash and the tables of the block's parts. -/
structure State.Canonical (s : State) : Prop where
  regs : SMap.wf regReset s.regs = true
  latch : SMap.wf (fun _ => none) s.latch = true
  readData : SMap.wf (fun _ => 0) s.readData = true
  evcStage : SMap.wf (fun _ => 0) s.evcStage = true
  mem : Memory.wf s.mem = true
  flash : SMap.wf flashDefault s.flash = true
  islands : SMap.wf (fun _ => Island.reset) s.islands = true
  cores : SMap.wf (fun _ => CoreSt.reset) s.cores = true
  dies : SMap.wf (fun _ => DieSt.reset) s.dies = true
  arbs : SMap.wf (fun _ => Arb.reset) s.arbs = true
  chans : SMap.wf (fun _ => ChanSt.reset) s.chans = true
  bridges : SMap.wf (fun _ => BridgeSt.reset) s.bridges = true
  engines : SMap.wf (fun _ => EngineSt.reset) s.engines = true
  links : SMap.wf (fun _ => LinkSt.reset) s.links = true
  txFlows : SMap.wf (fun _ => TxFlow.reset) s.txFlows = true
  rxFlows : SMap.wf (fun _ => RxFlow.reset) s.rxFlows = true
  hostQs : SMap.wf (fun _ => HostQ.reset) s.hostQs = true
  allocs : SMap.wf (fun _ => none) s.allocs = true
  descs : SMap.wf (fun _ => none) s.descs = true
  feeds : SMap.wf (fun _ => none) s.feeds = true
  windows : SMap.wf (fun _ => none) s.windows = true
  pwrStates : SMap.wf (fun _ => 0) s.pwrStates = true

/-- What every step keeps: the canonical form, and a breach ring of at most 131,072 records (R386). -/
structure State.Inv (s : State) : Prop where
  canonical : s.Canonical
  ring : s.breaches.length ≤ 131072

/-- One-time-programmable memory only grows (R424, R425, R433): a programmed key slot keeps its digest,
a revoked one stays revoked, the minimum security version never falls, and an identity key stays. -/
structure Otp.Grows (a b : Otp) : Prop where
  svn : a.svn ≤ b.svn
  slots : b.keys.length = a.keys.length
  digest : ∀ (i : Nat) (k : KeySlot), a.keys[i]? = some k → k.programmed = true →
    ∃ k', b.keys[i]? = some k' ∧ k'.programmed = true ∧ k'.digest = k.digest
  revoked : ∀ (i : Nat) (k : KeySlot), a.keys[i]? = some k → k.revoked = true →
    ∃ k', b.keys[i]? = some k' ∧ k'.revoked = true
  ident : ∀ x, a.ident = some x → b.ident = some x

/-- The one address that a command presents to memory and R244 may leave unpopulated, as its meaning
checks it. -/
def addrOf : Instr → Option Nat
  | .fmemAccess addr _ _ => some addr.toNat
  | .fmemPatrolScrub addr _ => some addr.toNat
  | .cacheFill _ _ addr => some addr.toNat
  | .cacheInvalidate _ addr _ => some addr.toNat
  | .burstReconstruct addr => some addr.toNat
  | _ => none

/-- A command that may write memory, its poison marks, flash or one-time-programmable memory. -/
def mayStore : Instr → Bool
  | .stepBeginIssue | .cmdqReservedOpcode .. | .stepCommit | .fmemTrain .. | .spmm .. | .sddmm .. | .spgemm .. | .gather .. | .scatterAdd .. | .conv ..
  | .normstat .. | .copy .. | .predict .. | .elemwise .. | .mopEarlyStart .. | .phaseDoneReceive ..
  | .resultCopyResume .. | .tileDrain .. | .predictComplete .. | .nmemAccess ..
  | .nmemPatrolScrub .. | .fmemAccess .. | .fmemPatrolScrub .. | .burstReconstruct .. | .updChunk ..
  | .updRowRecord .. | .pass2Start .. | .groupLocalDone .. | .commitRecordWrite | .stepResume
  | .recompRebuild .. | .write .. | .readResp .. | .crs .. | .stagedPartialAdd .. | .cag ..
  | .mwr .. | .memWrite .. | .load .. | .run .. | .moduleReset .. | .feedWrite .. | .flashWrite ..
  | .flashErase .. | .activate .. | .advanceSvn .. | .revoke .. | .keyProgram .. | .flashRead ..
  | .replayIssue | .queuedBreach | .dumpWrite | .restoreComplete | .bootRomStart | .healthAreaWrite | .powerGood ..
  | .inputShutdown | .overcurrentTrip | .thermalTrip | .regulatorFail .. | .flash .. | .modResetN => true
  | .registerWrite .. | .unmappedAccess .. | .prdAudRowsRead .. | .prdAudMissRead ..
  | .bridgeTransfer .. | .bridgeFail .. | .islandReset .. | .channelResync .. | .clockChange ..
  | .islandStepBegin .. | .idleItem .. | .stepBegin .. | .mbBegin .. | .stageBind ..
  | .stageUnbind .. | .mopComplete .. | .phaseDone .. | .operandFill ..
  | .stationaryLoad .. | .wavefrontEmit .. | .mergeSegment .. | .wavefront .. | .tileInit ..
  | .sumqAccumulate .. | .auditRowReport .. | .predictStart .. | .allocCreate .. | .allocFree ..
  | .cacheFill .. | .cacheInvalidate .. | .arbGrant .. | .arbBackoffExpire .. | .fmemDriftCheck .. | .fmemRefresh .. | .fmemZqLatch .. | .rowRetire .. | .normResult ..
  | .twinLost .. | .updRecompReq .. | .recompReady .. | .portTrain ..
  | .portTrainTimeout .. | .laneFail .. | .laneSwapComplete .. | .linkSilence .. | .flitReceive ..
  | .retryTimeout .. | .creditReturn .. | .credit .. | .nak .. | .e2eAck .. | .e2eAckDue ..
  | .e2eTimeout .. | .read .. | .cscalar .. | .mack .. | .linkCtlHello .. | .resyncUnitCopy ..
  | .linkCtlSwapRequest .. | .linkCtlSwapDone .. | .linkCtlFenceNotice .. | .fence .. | .unfence ..
  | .hostLaneTrain .. | .hostLaneSilence .. | .hostFlitReceive .. | .nhlCredit .. | .nhlNak ..
  | .gapTimeout .. | .nop .. | .status .. | .regRead .. | .regWrite .. | .descCreate ..
  | .descDestroy .. | .memRead .. | .unload .. | .hold .. | .feedOpen .. | .feedClose ..
  | .feedCommit .. | .feedStall | .resultOpen .. | .resultClose .. | .resultRead ..
  | .resultRelease .. | .resultStall | .attest .. | .eventDrop | .coreWatchdog .. | .coreFail ..
  | .polderLoss .. | .dumpComplete | .restoreStart | .evcCntHiWrite ..
  | .evcCntLoWrite .. | .clear .. | .snap .. | .clearAll | .snapAll | .evcBroadcastArrive ..
  | .evcOvf .. | .functionReady .. | .inputTurnOn | .powerCapEval .. | .thermalEval
  | .coreThermalGate .. | .droopResponse .. | .droopEnd .. | .idleEntry .. | .powerStateWake ..
  | .sensorUpdate .. | .getState .. | .readSensors .. | .readReg .. | .readBreach .. | .setCap ..
  | .getIdentity .. | .setAlert .. | .clearAlert .. | .tapReset | .extest | .samplePreload | .idcode
  | .clamp | .highz | .bypass .. | .hostLaneFail .. | .hostLaneTrainTimeout ..
  | .spareLaneTrainTimeout .. | .refreshManagementRequest .. | .housekeepingRailDown
  | .dataRegisterScan .. | .registerRead .. => false

/-- The sequencer can take the packet q as its next control command (R146, R192): the core runs, no
macro-operation and no segment is in it, a completion word has room, and q is whole at the front of `CMDQ`. -/
def State.TakesControl (s : State) (c : Core) (q : List CmdWord) : Prop :=
  s.coreRuns c = true ∧ (s.core c).cur = none ∧ (s.core c).prev = none ∧ (s.core c).seg = none ∧
    (s.core c).cplq.length < 16 ∧ (s.core c).packet = some q

/-- The sequencer can issue the macro-operation of words ws (R146, R198): the core runs and its
crossing is ready, none is in it, a completion word has room, ws is the next packet of the segment or of `CMDQ`, of n words there, read
without poison, and what its start reads and writes can be reached (R34, R262). -/
def State.TakesMop (s : State) (c : Core) (ws : List (BitVec 128)) (pkt n : Nat) : Prop :=
  s.coreLinked c = true ∧ (s.core c).cplq.length < 16 ∧ (s.core c).cur = none ∧ (s.core c).prev = none ∧
    s.nextMop c = some (ws, pkt, n, false) ∧ s.mayIssue c ws (s.verdictOf c ws) = true

/-- A packet of words ws reaches the issue checks (R147): it comes from the stage's stream, or from `CMDQ` with
good parity. -/
def State.Arrives (s : State) (c : Core) (bad : Bool) : Prop := bad = false ∨ (s.core c).seg.isSome = true

/-- The state in which a packet of n words has been taken, its issue checks used (R198, R202). -/
def State.taken (s : State) (c : Core) (n : Nat) : State :=
  (s.takeMop c n).setCore c { (s.takeMop c n).core c with verdict := none }

/-- The core, the opcode and the parity of a macro-operation command (R147, R195). -/
def mopCode : Instr → Option (Core × Nat × Bool)
  | .spmm ⟨c, bad⟩ => some (c, 0x10, bad.any id)
  | .sddmm ⟨c, bad⟩ => some (c, 0x11, bad.any id)
  | .spgemm ⟨c, bad⟩ => some (c, 0x12, bad.any id)
  | .gather ⟨c, bad⟩ => some (c, 0x13, bad.any id)
  | .scatterAdd ⟨c, bad⟩ => some (c, 0x14, bad.any id)
  | .conv ⟨c, bad⟩ => some (c, 0x15, bad.any id)
  | .normstat ⟨c, bad⟩ => some (c, 0x16, bad.any id)
  | .copy ⟨c, bad⟩ => some (c, 0x17, bad.any id)
  | .predict ⟨c, bad⟩ => some (c, 0x18, bad.any id)
  | .elemwise ⟨c, bad⟩ => some (c, 0x19, bad.any id)
  | _ => none

/-- A host command and its code (R358); the subcommands of `FLASH_WRITE` are not among these. -/
def hostCode : Instr → Option (HostCmd × Nat)
  | .nop h => some (h, 0x00)
  | .status h => some (h, 0x01)
  | .regRead h => some (h, 0x02)
  | .regWrite h => some (h, 0x03)
  | .allocCreate h => some (h, 0x10)
  | .allocFree h => some (h, 0x11)
  | .descCreate h => some (h, 0x12)
  | .descDestroy h => some (h, 0x13)
  | .memWrite h => some (h, 0x20)
  | .memRead h => some (h, 0x21)
  | .load h => some (h, 0x30)
  | .unload h => some (h, 0x31)
  | .run h => some (h, 0x32)
  | .hold h => some (h, 0x33)
  | .moduleReset h => some (h, 0x34)
  | .feedOpen h => some (h, 0x40)
  | .feedClose h => some (h, 0x41)
  | .feedWrite h => some (h, 0x42)
  | .feedCommit h => some (h, 0x43)
  | .resultOpen h => some (h, 0x50)
  | .resultClose h => some (h, 0x51)
  | .resultRead h => some (h, 0x52)
  | .resultRelease h => some (h, 0x53)
  | .attest h => some (h, 0x60)
  | _ => none

/-- A host command is legal in the state (R361), the window of a result command told apart. -/
def State.legalNow (s : State) (h : HostCmd) (cmd : Nat) : Bool :=
  if cmd = 0x52 ∨ cmd = 0x53 then s.winLegal h cmd else cmdLegal cmd s.mode

/-- A host command has its effect (R356, R358, R361): it is its turn, its fields are sound, and it is legal
in the state. -/
def State.Effective (s : State) (h : HostCmd) (cmd : Nat) : Prop :=
  s.hostTurn h cmd = true ∧ cmdBad cmd h = none ∧ s.legalNow h cmd = true

/-- A safe run: `k` steps that meet neither a fault nor a refusal. -/
def safeRun : Nat → State → Bool
  | 0, _ => true
  | k + 1, s => match step s with
    | .next t => safeRun k t
    | _ => false

end Sys2Proof.Machine
end

