-- ==== Sys2Proof/Certificates/Slice0/Obligations.lean ====
section
/-! DEFINITION. The statements about the block. -/

open Sys2Proof Sys2Proof.Machine

/-! ### The whole machine -/

/-- Every step, from every state that keeps it, keeps the invariant: each sparse table of the state is in
its one canonical form, and the breach ring holds at most 131,072 records (R386). -/
def Obligations.StepKeepsInvariant : Prop :=
  ∀ s t : State, s.Inv → step s = .next t → t.Inv

/-- What the machine holds right after reset: power is good, the module is `BOOTING` (R360) with no step committed,
every register reads its reset value, every feed and window is closed, and the queue is empty. The reset values of
memory and of flash are the model's choice (log entries 2 and 3).

The invariant holds at reset. -/
def Obligations.ResetState : Prop :=
  (State.reset.power = .good ∧ State.reset.mode = 0 ∧ State.reset.committed = 0 ∧
     (∀ a, State.reset.reg a = regReset a) ∧ (∀ a, State.reset.mem.byte a = 0) ∧
     (∀ a, SMap.get flashDefault State.reset.flash a = 0xFF) ∧ State.reset.pending = [] ∧
     State.reset.prog = none ∧ (∀ f, State.reset.feed f = none ∧ State.reset.window f = none) ∧
     State.reset.reg Reg.FLT_BREACH_CNT = 0 ∧ State.reset.reg Reg.GLB_UNMAPPED_CNT = 0) ∧
  (State.reset.Inv)

/-- A step takes the command at the front of the queue and runs it on the state with the queue's rest. -/
def Obligations.StepRunsTheFrontCommand : Prop :=
  ∀ (c : Instr) (rest : List Instr) (s : State), s.pending = c :: rest →
    step s = exec c { s with pending := rest }

/-- The model's choice (log entry 1): on an empty queue 1 µs passes; of a module without power nothing
else changes, and of a powered one the queue stays empty and time moves on. -/
def Obligations.EmptyQueuePassesTime : Prop :=
  ∀ s : State, s.pending = [] →
    (s.power ≠ .good → step s = .next { s with now := s.now + 1 }) ∧
    (s.power = .good → ∃ t, step s = .next t ∧ t.pending = [] ∧ t.now = s.now + 1)

/-- One-time-programmable memory only grows (R424, R425, R433): whatever the command, a programmed key
slot keeps its digest, a revoked slot stays revoked, the minimum security version never falls and an
identity key stays. -/
def Obligations.OtpOnlyGrows : Prop :=
  ∀ s t : State, step s = .next t → s.otp.Grows t.otp

/-- A command's effect is on everything but the queue and the model's clock, which is the model's choice (log entry 1);
the model's counter of free values never falls (log entry 5).

Of the 196 commands, 134 store nothing: memory, its poison marks, flash and one-time-programmable
memory are as before, so that every byte of memory reads as before. -/
def Obligations.CommandsLeaveAlone : Prop :=
  (∀ (c : Instr) (s t : State), exec c s = .next t →
     t.pending = s.pending ∧ t.now = s.now ∧ s.freeCtr ≤ t.freeCtr) ∧
  (∀ (c : Instr) (s t : State), mayStore c = false → exec c s = .next t →
     (∀ a, t.mem.byte a = s.mem.byte a) ∧ t.mem = s.mem ∧ t.poison = s.poison ∧ t.flash = s.flash ∧
       t.otp = s.otp)

/-- No command is refused, and a command faults only when the address that it presents to memory lies in
no populated range of far memory, which no requester of the spec can do (R105, R244, R358).

The populated addresses are those of far memory and of the six near memories (R244); the 192 channels
are four for each of 48 packages, driven by the edge dies and halves of R256. -/
def Obligations.OnlyUnpopulatedAddressesFault : Prop :=
  (∀ (c : Instr) (s : State), (∃ t, exec c s = .next t) ∨
     ∃ a b : Nat, addrOf c = some a ∧ farSize ≤ b ∧ b ≤ a ∧ exec c s = .fault (.unpopulated b)) ∧
  ((∀ a : Nat, populated a = true ↔ a ≤ 0x02CFFFFFFFFF ∨
     ∃ d, d < 6 ∧ 0x100000000000 + d * 0x000100000000 ≤ a ∧
       a ≤ 0x100000000000 + d * 0x000100000000 + 0x7FFFFFFF) ∧
   farSize = 192 * (15 * 2 ^ 30) ∧
   ∀ p i : Nat, p < 48 → i < 4 →
     edgeOfChan (4 * p + i) = (if p < 24 then 0 else 1) ∧
     halfOfChan (4 * p + i) = (if p < 12 then 0 else if p < 24 then 1 else if p < 36 then 2 else 3))

/-! ### The control space -/

/-- A write of a register sets its RW fields, clears the W1C bits where a 1 is written and keeps every
other bit (R9, R10); no other register changes by the write itself, and nothing but the registers does.
What the write starts beyond that is `writeStarts`.

Writes that set no field: of an unmapped address, which counts and changes nothing else (R11, R467); of
fabric window 3 while a twin is configured, which has no effect (R395). -/
def Obligations.RegisterWriteSetsFields : Prop :=
  (∀ (a : Accessor) (addr : BitVec 32) (v : Word) (s : State) (r : RegRow),
     regRow addr.toNat = some r → evcPlace addr.toNat = none → s.winLocked addr.toNat = false →
     ∃ t : State, exec (.registerWrite a addr v) s = .next (t.writeStarts addr.toNat v) ∧
       t = { s with regs := t.regs } ∧
       (∀ b, b ≠ addr.toNat → t.reg b = s.reg b) ∧
       ∀ i, i < 32 → (t.reg addr.toNat).getLsbD i =
         if r.rw.testBit i then v.getLsbD i
         else if r.w1c.testBit i && v.getLsbD i then false
         else (s.reg addr.toNat).getLsbD i) ∧
  (∀ (a : Accessor) (addr : BitVec 32) (v : Word) (s : State),
     (regRow addr.toNat = none → exec (.registerWrite a addr v) s = .next (s.unmapped addr.toNat true)) ∧
     (evcPlace addr.toNat = none → s.winLocked addr.toNat = true → (regRow addr.toNat).isSome →
       exec (.registerWrite a addr v) s = .next s))

/-- An access to an address that no register occupies returns 0 to a read, has no effect as a write, and
increments `GLB_UNMAPPED_CNT` up to `0xFFFF_FFFF` (R11); it writes `GLB_UNMAPPED_ADDR` (R467, R469). Every
address at or above `0x0900_0000` is such an address, and no other register changes. -/
def Obligations.UnmappedAccessCounts : Prop :=
  (∀ n, 0x09000000 ≤ n → regRow n = none) ∧
  ∀ (addr : BitVec 32) (write : Bool) (a : Accessor) (s : State), regRow addr.toNat = none →
    ∃ t : State, exec (.unmappedAccess addr write) s = .next t ∧
      (t.reg Reg.GLB_UNMAPPED_CNT).toNat = min ((s.reg Reg.GLB_UNMAPPED_CNT).toNat + 1) 0xFFFFFFFF ∧
      t.reg Reg.GLB_UNMAPPED_ADDR = BitVec.ofNat 32 (addr.toNat / 4 * 4 + write.toNat) ∧
      (∀ b, b ≠ Reg.GLB_UNMAPPED_CNT → b ≠ Reg.GLB_UNMAPPED_ADDR → t.reg b = s.reg b) ∧
      t = { s with regs := t.regs } ∧
      ∃ u : State, exec (.registerRead a addr) s = .next u ∧ SMap.get (fun _ => 0) u.readData a = 0 ∧
        u = { s with regs := u.regs, readData := u.readData } ∧
        ∀ b, u.reg b = (s.unmapped addr.toNat false).reg b

/-- A read of a register that is no audit counter and no high word that the accessor has latched returns
its value and clears its RC fields (R9); a read of a low word also latches the high word for this accessor
alone (R8). No other register changes.

A read of a low word by an accessor and its next read of the high word return one coherent value: the
high word as it was at the first read, whatever happened in between to the register and to the latches of
other accessors (R8). -/
def Obligations.RegisterReadReturns : Prop :=
  (∀ (a : Accessor) (addr : BitVec 32) (s : State) (r : RegRow),
     regRow addr.toNat = some r → audAt addr.toNat = none →
     (∀ lo hi, s.latchOf a = some (lo, hi) → lo + 4 ≠ addr.toNat) →
     ∃ t : State, exec (.registerRead a addr) s = .next t ∧
       SMap.get (fun _ => 0) t.readData a = s.view addr.toNat ∧
       t.reg addr.toNat = s.reg addr.toNat &&& ~~~(BitVec.ofNat 32 r.rc) ∧
       (∀ b, b ≠ addr.toNat → t.reg b = s.reg b) ∧
       (r.pair = true → t.latchOf a = some (addr.toNat, s.view (addr.toNat + 4))) ∧
       (r.pair = false → t.latchOf a = s.latchOf a) ∧
       (∀ b : Nat, b ≠ a.val → t.latchOf b = s.latchOf b) ∧
       t = { s with regs := t.regs, latch := t.latch, readData := t.readData, thrFired := t.thrFired }) ∧
  (∀ (a : Accessor) (lo hi : BitVec 32) (s t u : State) (r q : RegRow),
     hi.toNat = lo.toNat + 4 → regRow lo.toNat = some r → r.pair = true → audAt lo.toNat = none →
     (∀ x w, s.latchOf a = some (x, w) → x + 4 ≠ lo.toNat) →
     regRow hi.toNat = some q → q.pair = false → audAt hi.toNat = none →
     exec (.registerRead a lo) s = .next t → u.latchOf a = t.latchOf a →
     ∃ w : State, exec (.registerRead a hi) u = .next w ∧
       SMap.get (fun _ => 0) t.readData a = s.view lo.toNat ∧
       SMap.get (fun _ => 0) w.readData a = s.view hi.toNat ∧ w.latchOf a = none)

/-- The audit pair: a read of `PRD_AUD_ROWS_l` returns and clears the rows and latches the misses in the
same cycle; the accessor's next read of `PRD_AUD_MISS_l`, after m more misses were counted, returns the latched
value and subtracts it from the counter, so that those m misses remain (R243). -/
def Obligations.AuditPairIsCoherent : Prop :=
  ∀ (a : Accessor) (d : Die) (l : Fin 256) (s u : State) (m : Nat),
    ∃ t : State, exec (.prdAudRowsRead a d l) s = .next t ∧
      SMap.get (fun _ => 0) t.readData a = s.reg (Reg.PRD_AUD_ROWS d l) ∧
      t.reg (Reg.PRD_AUD_ROWS d l) = 0 ∧
      t.reg (Reg.PRD_AUD_MISS d l) = s.reg (Reg.PRD_AUD_MISS d l) ∧
      (∀ x, x ≠ Reg.PRD_AUD_ROWS d l → t.reg x = s.reg x) ∧
      (u.latchOf (audKey d l) = t.latchOf (audKey d l) →
        (u.reg (Reg.PRD_AUD_MISS d l)).toNat = (s.reg (Reg.PRD_AUD_MISS d l)).toNat + m →
        ∃ w : State, exec (.prdAudMissRead a d l) u = .next w ∧
          SMap.get (fun _ => 0) w.readData a = s.reg (Reg.PRD_AUD_MISS d l) ∧
          (w.reg (Reg.PRD_AUD_MISS d l)).toNat = m ∧
          ∀ x, x ≠ Reg.PRD_AUD_MISS d l → w.reg x = u.reg x)

/-! ### Islands, bridges and the sequencer -/

/-- A transfer on a working bridge direction whose repair map is applied (R16, R17): with a matching CRC-32C it is
delivered once and joins the replay buffer of 32; with a failed one it is discarded, nothing is delivered,
the retry is noted and the transfer waits to be sent again. While transfers wait for that, the oldest of them
is the next to arrive, and other data waits behind them; while a die of the two is in reset every transfer waits so
(R27, R28). No other bridge changes. Before its map is applied a direction carries nothing.

A bridge direction that loses lock, or that retried more than 16 transfers within 1 ms, fails, and the
polder of R17 is lost with the bridge number and the direction as `DETAIL`; a failed one delivers nothing. -/
def Obligations.BridgesCarryAndFail : Prop :=
  (∀ (b : Fin 13) (dir : Fin 2) (data : List Byte) (crc : BitVec 32) (s : State) (key : Nat)
     (map : List (BitVec 16)), key = 2 * b.val + dir.val → (s.bridge key).failed = false →
     (s.bridge key).map = some map →
     (s.bridgeReady b = true → (s.bridge key).resend = [] ∨ (s.bridge key).resend.head? = some data →
       ∃ t : State, exec (.bridgeTransfer b dir data crc) s = .next t ∧
         (t.bridge key).failed = false ∧ (t.bridge key).spares = spareWires map data ∧
         (crc32c data = crc → (t.bridge key).delivered = (s.bridge key).delivered + 1 ∧
           (t.bridge key).replay = (data :: (s.bridge key).replay).take 32 ∧
           (t.bridge key).resend = (s.bridge key).resend.drop 1 ∧
           (t.bridge key).retryTimes = (s.bridge key).retryTimes) ∧
         (crc32c data ≠ crc → (t.bridge key).delivered = (s.bridge key).delivered ∧
           (t.bridge key).replay = (s.bridge key).replay ∧
           (t.bridge key).resend =
             (if (s.bridge key).resend = [] then [data] else (s.bridge key).resend) ∧
           (t.bridge key).retryTimes =
             s.now :: (s.bridge key).retryTimes.filter fun x => decide (s.now < x + 1000)) ∧
         (∀ j, j ≠ key → t.bridge j = s.bridge j) ∧ (∀ c, t.core c = s.core c)) ∧
     (s.bridgeReady b = false ∨ (∃ x l, (s.bridge key).resend = x :: l ∧ x ≠ data) →
       exec (.bridgeTransfer b dir data crc) s = .next
         (if (s.bridge key).resend.length < 32 then
            s.setBridge key { s.bridge key with resend := (s.bridge key).resend ++ [data] }
          else s))) ∧
  (∀ (b : Fin 13) (dir : Fin 2) (lostLock : Bool) (data : List Byte) (crc : BitVec 32) (s : State) (key : Nat),
     key = 2 * b.val + dir.val →
     ((s.bridge key).failed = false →
       (lostLock = true ∨ 16 < ((s.bridge key).retryTimes.filter fun x => decide (s.now < x + 1000)).length) →
       exec (.bridgeFail b dir lostLock) s =
         .next ((s.setBridge key { s.bridge key with failed := true }).polderLoss
           (54 + (if dir.val = 0 then (bridgeDies b).2 else (bridgeDies b).1)) (bridgePolder b) b
           (some (b.val + 256 * dir.val)))) ∧
     ((s.bridge key).failed = true ∨ (s.bridge key).map = none →
       exec (.bridgeTransfer b dir data crc) s = .next s))

/-- A reset takes an island out of service and empties it (R27, R148): its step number and sequence number
start again; of a stage core the eight queues, the tiles, the binding and what runs are gone. Resynchronization
brings it back, and it reports ready (R27).

A stage core's due clock change takes effect between two wavefronts, shows in `FREQ`, and changes
nothing else of the core (R25) but its rail's voltage, which is the fused table's for the clock (R446). -/
def Obligations.IslandsResetAndRun : Prop :=
  (∀ (i : ClkIsl) (s : State),
     (∃ t : State, exec (.islandReset i) s = .next t ∧ t.island i = Island.reset ∧
       (i.val < 54 → (t.core i).cmdq = [] ∧ (t.core i).wfq = [] ∧ (t.core i).sumq = [] ∧
         (t.core i).cplq = [] ∧ (t.core i).aq = [] ∧ (t.core i).bq = [] ∧ (t.core i).ixq = [] ∧
         (t.core i).drq = [] ∧ (t.core i).bind = none ∧ (t.core i).cur = none ∧ (t.core i).tiles = [])) ∧
     ((s.island i).ready = false → s.keptInReset i = false →
       ∃ t : State, exec (.channelResync i) s = .next t ∧ t = s.leaveReset i ∧
         (t.island i).ready = true ∧ (t.island i).inReset = false)) ∧
  (∀ (c : Core) (s : State) (f : Nat),
     (s.core c).clkDue = some f → s.pstate c = 0 → (s.core c).droop = false → (s.core c).thermGated = false →
     ∃ t : State, exec (.clockChange c) s = .next t ∧
       t.core c = { s.core c with clkDue := none, setClk := f, volt := fusedMilliVolt (c / 9) f } ∧
       (∀ d, d ≠ c.val → t.core d = s.core d) ∧
       t.regF (Reg.CORE_ISLAND_STAT c) 23 16 = f % 256 ∧
       (∀ a, a ≠ Reg.CORE_ISLAND_STAT c → t.reg a = s.reg a) ∧
       t = { s with cores := t.cores, regs := t.regs })

/-- Control packets (R191, R192, R149): NOP has no effect beyond leaving `CMDQ`; `STAGE_BIND` sets the
stage, its stream and the lengths of its segments; `STAGE_UNBIND` ends the binding; `MB_BEGIN` begins the
segment of a phase for a micro-batch, and logs that the stage takes the output of the one before it where it
does (R32). Nothing of any other core and none of memory, the registers or the step controller changes.

A step-begin sets an island's step number and starts its sequence number again (R31): of a stage core by
the `STEP_BEGIN` packet (R192), of another island by the message that is under way to it once the crossings
on its way are ready (R28). Its own receipt is the first event of the step, with `SEQ` 0 (R32). That a repeated
step starts `SEQ` again, and the events' codes, are the model's choice (log entries 123 and 124). -/
def Obligations.ControlPackets : Prop :=
  (∀ (c : Core) (s : State) (q : List CmdWord) (k : CoreSt), s.TakesControl c q →
     k = (s.popCmd c q.length).core c →
     (∀ l : List Bool, l.any id = false → pktOp q = 0 → exec (.idleItem ⟨c, l⟩) s = .next (s.setCore c k)) ∧
     (pktOp q = 3 → exec (.stageBind c false) s =
       .next ((s.setReg (Reg.SEQ_STAGE c) (stageWord (pktF q 31 16))).setCore c { k with
         bind := some { stage := BitVec.ofNat 16 (pktF q 31 16), base := pktF q 79 32,
                        nfwd := pktF q 95 80, nbwd := pktF q 111 96, neval := pktF q 127 112 } })) ∧
     (pktOp q = 4 → exec (.stageUnbind c false) s =
       .next ((s.setReg (Reg.SEQ_STAGE c) 0).setCore c { k with bind := none })) ∧
     (∀ b, pktOp q = 2 → k.bind = some b → pktF q 9 8 ≠ 3 →
       ∃ t : State, exec (.mbBegin c false) s = .next t ∧
         t.core c = { k with
           seg := some { phase := pktF q 9 8, mb := BitVec.ofNat 32 (pktF q 63 32),
                         replay := decide (pktF q 12 12 = 1), pkt := 0, flags := Flags.clear },
           progress := s.now } ∧
         (pktF q 9 8 = 0 ∧ b.stage ≠ 0 → ∃ e, t.log = s.log ++ [e] ∧ e.name = BitVec.ofNat 16 evInput) ∧
         (¬(pktF q 9 8 = 0 ∧ b.stage ≠ 0) → t = s.setCore c (t.core c)) ∧
         t = { s with cores := t.cores, islands := t.islands, log := t.log } ∧
         (∀ d, d ≠ c.val → t.core d = s.core d))) ∧
  ((∀ (c : Core) (s : State) (q : List CmdWord), s.TakesControl c q → pktOp q = 1 →
     ∃ t : State, exec (.stepBegin c false) s = .next t ∧
       (t.island c).step = BitVec.ofNat 32 (pktF q 63 32) ∧ (t.island c).seq = 1 ∧
       (t.island c).ready = (s.island c).ready ∧ (t.core c).cur = none ∧ (t.core c).bind = (s.core c).bind) ∧
   (∀ (i : Isl) (s : State) (m : IslMsg), (s.ctl.islMsgs.find? fun m => m.isl == i.val) = some m →
     (s.islandPath i = true →
       ∃ t : State, exec (.islandStepBegin i) s = .next t ∧ (t.island i).step = m.step ∧ (t.island i).seq = 1 ∧
         t.ctl = { s.ctl with islMsgs := s.ctl.islMsgs.erase m }) ∧
     (s.islandPath i = false → exec (.islandStepBegin i) s = .next s)))

/-- What `CMDQ_RESERVED_OPCODE` does is the answer to a reserved opcode (R193, R195, R223): outside a segment, and
as a packet of the running segment, it completes with a completion word of code 4 and `CHECK` 1 and index 15,
is counted and described in `SEQ_LAST_REFUSE`, in a segment also logged (R199), and has no other effect. An `MB_BEGIN`
without a stage and one with the reserved phase are answered so too.

A packet from `CMDQ` read with bad parity is discarded: the sequencer does not act on it, and the step
controller sends its command again (R147, R193, R387). A packet of the stage's stream that arrives poisoned is
not executed and poisons its segment (the model's choice, log entry 34).

A macro-operation that fails a check has no effect (R199): one completion word with the code, the check
and the index is written, the refusal is counted, described and logged, and memory, every descriptor, every other
core and the step controller are as before. One whose length source is poisoned is refused so and has the breach of
R212 as well. -/
def Obligations.RefusedPacketsHaveNoEffect : Prop :=
  (∀ (c : Core) (s : State) (q : List CmdWord), s.TakesControl c q →
     (4 < pktOp q ∧ (pktOp q < 0x10 ∨ 0x19 < pktOp q) →
       ∃ t : State, exec (.cmdqReservedOpcode c false) s = .next t ∧
         (t.core c).cplq = (s.core c).cplq ++
           [cplWord (pktOp q) 4 1 0xF (pktF q 47 32) 0xFFFF Flags.clear] ∧
         (t.core c).seg = none ∧ (t.core c).cur = none ∧ (t.core c).bind = (s.core c).bind ∧
         (t.reg (Reg.SEQ_REFUSE_CNT c)).toNat = min ((s.reg (Reg.SEQ_REFUSE_CNT c)).toNat + 1) 0xFFFFFFFF ∧
         t.reg (Reg.SEQ_LAST_REFUSE c) = refuseWord ctlErr (pktOp q) 0xFF ∧
         (∀ d, d ≠ c.val → t.core d = s.core d) ∧ t.mem = s.mem ∧ t.ctl = s.ctl) ∧
     (pktOp q = 2 → (∀ b, (s.core c).bind = some b → pktF q 9 8 = 3) →
       ∃ t : State, exec (.mbBegin c false) s = .next t ∧
         (t.core c).cplq = (s.core c).cplq ++ [cplWord 2 4 1 0xF (pktF q 63 32)
           (match (s.core c).bind with
            | some b => b.stage.toNat
            | none => 0xFFFF) Flags.clear] ∧
         (t.reg (Reg.SEQ_REFUSE_CNT c)).toNat = min ((s.reg (Reg.SEQ_REFUSE_CNT c)).toNat + 1) 0xFFFFFFFF ∧
         t.reg (Reg.SEQ_LAST_REFUSE c) = refuseWord ctlErr 2 0xFF ∧
         (t.core c).seg = none ∧ (t.core c).cur = none ∧
         (∀ d, d ≠ c.val → t.core d = s.core d) ∧ t.mem = s.mem ∧ t.ctl = s.ctl)) ∧
  (∀ (c : Core) (s : State) (q : List CmdWord), s.TakesControl c q →
     (∀ l : List Bool, l.any id = true → pktOp q = 0 → exec (.idleItem ⟨c, l⟩) s = .next (s.ctrlPoison c q)) ∧
     (pktOp q = 1 → exec (.stepBegin c true) s = .next (s.ctrlPoison c q)) ∧
     (pktOp q = 2 → exec (.mbBegin c true) s = .next (s.ctrlPoison c q)) ∧
     (pktOp q = 3 → exec (.stageBind c true) s = .next (s.ctrlPoison c q)) ∧
     (pktOp q = 4 → exec (.stageUnbind c true) s = .next (s.ctrlPoison c q)) ∧
     (4 < pktOp q ∧ (pktOp q < 0x10 ∨ 0x19 < pktOp q) →
       exec (.cmdqReservedOpcode c true) s = .next (s.ctrlPoison c q))) ∧
  (∀ (i : Instr) (c : Core) (s : State) (ws : List (BitVec 128)) (pkt n : Nat),
     mopCode i = some (c, mopOp ws, true) → s.TakesMop c ws pkt n → (s.core c).seg = none →
     exec i s = .next (s.ctrlPoison c ((s.core c).cmdq.take n))) ∧
  (∀ (i : Instr) (c : Core) (bad : Bool) (s : State) (ws : List (BitVec 128)) (pkt n : Nat),
     mopCode i = some (c, mopOp ws, bad) → s.coreLinked c = true → (s.core c).cplq.length < 16 →
     (s.core c).cur = none → (s.core c).prev = none → s.nextMop c = some (ws, pkt, n, true) →
     s.Arrives c bad →
     exec i s = .next ((s.taken c n).segFlags c { Flags.clear with poison := true })) ∧
  (∀ (i : Instr) (c : Core) (bad : Bool) (s : State) (ws : List (BitVec 128)) (pkt n : Nat) (e : IssueErr),
     mopCode i = some (c, mopOp ws, bad) ∨
       i = .cmdqReservedOpcode c bad ∧ noMop (mopOp ws) = true ∧ (s.core c).seg.isSome = true →
     s.TakesMop c ws pkt n → s.Arrives c bad →
     ((s.verdictOf c ws).err = some (e, true) →
       exec i s = .next (((s.taken c n).refuseMop c ws pkt e).lenPoisoned c)) ∧
     ((s.verdictOf c ws).err = some (e, false) →
     ∃ t : State, exec i s = .next t ∧
       (t.core c).cplq = (s.core c).cplq ++
         [cplWord (mopOp ws) e.1 e.2.1 e.2.2 (mopId ws) pkt Flags.clear] ∧
       (t.reg (Reg.SEQ_REFUSE_CNT c)).toNat = min ((s.reg (Reg.SEQ_REFUSE_CNT c)).toNat + 1) 0xFFFFFFFF ∧
       t.reg (Reg.SEQ_LAST_REFUSE c) = refuseWord e (mopOp ws) pkt ∧
       (∃ l ev, t.log = l ++ [ev] ∧ ev.name = 0x0201 ∧ ev.arg = BitVec.ofNat 32 (mopId ws)) ∧
       (t.core c).cur = none ∧ (t.core c).prev = none ∧
       (t.core c).tiles = (s.core c).tiles ∧ (t.core c).acc = (s.core c).acc ∧
       (∀ d, d ≠ c.val → t.core d = s.core d) ∧
       t = { s with cores := t.cores, regs := t.regs, islands := t.islands, links := t.links, log := t.log,
                    evtSeq := t.evtSeq, thrFired := t.thrFired })) ∧
  (∀ (c : Core) (bad : Bool) (s : State) (ws : List (BitVec 128)) (pkt n : Nat),
     noMop (mopOp ws) = true → (s.core c).seg.isSome = true → s.TakesMop c ws pkt n →
     (s.core c).verdict = none → checkStatic (s.issueEnv c) ws = some (4, 1, 0xF) →
     ∃ t : State, exec (.cmdqReservedOpcode c bad) s = .next t ∧
       (t.core c).cplq = (s.core c).cplq ++ [cplWord (mopOp ws) 4 1 0xF (mopId ws) pkt Flags.clear] ∧
       (t.reg (Reg.SEQ_REFUSE_CNT c)).toNat = min ((s.reg (Reg.SEQ_REFUSE_CNT c)).toNat + 1) 0xFFFFFFFF ∧
       t.reg (Reg.SEQ_LAST_REFUSE c) = refuseWord ctlErr (mopOp ws) pkt ∧
       (∃ l ev, t.log = l ++ [ev] ∧ ev.name = 0x0201 ∧ ev.arg = BitVec.ofNat 32 (mopId ws)) ∧
       (t.core c).cur = none ∧ (t.core c).tiles = (s.core c).tiles ∧ t.mem = s.mem)

/-- `SPMM`, `SDDMM`, `SPGEMM`, `GATHER`, `SCATTER_ADD`, `CONV`, `NORMSTAT`, `COPY`, `PREDICT` and `ELEMWISE`: a
macro-operation whose packet passes every check of R198 starts. The packet is taken and the steps of R200
follow (`State.startMop`): the core then runs it, with its words, its packet index and its lengths; no
completion word is written yet, and the other cores are as before. A `PREDICT` joins the requests of its die's
engine (R195, R224). -/
def Obligations.MacroOperationsStart : Prop :=
  (∀ (c : Core) (bad : List Bool) (s : State) (ws : List (BitVec 128)) (pkt n : Nat) (l : Lens),
    s.TakesMop c ws pkt n → s.Arrives c (bad.any id) → (s.verdictOf c ws).err = none → (s.verdictOf c ws).lens = l →
    0x10 ≤ mopOp ws → mopOp ws ≤ 0x19 →
    ∃ t : State, t = (s.taken c n).startMop c ws l pkt ∧
         (mopOp ws = 0x10 → exec (.spmm ⟨c, bad⟩) s = .next t) ∧
         (mopOp ws = 0x11 → exec (.sddmm ⟨c, bad⟩) s = .next t) ∧
         (mopOp ws = 0x12 → exec (.spgemm ⟨c, bad⟩) s = .next t) ∧
         (mopOp ws = 0x13 → exec (.gather ⟨c, bad⟩) s = .next t) ∧
         (mopOp ws = 0x14 → exec (.scatterAdd ⟨c, bad⟩) s = .next t) ∧
         (mopOp ws = 0x15 → exec (.conv ⟨c, bad⟩) s = .next t) ∧
         (mopOp ws = 0x16 → exec (.normstat ⟨c, bad⟩) s = .next t) ∧
         (mopOp ws = 0x17 → exec (.copy ⟨c, bad⟩) s = .next t) ∧
         (mopOp ws = 0x18 → exec (.predict ⟨c, bad⟩) s = .next t) ∧
         (mopOp ws = 0x19 → exec (.elemwise ⟨c, bad⟩) s = .next t) ∧
      (∃ m : RunMop, (t.core c).cur = some m ∧ m.words = ws ∧ m.pkt = pkt ∧ m.mLen = l.m ∧ m.nLen = l.n ∧
        m.kLen = l.k) ∧
      (t.core c).cplq = (s.core c).cplq ∧ (∀ d, d ≠ c.val → t.core d = s.core d) ∧
      (mopOp ws = 0x18 → ∃ q : PredReq,
        (t.die (c.val / 9)).predQ = (s.die (c.val / 9)).predQ ++ [q] ∧ q.core = c ∧
        q.words = ws)) ∧
  (∀ (c : Core) (s : State) (ws : List (BitVec 128)),
    (∀ v, (s.core c).verdict = some v → ¬(v.words = ws ∧ v.named = s.namedDescs c ws)) →
    ((s.verdictOf c ws).err = none ↔ ∃ l, s.checkIssue c ws = .ok l) ∧
    ∀ l, s.checkIssue c ws = .ok l → (s.verdictOf c ws).lens = l)

/-- The end of a run (R201, R202): the older of two runs completes first, with the completion word of its
opcode, ID, packet index and flags; `SEQ_MOP_CNT` counts it. The next macro-operation may start before the
previous one has drained, when their operands and outputs do not meet and its group finds slots.

The issue checks of the next macro-operation run while the previous one works, and stand until its turn. It
starts before the previous one has drained (R202), when the core runs, neither is `PREDICT`, the walk of the
previous one has ended, the inputs of the next do not meet its outputs and its first group finds slots.

The end of a segment (R192): when every packet of the phase has been taken and no macro-operation is in
the core, the phase's completion word carries the micro-batch, the stage and the OR of the flags, the
segment ends, and the event is logged, with a code that is the model's choice (log entry 124). -/
def Obligations.MacroOperationsComplete : Prop :=
  (∀ (c : Core) (s : State) (m : RunMop), s.coreRuns c = true → (s.core c).cplq.length < 16 →
     s.mopDone c m = true →
     ((s.core c).prev = some m →
       ∃ t : State, exec (.mopComplete c) s = .next t ∧ (t.core c).prev = none ∧
         (t.core c).cur = (s.core c).cur ∧
         (t.core c).cplq = (s.core c).cplq ++ [cplWord m.op 0 0 0xF (mopId m.words) m.pkt m.flags] ∧
         t.reg (Reg.SEQ_MOP_CNT c) = satAdd (s.reg (Reg.SEQ_MOP_CNT c)) 1 ∧
         t = { s with cores := t.cores, regs := t.regs }) ∧
     ((s.core c).prev = none → (s.core c).cur = some m →
       ∃ t : State, exec (.mopComplete c) s = .next t ∧ (t.core c).cur = none ∧
         (t.core c).cplq = (s.core c).cplq ++ [cplWord m.op 0 0 0xF (mopId m.words) m.pkt m.flags] ∧
         t.reg (Reg.SEQ_MOP_CNT c) = satAdd (s.reg (Reg.SEQ_MOP_CNT c)) 1 ∧
         t = { s with cores := t.cores, regs := t.regs })) ∧
  (∀ (c : Core) (bad : List Bool) (s : State) (m : RunMop) (ws : List (BitVec 128)) (pkt n : Nat) (v : Verdict)
     (plan : RunMop), s.coreLinked c = true → (s.core c).cur = some m → (s.core c).prev = none →
     s.nextMop c = some (ws, pkt, n, false) → s.Arrives c (bad.any id) → v = s.verdictOf c ws →
     s.mayIssue c ws v = true →
     plan = s.planMop c ws v.lens pkt none false →
     (m.walked = true → m.op ≠ 0x18 → mopOp ws ≠ 0x18 → v.err = none → apart (s.issueEnv c) ws m = true →
       (allocGroup plan (plan.groups.headD []) (s.core c).tiles).isSome = true →
       exec (.mopEarlyStart ⟨c, bad⟩) s = .next
         (((s.setCore c { s.core c with cur := none, prev := some m }).takeMop c n).startMop c ws v.lens pkt)) ∧
     (m.walked = false ∨ v.err.isSome = true ∨ apart (s.issueEnv c) ws m = false →
       exec (.mopEarlyStart ⟨c, bad⟩) s = .next (s.setCore c { s.core c with verdict := some v }))) ∧
  (∀ (c : Core) (s : State) (g : Segment) (b : Binding),
     (s.core c).seg = some g → (s.core c).bind = some b → s.coreRuns c = true →
     (s.core c).cplq.length < 16 → (s.core c).cur = none → (s.core c).prev = none →
     b.count g.phase ≤ g.pkt →
     ∃ t : State, exec (.phaseDone c) s = .next t ∧
       t.core c = { s.core c with
         seg := none, cplq := (s.core c).cplq ++ [cplWord 2 0 0 0xF g.mb.toNat b.stage.toNat g.flags],
         progress := s.now } ∧
       (∃ l e, t.log = l ++ [e] ∧ e.name = BitVec.ofNat 16 evPhaseDone ∧
         e.arg = BitVec.ofNat 32 (phaseArg g.phase g.mb.toNat g.replay)) ∧
       (∀ d, d ≠ c.val → t.core d = s.core d) ∧ t.mem = s.mem ∧ t.ctl = s.ctl)

/-! ### The feeder, the array, the drain and the predictor -/

/-- A fill of the operand buffer that lies inside one array of an operand (R127) puts there the bytes that the
operand reads of it, as memory holds them (R73): all of them, but of A only what an active row wants (R235).
It marks the units that were poisoned, and changes no other core and no byte of memory. Bytes that the buffer holds
stay there while the new ones fit beside them (which of them leave is the model's choice, log entry 155).

A fill whose way is not ready waits (R28, R262), and so does one behind it; those that wait go first. -/
def Obligations.OperandFillHoldsTheBytes : Prop :=
  ∀ (c : Core) (addr : Addr) (len : Nat) (s : State) (m : RunMop) (d : Desc) (r : Nat × Nat) (inA : Bool)
    (l : List Nat), s.coreRuns c = true → (s.core c).cur = some m →
    (m.dA = some d ∨ m.dB = some d ∨ m.op = 0x11 ∧ m.desc (mopAux m.words) = some d) → r ∈ d.reach →
    r.1 ≤ addr.toNat → addr.toNat + len ≤ r.1 + r.2 →
    (inA = true ↔ ∃ a, m.dA = some a ∧ ∃ x ∈ a.reach, x.1 ≤ addr.toNat ∧ addr.toNat + len ≤ x.1 + x.2) →
    l = s.fillList m inA addr.toNat len → l ≠ [] → l.length ≤ opBytes →
    (∀ j ∈ l, addr.toNat ≤ j ∧ j < addr.toNat + len) ∧
    ((inA = false ∨ m.rowMap = none) → l.length = len) ∧
    (∀ x q, (s.core c).fills = x :: q → (s.coreLinked c && s.memPath (c / 9) x.1 x.2) = false →
      exec (.operandFill c addr len) s =
        .next (s.setCore c { s.core c with fills := x :: q ++ [(addr.toNat, len)] })) ∧
    ((s.core c).fills = [] → (s.coreLinked c && s.memPath (c / 9) addr.toNat len) = false →
      exec (.operandFill c addr len) s =
        .next (s.setCore c { s.core c with fills := [(addr.toNat, len)] })) ∧
    (∀ x q, (s.core c).fills = x :: q → (s.coreLinked c && s.memPath (c / 9) x.1 x.2) = true →
      exec (.operandFill c addr len) s =
        .next (State.serveFills c m (q ++ [(addr.toNat, len)]) (s.fillNow c m x.1 x.2))) ∧
    ((s.core c).fills = [] → (s.coreLinked c && s.memPath (c / 9) addr.toNat len) = true →
      ∃ t : State, exec (.operandFill c addr len) s = .next t ∧
        t.core c = { s.core c with
          opbuf := fillBytes s l (makeRoom l.length (s.core c).opbuf),
          opPoison := (((l.map poisonUnit).dedup).filter s.poison.contains).foldl insertSorted
            (s.core c).opPoison,
          progress := s.now } ∧
        (∀ j ∈ l, SMap.get (fun _ => none) (t.core c).opbuf j = some (s.mem.byte j)) ∧
        ((s.core c).opbuf.length + l.length ≤ opBytes → ∀ j, j ∉ l →
          SMap.get (fun _ => none) (t.core c).opbuf j = SMap.get (fun _ => none) (s.core c).opbuf j) ∧
        (∀ e, e ≠ c.val → t.core e = s.core e) ∧ t.mem = s.mem ∧ t.poison = s.poison)

/-- A fill of a stationary register (R128, R156): the B values of the next (tile, window) of the load order, as
the words of `BQ` carry them, go into the register that no wavefront uses; the pair joins what the packer packs, and
the last of the words is what an empty `BQ` gives again.

The packer emits one wavefront (R131 to R135) of the (tile, window) that it packs, or takes the next one
of `toPack` first, as long as `WFQ` has room.

The merge unit takes one index segment (R138 to R140): its surviving pairs, sorted by index with ties in order
of arrival, join the merged list, and one segment fewer is left.

In a core that runs no macro-operation these units, and the crossing behind the drain, find their queue empty, and
the underrun shows in `CORE_Q_STAT` (R149; that nothing more comes of it is the model's choice, log entry 144). -/
def Obligations.FeederPacks : Prop :=
  (∀ (c : Core) (bad : List Bool) (s : State) (m : RunMop) (slot w : Nat) (rest : List (Nat × Nat))
     (rows : List RowWord),
     s.coreRuns c = true → (s.core c).cur = some m → m.toLoad = (slot, w) :: rest → s.feedReady c m = true →
     (s.core c).bankA.pw = none ∨ (s.core c).bankB.pw = none →
     rows = s.throughQueue c m false (s.core c).bq (s.bNext c m) bad →
     ∃ (t : State) (k : RunMop), exec (.stationaryLoad ⟨c, bad⟩) s = .next t ∧
       (t.core c).cur = some k ∧ k.toLoad = rest ∧ k.toPack = m.toPack ++ [(slot, w)] ∧
       (t.core c).bankB =
         (if (s.core c).loadsB then ⟨some (slot, w), stationaryVals rows⟩ else (s.core c).bankB) ∧
       (t.core c).bankA =
         (if (s.core c).loadsB then (s.core c).bankA else ⟨some (slot, w), stationaryVals rows⟩) ∧
       (t.core c).bLast = (rows.getLast? <|> (s.core c).bLast) ∧
       (t.core c).actB = (s.core c).actB ∧ (t.core c).acc = (s.core c).acc ∧
       (∀ e, e ≠ c.val → t.core e = s.core e) ∧ t.mem = s.mem) ∧
  (∀ (c : Core) (bad : List Bool) (s : State) (m : RunMop), s.coreRuns c = true → (s.core c).cur = some m →
     (s.core c).wfq.length < 4 →
     (∀ p, (s.core c).pack = some p →
       ∃ (t : State) (w : Wavefront), exec (.wavefrontEmit ⟨c, bad⟩) s = .next t ∧
         t = ((s.emitWave c m p).advance c).prefetch c ∧
         (t.core c).wfq = (s.core c).wfq ++ [w] ∧ w.tile = p.pw.1 ∧ w.win = p.pw.2 ∧
         (w.lanes, w.slots) = ((packNext m.slots m.bandOf p).1, (packNext m.slots m.bandOf p).2.1) ∧
         (∀ e, e ≠ c.val → t.core e = s.core e)) ∧
     (∀ slot w rest, (s.core c).pack = none → m.toPack = (slot, w) :: rest → s.feedReady c m = true →
       ∃ (t u : State) (p : Packer) (x : Wavefront), exec (.wavefrontEmit ⟨c, bad⟩) s = .next t ∧
         s.takePack c m bad = some (p, u) ∧ p.pw = (slot, w) ∧
         (t.core c).wfq = (s.core c).wfq ++ [x] ∧ x.tile = slot ∧ x.win = w ∧
         (x.lanes, x.slots) = ((packNext m.slots m.bandOf p).1, (packNext m.slots m.bandOf p).2.1) ∧
         (∀ e, e ≠ c.val → t.core e = s.core e))) ∧
  (∀ (c : Core) (bad : List Bool) (s : State) (m : RunMop) (d : Desc) (lo n esz : Nat)
     (seg : List Nat × List (Nat × Nat) × List Drop), s.coreRuns c = true →
     (s.core c).cur = some m → m.nextSegment = some (lo, n, esz, d) → s.feedReady c m = true →
     seg = ((s.coreRd c).withWords (s.segmentWords c m bad)).segment d lo n esz →
     ∃ (u : State) (k : RunMop) (l : List (Nat × Nat)),
       exec (.mergeSegment ⟨c, bad⟩) s = .next ((u.advance c).prefetch c) ∧
       (u.core c).cur = some k ∧ k.segsLeft = m.segsLeft - 1 ∧ k.merged = m.merged ++ l ∧
       l.Perm seg.2.1 ∧ l.Pairwise (fun p q => p.1 ≤ q.1) ∧
       (∀ x, l.filter (fun p => p.1 == x) = seg.2.1.filter fun p => p.1 == x) ∧
       (u.core c).ixq = [] ∧
       (∀ e, e ≠ c.val → u.core e = s.core e)) ∧
  (∀ (c : Core) (bad : List Bool) (s : State), s.coreRuns c = true → (s.core c).cur = none →
     exec (.stationaryLoad ⟨c, bad⟩) s = .next (s.underrun c 3) ∧
     exec (.wavefrontEmit ⟨c, bad⟩) s = .next (s.underrun c 2) ∧
     exec (.mergeSegment ⟨c, bad⟩) s = .next (s.underrun c 4) ∧
     ((s.core c).prev = none → (s.core c).drq = [] → (s.core c).drHeld = [] →
       exec (.tileDrain ⟨c, bad⟩) s = .next (s.underrun c 7)))

/-- A wavefront passes the PE rows (R155, R158): it leaves `WFQ`, and one word of lane sums of the same tile,
window and lanes joins `SUMQ`: each lane and column has the sum of the products that meet there, and +0 where none
does; a word with bad parity leaves the queue all the same, its lanes poisoned (R147). The other cores are as
before.

An empty queue gives its consumer the last word again, and the underrun shows in `CORE_Q_STAT`
(R149, R153): for `WFQ` and for `SUMQ`. -/
def Obligations.WavefrontMakesLaneSums : Prop :=
  (∀ (c : Core) (bad : Bool) (s : State) (m : RunMop) (w : Wavefront) (rest : List Wavefront),
     s.coreRuns c = true → (s.core c).cur = some m → (s.core c).wfq = w :: rest →
     (s.core c).sumq.length < 4 →
     ∃ (t : State) (x : SumWord), exec (.wavefront c bad) s = .next t ∧
       (t.core c).wfq = rest ∧ (t.core c).wfLast = some w ∧ (t.core c).sumq = (s.core c).sumq ++ [x] ∧
       x.tile = w.tile ∧ x.win = w.win ∧ x.winLast = w.winLast ∧ x.lanes = w.lanes ∧
       (∀ l j, x.at l j = if l < w.lanes.length ∧ j < 128 then
         (match laneResult m (s.core c).active w l j with
          | some r => r.1
          | none => 0) else 0) ∧
       (bad = true → ∀ l, l < w.lanes.length → l < 8 → x.poison.getLsbD l = true) ∧
       (∀ e, e ≠ c.val → t.core e = s.core e)) ∧
  (∀ (c : Core) (bad : Bool) (s : State), s.coreRuns c = true →
     ((s.core c).wfq = [] → (s.core c).sumq.length < 4 →
       exec (.wavefront c bad) s =
         .next ((s.underrun c 5).passWave c ((s.core c).wfLast.getD Wavefront.zero) false)) ∧
     ((s.core c).sumq = [] → ∃ t : State, exec (.sumqAccumulate c bad) s = .next t ∧
       t = (if (s.core c).tileReady ((s.core c).sumLast.getD SumWord.zero).tile
            then (s.underrun c 6).addSums c ((s.core c).sumLast.getD SumWord.zero) false
            else s.underrun c 6)))

/-- A tile starts (R165): its slot holds its tile with the initial values in it, and 0 where there is none; its
flags start clear but for what the initial values set.

A word of lane sums is added into its tile (R158, R159, R166, R171, R172): it leaves `SUMQ`, and the
slots hold what `accumulate` makes of them.

The drain takes the tile at the front of the older run, or of the run in progress when the older one has
nothing left (R174, R202), through the lanes (R175 to R183), once no word of it waits in front of `DRQ` (R145). A
drain into far memory waits while its step is more than one ahead of the last committed one (R34). -/
def Obligations.TilesAreFilledAndDrained : Prop :=
  (∀ (c : Core) (s : State) (m : RunMop) (slot : Nat) (rest : List Nat) (x : Tile) (got : List (Nat × InitRow)),
     s.coreLinked c = true → (s.core c).cur = some m → m.toInit = slot :: rest → s.feedReady c m = true →
     slot < 64 → SMap.get (fun _ => none) (s.core c).tiles slot = some x → got = s.initRows c m x →
     ∃ (u : State) (k : RunMop), exec (.tileInit c) s = .next (u.advance c) ∧
       (u.core c).cur = some k ∧ k.toInit = rest ∧ k.toLoad = m.toLoad ∧
       SMap.get (fun _ => none) (u.core c).tiles slot = some { x with init := true } ∧
       (∀ j, j ≠ slot → SMap.get (fun _ => none) (u.core c).tiles j =
         SMap.get (fun _ => none) (s.core c).tiles j) ∧
       (u.core c).acc = initAcc x (s.core c).acc slot got ∧
       u.regF (Reg.ACC_SAT_TILE c (slot / 32)) (slot % 32) (slot % 32) =
         (decide (0 < (got.map fun g => g.2.sat).sum)).toNat ∧
       u.regF (Reg.ACC_POISON_TILE c (slot / 32)) (slot % 32) (slot % 32) =
         ((got.any fun g => g.2.bad) || m.metaPoison.contains (x.x, x.y)).toNat ∧
       (slot ∈ (u.core c).tileNonfin ↔ 0 < (got.map fun g => g.2.nf).sum) ∧
       slot ∉ (u.core c).tileEmpty ∧
       (∀ e, e ≠ c.val → u.core e = s.core e) ∧ u.mem = s.mem) ∧
  (∀ (c : Core) (bad : Bool) (s : State) (m : RunMop) (w : SumWord) (rest : List SumWord) (x : Tile),
     s.coreRuns c = true → (s.core c).cur = some m → (s.core c).sumq = w :: rest →
     (s.core c).tileReady w.tile = true → SMap.get (fun _ => none) (s.core c).tiles w.tile = some x →
     ∃ u : State, exec (.sumqAccumulate c bad) s = .next ((u.advance c).prefetch c) ∧
       (u.core c).sumq = rest ∧ (u.core c).sumLast = some w ∧
       (u.core c).acc = (accumulate x (s.core c).acc w).1 ∧
       (u.core c).cur = some (m.mark x w) ∧ (u.core c).wfq = (s.core c).wfq ∧
       (∀ e, e ≠ c.val → u.core e = s.core e)) ∧
  (∀ (c : Core) (bad : List Bool) (s : State) (m : RunMop) (slot : Nat) (rest : List Nat) (x : Tile),
     (s.core c).drq = [] → (s.core c).drHeld = [] → m.drainQ = slot :: rest → s.drainReady c m = true →
     SMap.get (fun _ => none) (s.core c).tiles slot = some x →
     (s.outputWaits c m = false →
       ((s.core c).prev = some m → exec (.tileDrain ⟨c, bad⟩) s = .next (s.drainTile c m true slot x bad)) ∧
       ((s.core c).cur = some m →
         ((s.core c).prev = none ∨ ∃ p, (s.core c).prev = some p ∧ p.drainQ = []) →
         exec (.tileDrain ⟨c, bad⟩) s = .next (s.drainTile c m false slot x bad))) ∧
     (s.outputWaits c m = true → (s.core c).prev = some m → exec (.tileDrain ⟨c, bad⟩) s = .next s)) ∧
  (∀ (c : Core) (bad : List Bool) (s : State) (ws : List DrqWord),
     ws = (s.core c).drq ++ (s.core c).drHeld → ws ≠ [] →
     ((s.core c).drainRun = none ∨ 32 < (ws.drop (ws.takeWhile (s.drqReady c)).length).length) →
     exec (.tileDrain ⟨c, bad⟩) s = .next (s.crossDrq c ws bad))

/-- A die's predictor engine takes the oldest request, with the threshold, the enable and the audit rate of
that moment (R224, R227), and its completion (R229, R230) makes it ready for the next.

A core's report of an audit row (R232): `PRD_AUD_ROWS_l` of its own die counts it, `PRD_AUD_MISS_l` counts
a miss, and the report leaves the core. -/
def Obligations.PredictorRuns : Prop :=
  (∀ (d : Die) (s : State),
     (∀ q rest, (s.die d).pred = none → (s.die d).predQ = q :: rest → (s.island (54 + d)).ready = true →
       exec (.predictStart d) s = .next (s.setDie d { s.die d with
         predQ := rest,
         pred := some ⟨q, s.reg (Reg.PRD_THR d (fld (mopSpec q.words) 23 16)),
           decide (s.regF (Reg.PRD_CTL d) 8 8 = 1), min 12 (s.regF (Reg.PRD_CTL d) 3 0)⟩ })) ∧
     (∀ p, (s.die d).pred = some p →
       ∃ t : State, exec (.predictComplete d) s = .next t ∧ t = s.predFinish d p ∧ (t.die d).pred = none ∧
         (t.die d).predQ = (s.die d).predQ)) ∧
  (∀ (c : Core) (s : State) (l : Nat) (miss : Bool) (rest : List (Nat × Bool)), l < 256 →
     (s.core c).auditQ = (l, miss) :: rest →
     ∃ t : State, exec (.auditRowReport c) s = .next t ∧
       t.core c = { s.core c with auditQ := rest } ∧
       t.reg (Reg.PRD_AUD_ROWS (c.val / 9) l) = satAdd (s.reg (Reg.PRD_AUD_ROWS (c.val / 9) l)) 1 ∧
       t.reg (Reg.PRD_AUD_MISS (c.val / 9) l) =
         (if miss then satAdd (s.reg (Reg.PRD_AUD_MISS (c.val / 9) l)) 1
          else s.reg (Reg.PRD_AUD_MISS (c.val / 9) l)) ∧
       (∀ e, e ≠ c.val → t.core e = s.core e))

/-! ### Memory -/

/-- A write of a near-memory line (R252) and of a far-memory burst of a channel that serves (R264) stores its
bytes, at most the 64 or 32 of the unit, from the unit's base; every byte outside them reads as before. The mark
of the unit is what the write carries: a poisoned burst is marked, and clean data that covers the unit clears its
mark. A channel that serves takes what its queue holds first; one that does not holds the request, and serves it
when it can (R262, R269). Near memory does the same by its die's NoC (R27, R459). -/
def Obligations.MemoryWritesStoreTheirUnit : Prop :=
  (∀ (d : Die) (req : Fin 16) (off : BitVec 31) (bytes : List Byte) (err : EccErr) (s : State) (a : Nat),
    a = nearBase d + off.toNat / 64 * 64 → s.nocRuns d = true → (s.die d).held = [] →
    ∃ t : State, exec (.nmemAccess d req off (some bytes) err) s = .next t ∧
      (∀ i, i < (bytes.take 64).length → some (t.mem.byte (a + i)) = bytes[i]?) ∧
      (∀ j, j < a ∨ a + (bytes.take 64).length ≤ j → t.mem.byte j = s.mem.byte j) ∧
      (64 ≤ bytes.length → a ∉ t.poison) ∧ (∀ u, u ≠ a → (u ∈ t.poison ↔ u ∈ s.poison))) ∧
  (∀ (addr : Addr) (bytes : List Byte) (bad : Bool) (err : EccErr) (s : State) (a : Nat),
    a = addr.toNat / 32 * 32 → a < farSize → s.chanServes (chanOf a) = true →
    (s.chan (chanOf a)).queue = [] →
    ∃ t : State, exec (.fmemAccess addr (some (bytes, bad)) err) s = .next t ∧
      (∀ i, i < (bytes.take 32).length → some (t.mem.byte (a + i)) = bytes[i]?) ∧
      (∀ j, j < a ∨ a + (bytes.take 32).length ≤ j → t.mem.byte j = s.mem.byte j) ∧
      (bad = true → bytes ≠ [] → a ∈ t.poison) ∧ (bad = false → 32 ≤ bytes.length → a ∉ t.poison) ∧
      (∀ u, u ≠ a → (u ∈ t.poison ↔ u ∈ s.poison))) ∧
  (∀ (addr : Addr) (wr : Option (List Byte × Bool)) (err : EccErr) (s : State) (a : Nat) (k : ChanSt),
    a = addr.toNat / 32 * 32 → a < farSize → k = s.chan (chanOf a) →
    (s.chanServes (chanOf a) = true → k.queue ≠ [] → exec (.fmemAccess addr wr err) s = .next
      ((k.queue.foldl State.serveReq (s.setChan (chanOf a) { k with queue := [] })).serveReq ⟨a, wr, err⟩)) ∧
    (s.chanServes (chanOf a) = false → exec (.fmemAccess addr wr err) s = .next
      (s.setChan (chanOf a) { k with queue := k.queue ++ [⟨a, wr, err⟩] }))) ∧
  (∀ (d : Die) (req : Fin 16) (off : BitVec 31) (wr : Option (List Byte)) (err : EccErr) (s : State),
    (s.nocRuns d = true → (s.die d).held ≠ [] → exec (.nmemAccess d req off wr err) s = .next
      (((s.die d).held.foldl (fun s q => s.serveNear d q)
        (s.setDie d { s.die d with held := [] })).serveNear d ⟨off.toNat, wr, err⟩)) ∧
    (s.nocRuns d = false → exec (.nmemAccess d req off wr err) s = .next
      (s.setDie d { s.die d with held := (s.die d).held ++ [⟨off.toNat, wr, err⟩] })))

/-- A read or a patrol scrub of a near line or of a far burst changes no byte of memory; a single-bit error
leaves the marks as they are, a double-bit error marks the unit, and so does a mismatch of the folded address
bits in far memory (R252, R263, R264). Of a line in the die's cache share the cache line is marked (R255; which
one is the model's choice, log entry 137). -/
def Obligations.MemoryReadsMarkBadUnits : Prop :=
  (∀ (d : Die) (req : Fin 16) (off : BitVec 31) (err : EccErr) (s : State) (a : Nat),
    a = nearBase d + off.toNat / 64 * 64 → s.nocRuns d = true → (s.die d).held = [] →
    ∃ t u : State, exec (.nmemAccess d req off none err) s = .next t ∧
      exec (.nmemPatrolScrub d off err) s = .next u ∧ t.mem = s.mem ∧ u.mem = s.mem ∧
      (s.cacheSlot d off.toNat = none →
        t.poison = (if err = .double then insertSorted s.poison a else s.poison) ∧
        u.poison = (if err = .double then insertSorted s.poison a else s.poison)) ∧
      (∀ k l, s.cacheSlot d off.toNat = some k → SMap.get (fun _ => none) (s.die d).cache k = some l →
        t.poison = s.poison ∧ u.poison = s.poison ∧
        SMap.get (fun _ => none) (t.die d).cache k = some { l with poison := l.poison || err == .double } ∧
        SMap.get (fun _ => none) (u.die d).cache k = some { l with poison := l.poison || err == .double })) ∧
  (∀ (addr : Addr) (err : EccErr) (s : State) (a : Nat),
    a = addr.toNat / 32 * 32 → a < farSize → s.chanServes (chanOf a) = true →
    (s.chan (chanOf a)).queue = [] →
    ∃ t u : State, exec (.fmemAccess addr none err) s = .next t ∧
      exec (.fmemPatrolScrub addr err) s = .next u ∧ t.mem = s.mem ∧ u.mem = s.mem ∧
      t.poison = (if err = .double ∨ err = .addrMismatch then insertSorted s.poison a else s.poison) ∧
      u.poison = (if err = .double ∨ err = .addrMismatch then insertSorted s.poison a else s.poison))

/-- A far-memory address maps to its channel and its data row by 256-byte granules; every aligned access of
32 bytes lies in one channel and row, and the addresses from 384 KiB × r to 384 KiB × (r + 1) hold data row r
of every channel (R257). -/
def Obligations.FarAddressMap : Prop :=
  ∀ a : Nat, a < farSize →
    chanOf a = (a >>> 8) % 192 ∧
    rowOf a = (((a >>> 8) / 192) * 256 + (a &&& 0xFF)) >>> 11 ∧
    ((a >>> 8) / 192) * 256 + (a &&& 0xFF) < 15 * 2 ^ 30 ∧
    (∀ i, a % 32 = 0 → i < 32 → chanOf (a + i) = chanOf a ∧ rowOf (a + i) = rowOf a) ∧
    (∀ r, rowOf a = r ↔ 384 * 1024 * r ≤ a ∧ a < 384 * 1024 * (r + 1))

/-- A read of a cached far-memory line by a requester of the die (R253, R254): a miss fills a way that the
requester's mask allows with the line's bytes (R272); a line that is present stays and is touched; a poisoned
line is invalidated, counted, and read again from far memory. While the way to far memory is not ready a miss waits
(R27, R262).

A write that reaches a die's cache (R255): the writer's own line takes the bytes of memory; another die's
line is invalidated, and `NMEM_INVAL_CNT` counts it. -/
def Obligations.CacheFillsAndInvalidates : Prop :=
  (∀ (d : Die) (req : Fin 10) (addr : Addr) (s : State) (line set mask : Nat),
     addr.toNat < farSize → line = addr.toNat / 256 → s.cacheSets d ≠ 0 → s.cached addr.toNat = true →
     set = line % s.cacheSets d → mask = s.regF (Reg.NMEM_CACHE_WAYMASK d req) 15 0 → s.nocRuns d = true →
     (s.cacheWay d line = none → s.memPath d (256 * line) 256 = false →
       exec (.cacheFill d req addr) s = .next s) ∧
     (s.cacheWay d line = none → mask ≠ 0 → s.memPath d (256 * line) 256 = true →
       (∀ u ∈ unitsOf (256 * line) 256, s.poison.contains u = false) →
       ∃ (t : State) (w : Nat), exec (.cacheFill d req addr) s = .next t ∧ w < 16 ∧ bit mask w = true ∧
         SMap.get (fun _ => none) (t.die d).cache (16 * set + w) =
           some ⟨line, Memory.bytes s.mem (256 * line) 256, false⟩ ∧
         ∀ j, j ≠ 16 * set + w → SMap.get (fun _ => none) (t.die d).cache j =
           SMap.get (fun _ => none) (s.die d).cache j) ∧
     (∀ w l, s.cacheWay d line = some w →
       SMap.get (fun _ => none) (s.die d).cache (16 * set + w) = some l →
       (l.poison = false → exec (.cacheFill d req addr) s =
         .next ((s.touchWay d set w).count (54 + d) 0x200 req 1)) ∧
       (l.poison = true → s.memPath d (256 * line) 256 = true → exec (.cacheFill d req addr) s =
         .next (((s.setWay d set w none).inc (Reg.NMEM_UE_CNT d) 1).fillLine d req line)))) ∧
  (∀ (d : Die) (addr : Addr) (s : State) (line set w : Nat), addr.toNat < farSize →
     line = addr.toNat / 256 → set = line % s.cacheSets d → s.cacheWay d line = some w →
     exec (.cacheInvalidate d addr true) s =
       .next (s.setWay d set w (some ⟨line, Memory.bytes s.mem (256 * line) 256, false⟩)) ∧
     ∃ t : State, exec (.cacheInvalidate d addr false) s = .next t ∧
       SMap.get (fun _ => none) (t.die d).cache (16 * set + w) = none ∧
       t.reg (Reg.NMEM_INVAL_CNT d) = satAdd (s.reg (Reg.NMEM_INVAL_CNT d)) 1 ∧ t.mem = s.mem)

/-- A cycle of an arbitration point that can accept a request (R267): the grant goes to a requester that presents, its
count starts again and it is the last one granted; every other point is as before. A channel whose queue of 64 is full
accepts none (R269). A backoff that ends lets its requester
present again, capped when it served the longest one. -/
def Obligations.ArbitrationGrants : Prop :=
  ∀ (p : ArbPoint) (s : State),
    (s.arbAccepts p = false → ∀ want, exec (.arbGrant p want) s = .next s) ∧
    (∀ (want : BitVec 22) (w : Nat) (capped : Bool), s.arbAccepts p = true →
      (s.arb p).winner (arbSize p) want = some (w, capped) →
      ∃ t : State, exec (.arbGrant p want) s = .next t ∧
        w ∈ (s.arb p).presenting (arbSize p) want ∧
        t.arb p = (s.arb p).grant (arbSize p) want w capped ∧
        (t.arb p).req w = ArbReq.reset ∧ (t.arb p).last = w ∧
        (∀ q, q ≠ p.val → t.arb q = s.arb q) ∧ t.mem = s.mem) ∧
    (∀ req : Fin 22, ((s.arb p).req req).count ≠ 0 → req.val < arbSize p →
      exec (.arbBackoffExpire p req) s = .next (s.setArb p ((s.arb p).setReq req
        { (s.arb p).req req with
          count := 0, capped := ((s.arb p).req req).capped || ((s.arb p).req req).count == 256 })))

/-- Start-up training of a package (R261, R262): a channel that is down or training becomes ready when its
attempt succeeds, with zeros in every byte of it and no poison, and trains again when its first attempt fails.

Maintenance of a ready channel: a drift above one eighth of a unit interval retrains it, a failed retrain
is tried once more, and a second failure fails the channel (R262). Of one that is out of self-refresh, its PHY
out of reset, a refresh is issued at once while the bank is idle, postponed while it is busy, and forced at the
ninth outstanding one (R260); ZQ latches and refresh-management commands are issued (R259). In self-refresh its
controller issues none of them; while it trains, all banks are refreshed together. -/
def Obligations.FarMemoryIsKept : Prop :=
  (∀ (pkg : Fin 48) (fail : BitVec 4) (s : State),
     (∀ i, i < 4 → s.chanState (4 * pkg.val + i) < 2 ∧ (s.chan (4 * pkg.val + i)).attempts = 0) →
     (s.island (60 + edgeOfChan (4 * pkg.val))).ready = true →
     (∀ i, i < 4 → s.keptInReset (80 + (4 * pkg.val + i)) = false) →
     ∃ t : State, exec (.fmemTrain pkg fail) s = .next t ∧
       (∀ i, i < 4 → t.chanState (4 * pkg.val + i) = (if fail.getLsbD i then 1 else 2) ∧
         (t.chan (4 * pkg.val + i)).attempts = 1 ∧
         (fail.getLsbD i = false → (t.island (80 + (4 * pkg.val + i))).ready = true)) ∧
       (∀ c, c / 4 ≠ pkg.val → t.chan c = s.chan c) ∧
       (∀ a, a < farSize → chanOf a / 4 = pkg.val → fail.getLsbD (chanOf a % 4) = false →
         t.mem.byte a = 0 ∧ a ∉ t.poison) ∧
       (∀ a, (farSize ≤ a ∨ chanOf a / 4 ≠ pkg.val ∨ fail.getLsbD (chanOf a % 4) = true) →
         t.mem.byte a = s.mem.byte a ∧ (a ∈ t.poison ↔ a ∈ s.poison))) ∧
  (∀ (ch : Chan) (s : State), s.chanState ch = 2 →
     (∀ (drift : BitVec 8) (ok1 ok2 : Bool),
       (drift.toNat ≤ 8 → exec (.fmemDriftCheck ch drift ok1 ok2) s = .next s) ∧
       (8 < drift.toNat → exec (.fmemDriftCheck ch drift ok1 ok2) s = .next
         (if ok1 then s.countRetrain ch
          else if ok2 then (s.countRetrain ch).countRetrain ch
          else ((s.countRetrain ch).countRetrain ch).failChan ch)))) ∧
  (∀ (ch : Chan) (s : State), s.chanActive ch = true →
     (∀ (bank : Fin 16) (busy : Bool) (due : Nat), due = SMap.get (fun _ => 0) (s.chan ch).refreshDue bank →
       ∃ t : State, exec (.fmemRefresh ch bank busy) s = .next t ∧
         SMap.get (fun _ => 0) (t.chan ch).refreshDue bank = (if busy then min (due + 1) 8 else 0) ∧
         (t.chan ch).refreshes = (s.chan ch).refreshes + (if busy then due + 1 - 8 else due + 1) ∧
         t.mem = s.mem) ∧
     exec (.fmemZqLatch ch) s =
       .next (s.setChan ch { s.chan ch with zqLatches := (s.chan ch).zqLatches + 1 }) ∧
     exec (.refreshManagementRequest ch) s =
       .next (s.setChan ch { s.chan ch with rfm := (s.chan ch).rfm + 1 })) ∧
  (∀ (ch : Chan) (bank : Fin 16) (busy : Bool) (s : State),
     (s.chanState ch = 1 → ∃ t : State, exec (.fmemRefresh ch bank busy) s = .next t ∧
       (t.chan ch).allBank = (s.chan ch).allBank + 1 ∧ (t.chan ch).refreshDue = [] ∧ t.mem = s.mem) ∧
     (s.chanActive ch = false → s.chanState ch ≠ 1 → exec (.fmemRefresh ch bank busy) s = .next s) ∧
     (s.chanActive ch = false → exec (.fmemZqLatch ch) s = .next s ∧
       exec (.refreshManagementRequest ch) s = .next s))

/-- Page retirement (R265): the oldest row that waits moves to the next spare, its count starts again, and
one spare fewer is free; with none free, `FMEM_RETIRE_FULL_CNT` counts it and the row stays in use. That the count of
a row starts again in both cases is the model's choice (log entry 160).

A poisoned burst is rebuilt (R396): for a burst of committed state the row's bytes are read from the twin's copy, each
granule of the row once; a burst of a working copy is written again from its group's current bank; a burst that is
not poisoned is left alone. -/
def Obligations.BadRowsAndBursts : Prop :=
  (∀ (ch : Chan) (s : State) (row : Nat) (rest : List Nat), (s.chan ch).retireQ = row :: rest →
     ∃ t : State, exec (.rowRetire ch) s = .next t ∧ (t.chan ch).retireQ = rest ∧
       SMap.get (fun _ => 0) (t.chan ch).ceRow row = 0 ∧ t.mem = s.mem ∧
       (s.regF (chanReg ch) 26 16 ≠ 0 →
         (row, (s.chan ch).spareUsed) ∈ (t.chan ch).remap ∧
         (t.chan ch).spareUsed = (s.chan ch).spareUsed + 1) ∧
       (s.regF (chanReg ch) 26 16 = 0 →
         t.reg (Reg.FMEM_RETIRE_FULL_CNT (edgeOfChan ch)) =
           satAdd (s.reg (Reg.FMEM_RETIRE_FULL_CNT (edgeOfChan ch))) 1 ∧
         (t.chan ch).remap = (s.chan ch).remap ∧ (t.chan ch).spareUsed = (s.chan ch).spareUsed)) ∧
  (∀ (addr : Addr) (s : State) (a : Nat), a = addr.toNat / 32 * 32 → a < farSize →
     (s.poison.contains a = false → exec (.burstReconstruct addr) s = .next s) ∧
     (s.poison.contains a = true → s.committedAt a = true → s.alone = false →
       (∀ g ∈ s.rowAsk a, rowOf g = rowOf a ∧ chanOf g = chanOf a ∧ (s.twinAddr g).isSome = true) ∧
       exec (.burstReconstruct addr) s = .next ((s.rowAsk a).foldl (fun x g => match x.twinAddr g with
         | some y => x.sendRead (edgeOfChan (chanOf a)) x.twin y 256 (.reconstruct g)
         | none => x)
         (if s.recWindows.any fun w => w.cls == 7 && w.obj.toNat == chanOf a then s
          else s.openWindow 7 (polderOfHalf (halfOfChan (chanOf a))) (chanOf a)))) ∧
     (s.poison.contains a = true → (s.committedAt a && !s.alone) = false →
       ∀ u, s.copyAt a = some u → exec (.burstReconstruct addr) s = .next (s.rewriteGroup u s.committed)))

/-! ### The update engines -/

/-- The update of one slot by adaptive moments with decoupled decay (rule 0, R291) and by momentum, with and
without the Nesterov form (rule 1, R292), in FP32 with every step rounded: the new W, m and v. -/
def Obligations.AdaptiveMomentsAndMomentum : Prop :=
  ∀ (u : UGroup) (c : Coefs) (g w m v keep : Word), keep = fsub one32 (fmul c.eta u.lambda) →
    (u.rule = 0 → ∀ m' v' d : Word,
      m' = fadd (fmul u.b1 m) (fmul (fsub one32 u.b1) g) →
      v' = fadd (fmul u.b2 v) (fmul (fmul (fsub one32 u.b2) g) g) →
      d = fdiv (fdiv m' c.bc1) (fadd (fsqrt (fdiv v' c.bc2)) u.eps) →
      updateSlot u c g w m v = (fsub (fmul w keep) (fmul c.eta d), m', v')) ∧
    (u.rule = 1 → ∀ m' d : Word,
      m' = fadd (fmul u.b1 m) g →
      d = (if u.nesterov then fadd g (fmul u.b1 m') else m') →
      updateSlot u c g w m v = (fsub (fmul w keep) (fmul c.eta d), m', v))

/-- Pass 1 takes the oldest chunk of the engine's intake (R286): a chunk of the engine's own sub-shard that it
has not had yet is parked and summed; the end marker ends pass 1 (that of a dense group too is the model's reading,
log entry 94); any other chunk is dropped (R307). A poisoned word that the pass reads withholds it (R392, R396).

Pass 1 of an embedding group takes the oldest row record (R296): a row of the engine's own range that is
new in the step is parked with its index, counted and summed; the end record ends pass 1; any other record
is dropped (R307). -/
def Obligations.Pass1TakesGradients : Prop :=
  (∀ (e : Half) (s t : State) (c : Chunk) (l : List Chunk) (u : UGroup) (r : GrpRun) (lo j : Nat)
     (need : List (Nat × Nat)),
     (s.engine e).inQ = c :: l → s.ugroup c.group = some u → u.kind ≠ 1 → s.groupReach e u = true →
     t = s.setEngine e { s.engine e with inQ := l } →
     r = (s.run? e u.group c.step.toNat).getD (GrpRun.fresh c.step.toNat) → lo = (u.range e).1 + c.off →
     j = s.curRec u (c.step.toNat - 1) →
     need = (u.recAt j, 32) :: (if u.rule = 3 then u.stateRanges j lo c.vals.length else []) →
     (c.last = true → exec (.updChunk e) s =
       .next (if r.normSent then t else t.endPass1 u e c.step.toNat r)) ∧
     (c.last = false → e.val ∈ enginesOf u.engines → c.off % 2048 = 0 → lo + c.vals.length ≤ (u.range e).2 →
       r.normSent = false → lo / 2048 ∉ r.covered →
       (s.poisonIn need = none →
         exec (.updChunk e) s = .next ((t.readRanges need).passChunk u e c.step.toNat c r)) ∧
       (∀ a, s.poisonIn need = some a → exec (.updChunk e) s = .next (s.stateBad u.group a))) ∧
     (c.last = false → (e.val ∉ enginesOf u.engines ∨ c.off % 2048 ≠ 0 ∨ (u.range e).2 < lo + c.vals.length ∨
         r.normSent = true ∨ lo / 2048 ∈ r.covered) →
       exec (.updChunk e) s = .next (t.dropChunk e u.group))) ∧
  (∀ (e : Half) (s t : State) (c : Chunk) (l : List Chunk) (u : UGroup) (r : GrpRun),
     (s.engine e).inQ = c :: l → s.ugroup c.group = some u → u.kind = 1 → s.groupReach e u = true →
     s.poisonIn [(u.recAt (s.curRec u (c.step.toNat - 1)), 32)] = none →
         t = s.setEngine e { s.engine e with inQ := l } →
     r = (s.run? e u.group c.step.toNat).getD (GrpRun.fresh c.step.toNat) →
     (c.last = true → exec (.updRowRecord e) s =
       .next (if r.normSent then t else t.endPass1 u e c.step.toNat r)) ∧
     (c.last = false → e.val ∈ enginesOf u.engines → (u.range e).1 ≤ c.off → c.off < (u.range e).2 →
       r.normSent = false → s.rowsTaken u c.step.toNat < u.maxRows →
       (∀ p ∈ r.rows, p.1 ≠ c.off) →
       ∃ x : State, exec (.updRowRecord e) s = .next x ∧
         x.mem = Memory.write s.mem (u.parkRow (s.rowsTaken u c.step.toNat))
           (leBytes 4 c.off ++ leBytes 4 0 ++ wordBytes c.vals) ∧
         (x.engine e).inQ = l ∧
         SMap.get (fun _ => none) (x.engine e).groups (2 * u.group + c.step.toNat % 2) =
           some { r with rows := r.rows ++ [(c.off, s.rowsTaken u c.step.toNat)],
                         sqg := (pairAdd r.sqg (sumSq c.vals)).1,
                         nonfin := r.nonfin || c.vals.any nonfin }) ∧
     (c.last = false → (e.val ∉ enginesOf u.engines ∨ c.off < (u.range e).1 ∨ (u.range e).2 ≤ c.off ∨
         r.normSent = true ∨ u.maxRows ≤ s.rowsTaken u c.step.toNat ∨ (∃ p ∈ r.rows, p.1 = c.off)) →
       exec (.updRowRecord e) s = .next (t.dropChunk e u.group)))

/-- Pass 2 of a group starts on an engine when its norm result is in and the previous step is committed
(R289): the whole sub-shard is updated, `UPD_STEP` shows the step. Its count t is one more than `T` of the record
that is current then, unless step-count skew has set it (R290, R298). While a word that it reads is poisoned it
waits for the state to be rebuilt, or the step fails.

A norm result reaches the engine (R287, R288): a combined `NONFIN` skips the group's pass 2, counts
`UPD_NONFIN_SKIP_CNT` and writes no byte of the group; any other result gives the clip coefficient and the
step count, which advances by one where the members agree on it. Either counts a mask rebuild that is late (R305). -/
def Obligations.Pass2Starts : Prop :=
  (∀ (e : Half) (g : Fin 4096) (s : State) (u : UGroup) (r : GrpRun) (a : Norm),
     s.ugroup g = some u → s.startable e g = some r → r.norm = some a → s.groupReach e u = true →
     (s.poisonIn (s.passReads u e r.step.toNat r ++ u.parkRanges e r) = none →
       ∀ (q : GrpRun) (t : State), q = { r with t := s.runT u r.step.toNat r a } →
       t = ((s.readRanges (s.passReads u e r.step.toNat r ++ u.parkRanges e r)).setRun e g r.step.toNat
         { q with pass2 := true }).setReg (updReg Reg.UPD_STEP e) r.step →
       exec (.pass2Start e g) s = .next
         ((if u.kind = 1 then t.passRows u e r.step.toNat q a
           else t.passDense u e r.step.toNat q a).switched u e q)) ∧
     (∀ x, s.poisonIn (s.passReads u e r.step.toNat r ++ u.parkRanges e r) = some x →
       exec (.pass2Start e g) s = .next (s.stateBad g x))) ∧
  (∀ (e : Half) (s : State) (step g : Nat) (a : Norm) (l : List (Nat × Nat × Norm)) (u : UGroup) (r : GrpRun),
     s.engineRuns e = true → (s.engine e).normQ = (step, g, a) :: l → s.ugroup g = some u →
     s.run? e g step = some r →
     (∀ b, u.kind = 2 → a.ready = false → (s.engine e).rebuild = some b → b.group = u.group →
       ∃ t : State, exec (.normResult e) s = .next t ∧
         t.reg (updReg Reg.UPD_RECOMP_LATE_CNT e) = satAdd (s.reg (updReg Reg.UPD_RECOMP_LATE_CNT e)) 1) ∧
     (a.nonfin = true → ∃ t : State, exec (.normResult e) s = .next t ∧ (t.engine e).normQ = l ∧
       t.run? e g step = some { r with norm := some a, skipped := true } ∧
       t.reg (updReg Reg.UPD_NONFIN_SKIP_CNT e) = satAdd (s.reg (updReg Reg.UPD_NONFIN_SKIP_CNT e)) 1 ∧
       t.mem = s.mem) ∧
     (a.nonfin = false → a.tMin = a.tMax → ∃ (t : State) (x : GrpRun),
       exec (.normResult e) s = .next t ∧ (t.engine e).normQ = l ∧ t.run? e g step = some x ∧
       x.norm = some a ∧ x.clip = u.clipCoef a ∧ x.t = s.recT u (s.curRec u (step - 1)) + 1 ∧
       x.skipped = r.skipped ∧ x.rows = r.rows ∧ t.mem = s.mem))

/-- A step commits when it may, and `GLB_STEP_NUM` then holds the number of the committed step, one more than
before (R33, R37, R300); while it may not, nothing changes. Memory changes only by result copies and collectives of
the step after it that waited for this commit (R34, R371).

A group is local-done on an engine once its pass 2 has been written (R300): `UPD_GRP_DONE_CNT` counts it,
the event is logged (R32), and the last engine of the group starts the group's all-gather.

When every group of the next step is complete and acknowledged, engine 0 writes the commit record, with
`MAGIC` `0x434D_5431` and the step (R300); it waits for the twin exactly where the record is mirrored to a
module in sync.

After a step failed to commit, the controller resumes from the last committed step (R35, R302): the work of
later steps is gone, and `FLT_REPLAY_STEP_CNT` counts it. -/
def Obligations.StepsCommitInOrder : Prop :=
  (∀ s : State,
     (s.committable = true → s.committed + 1 < 2 ^ 32 →
       ∃ t : State, exec .stepCommit s = .next t ∧ t.committed = s.committed + 1 ∧
         t.ctl.record = none ∧ (s.copiesTaken = true → s.ctl.step ≤ s.ctl.collStep →
           t.mem = s.mem ∧ t.poison = s.poison)) ∧
     (s.committable = false → exec .stepCommit s = .next s)) ∧
  (∀ (e : Half) (g : Fin 4096) (s : State) (u : UGroup) (r : GrpRun),
     s.engineRuns e = true → s.ugroup g = some u →
     (([s.committed, s.committed + 1].filterMap (s.run? e g)).find? fun x => x.pass2 && !x.localDone) =
       some r →
     (s.rowsCross u = false ∨ s.allPassed u r.step.toNat = true) →
     ∃ t : State, t.run? e g r.step.toNat = some { r with localDone := true } ∧
       t.reg (updReg Reg.UPD_GRP_DONE_CNT e) = satAdd (s.reg (updReg Reg.UPD_GRP_DONE_CNT e)) 1 ∧
       (∃ x ev, t.log = x ++ [ev] ∧ ev.name = BitVec.ofNat 16 evPass2 ∧ ev.arg = BitVec.ofNat 32 g.val) ∧
       t.mem = s.mem ∧
       exec (.groupLocalDone e g) s = .next
         (if (enginesOf u.engines).all fun n => match t.run? n g r.step.toNat with
             | some x => x.localDone
             | none => false
          then t.gatherGroup g r.step.toNat else t)) ∧
  (∀ (s : State) (p : Prog) (k : Nat), s.prog = some p → p.hasUpd = true → s.ctl.record = none →
     s.engineRuns 0 = true → s.memPath 6 p.commit 64 = true →
     k = s.committed + 1 → s.stepOver k = true → s.groupsDone k = true → s.allMirrored k = true →
     s.ctl.failed = false →
     ∃ (t : State) (wait : Bool), exec .commitRecordWrite s = .next t ∧
       t.mem = Memory.write s.mem p.commit
         (leBytes 4 0x434D5431 ++ leBytes 4 k ++ List.replicate 56 0) ∧
       wait = (s.mirroring && (s.mirrorOff p.commit).isSome && (!s.alone || s.resyncAcked)) ∧
       t.ctl = { s.ctl with record := some (k, s.now, !wait) } ∧ t.committed = s.committed) ∧
  (∀ s : State, s.ctl.failed = true → s.mode = 3 → s.committed < s.ctl.begun →
     (∀ f ∈ s.txFlows, f.2.lost = false) →
     exec .stepResume s = .next (s.resumeWork.inc Reg.FLT_REPLAY_STEP_CNT 1))

/-- A request for a mask rebuild (R303) is answered in `UPD_RECOMP_STAT` with the group: busy (3) while a
rebuild is there; not the group's rebuild engine (4); the bitmap outside a far-memory allocation (5); else the
rebuild begins from the committed generation (1).

The rebuild engine builds the masks and the slot map (R304) unless `RECOMP_SHARE` is 0, and reports ready
(`UPD_RECOMP_STAT` 2, with the group) once they are built and the twin has what was mirrored. -/
def Obligations.MasksAreRebuilt : Prop :=
  (∀ (a : Accessor) (e : Half) (v : Word) (s : State) (g : Nat) (answer : Nat → State), g = v.toNat % 4096 →
     (∀ n, answer n = s.setReg (updReg Reg.UPD_RECOMP_STAT e) (BitVec.ofNat 32 (n * 2 ^ 28 + g))) →
     ((s.engine e).rebuild.isSome = true → exec (.updRecompReq a e v) s = .next (answer 3)) ∧
     ((s.engine e).rebuild = none →
       (s.ugroup g = none → exec (.updRecompReq a e v) s = .next (answer 4)) ∧
       (∀ u, s.ugroup g = some u → (u.kind ≠ 2 ∨ at0 (enginesOf u.engines) 0 ≠ e) →
         exec (.updRecompReq a e v) s = .next (answer 4)) ∧
       (∀ u d base, s.ugroup g = some u → u.kind = 2 → at0 (enginesOf u.engines) 0 = e →
         s.descOf u.wdesc = some d →
         base = s.reg48 (updReg Reg.UPD_RECOMP_MASK_LO e) (updReg Reg.UPD_RECOMP_MASK_HI e) →
         (s.inAlloc base d.bitmapBytes = none → exec (.updRecompReq a e v) s = .next (answer 5)) ∧
         (∀ i x, s.inAlloc base d.bitmapBytes = some (i, x) → x.near = true →
           exec (.updRecompReq a e v) s = .next (answer 5)) ∧
         (∀ i x, s.inAlloc base d.bitmapBytes = some (i, x) → x.near = false →
           exec (.updRecompReq a e v) s = .next ((answer 1).setEngine e { s.engine e with
             rebuild := some ⟨g, base, s.recGen u (s.curRec u s.committed), false, false, 0⟩ }))))) ∧
  (∀ (e : Half) (s : State) (b : Rebuild), (s.engine e).rebuild = some b →
     (∀ u d n m, b.built = false → s.regF (updReg Reg.UPD_CTL e) 11 8 ≠ 0 → s.ugroup b.group = some u →
       s.descOf u.wdesc = some d → d.cfmt = .tnm n m → s.groupReach e u = true →
       s.memPath (6 + e.val / 2) b.base d.bitmapBytes = true →
       ∃ (t : State) (x : Rebuild), exec (.recompRebuild e) s = .next t ∧
         (t.engine e).rebuild = some x ∧ x.built = true ∧ x.group = b.group ∧ x.gen = b.gen ∧
         x.base = b.base) ∧
     (s.regF (updReg Reg.UPD_CTL e) 11 8 = 0 → exec (.recompRebuild e) s = .next s) ∧
     (b.built = true → s.flowAcked e b.mark = true →
       exec (.recompReady e) s = .next
         ((s.setEngine e { s.engine e with rebuild := some { b with ready := true } }).setReg
           (updReg Reg.UPD_RECOMP_STAT e) (BitVec.ofNat 32 (2 * 2 ^ 28 + b.group)))) ∧
     ((b.built = false ∨ s.flowAcked e b.mark = false) → exec (.recompReady e) s = .next s))

/-! ### The fabric -/

/-- A port trains (R318): a step of a port that is down makes it training and counts an attempt in `CLV_TRAIN`
(R345), as a time-out does; a step of a training one goes on; with the first its receivers run, and the third needs
the four lanes aligned by markers of equal count (R316), each with its own lane number; a time-out starts from the
first step; the partner's hello brings up a port that has sent its own, with the partner's node ID in `CLV_PORT_STAT`,
and is answered by one that is up.

A fence (R342, R344): a port in any other state leaves the routes, and sends the fence notice where its lanes
carry one; `UNFENCE` starts it again from the hello, with the violations forgotten, or lets one whose lanes have
not trained go on with that; on a port that is not fenced it does nothing. A notice from the partner has no
effect of its own.

The marker codeword (R316): lane number, count and node ID stand where its layout puts them. -/
def Obligations.PortsTrainAndFence : Prop :=
  (∀ (p : Port) (s : State),
     (∀ (marks : List (BitVec 5140)) (n : Nat), (s.linkState p = 0 ∨ s.linkState p = 1) →
       s.keptInReset (62 + p) = false →
       n = (if s.linkState p = 0 then min (s.regF (portReg p 0x60) 7 0 + 1) 255 else s.regF (portReg p 0x60) 7 0) →
       ((s.link p).trainStep < 2 → ∃ t : State, exec (.portTrain ⟨p, marks⟩) s = .next t ∧ t.linkState p = 1 ∧
         t.regF (portReg p 0x60) 7 0 = n ∧ (t.link p).trainStep = (s.link p).trainStep + 1 ∧
         ((s.link p).trainStep = 0 → (t.island (62 + p)).ready = true)) ∧
       ((s.link p).trainStep = 2 →
         (∀ m, aligned marks = some m → ∃ t : State, exec (.portTrain ⟨p, marks⟩) s = .next t ∧
           t.linkState p = 1 ∧ t.regF (portReg p 0x60) 7 0 = n ∧ (t.link p).trainStep = 3 ∧
           (t.link p).marker = some m) ∧
         (aligned marks = none → ∃ t : State, exec (.portTrain ⟨p, marks⟩) s = .next t ∧
           t.linkState p = 1 ∧ t.regF (portReg p 0x60) 7 0 = n ∧ (t.link p).trainStep = 2))) ∧
     (s.linkState p = 1 → ∃ t : State, exec (.portTrainTimeout p) s = .next t ∧ t.linkState p = 1 ∧
       t.regF (portReg p 0x60) 7 0 = min (s.regF (portReg p 0x60) 7 0 + 1) 255 ∧
       (t.link p).trainStep = 0 ∧ (t.link p).rx = [] ∧ ∀ q, q ≠ p.val → t.link q = s.link q) ∧
     (∀ q t credits, s.takeRx p 0x40 = some (q, t) → q.ops 0 0 = 0 →
       credits = ((List.range 4).map fun v => q.ops (5 + 2 * v) (4 + 2 * v)) →
       t.linkState p = 1 → (t.link p).trainStep = 3 →
       exec (.linkCtlHello p) s =
         .next (((t.setRegF (portReg p 0) 15 0 (q.ops 3 2)).linkUp p credits).twinPartner p (q.ops 3 2)) ∧
       (t.isTwinPort p = false → ∀ u, exec (.linkCtlHello p) s = .next u → u.linkState p = 2)) ∧
     (∀ q t credits, s.takeRx p 0x40 = some (q, t) → q.ops 0 0 = 0 →
       credits = ((List.range 4).map fun v => q.ops (5 + 2 * v) (4 + 2 * v)) → t.linkState p = 2 →
       exec (.linkCtlHello p) s =
         .next ((((t.setRegF (portReg p 0) 15 0 (q.ops 3 2)).linkUp p credits).sendCtl p 0).twinPartner p
           (q.ops 3 2)))) ∧
  (∀ (p : Port) (s : State),
     (s.linkState p ≠ 3 → exec (.fence p) s = .next
       (((if s.lanesUp p then s.sendCtl p 3 else s).setLinkState p 3).portLost p)) ∧
     (s.linkState p = 3 → exec (.fence p) s = .next s) ∧
     (s.linkState p = 3 → s.lanesUp p = true → ∃ t : State, exec (.unfence p) s = .next t ∧
       t.linkState p = 1 ∧ (t.link p).trainStep = 3 ∧ (t.link p).viol = [] ∧ (t.link p).rx = []) ∧
     (s.linkState p = 3 → s.lanesUp p = false → exec (.unfence p) s = .next
       (s.setLinkState p (if (s.link p).trainStep = 0 then 0 else 1))) ∧
     (s.linkState p ≠ 3 → exec (.unfence p) s = .next s) ∧
     (∀ q t, s.takeRx p 0x40 = some (q, t) → q.ops 0 0 = 3 → exec (.linkCtlFenceNotice p) s = .next t)) ∧
  (∀ (lane : Nat) (count : BitVec 32) (id : BitVec 16) (m : BitVec 5140), lane < 8 →
     m = markerWord lane count id.toNat →
     markerLane m = lane ∧ markerCount m = count ∧ markerId m = id.toNat ∧ isMarker lane m = true ∧
       ∀ i, 51 ≤ i → m.getLsbD i = false)

/-- Lane repair (R319): the first failed lane of an up port, or of a fenced one whose lanes have trained, is reported
to the partner with a swap request, and its data moves to the spare once the swap is complete; a second failed lane, a
spare that does not train and silence take the port down. The partner's request and its end stop and restart this
port's own sending. -/
def Obligations.LanesAreSwapped : Prop :=
  ∀ (p : Port) (s : State),
    (∀ lane : Fin 5, (s.linkState p = 2 ∨ s.linkState p = 3) → s.lanesUp p = true →
        lane.val ≠ s.regF (portReg p 0) 23 21 →
      ((s.link p).deadLanes = [] →
        ∃ t : State, exec (.laneFail p lane) s = .next t ∧ (t.link p).swapping = some lane.val ∧
          (t.link p).deadLanes = [lane.val] ∧ t.mem = s.mem) ∧
      (∀ x, (s.link p).deadLanes = [x] → x ≠ lane.val →
        exec (.laneFail p lane) s = .next (s.portDown p))) ∧
    (∀ lane, (s.link p).swapping = some lane → exec (.laneSwapComplete p) s =
      .next ((((((s.setRegF (portReg p 0) 23 21 lane).setLink p
        { s.link p with swapping := none }).wantRetry p).sendCtl p 2).swapDone p).closeWindow 4 p)) ∧
    ((s.link p).swapping.isSome = true ∨ (s.link p).txSwap = true →
      exec (.spareLaneTrainTimeout p) s = .next (s.portDown p)) ∧
    (s.linkState p = 2 ∨ (s.linkState p = 3 ∧ s.lanesUp p = true) →
      exec (.linkSilence p) s = .next (s.portDown p)) ∧
    (s.linkState p = 3 → s.lanesUp p = false → exec (.linkSilence p) s = .next s) ∧
    (s.linkState p = 1 → exec (.linkSilence p) s = .next (s.linkDown p)) ∧
    (∀ q t, s.takeRx p 0x40 = some (q, t) →
      (q.ops 0 0 = 1 → ∃ u : State, exec (.linkCtlSwapRequest p) s = .next u ∧ (u.link p).txSwap = true ∧
        u.mem = s.mem) ∧
      (q.ops 0 0 = 2 → (t.link p).txSwap = true → exec (.linkCtlSwapDone p) s =
        .next (((t.setLink p { t.link p with txSwap := false }).swapDone p).pump p)))

/-- Flits and credits (R320, R321, R325, R345): a port whose lanes have trained and whose receivers run takes the
packets of a good flit in order, and what waits to be acknowledged or asked for goes out; a flit with an
uncorrectable codeword or a wrong CRC delivers nothing and asks for a retry; another port receives nothing. The
replay sends the retry buffer again, the same content under the same numbers, with trailers of now, but on no port
from `DUMPING` on (R402); credits owed go back in one `CREDIT`; returned credits are held up to what the partner
granted, and more than that is a violation. -/
def Obligations.FlitsAndCredits : Prop :=
  ∀ (p : Port) (s : State),
    (∀ (bytes : List Byte) (fec : FecResult) (r : List (Pkt × Bool) × Bool × State),
      r = s.rxFlit p bytes fec →
      (s.linkState p ≠ 0 → s.lanesUp p = true → s.portListens p = true →
        (r.2.1 = true → exec (.flitReceive p bytes fec) s =
          .next ((r.1.foldl (fun s q => s.portPkt p q.1 q.2) r.2.2).pump p)) ∧
        (fec.uncorr = true → r.1 = [] ∧
          ∃ t : State, exec (.flitReceive p bytes fec) s = .next t ∧ (t.link p).rx = (s.link p).rx)) ∧
      (s.linkState p = 0 ∨ s.lanesUp p = false ∨ s.portListens p = false →
        exec (.flitReceive p bytes fec) s = .next s)) ∧
    (∀ l : Link, s.portsMute l = true → exec (.retryTimeout l) s = .next s) ∧
    (∀ l : Link, s.portsMute l = false → s.linkState l ≠ 0 → (s.link l).swapping = none → (s.link l).txSwap = false →
      (s.link l).replayFlits.map (fun f => (f.fseq, f.content, f.hdr)) =
        (s.link l).retryBuf.map (fun f => (f.fseq, f.content, f.hdr)) ∧
      (∀ f ∈ (s.link l).replayFlits, f.ackseq = (s.link l).ack) ∧
      ∃ t : State, exec (.retryTimeout l) s = .next t ∧
        (t.link l).wire = (s.link l).wire ++ (s.link l).replayFlits ∧
        (t.link l).retryBuf = (s.link l).retryBuf) ∧
    (∀ l : Link, s.linkState l = 2 → (∃ n ∈ (s.link l).owed, n ≠ 0) →
      ∃ t : State, exec (.creditReturn l) s = .next t ∧ (t.link l).owed = [0, 0, 0, 0] ∧
        (t.link l).granted = ((s.link l).granted.zip (s.link l).owed).map fun c => c.1 + c.2) ∧
    (∀ q t, s.takeRx p 1 = some (q, t) →
      exec (.credit p) s = .next (if (t.takeCredits p (q.ops 7 0)).1 then (t.takeCredits p (q.ops 7 0)).2
        else (t.takeCredits p (q.ops 7 0)).2.refusePkt p 2 q true))

/-- End-to-end flows (R326): an acknowledgement removes the packets up to its number from its flow; one for a
flow with nothing outstanding is a violation; a due acknowledgement is sent once; once `CLV_E2E_TMO` has passed
a time-out sends the flow again, up to eight times, and then loses it, and a step of the group that it served is
repeated (R390); that the loss of a mirror flow, or of the flow that a restore reads by, is the loss of the twin is
the model's reading (log entry 156); `NAK` `0x03` sends the flow again from the number it names. -/
def Obligations.FlowsAreAcknowledged : Prop :=
  ∀ (p : Port) (s : State),
    (∀ q t key, s.takeRx p 3 = some (q, t) → key = flowKey q.src (q.ops 0 0 % 4) (q.ops 0 0 / 4 % 4) →
      exec (.e2eAck p) s = .next (if (t.txFlow key).unacked.isEmpty then t.refusePkt p 4 q false
        else t.ackFlow (p.val / 8) key (q.ops 7 4))) ∧
    (∀ (f : FlowId) (key : Nat), key = flowKey f.peer.toNat f.vc.toNat f.flow.toNat →
      ((s.rxFlow key).unacked ≠ 0 → ∃ t : State, exec (.e2eAckDue f) s = .next t ∧
        t.rxFlow key = { s.rxFlow key with unacked := 0 } ∧ t.mem = s.mem) ∧
      (∀ q l, (s.txFlow key).unacked = q :: l →
        (s.now < (s.txFlow key).sentAt + (s.reg (Reg.CLV_E2E_TMO (flowEdge key))).toNat →
          exec (.e2eTimeout f) s = .next s) ∧
        ((s.txFlow key).sentAt + (s.reg (Reg.CLV_E2E_TMO (flowEdge key))).toNat ≤ s.now →
          (s.txFlow key).resends < 8 → exec (.e2eTimeout f) s =
          .next ((s.setTxFlow key { s.txFlow key with
            resends := (s.txFlow key).resends + 1, sentAt := s.now }).resend (flowEdge key) key q.eseq)) ∧
        ((s.txFlow key).sentAt + (s.reg (Reg.CLV_E2E_TMO (flowEdge key))).toNat ≤ s.now →
          8 ≤ (s.txFlow key).resends → ∃ t : State, exec (.e2eTimeout f) s = .next t ∧
          (t.txFlow key).lost = true ∧ (t.txFlow key).unacked = [] ∧
          ((s.hasTwin && f.peer.toNat == s.twin) = false →
            t.ctl.failed = (s.ctl.failed || decide (s.committed < s.ctl.begun))) ∧
          ((s.hasTwin && f.peer.toNat == s.twin) = true →
            f.vc = 2 ∨ f.vc = 0 ∧ s.restoresFrom f.peer.toNat = true →
            ∃ u : State, (u.txFlow key).lost = true ∧ u.ctl = s.ctl ∧ u.mem = s.mem ∧ t = u.loseTwin none)))) ∧
    (∀ q t, s.takeRx p 2 = some (q, t) → q.ops 0 0 = 3 → q.ops 1 1 ≠ 0 →
      exec (.nak p) s = .next (t.resend (p.val / 8)
        (flowKey q.src (q.ops 8 8 % 4) (q.ops 8 8 / 4 % 4)) (q.ops 12 9)))

/-- Fabric writes and reads of memory that can be reached (R262, R327, R343): a `WRITE` in its flow's order and within
a window stores its payload at its address and nothing else; a `READ` returns memory as it is now, in one response,
and changes none of it; outside the windows both are answered with `NAK` `0x07`, and while the range cannot be reached
they are held (R27). A response that answers a read of this module's completes it by its use; one that answers none is
a violation. -/
def Obligations.FabricReadsAndWrites : Prop :=
  ∀ (p : Port) (s t : State) (q : Pkt) (addr : Nat), addr = q.ops 5 0 →
    (s.takeRx p 0x10 = some (q, t) → (t.e2eAccept p q).1 = true →
      ((t.e2eAccept p q).2.permitted (p.val / 8) q.src addr q.len false = true →
          t.memPath (6 + p.val / 8) addr q.len = true →
        ∃ u : State, exec (.write p) s = .next u ∧ u.mem = Memory.write s.mem addr q.payload ∧
          (∀ j, j < addr ∨ addr + q.payload.length ≤ j → u.mem.byte j = s.mem.byte j)) ∧
      ((t.e2eAccept p q).2.permitted (p.val / 8) q.src addr q.len false = false →
        (t.permitted (p.val / 8) q.src addr q.len false = false ∨ t.memPath (6 + p.val / 8) addr q.len = true) →
        exec (.write p) s = .next ((t.e2eAccept p q).2.refusePkt p 7 q false)) ∧
      (t.permitted (p.val / 8) q.src addr q.len false = true → t.memPath (6 + p.val / 8) addr q.len = false →
        exec (.write p) s = .next s)) ∧
    (∀ n, s.takeRx p 0x11 = some (q, t) → (t.e2eAccept p q).1 = true → n = q.ops 7 6 → 4 ≤ n → n ≤ 8192 →
      n % 4 = 0 →
      ((t.e2eAccept p q).2.permitted (p.val / 8) q.src addr n true = true → t.memPath (6 + p.val / 8) addr n = true →
        s.badRange addr n = false →
        exec (.read p) s = .next (((t.e2eAccept p q).2.readRange addr n).e2eSend (p.val / 8) q.src 3
          (q.fld 11 10) 0x12 (q.ops 9 8 * 2 ^ 64) (Memory.bytes s.mem addr n))) ∧
      ((t.e2eAccept p q).2.permitted (p.val / 8) q.src addr n true = false →
        (t.permitted (p.val / 8) q.src addr n true = false ∨ t.memPath (6 + p.val / 8) addr n = true) →
        exec (.read p) s = .next ((t.e2eAccept p q).2.refusePkt p 7 q false)) ∧
      (t.permitted (p.val / 8) q.src addr n true = true → t.memPath (6 + p.val / 8) addr n = false →
        exec (.read p) s = .next s)) ∧
    (∀ u, s.takeRx p 0x12 = some (q, t) → t.e2eAccept p q = (true, u) →
      (∀ r, (u.reads.find? fun r => r.tag.toNat == q.ops 9 8 && r.node.toNat == q.src) = some r →
        q.len = r.bytes →
        (∀ a, r.use = .reconstruct a → exec (.readResp p) s =
          .next ({ u with reads := u.reads.erase r }.burstBack a r.bytes q.payload)) ∧
        (∀ a, r.use = .restore a → exec (.readResp p) s =
          .next ({ u with reads := u.reads.erase r }.restoreBack a q.payload)) ∧
        (r.use = .pairCheck → exec (.readResp p) s =
          .next ({ u with reads := u.reads.erase r }.pairBack q.payload))) ∧
      ((u.reads.find? fun r => r.tag.toNat == q.ops 9 8 && r.node.toNat == q.src) = none →
        exec (.readResp p) s = .next (u.refusePkt p 4 q false)))

/-- The mirror (R299, R395): a mirror write from the twin inside the mirror region stores its payload at its
offset there and nothing else, and a record is acknowledged; anything else is answered with `NAK` `0x07`. An
acknowledgement of a group's record or of the commit record ends its wait, and that of the commit record is the
cause of the commit (R32). A write whose channels do not serve is held (R262). The resynchronization copies a unit in
pieces of 8,192 bytes (R399).

A mirrored record, a commit record or a pair check that the twin leaves unanswered for longer than
`UPD_TWIN_TMO` loses the twin, also while a resynchronization copies (R301, R397). -/
def Obligations.MirrorAndTwin : Prop :=
  (∀ (s t u : State) (p : Port) (q : Pkt),
     (∀ base size, base = s.reg48 Reg.GLB_MIRROR_BASE_LO Reg.GLB_MIRROR_BASE_HI →
       size = s.reg48 Reg.GLB_MIRROR_SIZE_LO Reg.GLB_MIRROR_SIZE_HI →
       s.takeRx p 0x30 = some (q, t) → t.e2eAccept p q = (true, u) →
       (q.ops 5 0 + q.len ≤ size → s.memPath (6 + p.val / 8) (base + q.ops 5 0) q.len = false →
         exec (.mwr p) s = .next s) ∧
       (u.hasTwin = true → q.src = u.twin → q.ops 5 0 + q.len ≤ size →
         s.memPath (6 + p.val / 8) (base + q.ops 5 0) q.len = true →
         ∃ x : State, exec (.mwr p) s = .next x ∧
           x.mem = Memory.write s.mem (base + q.ops 5 0) q.payload ∧
           (∀ j, j < base + q.ops 5 0 ∨ base + q.ops 5 0 + q.payload.length ≤ j →
             x.mem.byte j = s.mem.byte j)) ∧
       ((u.hasTwin = false ∨ q.src ≠ u.twin ∨ size < q.ops 5 0 + q.len) →
         (size < q.ops 5 0 + q.len ∨ s.memPath (6 + p.val / 8) (base + q.ops 5 0) q.len = true) →
         exec (.mwr p) s = .next (u.refusePkt p 7 q false))) ∧
     (∀ e x, s.takeRx p 0x31 = some (q, t) → t.e2eAccept p q = (true, u) → q.ops 14 14 ≠ 1 →
       e = q.ops 6 6 % 4 →
       ((u.engine e).pend.find? fun x => x.1.toNat == q.ops 11 8 && x.2.1 == q.ops 13 12) = some x →
       exec (.mack p) s = .next ((u.setEngine e { u.engine e with
         pend := (u.engine e).pend.erase x }).count (60 + e / 2) 0x305 (e % 2) 1)) ∧
     (∀ k tm, s.takeRx p 0x31 = some (q, t) → t.e2eAccept p q = (true, u) → q.ops 14 14 = 1 →
       u.ctl.record = some (k, tm, false) → k = q.ops 11 8 → u.regF Reg.FLT_STAT 31 31 = 0 →
       ∃ x : State, exec (.mack p) s = .next x ∧ x.ctl = { u.ctl with
         record := some (k, tm, true), ackCause := some (u.nextEvent (linkIsland p)) }) ∧
     (∀ (e : Half) (r : Resync) (x : Half × Nat × Nat), s.resync = some r →
       (r.units.find? fun x => x.1 == e) = some x →
       (s.engineRuns e && s.memPath (6 + e.val / 2) x.2.1 x.2.2) = true →
       ∃ y : State, exec (.resyncUnitCopy e) s = .next y ∧
         (∃ marks, y.resync = some ⟨r.units.erase x, marks⟩) ∧ y.mem = s.mem)) ∧
  (∀ (e : Half) (s : State) (tmo : Nat), tmo = (s.reg (updReg Reg.UPD_TWIN_TMO e)).toNat → s.hasTwin = true →
     (s.mirroring = true → (∃ p ∈ (s.engine e).pend, p.2.2 + tmo < s.now) →
       exec (.twinLost e) s = .next (s.loseTwin none)) ∧
     (s.mirroring = true → e = 0 → (∃ k t, s.ctl.record = some (k, t, false) ∧ t + tmo < s.now) →
       exec (.twinLost e) s = .next (s.loseTwin none)) ∧
     (s.mirroring = false ∨ ((∀ p ∈ (s.engine e).pend, s.now ≤ p.2.2 + tmo) ∧
         ∀ k t, s.ctl.record = some (k, t, false) → s.now ≤ t + tmo) → e = 0 →
       (∃ r ∈ s.reads, r.use = ReadUse.pairCheck ∧ r.since + tmo < s.now) →
       exec (.twinLost e) s = .next
         (({ s with reads := s.reads.filter fun r => r.use != ReadUse.pairCheck }).loseTwin (some 1))))

/-- Collectives (R332 to R336): an accepted chunk of a reduce-scatter is added or staged, a chunk of an
all-gather is stored and passed on, a scalar of the norm all-reduce is combined or taken as the result, each
for the current step only; a chunk of an unknown ring or step is answered with `NAK` `0x08`. A staged partial is
added once the member's own contribution is ready. -/
def Obligations.CollectivesRun : Prop :=
  ∀ (p : Port) (s t u : State) (q : Pkt) (step chunk : Nat), step = q.ops 7 4 → chunk = q.ops 11 8 →
    (∀ R, s.engineRuns (halfOfRx p) = true → s.takeRx p 0x20 = some (q, t) → t.e2eAccept p q = (true, u) →
        u.ring (q.ops 1 0) = some R →
      R.coll.kind ≠ 2 → u.outOfStep step (u.gatherDone R step) = false → R.chunkOk chunk true = true →
      exec (.crs p) s = .next (if R.rows then u.takeRows (halfOfRx p) R step chunk q.payload
        else u.takePartial (halfOfRx p) R step chunk q.payload)) ∧
    (s.engineRuns (halfOfRx p) = true → s.takeRx p 0x20 = some (q, t) → t.e2eAccept p q = (true, u) →
        u.ring (q.ops 1 0) = none →
      exec (.crs p) s = .next (u.refusePkt p 8 q false)) ∧
    (∀ R, s.engineRuns (halfOfRx p) = true → s.takeRx p 0x21 = some (q, t) → t.e2eAccept p q = (true, u) →
        u.ring (q.ops 1 0) = some R →
      (R.coll.kind ≠ 0 ∨ step ≠ u.committed) → u.outOfStep step (u.gatherDone R step) = false →
      R.chunkOk chunk false = true →
      exec (.cag p) s = .next (u.gatherChunk (halfOfRx p) R step (chunk % R.d.shards) (chunk / R.d.shards)
        q.payload false)) ∧
    (∀ x g, s.engineRuns (halfOfRx p) = true → s.takeRx p 0x22 = some (q, t) → t.e2eAccept p q = (true, u) →
        u.ugroup (q.ops 1 0) = some x →
      u.sgroupOf x = some g → u.outOfStep step false = false →
      exec (.cscalar p) s = .next (if q.ops 8 8 = 0
        then (u.setNorm x step fun n => { n with arrived := some (Norm.ofBytes q.payload) }).normGo x g step
        else if g.pos + 2 = g.w then u.normOut x step (Norm.ofBytes q.payload)
        else (u.normOut x step (Norm.ofBytes q.payload)).sendNorm x g step 1 (Norm.ofBytes q.payload))) ∧
    (∀ (e : Half) x R, s.engineRuns e = true →
      (s.staged.find? fun x => x.half == e.val && x.whole && s.contribReady x.step &&
        s.memPath (6 + e.val / 2) x.addr 1) = some x →
      ({ s with staged := s.staged.erase x } : State).ring x.coll = some R → R.rows = true →
      exec (.stagedPartialAdd e) s = .next (({ s with staged := s.staged.erase x } : State).addRows e R x.step
        (x.chunk % R.d.shards) x.rows)) ∧
    (∀ (e : Half) x R y w, s.engineRuns e = true →
      (s.staged.find? fun x => x.half == e.val && x.whole && s.contribReady x.step &&
        s.memPath (6 + e.val / 2) x.addr 1) = some x → y = ({ s with staged := s.staged.erase x } : State) →
            y.ring x.coll = some R →
      R.rows = false → w = (if R.sg.bf16 then 2 else 4) →
      (∀ i, i < x.count → s.rd.anyBad (x.addr + w * i) w = false) →
      exec (.stagedPartialAdd e) s = .next ((y.readRange x.addr (w * x.count)).hopAdd e R x.step (x.chunk % R.d.shards) (x.chunk / R.d.shards)
        (unwire R.sg.bf16 x.count (Memory.bytes s.mem x.addr (w * x.count)))))

/-! ### The host link -/

/-- Host lanes (R348, R350, R353, R378): a lane that is not up comes up with its partner's credits once it is
aligned to the adapter's marker, and not before; silence and a
failed lane take an up lane down and into training, since there is no spare lane; a time-out of the training
is one more attempt. Of an up lane's flit the packets are taken in order, credits come back up to what the
adapter granted, and a `NAK` asks for nothing. -/
def Obligations.HostLanesTrain : Prop :=
  ∀ (l : Lane) (s : State),
    (∀ (mark : BitVec 5140) (credits : BitVec 64), s.linkState (16 + l) ≠ 2 → s.keptInReset (78 + l) = false →
      hostAligned l mark = false →
      ∃ t : State, exec (.hostLaneTrain l ⟨mark, credits⟩) s = .next t ∧ t.linkState (16 + l) ≠ 2 ∧
        (t.island (78 + l)).ready = true) ∧
    (∀ (mark : BitVec 5140) (credits : BitVec 64), s.linkState (16 + l) ≠ 2 → s.keptInReset (78 + l) = false →
      hostAligned l mark = true →
      ∃ t : State, exec (.hostLaneTrain l ⟨mark, credits⟩) s = .next t ∧ t.linkState (16 + l) = 2 ∧
        (t.island (78 + l)).ready = true ∧
        (t.link (16 + l)).marker = some (markerCount mark, 0xFFFD) ∧
        (t.link (16 + l)).heldMax =
          ((List.range 4).map fun v => fld credits.toNat (16 * v + 15) (16 * v)) ∧
        (t.link (16 + l)).granted = [1024, 0, 0, 256] ∧ t.mem = s.mem) ∧
    (s.linkState (16 + l) = 2 →
      ∃ t : State, exec (.hostLaneSilence l) s = .next t ∧ exec (.hostLaneFail l) s = .next t ∧
        t.linkState (16 + l) = 1 ∧ t.mem = s.mem) ∧
    (s.linkState (16 + l) = 1 →
      ∃ t : State, exec (.hostLaneTrainTimeout l) s = .next t ∧ t.linkState (16 + l) = 1 ∧
        t.regF (Reg.HLK_LANE_STAT l) 7 0 = min (s.regF (Reg.HLK_LANE_STAT l) 7 0 + 1) 255 ∧
        ∀ a, a ≠ Reg.HLK_LANE_STAT l → t.reg a = s.reg a) ∧
    (∀ (bytes : List Byte) (fec : FecResult) (r : List (Pkt × Bool) × Bool × State),
      r = s.rxFlit (16 + l) bytes fec → s.linkState (16 + l) = 2 →
      ((s.island (78 + l)).ready = true → r.2.1 = true → exec (.hostFlitReceive l bytes fec) s =
        .next ((r.1.foldl (fun s q => s.hostPkt l q.1 q.2) r.2.2).pump (16 + l))) ∧
      ((s.island (78 + l)).ready = false → exec (.hostFlitReceive l bytes fec) s = .next s)) ∧
    (∀ q t, s.takeRx (16 + l) 1 = some (q, t) → exec (.nhlCredit l) s = .next
      (if (t.takeCredits (16 + l) (q.fld 159 96)).1 then (t.takeCredits (16 + l) (q.fld 159 96)).2
       else (t.takeCredits (16 + l) (q.fld 159 96)).2.hostViolate l 2 q 0)) ∧
    (∀ q t, s.takeRx (16 + l) 2 = some (q, t) → exec (.nhlNak l) s = .next t)

/-- A command packet takes its place by `CSEQ` (R355): the one that its queue expects is accepted; one up to 63
ahead is held; one of the 64 before is a duplicate; any other, and one beyond the queue's depth, is a
violation. A gap that lasts longer than `HLK_GAP_TMO` discards the held commands, each with a `NAK`. An event that
finds no credit is dropped and counted (R376). -/
def Obligations.CommandsTakeTheirTurn : Prop :=
  ∀ (s : State) (lane : Lane) (q : Pkt) (h : HostCmd) (k : HostQ) (d : Nat),
    (h = ⟨lane, Fin.ofNat 16 (q.fld 35 32), BitVec.ofNat 32 (q.fld 95 64), BitVec.ofNat 160 (q.fld 255 96),
        q.payload⟩ → k = s.hostQ (q.fld 35 32) → d = (h.cseq - k.expect).toNat →
      (2 ^ 32 - 64 ≤ d → s.hostCmd lane q = s.hostDuplicate lane (q.fld 35 32) (q.fld 63 48) h) ∧
      (64 ≤ d → d < 2 ^ 32 - 64 → s.hostCmd lane q = s.hostViolate lane 3 q k.expect.toNat) ∧
      (d < 64 → (∀ x ∈ k.held, x.2.cseq ≠ h.cseq) →
        (64 ≤ k.accepted.length + k.held.length →
          s.hostCmd lane q = s.hostViolate lane 5 q k.expect.toNat) ∧
        (k.accepted.length + k.held.length < 64 → d = 0 →
          s.hostCmd lane q = s.hostAccept (q.fld 35 32) (BitVec.ofNat 16 (q.fld 63 48), h)) ∧
        (k.accepted.length + k.held.length < 64 → 0 < d →
          ((s.hostCmd lane q).hostQ (q.fld 35 32)).held =
            insertCmd (BitVec.ofNat 16 (q.fld 63 48), h) k.held))) ∧
    (∀ n : Fin 16, (s.hostQ n).held ≠ [] →
      (s.hostQ n).gapSince + (s.reg Reg.HLK_GAP_TMO).toNat < s.now →
      ∃ t : State, exec (.gapTimeout n) s = .next t ∧ (t.hostQ n).held = [] ∧
        (t.hostQ n).accepted = (s.hostQ n).accepted ∧ (t.hostQ n).expect = (s.hostQ n).expect ∧
        t.mem = s.mem) ∧
    (∀ p l, (l = 16 + s.hostLane 0 ∨
        l = 33 - (16 + s.hostLane 0) ∧ ∀ x ∈ (s.link (16 + s.hostLane 0)).txq, x.vc ≠ 2) →
      ((s.link l).txq.find? fun p => p.vc == 2) = some p →
      ∃ t : State, exec .eventDrop s = .next t ∧ (t.link l).txq = (s.link l).txq.erase p ∧
        (t.reg Reg.HLK_EVT_LOST_CNT).toNat =
          min ((s.reg Reg.HLK_EVT_LOST_CNT).toNat + 1) 0xFFFFFFFF ∧
        ∀ a, a ≠ Reg.HLK_EVT_LOST_CNT → t.reg a = s.reg a)

/-- The checks of a host command in their order (R356, R358, R361, R362): before its turn it waits; then a
malformed field or length is `BAD_COMMAND`; then one that is not legal in the state is `STATE_CONFLICT`,
counted, with no side effect, so that memory, the state and its queue's place are as they were. -/
def Obligations.CommandsAreChecked : Prop :=
  ∀ (c : Instr) (h : HostCmd) (cmd : Nat) (s : State), hostCode c = some (h, cmd) →
    s.ctl.holdWaiters.contains h = false →
    (s.hostTurn h cmd = false → exec c s = .next s) ∧
    (s.hostTurn h cmd = true →
      (∀ off, cmdBad cmd h = some (some off) → exec c s = .next (s.badCommand h cmd off)) ∧
      (cmdBad cmd h = some none → exec c s = .next (s.badLen h cmd)) ∧
      (cmdBad cmd h = none → s.legalNow h cmd = false →
        exec c s = .next (s.conflict h cmd) ∧ (s.conflict h cmd).mode = s.mode ∧
          (s.conflict h cmd).mem = s.mem ∧ (s.conflict h cmd).allocs = s.allocs ∧
          (s.conflict h cmd).descs = s.descs ∧ (s.conflict h cmd).feeds = s.feeds ∧
          (s.conflict h cmd).windows = s.windows ∧ (s.conflict h cmd).prog = s.prog ∧
          ((s.conflict h cmd).reg Reg.GLB_STATE_CONFLICT_CNT).toNat =
            min ((s.reg Reg.GLB_STATE_CONFLICT_CNT).toNat + 1) 0xFFFFFFFF))

/-- Status, registers, allocations and descriptors (R248, R358): what each command answers and leaves.

Attestation and flash (R424, R425, R434 to R437): `ATTEST` answers the report over its nonce. `WRITE` programs
the writable slot and `ERASE` takes one sector of it to all ones; `ACTIVATE` names the slot when its record
passes, and no slot of that kind is writable from then on, and answers the failure otherwise; `ADVANCE_SVN` raises the
minimum version; `REVOKE` and `KEY_PROGRAM` write the slot of their target when their record passes, and nothing
otherwise; `READ` answers the bytes. -/
def Obligations.SimpleCommandsAnswer : Prop :=
  (∀ (h : HostCmd) (s : State),
     (s.Effective h 0 → exec (.nop h) s = .next (s.respond h 0 0 0 [])) ∧
     (s.Effective h 1 → exec (.status h) s = .next (s.respond h 1 0
       (2 ^ 32 * (s.reg Reg.GLB_STATE).toNat + 2 ^ 64 * (s.reg Reg.GLB_STEP_NUM).toNat +
         2 ^ 96 * (s.reg Reg.GLB_STEP_LIMIT).toNat) [])) ∧
     (s.Effective h 2 → ∃ data u, s.readRegs h.lane.val (harg h 3 0) (harg h 5 4) = (data, u) ∧
       exec (.regRead h) s = .next (u.respond h 2 0 0 data) ∧ data.length = 4 * harg h 5 4 ∧
       u.mem = s.mem) ∧
     (s.Effective h 3 → exec (.regWrite h) s = .next
       ((s.writeRegs (harg h 3 0) (wordsOf (harg h 5 4) h.payload)).respond h 3 0 0 [])) ∧
     (∀ id x, s.Effective h 0x10 → parseAlloc (leNat h.payload) false = some (id, x) →
       s.allocOk id x = true → ∃ t : State, exec (.allocCreate h) s = .next t ∧ t.alloc id = some x ∧
         (∀ i, i ≠ id → t.alloc i = s.alloc i) ∧ t.mem = s.mem) ∧
     (∀ id, s.Effective h 0x11 → id = harg h 1 0 →
       (s.alloc id = none → exec (.allocFree h) s = .next (s.respond h 0x11 0xD 0 [])) ∧
       ((s.alloc id).isSome = true → s.allocNamed id = false → ∃ t : State, exec (.allocFree h) s = .next t ∧
         t.alloc id = none ∧ (∀ i, i ≠ id → t.alloc i = s.alloc i) ∧ t.mem = s.mem)) ∧
     (∀ d, s.Effective h 0x12 → s.checkDesc s.groups (harg h 1 0) (leNat h.payload) = .ok d →
       ∃ t : State, exec (.descCreate h) s = .next t ∧ t.desc (harg h 1 0) = some ⟨false, d⟩ ∧
         (∀ i, i ≠ harg h 1 0 → t.desc i = s.desc i) ∧ t.mem = s.mem) ∧
     (s.Effective h 0x13 → (s.desc (harg h 1 0)).isSome = true →
       ∃ t : State, exec (.descDestroy h) s = .next t ∧ t.desc (harg h 1 0) = none ∧
         (∀ i, i ≠ harg h 1 0 → t.desc i = s.desc i) ∧ t.mem = s.mem)) ∧
  (∀ (h : HostCmd) (s : State),
     (s.Effective h 0x60 → exec (.attest h) s =
       .next ((s.report h.payload).2.respond h 0x60 0 0 (s.report h.payload).1)) ∧
     (∀ kind off hdr body tgt key, s.hostTurn h 0x61 = true →
       flashBad h.args.toNat h.payload.length = none → cmdLegal 0x61 s.mode = true →
       kind = harg h 1 1 → off = harg h 7 4 → hdr = h.payload.take 512 → body = h.payload.drop 512 →
       tgt = hd body 0 1 → key = s.otp.keys.getD tgt KeySlot.empty →
       (∀ a, harg h 0 0 = 0 → s.inWritable kind off h.payload.length = some a →
         exec (.flashWrite h) s = .next ((s.flashProgram a h.payload).respond h 0x61 0 0 [])) ∧
       (∀ a, harg h 0 0 = 1 → s.inWritable kind off 0x10000 = some a →
         ∃ t : State, exec (.flashErase h) s = .next t ∧ t.otp = s.otp ∧ t.mem = s.mem ∧
           ∀ j, SMap.get flashDefault t.flash j =
             if a ≤ j ∧ j < a + 0x10000 then 0xFF else SMap.get flashDefault s.flash j) ∧
       (∀ n r a, harg h 0 0 = 2 → s.writableSlot kind = some n → r = s.slotRecord kind n →
         a = authCheck s.otp (kind + 1) r.1 r.2 → exec (.activate h) s = .next
           (if a ≠ 0 then s.respond h 0x61 0xE (authDetail a r.1) []
            else if kind = 1 ∧ configCheck r.2 ≠ 0 then s.respond h 0x61 0xB (0x100 + configCheck r.2) []
            else ({ s.nameSlot kind n with activated := insertSorted s.activated kind }).respond h 0x61 0 0 [])) ∧
       (harg h 0 0 = 2 → s.activated.contains kind = true →
         exec (.activate h) s = .next (s.respond h 0x61 0xC 0 [])) ∧
       (∀ v, harg h 0 0 = 3 → v = harg h 11 8 → s.otp.svn < v → s.fwVerified = true →
         s.cfgVerified = true → v ≤ s.regF Reg.SEC_SVN 6 0 → v ≤ s.regF Reg.SEC_SVN 22 16 →
         (∀ k, k < 2 → ∃ n, s.dirSlot k = some n ∧ v ≤ s.slotSvn k n) →
         ∃ t : State, exec (.advanceSvn h) s = .next t ∧ t.otp = { s.otp with svn := v } ∧
           t.flash = s.flash ∧ t.mem = s.mem) ∧
       (harg h 0 0 = 4 → tgt ≤ 3 → hd hdr 6 2 ≠ tgt →
         ∃ t : State, exec (.revoke h) s = .next t ∧ t.flash = s.flash ∧ t.mem = s.mem ∧
           (authCheck s.otp 3 hdr body ≠ 0 → t.otp = s.otp) ∧
           (authCheck s.otp 3 hdr body = 0 →
             t.otp = { s.otp with keys := s.otp.keys.set tgt { key with revoked := true } })) ∧
       (harg h 0 0 = 5 → tgt ≤ 3 → key.programmed = false →
         ∃ t : State, exec (.keyProgram h) s = .next t ∧ t.flash = s.flash ∧ t.mem = s.mem ∧
           (authCheck s.otp 4 hdr body ≠ 0 → t.otp = s.otp) ∧
           ∀ k : KeySlot, k = { key with programmed := true, digest := BitVec.ofNat 512 (beNat (body.drop 4)) } →
             authCheck s.otp 4 hdr body = 0 → t.otp = { s.otp with keys := s.otp.keys.set tgt k }) ∧
       (harg h 0 0 = 6 → exec (.flashRead h) s =
         .next (s.respond h 0x61 0 0 (flashBytes s.flash off (harg h 9 8))))))

/-- Host memory commands (R27, R262, R358, R431): on memory that can be reached, a write within one live allocation
stores its payload and nothing else, a read answers the bytes that stand there; outside every allocation both
are `ADDR_RANGE` at once. While a channel or a crossing on the way is not ready the command waits. -/
def Obligations.HostReadsAndWritesMemory : Prop :=
  ∀ (h : HostCmd) (s : State) (a n : Nat), a = harg h 5 0 →
    (s.Effective h 0x20 → n = h.payload.length →
      ((s.inAlloc a n).isSome = true → s.memPath s.ctlDie a n = false → exec (.memWrite h) s = .next s) ∧
      (s.memPath s.ctlDie a n = true → (s.inAlloc a n).isSome = true →
        ∃ t : State, exec (.memWrite h) s = .next t ∧
          (∀ j, j < a ∨ a + n ≤ j → t.mem.byte j = s.mem.byte j) ∧
          (∀ i, (hi : i < h.payload.length) → t.mem.byte (a + i) = h.payload[i]) ∧
          t.allocs = s.allocs ∧ t.flash = s.flash) ∧
      (s.inAlloc a n = none → exec (.memWrite h) s = .next (s.respond h 0x20 0xC 0 []))) ∧
    (s.Effective h 0x21 → n = harg h 9 8 →
      ((s.inAlloc a n).isSome = true → s.memPath s.ctlDie a n = false → exec (.memRead h) s = .next s) ∧
      (s.memPath s.ctlDie a n = true → (s.inAlloc a n).isSome = true → s.badRange a n = false →
        ∃ u : State, exec (.memRead h) s = .next (u.respond h 0x21 0 0 (Memory.bytes s.mem a n)) ∧
          u.mem = s.mem ∧ u.poison = s.poison) ∧
      (s.inAlloc a n = none →
        exec (.memRead h) s = .next (s.respond h 0x21 0xC 0 [])))

/-- The states of a program (R360, R363 to R365): `RUN` makes the module `RUNNING` with its limit, unless the
limit lies behind; `HOLD` holds at once where no begun step is left to commit, and waits otherwise; `UNLOAD` makes
it `IDLE`, with nothing of the program left; `LOAD` answers what the loader finds, once it reaches what it reads
and writes (R431); `MODULE_RESET` sends its response, then leaves the reset state, but for flash and what is not
reset, with both lanes down and the change of state to report; the registers that show the fuses show them
(R441, R442). -/
def Obligations.ProgramCommandsChangeTheState : Prop :=
  ∀ (h : HostCmd) (s : State),
    (∀ limit, s.Effective h 0x32 → limit = s.runLimit (harg h 3 0) →
      (limit = 0 ∨ s.committed < limit → ∃ t : State, exec (.run h) s = .next t ∧ t.mode = 3 ∧
        t.restored = false ∧ t.allocs = s.allocs ∧ t.windows = s.windows ∧
        (s.mode = 2 → s.restored = false → s.hasTwin = false →
          t.reg Reg.GLB_STEP_LIMIT = BitVec.ofNat 32 limit ∧ t.committed = s.committed)) ∧
      (limit ≠ 0 → limit ≤ s.committed →
        exec (.run h) s = .next (s.respond h 0x32 0x10 s.committed []))) ∧
    (s.Effective h 0x33 → s.ctl.holdWaiters.contains h = false →
      (s.committed < s.ctl.mustRun → ∃ t : State, exec (.hold h) s = .next t ∧ t.mode = s.mode ∧
        bit (t.reg Reg.GLB_STATE).toNat 3 = true ∧ t.ctl.holdWaiters = s.ctl.holdWaiters ++ [h] ∧
        t.mem = s.mem) ∧
      (s.ctl.mustRun ≤ s.committed → ∃ t : State, exec (.hold h) s = .next t ∧ t.mode = 4 ∧
        t.regF Reg.GLB_STATE 7 4 = 1 ∧ t.ctl.holdWaiters = [] ∧ t.mem = s.mem)) ∧
    (s.Effective h 0x31 → ∃ t : State, exec (.unload h) s = .next t ∧ t.mode = 1 ∧ t.prog = none ∧
      t.feeds = [] ∧ t.windows = [] ∧ t.mem = s.mem) ∧
    (∀ a, s.Effective h 0x30 → a = harg h 5 0 →
      (s.roomAt a = none → exec (.load h) s = .next (s.respond h 0x30 0xC 0 [])) ∧
      (∀ room, s.roomAt a = some room →
        (s.loadReach a room = false → exec (.load h) s = .next s) ∧
        (s.loadReach a room = true → exec (.load h) s = .next ((s.loadAt a room).2.respond h 0x30
          (s.loadAt a room).1 ((s.loadAt a room).2.reg Reg.GLB_LOAD_STAT).toNat [])) ∧
        (∀ p l u, s.loadReach a room = true → s.checkImage a room = .ok (p, l, u) →
          ∃ t : State, exec (.load h) s = .next t ∧ t.mode = 2))) ∧
    (s.Effective h 0x34 → ∃ t : State, exec (.moduleReset h) s = .next t ∧ t.mode = 0 ∧
      (∀ a, a ≠ Reg.SEC_STAT → (∀ j, j < 33 → a ≠ Reg.SEC_ID_PUB j) → t.reg a = regReset a) ∧
      t.regF Reg.SEC_STAT 22 16 = s.otp.svn % 128 ∧
      t.regF Reg.SEC_STAT 31 31 = s.otp.ident.isSome.toNat ∧
      t.mem = [] ∧ t.prog = none ∧ t.allocs = [] ∧ t.descs = [] ∧
      t.flash = s.flash ∧ t.otp = s.otp ∧ ∀ l : Lane, t.linkState (16 + l) = 0 ∧
        (t.link (16 + l)).wire = ((s.respond h 0x34 0 0 []).link (16 + l)).wire ∧
        ∀ p ∈ (t.link (16 + l)).txq, p.opcode = 0x12)

/-- Feeds (R366, R367): a feed is opened over a target and a ring of enough slots; a write for a step whose
step-begin was never sent, into a slot that no other step's committed feed keeps, stores its payload there and nothing
else; a commit marks the slot; the refusals are `STEP_PAST` and `SLOT_BUSY` with the step in the way. A write waits
while its slot cannot be reached (R262). -/
def Obligations.FeedsTakeData : Prop :=
  ∀ (h : HostCmd) (s : State) (f k : Nat), f = harg h 1 0 →
    (∀ x y, s.Effective h 0x40 → s.alloc (harg h 3 2) = some x → s.alloc (harg h 5 4) = some y →
      s.feed f = none → harg h 6 6 * x.size ≤ y.size → harg h 3 2 ≠ harg h 5 4 →
      ∃ t : State, exec (.feedOpen h) s = .next t ∧ t.feed f =
        some ⟨BitVec.ofNat 16 (harg h 3 2), BitVec.ofNat 16 (harg h 5 4), harg h 6 6, []⟩ ∧
        (∀ i, i ≠ f → t.feed i = s.feed i) ∧ t.mem = s.mem) ∧
    (s.Effective h 0x41 → (s.feed f).isSome = true → ∃ t : State, exec (.feedClose h) s = .next t ∧
      t.feed f = none ∧ (∀ i, i ≠ f → t.feed i = s.feed i) ∧ t.mem = s.mem) ∧
    (∀ x, k = harg h 7 4 → s.feed f = some x →
      (∀ a n off, s.Effective h 0x42 → off = harg h 13 8 → n = h.payload.length → a = s.slotAddr x k off →
        (s.hostReach a n = false → exec (.feedWrite h) s = .next s) ∧
        (s.hostReach a n = true → k ≤ s.ctl.sentMax →
          exec (.feedWrite h) s = .next (s.respond h 0x42 0x10 s.committed [])) ∧
        (s.hostReach a n = true → s.ctl.sentMax < k →
        (x.busy k = none → off + n ≤ s.slotSize x → ∃ t : State, exec (.feedWrite h) s = .next t ∧
          t.feed f = some (x.take k false) ∧ t.mem = Memory.write s.mem a h.payload ∧
          (∀ j, j < a ∨ a + n ≤ j → t.mem.byte j = s.mem.byte j)) ∧
        (∀ j, x.busy k = some j → exec (.feedWrite h) s = .next (s.respond h 0x42 0xF j [])) ∧
        (x.busy k = none → s.slotSize x < off + n →
          exec (.feedWrite h) s = .next (s.respond h 0x42 0xC 0 [])))) ∧
      (s.Effective h 0x43 →
        (k ≤ s.ctl.sentMax → exec (.feedCommit h) s = .next (s.respond h 0x43 0x10 s.committed [])) ∧
        (s.ctl.sentMax < k → x.busy k = none → ∃ t : State, exec (.feedCommit h) s = .next t ∧
          t.feed f = some (x.take k true) ∧ t.mem = s.mem)))

/-- Result windows (R369 to R374): a window is opened from the step after the last one begun; a read of a posted
result answers its bytes and may be repeated, and a read beyond the window's size is `ADDR_RANGE`; window 255 is
the fatal dump. What a poisoned unit reads as is free, and the same at every read (R372, R374; log entry 52). A read
waits while the memory cannot be reached (R262). -/
def Obligations.ResultsAreRead : Prop :=
  ∀ (h : HostCmd) (s : State) (w k : Nat), w = harg h 1 0 →
    (∀ x y off size, s.Effective h 0x50 → off = harg h 9 4 → size = harg h 13 10 →
      s.alloc (harg h 3 2) = some x → s.alloc (harg h 15 14) = some y → s.window w = none →
      off + size ≤ x.size → harg h 16 16 * size ≤ y.size →
      reachOverlap s.engineRanges [(x.base + off, size)] = false →
      ∃ (t : State) (z : Window), exec (.resultOpen h) s = .next t ∧ t.window w = some z ∧
        z.first = s.ctl.begun + 1 ∧ z.src = x.base + off ∧ z.buf = y.base ∧ z.size = size ∧
        z.results = [] ∧ (∀ i, i ≠ w → t.window i = s.window i) ∧ t.mem = s.mem) ∧
    (s.Effective h 0x52 → k = harg h 7 4 → w ≠ 255 →
      (s.window w = none → exec (.resultRead h) s = .next (s.respond h 0x52 0xD 0 [])) ∧
      (∀ x off n, s.window w = some x → off = harg h 11 8 → n = harg h 13 12 →
        (x.standing k ≠ 0 → exec (.resultRead h) s = .next (s.respond h 0x52 (x.standing k) 0 [])) ∧
        (x.standing k = 0 → x.size < off + n →
          exec (.resultRead h) s = .next (s.respond h 0x52 0xC 0 [])) ∧
        (∀ a key, x.standing k = 0 → off + n ≤ x.size → a = x.buf + k % x.slots * x.size + off →
          key = ((x.keys.find? fun e => e.1 == k).map Prod.snd).getD 0 →
          (s.memPath s.ctlDie a n = false → exec (.resultRead h) s = .next s) ∧
          (s.memPath s.ctlDie a n = true → ∃ u : State, exec (.resultRead h) s =
            .next (u.respond h 0x52 0 0 ((s.openAt key).list a n)) ∧ u.mem = s.mem ∧ u.poison = s.poison ∧
            u.windows = s.windows ∧ u.freeCtr = s.freeCtr ∧
            (s.badRange a n = false → (s.openAt key).list a n = Memory.bytes s.mem a n))))) ∧
    (s.Effective h 0x52 → w = 255 → s.dumpStanding = 0 → harg h 11 8 + harg h 13 12 ≤ dumpSize →
      (s.memPath s.ctlDie (s.dumpBase + harg h 11 8) (harg h 13 12) = false →
        exec (.resultRead h) s = .next s) ∧
      (s.memPath s.ctlDie (s.dumpBase + harg h 11 8) (harg h 13 12) = true →
        ∃ u : State, exec (.resultRead h) s =
          .next (u.respond h 0x52 0 0 (s.dumpBytes (harg h 11 8) (harg h 13 12))) ∧ u.mem = s.mem ∧
          u.poison = s.poison ∧ u.dumpKey = s.dumpKey))

/-- `RESULT_RELEASE` of a posted, unreleased result frees its slot and completes with OK; of a step not yet posted
it is `RESULT_PENDING`, of one released or gone `RESULT_GONE`. `RESULT_CLOSE` discards every result of the
window, and later reads of it answer `NO_OBJECT` (R373). `Window.standing` tells R372's cases apart. -/
def Obligations.ResultsAreReleased : Prop :=
  ∀ (h : HostCmd) (s : State) (w k : Nat), w = harg h 1 0 → w ≠ 255 →
    (∀ x, s.Effective h 0x53 → k = harg h 7 4 → s.window w = some x →
      (x.standing k = 0 → ∃ (t : State) (y : Window),
        t = (s.setWindow w (some y)).respond h 0x53 0 0 [] ∧ exec (.resultRelease h) s = .next t ∧
        t.window w = some y ∧ (∀ i, i ≠ w → t.window i = s.window i) ∧ t.mem = s.mem ∧
        y.standing k = 0xA ∧ (∀ r, r.1 ≠ k → (r ∈ y.results ↔ r ∈ x.results)) ∧
        ((∀ r ∈ x.results, r.1 ≠ k → r.1 % x.slots = k % x.slots → r.2 = .released) →
          ∀ j, j % x.slots = k % x.slots → y.slotFree j = true)) ∧
      (x.standing k = 9 → exec (.resultRelease h) s = .next (s.respond h 0x53 9 0 [])) ∧
      (x.standing k = 0xA → exec (.resultRelease h) s = .next (s.respond h 0x53 0xA 0 [])) ∧
      (x.first ≤ k → ∀ st, (x.results.find? fun r => r.1 == k) = some (k, st) →
        x.standing k = match st with
          | .posted => 0
          | .released => 0xA
          | _ => 9) ∧
      (k < x.first → x.standing k = 0xA)) ∧
    (s.Effective h 0x51 → (s.window w).isSome = true →
      ∃ t : State, exec (.resultClose h) s = .next t ∧ t.window w = none ∧
        (∀ i, i ≠ w → t.window i = s.window i) ∧ t.mem = s.mem ∧
        ∀ (g : HostCmd) (u : State), u.window w = none → harg g 1 0 = w → u.Effective g 0x52 →
          exec (.resultRead g) u = .next (u.respond g 0x52 0xD 0 []))

/-! ### Faults and the step controller -/

/-- Failures are declared (R386, R387, R393, R394, R401, R408): a breach is recorded at the head of the ring and
counted; a core without progress for `FLT_CORE_WDOG` while it runs a segment, and one of a named cause, has
failed, unless a thermal gate stops it (R455); the loss of a polder is declared once and takes a running module to
`DUMPING`, with every pending `HOLD` answered; a breach that waited is acted on once no window holds it back. -/
def Obligations.FailuresAreDeclared : Prop :=
  ∀ s : State,
    (∀ (i : Nat) (b : BreachInfo), (s.breach i b).breaches = (s.mkBreach i b :: s.breaches).take 131072 ∧
      ((s.breach i b).reg Reg.FLT_LOG_HEAD).toNat = min ((s.reg Reg.FLT_LOG_HEAD).toNat + 1) 0xFFFFFFFF ∧
      (s.breach i b).mem = s.mem ∧
      (s.breach i b).breachQ = if s.defers b.cls b.polder then s.breachQ ++ [s.mkBreach i b] else s.breachQ) ∧
    (∀ c : Core, (s.core c).seg.isSome = true → (s.core c).failed = false →
      (s.core c).progress + (s.reg Reg.FLT_CORE_WDOG).toNat ≤ s.now →
      ((s.core c).thermGated = false → exec (.coreWatchdog c) s = .next (s.coreFail s.ctlIsl none c)) ∧
      ((s.core c).thermGated = true → exec (.coreWatchdog c) s = .next s)) ∧
    (∀ (c : Core) (cause : CoreFailCause) (t : State), s.coreFailed c cause = true → (s.core c).failed = false →
      (s.core c).retired = false → t = s.coreFail (if cause = .underrun then c.val else s.ctlIsl) none c →
      exec (.coreFail c cause) s = .next t ∧
        (s.defers 3 (c.val / 9) = true →
          t.breaches.length = min (s.breaches.length + 1) 131072 ∧ t.cores = s.cores)) ∧
    (∀ why : PolderCause, s.polderLost why = true →
      (s.lostPolders.contains (polderOfCause why).1 = true → exec (.polderLoss why) s = .next s) ∧
      (s.lostPolders.contains (polderOfCause why).1 = false → 1 ≤ s.mode → s.mode ≤ 4 →
        ∃ t : State, exec (.polderLoss why) s = .next t ∧ t.mode = 5 ∧ t.ctl.holdWaiters = [] ∧
          t.lostPolders = insertSorted s.lostPolders (polderOfCause why).1 ∧ t.mem = s.mem)) ∧
    (∀ r l, s.breachQ = r :: l →
      (s.defers r.cls.toNat r.polder.toNat = true → exec .queuedBreach s = .next s) ∧
      (s.defers r.cls.toNat r.polder.toNat = false → exec .queuedBreach s =
        .next ((({ s with breachQ := l } : State).setRegF Reg.FLT_STAT 23 16 (min l.length 255)).actOn r))) ∧
    (∀ x t, s.ctl.replayWait.find? s.takenOver = some x → s.ctl.abandoned = false →
      s.ctl.stepReplay = false → s.stage x.2.stage = none →
      t = (s.setCtl fun c => { c with replayWait := s.ctl.replayWait.erase x,
                                      phaseReplays := s.ctl.phaseReplays.filter fun p => p.1 != x.2 }) →
      exec .replayIssue s = .next (t.closeWindow 3 x.1).afterPhase) ∧
    (∀ x st t, s.ctl.replayWait.find? s.takenOver = some x → s.ctl.abandoned = false →
      s.ctl.stepReplay = false → s.stage x.2.stage = some st → (st.accum.getD x.2.phase []).isEmpty = true →
      t = (s.setCtl fun c => { c with replayWait := s.ctl.replayWait.erase x,
                                      phaseReplays := s.ctl.phaseReplays.filter fun p => p.1 != x.2 }) →
      exec .replayIssue s = .next ((((t.closeWindow 3 x.1).breachOpen s.ctlIsl
        { cls := 1, polder := x.1.val / 9, action := 1, obj := x.2.stage }).replayPhase x.2).afterPhase))

/-- The fatal dump and the restore (R403, R404, R411, R412): in `DUMPING` the dump is written once, within its
region and off the lost halves, and then the module is `RETIRED`. A restore starts in `LOADED` with every
mirrored byte to be pulled, and is refused otherwise; it ends with the mirror's step committed, or the target's. -/
def Obligations.DumpAndRestore : Prop :=
  ∀ s : State,
    (s.mode = 5 → s.dumpWritten = false → ∃ t : State, exec .dumpWrite s = .next t ∧ t.dumpWritten = true ∧
      (∀ j, j < s.dumpBase ∨ s.dumpBase + dumpSize ≤ j ∨ s.onLostHalf j = true →
        t.mem.byte j = s.mem.byte j) ∧ t.regs = s.regs ∧ t.flash = s.flash) ∧
    (s.mode = 5 → s.dumpWritten = true → ∃ t : State, exec .dumpComplete s = .next t ∧ t.mode = 6 ∧
      t.mem = s.mem) ∧
    (s.mode = 2 → s.hasTwin = true → ∃ (t : State) (r : Restore), exec .restoreStart s = .next t ∧
      t.restore = some r ∧ r.target = (s.reg Reg.FLT_RESTORE_TARGET).toNat ∧ r.left = s.restorePieces ∧
      t.mem = s.mem) ∧
    (s.mode ≠ 2 ∨ s.hasTwin = false →
      exec .restoreStart s = .next (s.setReg Reg.FLT_RESTORE_STAT 0x40000000)) ∧
    (∀ r p km, s.restore = some r → r.left = [] → s.prog = some p → s.mode = 2 →
      km = (s.word (p.commit + 4)).toNat →
      (r.target = km → ∃ t : State, exec .restoreComplete s = .next t ∧ t.committed = km ∧
        t.restored = true ∧ t.restore = none ∧ t.ctl.begun = km ∧ t.mem = s.mem) ∧
      (r.target = km + 1 → ∃ t : State, exec .restoreComplete s = .next t ∧ t.restored = true ∧
        t.ctl.begun = km + 1) ∧
      (r.target ≠ km → r.target ≠ km + 1 → ∃ t : State, exec .restoreComplete s = .next t ∧
        t.reg Reg.FLT_RESTORE_STAT = 0x40000000 ∧ t.restore = none ∧ t.restored = s.restored ∧
        t.mem = s.mem))

/-- The step controller (R31, R34, R193, R363, R367, R368, R370, R371): the next step begins when nothing stands
in its way and every open feed has its slot, which is copied first, as soon as memory can be reached; a missing slot
makes it wait, and a wait of more than 1 ms is counted once. A completion word is taken once the crossings on its way
are ready (R28): a `PHASE_DONE` ends the oldest phase under way on its core, another word is noted, and a poisoned one
is discarded (R147, R387). A result copy that waited is taken when its slot is free and the step before its own is
committed (R34); one that waits for a release is counted once after 1 ms. -/
def Obligations.StepControllerRuns : Prop :=
  ∀ (s : State) (k : Nat),
    (k = s.ctl.begun + 1 → s.prog.isSome = true → s.mayBegin k = true →
      (s.missingFeeds k = [] → s.feedsReach k = true →
        exec .stepBeginIssue s = .next ((s.copyFeeds k).beginStep k)) ∧
      (s.missingFeeds k = [] → s.feedsReach k = false → exec .stepBeginIssue s = .next s) ∧
      (s.missingFeeds k ≠ [] → s.ctl.feedWait = none →
        ∃ t : State, exec .stepBeginIssue s = .next t ∧ t.ctl.feedWait = some s.now ∧ t.mem = s.mem ∧
          t.regs = s.regs)) ∧
    (∀ since f l, k = s.ctl.begun + 1 → s.ctl.feedWait = some since → s.missingFeeds k = f :: l →
      since + 1000 < s.now → s.ctl.feedStalled = false → s.mode = 3 →
      ∃ t : State, exec .feedStall s = .next t ∧ t.ctl.feedStalled = true ∧
        (t.reg Reg.GLB_FEED_STALL_CNT).toNat =
          min ((s.reg Reg.GLB_FEED_STALL_CNT).toNat + 1) 0xFFFFFFFF ∧ t.mem = s.mem) ∧
    (∀ (c : Core) w rest u (l : List Bool), (s.core c).cplq = w :: rest → s.corePath c = true →
      u = (s.setCore c { s.core c with cplq := rest }) →
      (∀ i bad, l.any id = false → fld w.toNat 7 0 = 2 → s.ctl.issued.find? (fun i => i.core == c) = some i →
        s.ctl.abandoned = false → s.ctl.stepReplay = false → bad = s.ctl.lenPoison.contains c.val →
        exec (.phaseDoneReceive ⟨c, l⟩) s = .next (((u.setCtl
          fun x => { x with seen := (c, w) :: x.seen,
                            lastCmd := SMap.set (fun _ => []) x.lastCmd c [],
                            lenPoison := x.lenPoison.erase c.val,
                            issued := x.issued.erase i }).phaseResult i.entry c
              (fld w.toNat 17 17 = 1) bad).afterPhase)) ∧
      (l.any id = false → fld w.toNat 7 0 ≠ 2 → exec (.phaseDoneReceive ⟨c, l⟩) s = .next (u.setCtl
        fun x => { x with seen := (c, w) :: x.seen })) ∧
      (l.any id = true → exec (.phaseDoneReceive ⟨c, l⟩) s = .next (u.cplPoison c))) ∧
    (∀ (c : Core) (l : List Bool), s.corePath c = false → exec (.phaseDoneReceive ⟨c, l⟩) s = .next s) ∧
    (∀ (w : Fin 64) x r, s.window w = some x → (x.results.find? fun r => r.2 == .waiting) = some r →
      s.mode = 3 ∨ s.mode = 4 → s.copyFree x r.1 = true → s.badRange x.src x.size = false →
      ∃ t : State, exec (.resultCopyResume w) s = .next t ∧
        t.mem = (s.copyMem x.src (x.buf + r.1 % x.slots * x.size) x.size).mem ∧
        ((t.window w).map fun y => y.results.contains
          (r.1, if r.1 ≤ s.committed then ResState.posted else ResState.taken)) = some true) ∧
    (∀ (w : Fin 64) x, s.window w = some x →
      (∃ r ∈ x.results, r.2 = .waiting ∧ x.slotFree r.1 = false) → x.stalled = false → x.waitSince + 1000 < s.now →
      ∃ t : State, exec .resultStall s = .next t ∧ (t.reg Reg.GLB_RESULT_STALL_CNT).toNat =
          min ((s.reg Reg.GLB_RESULT_STALL_CNT).toNat + 1) 0xFFFFFFFF ∧
        (∀ a, a ≠ Reg.GLB_RESULT_STALL_CNT → t.reg a = s.reg a) ∧ t.mem = s.mem)

/-! ### Event counters -/

/-- A snapshot copies the count of every counter whose `SNAP_EN` is 1 into its snapshot pair and updates
`EVC_SNAP_STEP` and `EVC_SNAP_INFO`; with `SNAP_CLR` each of those counters restarts from 0, and events after it
count toward the next snapshot; counters with `SNAP_EN` = 0 are neither copied nor restarted (R478). No other
register changes, and nothing but registers does. -/
def Obligations.SnapshotCopies : Prop :=
  ∀ (b : Block) (s : State), ∃ t : State, exec (.snap b) s = .next t ∧ t = { s with regs := t.regs } ∧
    (∀ i, i < evcSize b →
      (s.regF (Reg.EVC_SEL b i) 29 29 = 1 →
        t.reg48 (Reg.EVC_SNAP_LO b i) (Reg.EVC_SNAP_HI b i) = s.evcCount b i ∧
        (bit (s.reg (Reg.EVC_CTL b)).toNat 3 = false → t.evcCount b i = s.evcCount b i) ∧
        (bit (s.reg (Reg.EVC_CTL b)).toNat 3 = true → t.evcCount b i = 0 ∧
          ∀ n, n < 2 ^ 48 → (t.evcAdd b i n).evcCount b i = n)) ∧
      (s.regF (Reg.EVC_SEL b i) 29 29 = 0 →
        t.reg48 (Reg.EVC_SNAP_LO b i) (Reg.EVC_SNAP_HI b i) =
          s.reg48 (Reg.EVC_SNAP_LO b i) (Reg.EVC_SNAP_HI b i) ∧ t.evcCount b i = s.evcCount b i)) ∧
    t.reg (Reg.EVC_SNAP_STEP b) = (s.island b).step ∧
    t.regF (Reg.EVC_SNAP_INFO b) 31 30 = 1 ∧
    t.regF (Reg.EVC_SNAP_INFO b) 15 0 = min (s.regF (Reg.EVC_SNAP_INFO b) 15 0 + 1) 0xFFFF ∧
    ∀ a, a ≠ Reg.EVC_SNAP_STEP b → a ≠ Reg.EVC_SNAP_INFO b →
      (∀ i, i < evcSize b → a ≠ Reg.EVC_SNAP_LO b i ∧ a ≠ Reg.EVC_SNAP_HI b i ∧ a ≠ Reg.EVC_CNT_LO b i ∧
        a ≠ Reg.EVC_CNT_HI b i) → t.reg a = s.reg a

/-- Counters are written and cleared (R469, R472, R474, R477, R479): a write of a high word changes no count, the
write of the low word loads the whole count from it; `CLEAR` makes every count of the block 0 and clears every
`OVF`; `CLEAR_ALL` and `SNAP_ALL` send a message to every block, which acts when it arrives, once the crossings on its
way are ready and the block's clock runs (R28, R480); an increment past 2⁴⁸ − 1 wraps and sets `OVF`. -/
def Obligations.CountersAreWrittenAndCleared : Prop :=
  ∀ (b : Block) (s : State),
    (∀ (i : Fin 32) (v : Word), i.val < evcSize b →
      (∃ t : State, exec (.evcCntHiWrite b i v) s = .next t ∧ t.regs = s.regs ∧
        ∀ (w : Word) (u : State), SMap.get (fun _ => 0) u.evcStage (Reg.EVC_CNT_HI b i) =
            SMap.get (fun _ => 0) t.evcStage (Reg.EVC_CNT_HI b i) →
          ∃ x : State, exec (.evcCntLoWrite b i w) u = .next x ∧
            x.evcCount b i = w.toNat + 2 ^ 32 * (v.toNat % 2 ^ 16) ∧
            (∀ a, a ≠ Reg.EVC_CNT_LO b i → a ≠ Reg.EVC_CNT_HI b i → x.reg a = u.reg a) ∧
            x = { u with regs := x.regs })) ∧
    (∃ t : State, exec (.clear b) s = .next t ∧ t = { s with regs := t.regs } ∧
      (∀ i, i < evcSize b → t.evcCount b i = 0 ∧
        ∀ j, j < 32 → (t.reg (Reg.EVC_SEL b i)).getLsbD j =
          if j = 30 then false else (s.reg (Reg.EVC_SEL b i)).getLsbD j)) ∧
    exec .clearAll s = .next { s with evcMsgs := s.evcMsgs ++ (List.range 62).map fun b => ⟨b, true, !s.blockPath b⟩ } ∧
    exec .snapAll s = .next { s with evcMsgs := s.evcMsgs ++ (List.range 62).map fun b => ⟨b, false, !s.blockPath b⟩ } ∧
    (∀ m, (s.evcMsgs.find? fun m => m.block == b.val) = some m →
      (s.blockPath b = true → s.clockRuns b = true → exec (.evcBroadcastArrive b) s = .next (if m.clr then
        ({ s with evcMsgs := s.evcMsgs.erase m } : State).evcClear b
        else ({ s with evcMsgs := s.evcMsgs.erase m } : State).evcSnap b 3)) ∧
      (s.blockPath b = false ∨ s.clockRuns b = false → exec (.evcBroadcastArrive b) s = .next s)) ∧
    (∀ (i : Fin 32) src inst n most, src = s.regF (Reg.EVC_SEL b i) 9 0 →
      inst = s.regF (Reg.EVC_SEL b i) 22 16 → evcSource src = some (src, n, most) → i.val < evcSize b →
      evcLegal b src = true → s.evcCounts b i src inst = true → inst = 0x7F ∨ n = 0 ∨ inst < n →
      s.evcCount b i < 2 ^ 48 → 2 ^ 48 ≤ s.evcCount b i + most →
      ∃ t : State, exec (.evcOvf b i) s = .next t ∧ bit (t.reg (Reg.EVC_SEL b i)).toNat 30 = true ∧
        (src ≠ 0x343 → t.evcCount b i ≤ s.evcCount b i + most - 2 ^ 48) ∧ t.mem = s.mem)

/-! ### Start-up, power and pins -/

/-- Start-up (R419, R421, R423, R426, R430, R431, R433): with a flash device that misses a requirement, without a valid
directory, without firmware that passes, and without an identity key that three writes have left, the module
is `RETIRED` in phase 15 with its cause; otherwise it goes on with the slot found. A function that is up sets its
bit of readiness. The health area's other copy is rewritten after a retirement, and no other byte of flash. -/
def Obligations.StartUpRuns : Prop :=
  ∀ s : State,
    (s.mode = 0 → s.power = .good →
      (s.flashPart.ok = false → ∃ t : State, exec .bootRomStart s = .next t ∧ t.mode = 6 ∧
        t.regF Reg.BOOT_STAT 31 28 = 15 ∧ t.regF Reg.BOOT_STAT 27 24 = 1 ∧ t.flash = s.flash ∧ t.otp = s.otp) ∧
      (s.flashPart.ok = true → s.dir = none → ∃ t : State, exec .bootRomStart s = .next t ∧ t.mode = 6 ∧
        t.regF Reg.BOOT_STAT 31 28 = 15 ∧ t.regF Reg.BOOT_STAT 27 24 = 2 ∧ t.flash = s.flash ∧
        t.otp = s.otp) ∧
      (∀ a x, s.flashPart.ok = true → s.dir = some a →
        x = (s.startLanes.showOtp.setRegF Reg.BOOT_STAT 31 28 1).setRegF Reg.BOOT_STAT 31 28 2 →
        (∀ u, x.findSlot 0 (x.flashLe (a + 8) 1) = (none, u) →
          ∃ t : State, exec .bootRomStart s = .next t ∧ t.mode = 6 ∧ t.regF Reg.BOOT_STAT 31 28 = 15 ∧
            t.regF Reg.BOOT_STAT 27 24 = 3) ∧
        (∀ fw u, x.findSlot 0 (x.flashLe (a + 8) 1) = (some fw, u) →
          exec .bootRomStart s = .next (u.bootRest a fw) ∧
          (u.otp.ident = none → 3 ≤ u.otp.badWrites → (u.bootRest a fw).mode = 6 ∧
            (u.bootRest a fw).regF Reg.BOOT_STAT 31 28 = 15 ∧ (u.bootRest a fw).regF Reg.BOOT_STAT 27 24 = 5)))) ∧
    (∀ f : ReadyFn, s.functionUp f = true → ∃ t : State, exec (.functionReady f) s = .next t ∧
      bit (t.reg (readyBit f).1).toNat (readyBit f).2 = true ∧
      (∀ a, a ≠ (readyBit f).1 → t.reg a = s.reg a) ∧ t = { s with regs := t.regs }) ∧
    (∀ a bytes, s.healthDirty = true → bytes = s.healthBytes (s.healthGen + 1) →
      a = (if s.health = some 0x4210000 then 0x4410000 else 0x4210000) →
      ∃ t : State, exec .healthAreaWrite s = .next t ∧ t.healthDirty = false ∧
        t.healthGen = s.healthGen + 1 ∧ t.mem = s.mem ∧ t.otp = s.otp ∧
        (∀ i, (h : i < bytes.length) → SMap.get flashDefault t.flash (a + i) = bytes[i]) ∧
        (∀ j, j < a ∨ a + bytes.length ≤ j →
          SMap.get flashDefault t.flash j = SMap.get flashDefault s.flash j))

/-- Power input (R443, R444, R447, R448, R456, R483, R488): soft start, or, while `MOD_RESET_N` is held low and the
input was gone, the housekeeping rail alone (that INPUT_TURN_ON with the input there is the release of the pin is the
model's choice, log entry 164); power good, which resets everything but flash and one-time-programmable memory, which
their registers show (R441, R442); a shutdown removes power; a thermal trip also drives `THERMTRIP_N`, which
`MOD_RESET_N` and the loss of the housekeeping rail release; a failed regulator takes its rail away and holds its
islands in reset, with the polder of what is no stage core; the 6 V bus, in soft start too, takes the package's power.
-/
def Obligations.PowerComesAndGoes : Prop :=
  ∀ s : State,
    (s.power = .off →
      (s.resetHeld = false ∨ s.houseRail = true → exec .inputTurnOn s =
        .next { s with power := .softStart, resetHeld := false, houseRail := true }) ∧
      (s.resetHeld = true → s.houseRail = false → exec .inputTurnOn s = .next { s with houseRail := true })) ∧
    (∀ straps, s.power = .softStart → ∃ t : State, exec (.powerGood straps) s = .next t ∧ t.power = .good ∧
      t.straps = straps ∧ t.mode = 0 ∧
      (∀ a, a ≠ Reg.SEC_STAT → (∀ j, j < 33 → a ≠ Reg.SEC_ID_PUB j) → t.reg a = regReset a) ∧
      t.regF Reg.SEC_STAT 22 16 = s.otp.svn % 128 ∧ t.mem = [] ∧ t.flash = s.flash ∧ t.otp = s.otp ∧
          t.pending = s.pending ∧ (t.log.map LogEvent.name) = [1]) ∧
    (s.power ≠ .off → ∃ t : State, exec .inputShutdown s = .next t ∧ exec .overcurrentTrip s = .next t ∧
      t.power = .off ∧ (∀ a, a ≠ Reg.SEC_STAT → (∀ j, j < 33 → a ≠ Reg.SEC_ID_PUB j) → t.reg a = regReset a) ∧
      t.mem = [] ∧ t.flash = s.flash ∧ t.otp = s.otp ∧
      t.thermLatch = s.thermLatch ∧ exec .thermalTrip s = .next { t with thermLatch := true } ∧
      exec .modResetN s = .next { t with resetHeld := true, thermLatch := false }) ∧
    (exec .housekeepingRailDown s = .next { s with houseRail := false, thermLatch := false }) ∧
    (s.power ≠ .off → s.railsOff.contains .bus6v = false →
      ∃ t : State, exec (.regulatorFail .bus6v) s = .next t ∧ t.power = .off ∧ t.flash = s.flash) ∧
    (s.power = .good →
      (∀ c : Core, s.railsOff.contains (.vcore c) = false →
        ∃ t : State, exec (.regulatorFail (.vcore c)) s = .next t ∧ (t.island c).inReset = true ∧
          t.railsOff = s.railsOff ++ [.vcore c] ∧ t.mem = s.mem) ∧
      (∀ (r : Rail) (p : Nat), s.railsOff.contains r = false →
        (r, p) ∈ (List.finRange 6).map (fun d => (Rail.vnoc d, d.val)) ++
          (List.finRange 6).map (fun d => (Rail.vsram d, d.val)) ++
          (List.finRange 4).map (fun h => (Rail.vedge h, 6 + h.val)) ++
          (List.finRange 4).map (fun h => (Rail.vserdes h, 6 + h.val)) ++
          (List.finRange 4).map (fun h => (Rail.lpddr h, 6 + h.val)) →
        s.lostPolders.contains p = false →
        ∃ t : State, exec (.regulatorFail r) s = .next t ∧ t.railsOff = s.railsOff ++ [r] ∧
          t.lostPolders = insertSorted s.lostPolders p ∧ t.mem = s.mem ∧
          ∀ i ∈ railIslands r, (t.island i).inReset = true ∧ t.keptInReset i = true))

/-- Power control (R449, R450, R452, R454, R455, R463): an evaluation moves the cap clock by at most one
step, down above the limit and up below it; the thermal clocks are moved by the cores' temperatures; a hot core is
gated and released; a droop is counted and ends after 1 µs.

The throttle temperature acts from the next evaluation on (R463), a higher clock finds its voltage set and a lower one
is followed by its own (R446).

Power states and sensors (R457 to R459, R464, R465, R483): an idle function enters the deepest state of its class's
budget, and a request wakes it; a sample of a sensor is shown with its valid bit, and an enabled alert on a value at
or above its threshold sets its bit. -/
def Obligations.PowerControlAndSensors : Prop :=
  (∀ s : State,
     (∀ p : BitVec 16, ∃ t : State, exec (.powerCapEval p) s = .next t ∧
       t.regF Reg.PWR_STAT 15 0 = s.powerLimit % 65536 ∧
       t.regF Reg.PWR_STAT 23 16 = capAfter (s.regF Reg.PWR_STAT 23 16) p.toNat s.powerLimit
         (s.regF Reg.PWR_CAP_HYST 15 0) s.fmax % 256 ∧
       t.energy = s.energy + 100 * p.toNat ∧ t.mem = s.mem ∧
       (∀ c : Core, (s.island c).inReset = false → t.coreClock c ≠ (s.core c).setClk →
         (t.core c).clkDue = some (t.coreClock c) ∧
         (t.core c).volt = if (s.core c).setClk < t.coreClock c then fusedMilliVolt (c / 9) (t.coreClock c)
           else (s.core c).volt)) ∧
     (∃ t : State, exec .thermalEval s = .next t ∧ t.mem = s.mem ∧ t.actThrottle = s.throttle ∧
       (t.regF Reg.PWR_STAT 29 29 = 1 ↔ ∃ c, c < 54 ∧ (t.core c).thermClk < 72) ∧
       ∀ (c : Core) temp, s.coreTemp c = some temp → (s.island c).inReset = false →
         (t.core c).thermClk = thermAfter (s.core c).thermClk temp s.throttle) ∧
     (∀ (c : Core) temp, s.coreTemp c = some temp →
       ((s.core c).thermGated = true → temp ≤ s.actThrottle → ∃ t : State,
         exec (.coreThermalGate c) s = .next t ∧ (t.core c).thermGated = false ∧ t.pstate c = 0) ∧
       ((s.core c).thermGated = false → s.pstate c = 0 → (s.core c).thermClk = 20 →
         s.actThrottle + 160 ≤ temp → ∃ t : State, exec (.coreThermalGate c) s = .next t ∧
           (t.core c).thermGated = true ∧ t.pstate c = 1)) ∧
     (∀ c : Core, (s.core c).droop = false → s.pstate c = 0 → ∃ t : State,
       exec (.droopResponse c) s = .next t ∧ (t.core c).droop = true ∧ (t.core c).droopAt = s.now ∧
         (t.reg Reg.PWR_DROOP_CNT).toNat = min ((s.reg Reg.PWR_DROOP_CNT).toNat + 1) 0xFFFFFFFF ∧
         ∀ a, a ≠ Reg.PWR_DROOP_CNT → t.reg a = s.reg a) ∧
     (∀ c : Core, (s.core c).droop = true → (s.core c).droopAt + 1 ≤ s.now → ∃ t : State,
       exec (.droopEnd c) s = .next t ∧ (t.core c).droop = false ∧ (t.core c).clkDue = none ∧
         (t.core c).setClk = (s.core c).clkDue.getD (s.core c).setClk ∧
         (t.core c).volt = fusedMilliVolt (c / 9) (t.core c).setClk ∧ t.mem = s.mem)) ∧
  (∀ s : State,
     (∀ f : PwrFn, s.fnIdle f = true → s.fnState f < s.deepestOf f →
       exec (.idleEntry f) s = .next (s.enterPower f (s.deepestOf f)) ∧
         (s.enterPower f (s.deepestOf f)).mem = s.mem) ∧
     (∀ f : PwrFn, s.wakeable f = true → exec (.powerStateWake f) s = .next (s.wake f) ∧
       (s.wake f).mem = s.mem) ∧
     (∀ ch : Chan, s.wakeable (.chan ch) = true → ∃ t : State,
       exec (.powerStateWake (.chan ch)) s = .next t ∧ t.fnState (.chan ch) = 0 ∧
         (s.pwrState ch ≠ 3 → t.regs = s.regs ∧ t.chans = s.chans) ∧
         (s.pwrState ch = 3 → (t.chan ch).trainDone = 9 ∧ (t.island (80 + ch)).ready = true)) ∧
     (∀ (j : Fin 256) (v : BitVec 24), sensorExists j = true →
       s.lostPolders.contains (6 + sensorHalf j) = false →
       ∃ t : State, exec (.sensorUpdate j v) s = .next t ∧
         t.reg (Reg.TEL_SENSOR j) = BitVec.ofNat 32 (2 ^ 31 + v.toNat) ∧ t.mem = s.mem ∧
         t.houseRail = (s.houseRail || decide (j.val = 0 ∧ 40000 ≤ v.toNat)) ∧
         (∀ k, k < 8 → s.regF (Reg.TEL_ALERT_SEL k) 7 0 = j.val →
           bit (s.reg (Reg.TEL_ALERT_SEL k)).toNat 31 = true →
           sensorNum j (s.regF (Reg.TEL_ALERT_VAL k) 23 0) ≤ sensorNum j v.toNat →
           bit (t.reg Reg.TEL_ALERT_STAT).toNat k = true)))

/-- The management port (R460 to R462): of a command that arrives whole at a powered module whose pins no scan
instruction has, and none of which runs, the answer is its data; a wrong `PEC` discards it; a malformed one and one of
an unlisted command byte are `BAD_COMMAND`, and one outside its states `STATE_CONFLICT`. Reads change nothing but the
response. While a command runs a new one is discarded, and a read transaction reads `BUSY`; after that the read carries
status, length, data and PEC. When a response is there is free within the bounds of R462 (log entry 159). -/
def Obligations.ManagementPortAnswers : Prop :=
  ∀ (m : MgmtCmd) (s : State), s.power = .good → s.tap.hasPins = false →
    (s.now < s.mgmtDue → (∀ code ok legal run, s.mgmt code m ok legal run = s) ∧
      s.mgmtRead = [0x20, 0, 0, crc8 [BitVec.ofNat 8 (s.mgmtAddr + 1), 0x20, 0, 0]]) ∧
    (s.mgmtDue ≤ s.now → ∀ st data l, s.mgmtRsp = (st, data) → l = st :: (leBytes 2 data.length ++ data) →
      s.mgmtRead = l ++ [crc8 (BitVec.ofNat 8 (s.mgmtAddr + 1) :: l)]) ∧
    (s.mgmtDue ≤ s.now →
    (∀ code ok legal run, m.code.toNat = code ∨ mgmtListed m.code = false →
      m.pec ≠ s.mgmtPec m.code.toNat m.payload → s.mgmt code m ok legal run = s.answer 0x21 []) ∧
    (∀ code legal run, m.code.toNat = code → m.pec = s.mgmtPec code m.payload →
      s.mgmt code m false legal run = s.answer 0xB [] ∧
      s.mgmt code m true false run = (s.inc Reg.GLB_STATE_CONFLICT_CNT 1).answer 8 []) ∧
    (∀ code ok legal run, mgmtListed m.code = false → m.code.toNat ≠ code →
      m.pec = s.mgmtPec m.code.toNat m.payload → s.mgmt code m ok legal run = s.answer 0xB []) ∧
    (m.code = 1 → m.pec = s.mgmtPec 1 m.payload → m.payload.length = 0 → exec (.getState m) s = .next (s.answer 0
      (leBytes 4 (s.view Reg.GLB_STATE).toNat ++ leBytes 4 (s.view Reg.GLB_STEP_NUM).toNat ++
        leBytes 4 (s.view Reg.BOOT_STAT).toNat ++ leBytes 4 (s.view Reg.FLT_STAT).toNat))) ∧
    (∀ j n, m.code = 2 → m.pec = s.mgmtPec 2 m.payload → j = marg m 0 1 → n = marg m 1 1 → m.payload.length = 2 →
        1 ≤ n →
      n ≤ 64 → j + n ≤ 256 → exec (.readSensors m) s = .next (s.answer 0
        ((List.range n).flatMap fun i => leBytes 4 (s.view (Reg.TEL_SENSOR (j + i))).toNat))) ∧
    (∀ a n, m.code = 3 → m.pec = s.mgmtPec 3 m.payload → a = marg m 0 4 → n = marg m 4 1 → m.payload.length = 5 →
        1 ≤ n →
      n ≤ 64 → s.mode ≠ 0 → exec (.readReg m) s = .next (s.answer 0
        ((List.range n).flatMap fun i => leBytes 4 (s.peek (a + 4 * i))))) ∧
    (∀ idx, m.code = 4 → m.pec = s.mgmtPec 4 m.payload → m.payload.length = 4 → s.mode ≠ 0 →
      idx = (if marg m 0 4 = 0xFFFFFFFF then (s.reg Reg.FLT_LOG_HEAD).toNat - 1 else marg m 0 4) →
      ((s.reg Reg.FLT_LOG_HEAD).toNat ≤ idx → exec (.readBreach m) s = .next (s.answer 0xD [])) ∧
      (idx < (s.reg Reg.FLT_LOG_HEAD).toNat → ∀ b,
        s.breaches[(s.reg Reg.FLT_LOG_HEAD).toNat - 1 - idx]? = some b →
        exec (.readBreach m) s = .next (s.answer 0 b.bytes))) ∧
    (m.code = 5 → m.pec = s.mgmtPec 5 m.payload → m.payload.length = 2 → s.mode ≠ 0 → exec (.setCap m) s =
      .next ((s.setReg Reg.PWR_CAP (BitVec.ofNat 32 (marg m 0 2))).answer 0 [])) ∧
    (m.code = 6 → m.pec = s.mgmtPec 6 m.payload → m.payload.length = 0 → exec (.getIdentity m) s = .next (s.answer 0
      (leBytes 2 (s.reg (Reg.CLV_NODE_ID 0)).toNat ++ leBytes 4 (s.reg Reg.SEC_STAT).toNat ++
        s.regBytes (Reg.SEC_ID_PUB 0) 33))) ∧
    (∀ args r lo hi, m.code = 7 → m.pec = s.mgmtPec 7 m.payload → 12 ≤ m.payload.length → args = marg m 0 12 →
      flashBad args (m.payload.length - 12) = none → s.mode = 1 ∨ s.mode = 6 →
      r = s.flashOp args (m.payload.drop 12) → (lo, hi) = flashTime (fld args 7 0) →
      exec (.flash m) s = .next (r.2.answerIn lo hi r.1.1 r.1.2.2) ∧
        (fld args 7 0 = 6 → exec (.flash m) s =
          .next (s.answerIn lo hi 0 (flashBytes s.flash (fld args 63 32) (fld args 79 64)))) ∧
        (∀ a, fld args 7 0 = 0 →
          s.inWritable (fld args 15 8) (fld args 63 32) (m.payload.length - 12) = some a →
          exec (.flash m) s = .next ((s.flashProgram a (m.payload.drop 12)).answerIn lo hi 0 []))) ∧
    (∀ k, m.code = 8 → m.pec = s.mgmtPec 8 m.payload → m.payload.length = 6 → k = marg m 0 1 → k ≤ 7 → marg m 2 1 ≤ 1 →
      s.mode ≠ 0 → ∃ t : State, exec (.setAlert m) s = .next t ∧
        t.reg (Reg.TEL_ALERT_SEL k) = BitVec.ofNat 32 (marg m 2 1 * 2 ^ 31 + marg m 1 1) ∧
        t.reg (Reg.TEL_ALERT_VAL k) = BitVec.ofNat 32 (marg m 3 3) ∧ t.mem = s.mem ∧ t.mgmtRsp = (0, []) ∧
        s.now + 20 ≤ t.mgmtDue ∧ t.mgmtDue ≤ s.now + 1000) ∧
    (m.code = 9 → m.pec = s.mgmtPec 9 m.payload → m.payload.length = 1 → s.mode ≠ 0 → exec (.clearAlert m) s =
      .next (((s.setReg Reg.TEL_ALERT_STAT
        (s.reg Reg.TEL_ALERT_STAT &&& ~~~(BitVec.ofNat 32 (marg m 0 1)))).recheckAlerts (marg m 0 1)).answer 0 [])))

/-- The test access port (R490 to R493): an instruction that takes the pins is loaded in `IDLE` and `RETIRED`
only, and is `BYPASS` with the refusal noted elsewhere; the others load in every state; a scan shifts the data
register of the instruction: the boundary register, the identification word, or the bypass bit. -/
def Obligations.TestPortScans : Prop :=
  ∀ s : State,
    exec .tapReset s = .next { s with tap := Tap.reset } ∧
    (s.power = .good →
      (∀ load : TapIns → Bool → State, (∀ i r, load i r =
          { s with tap := { s.tap with ins := i, refused := r, tdo := s.tap.irCapture } }) →
        (s.mode = 1 ∨ s.mode = 6 → exec .extest s = .next (load .extest false) ∧
          exec .clamp s = .next (load .clamp false) ∧ exec .highz s = .next (load .highz false)) ∧
        (¬(s.mode = 1 ∨ s.mode = 6) → exec .extest s = .next (load .bypass true) ∧
          exec .clamp s = .next (load .bypass true) ∧ exec .highz s = .next (load .bypass true)) ∧
        exec .samplePreload s = .next (load .sample false) ∧
        exec .idcode s = .next (load .idcode false) ∧
        (∀ code : Byte, 4 < code.toNat → exec (.bypass code) s = .next (load .bypass false))) ∧
      (∀ (tdi : List Bool) (pins : BitVec 12), ∃ t : State,
        exec (.dataRegisterScan tdi pins) s = .next t ∧ t = { s with tap := t.tap } ∧
          t.tap.ins = s.tap.ins ∧
          (s.tap.ins = .extest ∨ s.tap.ins = .sample →
            t.tap.tdo = (shiftBits (s.boundaryCapture pins) tdi).1 ∧
            t.tap.boundary = bits12 (shiftBits (s.boundaryCapture pins) tdi).2) ∧
          (s.tap.ins = .idcode → t.tap.tdo = (shiftBits (bitsOf s.idWord 32) tdi).1 ∧
            t.tap.boundary = s.tap.boundary) ∧
          (s.tap.ins = .clamp ∨ s.tap.ins = .highz ∨ s.tap.ins = .bypass →
            t.tap.tdo = (shiftBits [false] tdi).1 ∧ t.tap.boundary = s.tap.boundary)))
end

