-- ==== Sys2Proof/Laws/Maps.lean ====
section
/-! SUPPORT. Laws of the sparse maps and of memory: what a read gives after a write, and that every
operation keeps the canonical form. -/

namespace Sys2Proof.Machine

open Sys2Proof

/-- The canonical form in words. -/
theorem SMap.wf_iff {α : Type} [DecidableEq α] (d : Nat → α) (m : SMap α) :
    SMap.wf d m = true ↔ (m.map Prod.fst).Pairwise (· < ·) ∧ ∀ e ∈ m, e.2 ≠ d e.1 := by
  simp [SMap.wf, List.all_eq_true]

theorem SMap.wf_nil {α : Type} [DecidableEq α] (d : Nat → α) : SMap.wf d [] = true := by
  simp [SMap.wf]

/-- Dropping entries keeps the form. -/
theorem SMap.wf_filter {α : Type} [DecidableEq α] {d : Nat → α} {m : SMap α} (h : SMap.wf d m = true)
    (p : Nat × α → Bool) : SMap.wf d (m.filter p) = true := by
  rw [SMap.wf_iff] at *
  exact ⟨h.1.sublist (List.filter_sublist.map _), fun e he => h.2 e (List.mem_filter.1 he).1⟩

theorem SMap.wf_erase {α : Type} [DecidableEq α] {d : Nat → α} {m : SMap α} (h : SMap.wf d m = true)
    (k : Nat) : SMap.wf d (SMap.erase m k) = true := SMap.wf_filter h _

theorem SMap.mem_insert {α : Type} {m : SMap α} {k : Nat} {v : α} {e : Nat × α} :
    e ∈ SMap.insert m k v ↔ e = (k, v) ∨ e ∈ m := by
  induction m with
  | nil => simp [SMap.insert]
  | cons x m ih =>
    obtain ⟨j, w⟩ := x
    simp only [SMap.insert]
    split
    · simp
    · simp only [List.mem_cons, ih]; tauto

theorem SMap.sorted_insert {α : Type} {m : SMap α} {k : Nat} {v : α}
    (h : (m.map Prod.fst).Pairwise (· < ·)) (hk : ∀ e ∈ m, e.1 ≠ k) :
    ((SMap.insert m k v).map Prod.fst).Pairwise (· < ·) := by
  induction m with
  | nil => simp [SMap.insert]
  | cons x m ih =>
    obtain ⟨j, w⟩ := x
    simp only [List.map_cons, List.pairwise_cons, List.mem_map] at h
    simp only [SMap.insert]
    split
    · rename_i hlt
      simp only [List.map_cons, List.pairwise_cons, List.mem_cons, List.mem_map]
      refine ⟨?_, h.1, h.2⟩
      rintro a (rfl | ⟨e, he, rfl⟩)
      · exact hlt
      · exact Nat.lt_trans hlt (h.1 _ ⟨e, he, rfl⟩)
    · rename_i hge
      have hjk : j < k := by
        have := hk (j, w) (by simp)
        simp only at this
        omega
      simp only [List.map_cons, List.pairwise_cons, List.mem_map]
      refine ⟨?_, ih h.2 fun e he => hk e (by simp [he])⟩
      rintro a ⟨e, he, rfl⟩
      rcases SMap.mem_insert.1 he with rfl | he
      · exact hjk
      · exact h.1 _ ⟨e, he, rfl⟩

/-- A write keeps the form. -/
theorem SMap.wf_set {α : Type} [DecidableEq α] {d : Nat → α} {m : SMap α} (h : SMap.wf d m = true)
    (k : Nat) (v : α) : SMap.wf d (SMap.set d m k v) = true := by
  unfold SMap.set
  split
  · exact SMap.wf_erase h k
  · rename_i hv
    have he := (SMap.wf_iff d _).1 (SMap.wf_erase h k)
    refine (SMap.wf_iff d _).2 ⟨SMap.sorted_insert he.1 ?_, ?_⟩
    · intro e hm
      simpa using (List.mem_filter.1 hm).2
    · intro e hm
      rcases SMap.mem_insert.1 hm with rfl | hm
      · exact hv
      · exact he.2 e hm

theorem SMap.find_erase {α : Type} (m : SMap α) (k j : Nat) :
    SMap.find (SMap.erase m k) j = if j = k then none else SMap.find m j := by
  induction m with
  | nil => simp [SMap.erase, SMap.find]
  | cons x m ih =>
    obtain ⟨i, w⟩ := x
    unfold SMap.erase at *
    by_cases hik : i = k
    · subst hik
      by_cases hj : j = i
      · subst hj
        rw [List.filter_cons_of_neg (by simp), ih]; simp
      · have hij : ¬ i = j := fun h => hj h.symm
        rw [List.filter_cons_of_neg (by simp), ih]; simp [SMap.find, hij]
    · rw [List.filter_cons_of_pos (by simpa using hik)]
      simp only [SMap.find, ih]
      by_cases hij : i = j
      · subst hij; simp [hik]
      · simp [hij]

theorem SMap.find_insert {α : Type} (m : SMap α) (k j : Nat) (v : α)
    (hk : SMap.find m k = none) :
    SMap.find (SMap.insert m k v) j = if j = k then some v else SMap.find m j := by
  induction m with
  | nil => simp [SMap.insert, SMap.find, eq_comm]
  | cons x m ih =>
    obtain ⟨i, w⟩ := x
    have hik : i ≠ k := by
      intro h; simp [SMap.find, h] at hk
    have hm : SMap.find m k = none := by simpa [SMap.find, hik] using hk
    simp only [SMap.insert]
    split
    · simp [SMap.find, eq_comm]
    · simp only [SMap.find, ih hm]
      by_cases hij : i = j
      · subst hij; simp [hik]
      · simp [hij]

/-- What a key reads as after a write: the value at that key, and what it was everywhere else. -/
theorem SMap.get_set {α : Type} [DecidableEq α] (d : Nat → α) (m : SMap α) (k j : Nat) (v : α) :
    SMap.get d (SMap.set d m k v) j = if j = k then v else SMap.get d m j := by
  unfold SMap.get SMap.set
  split
  · rename_i hv
    rw [SMap.find_erase]
    split
    · rename_i hj; subst hj; simp [hv]
    · rfl
  · rw [SMap.find_insert _ _ _ _ (by simp [SMap.find_erase]), SMap.find_erase]
    split <;> simp_all

@[simp] theorem SMap.get_set_self {α : Type} [DecidableEq α] (d : Nat → α) (m : SMap α) (k : Nat)
    (v : α) : SMap.get d (SMap.set d m k v) k = v := by simp [SMap.get_set]

theorem SMap.get_set_ne {α : Type} [DecidableEq α] (d : Nat → α) (m : SMap α) {k j : Nat} (v : α)
    (h : j ≠ k) : SMap.get d (SMap.set d m k v) j = SMap.get d m j := by simp [SMap.get_set, h]

/-! ### Memory -/

theorem Memory.wf_write {m : Memory} (h : Memory.wf m = true) (a : Nat) (l : List Byte) :
    Memory.wf (Memory.write m a l) = true := by
  induction l generalizing m a with
  | nil => exact h
  | cons b l ih => exact ih (SMap.wf_set h a b) (a + 1)

theorem flash_wf_write {m : Memory} (h : SMap.wf flashDefault m = true) (a : Nat) (l : List Byte) :
    SMap.wf flashDefault (flashWriteBytes m a l) = true := by
  induction l generalizing m a with
  | nil => exact h
  | cons b l ih => exact ih (SMap.wf_set h a b) (a + 1)

/-- A byte outside the bytes written reads as before. -/
theorem Memory.byte_write_out (m : Memory) (a : Nat) (l : List Byte) (j : Nat)
    (h : j < a ∨ a + l.length ≤ j) : Memory.byte (Memory.write m a l) j = Memory.byte m j := by
  induction l generalizing m a with
  | nil => rfl
  | cons b l ih =>
    simp only [List.length_cons] at h
    unfold Memory.write
    rw [ih _ _ (by omega)]
    exact SMap.get_set_ne _ _ _ (by omega)

/-- A byte of those written reads as written. -/
theorem Memory.byte_write_in (m : Memory) (a : Nat) (l : List Byte) (i : Nat) (h : i < l.length) :
    Memory.byte (Memory.write m a l) (a + i) = l[i] := by
  induction l generalizing m a i with
  | nil => simp at h
  | cons b l ih =>
    unfold Memory.write
    cases i with
    | zero =>
      rw [Memory.byte_write_out _ _ _ _ (by omega)]
      simp [Memory.byte]
    | succ i =>
      have := ih (SMap.set memDefault m a b) (a + 1) i (by simpa using h)
      rw [show a + (i + 1) = a + 1 + i by omega, this]
      simp

/-- Reading back the bytes written. -/
theorem Memory.bytes_write (m : Memory) (a : Nat) (l : List Byte) :
    Memory.bytes (Memory.write m a l) a l.length = l := by
  apply List.ext_getElem
  · have : ∀ (m : Memory) (a n : Nat), (Memory.bytes m a n).length = n := by
      intro m a n; induction n generalizing a with
      | zero => rfl
      | succ n ih => simp [Memory.bytes, ih]
    simp [this]
  · intro i h1 h2
    have key : ∀ (M : Memory) (n a i : Nat) (h : i < (Memory.bytes M a n).length),
        (Memory.bytes M a n)[i] = Memory.byte M (a + i) := by
      intro M n
      induction n with
      | zero => intro a i h; simp [Memory.bytes] at h
      | succ n ih =>
        intro a i h
        cases i with
        | zero => simp [Memory.bytes]
        | succ i =>
          simp only [Memory.bytes, List.getElem_cons_succ]
          rw [ih]; congr 1; omega
    rw [key, Memory.byte_write_in _ _ _ _ h2]

end Sys2Proof.Machine
end

