-- ==== Sys2Proof/Laws/State.lean ====
section
/-! SUPPORT. One lemma for each update of the state and each field: what an update of one place leaves, and
what it reads as afterwards. -/

namespace Sys2Proof.Machine

open Sys2Proof

/-! ### `setReg` -/

section
variable (s : State) (k : Nat) (v : Word)

@[simp] theorem State.setReg_latch : (s.setReg k v).latch = s.latch := rfl
@[simp] theorem State.setReg_readData : (s.setReg k v).readData = s.readData := rfl
@[simp] theorem State.setReg_evcStage : (s.setReg k v).evcStage = s.evcStage := rfl
@[simp] theorem State.setReg_evcMsgs : (s.setReg k v).evcMsgs = s.evcMsgs := rfl
@[simp] theorem State.setReg_thrFired : (s.setReg k v).thrFired = s.thrFired := rfl
@[simp] theorem State.setReg_mem : (s.setReg k v).mem = s.mem := rfl
@[simp] theorem State.setReg_poison : (s.setReg k v).poison = s.poison := rfl
@[simp] theorem State.setReg_islands : (s.setReg k v).islands = s.islands := rfl
@[simp] theorem State.setReg_cores : (s.setReg k v).cores = s.cores := rfl
@[simp] theorem State.setReg_dies : (s.setReg k v).dies = s.dies := rfl
@[simp] theorem State.setReg_arbs : (s.setReg k v).arbs = s.arbs := rfl
@[simp] theorem State.setReg_chans : (s.setReg k v).chans = s.chans := rfl
@[simp] theorem State.setReg_bridges : (s.setReg k v).bridges = s.bridges := rfl
@[simp] theorem State.setReg_engines : (s.setReg k v).engines = s.engines := rfl
@[simp] theorem State.setReg_links : (s.setReg k v).links = s.links := rfl
@[simp] theorem State.setReg_xfer : (s.setReg k v).xfer = s.xfer := rfl
@[simp] theorem State.setReg_txFlows : (s.setReg k v).txFlows = s.txFlows := rfl
@[simp] theorem State.setReg_rxFlows : (s.setReg k v).rxFlows = s.rxFlows := rfl
@[simp] theorem State.setReg_reads : (s.setReg k v).reads = s.reads := rfl
@[simp] theorem State.setReg_nextTag : (s.setReg k v).nextTag = s.nextTag := rfl
@[simp] theorem State.setReg_staged : (s.setReg k v).staged = s.staged := rfl
@[simp] theorem State.setReg_norms : (s.setReg k v).norms = s.norms := rfl
@[simp] theorem State.setReg_allocs : (s.setReg k v).allocs = s.allocs := rfl
@[simp] theorem State.setReg_freed : (s.setReg k v).freed = s.freed := rfl
@[simp] theorem State.setReg_descs : (s.setReg k v).descs = s.descs := rfl
@[simp] theorem State.setReg_prog : (s.setReg k v).prog = s.prog := rfl
@[simp] theorem State.setReg_feeds : (s.setReg k v).feeds = s.feeds := rfl
@[simp] theorem State.setReg_windows : (s.setReg k v).windows = s.windows := rfl
@[simp] theorem State.setReg_ctl : (s.setReg k v).ctl = s.ctl := rfl
@[simp] theorem State.setReg_hostQs : (s.setReg k v).hostQs = s.hostQs := rfl
@[simp] theorem State.setReg_evtSeq : (s.setReg k v).evtSeq = s.evtSeq := rfl
@[simp] theorem State.setReg_log : (s.setReg k v).log = s.log := rfl
@[simp] theorem State.setReg_breaches : (s.setReg k v).breaches = s.breaches := rfl
@[simp] theorem State.setReg_breachQ : (s.setReg k v).breachQ = s.breachQ := rfl
@[simp] theorem State.setReg_recWindows : (s.setReg k v).recWindows = s.recWindows := rfl
@[simp] theorem State.setReg_dumpWritten : (s.setReg k v).dumpWritten = s.dumpWritten := rfl
@[simp] theorem State.setReg_dumpReleased : (s.setReg k v).dumpReleased = s.dumpReleased := rfl
@[simp] theorem State.setReg_dumpKey : (s.setReg k v).dumpKey = s.dumpKey := rfl
@[simp] theorem State.setReg_fatal : (s.setReg k v).fatal = s.fatal := rfl
@[simp] theorem State.setReg_lostPolders : (s.setReg k v).lostPolders = s.lostPolders := rfl
@[simp] theorem State.setReg_standby : (s.setReg k v).standby = s.standby := rfl
@[simp] theorem State.setReg_resync : (s.setReg k v).resync = s.resync := rfl
@[simp] theorem State.setReg_restore : (s.setReg k v).restore = s.restore := rfl
@[simp] theorem State.setReg_restored : (s.setReg k v).restored = s.restored := rfl
@[simp] theorem State.setReg_flash : (s.setReg k v).flash = s.flash := rfl
@[simp] theorem State.setReg_flashPart : (s.setReg k v).flashPart = s.flashPart := rfl
@[simp] theorem State.setReg_activated : (s.setReg k v).activated = s.activated := rfl
@[simp] theorem State.setReg_otp : (s.setReg k v).otp = s.otp := rfl
@[simp] theorem State.setReg_cfg : (s.setReg k v).cfg = s.cfg := rfl
@[simp] theorem State.setReg_fwVerified : (s.setReg k v).fwVerified = s.fwVerified := rfl
@[simp] theorem State.setReg_cfgVerified : (s.setReg k v).cfgVerified = s.cfgVerified := rfl
@[simp] theorem State.setReg_healthDirty : (s.setReg k v).healthDirty = s.healthDirty := rfl
@[simp] theorem State.setReg_healthGen : (s.setReg k v).healthGen = s.healthGen := rfl
@[simp] theorem State.setReg_power : (s.setReg k v).power = s.power := rfl
@[simp] theorem State.setReg_rails : (s.setReg k v).rails = s.rails := rfl
@[simp] theorem State.setReg_railsOff : (s.setReg k v).railsOff = s.railsOff := rfl
@[simp] theorem State.setReg_pwrStates : (s.setReg k v).pwrStates = s.pwrStates := rfl
@[simp] theorem State.setReg_energy : (s.setReg k v).energy = s.energy := rfl
@[simp] theorem State.setReg_inputAt : (s.setReg k v).inputAt = s.inputAt := rfl
@[simp] theorem State.setReg_actThrottle : (s.setReg k v).actThrottle = s.actThrottle := rfl
@[simp] theorem State.setReg_resetHeld : (s.setReg k v).resetHeld = s.resetHeld := rfl
@[simp] theorem State.setReg_thermLatch : (s.setReg k v).thermLatch = s.thermLatch := rfl
@[simp] theorem State.setReg_houseRail : (s.setReg k v).houseRail = s.houseRail := rfl
@[simp] theorem State.setReg_straps : (s.setReg k v).straps = s.straps := rfl
@[simp] theorem State.setReg_tap : (s.setReg k v).tap = s.tap := rfl
@[simp] theorem State.setReg_mgmtRsp : (s.setReg k v).mgmtRsp = s.mgmtRsp := rfl
@[simp] theorem State.setReg_mgmtDue : (s.setReg k v).mgmtDue = s.mgmtDue := rfl
@[simp] theorem State.setReg_now : (s.setReg k v).now = s.now := rfl
@[simp] theorem State.setReg_freeCtr : (s.setReg k v).freeCtr = s.freeCtr := rfl
@[simp] theorem State.setReg_pending : (s.setReg k v).pending = s.pending := rfl
@[simp] theorem State.island_setReg (j : Nat) : (s.setReg k v).island j = s.island j := rfl
@[simp] theorem State.core_setReg (j : Nat) : (s.setReg k v).core j = s.core j := rfl
@[simp] theorem State.die_setReg (j : Nat) : (s.setReg k v).die j = s.die j := rfl
@[simp] theorem State.arb_setReg (j : Nat) : (s.setReg k v).arb j = s.arb j := rfl
@[simp] theorem State.chan_setReg (j : Nat) : (s.setReg k v).chan j = s.chan j := rfl
@[simp] theorem State.bridge_setReg (j : Nat) : (s.setReg k v).bridge j = s.bridge j := rfl
@[simp] theorem State.engine_setReg (j : Nat) : (s.setReg k v).engine j = s.engine j := rfl
@[simp] theorem State.link_setReg (j : Nat) : (s.setReg k v).link j = s.link j := rfl
@[simp] theorem State.txFlow_setReg (j : Nat) : (s.setReg k v).txFlow j = s.txFlow j := rfl
@[simp] theorem State.rxFlow_setReg (j : Nat) : (s.setReg k v).rxFlow j = s.rxFlow j := rfl
@[simp] theorem State.hostQ_setReg (j : Nat) : (s.setReg k v).hostQ j = s.hostQ j := rfl
@[simp] theorem State.alloc_setReg (j : Nat) : (s.setReg k v).alloc j = s.alloc j := rfl
@[simp] theorem State.desc_setReg (j : Nat) : (s.setReg k v).desc j = s.desc j := rfl
@[simp] theorem State.feed_setReg (j : Nat) : (s.setReg k v).feed j = s.feed j := rfl
@[simp] theorem State.window_setReg (j : Nat) : (s.setReg k v).window j = s.window j := rfl
@[simp] theorem State.reg_setReg_self : (s.setReg k v).reg k = v := SMap.get_set_self _ _ k v
theorem State.reg_setReg (j : Nat) : (s.setReg k v).reg j = if j = k then v else s.reg j :=
  SMap.get_set _ _ k j v
theorem State.reg_setReg_ne (j : Nat) (h : j ≠ k) : (s.setReg k v).reg j = s.reg j := SMap.get_set_ne _ _ v h

end

/-! ### `setIsland` -/

section
variable (s : State) (k : Nat) (v : Island)

@[simp] theorem State.setIsland_regs : (s.setIsland k v).regs = s.regs := rfl
@[simp] theorem State.setIsland_latch : (s.setIsland k v).latch = s.latch := rfl
@[simp] theorem State.setIsland_readData : (s.setIsland k v).readData = s.readData := rfl
@[simp] theorem State.setIsland_evcStage : (s.setIsland k v).evcStage = s.evcStage := rfl
@[simp] theorem State.setIsland_evcMsgs : (s.setIsland k v).evcMsgs = s.evcMsgs := rfl
@[simp] theorem State.setIsland_thrFired : (s.setIsland k v).thrFired = s.thrFired := rfl
@[simp] theorem State.setIsland_mem : (s.setIsland k v).mem = s.mem := rfl
@[simp] theorem State.setIsland_poison : (s.setIsland k v).poison = s.poison := rfl
@[simp] theorem State.setIsland_cores : (s.setIsland k v).cores = s.cores := rfl
@[simp] theorem State.setIsland_dies : (s.setIsland k v).dies = s.dies := rfl
@[simp] theorem State.setIsland_arbs : (s.setIsland k v).arbs = s.arbs := rfl
@[simp] theorem State.setIsland_chans : (s.setIsland k v).chans = s.chans := rfl
@[simp] theorem State.setIsland_bridges : (s.setIsland k v).bridges = s.bridges := rfl
@[simp] theorem State.setIsland_engines : (s.setIsland k v).engines = s.engines := rfl
@[simp] theorem State.setIsland_links : (s.setIsland k v).links = s.links := rfl
@[simp] theorem State.setIsland_xfer : (s.setIsland k v).xfer = s.xfer := rfl
@[simp] theorem State.setIsland_txFlows : (s.setIsland k v).txFlows = s.txFlows := rfl
@[simp] theorem State.setIsland_rxFlows : (s.setIsland k v).rxFlows = s.rxFlows := rfl
@[simp] theorem State.setIsland_reads : (s.setIsland k v).reads = s.reads := rfl
@[simp] theorem State.setIsland_nextTag : (s.setIsland k v).nextTag = s.nextTag := rfl
@[simp] theorem State.setIsland_staged : (s.setIsland k v).staged = s.staged := rfl
@[simp] theorem State.setIsland_norms : (s.setIsland k v).norms = s.norms := rfl
@[simp] theorem State.setIsland_allocs : (s.setIsland k v).allocs = s.allocs := rfl
@[simp] theorem State.setIsland_freed : (s.setIsland k v).freed = s.freed := rfl
@[simp] theorem State.setIsland_descs : (s.setIsland k v).descs = s.descs := rfl
@[simp] theorem State.setIsland_prog : (s.setIsland k v).prog = s.prog := rfl
@[simp] theorem State.setIsland_feeds : (s.setIsland k v).feeds = s.feeds := rfl
@[simp] theorem State.setIsland_windows : (s.setIsland k v).windows = s.windows := rfl
@[simp] theorem State.setIsland_ctl : (s.setIsland k v).ctl = s.ctl := rfl
@[simp] theorem State.setIsland_hostQs : (s.setIsland k v).hostQs = s.hostQs := rfl
@[simp] theorem State.setIsland_evtSeq : (s.setIsland k v).evtSeq = s.evtSeq := rfl
@[simp] theorem State.setIsland_log : (s.setIsland k v).log = s.log := rfl
@[simp] theorem State.setIsland_breaches : (s.setIsland k v).breaches = s.breaches := rfl
@[simp] theorem State.setIsland_breachQ : (s.setIsland k v).breachQ = s.breachQ := rfl
@[simp] theorem State.setIsland_recWindows : (s.setIsland k v).recWindows = s.recWindows := rfl
@[simp] theorem State.setIsland_dumpWritten : (s.setIsland k v).dumpWritten = s.dumpWritten := rfl
@[simp] theorem State.setIsland_dumpReleased : (s.setIsland k v).dumpReleased = s.dumpReleased := rfl
@[simp] theorem State.setIsland_dumpKey : (s.setIsland k v).dumpKey = s.dumpKey := rfl
@[simp] theorem State.setIsland_fatal : (s.setIsland k v).fatal = s.fatal := rfl
@[simp] theorem State.setIsland_lostPolders : (s.setIsland k v).lostPolders = s.lostPolders := rfl
@[simp] theorem State.setIsland_standby : (s.setIsland k v).standby = s.standby := rfl
@[simp] theorem State.setIsland_resync : (s.setIsland k v).resync = s.resync := rfl
@[simp] theorem State.setIsland_restore : (s.setIsland k v).restore = s.restore := rfl
@[simp] theorem State.setIsland_restored : (s.setIsland k v).restored = s.restored := rfl
@[simp] theorem State.setIsland_flash : (s.setIsland k v).flash = s.flash := rfl
@[simp] theorem State.setIsland_flashPart : (s.setIsland k v).flashPart = s.flashPart := rfl
@[simp] theorem State.setIsland_activated : (s.setIsland k v).activated = s.activated := rfl
@[simp] theorem State.setIsland_otp : (s.setIsland k v).otp = s.otp := rfl
@[simp] theorem State.setIsland_cfg : (s.setIsland k v).cfg = s.cfg := rfl
@[simp] theorem State.setIsland_fwVerified : (s.setIsland k v).fwVerified = s.fwVerified := rfl
@[simp] theorem State.setIsland_cfgVerified : (s.setIsland k v).cfgVerified = s.cfgVerified := rfl
@[simp] theorem State.setIsland_healthDirty : (s.setIsland k v).healthDirty = s.healthDirty := rfl
@[simp] theorem State.setIsland_healthGen : (s.setIsland k v).healthGen = s.healthGen := rfl
@[simp] theorem State.setIsland_power : (s.setIsland k v).power = s.power := rfl
@[simp] theorem State.setIsland_rails : (s.setIsland k v).rails = s.rails := rfl
@[simp] theorem State.setIsland_railsOff : (s.setIsland k v).railsOff = s.railsOff := rfl
@[simp] theorem State.setIsland_pwrStates : (s.setIsland k v).pwrStates = s.pwrStates := rfl
@[simp] theorem State.setIsland_energy : (s.setIsland k v).energy = s.energy := rfl
@[simp] theorem State.setIsland_inputAt : (s.setIsland k v).inputAt = s.inputAt := rfl
@[simp] theorem State.setIsland_actThrottle : (s.setIsland k v).actThrottle = s.actThrottle := rfl
@[simp] theorem State.setIsland_resetHeld : (s.setIsland k v).resetHeld = s.resetHeld := rfl
@[simp] theorem State.setIsland_thermLatch : (s.setIsland k v).thermLatch = s.thermLatch := rfl
@[simp] theorem State.setIsland_houseRail : (s.setIsland k v).houseRail = s.houseRail := rfl
@[simp] theorem State.setIsland_straps : (s.setIsland k v).straps = s.straps := rfl
@[simp] theorem State.setIsland_tap : (s.setIsland k v).tap = s.tap := rfl
@[simp] theorem State.setIsland_mgmtRsp : (s.setIsland k v).mgmtRsp = s.mgmtRsp := rfl
@[simp] theorem State.setIsland_mgmtDue : (s.setIsland k v).mgmtDue = s.mgmtDue := rfl
@[simp] theorem State.setIsland_now : (s.setIsland k v).now = s.now := rfl
@[simp] theorem State.setIsland_freeCtr : (s.setIsland k v).freeCtr = s.freeCtr := rfl
@[simp] theorem State.setIsland_pending : (s.setIsland k v).pending = s.pending := rfl
@[simp] theorem State.reg_setIsland (j : Nat) : (s.setIsland k v).reg j = s.reg j := rfl
@[simp] theorem State.core_setIsland (j : Nat) : (s.setIsland k v).core j = s.core j := rfl
@[simp] theorem State.die_setIsland (j : Nat) : (s.setIsland k v).die j = s.die j := rfl
@[simp] theorem State.arb_setIsland (j : Nat) : (s.setIsland k v).arb j = s.arb j := rfl
@[simp] theorem State.chan_setIsland (j : Nat) : (s.setIsland k v).chan j = s.chan j := rfl
@[simp] theorem State.bridge_setIsland (j : Nat) : (s.setIsland k v).bridge j = s.bridge j := rfl
@[simp] theorem State.engine_setIsland (j : Nat) : (s.setIsland k v).engine j = s.engine j := rfl
@[simp] theorem State.link_setIsland (j : Nat) : (s.setIsland k v).link j = s.link j := rfl
@[simp] theorem State.txFlow_setIsland (j : Nat) : (s.setIsland k v).txFlow j = s.txFlow j := rfl
@[simp] theorem State.rxFlow_setIsland (j : Nat) : (s.setIsland k v).rxFlow j = s.rxFlow j := rfl
@[simp] theorem State.hostQ_setIsland (j : Nat) : (s.setIsland k v).hostQ j = s.hostQ j := rfl
@[simp] theorem State.alloc_setIsland (j : Nat) : (s.setIsland k v).alloc j = s.alloc j := rfl
@[simp] theorem State.desc_setIsland (j : Nat) : (s.setIsland k v).desc j = s.desc j := rfl
@[simp] theorem State.feed_setIsland (j : Nat) : (s.setIsland k v).feed j = s.feed j := rfl
@[simp] theorem State.window_setIsland (j : Nat) : (s.setIsland k v).window j = s.window j := rfl
@[simp] theorem State.island_setIsland_self : (s.setIsland k v).island k = v := SMap.get_set_self _ _ k v
theorem State.island_setIsland (j : Nat) : (s.setIsland k v).island j = if j = k then v else s.island j :=
  SMap.get_set _ _ k j v
theorem State.island_setIsland_ne (j : Nat) (h : j ≠ k) : (s.setIsland k v).island j = s.island j := SMap.get_set_ne _ _ v h

end

/-! ### `setCore` -/

section
variable (s : State) (k : Nat) (v : CoreSt)

@[simp] theorem State.setCore_regs : (s.setCore k v).regs = s.regs := rfl
@[simp] theorem State.setCore_latch : (s.setCore k v).latch = s.latch := rfl
@[simp] theorem State.setCore_readData : (s.setCore k v).readData = s.readData := rfl
@[simp] theorem State.setCore_evcStage : (s.setCore k v).evcStage = s.evcStage := rfl
@[simp] theorem State.setCore_evcMsgs : (s.setCore k v).evcMsgs = s.evcMsgs := rfl
@[simp] theorem State.setCore_thrFired : (s.setCore k v).thrFired = s.thrFired := rfl
@[simp] theorem State.setCore_mem : (s.setCore k v).mem = s.mem := rfl
@[simp] theorem State.setCore_poison : (s.setCore k v).poison = s.poison := rfl
@[simp] theorem State.setCore_islands : (s.setCore k v).islands = s.islands := rfl
@[simp] theorem State.setCore_dies : (s.setCore k v).dies = s.dies := rfl
@[simp] theorem State.setCore_arbs : (s.setCore k v).arbs = s.arbs := rfl
@[simp] theorem State.setCore_chans : (s.setCore k v).chans = s.chans := rfl
@[simp] theorem State.setCore_bridges : (s.setCore k v).bridges = s.bridges := rfl
@[simp] theorem State.setCore_engines : (s.setCore k v).engines = s.engines := rfl
@[simp] theorem State.setCore_links : (s.setCore k v).links = s.links := rfl
@[simp] theorem State.setCore_xfer : (s.setCore k v).xfer = s.xfer := rfl
@[simp] theorem State.setCore_txFlows : (s.setCore k v).txFlows = s.txFlows := rfl
@[simp] theorem State.setCore_rxFlows : (s.setCore k v).rxFlows = s.rxFlows := rfl
@[simp] theorem State.setCore_reads : (s.setCore k v).reads = s.reads := rfl
@[simp] theorem State.setCore_nextTag : (s.setCore k v).nextTag = s.nextTag := rfl
@[simp] theorem State.setCore_staged : (s.setCore k v).staged = s.staged := rfl
@[simp] theorem State.setCore_norms : (s.setCore k v).norms = s.norms := rfl
@[simp] theorem State.setCore_allocs : (s.setCore k v).allocs = s.allocs := rfl
@[simp] theorem State.setCore_freed : (s.setCore k v).freed = s.freed := rfl
@[simp] theorem State.setCore_descs : (s.setCore k v).descs = s.descs := rfl
@[simp] theorem State.setCore_prog : (s.setCore k v).prog = s.prog := rfl
@[simp] theorem State.setCore_feeds : (s.setCore k v).feeds = s.feeds := rfl
@[simp] theorem State.setCore_windows : (s.setCore k v).windows = s.windows := rfl
@[simp] theorem State.setCore_ctl : (s.setCore k v).ctl = s.ctl := rfl
@[simp] theorem State.setCore_hostQs : (s.setCore k v).hostQs = s.hostQs := rfl
@[simp] theorem State.setCore_evtSeq : (s.setCore k v).evtSeq = s.evtSeq := rfl
@[simp] theorem State.setCore_log : (s.setCore k v).log = s.log := rfl
@[simp] theorem State.setCore_breaches : (s.setCore k v).breaches = s.breaches := rfl
@[simp] theorem State.setCore_breachQ : (s.setCore k v).breachQ = s.breachQ := rfl
@[simp] theorem State.setCore_recWindows : (s.setCore k v).recWindows = s.recWindows := rfl
@[simp] theorem State.setCore_dumpWritten : (s.setCore k v).dumpWritten = s.dumpWritten := rfl
@[simp] theorem State.setCore_dumpReleased : (s.setCore k v).dumpReleased = s.dumpReleased := rfl
@[simp] theorem State.setCore_dumpKey : (s.setCore k v).dumpKey = s.dumpKey := rfl
@[simp] theorem State.setCore_fatal : (s.setCore k v).fatal = s.fatal := rfl
@[simp] theorem State.setCore_lostPolders : (s.setCore k v).lostPolders = s.lostPolders := rfl
@[simp] theorem State.setCore_standby : (s.setCore k v).standby = s.standby := rfl
@[simp] theorem State.setCore_resync : (s.setCore k v).resync = s.resync := rfl
@[simp] theorem State.setCore_restore : (s.setCore k v).restore = s.restore := rfl
@[simp] theorem State.setCore_restored : (s.setCore k v).restored = s.restored := rfl
@[simp] theorem State.setCore_flash : (s.setCore k v).flash = s.flash := rfl
@[simp] theorem State.setCore_flashPart : (s.setCore k v).flashPart = s.flashPart := rfl
@[simp] theorem State.setCore_activated : (s.setCore k v).activated = s.activated := rfl
@[simp] theorem State.setCore_otp : (s.setCore k v).otp = s.otp := rfl
@[simp] theorem State.setCore_cfg : (s.setCore k v).cfg = s.cfg := rfl
@[simp] theorem State.setCore_fwVerified : (s.setCore k v).fwVerified = s.fwVerified := rfl
@[simp] theorem State.setCore_cfgVerified : (s.setCore k v).cfgVerified = s.cfgVerified := rfl
@[simp] theorem State.setCore_healthDirty : (s.setCore k v).healthDirty = s.healthDirty := rfl
@[simp] theorem State.setCore_healthGen : (s.setCore k v).healthGen = s.healthGen := rfl
@[simp] theorem State.setCore_power : (s.setCore k v).power = s.power := rfl
@[simp] theorem State.setCore_rails : (s.setCore k v).rails = s.rails := rfl
@[simp] theorem State.setCore_railsOff : (s.setCore k v).railsOff = s.railsOff := rfl
@[simp] theorem State.setCore_pwrStates : (s.setCore k v).pwrStates = s.pwrStates := rfl
@[simp] theorem State.setCore_energy : (s.setCore k v).energy = s.energy := rfl
@[simp] theorem State.setCore_inputAt : (s.setCore k v).inputAt = s.inputAt := rfl
@[simp] theorem State.setCore_actThrottle : (s.setCore k v).actThrottle = s.actThrottle := rfl
@[simp] theorem State.setCore_resetHeld : (s.setCore k v).resetHeld = s.resetHeld := rfl
@[simp] theorem State.setCore_thermLatch : (s.setCore k v).thermLatch = s.thermLatch := rfl
@[simp] theorem State.setCore_houseRail : (s.setCore k v).houseRail = s.houseRail := rfl
@[simp] theorem State.setCore_straps : (s.setCore k v).straps = s.straps := rfl
@[simp] theorem State.setCore_tap : (s.setCore k v).tap = s.tap := rfl
@[simp] theorem State.setCore_mgmtRsp : (s.setCore k v).mgmtRsp = s.mgmtRsp := rfl
@[simp] theorem State.setCore_mgmtDue : (s.setCore k v).mgmtDue = s.mgmtDue := rfl
@[simp] theorem State.setCore_now : (s.setCore k v).now = s.now := rfl
@[simp] theorem State.setCore_freeCtr : (s.setCore k v).freeCtr = s.freeCtr := rfl
@[simp] theorem State.setCore_pending : (s.setCore k v).pending = s.pending := rfl
@[simp] theorem State.reg_setCore (j : Nat) : (s.setCore k v).reg j = s.reg j := rfl
@[simp] theorem State.island_setCore (j : Nat) : (s.setCore k v).island j = s.island j := rfl
@[simp] theorem State.die_setCore (j : Nat) : (s.setCore k v).die j = s.die j := rfl
@[simp] theorem State.arb_setCore (j : Nat) : (s.setCore k v).arb j = s.arb j := rfl
@[simp] theorem State.chan_setCore (j : Nat) : (s.setCore k v).chan j = s.chan j := rfl
@[simp] theorem State.bridge_setCore (j : Nat) : (s.setCore k v).bridge j = s.bridge j := rfl
@[simp] theorem State.engine_setCore (j : Nat) : (s.setCore k v).engine j = s.engine j := rfl
@[simp] theorem State.link_setCore (j : Nat) : (s.setCore k v).link j = s.link j := rfl
@[simp] theorem State.txFlow_setCore (j : Nat) : (s.setCore k v).txFlow j = s.txFlow j := rfl
@[simp] theorem State.rxFlow_setCore (j : Nat) : (s.setCore k v).rxFlow j = s.rxFlow j := rfl
@[simp] theorem State.hostQ_setCore (j : Nat) : (s.setCore k v).hostQ j = s.hostQ j := rfl
@[simp] theorem State.alloc_setCore (j : Nat) : (s.setCore k v).alloc j = s.alloc j := rfl
@[simp] theorem State.desc_setCore (j : Nat) : (s.setCore k v).desc j = s.desc j := rfl
@[simp] theorem State.feed_setCore (j : Nat) : (s.setCore k v).feed j = s.feed j := rfl
@[simp] theorem State.window_setCore (j : Nat) : (s.setCore k v).window j = s.window j := rfl
@[simp] theorem State.core_setCore_self : (s.setCore k v).core k = v := SMap.get_set_self _ _ k v
theorem State.core_setCore (j : Nat) : (s.setCore k v).core j = if j = k then v else s.core j :=
  SMap.get_set _ _ k j v
theorem State.core_setCore_ne (j : Nat) (h : j ≠ k) : (s.setCore k v).core j = s.core j := SMap.get_set_ne _ _ v h

end

/-! ### `setDie` -/

section
variable (s : State) (k : Nat) (v : DieSt)

@[simp] theorem State.setDie_regs : (s.setDie k v).regs = s.regs := rfl
@[simp] theorem State.setDie_latch : (s.setDie k v).latch = s.latch := rfl
@[simp] theorem State.setDie_readData : (s.setDie k v).readData = s.readData := rfl
@[simp] theorem State.setDie_evcStage : (s.setDie k v).evcStage = s.evcStage := rfl
@[simp] theorem State.setDie_evcMsgs : (s.setDie k v).evcMsgs = s.evcMsgs := rfl
@[simp] theorem State.setDie_thrFired : (s.setDie k v).thrFired = s.thrFired := rfl
@[simp] theorem State.setDie_mem : (s.setDie k v).mem = s.mem := rfl
@[simp] theorem State.setDie_poison : (s.setDie k v).poison = s.poison := rfl
@[simp] theorem State.setDie_islands : (s.setDie k v).islands = s.islands := rfl
@[simp] theorem State.setDie_cores : (s.setDie k v).cores = s.cores := rfl
@[simp] theorem State.setDie_arbs : (s.setDie k v).arbs = s.arbs := rfl
@[simp] theorem State.setDie_chans : (s.setDie k v).chans = s.chans := rfl
@[simp] theorem State.setDie_bridges : (s.setDie k v).bridges = s.bridges := rfl
@[simp] theorem State.setDie_engines : (s.setDie k v).engines = s.engines := rfl
@[simp] theorem State.setDie_links : (s.setDie k v).links = s.links := rfl
@[simp] theorem State.setDie_xfer : (s.setDie k v).xfer = s.xfer := rfl
@[simp] theorem State.setDie_txFlows : (s.setDie k v).txFlows = s.txFlows := rfl
@[simp] theorem State.setDie_rxFlows : (s.setDie k v).rxFlows = s.rxFlows := rfl
@[simp] theorem State.setDie_reads : (s.setDie k v).reads = s.reads := rfl
@[simp] theorem State.setDie_nextTag : (s.setDie k v).nextTag = s.nextTag := rfl
@[simp] theorem State.setDie_staged : (s.setDie k v).staged = s.staged := rfl
@[simp] theorem State.setDie_norms : (s.setDie k v).norms = s.norms := rfl
@[simp] theorem State.setDie_allocs : (s.setDie k v).allocs = s.allocs := rfl
@[simp] theorem State.setDie_freed : (s.setDie k v).freed = s.freed := rfl
@[simp] theorem State.setDie_descs : (s.setDie k v).descs = s.descs := rfl
@[simp] theorem State.setDie_prog : (s.setDie k v).prog = s.prog := rfl
@[simp] theorem State.setDie_feeds : (s.setDie k v).feeds = s.feeds := rfl
@[simp] theorem State.setDie_windows : (s.setDie k v).windows = s.windows := rfl
@[simp] theorem State.setDie_ctl : (s.setDie k v).ctl = s.ctl := rfl
@[simp] theorem State.setDie_hostQs : (s.setDie k v).hostQs = s.hostQs := rfl
@[simp] theorem State.setDie_evtSeq : (s.setDie k v).evtSeq = s.evtSeq := rfl
@[simp] theorem State.setDie_log : (s.setDie k v).log = s.log := rfl
@[simp] theorem State.setDie_breaches : (s.setDie k v).breaches = s.breaches := rfl
@[simp] theorem State.setDie_breachQ : (s.setDie k v).breachQ = s.breachQ := rfl
@[simp] theorem State.setDie_recWindows : (s.setDie k v).recWindows = s.recWindows := rfl
@[simp] theorem State.setDie_dumpWritten : (s.setDie k v).dumpWritten = s.dumpWritten := rfl
@[simp] theorem State.setDie_dumpReleased : (s.setDie k v).dumpReleased = s.dumpReleased := rfl
@[simp] theorem State.setDie_dumpKey : (s.setDie k v).dumpKey = s.dumpKey := rfl
@[simp] theorem State.setDie_fatal : (s.setDie k v).fatal = s.fatal := rfl
@[simp] theorem State.setDie_lostPolders : (s.setDie k v).lostPolders = s.lostPolders := rfl
@[simp] theorem State.setDie_standby : (s.setDie k v).standby = s.standby := rfl
@[simp] theorem State.setDie_resync : (s.setDie k v).resync = s.resync := rfl
@[simp] theorem State.setDie_restore : (s.setDie k v).restore = s.restore := rfl
@[simp] theorem State.setDie_restored : (s.setDie k v).restored = s.restored := rfl
@[simp] theorem State.setDie_flash : (s.setDie k v).flash = s.flash := rfl
@[simp] theorem State.setDie_flashPart : (s.setDie k v).flashPart = s.flashPart := rfl
@[simp] theorem State.setDie_activated : (s.setDie k v).activated = s.activated := rfl
@[simp] theorem State.setDie_otp : (s.setDie k v).otp = s.otp := rfl
@[simp] theorem State.setDie_cfg : (s.setDie k v).cfg = s.cfg := rfl
@[simp] theorem State.setDie_fwVerified : (s.setDie k v).fwVerified = s.fwVerified := rfl
@[simp] theorem State.setDie_cfgVerified : (s.setDie k v).cfgVerified = s.cfgVerified := rfl
@[simp] theorem State.setDie_healthDirty : (s.setDie k v).healthDirty = s.healthDirty := rfl
@[simp] theorem State.setDie_healthGen : (s.setDie k v).healthGen = s.healthGen := rfl
@[simp] theorem State.setDie_power : (s.setDie k v).power = s.power := rfl
@[simp] theorem State.setDie_rails : (s.setDie k v).rails = s.rails := rfl
@[simp] theorem State.setDie_railsOff : (s.setDie k v).railsOff = s.railsOff := rfl
@[simp] theorem State.setDie_pwrStates : (s.setDie k v).pwrStates = s.pwrStates := rfl
@[simp] theorem State.setDie_energy : (s.setDie k v).energy = s.energy := rfl
@[simp] theorem State.setDie_inputAt : (s.setDie k v).inputAt = s.inputAt := rfl
@[simp] theorem State.setDie_actThrottle : (s.setDie k v).actThrottle = s.actThrottle := rfl
@[simp] theorem State.setDie_resetHeld : (s.setDie k v).resetHeld = s.resetHeld := rfl
@[simp] theorem State.setDie_thermLatch : (s.setDie k v).thermLatch = s.thermLatch := rfl
@[simp] theorem State.setDie_houseRail : (s.setDie k v).houseRail = s.houseRail := rfl
@[simp] theorem State.setDie_straps : (s.setDie k v).straps = s.straps := rfl
@[simp] theorem State.setDie_tap : (s.setDie k v).tap = s.tap := rfl
@[simp] theorem State.setDie_mgmtRsp : (s.setDie k v).mgmtRsp = s.mgmtRsp := rfl
@[simp] theorem State.setDie_mgmtDue : (s.setDie k v).mgmtDue = s.mgmtDue := rfl
@[simp] theorem State.setDie_now : (s.setDie k v).now = s.now := rfl
@[simp] theorem State.setDie_freeCtr : (s.setDie k v).freeCtr = s.freeCtr := rfl
@[simp] theorem State.setDie_pending : (s.setDie k v).pending = s.pending := rfl
@[simp] theorem State.reg_setDie (j : Nat) : (s.setDie k v).reg j = s.reg j := rfl
@[simp] theorem State.island_setDie (j : Nat) : (s.setDie k v).island j = s.island j := rfl
@[simp] theorem State.core_setDie (j : Nat) : (s.setDie k v).core j = s.core j := rfl
@[simp] theorem State.arb_setDie (j : Nat) : (s.setDie k v).arb j = s.arb j := rfl
@[simp] theorem State.chan_setDie (j : Nat) : (s.setDie k v).chan j = s.chan j := rfl
@[simp] theorem State.bridge_setDie (j : Nat) : (s.setDie k v).bridge j = s.bridge j := rfl
@[simp] theorem State.engine_setDie (j : Nat) : (s.setDie k v).engine j = s.engine j := rfl
@[simp] theorem State.link_setDie (j : Nat) : (s.setDie k v).link j = s.link j := rfl
@[simp] theorem State.txFlow_setDie (j : Nat) : (s.setDie k v).txFlow j = s.txFlow j := rfl
@[simp] theorem State.rxFlow_setDie (j : Nat) : (s.setDie k v).rxFlow j = s.rxFlow j := rfl
@[simp] theorem State.hostQ_setDie (j : Nat) : (s.setDie k v).hostQ j = s.hostQ j := rfl
@[simp] theorem State.alloc_setDie (j : Nat) : (s.setDie k v).alloc j = s.alloc j := rfl
@[simp] theorem State.desc_setDie (j : Nat) : (s.setDie k v).desc j = s.desc j := rfl
@[simp] theorem State.feed_setDie (j : Nat) : (s.setDie k v).feed j = s.feed j := rfl
@[simp] theorem State.window_setDie (j : Nat) : (s.setDie k v).window j = s.window j := rfl
@[simp] theorem State.die_setDie_self : (s.setDie k v).die k = v := SMap.get_set_self _ _ k v
theorem State.die_setDie (j : Nat) : (s.setDie k v).die j = if j = k then v else s.die j :=
  SMap.get_set _ _ k j v
theorem State.die_setDie_ne (j : Nat) (h : j ≠ k) : (s.setDie k v).die j = s.die j := SMap.get_set_ne _ _ v h

end

/-! ### `setArb` -/

section
variable (s : State) (k : Nat) (v : Arb)

@[simp] theorem State.setArb_regs : (s.setArb k v).regs = s.regs := rfl
@[simp] theorem State.setArb_latch : (s.setArb k v).latch = s.latch := rfl
@[simp] theorem State.setArb_readData : (s.setArb k v).readData = s.readData := rfl
@[simp] theorem State.setArb_evcStage : (s.setArb k v).evcStage = s.evcStage := rfl
@[simp] theorem State.setArb_evcMsgs : (s.setArb k v).evcMsgs = s.evcMsgs := rfl
@[simp] theorem State.setArb_thrFired : (s.setArb k v).thrFired = s.thrFired := rfl
@[simp] theorem State.setArb_mem : (s.setArb k v).mem = s.mem := rfl
@[simp] theorem State.setArb_poison : (s.setArb k v).poison = s.poison := rfl
@[simp] theorem State.setArb_islands : (s.setArb k v).islands = s.islands := rfl
@[simp] theorem State.setArb_cores : (s.setArb k v).cores = s.cores := rfl
@[simp] theorem State.setArb_dies : (s.setArb k v).dies = s.dies := rfl
@[simp] theorem State.setArb_chans : (s.setArb k v).chans = s.chans := rfl
@[simp] theorem State.setArb_bridges : (s.setArb k v).bridges = s.bridges := rfl
@[simp] theorem State.setArb_engines : (s.setArb k v).engines = s.engines := rfl
@[simp] theorem State.setArb_links : (s.setArb k v).links = s.links := rfl
@[simp] theorem State.setArb_xfer : (s.setArb k v).xfer = s.xfer := rfl
@[simp] theorem State.setArb_txFlows : (s.setArb k v).txFlows = s.txFlows := rfl
@[simp] theorem State.setArb_rxFlows : (s.setArb k v).rxFlows = s.rxFlows := rfl
@[simp] theorem State.setArb_reads : (s.setArb k v).reads = s.reads := rfl
@[simp] theorem State.setArb_nextTag : (s.setArb k v).nextTag = s.nextTag := rfl
@[simp] theorem State.setArb_staged : (s.setArb k v).staged = s.staged := rfl
@[simp] theorem State.setArb_norms : (s.setArb k v).norms = s.norms := rfl
@[simp] theorem State.setArb_allocs : (s.setArb k v).allocs = s.allocs := rfl
@[simp] theorem State.setArb_freed : (s.setArb k v).freed = s.freed := rfl
@[simp] theorem State.setArb_descs : (s.setArb k v).descs = s.descs := rfl
@[simp] theorem State.setArb_prog : (s.setArb k v).prog = s.prog := rfl
@[simp] theorem State.setArb_feeds : (s.setArb k v).feeds = s.feeds := rfl
@[simp] theorem State.setArb_windows : (s.setArb k v).windows = s.windows := rfl
@[simp] theorem State.setArb_ctl : (s.setArb k v).ctl = s.ctl := rfl
@[simp] theorem State.setArb_hostQs : (s.setArb k v).hostQs = s.hostQs := rfl
@[simp] theorem State.setArb_evtSeq : (s.setArb k v).evtSeq = s.evtSeq := rfl
@[simp] theorem State.setArb_log : (s.setArb k v).log = s.log := rfl
@[simp] theorem State.setArb_breaches : (s.setArb k v).breaches = s.breaches := rfl
@[simp] theorem State.setArb_breachQ : (s.setArb k v).breachQ = s.breachQ := rfl
@[simp] theorem State.setArb_recWindows : (s.setArb k v).recWindows = s.recWindows := rfl
@[simp] theorem State.setArb_dumpWritten : (s.setArb k v).dumpWritten = s.dumpWritten := rfl
@[simp] theorem State.setArb_dumpReleased : (s.setArb k v).dumpReleased = s.dumpReleased := rfl
@[simp] theorem State.setArb_dumpKey : (s.setArb k v).dumpKey = s.dumpKey := rfl
@[simp] theorem State.setArb_fatal : (s.setArb k v).fatal = s.fatal := rfl
@[simp] theorem State.setArb_lostPolders : (s.setArb k v).lostPolders = s.lostPolders := rfl
@[simp] theorem State.setArb_standby : (s.setArb k v).standby = s.standby := rfl
@[simp] theorem State.setArb_resync : (s.setArb k v).resync = s.resync := rfl
@[simp] theorem State.setArb_restore : (s.setArb k v).restore = s.restore := rfl
@[simp] theorem State.setArb_restored : (s.setArb k v).restored = s.restored := rfl
@[simp] theorem State.setArb_flash : (s.setArb k v).flash = s.flash := rfl
@[simp] theorem State.setArb_flashPart : (s.setArb k v).flashPart = s.flashPart := rfl
@[simp] theorem State.setArb_activated : (s.setArb k v).activated = s.activated := rfl
@[simp] theorem State.setArb_otp : (s.setArb k v).otp = s.otp := rfl
@[simp] theorem State.setArb_cfg : (s.setArb k v).cfg = s.cfg := rfl
@[simp] theorem State.setArb_fwVerified : (s.setArb k v).fwVerified = s.fwVerified := rfl
@[simp] theorem State.setArb_cfgVerified : (s.setArb k v).cfgVerified = s.cfgVerified := rfl
@[simp] theorem State.setArb_healthDirty : (s.setArb k v).healthDirty = s.healthDirty := rfl
@[simp] theorem State.setArb_healthGen : (s.setArb k v).healthGen = s.healthGen := rfl
@[simp] theorem State.setArb_power : (s.setArb k v).power = s.power := rfl
@[simp] theorem State.setArb_rails : (s.setArb k v).rails = s.rails := rfl
@[simp] theorem State.setArb_railsOff : (s.setArb k v).railsOff = s.railsOff := rfl
@[simp] theorem State.setArb_pwrStates : (s.setArb k v).pwrStates = s.pwrStates := rfl
@[simp] theorem State.setArb_energy : (s.setArb k v).energy = s.energy := rfl
@[simp] theorem State.setArb_inputAt : (s.setArb k v).inputAt = s.inputAt := rfl
@[simp] theorem State.setArb_actThrottle : (s.setArb k v).actThrottle = s.actThrottle := rfl
@[simp] theorem State.setArb_resetHeld : (s.setArb k v).resetHeld = s.resetHeld := rfl
@[simp] theorem State.setArb_thermLatch : (s.setArb k v).thermLatch = s.thermLatch := rfl
@[simp] theorem State.setArb_houseRail : (s.setArb k v).houseRail = s.houseRail := rfl
@[simp] theorem State.setArb_straps : (s.setArb k v).straps = s.straps := rfl
@[simp] theorem State.setArb_tap : (s.setArb k v).tap = s.tap := rfl
@[simp] theorem State.setArb_mgmtRsp : (s.setArb k v).mgmtRsp = s.mgmtRsp := rfl
@[simp] theorem State.setArb_mgmtDue : (s.setArb k v).mgmtDue = s.mgmtDue := rfl
@[simp] theorem State.setArb_now : (s.setArb k v).now = s.now := rfl
@[simp] theorem State.setArb_freeCtr : (s.setArb k v).freeCtr = s.freeCtr := rfl
@[simp] theorem State.setArb_pending : (s.setArb k v).pending = s.pending := rfl
@[simp] theorem State.reg_setArb (j : Nat) : (s.setArb k v).reg j = s.reg j := rfl
@[simp] theorem State.island_setArb (j : Nat) : (s.setArb k v).island j = s.island j := rfl
@[simp] theorem State.core_setArb (j : Nat) : (s.setArb k v).core j = s.core j := rfl
@[simp] theorem State.die_setArb (j : Nat) : (s.setArb k v).die j = s.die j := rfl
@[simp] theorem State.chan_setArb (j : Nat) : (s.setArb k v).chan j = s.chan j := rfl
@[simp] theorem State.bridge_setArb (j : Nat) : (s.setArb k v).bridge j = s.bridge j := rfl
@[simp] theorem State.engine_setArb (j : Nat) : (s.setArb k v).engine j = s.engine j := rfl
@[simp] theorem State.link_setArb (j : Nat) : (s.setArb k v).link j = s.link j := rfl
@[simp] theorem State.txFlow_setArb (j : Nat) : (s.setArb k v).txFlow j = s.txFlow j := rfl
@[simp] theorem State.rxFlow_setArb (j : Nat) : (s.setArb k v).rxFlow j = s.rxFlow j := rfl
@[simp] theorem State.hostQ_setArb (j : Nat) : (s.setArb k v).hostQ j = s.hostQ j := rfl
@[simp] theorem State.alloc_setArb (j : Nat) : (s.setArb k v).alloc j = s.alloc j := rfl
@[simp] theorem State.desc_setArb (j : Nat) : (s.setArb k v).desc j = s.desc j := rfl
@[simp] theorem State.feed_setArb (j : Nat) : (s.setArb k v).feed j = s.feed j := rfl
@[simp] theorem State.window_setArb (j : Nat) : (s.setArb k v).window j = s.window j := rfl
@[simp] theorem State.arb_setArb_self : (s.setArb k v).arb k = v := SMap.get_set_self _ _ k v
theorem State.arb_setArb (j : Nat) : (s.setArb k v).arb j = if j = k then v else s.arb j :=
  SMap.get_set _ _ k j v
theorem State.arb_setArb_ne (j : Nat) (h : j ≠ k) : (s.setArb k v).arb j = s.arb j := SMap.get_set_ne _ _ v h

end

/-! ### `setChan` -/

section
variable (s : State) (k : Nat) (v : ChanSt)

@[simp] theorem State.setChan_regs : (s.setChan k v).regs = s.regs := rfl
@[simp] theorem State.setChan_latch : (s.setChan k v).latch = s.latch := rfl
@[simp] theorem State.setChan_readData : (s.setChan k v).readData = s.readData := rfl
@[simp] theorem State.setChan_evcStage : (s.setChan k v).evcStage = s.evcStage := rfl
@[simp] theorem State.setChan_evcMsgs : (s.setChan k v).evcMsgs = s.evcMsgs := rfl
@[simp] theorem State.setChan_thrFired : (s.setChan k v).thrFired = s.thrFired := rfl
@[simp] theorem State.setChan_mem : (s.setChan k v).mem = s.mem := rfl
@[simp] theorem State.setChan_poison : (s.setChan k v).poison = s.poison := rfl
@[simp] theorem State.setChan_islands : (s.setChan k v).islands = s.islands := rfl
@[simp] theorem State.setChan_cores : (s.setChan k v).cores = s.cores := rfl
@[simp] theorem State.setChan_dies : (s.setChan k v).dies = s.dies := rfl
@[simp] theorem State.setChan_arbs : (s.setChan k v).arbs = s.arbs := rfl
@[simp] theorem State.setChan_bridges : (s.setChan k v).bridges = s.bridges := rfl
@[simp] theorem State.setChan_engines : (s.setChan k v).engines = s.engines := rfl
@[simp] theorem State.setChan_links : (s.setChan k v).links = s.links := rfl
@[simp] theorem State.setChan_xfer : (s.setChan k v).xfer = s.xfer := rfl
@[simp] theorem State.setChan_txFlows : (s.setChan k v).txFlows = s.txFlows := rfl
@[simp] theorem State.setChan_rxFlows : (s.setChan k v).rxFlows = s.rxFlows := rfl
@[simp] theorem State.setChan_reads : (s.setChan k v).reads = s.reads := rfl
@[simp] theorem State.setChan_nextTag : (s.setChan k v).nextTag = s.nextTag := rfl
@[simp] theorem State.setChan_staged : (s.setChan k v).staged = s.staged := rfl
@[simp] theorem State.setChan_norms : (s.setChan k v).norms = s.norms := rfl
@[simp] theorem State.setChan_allocs : (s.setChan k v).allocs = s.allocs := rfl
@[simp] theorem State.setChan_freed : (s.setChan k v).freed = s.freed := rfl
@[simp] theorem State.setChan_descs : (s.setChan k v).descs = s.descs := rfl
@[simp] theorem State.setChan_prog : (s.setChan k v).prog = s.prog := rfl
@[simp] theorem State.setChan_feeds : (s.setChan k v).feeds = s.feeds := rfl
@[simp] theorem State.setChan_windows : (s.setChan k v).windows = s.windows := rfl
@[simp] theorem State.setChan_ctl : (s.setChan k v).ctl = s.ctl := rfl
@[simp] theorem State.setChan_hostQs : (s.setChan k v).hostQs = s.hostQs := rfl
@[simp] theorem State.setChan_evtSeq : (s.setChan k v).evtSeq = s.evtSeq := rfl
@[simp] theorem State.setChan_log : (s.setChan k v).log = s.log := rfl
@[simp] theorem State.setChan_breaches : (s.setChan k v).breaches = s.breaches := rfl
@[simp] theorem State.setChan_breachQ : (s.setChan k v).breachQ = s.breachQ := rfl
@[simp] theorem State.setChan_recWindows : (s.setChan k v).recWindows = s.recWindows := rfl
@[simp] theorem State.setChan_dumpWritten : (s.setChan k v).dumpWritten = s.dumpWritten := rfl
@[simp] theorem State.setChan_dumpReleased : (s.setChan k v).dumpReleased = s.dumpReleased := rfl
@[simp] theorem State.setChan_dumpKey : (s.setChan k v).dumpKey = s.dumpKey := rfl
@[simp] theorem State.setChan_fatal : (s.setChan k v).fatal = s.fatal := rfl
@[simp] theorem State.setChan_lostPolders : (s.setChan k v).lostPolders = s.lostPolders := rfl
@[simp] theorem State.setChan_standby : (s.setChan k v).standby = s.standby := rfl
@[simp] theorem State.setChan_resync : (s.setChan k v).resync = s.resync := rfl
@[simp] theorem State.setChan_restore : (s.setChan k v).restore = s.restore := rfl
@[simp] theorem State.setChan_restored : (s.setChan k v).restored = s.restored := rfl
@[simp] theorem State.setChan_flash : (s.setChan k v).flash = s.flash := rfl
@[simp] theorem State.setChan_flashPart : (s.setChan k v).flashPart = s.flashPart := rfl
@[simp] theorem State.setChan_activated : (s.setChan k v).activated = s.activated := rfl
@[simp] theorem State.setChan_otp : (s.setChan k v).otp = s.otp := rfl
@[simp] theorem State.setChan_cfg : (s.setChan k v).cfg = s.cfg := rfl
@[simp] theorem State.setChan_fwVerified : (s.setChan k v).fwVerified = s.fwVerified := rfl
@[simp] theorem State.setChan_cfgVerified : (s.setChan k v).cfgVerified = s.cfgVerified := rfl
@[simp] theorem State.setChan_healthDirty : (s.setChan k v).healthDirty = s.healthDirty := rfl
@[simp] theorem State.setChan_healthGen : (s.setChan k v).healthGen = s.healthGen := rfl
@[simp] theorem State.setChan_power : (s.setChan k v).power = s.power := rfl
@[simp] theorem State.setChan_rails : (s.setChan k v).rails = s.rails := rfl
@[simp] theorem State.setChan_railsOff : (s.setChan k v).railsOff = s.railsOff := rfl
@[simp] theorem State.setChan_pwrStates : (s.setChan k v).pwrStates = s.pwrStates := rfl
@[simp] theorem State.setChan_energy : (s.setChan k v).energy = s.energy := rfl
@[simp] theorem State.setChan_inputAt : (s.setChan k v).inputAt = s.inputAt := rfl
@[simp] theorem State.setChan_actThrottle : (s.setChan k v).actThrottle = s.actThrottle := rfl
@[simp] theorem State.setChan_resetHeld : (s.setChan k v).resetHeld = s.resetHeld := rfl
@[simp] theorem State.setChan_thermLatch : (s.setChan k v).thermLatch = s.thermLatch := rfl
@[simp] theorem State.setChan_houseRail : (s.setChan k v).houseRail = s.houseRail := rfl
@[simp] theorem State.setChan_straps : (s.setChan k v).straps = s.straps := rfl
@[simp] theorem State.setChan_tap : (s.setChan k v).tap = s.tap := rfl
@[simp] theorem State.setChan_mgmtRsp : (s.setChan k v).mgmtRsp = s.mgmtRsp := rfl
@[simp] theorem State.setChan_mgmtDue : (s.setChan k v).mgmtDue = s.mgmtDue := rfl
@[simp] theorem State.setChan_now : (s.setChan k v).now = s.now := rfl
@[simp] theorem State.setChan_freeCtr : (s.setChan k v).freeCtr = s.freeCtr := rfl
@[simp] theorem State.setChan_pending : (s.setChan k v).pending = s.pending := rfl
@[simp] theorem State.reg_setChan (j : Nat) : (s.setChan k v).reg j = s.reg j := rfl
@[simp] theorem State.island_setChan (j : Nat) : (s.setChan k v).island j = s.island j := rfl
@[simp] theorem State.core_setChan (j : Nat) : (s.setChan k v).core j = s.core j := rfl
@[simp] theorem State.die_setChan (j : Nat) : (s.setChan k v).die j = s.die j := rfl
@[simp] theorem State.arb_setChan (j : Nat) : (s.setChan k v).arb j = s.arb j := rfl
@[simp] theorem State.bridge_setChan (j : Nat) : (s.setChan k v).bridge j = s.bridge j := rfl
@[simp] theorem State.engine_setChan (j : Nat) : (s.setChan k v).engine j = s.engine j := rfl
@[simp] theorem State.link_setChan (j : Nat) : (s.setChan k v).link j = s.link j := rfl
@[simp] theorem State.txFlow_setChan (j : Nat) : (s.setChan k v).txFlow j = s.txFlow j := rfl
@[simp] theorem State.rxFlow_setChan (j : Nat) : (s.setChan k v).rxFlow j = s.rxFlow j := rfl
@[simp] theorem State.hostQ_setChan (j : Nat) : (s.setChan k v).hostQ j = s.hostQ j := rfl
@[simp] theorem State.alloc_setChan (j : Nat) : (s.setChan k v).alloc j = s.alloc j := rfl
@[simp] theorem State.desc_setChan (j : Nat) : (s.setChan k v).desc j = s.desc j := rfl
@[simp] theorem State.feed_setChan (j : Nat) : (s.setChan k v).feed j = s.feed j := rfl
@[simp] theorem State.window_setChan (j : Nat) : (s.setChan k v).window j = s.window j := rfl
@[simp] theorem State.chan_setChan_self : (s.setChan k v).chan k = v := SMap.get_set_self _ _ k v
theorem State.chan_setChan (j : Nat) : (s.setChan k v).chan j = if j = k then v else s.chan j :=
  SMap.get_set _ _ k j v
theorem State.chan_setChan_ne (j : Nat) (h : j ≠ k) : (s.setChan k v).chan j = s.chan j := SMap.get_set_ne _ _ v h

end

/-! ### `setBridge` -/

section
variable (s : State) (k : Nat) (v : BridgeSt)

@[simp] theorem State.setBridge_regs : (s.setBridge k v).regs = s.regs := rfl
@[simp] theorem State.setBridge_latch : (s.setBridge k v).latch = s.latch := rfl
@[simp] theorem State.setBridge_readData : (s.setBridge k v).readData = s.readData := rfl
@[simp] theorem State.setBridge_evcStage : (s.setBridge k v).evcStage = s.evcStage := rfl
@[simp] theorem State.setBridge_evcMsgs : (s.setBridge k v).evcMsgs = s.evcMsgs := rfl
@[simp] theorem State.setBridge_thrFired : (s.setBridge k v).thrFired = s.thrFired := rfl
@[simp] theorem State.setBridge_mem : (s.setBridge k v).mem = s.mem := rfl
@[simp] theorem State.setBridge_poison : (s.setBridge k v).poison = s.poison := rfl
@[simp] theorem State.setBridge_islands : (s.setBridge k v).islands = s.islands := rfl
@[simp] theorem State.setBridge_cores : (s.setBridge k v).cores = s.cores := rfl
@[simp] theorem State.setBridge_dies : (s.setBridge k v).dies = s.dies := rfl
@[simp] theorem State.setBridge_arbs : (s.setBridge k v).arbs = s.arbs := rfl
@[simp] theorem State.setBridge_chans : (s.setBridge k v).chans = s.chans := rfl
@[simp] theorem State.setBridge_engines : (s.setBridge k v).engines = s.engines := rfl
@[simp] theorem State.setBridge_links : (s.setBridge k v).links = s.links := rfl
@[simp] theorem State.setBridge_xfer : (s.setBridge k v).xfer = s.xfer := rfl
@[simp] theorem State.setBridge_txFlows : (s.setBridge k v).txFlows = s.txFlows := rfl
@[simp] theorem State.setBridge_rxFlows : (s.setBridge k v).rxFlows = s.rxFlows := rfl
@[simp] theorem State.setBridge_reads : (s.setBridge k v).reads = s.reads := rfl
@[simp] theorem State.setBridge_nextTag : (s.setBridge k v).nextTag = s.nextTag := rfl
@[simp] theorem State.setBridge_staged : (s.setBridge k v).staged = s.staged := rfl
@[simp] theorem State.setBridge_norms : (s.setBridge k v).norms = s.norms := rfl
@[simp] theorem State.setBridge_allocs : (s.setBridge k v).allocs = s.allocs := rfl
@[simp] theorem State.setBridge_freed : (s.setBridge k v).freed = s.freed := rfl
@[simp] theorem State.setBridge_descs : (s.setBridge k v).descs = s.descs := rfl
@[simp] theorem State.setBridge_prog : (s.setBridge k v).prog = s.prog := rfl
@[simp] theorem State.setBridge_feeds : (s.setBridge k v).feeds = s.feeds := rfl
@[simp] theorem State.setBridge_windows : (s.setBridge k v).windows = s.windows := rfl
@[simp] theorem State.setBridge_ctl : (s.setBridge k v).ctl = s.ctl := rfl
@[simp] theorem State.setBridge_hostQs : (s.setBridge k v).hostQs = s.hostQs := rfl
@[simp] theorem State.setBridge_evtSeq : (s.setBridge k v).evtSeq = s.evtSeq := rfl
@[simp] theorem State.setBridge_log : (s.setBridge k v).log = s.log := rfl
@[simp] theorem State.setBridge_breaches : (s.setBridge k v).breaches = s.breaches := rfl
@[simp] theorem State.setBridge_breachQ : (s.setBridge k v).breachQ = s.breachQ := rfl
@[simp] theorem State.setBridge_recWindows : (s.setBridge k v).recWindows = s.recWindows := rfl
@[simp] theorem State.setBridge_dumpWritten : (s.setBridge k v).dumpWritten = s.dumpWritten := rfl
@[simp] theorem State.setBridge_dumpReleased : (s.setBridge k v).dumpReleased = s.dumpReleased := rfl
@[simp] theorem State.setBridge_dumpKey : (s.setBridge k v).dumpKey = s.dumpKey := rfl
@[simp] theorem State.setBridge_fatal : (s.setBridge k v).fatal = s.fatal := rfl
@[simp] theorem State.setBridge_lostPolders : (s.setBridge k v).lostPolders = s.lostPolders := rfl
@[simp] theorem State.setBridge_standby : (s.setBridge k v).standby = s.standby := rfl
@[simp] theorem State.setBridge_resync : (s.setBridge k v).resync = s.resync := rfl
@[simp] theorem State.setBridge_restore : (s.setBridge k v).restore = s.restore := rfl
@[simp] theorem State.setBridge_restored : (s.setBridge k v).restored = s.restored := rfl
@[simp] theorem State.setBridge_flash : (s.setBridge k v).flash = s.flash := rfl
@[simp] theorem State.setBridge_flashPart : (s.setBridge k v).flashPart = s.flashPart := rfl
@[simp] theorem State.setBridge_activated : (s.setBridge k v).activated = s.activated := rfl
@[simp] theorem State.setBridge_otp : (s.setBridge k v).otp = s.otp := rfl
@[simp] theorem State.setBridge_cfg : (s.setBridge k v).cfg = s.cfg := rfl
@[simp] theorem State.setBridge_fwVerified : (s.setBridge k v).fwVerified = s.fwVerified := rfl
@[simp] theorem State.setBridge_cfgVerified : (s.setBridge k v).cfgVerified = s.cfgVerified := rfl
@[simp] theorem State.setBridge_healthDirty : (s.setBridge k v).healthDirty = s.healthDirty := rfl
@[simp] theorem State.setBridge_healthGen : (s.setBridge k v).healthGen = s.healthGen := rfl
@[simp] theorem State.setBridge_power : (s.setBridge k v).power = s.power := rfl
@[simp] theorem State.setBridge_rails : (s.setBridge k v).rails = s.rails := rfl
@[simp] theorem State.setBridge_railsOff : (s.setBridge k v).railsOff = s.railsOff := rfl
@[simp] theorem State.setBridge_pwrStates : (s.setBridge k v).pwrStates = s.pwrStates := rfl
@[simp] theorem State.setBridge_energy : (s.setBridge k v).energy = s.energy := rfl
@[simp] theorem State.setBridge_inputAt : (s.setBridge k v).inputAt = s.inputAt := rfl
@[simp] theorem State.setBridge_actThrottle : (s.setBridge k v).actThrottle = s.actThrottle := rfl
@[simp] theorem State.setBridge_resetHeld : (s.setBridge k v).resetHeld = s.resetHeld := rfl
@[simp] theorem State.setBridge_thermLatch : (s.setBridge k v).thermLatch = s.thermLatch := rfl
@[simp] theorem State.setBridge_houseRail : (s.setBridge k v).houseRail = s.houseRail := rfl
@[simp] theorem State.setBridge_straps : (s.setBridge k v).straps = s.straps := rfl
@[simp] theorem State.setBridge_tap : (s.setBridge k v).tap = s.tap := rfl
@[simp] theorem State.setBridge_mgmtRsp : (s.setBridge k v).mgmtRsp = s.mgmtRsp := rfl
@[simp] theorem State.setBridge_mgmtDue : (s.setBridge k v).mgmtDue = s.mgmtDue := rfl
@[simp] theorem State.setBridge_now : (s.setBridge k v).now = s.now := rfl
@[simp] theorem State.setBridge_freeCtr : (s.setBridge k v).freeCtr = s.freeCtr := rfl
@[simp] theorem State.setBridge_pending : (s.setBridge k v).pending = s.pending := rfl
@[simp] theorem State.reg_setBridge (j : Nat) : (s.setBridge k v).reg j = s.reg j := rfl
@[simp] theorem State.island_setBridge (j : Nat) : (s.setBridge k v).island j = s.island j := rfl
@[simp] theorem State.core_setBridge (j : Nat) : (s.setBridge k v).core j = s.core j := rfl
@[simp] theorem State.die_setBridge (j : Nat) : (s.setBridge k v).die j = s.die j := rfl
@[simp] theorem State.arb_setBridge (j : Nat) : (s.setBridge k v).arb j = s.arb j := rfl
@[simp] theorem State.chan_setBridge (j : Nat) : (s.setBridge k v).chan j = s.chan j := rfl
@[simp] theorem State.engine_setBridge (j : Nat) : (s.setBridge k v).engine j = s.engine j := rfl
@[simp] theorem State.link_setBridge (j : Nat) : (s.setBridge k v).link j = s.link j := rfl
@[simp] theorem State.txFlow_setBridge (j : Nat) : (s.setBridge k v).txFlow j = s.txFlow j := rfl
@[simp] theorem State.rxFlow_setBridge (j : Nat) : (s.setBridge k v).rxFlow j = s.rxFlow j := rfl
@[simp] theorem State.hostQ_setBridge (j : Nat) : (s.setBridge k v).hostQ j = s.hostQ j := rfl
@[simp] theorem State.alloc_setBridge (j : Nat) : (s.setBridge k v).alloc j = s.alloc j := rfl
@[simp] theorem State.desc_setBridge (j : Nat) : (s.setBridge k v).desc j = s.desc j := rfl
@[simp] theorem State.feed_setBridge (j : Nat) : (s.setBridge k v).feed j = s.feed j := rfl
@[simp] theorem State.window_setBridge (j : Nat) : (s.setBridge k v).window j = s.window j := rfl
@[simp] theorem State.bridge_setBridge_self : (s.setBridge k v).bridge k = v := SMap.get_set_self _ _ k v
theorem State.bridge_setBridge (j : Nat) : (s.setBridge k v).bridge j = if j = k then v else s.bridge j :=
  SMap.get_set _ _ k j v
theorem State.bridge_setBridge_ne (j : Nat) (h : j ≠ k) : (s.setBridge k v).bridge j = s.bridge j := SMap.get_set_ne _ _ v h

end

/-! ### `setEngine` -/

section
variable (s : State) (k : Nat) (v : EngineSt)

@[simp] theorem State.setEngine_regs : (s.setEngine k v).regs = s.regs := rfl
@[simp] theorem State.setEngine_latch : (s.setEngine k v).latch = s.latch := rfl
@[simp] theorem State.setEngine_readData : (s.setEngine k v).readData = s.readData := rfl
@[simp] theorem State.setEngine_evcStage : (s.setEngine k v).evcStage = s.evcStage := rfl
@[simp] theorem State.setEngine_evcMsgs : (s.setEngine k v).evcMsgs = s.evcMsgs := rfl
@[simp] theorem State.setEngine_thrFired : (s.setEngine k v).thrFired = s.thrFired := rfl
@[simp] theorem State.setEngine_mem : (s.setEngine k v).mem = s.mem := rfl
@[simp] theorem State.setEngine_poison : (s.setEngine k v).poison = s.poison := rfl
@[simp] theorem State.setEngine_islands : (s.setEngine k v).islands = s.islands := rfl
@[simp] theorem State.setEngine_cores : (s.setEngine k v).cores = s.cores := rfl
@[simp] theorem State.setEngine_dies : (s.setEngine k v).dies = s.dies := rfl
@[simp] theorem State.setEngine_arbs : (s.setEngine k v).arbs = s.arbs := rfl
@[simp] theorem State.setEngine_chans : (s.setEngine k v).chans = s.chans := rfl
@[simp] theorem State.setEngine_bridges : (s.setEngine k v).bridges = s.bridges := rfl
@[simp] theorem State.setEngine_links : (s.setEngine k v).links = s.links := rfl
@[simp] theorem State.setEngine_xfer : (s.setEngine k v).xfer = s.xfer := rfl
@[simp] theorem State.setEngine_txFlows : (s.setEngine k v).txFlows = s.txFlows := rfl
@[simp] theorem State.setEngine_rxFlows : (s.setEngine k v).rxFlows = s.rxFlows := rfl
@[simp] theorem State.setEngine_reads : (s.setEngine k v).reads = s.reads := rfl
@[simp] theorem State.setEngine_nextTag : (s.setEngine k v).nextTag = s.nextTag := rfl
@[simp] theorem State.setEngine_staged : (s.setEngine k v).staged = s.staged := rfl
@[simp] theorem State.setEngine_norms : (s.setEngine k v).norms = s.norms := rfl
@[simp] theorem State.setEngine_allocs : (s.setEngine k v).allocs = s.allocs := rfl
@[simp] theorem State.setEngine_freed : (s.setEngine k v).freed = s.freed := rfl
@[simp] theorem State.setEngine_descs : (s.setEngine k v).descs = s.descs := rfl
@[simp] theorem State.setEngine_prog : (s.setEngine k v).prog = s.prog := rfl
@[simp] theorem State.setEngine_feeds : (s.setEngine k v).feeds = s.feeds := rfl
@[simp] theorem State.setEngine_windows : (s.setEngine k v).windows = s.windows := rfl
@[simp] theorem State.setEngine_ctl : (s.setEngine k v).ctl = s.ctl := rfl
@[simp] theorem State.setEngine_hostQs : (s.setEngine k v).hostQs = s.hostQs := rfl
@[simp] theorem State.setEngine_evtSeq : (s.setEngine k v).evtSeq = s.evtSeq := rfl
@[simp] theorem State.setEngine_log : (s.setEngine k v).log = s.log := rfl
@[simp] theorem State.setEngine_breaches : (s.setEngine k v).breaches = s.breaches := rfl
@[simp] theorem State.setEngine_breachQ : (s.setEngine k v).breachQ = s.breachQ := rfl
@[simp] theorem State.setEngine_recWindows : (s.setEngine k v).recWindows = s.recWindows := rfl
@[simp] theorem State.setEngine_dumpWritten : (s.setEngine k v).dumpWritten = s.dumpWritten := rfl
@[simp] theorem State.setEngine_dumpReleased : (s.setEngine k v).dumpReleased = s.dumpReleased := rfl
@[simp] theorem State.setEngine_dumpKey : (s.setEngine k v).dumpKey = s.dumpKey := rfl
@[simp] theorem State.setEngine_fatal : (s.setEngine k v).fatal = s.fatal := rfl
@[simp] theorem State.setEngine_lostPolders : (s.setEngine k v).lostPolders = s.lostPolders := rfl
@[simp] theorem State.setEngine_standby : (s.setEngine k v).standby = s.standby := rfl
@[simp] theorem State.setEngine_resync : (s.setEngine k v).resync = s.resync := rfl
@[simp] theorem State.setEngine_restore : (s.setEngine k v).restore = s.restore := rfl
@[simp] theorem State.setEngine_restored : (s.setEngine k v).restored = s.restored := rfl
@[simp] theorem State.setEngine_flash : (s.setEngine k v).flash = s.flash := rfl
@[simp] theorem State.setEngine_flashPart : (s.setEngine k v).flashPart = s.flashPart := rfl
@[simp] theorem State.setEngine_activated : (s.setEngine k v).activated = s.activated := rfl
@[simp] theorem State.setEngine_otp : (s.setEngine k v).otp = s.otp := rfl
@[simp] theorem State.setEngine_cfg : (s.setEngine k v).cfg = s.cfg := rfl
@[simp] theorem State.setEngine_fwVerified : (s.setEngine k v).fwVerified = s.fwVerified := rfl
@[simp] theorem State.setEngine_cfgVerified : (s.setEngine k v).cfgVerified = s.cfgVerified := rfl
@[simp] theorem State.setEngine_healthDirty : (s.setEngine k v).healthDirty = s.healthDirty := rfl
@[simp] theorem State.setEngine_healthGen : (s.setEngine k v).healthGen = s.healthGen := rfl
@[simp] theorem State.setEngine_power : (s.setEngine k v).power = s.power := rfl
@[simp] theorem State.setEngine_rails : (s.setEngine k v).rails = s.rails := rfl
@[simp] theorem State.setEngine_railsOff : (s.setEngine k v).railsOff = s.railsOff := rfl
@[simp] theorem State.setEngine_pwrStates : (s.setEngine k v).pwrStates = s.pwrStates := rfl
@[simp] theorem State.setEngine_energy : (s.setEngine k v).energy = s.energy := rfl
@[simp] theorem State.setEngine_inputAt : (s.setEngine k v).inputAt = s.inputAt := rfl
@[simp] theorem State.setEngine_actThrottle : (s.setEngine k v).actThrottle = s.actThrottle := rfl
@[simp] theorem State.setEngine_resetHeld : (s.setEngine k v).resetHeld = s.resetHeld := rfl
@[simp] theorem State.setEngine_thermLatch : (s.setEngine k v).thermLatch = s.thermLatch := rfl
@[simp] theorem State.setEngine_houseRail : (s.setEngine k v).houseRail = s.houseRail := rfl
@[simp] theorem State.setEngine_straps : (s.setEngine k v).straps = s.straps := rfl
@[simp] theorem State.setEngine_tap : (s.setEngine k v).tap = s.tap := rfl
@[simp] theorem State.setEngine_mgmtRsp : (s.setEngine k v).mgmtRsp = s.mgmtRsp := rfl
@[simp] theorem State.setEngine_mgmtDue : (s.setEngine k v).mgmtDue = s.mgmtDue := rfl
@[simp] theorem State.setEngine_now : (s.setEngine k v).now = s.now := rfl
@[simp] theorem State.setEngine_freeCtr : (s.setEngine k v).freeCtr = s.freeCtr := rfl
@[simp] theorem State.setEngine_pending : (s.setEngine k v).pending = s.pending := rfl
@[simp] theorem State.reg_setEngine (j : Nat) : (s.setEngine k v).reg j = s.reg j := rfl
@[simp] theorem State.island_setEngine (j : Nat) : (s.setEngine k v).island j = s.island j := rfl
@[simp] theorem State.core_setEngine (j : Nat) : (s.setEngine k v).core j = s.core j := rfl
@[simp] theorem State.die_setEngine (j : Nat) : (s.setEngine k v).die j = s.die j := rfl
@[simp] theorem State.arb_setEngine (j : Nat) : (s.setEngine k v).arb j = s.arb j := rfl
@[simp] theorem State.chan_setEngine (j : Nat) : (s.setEngine k v).chan j = s.chan j := rfl
@[simp] theorem State.bridge_setEngine (j : Nat) : (s.setEngine k v).bridge j = s.bridge j := rfl
@[simp] theorem State.link_setEngine (j : Nat) : (s.setEngine k v).link j = s.link j := rfl
@[simp] theorem State.txFlow_setEngine (j : Nat) : (s.setEngine k v).txFlow j = s.txFlow j := rfl
@[simp] theorem State.rxFlow_setEngine (j : Nat) : (s.setEngine k v).rxFlow j = s.rxFlow j := rfl
@[simp] theorem State.hostQ_setEngine (j : Nat) : (s.setEngine k v).hostQ j = s.hostQ j := rfl
@[simp] theorem State.alloc_setEngine (j : Nat) : (s.setEngine k v).alloc j = s.alloc j := rfl
@[simp] theorem State.desc_setEngine (j : Nat) : (s.setEngine k v).desc j = s.desc j := rfl
@[simp] theorem State.feed_setEngine (j : Nat) : (s.setEngine k v).feed j = s.feed j := rfl
@[simp] theorem State.window_setEngine (j : Nat) : (s.setEngine k v).window j = s.window j := rfl
@[simp] theorem State.engine_setEngine_self : (s.setEngine k v).engine k = v := SMap.get_set_self _ _ k v
theorem State.engine_setEngine (j : Nat) : (s.setEngine k v).engine j = if j = k then v else s.engine j :=
  SMap.get_set _ _ k j v
theorem State.engine_setEngine_ne (j : Nat) (h : j ≠ k) : (s.setEngine k v).engine j = s.engine j := SMap.get_set_ne _ _ v h

end

/-! ### `setLink` -/

section
variable (s : State) (k : Nat) (v : LinkSt)

@[simp] theorem State.setLink_regs : (s.setLink k v).regs = s.regs := rfl
@[simp] theorem State.setLink_latch : (s.setLink k v).latch = s.latch := rfl
@[simp] theorem State.setLink_readData : (s.setLink k v).readData = s.readData := rfl
@[simp] theorem State.setLink_evcStage : (s.setLink k v).evcStage = s.evcStage := rfl
@[simp] theorem State.setLink_evcMsgs : (s.setLink k v).evcMsgs = s.evcMsgs := rfl
@[simp] theorem State.setLink_thrFired : (s.setLink k v).thrFired = s.thrFired := rfl
@[simp] theorem State.setLink_mem : (s.setLink k v).mem = s.mem := rfl
@[simp] theorem State.setLink_poison : (s.setLink k v).poison = s.poison := rfl
@[simp] theorem State.setLink_islands : (s.setLink k v).islands = s.islands := rfl
@[simp] theorem State.setLink_cores : (s.setLink k v).cores = s.cores := rfl
@[simp] theorem State.setLink_dies : (s.setLink k v).dies = s.dies := rfl
@[simp] theorem State.setLink_arbs : (s.setLink k v).arbs = s.arbs := rfl
@[simp] theorem State.setLink_chans : (s.setLink k v).chans = s.chans := rfl
@[simp] theorem State.setLink_bridges : (s.setLink k v).bridges = s.bridges := rfl
@[simp] theorem State.setLink_engines : (s.setLink k v).engines = s.engines := rfl
@[simp] theorem State.setLink_xfer : (s.setLink k v).xfer = s.xfer := rfl
@[simp] theorem State.setLink_txFlows : (s.setLink k v).txFlows = s.txFlows := rfl
@[simp] theorem State.setLink_rxFlows : (s.setLink k v).rxFlows = s.rxFlows := rfl
@[simp] theorem State.setLink_reads : (s.setLink k v).reads = s.reads := rfl
@[simp] theorem State.setLink_nextTag : (s.setLink k v).nextTag = s.nextTag := rfl
@[simp] theorem State.setLink_staged : (s.setLink k v).staged = s.staged := rfl
@[simp] theorem State.setLink_norms : (s.setLink k v).norms = s.norms := rfl
@[simp] theorem State.setLink_allocs : (s.setLink k v).allocs = s.allocs := rfl
@[simp] theorem State.setLink_freed : (s.setLink k v).freed = s.freed := rfl
@[simp] theorem State.setLink_descs : (s.setLink k v).descs = s.descs := rfl
@[simp] theorem State.setLink_prog : (s.setLink k v).prog = s.prog := rfl
@[simp] theorem State.setLink_feeds : (s.setLink k v).feeds = s.feeds := rfl
@[simp] theorem State.setLink_windows : (s.setLink k v).windows = s.windows := rfl
@[simp] theorem State.setLink_ctl : (s.setLink k v).ctl = s.ctl := rfl
@[simp] theorem State.setLink_hostQs : (s.setLink k v).hostQs = s.hostQs := rfl
@[simp] theorem State.setLink_evtSeq : (s.setLink k v).evtSeq = s.evtSeq := rfl
@[simp] theorem State.setLink_log : (s.setLink k v).log = s.log := rfl
@[simp] theorem State.setLink_breaches : (s.setLink k v).breaches = s.breaches := rfl
@[simp] theorem State.setLink_breachQ : (s.setLink k v).breachQ = s.breachQ := rfl
@[simp] theorem State.setLink_recWindows : (s.setLink k v).recWindows = s.recWindows := rfl
@[simp] theorem State.setLink_dumpWritten : (s.setLink k v).dumpWritten = s.dumpWritten := rfl
@[simp] theorem State.setLink_dumpReleased : (s.setLink k v).dumpReleased = s.dumpReleased := rfl
@[simp] theorem State.setLink_dumpKey : (s.setLink k v).dumpKey = s.dumpKey := rfl
@[simp] theorem State.setLink_fatal : (s.setLink k v).fatal = s.fatal := rfl
@[simp] theorem State.setLink_lostPolders : (s.setLink k v).lostPolders = s.lostPolders := rfl
@[simp] theorem State.setLink_standby : (s.setLink k v).standby = s.standby := rfl
@[simp] theorem State.setLink_resync : (s.setLink k v).resync = s.resync := rfl
@[simp] theorem State.setLink_restore : (s.setLink k v).restore = s.restore := rfl
@[simp] theorem State.setLink_restored : (s.setLink k v).restored = s.restored := rfl
@[simp] theorem State.setLink_flash : (s.setLink k v).flash = s.flash := rfl
@[simp] theorem State.setLink_flashPart : (s.setLink k v).flashPart = s.flashPart := rfl
@[simp] theorem State.setLink_activated : (s.setLink k v).activated = s.activated := rfl
@[simp] theorem State.setLink_otp : (s.setLink k v).otp = s.otp := rfl
@[simp] theorem State.setLink_cfg : (s.setLink k v).cfg = s.cfg := rfl
@[simp] theorem State.setLink_fwVerified : (s.setLink k v).fwVerified = s.fwVerified := rfl
@[simp] theorem State.setLink_cfgVerified : (s.setLink k v).cfgVerified = s.cfgVerified := rfl
@[simp] theorem State.setLink_healthDirty : (s.setLink k v).healthDirty = s.healthDirty := rfl
@[simp] theorem State.setLink_healthGen : (s.setLink k v).healthGen = s.healthGen := rfl
@[simp] theorem State.setLink_power : (s.setLink k v).power = s.power := rfl
@[simp] theorem State.setLink_rails : (s.setLink k v).rails = s.rails := rfl
@[simp] theorem State.setLink_railsOff : (s.setLink k v).railsOff = s.railsOff := rfl
@[simp] theorem State.setLink_pwrStates : (s.setLink k v).pwrStates = s.pwrStates := rfl
@[simp] theorem State.setLink_energy : (s.setLink k v).energy = s.energy := rfl
@[simp] theorem State.setLink_inputAt : (s.setLink k v).inputAt = s.inputAt := rfl
@[simp] theorem State.setLink_actThrottle : (s.setLink k v).actThrottle = s.actThrottle := rfl
@[simp] theorem State.setLink_resetHeld : (s.setLink k v).resetHeld = s.resetHeld := rfl
@[simp] theorem State.setLink_thermLatch : (s.setLink k v).thermLatch = s.thermLatch := rfl
@[simp] theorem State.setLink_houseRail : (s.setLink k v).houseRail = s.houseRail := rfl
@[simp] theorem State.setLink_straps : (s.setLink k v).straps = s.straps := rfl
@[simp] theorem State.setLink_tap : (s.setLink k v).tap = s.tap := rfl
@[simp] theorem State.setLink_mgmtRsp : (s.setLink k v).mgmtRsp = s.mgmtRsp := rfl
@[simp] theorem State.setLink_mgmtDue : (s.setLink k v).mgmtDue = s.mgmtDue := rfl
@[simp] theorem State.setLink_now : (s.setLink k v).now = s.now := rfl
@[simp] theorem State.setLink_freeCtr : (s.setLink k v).freeCtr = s.freeCtr := rfl
@[simp] theorem State.setLink_pending : (s.setLink k v).pending = s.pending := rfl
@[simp] theorem State.reg_setLink (j : Nat) : (s.setLink k v).reg j = s.reg j := rfl
@[simp] theorem State.island_setLink (j : Nat) : (s.setLink k v).island j = s.island j := rfl
@[simp] theorem State.core_setLink (j : Nat) : (s.setLink k v).core j = s.core j := rfl
@[simp] theorem State.die_setLink (j : Nat) : (s.setLink k v).die j = s.die j := rfl
@[simp] theorem State.arb_setLink (j : Nat) : (s.setLink k v).arb j = s.arb j := rfl
@[simp] theorem State.chan_setLink (j : Nat) : (s.setLink k v).chan j = s.chan j := rfl
@[simp] theorem State.bridge_setLink (j : Nat) : (s.setLink k v).bridge j = s.bridge j := rfl
@[simp] theorem State.engine_setLink (j : Nat) : (s.setLink k v).engine j = s.engine j := rfl
@[simp] theorem State.txFlow_setLink (j : Nat) : (s.setLink k v).txFlow j = s.txFlow j := rfl
@[simp] theorem State.rxFlow_setLink (j : Nat) : (s.setLink k v).rxFlow j = s.rxFlow j := rfl
@[simp] theorem State.hostQ_setLink (j : Nat) : (s.setLink k v).hostQ j = s.hostQ j := rfl
@[simp] theorem State.alloc_setLink (j : Nat) : (s.setLink k v).alloc j = s.alloc j := rfl
@[simp] theorem State.desc_setLink (j : Nat) : (s.setLink k v).desc j = s.desc j := rfl
@[simp] theorem State.feed_setLink (j : Nat) : (s.setLink k v).feed j = s.feed j := rfl
@[simp] theorem State.window_setLink (j : Nat) : (s.setLink k v).window j = s.window j := rfl
@[simp] theorem State.link_setLink_self : (s.setLink k v).link k = v := SMap.get_set_self _ _ k v
theorem State.link_setLink (j : Nat) : (s.setLink k v).link j = if j = k then v else s.link j :=
  SMap.get_set _ _ k j v
theorem State.link_setLink_ne (j : Nat) (h : j ≠ k) : (s.setLink k v).link j = s.link j := SMap.get_set_ne _ _ v h

end

/-! ### `setTxFlow` -/

section
variable (s : State) (k : Nat) (v : TxFlow)

@[simp] theorem State.setTxFlow_regs : (s.setTxFlow k v).regs = s.regs := rfl
@[simp] theorem State.setTxFlow_latch : (s.setTxFlow k v).latch = s.latch := rfl
@[simp] theorem State.setTxFlow_readData : (s.setTxFlow k v).readData = s.readData := rfl
@[simp] theorem State.setTxFlow_evcStage : (s.setTxFlow k v).evcStage = s.evcStage := rfl
@[simp] theorem State.setTxFlow_evcMsgs : (s.setTxFlow k v).evcMsgs = s.evcMsgs := rfl
@[simp] theorem State.setTxFlow_thrFired : (s.setTxFlow k v).thrFired = s.thrFired := rfl
@[simp] theorem State.setTxFlow_mem : (s.setTxFlow k v).mem = s.mem := rfl
@[simp] theorem State.setTxFlow_poison : (s.setTxFlow k v).poison = s.poison := rfl
@[simp] theorem State.setTxFlow_islands : (s.setTxFlow k v).islands = s.islands := rfl
@[simp] theorem State.setTxFlow_cores : (s.setTxFlow k v).cores = s.cores := rfl
@[simp] theorem State.setTxFlow_dies : (s.setTxFlow k v).dies = s.dies := rfl
@[simp] theorem State.setTxFlow_arbs : (s.setTxFlow k v).arbs = s.arbs := rfl
@[simp] theorem State.setTxFlow_chans : (s.setTxFlow k v).chans = s.chans := rfl
@[simp] theorem State.setTxFlow_bridges : (s.setTxFlow k v).bridges = s.bridges := rfl
@[simp] theorem State.setTxFlow_engines : (s.setTxFlow k v).engines = s.engines := rfl
@[simp] theorem State.setTxFlow_links : (s.setTxFlow k v).links = s.links := rfl
@[simp] theorem State.setTxFlow_xfer : (s.setTxFlow k v).xfer = s.xfer := rfl
@[simp] theorem State.setTxFlow_rxFlows : (s.setTxFlow k v).rxFlows = s.rxFlows := rfl
@[simp] theorem State.setTxFlow_reads : (s.setTxFlow k v).reads = s.reads := rfl
@[simp] theorem State.setTxFlow_nextTag : (s.setTxFlow k v).nextTag = s.nextTag := rfl
@[simp] theorem State.setTxFlow_staged : (s.setTxFlow k v).staged = s.staged := rfl
@[simp] theorem State.setTxFlow_norms : (s.setTxFlow k v).norms = s.norms := rfl
@[simp] theorem State.setTxFlow_allocs : (s.setTxFlow k v).allocs = s.allocs := rfl
@[simp] theorem State.setTxFlow_freed : (s.setTxFlow k v).freed = s.freed := rfl
@[simp] theorem State.setTxFlow_descs : (s.setTxFlow k v).descs = s.descs := rfl
@[simp] theorem State.setTxFlow_prog : (s.setTxFlow k v).prog = s.prog := rfl
@[simp] theorem State.setTxFlow_feeds : (s.setTxFlow k v).feeds = s.feeds := rfl
@[simp] theorem State.setTxFlow_windows : (s.setTxFlow k v).windows = s.windows := rfl
@[simp] theorem State.setTxFlow_ctl : (s.setTxFlow k v).ctl = s.ctl := rfl
@[simp] theorem State.setTxFlow_hostQs : (s.setTxFlow k v).hostQs = s.hostQs := rfl
@[simp] theorem State.setTxFlow_evtSeq : (s.setTxFlow k v).evtSeq = s.evtSeq := rfl
@[simp] theorem State.setTxFlow_log : (s.setTxFlow k v).log = s.log := rfl
@[simp] theorem State.setTxFlow_breaches : (s.setTxFlow k v).breaches = s.breaches := rfl
@[simp] theorem State.setTxFlow_breachQ : (s.setTxFlow k v).breachQ = s.breachQ := rfl
@[simp] theorem State.setTxFlow_recWindows : (s.setTxFlow k v).recWindows = s.recWindows := rfl
@[simp] theorem State.setTxFlow_dumpWritten : (s.setTxFlow k v).dumpWritten = s.dumpWritten := rfl
@[simp] theorem State.setTxFlow_dumpReleased : (s.setTxFlow k v).dumpReleased = s.dumpReleased := rfl
@[simp] theorem State.setTxFlow_dumpKey : (s.setTxFlow k v).dumpKey = s.dumpKey := rfl
@[simp] theorem State.setTxFlow_fatal : (s.setTxFlow k v).fatal = s.fatal := rfl
@[simp] theorem State.setTxFlow_lostPolders : (s.setTxFlow k v).lostPolders = s.lostPolders := rfl
@[simp] theorem State.setTxFlow_standby : (s.setTxFlow k v).standby = s.standby := rfl
@[simp] theorem State.setTxFlow_resync : (s.setTxFlow k v).resync = s.resync := rfl
@[simp] theorem State.setTxFlow_restore : (s.setTxFlow k v).restore = s.restore := rfl
@[simp] theorem State.setTxFlow_restored : (s.setTxFlow k v).restored = s.restored := rfl
@[simp] theorem State.setTxFlow_flash : (s.setTxFlow k v).flash = s.flash := rfl
@[simp] theorem State.setTxFlow_flashPart : (s.setTxFlow k v).flashPart = s.flashPart := rfl
@[simp] theorem State.setTxFlow_activated : (s.setTxFlow k v).activated = s.activated := rfl
@[simp] theorem State.setTxFlow_otp : (s.setTxFlow k v).otp = s.otp := rfl
@[simp] theorem State.setTxFlow_cfg : (s.setTxFlow k v).cfg = s.cfg := rfl
@[simp] theorem State.setTxFlow_fwVerified : (s.setTxFlow k v).fwVerified = s.fwVerified := rfl
@[simp] theorem State.setTxFlow_cfgVerified : (s.setTxFlow k v).cfgVerified = s.cfgVerified := rfl
@[simp] theorem State.setTxFlow_healthDirty : (s.setTxFlow k v).healthDirty = s.healthDirty := rfl
@[simp] theorem State.setTxFlow_healthGen : (s.setTxFlow k v).healthGen = s.healthGen := rfl
@[simp] theorem State.setTxFlow_power : (s.setTxFlow k v).power = s.power := rfl
@[simp] theorem State.setTxFlow_rails : (s.setTxFlow k v).rails = s.rails := rfl
@[simp] theorem State.setTxFlow_railsOff : (s.setTxFlow k v).railsOff = s.railsOff := rfl
@[simp] theorem State.setTxFlow_pwrStates : (s.setTxFlow k v).pwrStates = s.pwrStates := rfl
@[simp] theorem State.setTxFlow_energy : (s.setTxFlow k v).energy = s.energy := rfl
@[simp] theorem State.setTxFlow_inputAt : (s.setTxFlow k v).inputAt = s.inputAt := rfl
@[simp] theorem State.setTxFlow_actThrottle : (s.setTxFlow k v).actThrottle = s.actThrottle := rfl
@[simp] theorem State.setTxFlow_resetHeld : (s.setTxFlow k v).resetHeld = s.resetHeld := rfl
@[simp] theorem State.setTxFlow_thermLatch : (s.setTxFlow k v).thermLatch = s.thermLatch := rfl
@[simp] theorem State.setTxFlow_houseRail : (s.setTxFlow k v).houseRail = s.houseRail := rfl
@[simp] theorem State.setTxFlow_straps : (s.setTxFlow k v).straps = s.straps := rfl
@[simp] theorem State.setTxFlow_tap : (s.setTxFlow k v).tap = s.tap := rfl
@[simp] theorem State.setTxFlow_mgmtRsp : (s.setTxFlow k v).mgmtRsp = s.mgmtRsp := rfl
@[simp] theorem State.setTxFlow_mgmtDue : (s.setTxFlow k v).mgmtDue = s.mgmtDue := rfl
@[simp] theorem State.setTxFlow_now : (s.setTxFlow k v).now = s.now := rfl
@[simp] theorem State.setTxFlow_freeCtr : (s.setTxFlow k v).freeCtr = s.freeCtr := rfl
@[simp] theorem State.setTxFlow_pending : (s.setTxFlow k v).pending = s.pending := rfl
@[simp] theorem State.reg_setTxFlow (j : Nat) : (s.setTxFlow k v).reg j = s.reg j := rfl
@[simp] theorem State.island_setTxFlow (j : Nat) : (s.setTxFlow k v).island j = s.island j := rfl
@[simp] theorem State.core_setTxFlow (j : Nat) : (s.setTxFlow k v).core j = s.core j := rfl
@[simp] theorem State.die_setTxFlow (j : Nat) : (s.setTxFlow k v).die j = s.die j := rfl
@[simp] theorem State.arb_setTxFlow (j : Nat) : (s.setTxFlow k v).arb j = s.arb j := rfl
@[simp] theorem State.chan_setTxFlow (j : Nat) : (s.setTxFlow k v).chan j = s.chan j := rfl
@[simp] theorem State.bridge_setTxFlow (j : Nat) : (s.setTxFlow k v).bridge j = s.bridge j := rfl
@[simp] theorem State.engine_setTxFlow (j : Nat) : (s.setTxFlow k v).engine j = s.engine j := rfl
@[simp] theorem State.link_setTxFlow (j : Nat) : (s.setTxFlow k v).link j = s.link j := rfl
@[simp] theorem State.rxFlow_setTxFlow (j : Nat) : (s.setTxFlow k v).rxFlow j = s.rxFlow j := rfl
@[simp] theorem State.hostQ_setTxFlow (j : Nat) : (s.setTxFlow k v).hostQ j = s.hostQ j := rfl
@[simp] theorem State.alloc_setTxFlow (j : Nat) : (s.setTxFlow k v).alloc j = s.alloc j := rfl
@[simp] theorem State.desc_setTxFlow (j : Nat) : (s.setTxFlow k v).desc j = s.desc j := rfl
@[simp] theorem State.feed_setTxFlow (j : Nat) : (s.setTxFlow k v).feed j = s.feed j := rfl
@[simp] theorem State.window_setTxFlow (j : Nat) : (s.setTxFlow k v).window j = s.window j := rfl
@[simp] theorem State.txFlow_setTxFlow_self : (s.setTxFlow k v).txFlow k = v := SMap.get_set_self _ _ k v
theorem State.txFlow_setTxFlow (j : Nat) : (s.setTxFlow k v).txFlow j = if j = k then v else s.txFlow j :=
  SMap.get_set _ _ k j v
theorem State.txFlow_setTxFlow_ne (j : Nat) (h : j ≠ k) : (s.setTxFlow k v).txFlow j = s.txFlow j := SMap.get_set_ne _ _ v h

end

/-! ### `setRxFlow` -/

section
variable (s : State) (k : Nat) (v : RxFlow)

@[simp] theorem State.setRxFlow_regs : (s.setRxFlow k v).regs = s.regs := rfl
@[simp] theorem State.setRxFlow_latch : (s.setRxFlow k v).latch = s.latch := rfl
@[simp] theorem State.setRxFlow_readData : (s.setRxFlow k v).readData = s.readData := rfl
@[simp] theorem State.setRxFlow_evcStage : (s.setRxFlow k v).evcStage = s.evcStage := rfl
@[simp] theorem State.setRxFlow_evcMsgs : (s.setRxFlow k v).evcMsgs = s.evcMsgs := rfl
@[simp] theorem State.setRxFlow_thrFired : (s.setRxFlow k v).thrFired = s.thrFired := rfl
@[simp] theorem State.setRxFlow_mem : (s.setRxFlow k v).mem = s.mem := rfl
@[simp] theorem State.setRxFlow_poison : (s.setRxFlow k v).poison = s.poison := rfl
@[simp] theorem State.setRxFlow_islands : (s.setRxFlow k v).islands = s.islands := rfl
@[simp] theorem State.setRxFlow_cores : (s.setRxFlow k v).cores = s.cores := rfl
@[simp] theorem State.setRxFlow_dies : (s.setRxFlow k v).dies = s.dies := rfl
@[simp] theorem State.setRxFlow_arbs : (s.setRxFlow k v).arbs = s.arbs := rfl
@[simp] theorem State.setRxFlow_chans : (s.setRxFlow k v).chans = s.chans := rfl
@[simp] theorem State.setRxFlow_bridges : (s.setRxFlow k v).bridges = s.bridges := rfl
@[simp] theorem State.setRxFlow_engines : (s.setRxFlow k v).engines = s.engines := rfl
@[simp] theorem State.setRxFlow_links : (s.setRxFlow k v).links = s.links := rfl
@[simp] theorem State.setRxFlow_xfer : (s.setRxFlow k v).xfer = s.xfer := rfl
@[simp] theorem State.setRxFlow_txFlows : (s.setRxFlow k v).txFlows = s.txFlows := rfl
@[simp] theorem State.setRxFlow_reads : (s.setRxFlow k v).reads = s.reads := rfl
@[simp] theorem State.setRxFlow_nextTag : (s.setRxFlow k v).nextTag = s.nextTag := rfl
@[simp] theorem State.setRxFlow_staged : (s.setRxFlow k v).staged = s.staged := rfl
@[simp] theorem State.setRxFlow_norms : (s.setRxFlow k v).norms = s.norms := rfl
@[simp] theorem State.setRxFlow_allocs : (s.setRxFlow k v).allocs = s.allocs := rfl
@[simp] theorem State.setRxFlow_freed : (s.setRxFlow k v).freed = s.freed := rfl
@[simp] theorem State.setRxFlow_descs : (s.setRxFlow k v).descs = s.descs := rfl
@[simp] theorem State.setRxFlow_prog : (s.setRxFlow k v).prog = s.prog := rfl
@[simp] theorem State.setRxFlow_feeds : (s.setRxFlow k v).feeds = s.feeds := rfl
@[simp] theorem State.setRxFlow_windows : (s.setRxFlow k v).windows = s.windows := rfl
@[simp] theorem State.setRxFlow_ctl : (s.setRxFlow k v).ctl = s.ctl := rfl
@[simp] theorem State.setRxFlow_hostQs : (s.setRxFlow k v).hostQs = s.hostQs := rfl
@[simp] theorem State.setRxFlow_evtSeq : (s.setRxFlow k v).evtSeq = s.evtSeq := rfl
@[simp] theorem State.setRxFlow_log : (s.setRxFlow k v).log = s.log := rfl
@[simp] theorem State.setRxFlow_breaches : (s.setRxFlow k v).breaches = s.breaches := rfl
@[simp] theorem State.setRxFlow_breachQ : (s.setRxFlow k v).breachQ = s.breachQ := rfl
@[simp] theorem State.setRxFlow_recWindows : (s.setRxFlow k v).recWindows = s.recWindows := rfl
@[simp] theorem State.setRxFlow_dumpWritten : (s.setRxFlow k v).dumpWritten = s.dumpWritten := rfl
@[simp] theorem State.setRxFlow_dumpReleased : (s.setRxFlow k v).dumpReleased = s.dumpReleased := rfl
@[simp] theorem State.setRxFlow_dumpKey : (s.setRxFlow k v).dumpKey = s.dumpKey := rfl
@[simp] theorem State.setRxFlow_fatal : (s.setRxFlow k v).fatal = s.fatal := rfl
@[simp] theorem State.setRxFlow_lostPolders : (s.setRxFlow k v).lostPolders = s.lostPolders := rfl
@[simp] theorem State.setRxFlow_standby : (s.setRxFlow k v).standby = s.standby := rfl
@[simp] theorem State.setRxFlow_resync : (s.setRxFlow k v).resync = s.resync := rfl
@[simp] theorem State.setRxFlow_restore : (s.setRxFlow k v).restore = s.restore := rfl
@[simp] theorem State.setRxFlow_restored : (s.setRxFlow k v).restored = s.restored := rfl
@[simp] theorem State.setRxFlow_flash : (s.setRxFlow k v).flash = s.flash := rfl
@[simp] theorem State.setRxFlow_flashPart : (s.setRxFlow k v).flashPart = s.flashPart := rfl
@[simp] theorem State.setRxFlow_activated : (s.setRxFlow k v).activated = s.activated := rfl
@[simp] theorem State.setRxFlow_otp : (s.setRxFlow k v).otp = s.otp := rfl
@[simp] theorem State.setRxFlow_cfg : (s.setRxFlow k v).cfg = s.cfg := rfl
@[simp] theorem State.setRxFlow_fwVerified : (s.setRxFlow k v).fwVerified = s.fwVerified := rfl
@[simp] theorem State.setRxFlow_cfgVerified : (s.setRxFlow k v).cfgVerified = s.cfgVerified := rfl
@[simp] theorem State.setRxFlow_healthDirty : (s.setRxFlow k v).healthDirty = s.healthDirty := rfl
@[simp] theorem State.setRxFlow_healthGen : (s.setRxFlow k v).healthGen = s.healthGen := rfl
@[simp] theorem State.setRxFlow_power : (s.setRxFlow k v).power = s.power := rfl
@[simp] theorem State.setRxFlow_rails : (s.setRxFlow k v).rails = s.rails := rfl
@[simp] theorem State.setRxFlow_railsOff : (s.setRxFlow k v).railsOff = s.railsOff := rfl
@[simp] theorem State.setRxFlow_pwrStates : (s.setRxFlow k v).pwrStates = s.pwrStates := rfl
@[simp] theorem State.setRxFlow_energy : (s.setRxFlow k v).energy = s.energy := rfl
@[simp] theorem State.setRxFlow_inputAt : (s.setRxFlow k v).inputAt = s.inputAt := rfl
@[simp] theorem State.setRxFlow_actThrottle : (s.setRxFlow k v).actThrottle = s.actThrottle := rfl
@[simp] theorem State.setRxFlow_resetHeld : (s.setRxFlow k v).resetHeld = s.resetHeld := rfl
@[simp] theorem State.setRxFlow_thermLatch : (s.setRxFlow k v).thermLatch = s.thermLatch := rfl
@[simp] theorem State.setRxFlow_houseRail : (s.setRxFlow k v).houseRail = s.houseRail := rfl
@[simp] theorem State.setRxFlow_straps : (s.setRxFlow k v).straps = s.straps := rfl
@[simp] theorem State.setRxFlow_tap : (s.setRxFlow k v).tap = s.tap := rfl
@[simp] theorem State.setRxFlow_mgmtRsp : (s.setRxFlow k v).mgmtRsp = s.mgmtRsp := rfl
@[simp] theorem State.setRxFlow_mgmtDue : (s.setRxFlow k v).mgmtDue = s.mgmtDue := rfl
@[simp] theorem State.setRxFlow_now : (s.setRxFlow k v).now = s.now := rfl
@[simp] theorem State.setRxFlow_freeCtr : (s.setRxFlow k v).freeCtr = s.freeCtr := rfl
@[simp] theorem State.setRxFlow_pending : (s.setRxFlow k v).pending = s.pending := rfl
@[simp] theorem State.reg_setRxFlow (j : Nat) : (s.setRxFlow k v).reg j = s.reg j := rfl
@[simp] theorem State.island_setRxFlow (j : Nat) : (s.setRxFlow k v).island j = s.island j := rfl
@[simp] theorem State.core_setRxFlow (j : Nat) : (s.setRxFlow k v).core j = s.core j := rfl
@[simp] theorem State.die_setRxFlow (j : Nat) : (s.setRxFlow k v).die j = s.die j := rfl
@[simp] theorem State.arb_setRxFlow (j : Nat) : (s.setRxFlow k v).arb j = s.arb j := rfl
@[simp] theorem State.chan_setRxFlow (j : Nat) : (s.setRxFlow k v).chan j = s.chan j := rfl
@[simp] theorem State.bridge_setRxFlow (j : Nat) : (s.setRxFlow k v).bridge j = s.bridge j := rfl
@[simp] theorem State.engine_setRxFlow (j : Nat) : (s.setRxFlow k v).engine j = s.engine j := rfl
@[simp] theorem State.link_setRxFlow (j : Nat) : (s.setRxFlow k v).link j = s.link j := rfl
@[simp] theorem State.txFlow_setRxFlow (j : Nat) : (s.setRxFlow k v).txFlow j = s.txFlow j := rfl
@[simp] theorem State.hostQ_setRxFlow (j : Nat) : (s.setRxFlow k v).hostQ j = s.hostQ j := rfl
@[simp] theorem State.alloc_setRxFlow (j : Nat) : (s.setRxFlow k v).alloc j = s.alloc j := rfl
@[simp] theorem State.desc_setRxFlow (j : Nat) : (s.setRxFlow k v).desc j = s.desc j := rfl
@[simp] theorem State.feed_setRxFlow (j : Nat) : (s.setRxFlow k v).feed j = s.feed j := rfl
@[simp] theorem State.window_setRxFlow (j : Nat) : (s.setRxFlow k v).window j = s.window j := rfl
@[simp] theorem State.rxFlow_setRxFlow_self : (s.setRxFlow k v).rxFlow k = v := SMap.get_set_self _ _ k v
theorem State.rxFlow_setRxFlow (j : Nat) : (s.setRxFlow k v).rxFlow j = if j = k then v else s.rxFlow j :=
  SMap.get_set _ _ k j v
theorem State.rxFlow_setRxFlow_ne (j : Nat) (h : j ≠ k) : (s.setRxFlow k v).rxFlow j = s.rxFlow j := SMap.get_set_ne _ _ v h

end

/-! ### `setHostQ` -/

section
variable (s : State) (k : Nat) (v : HostQ)

@[simp] theorem State.setHostQ_regs : (s.setHostQ k v).regs = s.regs := rfl
@[simp] theorem State.setHostQ_latch : (s.setHostQ k v).latch = s.latch := rfl
@[simp] theorem State.setHostQ_readData : (s.setHostQ k v).readData = s.readData := rfl
@[simp] theorem State.setHostQ_evcStage : (s.setHostQ k v).evcStage = s.evcStage := rfl
@[simp] theorem State.setHostQ_evcMsgs : (s.setHostQ k v).evcMsgs = s.evcMsgs := rfl
@[simp] theorem State.setHostQ_thrFired : (s.setHostQ k v).thrFired = s.thrFired := rfl
@[simp] theorem State.setHostQ_mem : (s.setHostQ k v).mem = s.mem := rfl
@[simp] theorem State.setHostQ_poison : (s.setHostQ k v).poison = s.poison := rfl
@[simp] theorem State.setHostQ_islands : (s.setHostQ k v).islands = s.islands := rfl
@[simp] theorem State.setHostQ_cores : (s.setHostQ k v).cores = s.cores := rfl
@[simp] theorem State.setHostQ_dies : (s.setHostQ k v).dies = s.dies := rfl
@[simp] theorem State.setHostQ_arbs : (s.setHostQ k v).arbs = s.arbs := rfl
@[simp] theorem State.setHostQ_chans : (s.setHostQ k v).chans = s.chans := rfl
@[simp] theorem State.setHostQ_bridges : (s.setHostQ k v).bridges = s.bridges := rfl
@[simp] theorem State.setHostQ_engines : (s.setHostQ k v).engines = s.engines := rfl
@[simp] theorem State.setHostQ_links : (s.setHostQ k v).links = s.links := rfl
@[simp] theorem State.setHostQ_xfer : (s.setHostQ k v).xfer = s.xfer := rfl
@[simp] theorem State.setHostQ_txFlows : (s.setHostQ k v).txFlows = s.txFlows := rfl
@[simp] theorem State.setHostQ_rxFlows : (s.setHostQ k v).rxFlows = s.rxFlows := rfl
@[simp] theorem State.setHostQ_reads : (s.setHostQ k v).reads = s.reads := rfl
@[simp] theorem State.setHostQ_nextTag : (s.setHostQ k v).nextTag = s.nextTag := rfl
@[simp] theorem State.setHostQ_staged : (s.setHostQ k v).staged = s.staged := rfl
@[simp] theorem State.setHostQ_norms : (s.setHostQ k v).norms = s.norms := rfl
@[simp] theorem State.setHostQ_allocs : (s.setHostQ k v).allocs = s.allocs := rfl
@[simp] theorem State.setHostQ_freed : (s.setHostQ k v).freed = s.freed := rfl
@[simp] theorem State.setHostQ_descs : (s.setHostQ k v).descs = s.descs := rfl
@[simp] theorem State.setHostQ_prog : (s.setHostQ k v).prog = s.prog := rfl
@[simp] theorem State.setHostQ_feeds : (s.setHostQ k v).feeds = s.feeds := rfl
@[simp] theorem State.setHostQ_windows : (s.setHostQ k v).windows = s.windows := rfl
@[simp] theorem State.setHostQ_ctl : (s.setHostQ k v).ctl = s.ctl := rfl
@[simp] theorem State.setHostQ_evtSeq : (s.setHostQ k v).evtSeq = s.evtSeq := rfl
@[simp] theorem State.setHostQ_log : (s.setHostQ k v).log = s.log := rfl
@[simp] theorem State.setHostQ_breaches : (s.setHostQ k v).breaches = s.breaches := rfl
@[simp] theorem State.setHostQ_breachQ : (s.setHostQ k v).breachQ = s.breachQ := rfl
@[simp] theorem State.setHostQ_recWindows : (s.setHostQ k v).recWindows = s.recWindows := rfl
@[simp] theorem State.setHostQ_dumpWritten : (s.setHostQ k v).dumpWritten = s.dumpWritten := rfl
@[simp] theorem State.setHostQ_dumpReleased : (s.setHostQ k v).dumpReleased = s.dumpReleased := rfl
@[simp] theorem State.setHostQ_dumpKey : (s.setHostQ k v).dumpKey = s.dumpKey := rfl
@[simp] theorem State.setHostQ_fatal : (s.setHostQ k v).fatal = s.fatal := rfl
@[simp] theorem State.setHostQ_lostPolders : (s.setHostQ k v).lostPolders = s.lostPolders := rfl
@[simp] theorem State.setHostQ_standby : (s.setHostQ k v).standby = s.standby := rfl
@[simp] theorem State.setHostQ_resync : (s.setHostQ k v).resync = s.resync := rfl
@[simp] theorem State.setHostQ_restore : (s.setHostQ k v).restore = s.restore := rfl
@[simp] theorem State.setHostQ_restored : (s.setHostQ k v).restored = s.restored := rfl
@[simp] theorem State.setHostQ_flash : (s.setHostQ k v).flash = s.flash := rfl
@[simp] theorem State.setHostQ_flashPart : (s.setHostQ k v).flashPart = s.flashPart := rfl
@[simp] theorem State.setHostQ_activated : (s.setHostQ k v).activated = s.activated := rfl
@[simp] theorem State.setHostQ_otp : (s.setHostQ k v).otp = s.otp := rfl
@[simp] theorem State.setHostQ_cfg : (s.setHostQ k v).cfg = s.cfg := rfl
@[simp] theorem State.setHostQ_fwVerified : (s.setHostQ k v).fwVerified = s.fwVerified := rfl
@[simp] theorem State.setHostQ_cfgVerified : (s.setHostQ k v).cfgVerified = s.cfgVerified := rfl
@[simp] theorem State.setHostQ_healthDirty : (s.setHostQ k v).healthDirty = s.healthDirty := rfl
@[simp] theorem State.setHostQ_healthGen : (s.setHostQ k v).healthGen = s.healthGen := rfl
@[simp] theorem State.setHostQ_power : (s.setHostQ k v).power = s.power := rfl
@[simp] theorem State.setHostQ_rails : (s.setHostQ k v).rails = s.rails := rfl
@[simp] theorem State.setHostQ_railsOff : (s.setHostQ k v).railsOff = s.railsOff := rfl
@[simp] theorem State.setHostQ_pwrStates : (s.setHostQ k v).pwrStates = s.pwrStates := rfl
@[simp] theorem State.setHostQ_energy : (s.setHostQ k v).energy = s.energy := rfl
@[simp] theorem State.setHostQ_inputAt : (s.setHostQ k v).inputAt = s.inputAt := rfl
@[simp] theorem State.setHostQ_actThrottle : (s.setHostQ k v).actThrottle = s.actThrottle := rfl
@[simp] theorem State.setHostQ_resetHeld : (s.setHostQ k v).resetHeld = s.resetHeld := rfl
@[simp] theorem State.setHostQ_thermLatch : (s.setHostQ k v).thermLatch = s.thermLatch := rfl
@[simp] theorem State.setHostQ_houseRail : (s.setHostQ k v).houseRail = s.houseRail := rfl
@[simp] theorem State.setHostQ_straps : (s.setHostQ k v).straps = s.straps := rfl
@[simp] theorem State.setHostQ_tap : (s.setHostQ k v).tap = s.tap := rfl
@[simp] theorem State.setHostQ_mgmtRsp : (s.setHostQ k v).mgmtRsp = s.mgmtRsp := rfl
@[simp] theorem State.setHostQ_mgmtDue : (s.setHostQ k v).mgmtDue = s.mgmtDue := rfl
@[simp] theorem State.setHostQ_now : (s.setHostQ k v).now = s.now := rfl
@[simp] theorem State.setHostQ_freeCtr : (s.setHostQ k v).freeCtr = s.freeCtr := rfl
@[simp] theorem State.setHostQ_pending : (s.setHostQ k v).pending = s.pending := rfl
@[simp] theorem State.reg_setHostQ (j : Nat) : (s.setHostQ k v).reg j = s.reg j := rfl
@[simp] theorem State.island_setHostQ (j : Nat) : (s.setHostQ k v).island j = s.island j := rfl
@[simp] theorem State.core_setHostQ (j : Nat) : (s.setHostQ k v).core j = s.core j := rfl
@[simp] theorem State.die_setHostQ (j : Nat) : (s.setHostQ k v).die j = s.die j := rfl
@[simp] theorem State.arb_setHostQ (j : Nat) : (s.setHostQ k v).arb j = s.arb j := rfl
@[simp] theorem State.chan_setHostQ (j : Nat) : (s.setHostQ k v).chan j = s.chan j := rfl
@[simp] theorem State.bridge_setHostQ (j : Nat) : (s.setHostQ k v).bridge j = s.bridge j := rfl
@[simp] theorem State.engine_setHostQ (j : Nat) : (s.setHostQ k v).engine j = s.engine j := rfl
@[simp] theorem State.link_setHostQ (j : Nat) : (s.setHostQ k v).link j = s.link j := rfl
@[simp] theorem State.txFlow_setHostQ (j : Nat) : (s.setHostQ k v).txFlow j = s.txFlow j := rfl
@[simp] theorem State.rxFlow_setHostQ (j : Nat) : (s.setHostQ k v).rxFlow j = s.rxFlow j := rfl
@[simp] theorem State.alloc_setHostQ (j : Nat) : (s.setHostQ k v).alloc j = s.alloc j := rfl
@[simp] theorem State.desc_setHostQ (j : Nat) : (s.setHostQ k v).desc j = s.desc j := rfl
@[simp] theorem State.feed_setHostQ (j : Nat) : (s.setHostQ k v).feed j = s.feed j := rfl
@[simp] theorem State.window_setHostQ (j : Nat) : (s.setHostQ k v).window j = s.window j := rfl
@[simp] theorem State.hostQ_setHostQ_self : (s.setHostQ k v).hostQ k = v := SMap.get_set_self _ _ k v
theorem State.hostQ_setHostQ (j : Nat) : (s.setHostQ k v).hostQ j = if j = k then v else s.hostQ j :=
  SMap.get_set _ _ k j v
theorem State.hostQ_setHostQ_ne (j : Nat) (h : j ≠ k) : (s.setHostQ k v).hostQ j = s.hostQ j := SMap.get_set_ne _ _ v h

end

/-! ### `setAlloc` -/

section
variable (s : State) (k : Nat) (v : Option Alloc)

@[simp] theorem State.setAlloc_regs : (s.setAlloc k v).regs = s.regs := rfl
@[simp] theorem State.setAlloc_latch : (s.setAlloc k v).latch = s.latch := rfl
@[simp] theorem State.setAlloc_readData : (s.setAlloc k v).readData = s.readData := rfl
@[simp] theorem State.setAlloc_evcStage : (s.setAlloc k v).evcStage = s.evcStage := rfl
@[simp] theorem State.setAlloc_evcMsgs : (s.setAlloc k v).evcMsgs = s.evcMsgs := rfl
@[simp] theorem State.setAlloc_thrFired : (s.setAlloc k v).thrFired = s.thrFired := rfl
@[simp] theorem State.setAlloc_mem : (s.setAlloc k v).mem = s.mem := rfl
@[simp] theorem State.setAlloc_poison : (s.setAlloc k v).poison = s.poison := rfl
@[simp] theorem State.setAlloc_islands : (s.setAlloc k v).islands = s.islands := rfl
@[simp] theorem State.setAlloc_cores : (s.setAlloc k v).cores = s.cores := rfl
@[simp] theorem State.setAlloc_dies : (s.setAlloc k v).dies = s.dies := rfl
@[simp] theorem State.setAlloc_arbs : (s.setAlloc k v).arbs = s.arbs := rfl
@[simp] theorem State.setAlloc_chans : (s.setAlloc k v).chans = s.chans := rfl
@[simp] theorem State.setAlloc_bridges : (s.setAlloc k v).bridges = s.bridges := rfl
@[simp] theorem State.setAlloc_engines : (s.setAlloc k v).engines = s.engines := rfl
@[simp] theorem State.setAlloc_links : (s.setAlloc k v).links = s.links := rfl
@[simp] theorem State.setAlloc_xfer : (s.setAlloc k v).xfer = s.xfer := rfl
@[simp] theorem State.setAlloc_txFlows : (s.setAlloc k v).txFlows = s.txFlows := rfl
@[simp] theorem State.setAlloc_rxFlows : (s.setAlloc k v).rxFlows = s.rxFlows := rfl
@[simp] theorem State.setAlloc_reads : (s.setAlloc k v).reads = s.reads := rfl
@[simp] theorem State.setAlloc_nextTag : (s.setAlloc k v).nextTag = s.nextTag := rfl
@[simp] theorem State.setAlloc_staged : (s.setAlloc k v).staged = s.staged := rfl
@[simp] theorem State.setAlloc_norms : (s.setAlloc k v).norms = s.norms := rfl
@[simp] theorem State.setAlloc_freed : (s.setAlloc k v).freed = s.freed := rfl
@[simp] theorem State.setAlloc_descs : (s.setAlloc k v).descs = s.descs := rfl
@[simp] theorem State.setAlloc_prog : (s.setAlloc k v).prog = s.prog := rfl
@[simp] theorem State.setAlloc_feeds : (s.setAlloc k v).feeds = s.feeds := rfl
@[simp] theorem State.setAlloc_windows : (s.setAlloc k v).windows = s.windows := rfl
@[simp] theorem State.setAlloc_ctl : (s.setAlloc k v).ctl = s.ctl := rfl
@[simp] theorem State.setAlloc_hostQs : (s.setAlloc k v).hostQs = s.hostQs := rfl
@[simp] theorem State.setAlloc_evtSeq : (s.setAlloc k v).evtSeq = s.evtSeq := rfl
@[simp] theorem State.setAlloc_log : (s.setAlloc k v).log = s.log := rfl
@[simp] theorem State.setAlloc_breaches : (s.setAlloc k v).breaches = s.breaches := rfl
@[simp] theorem State.setAlloc_breachQ : (s.setAlloc k v).breachQ = s.breachQ := rfl
@[simp] theorem State.setAlloc_recWindows : (s.setAlloc k v).recWindows = s.recWindows := rfl
@[simp] theorem State.setAlloc_dumpWritten : (s.setAlloc k v).dumpWritten = s.dumpWritten := rfl
@[simp] theorem State.setAlloc_dumpReleased : (s.setAlloc k v).dumpReleased = s.dumpReleased := rfl
@[simp] theorem State.setAlloc_dumpKey : (s.setAlloc k v).dumpKey = s.dumpKey := rfl
@[simp] theorem State.setAlloc_fatal : (s.setAlloc k v).fatal = s.fatal := rfl
@[simp] theorem State.setAlloc_lostPolders : (s.setAlloc k v).lostPolders = s.lostPolders := rfl
@[simp] theorem State.setAlloc_standby : (s.setAlloc k v).standby = s.standby := rfl
@[simp] theorem State.setAlloc_resync : (s.setAlloc k v).resync = s.resync := rfl
@[simp] theorem State.setAlloc_restore : (s.setAlloc k v).restore = s.restore := rfl
@[simp] theorem State.setAlloc_restored : (s.setAlloc k v).restored = s.restored := rfl
@[simp] theorem State.setAlloc_flash : (s.setAlloc k v).flash = s.flash := rfl
@[simp] theorem State.setAlloc_flashPart : (s.setAlloc k v).flashPart = s.flashPart := rfl
@[simp] theorem State.setAlloc_activated : (s.setAlloc k v).activated = s.activated := rfl
@[simp] theorem State.setAlloc_otp : (s.setAlloc k v).otp = s.otp := rfl
@[simp] theorem State.setAlloc_cfg : (s.setAlloc k v).cfg = s.cfg := rfl
@[simp] theorem State.setAlloc_fwVerified : (s.setAlloc k v).fwVerified = s.fwVerified := rfl
@[simp] theorem State.setAlloc_cfgVerified : (s.setAlloc k v).cfgVerified = s.cfgVerified := rfl
@[simp] theorem State.setAlloc_healthDirty : (s.setAlloc k v).healthDirty = s.healthDirty := rfl
@[simp] theorem State.setAlloc_healthGen : (s.setAlloc k v).healthGen = s.healthGen := rfl
@[simp] theorem State.setAlloc_power : (s.setAlloc k v).power = s.power := rfl
@[simp] theorem State.setAlloc_rails : (s.setAlloc k v).rails = s.rails := rfl
@[simp] theorem State.setAlloc_railsOff : (s.setAlloc k v).railsOff = s.railsOff := rfl
@[simp] theorem State.setAlloc_pwrStates : (s.setAlloc k v).pwrStates = s.pwrStates := rfl
@[simp] theorem State.setAlloc_energy : (s.setAlloc k v).energy = s.energy := rfl
@[simp] theorem State.setAlloc_inputAt : (s.setAlloc k v).inputAt = s.inputAt := rfl
@[simp] theorem State.setAlloc_actThrottle : (s.setAlloc k v).actThrottle = s.actThrottle := rfl
@[simp] theorem State.setAlloc_resetHeld : (s.setAlloc k v).resetHeld = s.resetHeld := rfl
@[simp] theorem State.setAlloc_thermLatch : (s.setAlloc k v).thermLatch = s.thermLatch := rfl
@[simp] theorem State.setAlloc_houseRail : (s.setAlloc k v).houseRail = s.houseRail := rfl
@[simp] theorem State.setAlloc_straps : (s.setAlloc k v).straps = s.straps := rfl
@[simp] theorem State.setAlloc_tap : (s.setAlloc k v).tap = s.tap := rfl
@[simp] theorem State.setAlloc_mgmtRsp : (s.setAlloc k v).mgmtRsp = s.mgmtRsp := rfl
@[simp] theorem State.setAlloc_mgmtDue : (s.setAlloc k v).mgmtDue = s.mgmtDue := rfl
@[simp] theorem State.setAlloc_now : (s.setAlloc k v).now = s.now := rfl
@[simp] theorem State.setAlloc_freeCtr : (s.setAlloc k v).freeCtr = s.freeCtr := rfl
@[simp] theorem State.setAlloc_pending : (s.setAlloc k v).pending = s.pending := rfl
@[simp] theorem State.reg_setAlloc (j : Nat) : (s.setAlloc k v).reg j = s.reg j := rfl
@[simp] theorem State.island_setAlloc (j : Nat) : (s.setAlloc k v).island j = s.island j := rfl
@[simp] theorem State.core_setAlloc (j : Nat) : (s.setAlloc k v).core j = s.core j := rfl
@[simp] theorem State.die_setAlloc (j : Nat) : (s.setAlloc k v).die j = s.die j := rfl
@[simp] theorem State.arb_setAlloc (j : Nat) : (s.setAlloc k v).arb j = s.arb j := rfl
@[simp] theorem State.chan_setAlloc (j : Nat) : (s.setAlloc k v).chan j = s.chan j := rfl
@[simp] theorem State.bridge_setAlloc (j : Nat) : (s.setAlloc k v).bridge j = s.bridge j := rfl
@[simp] theorem State.engine_setAlloc (j : Nat) : (s.setAlloc k v).engine j = s.engine j := rfl
@[simp] theorem State.link_setAlloc (j : Nat) : (s.setAlloc k v).link j = s.link j := rfl
@[simp] theorem State.txFlow_setAlloc (j : Nat) : (s.setAlloc k v).txFlow j = s.txFlow j := rfl
@[simp] theorem State.rxFlow_setAlloc (j : Nat) : (s.setAlloc k v).rxFlow j = s.rxFlow j := rfl
@[simp] theorem State.hostQ_setAlloc (j : Nat) : (s.setAlloc k v).hostQ j = s.hostQ j := rfl
@[simp] theorem State.desc_setAlloc (j : Nat) : (s.setAlloc k v).desc j = s.desc j := rfl
@[simp] theorem State.feed_setAlloc (j : Nat) : (s.setAlloc k v).feed j = s.feed j := rfl
@[simp] theorem State.window_setAlloc (j : Nat) : (s.setAlloc k v).window j = s.window j := rfl
@[simp] theorem State.alloc_setAlloc_self : (s.setAlloc k v).alloc k = v := SMap.get_set_self _ _ k v
theorem State.alloc_setAlloc (j : Nat) : (s.setAlloc k v).alloc j = if j = k then v else s.alloc j :=
  SMap.get_set _ _ k j v
theorem State.alloc_setAlloc_ne (j : Nat) (h : j ≠ k) : (s.setAlloc k v).alloc j = s.alloc j := SMap.get_set_ne _ _ v h

end

/-! ### `setDesc` -/

section
variable (s : State) (k : Nat) (v : Option DescSlot)

@[simp] theorem State.setDesc_regs : (s.setDesc k v).regs = s.regs := rfl
@[simp] theorem State.setDesc_latch : (s.setDesc k v).latch = s.latch := rfl
@[simp] theorem State.setDesc_readData : (s.setDesc k v).readData = s.readData := rfl
@[simp] theorem State.setDesc_evcStage : (s.setDesc k v).evcStage = s.evcStage := rfl
@[simp] theorem State.setDesc_evcMsgs : (s.setDesc k v).evcMsgs = s.evcMsgs := rfl
@[simp] theorem State.setDesc_thrFired : (s.setDesc k v).thrFired = s.thrFired := rfl
@[simp] theorem State.setDesc_mem : (s.setDesc k v).mem = s.mem := rfl
@[simp] theorem State.setDesc_poison : (s.setDesc k v).poison = s.poison := rfl
@[simp] theorem State.setDesc_islands : (s.setDesc k v).islands = s.islands := rfl
@[simp] theorem State.setDesc_cores : (s.setDesc k v).cores = s.cores := rfl
@[simp] theorem State.setDesc_dies : (s.setDesc k v).dies = s.dies := rfl
@[simp] theorem State.setDesc_arbs : (s.setDesc k v).arbs = s.arbs := rfl
@[simp] theorem State.setDesc_chans : (s.setDesc k v).chans = s.chans := rfl
@[simp] theorem State.setDesc_bridges : (s.setDesc k v).bridges = s.bridges := rfl
@[simp] theorem State.setDesc_engines : (s.setDesc k v).engines = s.engines := rfl
@[simp] theorem State.setDesc_links : (s.setDesc k v).links = s.links := rfl
@[simp] theorem State.setDesc_xfer : (s.setDesc k v).xfer = s.xfer := rfl
@[simp] theorem State.setDesc_txFlows : (s.setDesc k v).txFlows = s.txFlows := rfl
@[simp] theorem State.setDesc_rxFlows : (s.setDesc k v).rxFlows = s.rxFlows := rfl
@[simp] theorem State.setDesc_reads : (s.setDesc k v).reads = s.reads := rfl
@[simp] theorem State.setDesc_nextTag : (s.setDesc k v).nextTag = s.nextTag := rfl
@[simp] theorem State.setDesc_staged : (s.setDesc k v).staged = s.staged := rfl
@[simp] theorem State.setDesc_norms : (s.setDesc k v).norms = s.norms := rfl
@[simp] theorem State.setDesc_allocs : (s.setDesc k v).allocs = s.allocs := rfl
@[simp] theorem State.setDesc_freed : (s.setDesc k v).freed = s.freed := rfl
@[simp] theorem State.setDesc_prog : (s.setDesc k v).prog = s.prog := rfl
@[simp] theorem State.setDesc_feeds : (s.setDesc k v).feeds = s.feeds := rfl
@[simp] theorem State.setDesc_windows : (s.setDesc k v).windows = s.windows := rfl
@[simp] theorem State.setDesc_ctl : (s.setDesc k v).ctl = s.ctl := rfl
@[simp] theorem State.setDesc_hostQs : (s.setDesc k v).hostQs = s.hostQs := rfl
@[simp] theorem State.setDesc_evtSeq : (s.setDesc k v).evtSeq = s.evtSeq := rfl
@[simp] theorem State.setDesc_log : (s.setDesc k v).log = s.log := rfl
@[simp] theorem State.setDesc_breaches : (s.setDesc k v).breaches = s.breaches := rfl
@[simp] theorem State.setDesc_breachQ : (s.setDesc k v).breachQ = s.breachQ := rfl
@[simp] theorem State.setDesc_recWindows : (s.setDesc k v).recWindows = s.recWindows := rfl
@[simp] theorem State.setDesc_dumpWritten : (s.setDesc k v).dumpWritten = s.dumpWritten := rfl
@[simp] theorem State.setDesc_dumpReleased : (s.setDesc k v).dumpReleased = s.dumpReleased := rfl
@[simp] theorem State.setDesc_dumpKey : (s.setDesc k v).dumpKey = s.dumpKey := rfl
@[simp] theorem State.setDesc_fatal : (s.setDesc k v).fatal = s.fatal := rfl
@[simp] theorem State.setDesc_lostPolders : (s.setDesc k v).lostPolders = s.lostPolders := rfl
@[simp] theorem State.setDesc_standby : (s.setDesc k v).standby = s.standby := rfl
@[simp] theorem State.setDesc_resync : (s.setDesc k v).resync = s.resync := rfl
@[simp] theorem State.setDesc_restore : (s.setDesc k v).restore = s.restore := rfl
@[simp] theorem State.setDesc_restored : (s.setDesc k v).restored = s.restored := rfl
@[simp] theorem State.setDesc_flash : (s.setDesc k v).flash = s.flash := rfl
@[simp] theorem State.setDesc_flashPart : (s.setDesc k v).flashPart = s.flashPart := rfl
@[simp] theorem State.setDesc_activated : (s.setDesc k v).activated = s.activated := rfl
@[simp] theorem State.setDesc_otp : (s.setDesc k v).otp = s.otp := rfl
@[simp] theorem State.setDesc_cfg : (s.setDesc k v).cfg = s.cfg := rfl
@[simp] theorem State.setDesc_fwVerified : (s.setDesc k v).fwVerified = s.fwVerified := rfl
@[simp] theorem State.setDesc_cfgVerified : (s.setDesc k v).cfgVerified = s.cfgVerified := rfl
@[simp] theorem State.setDesc_healthDirty : (s.setDesc k v).healthDirty = s.healthDirty := rfl
@[simp] theorem State.setDesc_healthGen : (s.setDesc k v).healthGen = s.healthGen := rfl
@[simp] theorem State.setDesc_power : (s.setDesc k v).power = s.power := rfl
@[simp] theorem State.setDesc_rails : (s.setDesc k v).rails = s.rails := rfl
@[simp] theorem State.setDesc_railsOff : (s.setDesc k v).railsOff = s.railsOff := rfl
@[simp] theorem State.setDesc_pwrStates : (s.setDesc k v).pwrStates = s.pwrStates := rfl
@[simp] theorem State.setDesc_energy : (s.setDesc k v).energy = s.energy := rfl
@[simp] theorem State.setDesc_inputAt : (s.setDesc k v).inputAt = s.inputAt := rfl
@[simp] theorem State.setDesc_actThrottle : (s.setDesc k v).actThrottle = s.actThrottle := rfl
@[simp] theorem State.setDesc_resetHeld : (s.setDesc k v).resetHeld = s.resetHeld := rfl
@[simp] theorem State.setDesc_thermLatch : (s.setDesc k v).thermLatch = s.thermLatch := rfl
@[simp] theorem State.setDesc_houseRail : (s.setDesc k v).houseRail = s.houseRail := rfl
@[simp] theorem State.setDesc_straps : (s.setDesc k v).straps = s.straps := rfl
@[simp] theorem State.setDesc_tap : (s.setDesc k v).tap = s.tap := rfl
@[simp] theorem State.setDesc_mgmtRsp : (s.setDesc k v).mgmtRsp = s.mgmtRsp := rfl
@[simp] theorem State.setDesc_mgmtDue : (s.setDesc k v).mgmtDue = s.mgmtDue := rfl
@[simp] theorem State.setDesc_now : (s.setDesc k v).now = s.now := rfl
@[simp] theorem State.setDesc_freeCtr : (s.setDesc k v).freeCtr = s.freeCtr := rfl
@[simp] theorem State.setDesc_pending : (s.setDesc k v).pending = s.pending := rfl
@[simp] theorem State.reg_setDesc (j : Nat) : (s.setDesc k v).reg j = s.reg j := rfl
@[simp] theorem State.island_setDesc (j : Nat) : (s.setDesc k v).island j = s.island j := rfl
@[simp] theorem State.core_setDesc (j : Nat) : (s.setDesc k v).core j = s.core j := rfl
@[simp] theorem State.die_setDesc (j : Nat) : (s.setDesc k v).die j = s.die j := rfl
@[simp] theorem State.arb_setDesc (j : Nat) : (s.setDesc k v).arb j = s.arb j := rfl
@[simp] theorem State.chan_setDesc (j : Nat) : (s.setDesc k v).chan j = s.chan j := rfl
@[simp] theorem State.bridge_setDesc (j : Nat) : (s.setDesc k v).bridge j = s.bridge j := rfl
@[simp] theorem State.engine_setDesc (j : Nat) : (s.setDesc k v).engine j = s.engine j := rfl
@[simp] theorem State.link_setDesc (j : Nat) : (s.setDesc k v).link j = s.link j := rfl
@[simp] theorem State.txFlow_setDesc (j : Nat) : (s.setDesc k v).txFlow j = s.txFlow j := rfl
@[simp] theorem State.rxFlow_setDesc (j : Nat) : (s.setDesc k v).rxFlow j = s.rxFlow j := rfl
@[simp] theorem State.hostQ_setDesc (j : Nat) : (s.setDesc k v).hostQ j = s.hostQ j := rfl
@[simp] theorem State.alloc_setDesc (j : Nat) : (s.setDesc k v).alloc j = s.alloc j := rfl
@[simp] theorem State.feed_setDesc (j : Nat) : (s.setDesc k v).feed j = s.feed j := rfl
@[simp] theorem State.window_setDesc (j : Nat) : (s.setDesc k v).window j = s.window j := rfl
@[simp] theorem State.desc_setDesc_self : (s.setDesc k v).desc k = v := SMap.get_set_self _ _ k v
theorem State.desc_setDesc (j : Nat) : (s.setDesc k v).desc j = if j = k then v else s.desc j :=
  SMap.get_set _ _ k j v
theorem State.desc_setDesc_ne (j : Nat) (h : j ≠ k) : (s.setDesc k v).desc j = s.desc j := SMap.get_set_ne _ _ v h

end

/-! ### `setFeed` -/

section
variable (s : State) (k : Nat) (v : Option Feed)

@[simp] theorem State.setFeed_regs : (s.setFeed k v).regs = s.regs := rfl
@[simp] theorem State.setFeed_latch : (s.setFeed k v).latch = s.latch := rfl
@[simp] theorem State.setFeed_readData : (s.setFeed k v).readData = s.readData := rfl
@[simp] theorem State.setFeed_evcStage : (s.setFeed k v).evcStage = s.evcStage := rfl
@[simp] theorem State.setFeed_evcMsgs : (s.setFeed k v).evcMsgs = s.evcMsgs := rfl
@[simp] theorem State.setFeed_thrFired : (s.setFeed k v).thrFired = s.thrFired := rfl
@[simp] theorem State.setFeed_mem : (s.setFeed k v).mem = s.mem := rfl
@[simp] theorem State.setFeed_poison : (s.setFeed k v).poison = s.poison := rfl
@[simp] theorem State.setFeed_islands : (s.setFeed k v).islands = s.islands := rfl
@[simp] theorem State.setFeed_cores : (s.setFeed k v).cores = s.cores := rfl
@[simp] theorem State.setFeed_dies : (s.setFeed k v).dies = s.dies := rfl
@[simp] theorem State.setFeed_arbs : (s.setFeed k v).arbs = s.arbs := rfl
@[simp] theorem State.setFeed_chans : (s.setFeed k v).chans = s.chans := rfl
@[simp] theorem State.setFeed_bridges : (s.setFeed k v).bridges = s.bridges := rfl
@[simp] theorem State.setFeed_engines : (s.setFeed k v).engines = s.engines := rfl
@[simp] theorem State.setFeed_links : (s.setFeed k v).links = s.links := rfl
@[simp] theorem State.setFeed_xfer : (s.setFeed k v).xfer = s.xfer := rfl
@[simp] theorem State.setFeed_txFlows : (s.setFeed k v).txFlows = s.txFlows := rfl
@[simp] theorem State.setFeed_rxFlows : (s.setFeed k v).rxFlows = s.rxFlows := rfl
@[simp] theorem State.setFeed_reads : (s.setFeed k v).reads = s.reads := rfl
@[simp] theorem State.setFeed_nextTag : (s.setFeed k v).nextTag = s.nextTag := rfl
@[simp] theorem State.setFeed_staged : (s.setFeed k v).staged = s.staged := rfl
@[simp] theorem State.setFeed_norms : (s.setFeed k v).norms = s.norms := rfl
@[simp] theorem State.setFeed_allocs : (s.setFeed k v).allocs = s.allocs := rfl
@[simp] theorem State.setFeed_freed : (s.setFeed k v).freed = s.freed := rfl
@[simp] theorem State.setFeed_descs : (s.setFeed k v).descs = s.descs := rfl
@[simp] theorem State.setFeed_prog : (s.setFeed k v).prog = s.prog := rfl
@[simp] theorem State.setFeed_windows : (s.setFeed k v).windows = s.windows := rfl
@[simp] theorem State.setFeed_ctl : (s.setFeed k v).ctl = s.ctl := rfl
@[simp] theorem State.setFeed_hostQs : (s.setFeed k v).hostQs = s.hostQs := rfl
@[simp] theorem State.setFeed_evtSeq : (s.setFeed k v).evtSeq = s.evtSeq := rfl
@[simp] theorem State.setFeed_log : (s.setFeed k v).log = s.log := rfl
@[simp] theorem State.setFeed_breaches : (s.setFeed k v).breaches = s.breaches := rfl
@[simp] theorem State.setFeed_breachQ : (s.setFeed k v).breachQ = s.breachQ := rfl
@[simp] theorem State.setFeed_recWindows : (s.setFeed k v).recWindows = s.recWindows := rfl
@[simp] theorem State.setFeed_dumpWritten : (s.setFeed k v).dumpWritten = s.dumpWritten := rfl
@[simp] theorem State.setFeed_dumpReleased : (s.setFeed k v).dumpReleased = s.dumpReleased := rfl
@[simp] theorem State.setFeed_dumpKey : (s.setFeed k v).dumpKey = s.dumpKey := rfl
@[simp] theorem State.setFeed_fatal : (s.setFeed k v).fatal = s.fatal := rfl
@[simp] theorem State.setFeed_lostPolders : (s.setFeed k v).lostPolders = s.lostPolders := rfl
@[simp] theorem State.setFeed_standby : (s.setFeed k v).standby = s.standby := rfl
@[simp] theorem State.setFeed_resync : (s.setFeed k v).resync = s.resync := rfl
@[simp] theorem State.setFeed_restore : (s.setFeed k v).restore = s.restore := rfl
@[simp] theorem State.setFeed_restored : (s.setFeed k v).restored = s.restored := rfl
@[simp] theorem State.setFeed_flash : (s.setFeed k v).flash = s.flash := rfl
@[simp] theorem State.setFeed_flashPart : (s.setFeed k v).flashPart = s.flashPart := rfl
@[simp] theorem State.setFeed_activated : (s.setFeed k v).activated = s.activated := rfl
@[simp] theorem State.setFeed_otp : (s.setFeed k v).otp = s.otp := rfl
@[simp] theorem State.setFeed_cfg : (s.setFeed k v).cfg = s.cfg := rfl
@[simp] theorem State.setFeed_fwVerified : (s.setFeed k v).fwVerified = s.fwVerified := rfl
@[simp] theorem State.setFeed_cfgVerified : (s.setFeed k v).cfgVerified = s.cfgVerified := rfl
@[simp] theorem State.setFeed_healthDirty : (s.setFeed k v).healthDirty = s.healthDirty := rfl
@[simp] theorem State.setFeed_healthGen : (s.setFeed k v).healthGen = s.healthGen := rfl
@[simp] theorem State.setFeed_power : (s.setFeed k v).power = s.power := rfl
@[simp] theorem State.setFeed_rails : (s.setFeed k v).rails = s.rails := rfl
@[simp] theorem State.setFeed_railsOff : (s.setFeed k v).railsOff = s.railsOff := rfl
@[simp] theorem State.setFeed_pwrStates : (s.setFeed k v).pwrStates = s.pwrStates := rfl
@[simp] theorem State.setFeed_energy : (s.setFeed k v).energy = s.energy := rfl
@[simp] theorem State.setFeed_inputAt : (s.setFeed k v).inputAt = s.inputAt := rfl
@[simp] theorem State.setFeed_actThrottle : (s.setFeed k v).actThrottle = s.actThrottle := rfl
@[simp] theorem State.setFeed_resetHeld : (s.setFeed k v).resetHeld = s.resetHeld := rfl
@[simp] theorem State.setFeed_thermLatch : (s.setFeed k v).thermLatch = s.thermLatch := rfl
@[simp] theorem State.setFeed_houseRail : (s.setFeed k v).houseRail = s.houseRail := rfl
@[simp] theorem State.setFeed_straps : (s.setFeed k v).straps = s.straps := rfl
@[simp] theorem State.setFeed_tap : (s.setFeed k v).tap = s.tap := rfl
@[simp] theorem State.setFeed_mgmtRsp : (s.setFeed k v).mgmtRsp = s.mgmtRsp := rfl
@[simp] theorem State.setFeed_mgmtDue : (s.setFeed k v).mgmtDue = s.mgmtDue := rfl
@[simp] theorem State.setFeed_now : (s.setFeed k v).now = s.now := rfl
@[simp] theorem State.setFeed_freeCtr : (s.setFeed k v).freeCtr = s.freeCtr := rfl
@[simp] theorem State.setFeed_pending : (s.setFeed k v).pending = s.pending := rfl
@[simp] theorem State.reg_setFeed (j : Nat) : (s.setFeed k v).reg j = s.reg j := rfl
@[simp] theorem State.island_setFeed (j : Nat) : (s.setFeed k v).island j = s.island j := rfl
@[simp] theorem State.core_setFeed (j : Nat) : (s.setFeed k v).core j = s.core j := rfl
@[simp] theorem State.die_setFeed (j : Nat) : (s.setFeed k v).die j = s.die j := rfl
@[simp] theorem State.arb_setFeed (j : Nat) : (s.setFeed k v).arb j = s.arb j := rfl
@[simp] theorem State.chan_setFeed (j : Nat) : (s.setFeed k v).chan j = s.chan j := rfl
@[simp] theorem State.bridge_setFeed (j : Nat) : (s.setFeed k v).bridge j = s.bridge j := rfl
@[simp] theorem State.engine_setFeed (j : Nat) : (s.setFeed k v).engine j = s.engine j := rfl
@[simp] theorem State.link_setFeed (j : Nat) : (s.setFeed k v).link j = s.link j := rfl
@[simp] theorem State.txFlow_setFeed (j : Nat) : (s.setFeed k v).txFlow j = s.txFlow j := rfl
@[simp] theorem State.rxFlow_setFeed (j : Nat) : (s.setFeed k v).rxFlow j = s.rxFlow j := rfl
@[simp] theorem State.hostQ_setFeed (j : Nat) : (s.setFeed k v).hostQ j = s.hostQ j := rfl
@[simp] theorem State.alloc_setFeed (j : Nat) : (s.setFeed k v).alloc j = s.alloc j := rfl
@[simp] theorem State.desc_setFeed (j : Nat) : (s.setFeed k v).desc j = s.desc j := rfl
@[simp] theorem State.window_setFeed (j : Nat) : (s.setFeed k v).window j = s.window j := rfl
@[simp] theorem State.feed_setFeed_self : (s.setFeed k v).feed k = v := SMap.get_set_self _ _ k v
theorem State.feed_setFeed (j : Nat) : (s.setFeed k v).feed j = if j = k then v else s.feed j :=
  SMap.get_set _ _ k j v
theorem State.feed_setFeed_ne (j : Nat) (h : j ≠ k) : (s.setFeed k v).feed j = s.feed j := SMap.get_set_ne _ _ v h

end

/-! ### `setWindow` -/

section
variable (s : State) (k : Nat) (v : Option Window)

@[simp] theorem State.setWindow_regs : (s.setWindow k v).regs = s.regs := rfl
@[simp] theorem State.setWindow_latch : (s.setWindow k v).latch = s.latch := rfl
@[simp] theorem State.setWindow_readData : (s.setWindow k v).readData = s.readData := rfl
@[simp] theorem State.setWindow_evcStage : (s.setWindow k v).evcStage = s.evcStage := rfl
@[simp] theorem State.setWindow_evcMsgs : (s.setWindow k v).evcMsgs = s.evcMsgs := rfl
@[simp] theorem State.setWindow_thrFired : (s.setWindow k v).thrFired = s.thrFired := rfl
@[simp] theorem State.setWindow_mem : (s.setWindow k v).mem = s.mem := rfl
@[simp] theorem State.setWindow_poison : (s.setWindow k v).poison = s.poison := rfl
@[simp] theorem State.setWindow_islands : (s.setWindow k v).islands = s.islands := rfl
@[simp] theorem State.setWindow_cores : (s.setWindow k v).cores = s.cores := rfl
@[simp] theorem State.setWindow_dies : (s.setWindow k v).dies = s.dies := rfl
@[simp] theorem State.setWindow_arbs : (s.setWindow k v).arbs = s.arbs := rfl
@[simp] theorem State.setWindow_chans : (s.setWindow k v).chans = s.chans := rfl
@[simp] theorem State.setWindow_bridges : (s.setWindow k v).bridges = s.bridges := rfl
@[simp] theorem State.setWindow_engines : (s.setWindow k v).engines = s.engines := rfl
@[simp] theorem State.setWindow_links : (s.setWindow k v).links = s.links := rfl
@[simp] theorem State.setWindow_xfer : (s.setWindow k v).xfer = s.xfer := rfl
@[simp] theorem State.setWindow_txFlows : (s.setWindow k v).txFlows = s.txFlows := rfl
@[simp] theorem State.setWindow_rxFlows : (s.setWindow k v).rxFlows = s.rxFlows := rfl
@[simp] theorem State.setWindow_reads : (s.setWindow k v).reads = s.reads := rfl
@[simp] theorem State.setWindow_nextTag : (s.setWindow k v).nextTag = s.nextTag := rfl
@[simp] theorem State.setWindow_staged : (s.setWindow k v).staged = s.staged := rfl
@[simp] theorem State.setWindow_norms : (s.setWindow k v).norms = s.norms := rfl
@[simp] theorem State.setWindow_allocs : (s.setWindow k v).allocs = s.allocs := rfl
@[simp] theorem State.setWindow_freed : (s.setWindow k v).freed = s.freed := rfl
@[simp] theorem State.setWindow_descs : (s.setWindow k v).descs = s.descs := rfl
@[simp] theorem State.setWindow_prog : (s.setWindow k v).prog = s.prog := rfl
@[simp] theorem State.setWindow_feeds : (s.setWindow k v).feeds = s.feeds := rfl
@[simp] theorem State.setWindow_ctl : (s.setWindow k v).ctl = s.ctl := rfl
@[simp] theorem State.setWindow_hostQs : (s.setWindow k v).hostQs = s.hostQs := rfl
@[simp] theorem State.setWindow_evtSeq : (s.setWindow k v).evtSeq = s.evtSeq := rfl
@[simp] theorem State.setWindow_log : (s.setWindow k v).log = s.log := rfl
@[simp] theorem State.setWindow_breaches : (s.setWindow k v).breaches = s.breaches := rfl
@[simp] theorem State.setWindow_breachQ : (s.setWindow k v).breachQ = s.breachQ := rfl
@[simp] theorem State.setWindow_recWindows : (s.setWindow k v).recWindows = s.recWindows := rfl
@[simp] theorem State.setWindow_dumpWritten : (s.setWindow k v).dumpWritten = s.dumpWritten := rfl
@[simp] theorem State.setWindow_dumpReleased : (s.setWindow k v).dumpReleased = s.dumpReleased := rfl
@[simp] theorem State.setWindow_dumpKey : (s.setWindow k v).dumpKey = s.dumpKey := rfl
@[simp] theorem State.setWindow_fatal : (s.setWindow k v).fatal = s.fatal := rfl
@[simp] theorem State.setWindow_lostPolders : (s.setWindow k v).lostPolders = s.lostPolders := rfl
@[simp] theorem State.setWindow_standby : (s.setWindow k v).standby = s.standby := rfl
@[simp] theorem State.setWindow_resync : (s.setWindow k v).resync = s.resync := rfl
@[simp] theorem State.setWindow_restore : (s.setWindow k v).restore = s.restore := rfl
@[simp] theorem State.setWindow_restored : (s.setWindow k v).restored = s.restored := rfl
@[simp] theorem State.setWindow_flash : (s.setWindow k v).flash = s.flash := rfl
@[simp] theorem State.setWindow_flashPart : (s.setWindow k v).flashPart = s.flashPart := rfl
@[simp] theorem State.setWindow_activated : (s.setWindow k v).activated = s.activated := rfl
@[simp] theorem State.setWindow_otp : (s.setWindow k v).otp = s.otp := rfl
@[simp] theorem State.setWindow_cfg : (s.setWindow k v).cfg = s.cfg := rfl
@[simp] theorem State.setWindow_fwVerified : (s.setWindow k v).fwVerified = s.fwVerified := rfl
@[simp] theorem State.setWindow_cfgVerified : (s.setWindow k v).cfgVerified = s.cfgVerified := rfl
@[simp] theorem State.setWindow_healthDirty : (s.setWindow k v).healthDirty = s.healthDirty := rfl
@[simp] theorem State.setWindow_healthGen : (s.setWindow k v).healthGen = s.healthGen := rfl
@[simp] theorem State.setWindow_power : (s.setWindow k v).power = s.power := rfl
@[simp] theorem State.setWindow_rails : (s.setWindow k v).rails = s.rails := rfl
@[simp] theorem State.setWindow_railsOff : (s.setWindow k v).railsOff = s.railsOff := rfl
@[simp] theorem State.setWindow_pwrStates : (s.setWindow k v).pwrStates = s.pwrStates := rfl
@[simp] theorem State.setWindow_energy : (s.setWindow k v).energy = s.energy := rfl
@[simp] theorem State.setWindow_inputAt : (s.setWindow k v).inputAt = s.inputAt := rfl
@[simp] theorem State.setWindow_actThrottle : (s.setWindow k v).actThrottle = s.actThrottle := rfl
@[simp] theorem State.setWindow_resetHeld : (s.setWindow k v).resetHeld = s.resetHeld := rfl
@[simp] theorem State.setWindow_thermLatch : (s.setWindow k v).thermLatch = s.thermLatch := rfl
@[simp] theorem State.setWindow_houseRail : (s.setWindow k v).houseRail = s.houseRail := rfl
@[simp] theorem State.setWindow_straps : (s.setWindow k v).straps = s.straps := rfl
@[simp] theorem State.setWindow_tap : (s.setWindow k v).tap = s.tap := rfl
@[simp] theorem State.setWindow_mgmtRsp : (s.setWindow k v).mgmtRsp = s.mgmtRsp := rfl
@[simp] theorem State.setWindow_mgmtDue : (s.setWindow k v).mgmtDue = s.mgmtDue := rfl
@[simp] theorem State.setWindow_now : (s.setWindow k v).now = s.now := rfl
@[simp] theorem State.setWindow_freeCtr : (s.setWindow k v).freeCtr = s.freeCtr := rfl
@[simp] theorem State.setWindow_pending : (s.setWindow k v).pending = s.pending := rfl
@[simp] theorem State.reg_setWindow (j : Nat) : (s.setWindow k v).reg j = s.reg j := rfl
@[simp] theorem State.island_setWindow (j : Nat) : (s.setWindow k v).island j = s.island j := rfl
@[simp] theorem State.core_setWindow (j : Nat) : (s.setWindow k v).core j = s.core j := rfl
@[simp] theorem State.die_setWindow (j : Nat) : (s.setWindow k v).die j = s.die j := rfl
@[simp] theorem State.arb_setWindow (j : Nat) : (s.setWindow k v).arb j = s.arb j := rfl
@[simp] theorem State.chan_setWindow (j : Nat) : (s.setWindow k v).chan j = s.chan j := rfl
@[simp] theorem State.bridge_setWindow (j : Nat) : (s.setWindow k v).bridge j = s.bridge j := rfl
@[simp] theorem State.engine_setWindow (j : Nat) : (s.setWindow k v).engine j = s.engine j := rfl
@[simp] theorem State.link_setWindow (j : Nat) : (s.setWindow k v).link j = s.link j := rfl
@[simp] theorem State.txFlow_setWindow (j : Nat) : (s.setWindow k v).txFlow j = s.txFlow j := rfl
@[simp] theorem State.rxFlow_setWindow (j : Nat) : (s.setWindow k v).rxFlow j = s.rxFlow j := rfl
@[simp] theorem State.hostQ_setWindow (j : Nat) : (s.setWindow k v).hostQ j = s.hostQ j := rfl
@[simp] theorem State.alloc_setWindow (j : Nat) : (s.setWindow k v).alloc j = s.alloc j := rfl
@[simp] theorem State.desc_setWindow (j : Nat) : (s.setWindow k v).desc j = s.desc j := rfl
@[simp] theorem State.feed_setWindow (j : Nat) : (s.setWindow k v).feed j = s.feed j := rfl
@[simp] theorem State.window_setWindow_self : (s.setWindow k v).window k = v := SMap.get_set_self _ _ k v
theorem State.window_setWindow (j : Nat) : (s.setWindow k v).window j = if j = k then v else s.window j :=
  SMap.get_set _ _ k j v
theorem State.window_setWindow_ne (j : Nat) (h : j ≠ k) : (s.setWindow k v).window j = s.window j := SMap.get_set_ne _ _ v h

end

/-! ### `draw` -/

@[simp] theorem State.draw_regs (s : State) : s.draw.2.regs = s.regs := rfl
@[simp] theorem State.draw_latch (s : State) : s.draw.2.latch = s.latch := rfl
@[simp] theorem State.draw_readData (s : State) : s.draw.2.readData = s.readData := rfl
@[simp] theorem State.draw_evcStage (s : State) : s.draw.2.evcStage = s.evcStage := rfl
@[simp] theorem State.draw_evcMsgs (s : State) : s.draw.2.evcMsgs = s.evcMsgs := rfl
@[simp] theorem State.draw_thrFired (s : State) : s.draw.2.thrFired = s.thrFired := rfl
@[simp] theorem State.draw_mem (s : State) : s.draw.2.mem = s.mem := rfl
@[simp] theorem State.draw_poison (s : State) : s.draw.2.poison = s.poison := rfl
@[simp] theorem State.draw_islands (s : State) : s.draw.2.islands = s.islands := rfl
@[simp] theorem State.draw_cores (s : State) : s.draw.2.cores = s.cores := rfl
@[simp] theorem State.draw_dies (s : State) : s.draw.2.dies = s.dies := rfl
@[simp] theorem State.draw_arbs (s : State) : s.draw.2.arbs = s.arbs := rfl
@[simp] theorem State.draw_chans (s : State) : s.draw.2.chans = s.chans := rfl
@[simp] theorem State.draw_bridges (s : State) : s.draw.2.bridges = s.bridges := rfl
@[simp] theorem State.draw_engines (s : State) : s.draw.2.engines = s.engines := rfl
@[simp] theorem State.draw_links (s : State) : s.draw.2.links = s.links := rfl
@[simp] theorem State.draw_xfer (s : State) : s.draw.2.xfer = s.xfer := rfl
@[simp] theorem State.draw_txFlows (s : State) : s.draw.2.txFlows = s.txFlows := rfl
@[simp] theorem State.draw_rxFlows (s : State) : s.draw.2.rxFlows = s.rxFlows := rfl
@[simp] theorem State.draw_reads (s : State) : s.draw.2.reads = s.reads := rfl
@[simp] theorem State.draw_nextTag (s : State) : s.draw.2.nextTag = s.nextTag := rfl
@[simp] theorem State.draw_staged (s : State) : s.draw.2.staged = s.staged := rfl
@[simp] theorem State.draw_norms (s : State) : s.draw.2.norms = s.norms := rfl
@[simp] theorem State.draw_allocs (s : State) : s.draw.2.allocs = s.allocs := rfl
@[simp] theorem State.draw_freed (s : State) : s.draw.2.freed = s.freed := rfl
@[simp] theorem State.draw_descs (s : State) : s.draw.2.descs = s.descs := rfl
@[simp] theorem State.draw_prog (s : State) : s.draw.2.prog = s.prog := rfl
@[simp] theorem State.draw_feeds (s : State) : s.draw.2.feeds = s.feeds := rfl
@[simp] theorem State.draw_windows (s : State) : s.draw.2.windows = s.windows := rfl
@[simp] theorem State.draw_ctl (s : State) : s.draw.2.ctl = s.ctl := rfl
@[simp] theorem State.draw_hostQs (s : State) : s.draw.2.hostQs = s.hostQs := rfl
@[simp] theorem State.draw_evtSeq (s : State) : s.draw.2.evtSeq = s.evtSeq := rfl
@[simp] theorem State.draw_log (s : State) : s.draw.2.log = s.log := rfl
@[simp] theorem State.draw_breaches (s : State) : s.draw.2.breaches = s.breaches := rfl
@[simp] theorem State.draw_breachQ (s : State) : s.draw.2.breachQ = s.breachQ := rfl
@[simp] theorem State.draw_recWindows (s : State) : s.draw.2.recWindows = s.recWindows := rfl
@[simp] theorem State.draw_dumpWritten (s : State) : s.draw.2.dumpWritten = s.dumpWritten := rfl
@[simp] theorem State.draw_dumpReleased (s : State) : s.draw.2.dumpReleased = s.dumpReleased := rfl
@[simp] theorem State.draw_dumpKey (s : State) : s.draw.2.dumpKey = s.dumpKey := rfl
@[simp] theorem State.draw_fatal (s : State) : s.draw.2.fatal = s.fatal := rfl
@[simp] theorem State.draw_lostPolders (s : State) : s.draw.2.lostPolders = s.lostPolders := rfl
@[simp] theorem State.draw_standby (s : State) : s.draw.2.standby = s.standby := rfl
@[simp] theorem State.draw_resync (s : State) : s.draw.2.resync = s.resync := rfl
@[simp] theorem State.draw_restore (s : State) : s.draw.2.restore = s.restore := rfl
@[simp] theorem State.draw_restored (s : State) : s.draw.2.restored = s.restored := rfl
@[simp] theorem State.draw_flash (s : State) : s.draw.2.flash = s.flash := rfl
@[simp] theorem State.draw_flashPart (s : State) : s.draw.2.flashPart = s.flashPart := rfl
@[simp] theorem State.draw_activated (s : State) : s.draw.2.activated = s.activated := rfl
@[simp] theorem State.draw_otp (s : State) : s.draw.2.otp = s.otp := rfl
@[simp] theorem State.draw_cfg (s : State) : s.draw.2.cfg = s.cfg := rfl
@[simp] theorem State.draw_fwVerified (s : State) : s.draw.2.fwVerified = s.fwVerified := rfl
@[simp] theorem State.draw_cfgVerified (s : State) : s.draw.2.cfgVerified = s.cfgVerified := rfl
@[simp] theorem State.draw_healthDirty (s : State) : s.draw.2.healthDirty = s.healthDirty := rfl
@[simp] theorem State.draw_healthGen (s : State) : s.draw.2.healthGen = s.healthGen := rfl
@[simp] theorem State.draw_power (s : State) : s.draw.2.power = s.power := rfl
@[simp] theorem State.draw_rails (s : State) : s.draw.2.rails = s.rails := rfl
@[simp] theorem State.draw_railsOff (s : State) : s.draw.2.railsOff = s.railsOff := rfl
@[simp] theorem State.draw_pwrStates (s : State) : s.draw.2.pwrStates = s.pwrStates := rfl
@[simp] theorem State.draw_energy (s : State) : s.draw.2.energy = s.energy := rfl
@[simp] theorem State.draw_inputAt (s : State) : s.draw.2.inputAt = s.inputAt := rfl
@[simp] theorem State.draw_actThrottle (s : State) : s.draw.2.actThrottle = s.actThrottle := rfl
@[simp] theorem State.draw_resetHeld (s : State) : s.draw.2.resetHeld = s.resetHeld := rfl
@[simp] theorem State.draw_thermLatch (s : State) : s.draw.2.thermLatch = s.thermLatch := rfl
@[simp] theorem State.draw_houseRail (s : State) : s.draw.2.houseRail = s.houseRail := rfl
@[simp] theorem State.draw_straps (s : State) : s.draw.2.straps = s.straps := rfl
@[simp] theorem State.draw_tap (s : State) : s.draw.2.tap = s.tap := rfl
@[simp] theorem State.draw_mgmtRsp (s : State) : s.draw.2.mgmtRsp = s.mgmtRsp := rfl
@[simp] theorem State.draw_mgmtDue (s : State) : s.draw.2.mgmtDue = s.mgmtDue := rfl
@[simp] theorem State.draw_now (s : State) : s.draw.2.now = s.now := rfl
@[simp] theorem State.draw_pending (s : State) : s.draw.2.pending = s.pending := rfl
@[simp] theorem State.reg_draw (s : State) (j : Nat) : s.draw.2.reg j = s.reg j := rfl
@[simp] theorem State.island_draw (s : State) (j : Nat) : s.draw.2.island j = s.island j := rfl
@[simp] theorem State.core_draw (s : State) (j : Nat) : s.draw.2.core j = s.core j := rfl
@[simp] theorem State.die_draw (s : State) (j : Nat) : s.draw.2.die j = s.die j := rfl
@[simp] theorem State.arb_draw (s : State) (j : Nat) : s.draw.2.arb j = s.arb j := rfl
@[simp] theorem State.chan_draw (s : State) (j : Nat) : s.draw.2.chan j = s.chan j := rfl
@[simp] theorem State.bridge_draw (s : State) (j : Nat) : s.draw.2.bridge j = s.bridge j := rfl
@[simp] theorem State.engine_draw (s : State) (j : Nat) : s.draw.2.engine j = s.engine j := rfl
@[simp] theorem State.link_draw (s : State) (j : Nat) : s.draw.2.link j = s.link j := rfl
@[simp] theorem State.txFlow_draw (s : State) (j : Nat) : s.draw.2.txFlow j = s.txFlow j := rfl
@[simp] theorem State.rxFlow_draw (s : State) (j : Nat) : s.draw.2.rxFlow j = s.rxFlow j := rfl
@[simp] theorem State.hostQ_draw (s : State) (j : Nat) : s.draw.2.hostQ j = s.hostQ j := rfl
@[simp] theorem State.alloc_draw (s : State) (j : Nat) : s.draw.2.alloc j = s.alloc j := rfl
@[simp] theorem State.desc_draw (s : State) (j : Nat) : s.draw.2.desc j = s.desc j := rfl
@[simp] theorem State.feed_draw (s : State) (j : Nat) : s.draw.2.feed j = s.feed j := rfl
@[simp] theorem State.window_draw (s : State) (j : Nat) : s.draw.2.window j = s.window j := rfl
@[simp] theorem State.draw_freeCtr (s : State) : s.draw.2.freeCtr = s.freeCtr + 1 := rfl

/-! ### Fields and counters of a register -/

@[simp] theorem State.reg_inc_self (s : State) (a n : Nat) : (s.inc a n).reg a = satAdd (s.reg a) n :=
  State.reg_setReg_self s a _

theorem State.reg_inc_ne (s : State) (a n : Nat) (j : Nat) (h : j ≠ a) : (s.inc a n).reg j = s.reg j :=
  State.reg_setReg_ne s a _ j h

theorem State.reg_setRegF_ne (s : State) (a hi lo v : Nat) (j : Nat) (h : j ≠ a) :
    (s.setRegF a hi lo v).reg j = s.reg j := State.reg_setReg_ne s a _ j h

@[simp] theorem State.inc_latch (s : State) (a n : Nat) : (s.inc a n).latch = s.latch := rfl
@[simp] theorem State.inc_readData (s : State) (a n : Nat) : (s.inc a n).readData = s.readData := rfl
@[simp] theorem State.inc_evcStage (s : State) (a n : Nat) : (s.inc a n).evcStage = s.evcStage := rfl
@[simp] theorem State.inc_evcMsgs (s : State) (a n : Nat) : (s.inc a n).evcMsgs = s.evcMsgs := rfl
@[simp] theorem State.inc_thrFired (s : State) (a n : Nat) : (s.inc a n).thrFired = s.thrFired := rfl
@[simp] theorem State.inc_mem (s : State) (a n : Nat) : (s.inc a n).mem = s.mem := rfl
@[simp] theorem State.inc_poison (s : State) (a n : Nat) : (s.inc a n).poison = s.poison := rfl
@[simp] theorem State.inc_islands (s : State) (a n : Nat) : (s.inc a n).islands = s.islands := rfl
@[simp] theorem State.inc_cores (s : State) (a n : Nat) : (s.inc a n).cores = s.cores := rfl
@[simp] theorem State.inc_dies (s : State) (a n : Nat) : (s.inc a n).dies = s.dies := rfl
@[simp] theorem State.inc_arbs (s : State) (a n : Nat) : (s.inc a n).arbs = s.arbs := rfl
@[simp] theorem State.inc_chans (s : State) (a n : Nat) : (s.inc a n).chans = s.chans := rfl
@[simp] theorem State.inc_bridges (s : State) (a n : Nat) : (s.inc a n).bridges = s.bridges := rfl
@[simp] theorem State.inc_engines (s : State) (a n : Nat) : (s.inc a n).engines = s.engines := rfl
@[simp] theorem State.inc_links (s : State) (a n : Nat) : (s.inc a n).links = s.links := rfl
@[simp] theorem State.inc_xfer (s : State) (a n : Nat) : (s.inc a n).xfer = s.xfer := rfl
@[simp] theorem State.inc_txFlows (s : State) (a n : Nat) : (s.inc a n).txFlows = s.txFlows := rfl
@[simp] theorem State.inc_rxFlows (s : State) (a n : Nat) : (s.inc a n).rxFlows = s.rxFlows := rfl
@[simp] theorem State.inc_reads (s : State) (a n : Nat) : (s.inc a n).reads = s.reads := rfl
@[simp] theorem State.inc_nextTag (s : State) (a n : Nat) : (s.inc a n).nextTag = s.nextTag := rfl
@[simp] theorem State.inc_staged (s : State) (a n : Nat) : (s.inc a n).staged = s.staged := rfl
@[simp] theorem State.inc_norms (s : State) (a n : Nat) : (s.inc a n).norms = s.norms := rfl
@[simp] theorem State.inc_allocs (s : State) (a n : Nat) : (s.inc a n).allocs = s.allocs := rfl
@[simp] theorem State.inc_freed (s : State) (a n : Nat) : (s.inc a n).freed = s.freed := rfl
@[simp] theorem State.inc_descs (s : State) (a n : Nat) : (s.inc a n).descs = s.descs := rfl
@[simp] theorem State.inc_prog (s : State) (a n : Nat) : (s.inc a n).prog = s.prog := rfl
@[simp] theorem State.inc_feeds (s : State) (a n : Nat) : (s.inc a n).feeds = s.feeds := rfl
@[simp] theorem State.inc_windows (s : State) (a n : Nat) : (s.inc a n).windows = s.windows := rfl
@[simp] theorem State.inc_ctl (s : State) (a n : Nat) : (s.inc a n).ctl = s.ctl := rfl
@[simp] theorem State.inc_hostQs (s : State) (a n : Nat) : (s.inc a n).hostQs = s.hostQs := rfl
@[simp] theorem State.inc_evtSeq (s : State) (a n : Nat) : (s.inc a n).evtSeq = s.evtSeq := rfl
@[simp] theorem State.inc_log (s : State) (a n : Nat) : (s.inc a n).log = s.log := rfl
@[simp] theorem State.inc_breaches (s : State) (a n : Nat) : (s.inc a n).breaches = s.breaches := rfl
@[simp] theorem State.inc_breachQ (s : State) (a n : Nat) : (s.inc a n).breachQ = s.breachQ := rfl
@[simp] theorem State.inc_recWindows (s : State) (a n : Nat) : (s.inc a n).recWindows = s.recWindows := rfl
@[simp] theorem State.inc_dumpWritten (s : State) (a n : Nat) : (s.inc a n).dumpWritten = s.dumpWritten := rfl
@[simp] theorem State.inc_dumpReleased (s : State) (a n : Nat) : (s.inc a n).dumpReleased = s.dumpReleased := rfl
@[simp] theorem State.inc_dumpKey (s : State) (a n : Nat) : (s.inc a n).dumpKey = s.dumpKey := rfl
@[simp] theorem State.inc_fatal (s : State) (a n : Nat) : (s.inc a n).fatal = s.fatal := rfl
@[simp] theorem State.inc_lostPolders (s : State) (a n : Nat) : (s.inc a n).lostPolders = s.lostPolders := rfl
@[simp] theorem State.inc_standby (s : State) (a n : Nat) : (s.inc a n).standby = s.standby := rfl
@[simp] theorem State.inc_resync (s : State) (a n : Nat) : (s.inc a n).resync = s.resync := rfl
@[simp] theorem State.inc_restore (s : State) (a n : Nat) : (s.inc a n).restore = s.restore := rfl
@[simp] theorem State.inc_restored (s : State) (a n : Nat) : (s.inc a n).restored = s.restored := rfl
@[simp] theorem State.inc_flash (s : State) (a n : Nat) : (s.inc a n).flash = s.flash := rfl
@[simp] theorem State.inc_flashPart (s : State) (a n : Nat) : (s.inc a n).flashPart = s.flashPart := rfl
@[simp] theorem State.inc_activated (s : State) (a n : Nat) : (s.inc a n).activated = s.activated := rfl
@[simp] theorem State.inc_otp (s : State) (a n : Nat) : (s.inc a n).otp = s.otp := rfl
@[simp] theorem State.inc_cfg (s : State) (a n : Nat) : (s.inc a n).cfg = s.cfg := rfl
@[simp] theorem State.inc_fwVerified (s : State) (a n : Nat) : (s.inc a n).fwVerified = s.fwVerified := rfl
@[simp] theorem State.inc_cfgVerified (s : State) (a n : Nat) : (s.inc a n).cfgVerified = s.cfgVerified := rfl
@[simp] theorem State.inc_healthDirty (s : State) (a n : Nat) : (s.inc a n).healthDirty = s.healthDirty := rfl
@[simp] theorem State.inc_healthGen (s : State) (a n : Nat) : (s.inc a n).healthGen = s.healthGen := rfl
@[simp] theorem State.inc_power (s : State) (a n : Nat) : (s.inc a n).power = s.power := rfl
@[simp] theorem State.inc_rails (s : State) (a n : Nat) : (s.inc a n).rails = s.rails := rfl
@[simp] theorem State.inc_railsOff (s : State) (a n : Nat) : (s.inc a n).railsOff = s.railsOff := rfl
@[simp] theorem State.inc_pwrStates (s : State) (a n : Nat) : (s.inc a n).pwrStates = s.pwrStates := rfl
@[simp] theorem State.inc_energy (s : State) (a n : Nat) : (s.inc a n).energy = s.energy := rfl
@[simp] theorem State.inc_inputAt (s : State) (a n : Nat) : (s.inc a n).inputAt = s.inputAt := rfl
@[simp] theorem State.inc_actThrottle (s : State) (a n : Nat) : (s.inc a n).actThrottle = s.actThrottle := rfl
@[simp] theorem State.inc_resetHeld (s : State) (a n : Nat) : (s.inc a n).resetHeld = s.resetHeld := rfl
@[simp] theorem State.inc_thermLatch (s : State) (a n : Nat) : (s.inc a n).thermLatch = s.thermLatch := rfl
@[simp] theorem State.inc_houseRail (s : State) (a n : Nat) : (s.inc a n).houseRail = s.houseRail := rfl
@[simp] theorem State.inc_straps (s : State) (a n : Nat) : (s.inc a n).straps = s.straps := rfl
@[simp] theorem State.inc_tap (s : State) (a n : Nat) : (s.inc a n).tap = s.tap := rfl
@[simp] theorem State.inc_mgmtRsp (s : State) (a n : Nat) : (s.inc a n).mgmtRsp = s.mgmtRsp := rfl
@[simp] theorem State.inc_mgmtDue (s : State) (a n : Nat) : (s.inc a n).mgmtDue = s.mgmtDue := rfl
@[simp] theorem State.inc_now (s : State) (a n : Nat) : (s.inc a n).now = s.now := rfl
@[simp] theorem State.inc_freeCtr (s : State) (a n : Nat) : (s.inc a n).freeCtr = s.freeCtr := rfl
@[simp] theorem State.inc_pending (s : State) (a n : Nat) : (s.inc a n).pending = s.pending := rfl
@[simp] theorem State.island_inc (s : State) (a n : Nat) (j : Nat) : (s.inc a n).island j = s.island j := rfl
@[simp] theorem State.core_inc (s : State) (a n : Nat) (j : Nat) : (s.inc a n).core j = s.core j := rfl
@[simp] theorem State.die_inc (s : State) (a n : Nat) (j : Nat) : (s.inc a n).die j = s.die j := rfl
@[simp] theorem State.arb_inc (s : State) (a n : Nat) (j : Nat) : (s.inc a n).arb j = s.arb j := rfl
@[simp] theorem State.chan_inc (s : State) (a n : Nat) (j : Nat) : (s.inc a n).chan j = s.chan j := rfl
@[simp] theorem State.bridge_inc (s : State) (a n : Nat) (j : Nat) : (s.inc a n).bridge j = s.bridge j := rfl
@[simp] theorem State.engine_inc (s : State) (a n : Nat) (j : Nat) : (s.inc a n).engine j = s.engine j := rfl
@[simp] theorem State.link_inc (s : State) (a n : Nat) (j : Nat) : (s.inc a n).link j = s.link j := rfl
@[simp] theorem State.txFlow_inc (s : State) (a n : Nat) (j : Nat) : (s.inc a n).txFlow j = s.txFlow j := rfl
@[simp] theorem State.rxFlow_inc (s : State) (a n : Nat) (j : Nat) : (s.inc a n).rxFlow j = s.rxFlow j := rfl
@[simp] theorem State.hostQ_inc (s : State) (a n : Nat) (j : Nat) : (s.inc a n).hostQ j = s.hostQ j := rfl
@[simp] theorem State.alloc_inc (s : State) (a n : Nat) (j : Nat) : (s.inc a n).alloc j = s.alloc j := rfl
@[simp] theorem State.desc_inc (s : State) (a n : Nat) (j : Nat) : (s.inc a n).desc j = s.desc j := rfl
@[simp] theorem State.feed_inc (s : State) (a n : Nat) (j : Nat) : (s.inc a n).feed j = s.feed j := rfl
@[simp] theorem State.window_inc (s : State) (a n : Nat) (j : Nat) : (s.inc a n).window j = s.window j := rfl
@[simp] theorem State.setRegF_latch (s : State) (a hi lo v : Nat) : (s.setRegF a hi lo v).latch = s.latch := rfl
@[simp] theorem State.setRegF_readData (s : State) (a hi lo v : Nat) : (s.setRegF a hi lo v).readData = s.readData := rfl
@[simp] theorem State.setRegF_evcStage (s : State) (a hi lo v : Nat) : (s.setRegF a hi lo v).evcStage = s.evcStage := rfl
@[simp] theorem State.setRegF_evcMsgs (s : State) (a hi lo v : Nat) : (s.setRegF a hi lo v).evcMsgs = s.evcMsgs := rfl
@[simp] theorem State.setRegF_thrFired (s : State) (a hi lo v : Nat) : (s.setRegF a hi lo v).thrFired = s.thrFired := rfl
@[simp] theorem State.setRegF_mem (s : State) (a hi lo v : Nat) : (s.setRegF a hi lo v).mem = s.mem := rfl
@[simp] theorem State.setRegF_poison (s : State) (a hi lo v : Nat) : (s.setRegF a hi lo v).poison = s.poison := rfl
@[simp] theorem State.setRegF_islands (s : State) (a hi lo v : Nat) : (s.setRegF a hi lo v).islands = s.islands := rfl
@[simp] theorem State.setRegF_cores (s : State) (a hi lo v : Nat) : (s.setRegF a hi lo v).cores = s.cores := rfl
@[simp] theorem State.setRegF_dies (s : State) (a hi lo v : Nat) : (s.setRegF a hi lo v).dies = s.dies := rfl
@[simp] theorem State.setRegF_arbs (s : State) (a hi lo v : Nat) : (s.setRegF a hi lo v).arbs = s.arbs := rfl
@[simp] theorem State.setRegF_chans (s : State) (a hi lo v : Nat) : (s.setRegF a hi lo v).chans = s.chans := rfl
@[simp] theorem State.setRegF_bridges (s : State) (a hi lo v : Nat) : (s.setRegF a hi lo v).bridges = s.bridges := rfl
@[simp] theorem State.setRegF_engines (s : State) (a hi lo v : Nat) : (s.setRegF a hi lo v).engines = s.engines := rfl
@[simp] theorem State.setRegF_links (s : State) (a hi lo v : Nat) : (s.setRegF a hi lo v).links = s.links := rfl
@[simp] theorem State.setRegF_xfer (s : State) (a hi lo v : Nat) : (s.setRegF a hi lo v).xfer = s.xfer := rfl
@[simp] theorem State.setRegF_txFlows (s : State) (a hi lo v : Nat) : (s.setRegF a hi lo v).txFlows = s.txFlows := rfl
@[simp] theorem State.setRegF_rxFlows (s : State) (a hi lo v : Nat) : (s.setRegF a hi lo v).rxFlows = s.rxFlows := rfl
@[simp] theorem State.setRegF_reads (s : State) (a hi lo v : Nat) : (s.setRegF a hi lo v).reads = s.reads := rfl
@[simp] theorem State.setRegF_nextTag (s : State) (a hi lo v : Nat) : (s.setRegF a hi lo v).nextTag = s.nextTag := rfl
@[simp] theorem State.setRegF_staged (s : State) (a hi lo v : Nat) : (s.setRegF a hi lo v).staged = s.staged := rfl
@[simp] theorem State.setRegF_norms (s : State) (a hi lo v : Nat) : (s.setRegF a hi lo v).norms = s.norms := rfl
@[simp] theorem State.setRegF_allocs (s : State) (a hi lo v : Nat) : (s.setRegF a hi lo v).allocs = s.allocs := rfl
@[simp] theorem State.setRegF_freed (s : State) (a hi lo v : Nat) : (s.setRegF a hi lo v).freed = s.freed := rfl
@[simp] theorem State.setRegF_descs (s : State) (a hi lo v : Nat) : (s.setRegF a hi lo v).descs = s.descs := rfl
@[simp] theorem State.setRegF_prog (s : State) (a hi lo v : Nat) : (s.setRegF a hi lo v).prog = s.prog := rfl
@[simp] theorem State.setRegF_feeds (s : State) (a hi lo v : Nat) : (s.setRegF a hi lo v).feeds = s.feeds := rfl
@[simp] theorem State.setRegF_windows (s : State) (a hi lo v : Nat) : (s.setRegF a hi lo v).windows = s.windows := rfl
@[simp] theorem State.setRegF_ctl (s : State) (a hi lo v : Nat) : (s.setRegF a hi lo v).ctl = s.ctl := rfl
@[simp] theorem State.setRegF_hostQs (s : State) (a hi lo v : Nat) : (s.setRegF a hi lo v).hostQs = s.hostQs := rfl
@[simp] theorem State.setRegF_evtSeq (s : State) (a hi lo v : Nat) : (s.setRegF a hi lo v).evtSeq = s.evtSeq := rfl
@[simp] theorem State.setRegF_log (s : State) (a hi lo v : Nat) : (s.setRegF a hi lo v).log = s.log := rfl
@[simp] theorem State.setRegF_breaches (s : State) (a hi lo v : Nat) : (s.setRegF a hi lo v).breaches = s.breaches := rfl
@[simp] theorem State.setRegF_breachQ (s : State) (a hi lo v : Nat) : (s.setRegF a hi lo v).breachQ = s.breachQ := rfl
@[simp] theorem State.setRegF_recWindows (s : State) (a hi lo v : Nat) : (s.setRegF a hi lo v).recWindows = s.recWindows := rfl
@[simp] theorem State.setRegF_dumpWritten (s : State) (a hi lo v : Nat) : (s.setRegF a hi lo v).dumpWritten = s.dumpWritten := rfl
@[simp] theorem State.setRegF_dumpReleased (s : State) (a hi lo v : Nat) : (s.setRegF a hi lo v).dumpReleased = s.dumpReleased := rfl
@[simp] theorem State.setRegF_dumpKey (s : State) (a hi lo v : Nat) : (s.setRegF a hi lo v).dumpKey = s.dumpKey := rfl
@[simp] theorem State.setRegF_fatal (s : State) (a hi lo v : Nat) : (s.setRegF a hi lo v).fatal = s.fatal := rfl
@[simp] theorem State.setRegF_lostPolders (s : State) (a hi lo v : Nat) : (s.setRegF a hi lo v).lostPolders = s.lostPolders := rfl
@[simp] theorem State.setRegF_standby (s : State) (a hi lo v : Nat) : (s.setRegF a hi lo v).standby = s.standby := rfl
@[simp] theorem State.setRegF_resync (s : State) (a hi lo v : Nat) : (s.setRegF a hi lo v).resync = s.resync := rfl
@[simp] theorem State.setRegF_restore (s : State) (a hi lo v : Nat) : (s.setRegF a hi lo v).restore = s.restore := rfl
@[simp] theorem State.setRegF_restored (s : State) (a hi lo v : Nat) : (s.setRegF a hi lo v).restored = s.restored := rfl
@[simp] theorem State.setRegF_flash (s : State) (a hi lo v : Nat) : (s.setRegF a hi lo v).flash = s.flash := rfl
@[simp] theorem State.setRegF_flashPart (s : State) (a hi lo v : Nat) : (s.setRegF a hi lo v).flashPart = s.flashPart := rfl
@[simp] theorem State.setRegF_activated (s : State) (a hi lo v : Nat) : (s.setRegF a hi lo v).activated = s.activated := rfl
@[simp] theorem State.setRegF_otp (s : State) (a hi lo v : Nat) : (s.setRegF a hi lo v).otp = s.otp := rfl
@[simp] theorem State.setRegF_cfg (s : State) (a hi lo v : Nat) : (s.setRegF a hi lo v).cfg = s.cfg := rfl
@[simp] theorem State.setRegF_fwVerified (s : State) (a hi lo v : Nat) : (s.setRegF a hi lo v).fwVerified = s.fwVerified := rfl
@[simp] theorem State.setRegF_cfgVerified (s : State) (a hi lo v : Nat) : (s.setRegF a hi lo v).cfgVerified = s.cfgVerified := rfl
@[simp] theorem State.setRegF_healthDirty (s : State) (a hi lo v : Nat) : (s.setRegF a hi lo v).healthDirty = s.healthDirty := rfl
@[simp] theorem State.setRegF_healthGen (s : State) (a hi lo v : Nat) : (s.setRegF a hi lo v).healthGen = s.healthGen := rfl
@[simp] theorem State.setRegF_power (s : State) (a hi lo v : Nat) : (s.setRegF a hi lo v).power = s.power := rfl
@[simp] theorem State.setRegF_rails (s : State) (a hi lo v : Nat) : (s.setRegF a hi lo v).rails = s.rails := rfl
@[simp] theorem State.setRegF_railsOff (s : State) (a hi lo v : Nat) : (s.setRegF a hi lo v).railsOff = s.railsOff := rfl
@[simp] theorem State.setRegF_pwrStates (s : State) (a hi lo v : Nat) : (s.setRegF a hi lo v).pwrStates = s.pwrStates := rfl
@[simp] theorem State.setRegF_energy (s : State) (a hi lo v : Nat) : (s.setRegF a hi lo v).energy = s.energy := rfl
@[simp] theorem State.setRegF_inputAt (s : State) (a hi lo v : Nat) : (s.setRegF a hi lo v).inputAt = s.inputAt := rfl
@[simp] theorem State.setRegF_actThrottle (s : State) (a hi lo v : Nat) : (s.setRegF a hi lo v).actThrottle = s.actThrottle := rfl
@[simp] theorem State.setRegF_resetHeld (s : State) (a hi lo v : Nat) : (s.setRegF a hi lo v).resetHeld = s.resetHeld := rfl
@[simp] theorem State.setRegF_thermLatch (s : State) (a hi lo v : Nat) : (s.setRegF a hi lo v).thermLatch = s.thermLatch := rfl
@[simp] theorem State.setRegF_houseRail (s : State) (a hi lo v : Nat) : (s.setRegF a hi lo v).houseRail = s.houseRail := rfl
@[simp] theorem State.setRegF_straps (s : State) (a hi lo v : Nat) : (s.setRegF a hi lo v).straps = s.straps := rfl
@[simp] theorem State.setRegF_tap (s : State) (a hi lo v : Nat) : (s.setRegF a hi lo v).tap = s.tap := rfl
@[simp] theorem State.setRegF_mgmtRsp (s : State) (a hi lo v : Nat) : (s.setRegF a hi lo v).mgmtRsp = s.mgmtRsp := rfl
@[simp] theorem State.setRegF_mgmtDue (s : State) (a hi lo v : Nat) : (s.setRegF a hi lo v).mgmtDue = s.mgmtDue := rfl
@[simp] theorem State.setRegF_now (s : State) (a hi lo v : Nat) : (s.setRegF a hi lo v).now = s.now := rfl
@[simp] theorem State.setRegF_freeCtr (s : State) (a hi lo v : Nat) : (s.setRegF a hi lo v).freeCtr = s.freeCtr := rfl
@[simp] theorem State.setRegF_pending (s : State) (a hi lo v : Nat) : (s.setRegF a hi lo v).pending = s.pending := rfl
@[simp] theorem State.island_setRegF (s : State) (a hi lo v : Nat) (j : Nat) :
    (s.setRegF a hi lo v).island j = s.island j := rfl
@[simp] theorem State.core_setRegF (s : State) (a hi lo v : Nat) (j : Nat) :
    (s.setRegF a hi lo v).core j = s.core j := rfl
@[simp] theorem State.die_setRegF (s : State) (a hi lo v : Nat) (j : Nat) :
    (s.setRegF a hi lo v).die j = s.die j := rfl
@[simp] theorem State.arb_setRegF (s : State) (a hi lo v : Nat) (j : Nat) :
    (s.setRegF a hi lo v).arb j = s.arb j := rfl
@[simp] theorem State.chan_setRegF (s : State) (a hi lo v : Nat) (j : Nat) :
    (s.setRegF a hi lo v).chan j = s.chan j := rfl
@[simp] theorem State.bridge_setRegF (s : State) (a hi lo v : Nat) (j : Nat) :
    (s.setRegF a hi lo v).bridge j = s.bridge j := rfl
@[simp] theorem State.engine_setRegF (s : State) (a hi lo v : Nat) (j : Nat) :
    (s.setRegF a hi lo v).engine j = s.engine j := rfl
@[simp] theorem State.link_setRegF (s : State) (a hi lo v : Nat) (j : Nat) :
    (s.setRegF a hi lo v).link j = s.link j := rfl
@[simp] theorem State.txFlow_setRegF (s : State) (a hi lo v : Nat) (j : Nat) :
    (s.setRegF a hi lo v).txFlow j = s.txFlow j := rfl
@[simp] theorem State.rxFlow_setRegF (s : State) (a hi lo v : Nat) (j : Nat) :
    (s.setRegF a hi lo v).rxFlow j = s.rxFlow j := rfl
@[simp] theorem State.hostQ_setRegF (s : State) (a hi lo v : Nat) (j : Nat) :
    (s.setRegF a hi lo v).hostQ j = s.hostQ j := rfl
@[simp] theorem State.alloc_setRegF (s : State) (a hi lo v : Nat) (j : Nat) :
    (s.setRegF a hi lo v).alloc j = s.alloc j := rfl
@[simp] theorem State.desc_setRegF (s : State) (a hi lo v : Nat) (j : Nat) :
    (s.setRegF a hi lo v).desc j = s.desc j := rfl
@[simp] theorem State.feed_setRegF (s : State) (a hi lo v : Nat) (j : Nat) :
    (s.setRegF a hi lo v).feed j = s.feed j := rfl
@[simp] theorem State.window_setRegF (s : State) (a hi lo v : Nat) (j : Nat) :
    (s.setRegF a hi lo v).window j = s.window j := rfl

/-! ### `setLatch` and `setCtl` -/

@[simp] theorem State.setLatch_regs (s : State) (acc : Nat) (v : Option (Nat × Word)) :
    (s.setLatch acc v).regs = s.regs := rfl
@[simp] theorem State.setLatch_readData (s : State) (acc : Nat) (v : Option (Nat × Word)) :
    (s.setLatch acc v).readData = s.readData := rfl
@[simp] theorem State.setLatch_evcStage (s : State) (acc : Nat) (v : Option (Nat × Word)) :
    (s.setLatch acc v).evcStage = s.evcStage := rfl
@[simp] theorem State.setLatch_evcMsgs (s : State) (acc : Nat) (v : Option (Nat × Word)) :
    (s.setLatch acc v).evcMsgs = s.evcMsgs := rfl
@[simp] theorem State.setLatch_thrFired (s : State) (acc : Nat) (v : Option (Nat × Word)) :
    (s.setLatch acc v).thrFired = s.thrFired := rfl
@[simp] theorem State.setLatch_mem (s : State) (acc : Nat) (v : Option (Nat × Word)) :
    (s.setLatch acc v).mem = s.mem := rfl
@[simp] theorem State.setLatch_poison (s : State) (acc : Nat) (v : Option (Nat × Word)) :
    (s.setLatch acc v).poison = s.poison := rfl
@[simp] theorem State.setLatch_islands (s : State) (acc : Nat) (v : Option (Nat × Word)) :
    (s.setLatch acc v).islands = s.islands := rfl
@[simp] theorem State.setLatch_cores (s : State) (acc : Nat) (v : Option (Nat × Word)) :
    (s.setLatch acc v).cores = s.cores := rfl
@[simp] theorem State.setLatch_dies (s : State) (acc : Nat) (v : Option (Nat × Word)) :
    (s.setLatch acc v).dies = s.dies := rfl
@[simp] theorem State.setLatch_arbs (s : State) (acc : Nat) (v : Option (Nat × Word)) :
    (s.setLatch acc v).arbs = s.arbs := rfl
@[simp] theorem State.setLatch_chans (s : State) (acc : Nat) (v : Option (Nat × Word)) :
    (s.setLatch acc v).chans = s.chans := rfl
@[simp] theorem State.setLatch_bridges (s : State) (acc : Nat) (v : Option (Nat × Word)) :
    (s.setLatch acc v).bridges = s.bridges := rfl
@[simp] theorem State.setLatch_engines (s : State) (acc : Nat) (v : Option (Nat × Word)) :
    (s.setLatch acc v).engines = s.engines := rfl
@[simp] theorem State.setLatch_links (s : State) (acc : Nat) (v : Option (Nat × Word)) :
    (s.setLatch acc v).links = s.links := rfl
@[simp] theorem State.setLatch_xfer (s : State) (acc : Nat) (v : Option (Nat × Word)) :
    (s.setLatch acc v).xfer = s.xfer := rfl
@[simp] theorem State.setLatch_txFlows (s : State) (acc : Nat) (v : Option (Nat × Word)) :
    (s.setLatch acc v).txFlows = s.txFlows := rfl
@[simp] theorem State.setLatch_rxFlows (s : State) (acc : Nat) (v : Option (Nat × Word)) :
    (s.setLatch acc v).rxFlows = s.rxFlows := rfl
@[simp] theorem State.setLatch_reads (s : State) (acc : Nat) (v : Option (Nat × Word)) :
    (s.setLatch acc v).reads = s.reads := rfl
@[simp] theorem State.setLatch_nextTag (s : State) (acc : Nat) (v : Option (Nat × Word)) :
    (s.setLatch acc v).nextTag = s.nextTag := rfl
@[simp] theorem State.setLatch_staged (s : State) (acc : Nat) (v : Option (Nat × Word)) :
    (s.setLatch acc v).staged = s.staged := rfl
@[simp] theorem State.setLatch_norms (s : State) (acc : Nat) (v : Option (Nat × Word)) :
    (s.setLatch acc v).norms = s.norms := rfl
@[simp] theorem State.setLatch_allocs (s : State) (acc : Nat) (v : Option (Nat × Word)) :
    (s.setLatch acc v).allocs = s.allocs := rfl
@[simp] theorem State.setLatch_freed (s : State) (acc : Nat) (v : Option (Nat × Word)) :
    (s.setLatch acc v).freed = s.freed := rfl
@[simp] theorem State.setLatch_descs (s : State) (acc : Nat) (v : Option (Nat × Word)) :
    (s.setLatch acc v).descs = s.descs := rfl
@[simp] theorem State.setLatch_prog (s : State) (acc : Nat) (v : Option (Nat × Word)) :
    (s.setLatch acc v).prog = s.prog := rfl
@[simp] theorem State.setLatch_feeds (s : State) (acc : Nat) (v : Option (Nat × Word)) :
    (s.setLatch acc v).feeds = s.feeds := rfl
@[simp] theorem State.setLatch_windows (s : State) (acc : Nat) (v : Option (Nat × Word)) :
    (s.setLatch acc v).windows = s.windows := rfl
@[simp] theorem State.setLatch_ctl (s : State) (acc : Nat) (v : Option (Nat × Word)) :
    (s.setLatch acc v).ctl = s.ctl := rfl
@[simp] theorem State.setLatch_hostQs (s : State) (acc : Nat) (v : Option (Nat × Word)) :
    (s.setLatch acc v).hostQs = s.hostQs := rfl
@[simp] theorem State.setLatch_evtSeq (s : State) (acc : Nat) (v : Option (Nat × Word)) :
    (s.setLatch acc v).evtSeq = s.evtSeq := rfl
@[simp] theorem State.setLatch_log (s : State) (acc : Nat) (v : Option (Nat × Word)) :
    (s.setLatch acc v).log = s.log := rfl
@[simp] theorem State.setLatch_breaches (s : State) (acc : Nat) (v : Option (Nat × Word)) :
    (s.setLatch acc v).breaches = s.breaches := rfl
@[simp] theorem State.setLatch_breachQ (s : State) (acc : Nat) (v : Option (Nat × Word)) :
    (s.setLatch acc v).breachQ = s.breachQ := rfl
@[simp] theorem State.setLatch_recWindows (s : State) (acc : Nat) (v : Option (Nat × Word)) :
    (s.setLatch acc v).recWindows = s.recWindows := rfl
@[simp] theorem State.setLatch_dumpWritten (s : State) (acc : Nat) (v : Option (Nat × Word)) :
    (s.setLatch acc v).dumpWritten = s.dumpWritten := rfl
@[simp] theorem State.setLatch_dumpReleased (s : State) (acc : Nat) (v : Option (Nat × Word)) :
    (s.setLatch acc v).dumpReleased = s.dumpReleased := rfl
@[simp] theorem State.setLatch_dumpKey (s : State) (acc : Nat) (v : Option (Nat × Word)) :
    (s.setLatch acc v).dumpKey = s.dumpKey := rfl
@[simp] theorem State.setLatch_fatal (s : State) (acc : Nat) (v : Option (Nat × Word)) :
    (s.setLatch acc v).fatal = s.fatal := rfl
@[simp] theorem State.setLatch_lostPolders (s : State) (acc : Nat) (v : Option (Nat × Word)) :
    (s.setLatch acc v).lostPolders = s.lostPolders := rfl
@[simp] theorem State.setLatch_standby (s : State) (acc : Nat) (v : Option (Nat × Word)) :
    (s.setLatch acc v).standby = s.standby := rfl
@[simp] theorem State.setLatch_resync (s : State) (acc : Nat) (v : Option (Nat × Word)) :
    (s.setLatch acc v).resync = s.resync := rfl
@[simp] theorem State.setLatch_restore (s : State) (acc : Nat) (v : Option (Nat × Word)) :
    (s.setLatch acc v).restore = s.restore := rfl
@[simp] theorem State.setLatch_restored (s : State) (acc : Nat) (v : Option (Nat × Word)) :
    (s.setLatch acc v).restored = s.restored := rfl
@[simp] theorem State.setLatch_flash (s : State) (acc : Nat) (v : Option (Nat × Word)) :
    (s.setLatch acc v).flash = s.flash := rfl
@[simp] theorem State.setLatch_flashPart (s : State) (acc : Nat) (v : Option (Nat × Word)) :
    (s.setLatch acc v).flashPart = s.flashPart := rfl
@[simp] theorem State.setLatch_activated (s : State) (acc : Nat) (v : Option (Nat × Word)) :
    (s.setLatch acc v).activated = s.activated := rfl
@[simp] theorem State.setLatch_otp (s : State) (acc : Nat) (v : Option (Nat × Word)) :
    (s.setLatch acc v).otp = s.otp := rfl
@[simp] theorem State.setLatch_cfg (s : State) (acc : Nat) (v : Option (Nat × Word)) :
    (s.setLatch acc v).cfg = s.cfg := rfl
@[simp] theorem State.setLatch_fwVerified (s : State) (acc : Nat) (v : Option (Nat × Word)) :
    (s.setLatch acc v).fwVerified = s.fwVerified := rfl
@[simp] theorem State.setLatch_cfgVerified (s : State) (acc : Nat) (v : Option (Nat × Word)) :
    (s.setLatch acc v).cfgVerified = s.cfgVerified := rfl
@[simp] theorem State.setLatch_healthDirty (s : State) (acc : Nat) (v : Option (Nat × Word)) :
    (s.setLatch acc v).healthDirty = s.healthDirty := rfl
@[simp] theorem State.setLatch_healthGen (s : State) (acc : Nat) (v : Option (Nat × Word)) :
    (s.setLatch acc v).healthGen = s.healthGen := rfl
@[simp] theorem State.setLatch_power (s : State) (acc : Nat) (v : Option (Nat × Word)) :
    (s.setLatch acc v).power = s.power := rfl
@[simp] theorem State.setLatch_rails (s : State) (acc : Nat) (v : Option (Nat × Word)) :
    (s.setLatch acc v).rails = s.rails := rfl
@[simp] theorem State.setLatch_railsOff (s : State) (acc : Nat) (v : Option (Nat × Word)) :
    (s.setLatch acc v).railsOff = s.railsOff := rfl
@[simp] theorem State.setLatch_pwrStates (s : State) (acc : Nat) (v : Option (Nat × Word)) :
    (s.setLatch acc v).pwrStates = s.pwrStates := rfl
@[simp] theorem State.setLatch_energy (s : State) (acc : Nat) (v : Option (Nat × Word)) :
    (s.setLatch acc v).energy = s.energy := rfl
@[simp] theorem State.setLatch_inputAt (s : State) (acc : Nat) (v : Option (Nat × Word)) :
    (s.setLatch acc v).inputAt = s.inputAt := rfl
@[simp] theorem State.setLatch_actThrottle (s : State) (acc : Nat) (v : Option (Nat × Word)) :
    (s.setLatch acc v).actThrottle = s.actThrottle := rfl
@[simp] theorem State.setLatch_resetHeld (s : State) (acc : Nat) (v : Option (Nat × Word)) :
    (s.setLatch acc v).resetHeld = s.resetHeld := rfl
@[simp] theorem State.setLatch_thermLatch (s : State) (acc : Nat) (v : Option (Nat × Word)) :
    (s.setLatch acc v).thermLatch = s.thermLatch := rfl
@[simp] theorem State.setLatch_houseRail (s : State) (acc : Nat) (v : Option (Nat × Word)) :
    (s.setLatch acc v).houseRail = s.houseRail := rfl
@[simp] theorem State.setLatch_straps (s : State) (acc : Nat) (v : Option (Nat × Word)) :
    (s.setLatch acc v).straps = s.straps := rfl
@[simp] theorem State.setLatch_tap (s : State) (acc : Nat) (v : Option (Nat × Word)) :
    (s.setLatch acc v).tap = s.tap := rfl
@[simp] theorem State.setLatch_mgmtRsp (s : State) (acc : Nat) (v : Option (Nat × Word)) :
    (s.setLatch acc v).mgmtRsp = s.mgmtRsp := rfl
@[simp] theorem State.setLatch_mgmtDue (s : State) (acc : Nat) (v : Option (Nat × Word)) :
    (s.setLatch acc v).mgmtDue = s.mgmtDue := rfl
@[simp] theorem State.setLatch_now (s : State) (acc : Nat) (v : Option (Nat × Word)) :
    (s.setLatch acc v).now = s.now := rfl
@[simp] theorem State.setLatch_freeCtr (s : State) (acc : Nat) (v : Option (Nat × Word)) :
    (s.setLatch acc v).freeCtr = s.freeCtr := rfl
@[simp] theorem State.setLatch_pending (s : State) (acc : Nat) (v : Option (Nat × Word)) :
    (s.setLatch acc v).pending = s.pending := rfl
@[simp] theorem State.reg_setLatch (s : State) (acc : Nat) (v : Option (Nat × Word)) (j : Nat) :
    (s.setLatch acc v).reg j = s.reg j := rfl
@[simp] theorem State.island_setLatch (s : State) (acc : Nat) (v : Option (Nat × Word)) (j : Nat) :
    (s.setLatch acc v).island j = s.island j := rfl
@[simp] theorem State.core_setLatch (s : State) (acc : Nat) (v : Option (Nat × Word)) (j : Nat) :
    (s.setLatch acc v).core j = s.core j := rfl
@[simp] theorem State.die_setLatch (s : State) (acc : Nat) (v : Option (Nat × Word)) (j : Nat) :
    (s.setLatch acc v).die j = s.die j := rfl
@[simp] theorem State.arb_setLatch (s : State) (acc : Nat) (v : Option (Nat × Word)) (j : Nat) :
    (s.setLatch acc v).arb j = s.arb j := rfl
@[simp] theorem State.chan_setLatch (s : State) (acc : Nat) (v : Option (Nat × Word)) (j : Nat) :
    (s.setLatch acc v).chan j = s.chan j := rfl
@[simp] theorem State.bridge_setLatch (s : State) (acc : Nat) (v : Option (Nat × Word)) (j : Nat) :
    (s.setLatch acc v).bridge j = s.bridge j := rfl
@[simp] theorem State.engine_setLatch (s : State) (acc : Nat) (v : Option (Nat × Word)) (j : Nat) :
    (s.setLatch acc v).engine j = s.engine j := rfl
@[simp] theorem State.link_setLatch (s : State) (acc : Nat) (v : Option (Nat × Word)) (j : Nat) :
    (s.setLatch acc v).link j = s.link j := rfl
@[simp] theorem State.txFlow_setLatch (s : State) (acc : Nat) (v : Option (Nat × Word)) (j : Nat) :
    (s.setLatch acc v).txFlow j = s.txFlow j := rfl
@[simp] theorem State.rxFlow_setLatch (s : State) (acc : Nat) (v : Option (Nat × Word)) (j : Nat) :
    (s.setLatch acc v).rxFlow j = s.rxFlow j := rfl
@[simp] theorem State.hostQ_setLatch (s : State) (acc : Nat) (v : Option (Nat × Word)) (j : Nat) :
    (s.setLatch acc v).hostQ j = s.hostQ j := rfl
@[simp] theorem State.alloc_setLatch (s : State) (acc : Nat) (v : Option (Nat × Word)) (j : Nat) :
    (s.setLatch acc v).alloc j = s.alloc j := rfl
@[simp] theorem State.desc_setLatch (s : State) (acc : Nat) (v : Option (Nat × Word)) (j : Nat) :
    (s.setLatch acc v).desc j = s.desc j := rfl
@[simp] theorem State.feed_setLatch (s : State) (acc : Nat) (v : Option (Nat × Word)) (j : Nat) :
    (s.setLatch acc v).feed j = s.feed j := rfl
@[simp] theorem State.window_setLatch (s : State) (acc : Nat) (v : Option (Nat × Word)) (j : Nat) :
    (s.setLatch acc v).window j = s.window j := rfl
theorem State.latchOf_setLatch (s : State) (acc j : Nat) (v : Option (Nat × Word)) :
    (s.setLatch acc v).latchOf j = if j = acc then v else s.latchOf j := SMap.get_set _ _ _ _ _
@[simp] theorem State.setCtl_regs (s : State) (f : Ctl → Ctl) : (s.setCtl f).regs = s.regs := rfl
@[simp] theorem State.setCtl_latch (s : State) (f : Ctl → Ctl) : (s.setCtl f).latch = s.latch := rfl
@[simp] theorem State.setCtl_readData (s : State) (f : Ctl → Ctl) : (s.setCtl f).readData = s.readData := rfl
@[simp] theorem State.setCtl_evcStage (s : State) (f : Ctl → Ctl) : (s.setCtl f).evcStage = s.evcStage := rfl
@[simp] theorem State.setCtl_evcMsgs (s : State) (f : Ctl → Ctl) : (s.setCtl f).evcMsgs = s.evcMsgs := rfl
@[simp] theorem State.setCtl_thrFired (s : State) (f : Ctl → Ctl) : (s.setCtl f).thrFired = s.thrFired := rfl
@[simp] theorem State.setCtl_mem (s : State) (f : Ctl → Ctl) : (s.setCtl f).mem = s.mem := rfl
@[simp] theorem State.setCtl_poison (s : State) (f : Ctl → Ctl) : (s.setCtl f).poison = s.poison := rfl
@[simp] theorem State.setCtl_islands (s : State) (f : Ctl → Ctl) : (s.setCtl f).islands = s.islands := rfl
@[simp] theorem State.setCtl_cores (s : State) (f : Ctl → Ctl) : (s.setCtl f).cores = s.cores := rfl
@[simp] theorem State.setCtl_dies (s : State) (f : Ctl → Ctl) : (s.setCtl f).dies = s.dies := rfl
@[simp] theorem State.setCtl_arbs (s : State) (f : Ctl → Ctl) : (s.setCtl f).arbs = s.arbs := rfl
@[simp] theorem State.setCtl_chans (s : State) (f : Ctl → Ctl) : (s.setCtl f).chans = s.chans := rfl
@[simp] theorem State.setCtl_bridges (s : State) (f : Ctl → Ctl) : (s.setCtl f).bridges = s.bridges := rfl
@[simp] theorem State.setCtl_engines (s : State) (f : Ctl → Ctl) : (s.setCtl f).engines = s.engines := rfl
@[simp] theorem State.setCtl_links (s : State) (f : Ctl → Ctl) : (s.setCtl f).links = s.links := rfl
@[simp] theorem State.setCtl_xfer (s : State) (f : Ctl → Ctl) : (s.setCtl f).xfer = s.xfer := rfl
@[simp] theorem State.setCtl_txFlows (s : State) (f : Ctl → Ctl) : (s.setCtl f).txFlows = s.txFlows := rfl
@[simp] theorem State.setCtl_rxFlows (s : State) (f : Ctl → Ctl) : (s.setCtl f).rxFlows = s.rxFlows := rfl
@[simp] theorem State.setCtl_reads (s : State) (f : Ctl → Ctl) : (s.setCtl f).reads = s.reads := rfl
@[simp] theorem State.setCtl_nextTag (s : State) (f : Ctl → Ctl) : (s.setCtl f).nextTag = s.nextTag := rfl
@[simp] theorem State.setCtl_staged (s : State) (f : Ctl → Ctl) : (s.setCtl f).staged = s.staged := rfl
@[simp] theorem State.setCtl_norms (s : State) (f : Ctl → Ctl) : (s.setCtl f).norms = s.norms := rfl
@[simp] theorem State.setCtl_allocs (s : State) (f : Ctl → Ctl) : (s.setCtl f).allocs = s.allocs := rfl
@[simp] theorem State.setCtl_freed (s : State) (f : Ctl → Ctl) : (s.setCtl f).freed = s.freed := rfl
@[simp] theorem State.setCtl_descs (s : State) (f : Ctl → Ctl) : (s.setCtl f).descs = s.descs := rfl
@[simp] theorem State.setCtl_prog (s : State) (f : Ctl → Ctl) : (s.setCtl f).prog = s.prog := rfl
@[simp] theorem State.setCtl_feeds (s : State) (f : Ctl → Ctl) : (s.setCtl f).feeds = s.feeds := rfl
@[simp] theorem State.setCtl_windows (s : State) (f : Ctl → Ctl) : (s.setCtl f).windows = s.windows := rfl
@[simp] theorem State.setCtl_hostQs (s : State) (f : Ctl → Ctl) : (s.setCtl f).hostQs = s.hostQs := rfl
@[simp] theorem State.setCtl_evtSeq (s : State) (f : Ctl → Ctl) : (s.setCtl f).evtSeq = s.evtSeq := rfl
@[simp] theorem State.setCtl_log (s : State) (f : Ctl → Ctl) : (s.setCtl f).log = s.log := rfl
@[simp] theorem State.setCtl_breaches (s : State) (f : Ctl → Ctl) : (s.setCtl f).breaches = s.breaches := rfl
@[simp] theorem State.setCtl_breachQ (s : State) (f : Ctl → Ctl) : (s.setCtl f).breachQ = s.breachQ := rfl
@[simp] theorem State.setCtl_recWindows (s : State) (f : Ctl → Ctl) : (s.setCtl f).recWindows = s.recWindows := rfl
@[simp] theorem State.setCtl_dumpWritten (s : State) (f : Ctl → Ctl) : (s.setCtl f).dumpWritten = s.dumpWritten := rfl
@[simp] theorem State.setCtl_dumpReleased (s : State) (f : Ctl → Ctl) : (s.setCtl f).dumpReleased = s.dumpReleased := rfl
@[simp] theorem State.setCtl_dumpKey (s : State) (f : Ctl → Ctl) : (s.setCtl f).dumpKey = s.dumpKey := rfl
@[simp] theorem State.setCtl_fatal (s : State) (f : Ctl → Ctl) : (s.setCtl f).fatal = s.fatal := rfl
@[simp] theorem State.setCtl_lostPolders (s : State) (f : Ctl → Ctl) : (s.setCtl f).lostPolders = s.lostPolders := rfl
@[simp] theorem State.setCtl_standby (s : State) (f : Ctl → Ctl) : (s.setCtl f).standby = s.standby := rfl
@[simp] theorem State.setCtl_resync (s : State) (f : Ctl → Ctl) : (s.setCtl f).resync = s.resync := rfl
@[simp] theorem State.setCtl_restore (s : State) (f : Ctl → Ctl) : (s.setCtl f).restore = s.restore := rfl
@[simp] theorem State.setCtl_restored (s : State) (f : Ctl → Ctl) : (s.setCtl f).restored = s.restored := rfl
@[simp] theorem State.setCtl_flash (s : State) (f : Ctl → Ctl) : (s.setCtl f).flash = s.flash := rfl
@[simp] theorem State.setCtl_flashPart (s : State) (f : Ctl → Ctl) : (s.setCtl f).flashPart = s.flashPart := rfl
@[simp] theorem State.setCtl_activated (s : State) (f : Ctl → Ctl) : (s.setCtl f).activated = s.activated := rfl
@[simp] theorem State.setCtl_otp (s : State) (f : Ctl → Ctl) : (s.setCtl f).otp = s.otp := rfl
@[simp] theorem State.setCtl_cfg (s : State) (f : Ctl → Ctl) : (s.setCtl f).cfg = s.cfg := rfl
@[simp] theorem State.setCtl_fwVerified (s : State) (f : Ctl → Ctl) : (s.setCtl f).fwVerified = s.fwVerified := rfl
@[simp] theorem State.setCtl_cfgVerified (s : State) (f : Ctl → Ctl) : (s.setCtl f).cfgVerified = s.cfgVerified := rfl
@[simp] theorem State.setCtl_healthDirty (s : State) (f : Ctl → Ctl) : (s.setCtl f).healthDirty = s.healthDirty := rfl
@[simp] theorem State.setCtl_healthGen (s : State) (f : Ctl → Ctl) : (s.setCtl f).healthGen = s.healthGen := rfl
@[simp] theorem State.setCtl_power (s : State) (f : Ctl → Ctl) : (s.setCtl f).power = s.power := rfl
@[simp] theorem State.setCtl_rails (s : State) (f : Ctl → Ctl) : (s.setCtl f).rails = s.rails := rfl
@[simp] theorem State.setCtl_railsOff (s : State) (f : Ctl → Ctl) : (s.setCtl f).railsOff = s.railsOff := rfl
@[simp] theorem State.setCtl_pwrStates (s : State) (f : Ctl → Ctl) : (s.setCtl f).pwrStates = s.pwrStates := rfl
@[simp] theorem State.setCtl_energy (s : State) (f : Ctl → Ctl) : (s.setCtl f).energy = s.energy := rfl
@[simp] theorem State.setCtl_inputAt (s : State) (f : Ctl → Ctl) : (s.setCtl f).inputAt = s.inputAt := rfl
@[simp] theorem State.setCtl_actThrottle (s : State) (f : Ctl → Ctl) : (s.setCtl f).actThrottle = s.actThrottle := rfl
@[simp] theorem State.setCtl_resetHeld (s : State) (f : Ctl → Ctl) : (s.setCtl f).resetHeld = s.resetHeld := rfl
@[simp] theorem State.setCtl_thermLatch (s : State) (f : Ctl → Ctl) : (s.setCtl f).thermLatch = s.thermLatch := rfl
@[simp] theorem State.setCtl_houseRail (s : State) (f : Ctl → Ctl) : (s.setCtl f).houseRail = s.houseRail := rfl
@[simp] theorem State.setCtl_straps (s : State) (f : Ctl → Ctl) : (s.setCtl f).straps = s.straps := rfl
@[simp] theorem State.setCtl_tap (s : State) (f : Ctl → Ctl) : (s.setCtl f).tap = s.tap := rfl
@[simp] theorem State.setCtl_mgmtRsp (s : State) (f : Ctl → Ctl) : (s.setCtl f).mgmtRsp = s.mgmtRsp := rfl
@[simp] theorem State.setCtl_mgmtDue (s : State) (f : Ctl → Ctl) : (s.setCtl f).mgmtDue = s.mgmtDue := rfl
@[simp] theorem State.setCtl_now (s : State) (f : Ctl → Ctl) : (s.setCtl f).now = s.now := rfl
@[simp] theorem State.setCtl_freeCtr (s : State) (f : Ctl → Ctl) : (s.setCtl f).freeCtr = s.freeCtr := rfl
@[simp] theorem State.setCtl_pending (s : State) (f : Ctl → Ctl) : (s.setCtl f).pending = s.pending := rfl
@[simp] theorem State.reg_setCtl (s : State) (f : Ctl → Ctl) (j : Nat) : (s.setCtl f).reg j = s.reg j := rfl
@[simp] theorem State.island_setCtl (s : State) (f : Ctl → Ctl) (j : Nat) : (s.setCtl f).island j = s.island j := rfl
@[simp] theorem State.core_setCtl (s : State) (f : Ctl → Ctl) (j : Nat) : (s.setCtl f).core j = s.core j := rfl
@[simp] theorem State.die_setCtl (s : State) (f : Ctl → Ctl) (j : Nat) : (s.setCtl f).die j = s.die j := rfl
@[simp] theorem State.arb_setCtl (s : State) (f : Ctl → Ctl) (j : Nat) : (s.setCtl f).arb j = s.arb j := rfl
@[simp] theorem State.chan_setCtl (s : State) (f : Ctl → Ctl) (j : Nat) : (s.setCtl f).chan j = s.chan j := rfl
@[simp] theorem State.bridge_setCtl (s : State) (f : Ctl → Ctl) (j : Nat) : (s.setCtl f).bridge j = s.bridge j := rfl
@[simp] theorem State.engine_setCtl (s : State) (f : Ctl → Ctl) (j : Nat) : (s.setCtl f).engine j = s.engine j := rfl
@[simp] theorem State.link_setCtl (s : State) (f : Ctl → Ctl) (j : Nat) : (s.setCtl f).link j = s.link j := rfl
@[simp] theorem State.txFlow_setCtl (s : State) (f : Ctl → Ctl) (j : Nat) : (s.setCtl f).txFlow j = s.txFlow j := rfl
@[simp] theorem State.rxFlow_setCtl (s : State) (f : Ctl → Ctl) (j : Nat) : (s.setCtl f).rxFlow j = s.rxFlow j := rfl
@[simp] theorem State.hostQ_setCtl (s : State) (f : Ctl → Ctl) (j : Nat) : (s.setCtl f).hostQ j = s.hostQ j := rfl
@[simp] theorem State.alloc_setCtl (s : State) (f : Ctl → Ctl) (j : Nat) : (s.setCtl f).alloc j = s.alloc j := rfl
@[simp] theorem State.desc_setCtl (s : State) (f : Ctl → Ctl) (j : Nat) : (s.setCtl f).desc j = s.desc j := rfl
@[simp] theorem State.feed_setCtl (s : State) (f : Ctl → Ctl) (j : Nat) : (s.setCtl f).feed j = s.feed j := rfl
@[simp] theorem State.window_setCtl (s : State) (f : Ctl → Ctl) (j : Nat) : (s.setCtl f).window j = s.window j := rfl
@[simp] theorem State.setCtl_ctl (s : State) (f : Ctl → Ctl) : (s.setCtl f).ctl = f s.ctl := rfl

end Sys2Proof.Machine
end

