-- ==== Sys2Proof/Laws/Reports.lean ====
section
/-! SUPPORT. What counting, logging and reporting an event can change: registers, the islands' sequence
numbers, what waits or goes out on a link, the log, the event number and the threshold marks; nothing else. -/

namespace Sys2Proof.Machine

open Sys2Proof

/-- Two states that differ at most in what counting and reporting changes. -/
def Reports (s t : State) : Prop :=
  t = { s with regs := t.regs, islands := t.islands, links := t.links, log := t.log, evtSeq := t.evtSeq, thrFired := t.thrFired }

theorem Reports.refl (s : State) : Reports s s := rfl

theorem Reports.mk (s : State) (a : SMap Word) (b : SMap Island) (c : SMap LinkSt) (d : List LogEvent)
    (e : BitVec 32) (f : List Nat) :
    Reports s { s with regs := a, islands := b, links := c, log := d, evtSeq := e, thrFired := f } := rfl

theorem Reports.trans {s t u : State} (h : Reports s t) (g : Reports t u) : Reports s u := by
  unfold Reports at *
  rw [g, h]

theorem Reports.latch {s t : State} (h : Reports s t) : t.latch = s.latch := by rw [h]
theorem Reports.readData {s t : State} (h : Reports s t) : t.readData = s.readData := by rw [h]
theorem Reports.evcStage {s t : State} (h : Reports s t) : t.evcStage = s.evcStage := by rw [h]
theorem Reports.evcMsgs {s t : State} (h : Reports s t) : t.evcMsgs = s.evcMsgs := by rw [h]
theorem Reports.mem {s t : State} (h : Reports s t) : t.mem = s.mem := by rw [h]
theorem Reports.poison {s t : State} (h : Reports s t) : t.poison = s.poison := by rw [h]
theorem Reports.xfer {s t : State} (h : Reports s t) : t.xfer = s.xfer := by rw [h]
theorem Reports.reads {s t : State} (h : Reports s t) : t.reads = s.reads := by rw [h]
theorem Reports.nextTag {s t : State} (h : Reports s t) : t.nextTag = s.nextTag := by rw [h]
theorem Reports.staged {s t : State} (h : Reports s t) : t.staged = s.staged := by rw [h]
theorem Reports.norms {s t : State} (h : Reports s t) : t.norms = s.norms := by rw [h]
theorem Reports.freed {s t : State} (h : Reports s t) : t.freed = s.freed := by rw [h]
theorem Reports.prog {s t : State} (h : Reports s t) : t.prog = s.prog := by rw [h]
theorem Reports.ctl {s t : State} (h : Reports s t) : t.ctl = s.ctl := by rw [h]
theorem Reports.breaches {s t : State} (h : Reports s t) : t.breaches = s.breaches := by rw [h]
theorem Reports.breachQ {s t : State} (h : Reports s t) : t.breachQ = s.breachQ := by rw [h]
theorem Reports.recWindows {s t : State} (h : Reports s t) : t.recWindows = s.recWindows := by rw [h]
theorem Reports.dumpWritten {s t : State} (h : Reports s t) : t.dumpWritten = s.dumpWritten := by rw [h]
theorem Reports.dumpReleased {s t : State} (h : Reports s t) : t.dumpReleased = s.dumpReleased := by rw [h]
theorem Reports.dumpKey {s t : State} (h : Reports s t) : t.dumpKey = s.dumpKey := by rw [h]
theorem Reports.fatal {s t : State} (h : Reports s t) : t.fatal = s.fatal := by rw [h]
theorem Reports.lostPolders {s t : State} (h : Reports s t) : t.lostPolders = s.lostPolders := by rw [h]
theorem Reports.standby {s t : State} (h : Reports s t) : t.standby = s.standby := by rw [h]
theorem Reports.resync {s t : State} (h : Reports s t) : t.resync = s.resync := by rw [h]
theorem Reports.restore {s t : State} (h : Reports s t) : t.restore = s.restore := by rw [h]
theorem Reports.restored {s t : State} (h : Reports s t) : t.restored = s.restored := by rw [h]
theorem Reports.flash {s t : State} (h : Reports s t) : t.flash = s.flash := by rw [h]
theorem Reports.flashPart {s t : State} (h : Reports s t) : t.flashPart = s.flashPart := by rw [h]
theorem Reports.activated {s t : State} (h : Reports s t) : t.activated = s.activated := by rw [h]
theorem Reports.otp {s t : State} (h : Reports s t) : t.otp = s.otp := by rw [h]
theorem Reports.cfg {s t : State} (h : Reports s t) : t.cfg = s.cfg := by rw [h]
theorem Reports.fwVerified {s t : State} (h : Reports s t) : t.fwVerified = s.fwVerified := by rw [h]
theorem Reports.cfgVerified {s t : State} (h : Reports s t) : t.cfgVerified = s.cfgVerified := by rw [h]
theorem Reports.healthDirty {s t : State} (h : Reports s t) : t.healthDirty = s.healthDirty := by rw [h]
theorem Reports.healthGen {s t : State} (h : Reports s t) : t.healthGen = s.healthGen := by rw [h]
theorem Reports.power {s t : State} (h : Reports s t) : t.power = s.power := by rw [h]
theorem Reports.rails {s t : State} (h : Reports s t) : t.rails = s.rails := by rw [h]
theorem Reports.railsOff {s t : State} (h : Reports s t) : t.railsOff = s.railsOff := by rw [h]
theorem Reports.pwrStates {s t : State} (h : Reports s t) : t.pwrStates = s.pwrStates := by rw [h]
theorem Reports.energy {s t : State} (h : Reports s t) : t.energy = s.energy := by rw [h]
theorem Reports.inputAt {s t : State} (h : Reports s t) : t.inputAt = s.inputAt := by rw [h]
theorem Reports.actThrottle {s t : State} (h : Reports s t) : t.actThrottle = s.actThrottle := by rw [h]
theorem Reports.resetHeld {s t : State} (h : Reports s t) : t.resetHeld = s.resetHeld := by rw [h]
theorem Reports.thermLatch {s t : State} (h : Reports s t) : t.thermLatch = s.thermLatch := by rw [h]
theorem Reports.houseRail {s t : State} (h : Reports s t) : t.houseRail = s.houseRail := by rw [h]
theorem Reports.straps {s t : State} (h : Reports s t) : t.straps = s.straps := by rw [h]
theorem Reports.tap {s t : State} (h : Reports s t) : t.tap = s.tap := by rw [h]
theorem Reports.mgmtRsp {s t : State} (h : Reports s t) : t.mgmtRsp = s.mgmtRsp := by rw [h]
theorem Reports.mgmtDue {s t : State} (h : Reports s t) : t.mgmtDue = s.mgmtDue := by rw [h]
theorem Reports.now {s t : State} (h : Reports s t) : t.now = s.now := by rw [h]
theorem Reports.freeCtr {s t : State} (h : Reports s t) : t.freeCtr = s.freeCtr := by rw [h]
theorem Reports.pending {s t : State} (h : Reports s t) : t.pending = s.pending := by rw [h]
theorem Reports.core {s t : State} (h : Reports s t) (k : Nat) : t.core k = s.core k := by
  unfold State.core; rw [h]
theorem Reports.die {s t : State} (h : Reports s t) (k : Nat) : t.die k = s.die k := by
  unfold State.die; rw [h]
theorem Reports.arb {s t : State} (h : Reports s t) (k : Nat) : t.arb k = s.arb k := by
  unfold State.arb; rw [h]
theorem Reports.chan {s t : State} (h : Reports s t) (k : Nat) : t.chan k = s.chan k := by
  unfold State.chan; rw [h]
theorem Reports.bridge {s t : State} (h : Reports s t) (k : Nat) : t.bridge k = s.bridge k := by
  unfold State.bridge; rw [h]
theorem Reports.engine {s t : State} (h : Reports s t) (k : Nat) : t.engine k = s.engine k := by
  unfold State.engine; rw [h]
theorem Reports.txFlow {s t : State} (h : Reports s t) (k : Nat) : t.txFlow k = s.txFlow k := by
  unfold State.txFlow; rw [h]
theorem Reports.rxFlow {s t : State} (h : Reports s t) (k : Nat) : t.rxFlow k = s.rxFlow k := by
  unfold State.rxFlow; rw [h]
theorem Reports.hostQ {s t : State} (h : Reports s t) (k : Nat) : t.hostQ k = s.hostQ k := by
  unfold State.hostQ; rw [h]
theorem Reports.alloc {s t : State} (h : Reports s t) (k : Nat) : t.alloc k = s.alloc k := by
  unfold State.alloc; rw [h]
theorem Reports.desc {s t : State} (h : Reports s t) (k : Nat) : t.desc k = s.desc k := by
  unfold State.desc; rw [h]
theorem Reports.feed {s t : State} (h : Reports s t) (k : Nat) : t.feed k = s.feed k := by
  unfold State.feed; rw [h]
theorem Reports.window {s t : State} (h : Reports s t) (k : Nat) : t.window k = s.window k := by
  unfold State.window; rw [h]

theorem setReg_reports (s : State) (a : Nat) (v : Word) : Reports s (s.setReg a v) := rfl

theorem setRegF_reports (s : State) (a hi lo v : Nat) : Reports s (s.setRegF a hi lo v) := rfl

theorem inc_reports (s : State) (a n : Nat) : Reports s (s.inc a n) := rfl

theorem setIsland_reports (s : State) (i : Nat) (v : Island) : Reports s (s.setIsland i v) := rfl

theorem setLink_reports (s : State) (l : Nat) (v : LinkSt) : Reports s (s.setLink l v) := rfl

theorem addLog_reports (s : State) (i name arg : Nat) : Reports s (s.addLog i name arg) := rfl

theorem queueEvent_reports (s : State) (code : Nat) (p : List Byte) : Reports s (s.queueEvent code p) := by
  unfold State.queueEvent
  split
  · exact Reports.mk s _ _ _ _ _ _
  · exact Reports.refl s

theorem queueNamed_reports (s : State) (i name arg : Nat) : Reports s (s.queueNamed i name arg) := by
  unfold State.queueNamed
  split
  · exact (addLog_reports s i name arg).trans (queueEvent_reports _ _ _)
  · exact addLog_reports s i name arg

theorem setEvcCount_reports (s : State) (b i v : Nat) : Reports s (s.setEvcCount b i v) :=
  (setReg_reports s _ _).trans (setReg_reports _ _ _)

theorem evcAdd_reports (s : State) (b i n : Nat) : Reports s (s.evcAdd b i n) := by
  unfold State.evcAdd
  dsimp only
  split
  · exact setEvcCount_reports s _ _ _
  · split
    · exact ((setEvcCount_reports s _ _ _).trans (setRegF_reports _ _ _ _ _)).trans
        (queueNamed_reports _ _ _ _)
    · exact (setEvcCount_reports s _ _ _).trans (setRegF_reports _ _ _ _ _)

theorem Reports.foldl {α : Type} {f : State → α → State} (h : ∀ s a, Reports s (f s a)) (l : List α)
    (s : State) : Reports s (l.foldl f s) := by
  induction l generalizing s with
  | nil => exact Reports.refl s
  | cons a l ih => exact (h s a).trans (ih _)

theorem countQ_reports (s : State) (b src inst n : Nat) : Reports s (s.countQ b src inst n) := by
  unfold State.countQ
  split
  · exact Reports.refl s
  · refine Reports.foldl (fun s i => ?_) _ s
    split
    · exact evcAdd_reports s b i n
    · exact Reports.refl s

theorem countSent_reports (s : State) (l m n : Nat) : Reports s (s.countSent l m n) := by
  unfold State.countSent
  split
  · exact countQ_reports _ _ _ _ _
  · exact countQ_reports _ _ _ _ _

theorem pumpOne_reports (s : State) (l : Nat) : Reports s (s.pumpOne l) := by
  unfold State.pumpOne
  dsimp only
  split
  · exact Reports.refl s
  · exact (setLink_reports s l _).trans (countSent_reports _ _ _ _)

theorem pumpLanes_reports (n l : Nat) (s : State) : Reports s (State.pumpLanes n l s) := by
  induction n generalizing l s with
  | zero => exact Reports.refl s
  | succ n ih =>
    unfold State.pumpLanes
    dsimp only
    split
    · exact pumpOne_reports s l
    · exact (pumpOne_reports s l).trans (ih _ _)

theorem pump_reports (s : State) (l : Nat) : Reports s (s.pump l) := by
  unfold State.pump
  split
  · exact pumpOne_reports s l
  · exact pumpLanes_reports _ _ _

theorem enqueue_reports (s : State) (l : Nat) (p : Pkt) : Reports s (s.enqueue l p) := setLink_reports s l _

theorem linkSend_reports (s : State) (l : Nat) (p : Pkt) : Reports s (s.linkSend l p) :=
  (enqueue_reports s l p).trans (pump_reports _ _)

theorem hostSend_reports (s : State) (lane : Nat) (p : Pkt) : Reports s (s.hostSend lane p) :=
  linkSend_reports s _ p

theorem sendEvent_reports (s : State) (code : Nat) (p : List Byte) : Reports s (s.sendEvent code p) :=
  (queueEvent_reports s code p).trans (pump_reports _ _)

theorem announce_reports (s : State) (i code arg : Nat) (args : List Nat) :
    Reports s (s.announce i code arg args) := (addLog_reports s i code arg).trans (sendEvent_reports _ _ _)

theorem logNamed_reports (s : State) (i name arg : Nat) : Reports s (s.logNamed i name arg) := by
  unfold State.logNamed
  split
  · exact (queueNamed_reports s i name arg).trans (pump_reports _ _)
  · exact queueNamed_reports s i name arg

theorem count_reports (s : State) (b src inst n : Nat) : Reports s (s.count b src inst n) := by
  unfold State.count
  dsimp only
  split
  · exact countQ_reports s b src inst n
  · exact (countQ_reports s b src inst n).trans (pump_reports _ _)

theorem incThr_reports (s : State) (a n thr isl name arg : Nat) :
    Reports s (s.incThr a n thr isl name arg) := by
  unfold State.incThr
  extract_lets c t
  split
  · exact ((inc_reports s a n).trans (Reports.mk _ _ _ _ _ _ _)).trans (logNamed_reports _ _ _ _)
  · exact inc_reports s a n

theorem setMode_reports (s : State) (m : Nat) : Reports s (s.setMode m) :=
  (setRegF_reports s _ _ _ _).trans (announce_reports _ _ _ _ _)

/-! ### `count` -/

@[simp] theorem State.count_latch (s : State) (b src inst n : Nat) : (s.count b src inst n).latch = s.latch :=
  (count_reports s b src inst n).latch
@[simp] theorem State.count_readData (s : State) (b src inst n : Nat) : (s.count b src inst n).readData = s.readData :=
  (count_reports s b src inst n).readData
@[simp] theorem State.count_mem (s : State) (b src inst n : Nat) : (s.count b src inst n).mem = s.mem :=
  (count_reports s b src inst n).mem
@[simp] theorem State.count_poison (s : State) (b src inst n : Nat) : (s.count b src inst n).poison = s.poison :=
  (count_reports s b src inst n).poison
@[simp] theorem State.count_reads (s : State) (b src inst n : Nat) : (s.count b src inst n).reads = s.reads :=
  (count_reports s b src inst n).reads
@[simp] theorem State.count_staged (s : State) (b src inst n : Nat) : (s.count b src inst n).staged = s.staged :=
  (count_reports s b src inst n).staged
@[simp] theorem State.count_norms (s : State) (b src inst n : Nat) : (s.count b src inst n).norms = s.norms :=
  (count_reports s b src inst n).norms
@[simp] theorem State.count_prog (s : State) (b src inst n : Nat) : (s.count b src inst n).prog = s.prog :=
  (count_reports s b src inst n).prog
@[simp] theorem State.count_ctl (s : State) (b src inst n : Nat) : (s.count b src inst n).ctl = s.ctl :=
  (count_reports s b src inst n).ctl
@[simp] theorem State.count_recWindows (s : State) (b src inst n : Nat) : (s.count b src inst n).recWindows = s.recWindows :=
  (count_reports s b src inst n).recWindows
@[simp] theorem State.count_resync (s : State) (b src inst n : Nat) : (s.count b src inst n).resync = s.resync :=
  (count_reports s b src inst n).resync
@[simp] theorem State.count_restore (s : State) (b src inst n : Nat) : (s.count b src inst n).restore = s.restore :=
  (count_reports s b src inst n).restore
@[simp] theorem State.count_flash (s : State) (b src inst n : Nat) : (s.count b src inst n).flash = s.flash :=
  (count_reports s b src inst n).flash
@[simp] theorem State.count_otp (s : State) (b src inst n : Nat) : (s.count b src inst n).otp = s.otp :=
  (count_reports s b src inst n).otp
@[simp] theorem State.count_power (s : State) (b src inst n : Nat) : (s.count b src inst n).power = s.power :=
  (count_reports s b src inst n).power
@[simp] theorem State.count_tap (s : State) (b src inst n : Nat) : (s.count b src inst n).tap = s.tap :=
  (count_reports s b src inst n).tap
@[simp] theorem State.count_now (s : State) (b src inst n : Nat) : (s.count b src inst n).now = s.now :=
  (count_reports s b src inst n).now
@[simp] theorem State.count_freeCtr (s : State) (b src inst n : Nat) : (s.count b src inst n).freeCtr = s.freeCtr :=
  (count_reports s b src inst n).freeCtr
@[simp] theorem State.count_pending (s : State) (b src inst n : Nat) : (s.count b src inst n).pending = s.pending :=
  (count_reports s b src inst n).pending
@[simp] theorem State.core_count (s : State) (b src inst n : Nat) (j : Nat) :
    (s.count b src inst n).core j = s.core j := (count_reports s b src inst n).core j
@[simp] theorem State.die_count (s : State) (b src inst n : Nat) (j : Nat) :
    (s.count b src inst n).die j = s.die j := (count_reports s b src inst n).die j
@[simp] theorem State.arb_count (s : State) (b src inst n : Nat) (j : Nat) :
    (s.count b src inst n).arb j = s.arb j := (count_reports s b src inst n).arb j
@[simp] theorem State.chan_count (s : State) (b src inst n : Nat) (j : Nat) :
    (s.count b src inst n).chan j = s.chan j := (count_reports s b src inst n).chan j
@[simp] theorem State.bridge_count (s : State) (b src inst n : Nat) (j : Nat) :
    (s.count b src inst n).bridge j = s.bridge j := (count_reports s b src inst n).bridge j
@[simp] theorem State.engine_count (s : State) (b src inst n : Nat) (j : Nat) :
    (s.count b src inst n).engine j = s.engine j := (count_reports s b src inst n).engine j
@[simp] theorem State.txFlow_count (s : State) (b src inst n : Nat) (j : Nat) :
    (s.count b src inst n).txFlow j = s.txFlow j := (count_reports s b src inst n).txFlow j
@[simp] theorem State.rxFlow_count (s : State) (b src inst n : Nat) (j : Nat) :
    (s.count b src inst n).rxFlow j = s.rxFlow j := (count_reports s b src inst n).rxFlow j
@[simp] theorem State.hostQ_count (s : State) (b src inst n : Nat) (j : Nat) :
    (s.count b src inst n).hostQ j = s.hostQ j := (count_reports s b src inst n).hostQ j
@[simp] theorem State.alloc_count (s : State) (b src inst n : Nat) (j : Nat) :
    (s.count b src inst n).alloc j = s.alloc j := (count_reports s b src inst n).alloc j
@[simp] theorem State.desc_count (s : State) (b src inst n : Nat) (j : Nat) :
    (s.count b src inst n).desc j = s.desc j := (count_reports s b src inst n).desc j
@[simp] theorem State.feed_count (s : State) (b src inst n : Nat) (j : Nat) :
    (s.count b src inst n).feed j = s.feed j := (count_reports s b src inst n).feed j
@[simp] theorem State.window_count (s : State) (b src inst n : Nat) (j : Nat) :
    (s.count b src inst n).window j = s.window j := (count_reports s b src inst n).window j
/-! ### `announce` -/

@[simp] theorem State.announce_latch (s : State) (i code arg : Nat) (args : List Nat) : (s.announce i code arg args).latch = s.latch :=
  (announce_reports s i code arg args).latch
@[simp] theorem State.announce_readData (s : State) (i code arg : Nat) (args : List Nat) : (s.announce i code arg args).readData = s.readData :=
  (announce_reports s i code arg args).readData
@[simp] theorem State.announce_mem (s : State) (i code arg : Nat) (args : List Nat) : (s.announce i code arg args).mem = s.mem :=
  (announce_reports s i code arg args).mem
@[simp] theorem State.announce_poison (s : State) (i code arg : Nat) (args : List Nat) : (s.announce i code arg args).poison = s.poison :=
  (announce_reports s i code arg args).poison
@[simp] theorem State.announce_reads (s : State) (i code arg : Nat) (args : List Nat) : (s.announce i code arg args).reads = s.reads :=
  (announce_reports s i code arg args).reads
@[simp] theorem State.announce_staged (s : State) (i code arg : Nat) (args : List Nat) : (s.announce i code arg args).staged = s.staged :=
  (announce_reports s i code arg args).staged
@[simp] theorem State.announce_norms (s : State) (i code arg : Nat) (args : List Nat) : (s.announce i code arg args).norms = s.norms :=
  (announce_reports s i code arg args).norms
@[simp] theorem State.announce_prog (s : State) (i code arg : Nat) (args : List Nat) : (s.announce i code arg args).prog = s.prog :=
  (announce_reports s i code arg args).prog
@[simp] theorem State.announce_ctl (s : State) (i code arg : Nat) (args : List Nat) : (s.announce i code arg args).ctl = s.ctl :=
  (announce_reports s i code arg args).ctl
@[simp] theorem State.announce_recWindows (s : State) (i code arg : Nat) (args : List Nat) : (s.announce i code arg args).recWindows = s.recWindows :=
  (announce_reports s i code arg args).recWindows
@[simp] theorem State.announce_resync (s : State) (i code arg : Nat) (args : List Nat) : (s.announce i code arg args).resync = s.resync :=
  (announce_reports s i code arg args).resync
@[simp] theorem State.announce_restore (s : State) (i code arg : Nat) (args : List Nat) : (s.announce i code arg args).restore = s.restore :=
  (announce_reports s i code arg args).restore
@[simp] theorem State.announce_flash (s : State) (i code arg : Nat) (args : List Nat) : (s.announce i code arg args).flash = s.flash :=
  (announce_reports s i code arg args).flash
@[simp] theorem State.announce_otp (s : State) (i code arg : Nat) (args : List Nat) : (s.announce i code arg args).otp = s.otp :=
  (announce_reports s i code arg args).otp
@[simp] theorem State.announce_power (s : State) (i code arg : Nat) (args : List Nat) : (s.announce i code arg args).power = s.power :=
  (announce_reports s i code arg args).power
@[simp] theorem State.announce_tap (s : State) (i code arg : Nat) (args : List Nat) : (s.announce i code arg args).tap = s.tap :=
  (announce_reports s i code arg args).tap
@[simp] theorem State.announce_now (s : State) (i code arg : Nat) (args : List Nat) : (s.announce i code arg args).now = s.now :=
  (announce_reports s i code arg args).now
@[simp] theorem State.announce_freeCtr (s : State) (i code arg : Nat) (args : List Nat) : (s.announce i code arg args).freeCtr = s.freeCtr :=
  (announce_reports s i code arg args).freeCtr
@[simp] theorem State.announce_pending (s : State) (i code arg : Nat) (args : List Nat) : (s.announce i code arg args).pending = s.pending :=
  (announce_reports s i code arg args).pending
@[simp] theorem State.core_announce (s : State) (i code arg : Nat) (args : List Nat) (j : Nat) :
    (s.announce i code arg args).core j = s.core j := (announce_reports s i code arg args).core j
@[simp] theorem State.die_announce (s : State) (i code arg : Nat) (args : List Nat) (j : Nat) :
    (s.announce i code arg args).die j = s.die j := (announce_reports s i code arg args).die j
@[simp] theorem State.arb_announce (s : State) (i code arg : Nat) (args : List Nat) (j : Nat) :
    (s.announce i code arg args).arb j = s.arb j := (announce_reports s i code arg args).arb j
@[simp] theorem State.chan_announce (s : State) (i code arg : Nat) (args : List Nat) (j : Nat) :
    (s.announce i code arg args).chan j = s.chan j := (announce_reports s i code arg args).chan j
@[simp] theorem State.bridge_announce (s : State) (i code arg : Nat) (args : List Nat) (j : Nat) :
    (s.announce i code arg args).bridge j = s.bridge j := (announce_reports s i code arg args).bridge j
@[simp] theorem State.engine_announce (s : State) (i code arg : Nat) (args : List Nat) (j : Nat) :
    (s.announce i code arg args).engine j = s.engine j := (announce_reports s i code arg args).engine j
@[simp] theorem State.txFlow_announce (s : State) (i code arg : Nat) (args : List Nat) (j : Nat) :
    (s.announce i code arg args).txFlow j = s.txFlow j := (announce_reports s i code arg args).txFlow j
@[simp] theorem State.rxFlow_announce (s : State) (i code arg : Nat) (args : List Nat) (j : Nat) :
    (s.announce i code arg args).rxFlow j = s.rxFlow j := (announce_reports s i code arg args).rxFlow j
@[simp] theorem State.hostQ_announce (s : State) (i code arg : Nat) (args : List Nat) (j : Nat) :
    (s.announce i code arg args).hostQ j = s.hostQ j := (announce_reports s i code arg args).hostQ j
@[simp] theorem State.alloc_announce (s : State) (i code arg : Nat) (args : List Nat) (j : Nat) :
    (s.announce i code arg args).alloc j = s.alloc j := (announce_reports s i code arg args).alloc j
@[simp] theorem State.desc_announce (s : State) (i code arg : Nat) (args : List Nat) (j : Nat) :
    (s.announce i code arg args).desc j = s.desc j := (announce_reports s i code arg args).desc j
@[simp] theorem State.feed_announce (s : State) (i code arg : Nat) (args : List Nat) (j : Nat) :
    (s.announce i code arg args).feed j = s.feed j := (announce_reports s i code arg args).feed j
@[simp] theorem State.window_announce (s : State) (i code arg : Nat) (args : List Nat) (j : Nat) :
    (s.announce i code arg args).window j = s.window j := (announce_reports s i code arg args).window j
/-! ### `logNamed` -/

@[simp] theorem State.logNamed_latch (s : State) (i name arg : Nat) : (s.logNamed i name arg).latch = s.latch :=
  (logNamed_reports s i name arg).latch
@[simp] theorem State.logNamed_readData (s : State) (i name arg : Nat) : (s.logNamed i name arg).readData = s.readData :=
  (logNamed_reports s i name arg).readData
@[simp] theorem State.logNamed_mem (s : State) (i name arg : Nat) : (s.logNamed i name arg).mem = s.mem :=
  (logNamed_reports s i name arg).mem
@[simp] theorem State.logNamed_poison (s : State) (i name arg : Nat) : (s.logNamed i name arg).poison = s.poison :=
  (logNamed_reports s i name arg).poison
@[simp] theorem State.logNamed_reads (s : State) (i name arg : Nat) : (s.logNamed i name arg).reads = s.reads :=
  (logNamed_reports s i name arg).reads
@[simp] theorem State.logNamed_staged (s : State) (i name arg : Nat) : (s.logNamed i name arg).staged = s.staged :=
  (logNamed_reports s i name arg).staged
@[simp] theorem State.logNamed_norms (s : State) (i name arg : Nat) : (s.logNamed i name arg).norms = s.norms :=
  (logNamed_reports s i name arg).norms
@[simp] theorem State.logNamed_prog (s : State) (i name arg : Nat) : (s.logNamed i name arg).prog = s.prog :=
  (logNamed_reports s i name arg).prog
@[simp] theorem State.logNamed_ctl (s : State) (i name arg : Nat) : (s.logNamed i name arg).ctl = s.ctl :=
  (logNamed_reports s i name arg).ctl
@[simp] theorem State.logNamed_recWindows (s : State) (i name arg : Nat) : (s.logNamed i name arg).recWindows = s.recWindows :=
  (logNamed_reports s i name arg).recWindows
@[simp] theorem State.logNamed_resync (s : State) (i name arg : Nat) : (s.logNamed i name arg).resync = s.resync :=
  (logNamed_reports s i name arg).resync
@[simp] theorem State.logNamed_restore (s : State) (i name arg : Nat) : (s.logNamed i name arg).restore = s.restore :=
  (logNamed_reports s i name arg).restore
@[simp] theorem State.logNamed_flash (s : State) (i name arg : Nat) : (s.logNamed i name arg).flash = s.flash :=
  (logNamed_reports s i name arg).flash
@[simp] theorem State.logNamed_otp (s : State) (i name arg : Nat) : (s.logNamed i name arg).otp = s.otp :=
  (logNamed_reports s i name arg).otp
@[simp] theorem State.logNamed_power (s : State) (i name arg : Nat) : (s.logNamed i name arg).power = s.power :=
  (logNamed_reports s i name arg).power
@[simp] theorem State.logNamed_tap (s : State) (i name arg : Nat) : (s.logNamed i name arg).tap = s.tap :=
  (logNamed_reports s i name arg).tap
@[simp] theorem State.logNamed_now (s : State) (i name arg : Nat) : (s.logNamed i name arg).now = s.now :=
  (logNamed_reports s i name arg).now
@[simp] theorem State.logNamed_freeCtr (s : State) (i name arg : Nat) : (s.logNamed i name arg).freeCtr = s.freeCtr :=
  (logNamed_reports s i name arg).freeCtr
@[simp] theorem State.logNamed_pending (s : State) (i name arg : Nat) : (s.logNamed i name arg).pending = s.pending :=
  (logNamed_reports s i name arg).pending
@[simp] theorem State.core_logNamed (s : State) (i name arg : Nat) (j : Nat) :
    (s.logNamed i name arg).core j = s.core j := (logNamed_reports s i name arg).core j
@[simp] theorem State.die_logNamed (s : State) (i name arg : Nat) (j : Nat) :
    (s.logNamed i name arg).die j = s.die j := (logNamed_reports s i name arg).die j
@[simp] theorem State.arb_logNamed (s : State) (i name arg : Nat) (j : Nat) :
    (s.logNamed i name arg).arb j = s.arb j := (logNamed_reports s i name arg).arb j
@[simp] theorem State.chan_logNamed (s : State) (i name arg : Nat) (j : Nat) :
    (s.logNamed i name arg).chan j = s.chan j := (logNamed_reports s i name arg).chan j
@[simp] theorem State.bridge_logNamed (s : State) (i name arg : Nat) (j : Nat) :
    (s.logNamed i name arg).bridge j = s.bridge j := (logNamed_reports s i name arg).bridge j
@[simp] theorem State.engine_logNamed (s : State) (i name arg : Nat) (j : Nat) :
    (s.logNamed i name arg).engine j = s.engine j := (logNamed_reports s i name arg).engine j
@[simp] theorem State.txFlow_logNamed (s : State) (i name arg : Nat) (j : Nat) :
    (s.logNamed i name arg).txFlow j = s.txFlow j := (logNamed_reports s i name arg).txFlow j
@[simp] theorem State.rxFlow_logNamed (s : State) (i name arg : Nat) (j : Nat) :
    (s.logNamed i name arg).rxFlow j = s.rxFlow j := (logNamed_reports s i name arg).rxFlow j
@[simp] theorem State.hostQ_logNamed (s : State) (i name arg : Nat) (j : Nat) :
    (s.logNamed i name arg).hostQ j = s.hostQ j := (logNamed_reports s i name arg).hostQ j
@[simp] theorem State.alloc_logNamed (s : State) (i name arg : Nat) (j : Nat) :
    (s.logNamed i name arg).alloc j = s.alloc j := (logNamed_reports s i name arg).alloc j
@[simp] theorem State.desc_logNamed (s : State) (i name arg : Nat) (j : Nat) :
    (s.logNamed i name arg).desc j = s.desc j := (logNamed_reports s i name arg).desc j
@[simp] theorem State.feed_logNamed (s : State) (i name arg : Nat) (j : Nat) :
    (s.logNamed i name arg).feed j = s.feed j := (logNamed_reports s i name arg).feed j
@[simp] theorem State.window_logNamed (s : State) (i name arg : Nat) (j : Nat) :
    (s.logNamed i name arg).window j = s.window j := (logNamed_reports s i name arg).window j
/-! ### `incThr` -/

@[simp] theorem State.incThr_latch (s : State) (a n thr isl name arg : Nat) : (s.incThr a n thr isl name arg).latch = s.latch :=
  (incThr_reports s a n thr isl name arg).latch
@[simp] theorem State.incThr_readData (s : State) (a n thr isl name arg : Nat) : (s.incThr a n thr isl name arg).readData = s.readData :=
  (incThr_reports s a n thr isl name arg).readData
@[simp] theorem State.incThr_mem (s : State) (a n thr isl name arg : Nat) : (s.incThr a n thr isl name arg).mem = s.mem :=
  (incThr_reports s a n thr isl name arg).mem
@[simp] theorem State.incThr_poison (s : State) (a n thr isl name arg : Nat) : (s.incThr a n thr isl name arg).poison = s.poison :=
  (incThr_reports s a n thr isl name arg).poison
@[simp] theorem State.incThr_reads (s : State) (a n thr isl name arg : Nat) : (s.incThr a n thr isl name arg).reads = s.reads :=
  (incThr_reports s a n thr isl name arg).reads
@[simp] theorem State.incThr_staged (s : State) (a n thr isl name arg : Nat) : (s.incThr a n thr isl name arg).staged = s.staged :=
  (incThr_reports s a n thr isl name arg).staged
@[simp] theorem State.incThr_norms (s : State) (a n thr isl name arg : Nat) : (s.incThr a n thr isl name arg).norms = s.norms :=
  (incThr_reports s a n thr isl name arg).norms
@[simp] theorem State.incThr_prog (s : State) (a n thr isl name arg : Nat) : (s.incThr a n thr isl name arg).prog = s.prog :=
  (incThr_reports s a n thr isl name arg).prog
@[simp] theorem State.incThr_ctl (s : State) (a n thr isl name arg : Nat) : (s.incThr a n thr isl name arg).ctl = s.ctl :=
  (incThr_reports s a n thr isl name arg).ctl
@[simp] theorem State.incThr_recWindows (s : State) (a n thr isl name arg : Nat) : (s.incThr a n thr isl name arg).recWindows = s.recWindows :=
  (incThr_reports s a n thr isl name arg).recWindows
@[simp] theorem State.incThr_resync (s : State) (a n thr isl name arg : Nat) : (s.incThr a n thr isl name arg).resync = s.resync :=
  (incThr_reports s a n thr isl name arg).resync
@[simp] theorem State.incThr_restore (s : State) (a n thr isl name arg : Nat) : (s.incThr a n thr isl name arg).restore = s.restore :=
  (incThr_reports s a n thr isl name arg).restore
@[simp] theorem State.incThr_flash (s : State) (a n thr isl name arg : Nat) : (s.incThr a n thr isl name arg).flash = s.flash :=
  (incThr_reports s a n thr isl name arg).flash
@[simp] theorem State.incThr_otp (s : State) (a n thr isl name arg : Nat) : (s.incThr a n thr isl name arg).otp = s.otp :=
  (incThr_reports s a n thr isl name arg).otp
@[simp] theorem State.incThr_power (s : State) (a n thr isl name arg : Nat) : (s.incThr a n thr isl name arg).power = s.power :=
  (incThr_reports s a n thr isl name arg).power
@[simp] theorem State.incThr_tap (s : State) (a n thr isl name arg : Nat) : (s.incThr a n thr isl name arg).tap = s.tap :=
  (incThr_reports s a n thr isl name arg).tap
@[simp] theorem State.incThr_now (s : State) (a n thr isl name arg : Nat) : (s.incThr a n thr isl name arg).now = s.now :=
  (incThr_reports s a n thr isl name arg).now
@[simp] theorem State.incThr_freeCtr (s : State) (a n thr isl name arg : Nat) : (s.incThr a n thr isl name arg).freeCtr = s.freeCtr :=
  (incThr_reports s a n thr isl name arg).freeCtr
@[simp] theorem State.incThr_pending (s : State) (a n thr isl name arg : Nat) : (s.incThr a n thr isl name arg).pending = s.pending :=
  (incThr_reports s a n thr isl name arg).pending
@[simp] theorem State.core_incThr (s : State) (a n thr isl name arg : Nat) (j : Nat) :
    (s.incThr a n thr isl name arg).core j = s.core j := (incThr_reports s a n thr isl name arg).core j
@[simp] theorem State.die_incThr (s : State) (a n thr isl name arg : Nat) (j : Nat) :
    (s.incThr a n thr isl name arg).die j = s.die j := (incThr_reports s a n thr isl name arg).die j
@[simp] theorem State.arb_incThr (s : State) (a n thr isl name arg : Nat) (j : Nat) :
    (s.incThr a n thr isl name arg).arb j = s.arb j := (incThr_reports s a n thr isl name arg).arb j
@[simp] theorem State.chan_incThr (s : State) (a n thr isl name arg : Nat) (j : Nat) :
    (s.incThr a n thr isl name arg).chan j = s.chan j := (incThr_reports s a n thr isl name arg).chan j
@[simp] theorem State.bridge_incThr (s : State) (a n thr isl name arg : Nat) (j : Nat) :
    (s.incThr a n thr isl name arg).bridge j = s.bridge j := (incThr_reports s a n thr isl name arg).bridge j
@[simp] theorem State.engine_incThr (s : State) (a n thr isl name arg : Nat) (j : Nat) :
    (s.incThr a n thr isl name arg).engine j = s.engine j := (incThr_reports s a n thr isl name arg).engine j
@[simp] theorem State.txFlow_incThr (s : State) (a n thr isl name arg : Nat) (j : Nat) :
    (s.incThr a n thr isl name arg).txFlow j = s.txFlow j := (incThr_reports s a n thr isl name arg).txFlow j
@[simp] theorem State.rxFlow_incThr (s : State) (a n thr isl name arg : Nat) (j : Nat) :
    (s.incThr a n thr isl name arg).rxFlow j = s.rxFlow j := (incThr_reports s a n thr isl name arg).rxFlow j
@[simp] theorem State.hostQ_incThr (s : State) (a n thr isl name arg : Nat) (j : Nat) :
    (s.incThr a n thr isl name arg).hostQ j = s.hostQ j := (incThr_reports s a n thr isl name arg).hostQ j
@[simp] theorem State.alloc_incThr (s : State) (a n thr isl name arg : Nat) (j : Nat) :
    (s.incThr a n thr isl name arg).alloc j = s.alloc j := (incThr_reports s a n thr isl name arg).alloc j
@[simp] theorem State.desc_incThr (s : State) (a n thr isl name arg : Nat) (j : Nat) :
    (s.incThr a n thr isl name arg).desc j = s.desc j := (incThr_reports s a n thr isl name arg).desc j
@[simp] theorem State.feed_incThr (s : State) (a n thr isl name arg : Nat) (j : Nat) :
    (s.incThr a n thr isl name arg).feed j = s.feed j := (incThr_reports s a n thr isl name arg).feed j
@[simp] theorem State.window_incThr (s : State) (a n thr isl name arg : Nat) (j : Nat) :
    (s.incThr a n thr isl name arg).window j = s.window j := (incThr_reports s a n thr isl name arg).window j
/-! ### `pump` -/

@[simp] theorem State.pump_latch (s : State) (l : Nat) : (s.pump l).latch = s.latch :=
  (pump_reports s l).latch
@[simp] theorem State.pump_readData (s : State) (l : Nat) : (s.pump l).readData = s.readData :=
  (pump_reports s l).readData
@[simp] theorem State.pump_mem (s : State) (l : Nat) : (s.pump l).mem = s.mem :=
  (pump_reports s l).mem
@[simp] theorem State.pump_poison (s : State) (l : Nat) : (s.pump l).poison = s.poison :=
  (pump_reports s l).poison
@[simp] theorem State.pump_reads (s : State) (l : Nat) : (s.pump l).reads = s.reads :=
  (pump_reports s l).reads
@[simp] theorem State.pump_staged (s : State) (l : Nat) : (s.pump l).staged = s.staged :=
  (pump_reports s l).staged
@[simp] theorem State.pump_norms (s : State) (l : Nat) : (s.pump l).norms = s.norms :=
  (pump_reports s l).norms
@[simp] theorem State.pump_prog (s : State) (l : Nat) : (s.pump l).prog = s.prog :=
  (pump_reports s l).prog
@[simp] theorem State.pump_ctl (s : State) (l : Nat) : (s.pump l).ctl = s.ctl :=
  (pump_reports s l).ctl
@[simp] theorem State.pump_recWindows (s : State) (l : Nat) : (s.pump l).recWindows = s.recWindows :=
  (pump_reports s l).recWindows
@[simp] theorem State.pump_resync (s : State) (l : Nat) : (s.pump l).resync = s.resync :=
  (pump_reports s l).resync
@[simp] theorem State.pump_restore (s : State) (l : Nat) : (s.pump l).restore = s.restore :=
  (pump_reports s l).restore
@[simp] theorem State.pump_flash (s : State) (l : Nat) : (s.pump l).flash = s.flash :=
  (pump_reports s l).flash
@[simp] theorem State.pump_otp (s : State) (l : Nat) : (s.pump l).otp = s.otp :=
  (pump_reports s l).otp
@[simp] theorem State.pump_power (s : State) (l : Nat) : (s.pump l).power = s.power :=
  (pump_reports s l).power
@[simp] theorem State.pump_tap (s : State) (l : Nat) : (s.pump l).tap = s.tap :=
  (pump_reports s l).tap
@[simp] theorem State.pump_now (s : State) (l : Nat) : (s.pump l).now = s.now :=
  (pump_reports s l).now
@[simp] theorem State.pump_freeCtr (s : State) (l : Nat) : (s.pump l).freeCtr = s.freeCtr :=
  (pump_reports s l).freeCtr
@[simp] theorem State.pump_pending (s : State) (l : Nat) : (s.pump l).pending = s.pending :=
  (pump_reports s l).pending
@[simp] theorem State.core_pump (s : State) (l : Nat) (j : Nat) :
    (s.pump l).core j = s.core j := (pump_reports s l).core j
@[simp] theorem State.die_pump (s : State) (l : Nat) (j : Nat) :
    (s.pump l).die j = s.die j := (pump_reports s l).die j
@[simp] theorem State.arb_pump (s : State) (l : Nat) (j : Nat) :
    (s.pump l).arb j = s.arb j := (pump_reports s l).arb j
@[simp] theorem State.chan_pump (s : State) (l : Nat) (j : Nat) :
    (s.pump l).chan j = s.chan j := (pump_reports s l).chan j
@[simp] theorem State.bridge_pump (s : State) (l : Nat) (j : Nat) :
    (s.pump l).bridge j = s.bridge j := (pump_reports s l).bridge j
@[simp] theorem State.engine_pump (s : State) (l : Nat) (j : Nat) :
    (s.pump l).engine j = s.engine j := (pump_reports s l).engine j
@[simp] theorem State.txFlow_pump (s : State) (l : Nat) (j : Nat) :
    (s.pump l).txFlow j = s.txFlow j := (pump_reports s l).txFlow j
@[simp] theorem State.rxFlow_pump (s : State) (l : Nat) (j : Nat) :
    (s.pump l).rxFlow j = s.rxFlow j := (pump_reports s l).rxFlow j
@[simp] theorem State.hostQ_pump (s : State) (l : Nat) (j : Nat) :
    (s.pump l).hostQ j = s.hostQ j := (pump_reports s l).hostQ j
@[simp] theorem State.alloc_pump (s : State) (l : Nat) (j : Nat) :
    (s.pump l).alloc j = s.alloc j := (pump_reports s l).alloc j
@[simp] theorem State.desc_pump (s : State) (l : Nat) (j : Nat) :
    (s.pump l).desc j = s.desc j := (pump_reports s l).desc j
@[simp] theorem State.feed_pump (s : State) (l : Nat) (j : Nat) :
    (s.pump l).feed j = s.feed j := (pump_reports s l).feed j
@[simp] theorem State.window_pump (s : State) (l : Nat) (j : Nat) :
    (s.pump l).window j = s.window j := (pump_reports s l).window j
/-! ### `linkSend` -/

@[simp] theorem State.linkSend_latch (s : State) (l : Nat) (p : Pkt) : (s.linkSend l p).latch = s.latch :=
  (linkSend_reports s l p).latch
@[simp] theorem State.linkSend_readData (s : State) (l : Nat) (p : Pkt) : (s.linkSend l p).readData = s.readData :=
  (linkSend_reports s l p).readData
@[simp] theorem State.linkSend_mem (s : State) (l : Nat) (p : Pkt) : (s.linkSend l p).mem = s.mem :=
  (linkSend_reports s l p).mem
@[simp] theorem State.linkSend_poison (s : State) (l : Nat) (p : Pkt) : (s.linkSend l p).poison = s.poison :=
  (linkSend_reports s l p).poison
@[simp] theorem State.linkSend_reads (s : State) (l : Nat) (p : Pkt) : (s.linkSend l p).reads = s.reads :=
  (linkSend_reports s l p).reads
@[simp] theorem State.linkSend_staged (s : State) (l : Nat) (p : Pkt) : (s.linkSend l p).staged = s.staged :=
  (linkSend_reports s l p).staged
@[simp] theorem State.linkSend_norms (s : State) (l : Nat) (p : Pkt) : (s.linkSend l p).norms = s.norms :=
  (linkSend_reports s l p).norms
@[simp] theorem State.linkSend_prog (s : State) (l : Nat) (p : Pkt) : (s.linkSend l p).prog = s.prog :=
  (linkSend_reports s l p).prog
@[simp] theorem State.linkSend_ctl (s : State) (l : Nat) (p : Pkt) : (s.linkSend l p).ctl = s.ctl :=
  (linkSend_reports s l p).ctl
@[simp] theorem State.linkSend_recWindows (s : State) (l : Nat) (p : Pkt) : (s.linkSend l p).recWindows = s.recWindows :=
  (linkSend_reports s l p).recWindows
@[simp] theorem State.linkSend_resync (s : State) (l : Nat) (p : Pkt) : (s.linkSend l p).resync = s.resync :=
  (linkSend_reports s l p).resync
@[simp] theorem State.linkSend_restore (s : State) (l : Nat) (p : Pkt) : (s.linkSend l p).restore = s.restore :=
  (linkSend_reports s l p).restore
@[simp] theorem State.linkSend_flash (s : State) (l : Nat) (p : Pkt) : (s.linkSend l p).flash = s.flash :=
  (linkSend_reports s l p).flash
@[simp] theorem State.linkSend_otp (s : State) (l : Nat) (p : Pkt) : (s.linkSend l p).otp = s.otp :=
  (linkSend_reports s l p).otp
@[simp] theorem State.linkSend_power (s : State) (l : Nat) (p : Pkt) : (s.linkSend l p).power = s.power :=
  (linkSend_reports s l p).power
@[simp] theorem State.linkSend_tap (s : State) (l : Nat) (p : Pkt) : (s.linkSend l p).tap = s.tap :=
  (linkSend_reports s l p).tap
@[simp] theorem State.linkSend_now (s : State) (l : Nat) (p : Pkt) : (s.linkSend l p).now = s.now :=
  (linkSend_reports s l p).now
@[simp] theorem State.linkSend_freeCtr (s : State) (l : Nat) (p : Pkt) : (s.linkSend l p).freeCtr = s.freeCtr :=
  (linkSend_reports s l p).freeCtr
@[simp] theorem State.linkSend_pending (s : State) (l : Nat) (p : Pkt) : (s.linkSend l p).pending = s.pending :=
  (linkSend_reports s l p).pending
@[simp] theorem State.core_linkSend (s : State) (l : Nat) (p : Pkt) (j : Nat) :
    (s.linkSend l p).core j = s.core j := (linkSend_reports s l p).core j
@[simp] theorem State.die_linkSend (s : State) (l : Nat) (p : Pkt) (j : Nat) :
    (s.linkSend l p).die j = s.die j := (linkSend_reports s l p).die j
@[simp] theorem State.arb_linkSend (s : State) (l : Nat) (p : Pkt) (j : Nat) :
    (s.linkSend l p).arb j = s.arb j := (linkSend_reports s l p).arb j
@[simp] theorem State.chan_linkSend (s : State) (l : Nat) (p : Pkt) (j : Nat) :
    (s.linkSend l p).chan j = s.chan j := (linkSend_reports s l p).chan j
@[simp] theorem State.bridge_linkSend (s : State) (l : Nat) (p : Pkt) (j : Nat) :
    (s.linkSend l p).bridge j = s.bridge j := (linkSend_reports s l p).bridge j
@[simp] theorem State.engine_linkSend (s : State) (l : Nat) (p : Pkt) (j : Nat) :
    (s.linkSend l p).engine j = s.engine j := (linkSend_reports s l p).engine j
@[simp] theorem State.txFlow_linkSend (s : State) (l : Nat) (p : Pkt) (j : Nat) :
    (s.linkSend l p).txFlow j = s.txFlow j := (linkSend_reports s l p).txFlow j
@[simp] theorem State.rxFlow_linkSend (s : State) (l : Nat) (p : Pkt) (j : Nat) :
    (s.linkSend l p).rxFlow j = s.rxFlow j := (linkSend_reports s l p).rxFlow j
@[simp] theorem State.hostQ_linkSend (s : State) (l : Nat) (p : Pkt) (j : Nat) :
    (s.linkSend l p).hostQ j = s.hostQ j := (linkSend_reports s l p).hostQ j
@[simp] theorem State.alloc_linkSend (s : State) (l : Nat) (p : Pkt) (j : Nat) :
    (s.linkSend l p).alloc j = s.alloc j := (linkSend_reports s l p).alloc j
@[simp] theorem State.desc_linkSend (s : State) (l : Nat) (p : Pkt) (j : Nat) :
    (s.linkSend l p).desc j = s.desc j := (linkSend_reports s l p).desc j
@[simp] theorem State.feed_linkSend (s : State) (l : Nat) (p : Pkt) (j : Nat) :
    (s.linkSend l p).feed j = s.feed j := (linkSend_reports s l p).feed j
@[simp] theorem State.window_linkSend (s : State) (l : Nat) (p : Pkt) (j : Nat) :
    (s.linkSend l p).window j = s.window j := (linkSend_reports s l p).window j
/-! ### `setMode` -/

@[simp] theorem State.setMode_latch (s : State) (m : Nat) : (s.setMode m).latch = s.latch :=
  (setMode_reports s m).latch
@[simp] theorem State.setMode_readData (s : State) (m : Nat) : (s.setMode m).readData = s.readData :=
  (setMode_reports s m).readData
@[simp] theorem State.setMode_mem (s : State) (m : Nat) : (s.setMode m).mem = s.mem :=
  (setMode_reports s m).mem
@[simp] theorem State.setMode_poison (s : State) (m : Nat) : (s.setMode m).poison = s.poison :=
  (setMode_reports s m).poison
@[simp] theorem State.setMode_reads (s : State) (m : Nat) : (s.setMode m).reads = s.reads :=
  (setMode_reports s m).reads
@[simp] theorem State.setMode_staged (s : State) (m : Nat) : (s.setMode m).staged = s.staged :=
  (setMode_reports s m).staged
@[simp] theorem State.setMode_norms (s : State) (m : Nat) : (s.setMode m).norms = s.norms :=
  (setMode_reports s m).norms
@[simp] theorem State.setMode_prog (s : State) (m : Nat) : (s.setMode m).prog = s.prog :=
  (setMode_reports s m).prog
@[simp] theorem State.setMode_ctl (s : State) (m : Nat) : (s.setMode m).ctl = s.ctl :=
  (setMode_reports s m).ctl
@[simp] theorem State.setMode_recWindows (s : State) (m : Nat) : (s.setMode m).recWindows = s.recWindows :=
  (setMode_reports s m).recWindows
@[simp] theorem State.setMode_resync (s : State) (m : Nat) : (s.setMode m).resync = s.resync :=
  (setMode_reports s m).resync
@[simp] theorem State.setMode_restore (s : State) (m : Nat) : (s.setMode m).restore = s.restore :=
  (setMode_reports s m).restore
@[simp] theorem State.setMode_flash (s : State) (m : Nat) : (s.setMode m).flash = s.flash :=
  (setMode_reports s m).flash
@[simp] theorem State.setMode_otp (s : State) (m : Nat) : (s.setMode m).otp = s.otp :=
  (setMode_reports s m).otp
@[simp] theorem State.setMode_power (s : State) (m : Nat) : (s.setMode m).power = s.power :=
  (setMode_reports s m).power
@[simp] theorem State.setMode_tap (s : State) (m : Nat) : (s.setMode m).tap = s.tap :=
  (setMode_reports s m).tap
@[simp] theorem State.setMode_now (s : State) (m : Nat) : (s.setMode m).now = s.now :=
  (setMode_reports s m).now
@[simp] theorem State.setMode_freeCtr (s : State) (m : Nat) : (s.setMode m).freeCtr = s.freeCtr :=
  (setMode_reports s m).freeCtr
@[simp] theorem State.setMode_pending (s : State) (m : Nat) : (s.setMode m).pending = s.pending :=
  (setMode_reports s m).pending
@[simp] theorem State.core_setMode (s : State) (m : Nat) (j : Nat) :
    (s.setMode m).core j = s.core j := (setMode_reports s m).core j
@[simp] theorem State.die_setMode (s : State) (m : Nat) (j : Nat) :
    (s.setMode m).die j = s.die j := (setMode_reports s m).die j
@[simp] theorem State.arb_setMode (s : State) (m : Nat) (j : Nat) :
    (s.setMode m).arb j = s.arb j := (setMode_reports s m).arb j
@[simp] theorem State.chan_setMode (s : State) (m : Nat) (j : Nat) :
    (s.setMode m).chan j = s.chan j := (setMode_reports s m).chan j
@[simp] theorem State.bridge_setMode (s : State) (m : Nat) (j : Nat) :
    (s.setMode m).bridge j = s.bridge j := (setMode_reports s m).bridge j
@[simp] theorem State.engine_setMode (s : State) (m : Nat) (j : Nat) :
    (s.setMode m).engine j = s.engine j := (setMode_reports s m).engine j
@[simp] theorem State.txFlow_setMode (s : State) (m : Nat) (j : Nat) :
    (s.setMode m).txFlow j = s.txFlow j := (setMode_reports s m).txFlow j
@[simp] theorem State.rxFlow_setMode (s : State) (m : Nat) (j : Nat) :
    (s.setMode m).rxFlow j = s.rxFlow j := (setMode_reports s m).rxFlow j
@[simp] theorem State.hostQ_setMode (s : State) (m : Nat) (j : Nat) :
    (s.setMode m).hostQ j = s.hostQ j := (setMode_reports s m).hostQ j
@[simp] theorem State.alloc_setMode (s : State) (m : Nat) (j : Nat) :
    (s.setMode m).alloc j = s.alloc j := (setMode_reports s m).alloc j
@[simp] theorem State.desc_setMode (s : State) (m : Nat) (j : Nat) :
    (s.setMode m).desc j = s.desc j := (setMode_reports s m).desc j
@[simp] theorem State.feed_setMode (s : State) (m : Nat) (j : Nat) :
    (s.setMode m).feed j = s.feed j := (setMode_reports s m).feed j
@[simp] theorem State.window_setMode (s : State) (m : Nat) (j : Nat) :
    (s.setMode m).window j = s.window j := (setMode_reports s m).window j

end Sys2Proof.Machine
end

