-- ==== Sys2Proof/Laws/Counting.lean ====
section
/-! SUPPORT. Counting, logging and reporting an event write no register outside the event-counter blocks;
a counter that passes a threshold writes itself beside them. -/

namespace Sys2Proof.Machine

open Sys2Proof

/-- The counter blocks occupy addresses that `evcPlace` places. -/
theorem evcPlace_base (b o : Nat) (hb : b < 62) (ho : o < 0x1000) : evcPlace (Reg.evcBase b + o) ≠ none := by
  unfold evcPlace Reg.evcBase coreBase dieBase edgeBase
  split
  · dsimp only
    rw [if_neg (by omega), if_pos (by omega), if_neg (by omega)]
    simp
  · split
    · dsimp only
      rw [if_neg (by omega), if_neg (by omega), if_neg (by omega)]
      simp
    · dsimp only
      rw [if_neg (by omega), if_neg (by omega), if_neg (by omega)]
      simp

theorem ne_of_evcPlace {a b o : Nat} (ha : evcPlace a = none) (hb : b < 62) (ho : o < 0x1000) :
    a ≠ Reg.evcBase b + o := by
  rintro rfl
  exact evcPlace_base b o hb ho ha

theorem State.reg_addLog (s : State) (i name arg a : Nat) : (s.addLog i name arg).reg a = s.reg a := rfl

theorem State.reg_queueEvent (s : State) (code : Nat) (p : List Byte) (a : Nat) :
    (s.queueEvent code p).reg a = s.reg a := by
  unfold State.queueEvent; split <;> rfl

theorem State.reg_queueNamed (s : State) (i name arg a : Nat) :
    (s.queueNamed i name arg).reg a = s.reg a := by
  unfold State.queueNamed
  split
  · rw [State.reg_queueEvent, State.reg_addLog]
  · rfl

theorem State.reg_setEvcCount (s : State) (b i v a : Nat) (ha : evcPlace a = none) (hb : b < 62)
    (hi : i < 32) : (s.setEvcCount b i v).reg a = s.reg a := by
  unfold State.setEvcCount State.setReg48
  rw [State.reg_setReg_ne, State.reg_setReg_ne]
  · have := ne_of_evcPlace (o := 0x20 * i + 4) ha hb (by omega)
    simpa [Reg.EVC_CNT_LO, Nat.add_assoc] using this
  · have := ne_of_evcPlace (o := 0x20 * i + 8) ha hb (by omega)
    simpa [Reg.EVC_CNT_HI, Nat.add_assoc] using this

theorem State.reg_evcAdd (s : State) (b i n a : Nat) (ha : evcPlace a = none) (hb : b < 62) (hi : i < 32) :
    (s.evcAdd b i n).reg a = s.reg a := by
  unfold State.evcAdd
  have hne : a ≠ Reg.EVC_SEL b i := by
    have := ne_of_evcPlace (o := 0x20 * i) ha hb (by omega)
    simpa [Reg.EVC_SEL] using this
  dsimp only
  split
  · exact State.reg_setEvcCount s b i _ a ha hb hi
  · split
    · rw [State.reg_queueNamed, State.reg_setRegF_ne _ _ _ _ _ _ hne, State.reg_setEvcCount s b i _ a ha hb hi]
    · rw [State.reg_setRegF_ne _ _ _ _ _ _ hne, State.reg_setEvcCount s b i _ a ha hb hi]

theorem State.reg_foldl {α : Type} (f : State → α → State) (a : Nat) (l : List α)
    (h : ∀ s x, x ∈ l → (f s x).reg a = s.reg a) (s : State) : (l.foldl f s).reg a = s.reg a := by
  induction l generalizing s with
  | nil => rfl
  | cons x l ih =>
    rw [List.foldl_cons, ih (fun s y hy => h s y (List.mem_cons_of_mem _ hy)), h s x List.mem_cons_self]

theorem evcSize_le (b : Nat) : evcSize b ≤ 32 := by unfold evcSize; split <;> omega

theorem State.reg_countQ (s : State) (b src inst n a : Nat) (ha : evcPlace a = none) (hb : b < 62) :
    (s.countQ b src inst n).reg a = s.reg a := by
  unfold State.countQ
  split
  · rfl
  · refine State.reg_foldl _ a _ (fun s i hi => ?_) s
    have := evcSize_le b
    split
    · exact State.reg_evcAdd s b i n a ha hb (by have := List.mem_range.1 hi; omega)
    · rfl

theorem State.reg_countSent (s : State) (l m n a : Nat) (ha : evcPlace a = none) (hl : l < 18) :
    (s.countSent l m n).reg a = s.reg a := by
  unfold State.countSent
  split
  · exact State.reg_countQ _ _ _ _ _ _ ha (by omega)
  · exact State.reg_countQ _ _ _ _ _ _ ha (by omega)

theorem State.reg_pumpOne (s : State) (l a : Nat) (ha : evcPlace a = none) (hl : l < 18) :
    (s.pumpOne l).reg a = s.reg a := by
  unfold State.pumpOne
  dsimp only
  split
  · rfl
  · rw [State.reg_countSent _ _ _ _ _ ha hl]; rfl

theorem State.reg_pumpLanes (n l a : Nat) (s : State) (ha : evcPlace a = none) (h : 16 ≤ l) (hl : l < 18) :
    (State.pumpLanes n l s).reg a = s.reg a := by
  induction n generalizing l s with
  | zero => rfl
  | succ n ih =>
    unfold State.pumpLanes
    dsimp only
    split
    · exact State.reg_pumpOne s l a ha hl
    · rw [ih _ _ (by omega) (by omega), State.reg_pumpOne s l a ha hl]

theorem State.reg_pump (s : State) (l a : Nat) (ha : evcPlace a = none) (hl : l < 18) :
    (s.pump l).reg a = s.reg a := by
  unfold State.pump
  split
  · exact State.reg_pumpOne s l a ha hl
  · exact State.reg_pumpLanes _ _ _ _ ha (by omega) hl

theorem State.reg_linkSend (s : State) (l : Nat) (p : Pkt) (a : Nat) (ha : evcPlace a = none) (hl : l < 18) :
    (s.linkSend l p).reg a = s.reg a := by
  unfold State.linkSend
  rw [State.reg_pump _ _ _ ha hl]; rfl

theorem State.hostLane_le (s : State) (lane : Nat) (h : lane ≤ 1) : s.hostLane lane ≤ 1 := by
  unfold State.hostLane; split
  · exact h
  · split <;> omega

theorem State.reg_hostSend (s : State) (lane : Nat) (p : Pkt) (a : Nat) (ha : evcPlace a = none)
    (h : lane ≤ 1) : (s.hostSend lane p).reg a = s.reg a :=
  State.reg_linkSend s _ p a ha (by have := s.hostLane_le lane h; omega)

theorem State.reg_sendEvent (s : State) (code : Nat) (p : List Byte) (a : Nat) (ha : evcPlace a = none) :
    (s.sendEvent code p).reg a = s.reg a := by
  unfold State.sendEvent
  rw [State.reg_pump _ _ _ ha (by have := s.hostLane_le 0 (by omega); omega), State.reg_queueEvent]

theorem State.reg_announce (s : State) (i code arg : Nat) (args : List Nat) (a : Nat)
    (ha : evcPlace a = none) : (s.announce i code arg args).reg a = s.reg a := by
  unfold State.announce State.announceBy
  rw [State.reg_sendEvent _ _ _ _ ha]
  exact State.reg_addLog s i code arg a

theorem State.reg_logNamed (s : State) (i name arg a : Nat) (ha : evcPlace a = none) :
    (s.logNamed i name arg).reg a = s.reg a := by
  unfold State.logNamed
  split
  · rw [State.reg_pump _ _ _ ha (by have := s.hostLane_le 0 (by omega); omega), State.reg_queueNamed]
  · exact State.reg_queueNamed s i name arg a

theorem State.reg_count (s : State) (b src inst n a : Nat) (ha : evcPlace a = none) (hb : b < 62) :
    (s.count b src inst n).reg a = s.reg a := by
  unfold State.count
  dsimp only
  split
  · exact State.reg_countQ s b src inst n a ha hb
  · rw [State.reg_pump _ _ _ ha (by have := (s.countQ b src inst n).hostLane_le 0 (by omega); omega),
      State.reg_countQ s b src inst n a ha hb]

theorem State.reg_incThr_ne (s : State) (c n thr isl name arg a : Nat) (ha : evcPlace a = none)
    (h : a ≠ c) : (s.incThr c n thr isl name arg).reg a = s.reg a := by
  unfold State.incThr
  dsimp only
  split
  · rw [State.reg_logNamed _ _ _ _ _ ha]
    exact State.reg_inc_ne s c n a h
  · exact State.reg_inc_ne s c n a h

theorem State.reg_incThr_self (s : State) (c n thr isl name arg : Nat) (hc : evcPlace c = none) :
    (s.incThr c n thr isl name arg).reg c = satAdd (s.reg c) n := by
  unfold State.incThr
  dsimp only
  split
  · rw [State.reg_logNamed _ _ _ _ _ hc]
    exact State.reg_inc_self s c n
  · exact State.reg_inc_self s c n

theorem State.reg_setMode_ne (s : State) (m a : Nat) (ha : evcPlace a = none) (h : a ≠ Reg.GLB_STATE) :
    (s.setMode m).reg a = s.reg a := by
  unfold State.setMode
  rw [State.reg_announce _ _ _ _ _ _ ha, State.reg_setRegF_ne _ _ _ _ _ _ h]

/-- A field that was written reads back, up to its width. -/
theorem fld_setFld (n hi lo v : Nat) : fld (setFld n hi lo v) hi lo = v % 2 ^ (hi + 1 - lo) := by
  have hp : 0 < 2 ^ lo := Nat.pos_of_ne_zero (by simp)
  have hw : 0 < 2 ^ (hi + 1 - lo) := Nat.pos_of_ne_zero (by simp)
  have e : n - n / 2 ^ lo % 2 ^ (hi + 1 - lo) * 2 ^ lo =
      n % 2 ^ lo + 2 ^ lo * (2 ^ (hi + 1 - lo) * (n / 2 ^ lo / 2 ^ (hi + 1 - lo))) := by
    have h1 := Nat.mod_add_div n (2 ^ lo)
    have h2 := Nat.mod_add_div (n / 2 ^ lo) (2 ^ (hi + 1 - lo))
    have h3 : 2 ^ lo * (n / 2 ^ lo) =
        2 ^ lo * (n / 2 ^ lo % 2 ^ (hi + 1 - lo)) +
          2 ^ lo * (2 ^ (hi + 1 - lo) * (n / 2 ^ lo / 2 ^ (hi + 1 - lo))) := by
      rw [← Nat.mul_add, h2]
    rw [Nat.mul_comm (n / 2 ^ lo % _)]
    omega
  unfold setFld fld
  rw [e, Nat.mul_comm (v % _) (2 ^ lo), Nat.add_assoc, ← Nat.mul_add, Nat.add_mul_div_left _ _ hp,
    Nat.div_eq_of_lt (Nat.mod_lt _ hp), Nat.zero_add, Nat.mul_add_mod, Nat.mod_mod]

/-- The mode is what `setMode` makes it. -/
theorem State.mode_setMode (s : State) (m : Nat) : (s.setMode m).mode = m % 8 := by
  unfold State.mode State.setMode State.regF
  rw [State.reg_announce _ _ _ _ _ _ (by decide), State.setRegF, State.reg_setReg_self, BitVec.toNat_ofNat]
  have hlt : setFld (s.reg Reg.GLB_STATE).toNat 2 0 m < 2 ^ 32 := by
    have := (s.reg Reg.GLB_STATE).isLt
    unfold setFld fld
    omega
  rw [Nat.mod_eq_of_lt hlt, fld_setFld]
  norm_num

end Sys2Proof.Machine
end

