-- ==== Sys2Proof/Laws/Keeps.lean ====
section
/-! SUPPORT. What every operation of the block keeps, stated once: the queue, the clock, the canonical
form, one-time-programmable memory and the counter of free values; and the lemmas that carry it through
the forms in which meanings are written. -/

namespace Sys2Proof.Machine

open Sys2Proof

theorem Otp.Grows.refl (a : Otp) : a.Grows a :=
  ⟨Nat.le_refl _, rfl, fun _ k h p => ⟨k, h, p, rfl⟩, fun _ k h p => ⟨k, h, p⟩, fun _ h => h⟩

theorem Otp.Grows.trans {a b c : Otp} (h : a.Grows b) (g : b.Grows c) : a.Grows c := by
  refine ⟨Nat.le_trans h.svn g.svn, g.slots.trans h.slots, ?_, ?_, fun x e => g.ident x (h.ident x e)⟩
  · intro i k e p
    obtain ⟨k', e', p', d'⟩ := h.digest i k e p
    obtain ⟨k'', e'', p'', d''⟩ := g.digest i k' e' p'
    exact ⟨k'', e'', p'', d''.trans d'⟩
  · intro i k e p
    obtain ⟨k', e', p'⟩ := h.revoked i k e p
    exact g.revoked i k' e' p'

/-- State t comes from s by operations of the block. -/
structure Keeps (s t : State) : Prop where
  pending : t.pending = s.pending
  now : t.now = s.now
  inv : s.Inv → t.Inv
  otp : s.otp.Grows t.otp
  free : s.freeCtr ≤ t.freeCtr

theorem Keeps.refl (s : State) : Keeps s s :=
  ⟨rfl, rfl, id, Otp.Grows.refl _, Nat.le_refl _⟩

theorem Keeps.trans {s t u : State} (h : Keeps s t) (g : Keeps t u) : Keeps s u :=
  ⟨g.pending.trans h.pending, g.now.trans h.now, fun i => g.inv (h.inv i), h.otp.trans g.otp,
    Nat.le_trans h.free g.free⟩

/-- A change of parts that `Keeps` does not speak of. -/
theorem Keeps.upd {s₀ s : State}
    {evcMsgs : List EvcMsg} {thrFired : List Nat} {poison : List Nat} {xfer : List HeldPkt} {reads :
    List ReadOut} {nextTag : BitVec 16} {staged : List Staged} {norms : List NormRun} {freed : List (Nat
    × Nat)} {prog : Option Prog} {ctl : Ctl} {evtSeq : BitVec 32} {log : List LogEvent} {breachQ : List
    Breach} {recWindows : List RecWindow} {dumpWritten : Bool} {dumpReleased : Bool} {dumpKey : Nat}
    {fatal : Option Breach} {lostPolders : List Nat} {standby : Bool} {resync : Option Resync} {restore
    : Option Restore} {restored : Bool} {flashPart : FlashPart} {activated : List Nat} {cfg : Option
    Cfg} {fwVerified : Bool} {cfgVerified : Bool} {healthDirty : Bool} {healthGen : Nat} {power :
    PkgPower} {rails : List Rail} {railsOff : List Rail} {energy : Nat} {inputAt : Option Nat × Option
    Nat} {actThrottle : Int} {resetHeld : Bool} {thermLatch : Bool} {houseRail : Bool} {straps : BitVec
    3} {tap : Tap} {mgmtRsp : Byte × List Byte} {mgmtDue : Nat}
    (h : Keeps s₀ s) :
    Keeps s₀ ⟨s.regs, s.latch, s.readData, s.evcStage, evcMsgs, thrFired, s.mem, poison, s.islands, s.cores,
      s.dies, s.arbs, s.chans, s.bridges, s.engines, s.links, xfer, s.txFlows, s.rxFlows, reads,
      nextTag, staged, norms, s.allocs, freed, s.descs, prog, s.feeds, s.windows, ctl, s.hostQs, evtSeq,
      log, s.breaches, breachQ, recWindows, dumpWritten, dumpReleased, dumpKey, fatal, lostPolders,
      standby, resync, restore, restored, s.flash, flashPart, activated, s.otp, cfg, fwVerified,
      cfgVerified, healthDirty, healthGen, power, rails, railsOff, s.pwrStates, energy, inputAt,
      actThrottle, resetHeld, thermLatch, houseRail, straps, tap, mgmtRsp, mgmtDue, s.now, s.freeCtr,
      s.pending⟩ :=
  h.trans ⟨rfl, rfl, fun i => ⟨{ i.canonical with }, i.ring⟩, Otp.Grows.refl _, Nat.le_refl _⟩

/-- A change of one kept part that keeps the invariant. -/
theorem Keeps.part {s₀ s t : State} (h : Keeps s₀ s) (hp : t.pending = s.pending) (hn : t.now = s.now)
    (hi : s.Inv → t.Inv) (ho : t.otp = s.otp) (hf : t.freeCtr = s.freeCtr) : Keeps s₀ t :=
  h.trans ⟨hp, hn, hi, ho ▸ Otp.Grows.refl _, Nat.le_of_eq hf.symm⟩

/-- Free values are drawn. -/
theorem Keeps.draws {s₀ s : State} (h : Keeps s₀ s) (n : Nat) :
    Keeps s₀ { s with freeCtr := s.freeCtr + n } :=
  h.trans ⟨rfl, rfl, fun i => ⟨{ i.canonical with }, i.ring⟩, Otp.Grows.refl _, Nat.le_add_right _ _⟩

/-- One-time-programmable memory grows. -/
theorem Keeps.program {s₀ s : State} (h : Keeps s₀ s) {o : Otp} (g : s.otp.Grows o) :
    Keeps s₀ { s with otp := o } :=
  h.trans ⟨rfl, rfl, fun i => ⟨{ i.canonical with }, i.ring⟩, g, Nat.le_refl _⟩

/-! ### Answers that hold a state -/

section Answers

variable {α β γ ε : Type} {P : State → Prop}

def In1 (P : State → Prop) (p : State × α) : Prop := P p.1
def In2 (P : State → Prop) (p : α × State) : Prop := P p.2
def In21 (P : State → Prop) (p : α × State × β) : Prop := P p.2.1
def In22 (P : State → Prop) (p : α × β × State) : Prop := P p.2.2
def In221 (P : State → Prop) (p : α × β × State × γ) : Prop := P p.2.2.1
def InSome (P : State → Prop) (o : Option (α × State)) : Prop := ∀ p, o = some p → P p.2
def InOk (P : State → Prop) (o : Except ε State) : Prop := ∀ t, o = .ok t → P t
def InOk22 (P : State → Prop) (o : Except ε (α × β × State)) : Prop := ∀ p, o = .ok p → P p.2.2
def InOut (P : State → Prop) (o : Out) : Prop := ∀ t, o = .next t → P t

theorem In1.mk {s : State} {a : α} (h : P s) : In1 P (s, a) := h
theorem In2.mk {s : State} {a : α} (h : P s) : In2 P (a, s) := h
theorem In21.mk {a : α} {p : State × β} (h : In1 P p) : In21 P (a, p) := h
theorem In22.mk {a : α} {p : β × State} (h : In2 P p) : In22 P (a, p) := h
theorem In221.mk {a : α} {p : β × State × γ} (h : In21 P p) : In221 P (a, p) := h
theorem InSome.some {p : α × State} (h : In2 P p) : InSome P (some p) := fun _ e => by cases e; exact h
theorem InSome.none : InSome P (none : Option (α × State)) := fun _ e => by cases e
theorem InOk.ok {s : State} (h : P s) : InOk P (.ok s : Except ε State) := fun _ e => by cases e; exact h
theorem InOk.error {x : ε} : InOk P (.error x : Except ε State) := fun _ e => by cases e
theorem InOk22.ok {p : α × β × State} (h : In22 P p) : InOk22 P (.ok p : Except ε (α × β × State)) :=
  fun _ e => by cases e; exact h
theorem InOk22.error {x : ε} : InOk22 P (.error x : Except ε (α × β × State)) := fun _ e => by cases e
theorem InOut.next {s : State} (h : P s) : InOut P (.next s) := fun _ e => by cases e; exact h
theorem InOut.fault {x : Fault} : InOut P (.fault x) := fun _ e => by cases e

theorem In1.out {p : State × α} (h : In1 P p) : P p.1 := h
theorem In2.out {p : α × State} (h : In2 P p) : P p.2 := h
theorem In21.out {p : α × State × β} (h : In21 P p) : P p.2.1 := h
theorem In22.out {p : α × β × State} (h : In22 P p) : P p.2.2 := h
theorem In221.out {p : α × β × State × γ} (h : In221 P p) : P p.2.2.1 := h

theorem InOk22.bind {x : Except ε γ} {f : γ → Except ε (α × β × State)}
    (h : ∀ a, x = .ok a → InOk22 P (f a)) : InOk22 P (x >>= f) := by
  cases x with
  | error e => exact InOk22.error
  | ok a => exact h a rfl

end Answers

/-! ### The forms in which meanings are written -/

theorem pred_ite {α : Sort _} {P : α → Prop} {c : Prop} [Decidable c] {a b : α} (h : P a) (g : P b) :
    P (if c then a else b) := by split <;> assumption

theorem pred_foldl {α β : Type _} {P : β → Prop} {f : β → α → β} (hf : ∀ b, P b → ∀ a, P (f b a))
    {l : List α} {b : β} (h : P b) : P (l.foldl f b) := by
  induction l generalizing b with
  | nil => exact h
  | cons a l ih => exact ih (hf b h a)

end Sys2Proof.Machine
end

