-- ==== Sys2Proof/Laws/KeepOps.lean ====
section
/-! SUPPORT. What the shared operations keep (`Keeps`), one lemma for each. -/

namespace Sys2Proof.Machine

open Sys2Proof

theorem State.setCore_keeps {s₀ : State} (s : State) (hs : Keeps s₀ s) (c : Nat) (v : CoreSt) :
    Keeps s₀ (State.setCore s c v) := by
  unfold State.setCore
  exact Keeps.part hs rfl rfl (fun i => ⟨{ i.canonical with cores := SMap.wf_set i.canonical.cores _ _ }, i.ring⟩) rfl rfl

theorem State.setReg_keeps {s₀ : State} (s : State) (hs : Keeps s₀ s) (a : Nat) (v : Word) :
    Keeps s₀ (State.setReg s a v) := by
  unfold State.setReg
  exact Keeps.part hs rfl rfl (fun i => ⟨{ i.canonical with regs := SMap.wf_set i.canonical.regs _ _ }, i.ring⟩) rfl rfl

theorem State.inc_keeps {s₀ : State} (s : State) (hs : Keeps s₀ s) (a : Nat) (n : Nat) :
    Keeps s₀ (State.inc s a n) := by
  unfold State.inc
  refine State.setReg_keeps _ ?_ _ _
  exact hs

theorem State.setIsland_keeps {s₀ : State} (s : State) (hs : Keeps s₀ s) (i : Nat) (v : Island) :
    Keeps s₀ (State.setIsland s i v) := by
  unfold State.setIsland
  exact Keeps.part hs rfl rfl (fun i => ⟨{ i.canonical with islands := SMap.wf_set i.canonical.islands _ _ }, i.ring⟩) rfl rfl

theorem State.bumpSeq_keeps {s₀ : State} (s : State) (hs : Keeps s₀ s) (i : Nat) :
    Keeps s₀ (State.bumpSeq s i) := by
  unfold State.bumpSeq
  refine State.setIsland_keeps _ ?_ _ _
  exact hs

theorem State.setReg48_keeps {s₀ : State} (s : State) (hs : Keeps s₀ s) (lo : Nat) (hi : Nat) (v : Nat) :
    Keeps s₀ (State.setReg48 s lo hi v) := by
  unfold State.setReg48
  refine State.setReg_keeps _ ?_ _ _
  refine State.setReg_keeps _ ?_ _ _
  exact hs

theorem State.setEvcCount_keeps {s₀ : State} (s : State) (hs : Keeps s₀ s) (b : Nat) (i : Nat) (v : Nat) :
    Keeps s₀ (State.setEvcCount s b i v) := by
  unfold State.setEvcCount
  refine State.setReg48_keeps _ ?_ _ _ _
  exact hs

theorem State.setRegF_keeps {s₀ : State} (s : State) (hs : Keeps s₀ s) (a : Nat) (hi : Nat) (lo : Nat) (v : Nat) :
    Keeps s₀ (State.setRegF s a hi lo v) := by
  unfold State.setRegF
  refine State.setReg_keeps _ ?_ _ _
  exact hs

theorem State.setLink_keeps {s₀ : State} (s : State) (hs : Keeps s₀ s) (l : Nat) (v : LinkSt) :
    Keeps s₀ (State.setLink s l v) := by
  unfold State.setLink
  exact Keeps.part hs rfl rfl (fun i => ⟨{ i.canonical with links := SMap.wf_set i.canonical.links _ _ }, i.ring⟩) rfl rfl

theorem State.enqueue_keeps {s₀ : State} (s : State) (hs : Keeps s₀ s) (l : Nat) (p : Pkt) :
    Keeps s₀ (State.enqueue s l p) := by
  unfold State.enqueue
  refine State.setLink_keeps _ ?_ _ _
  exact hs

theorem State.queueEvent_keeps {s₀ : State} (s : State) (hs : Keeps s₀ s) (code : Nat) (payload : List Byte) :
    Keeps s₀ (State.queueEvent s code payload) := by
  unfold State.queueEvent
  refine pred_ite ?_ ?_
  · refine State.enqueue_keeps _ ?_ _ _
    exact Keeps.upd hs
  · exact hs

theorem State.addLogBy_keeps {s₀ : State} (s : State) (hs : Keeps s₀ s) (i : Nat) (name : Nat) (arg : Nat) (cause : Option Cause) :
    Keeps s₀ (State.addLogBy s i name arg cause) := by
  unfold State.addLogBy
  extract_lets -underBinder -merge -useContext +onlyGivenNames x1
  have h1 : Keeps s₀ x1 := by
    unfold x1
    refine State.bumpSeq_keeps _ ?_ _
    exact hs
  exact Keeps.upd h1

theorem State.addLog_keeps {s₀ : State} (s : State) (hs : Keeps s₀ s) (i : Nat) (name : Nat) (arg : Nat) :
    Keeps s₀ (State.addLog s i name arg) := by
  unfold State.addLog
  refine State.addLogBy_keeps _ ?_ _ _ _ _
  exact hs

theorem State.queueNamed_keeps {s₀ : State} (s : State) (hs : Keeps s₀ s) (i : Nat) (name : Nat) (arg : Nat) :
    Keeps s₀ (State.queueNamed s i name arg) := by
  unfold State.queueNamed
  refine pred_ite ?_ ?_
  · refine State.queueEvent_keeps _ ?_ _ _
    refine State.addLog_keeps _ ?_ _ _ _
    exact hs
  · refine State.addLog_keeps _ ?_ _ _ _
    exact hs

theorem State.evcAdd_keeps {s₀ : State} (s : State) (hs : Keeps s₀ s) (b : Nat) (i : Nat) (n : Nat) :
    Keeps s₀ (State.evcAdd s b i n) := by
  unfold State.evcAdd
  extract_lets -underBinder -merge -useContext +onlyGivenNames x1
  extract_lets -underBinder -merge -useContext +onlyGivenNames x2
  have h2 : Keeps s₀ x2 := by
    unfold x2
    refine State.setEvcCount_keeps _ ?_ _ _ _
    exact hs
  refine pred_ite ?_ ?_
  · exact h2
  · extract_lets -underBinder -merge -useContext +onlyGivenNames x3
    extract_lets -underBinder -merge -useContext +onlyGivenNames x4
    have h4 : Keeps s₀ x4 := by
      unfold x4
      refine State.setRegF_keeps _ ?_ _ _ _ _
      exact h2
    refine pred_ite ?_ ?_
    · refine State.queueNamed_keeps _ ?_ _ _ _
      exact h4
    · exact h4

theorem State.countQ_keeps {s₀ : State} (s : State) (hs : Keeps s₀ s) (b : Nat) (src : Nat) (inst : Nat) (n : Nat) :
    Keeps s₀ (State.countQ s b src inst n) := by
  unfold State.countQ
  refine pred_ite ?_ ?_
  · exact hs
  · refine pred_foldl ?_ ?_
    · intro x1 h1 a1
      refine pred_ite ?_ ?_
      · refine State.evcAdd_keeps _ ?_ _ _ _
        exact h1
      · exact h1
    · exact hs

theorem State.countSent_keeps {s₀ : State} (s : State) (hs : Keeps s₀ s) (l : Nat) (flits : Nat) (pkts : Nat) :
    Keeps s₀ (State.countSent s l flits pkts) := by
  unfold State.countSent
  refine pred_ite ?_ ?_
  · refine State.countQ_keeps _ ?_ _ _ _ _
    exact hs
  · refine State.countQ_keeps _ ?_ _ _ _ _
    exact hs

theorem State.pumpOne_keeps {s₀ : State} (s : State) (hs : Keeps s₀ s) (l : Nat) :
    Keeps s₀ (State.pumpOne s l) := by
  unfold State.pumpOne
  extract_lets -underBinder -merge -useContext +onlyGivenNames x1
  extract_lets -underBinder -merge -useContext +onlyGivenNames x2
  refine pred_ite ?_ ?_
  · exact hs
  · extract_lets -underBinder -merge -useContext +onlyGivenNames x3
    extract_lets -underBinder -merge -useContext +onlyGivenNames x4
    extract_lets -underBinder -merge -useContext +onlyGivenNames x5
    extract_lets -underBinder -merge -useContext +onlyGivenNames x6
    refine State.countSent_keeps _ ?_ _ _ _
    refine State.setLink_keeps _ ?_ _ _
    exact hs

theorem State.pumpLanes_keeps {s₀ : State} (n l : Nat) (s : State) (hs : Keeps s₀ s) :
    Keeps s₀ (State.pumpLanes n l s) := by
  induction n generalizing l s with
  | zero => exact hs
  | succ n ih =>
    unfold State.pumpLanes
    exact pred_ite (State.pumpOne_keeps _ hs _) (ih _ _ (State.pumpOne_keeps _ hs _))

theorem State.pump_keeps {s₀ : State} (s : State) (hs : Keeps s₀ s) (l : Nat) :
    Keeps s₀ (State.pump s l) := by
  unfold State.pump
  refine pred_ite ?_ ?_
  · refine State.pumpOne_keeps _ ?_ _
    exact hs
  · refine State.pumpLanes_keeps _ _ _ ?_
    exact hs

theorem State.count_keeps {s₀ : State} (s : State) (hs : Keeps s₀ s) (b : Nat) (src : Nat) (inst : Nat) (n : Nat) :
    Keeps s₀ (State.count s b src inst n) := by
  unfold State.count
  extract_lets -underBinder -merge -useContext +onlyGivenNames x1
  have h1 : Keeps s₀ x1 := by
    unfold x1
    refine State.countQ_keeps _ ?_ _ _ _ _
    exact hs
  refine pred_ite ?_ ?_
  · exact h1
  · refine State.pump_keeps _ ?_ _
    exact h1

theorem State.sendEvent_keeps {s₀ : State} (s : State) (hs : Keeps s₀ s) (code : Nat) (payload : List Byte) :
    Keeps s₀ (State.sendEvent s code payload) := by
  unfold State.sendEvent
  refine State.pump_keeps _ ?_ _
  refine State.queueEvent_keeps _ ?_ _ _
  exact hs

theorem State.breach_keeps {s₀ : State} (s : State) (hs : Keeps s₀ s) (i : Nat) (b : BreachInfo) :
    Keeps s₀ (s.breach i b) := by
  unfold State.breach
  extract_lets -underBinder -merge -useContext +onlyGivenNames r x1 x2 x3 x4 x5
  have h1 : Keeps s₀ x1 := State.bumpSeq_keeps _ hs _
  have h2 : Keeps s₀ x2 :=
    Keeps.part h1 rfl rfl (fun i => ⟨{ i.canonical with }, by simp [x2]⟩) rfl rfl
  clear_value x2
  have h3 : Keeps s₀ x3 := State.inc_keeps _ (State.inc_keeps _ h2 _ _) _ _
  clear_value x3
  have h4 : Keeps s₀ x4 := State.count_keeps _ (State.count_keeps _ h3 _ _ _ _) _ _ _ _
  clear_value x4
  refine State.sendEvent_keeps _ ?_ _ _
  unfold x5
  refine pred_ite ?_ h4
  refine State.setRegF_keeps _ ?_ _ _ _ _
  exact Keeps.upd h4

theorem State.draw_keeps {s₀ : State} (s : State) (hs : Keeps s₀ s) : In2 (Keeps s₀) s.draw :=
  hs.trans ⟨rfl, rfl, fun i => ⟨{ i.canonical with }, i.ring⟩, Otp.Grows.refl _, Nat.le_succ _⟩


theorem State.setTxFlow_keeps {s₀ : State} (s : State) (hs : Keeps s₀ s) (f : Nat) (v : TxFlow) :
    Keeps s₀ (State.setTxFlow s f v) := by
  unfold State.setTxFlow
  exact Keeps.part hs rfl rfl (fun i => ⟨{ i.canonical with txFlows := SMap.wf_set i.canonical.txFlows _ _ }, i.ring⟩) rfl rfl

theorem State.linkSend_keeps {s₀ : State} (s : State) (hs : Keeps s₀ s) (l : Nat) (p : Pkt) :
    Keeps s₀ (State.linkSend s l p) := by
  unfold State.linkSend
  refine State.pump_keeps _ ?_ _
  refine State.enqueue_keeps _ ?_ _ _
  exact hs

theorem State.setDie_keeps {s₀ : State} (s : State) (hs : Keeps s₀ s) (d : Nat) (v : DieSt) :
    Keeps s₀ (State.setDie s d v) := by
  unfold State.setDie
  exact Keeps.part hs rfl rfl (fun i => ⟨{ i.canonical with dies := SMap.wf_set i.canonical.dies _ _ }, i.ring⟩) rfl rfl

theorem State.setWindow_keeps {s₀ : State} (s : State) (hs : Keeps s₀ s) (i : Nat) (v : Option Window) :
    Keeps s₀ (State.setWindow s i v) := by
  unfold State.setWindow
  exact Keeps.part hs rfl rfl (fun i => ⟨{ i.canonical with windows := SMap.wf_set i.canonical.windows _ _ }, i.ring⟩) rfl rfl

theorem State.setEngine_keeps {s₀ : State} (s : State) (hs : Keeps s₀ s) (e : Nat) (v : EngineSt) :
    Keeps s₀ (State.setEngine s e v) := by
  unfold State.setEngine
  exact Keeps.part hs rfl rfl (fun i => ⟨{ i.canonical with engines := SMap.wf_set i.canonical.engines _ _ }, i.ring⟩) rfl rfl

theorem State.setBridge_keeps {s₀ : State} (s : State) (hs : Keeps s₀ s) (k : Nat) (v : BridgeSt) :
    Keeps s₀ (State.setBridge s k v) := by
  unfold State.setBridge
  exact Keeps.part hs rfl rfl (fun i => ⟨{ i.canonical with bridges := SMap.wf_set i.canonical.bridges _ _ }, i.ring⟩) rfl rfl

theorem State.announceBy_keeps {s₀ : State} (s : State) (hs : Keeps s₀ s) (i : Nat) (code : Nat) (arg : Nat) (args : List Nat) (cause : Option Cause) :
    Keeps s₀ (State.announceBy s i code arg args cause) := by
  unfold State.announceBy
  refine State.sendEvent_keeps _ ?_ _ _
  refine State.addLogBy_keeps _ ?_ _ _ _ _
  exact hs

theorem State.announce_keeps {s₀ : State} (s : State) (hs : Keeps s₀ s) (i : Nat) (code : Nat) (arg : Nat) (args : List Nat) :
    Keeps s₀ (State.announce s i code arg args) := by
  unfold State.announce
  refine State.announceBy_keeps _ ?_ _ _ _ _ _
  exact hs

theorem State.hostSend_keeps {s₀ : State} (s : State) (hs : Keeps s₀ s) (lane : Nat) (p : Pkt) :
    Keeps s₀ (State.hostSend s lane p) := by
  unfold State.hostSend
  refine State.linkSend_keeps _ ?_ _ _
  exact hs

theorem State.setHostQ_keeps {s₀ : State} (s : State) (hs : Keeps s₀ s) (q : Nat) (v : HostQ) :
    Keeps s₀ (State.setHostQ s q v) := by
  unfold State.setHostQ
  exact Keeps.part hs rfl rfl (fun i => ⟨{ i.canonical with hostQs := SMap.wf_set i.canonical.hostQs _ _ }, i.ring⟩) rfl rfl

theorem State.answerHost_keeps {s₀ : State} (s : State) (hs : Keeps s₀ s) (h : HostCmd) (cmd : Nat) (status : Nat) (args : Nat) (data : List Byte) :
    Keeps s₀ (State.answerHost s h cmd status args data) := by
  unfold State.answerHost
  extract_lets -underBinder -merge -useContext +onlyGivenNames x1
  extract_lets -underBinder -merge -useContext +onlyGivenNames x2
  refine State.hostSend_keeps _ ?_ _ _
  refine State.setHostQ_keeps _ ?_ _ _
  exact hs

theorem State.flushBad_keeps {s₀ : State} (q n : Nat) (s : State) (hs : Keeps s₀ s) :
    Keeps s₀ (State.flushBad q n s) := by
  induction n generalizing s with
  | zero => exact hs
  | succ n ih =>
    unfold State.flushBad
    split
    · exact hs
    · exact pred_ite hs (ih _ (State.answerHost_keeps _ hs _ _ _ _ _))

theorem State.respond_keeps {s₀ : State} (s : State) (hs : Keeps s₀ s) (h : HostCmd) (cmd : Nat) (status : Nat) (args : Nat) (data : List Byte) :
    Keeps s₀ (State.respond s h cmd status args data) := by
  unfold State.respond
  extract_lets -underBinder -merge -useContext +onlyGivenNames x1
  have h1 : Keeps s₀ x1 := by
    unfold x1
    refine State.answerHost_keeps _ ?_ _ _ _ _ _
    exact hs
  refine State.flushBad_keeps _ _ _ ?_
  exact h1

theorem State.setMode_keeps {s₀ : State} (s : State) (hs : Keeps s₀ s) (m : Nat) :
    Keeps s₀ (State.setMode s m) := by
  unfold State.setMode
  extract_lets -underBinder -merge -useContext +onlyGivenNames x1
  have h1 : Keeps s₀ x1 := by
    unfold x1
    refine State.setRegF_keeps _ ?_ _ _ _ _
    exact hs
  refine State.announce_keeps _ ?_ _ _ _ _
  exact h1

theorem State.openWindow_keeps {s₀ : State} (s : State) (hs : Keeps s₀ s) (cls : Nat) (polder : Nat) (obj : Nat) :
    Keeps s₀ (State.openWindow s cls polder obj) := by
  unfold State.openWindow
  exact Keeps.upd hs

theorem State.logNamed_keeps {s₀ : State} (s : State) (hs : Keeps s₀ s) (i : Nat) (name : Nat) (arg : Nat) :
    Keeps s₀ (State.logNamed s i name arg) := by
  unfold State.logNamed
  refine pred_ite ?_ ?_
  · refine State.pump_keeps _ ?_ _
    refine State.queueNamed_keeps _ ?_ _ _ _
    exact hs
  · refine State.queueNamed_keeps _ ?_ _ _ _
    exact hs

theorem State.incThr_keeps {s₀ : State} (s : State) (hs : Keeps s₀ s) (a : Nat) (n : Nat) (thr : Nat) (isl : Nat) (name : Nat) (arg : Nat) :
    Keeps s₀ (State.incThr s a n thr isl name arg) := by
  unfold State.incThr
  extract_lets -underBinder -merge -useContext +onlyGivenNames x1
  extract_lets -underBinder -merge -useContext +onlyGivenNames x2
  have h2 : Keeps s₀ x2 := by
    unfold x2
    refine State.inc_keeps _ ?_ _ _
    exact hs
  refine pred_ite ?_ ?_
  · refine State.logNamed_keeps _ ?_ _ _ _
    exact Keeps.upd h2
  · exact h2

theorem State.badCommand_keeps {s₀ : State} (s : State) (hs : Keeps s₀ s) (h : HostCmd) (cmd : Nat) (off : Nat) :
    Keeps s₀ (State.badCommand s h cmd off) := by
  unfold State.badCommand
  refine State.respond_keeps _ ?_ _ _ _ _ _
  exact hs

theorem State.badLen_keeps {s₀ : State} (s : State) (hs : Keeps s₀ s) (h : HostCmd) (cmd : Nat) :
    Keeps s₀ (State.badLen s h cmd) := by
  unfold State.badLen
  refine State.respond_keeps _ ?_ _ _ _ _ _
  refine In2.out ?_
  refine State.draw_keeps _ ?_
  exact hs

theorem State.setChan_keeps {s₀ : State} (s : State) (hs : Keeps s₀ s) (ch : Nat) (v : ChanSt) :
    Keeps s₀ (State.setChan s ch v) := by
  unfold State.setChan
  exact Keeps.part hs rfl rfl (fun i => ⟨{ i.canonical with chans := SMap.wf_set i.canonical.chans _ _ }, i.ring⟩) rfl rfl

theorem State.incF_keeps {s₀ : State} (s : State) (hs : Keeps s₀ s) (a : Nat) (hi : Nat) (lo : Nat) :
    Keeps s₀ (State.incF s a hi lo) := by
  unfold State.incF
  refine State.setRegF_keeps _ ?_ _ _ _ _
  exact hs

theorem State.closeWindow_keeps {s₀ : State} (s : State) (hs : Keeps s₀ s) (cls : Nat) (obj : Nat) :
    Keeps s₀ (State.closeWindow s cls obj) := by
  unfold State.closeWindow
  exact Keeps.upd hs

theorem State.setFeed_keeps {s₀ : State} (s : State) (hs : Keeps s₀ s) (i : Nat) (v : Option Feed) :
    Keeps s₀ (State.setFeed s i v) := by
  unfold State.setFeed
  exact Keeps.part hs rfl rfl (fun i => ⟨{ i.canonical with feeds := SMap.wf_set i.canonical.feeds _ _ }, i.ring⟩) rfl rfl

theorem State.conflict_keeps {s₀ : State} (s : State) (hs : Keeps s₀ s) (h : HostCmd) (cmd : Nat) :
    Keeps s₀ (State.conflict s h cmd) := by
  unfold State.conflict
  extract_lets -underBinder -merge -useContext +onlyGivenNames x1
  extract_lets -underBinder -merge -useContext +onlyGivenNames x2
  extract_lets -underBinder -merge -useContext +onlyGivenNames x3
  have h3 : Keeps s₀ x3 := by
    unfold x3
    refine State.count_keeps _ ?_ _ _ _ _
    refine State.inc_keeps _ ?_ _ _
    exact hs
  extract_lets -underBinder -merge -useContext +onlyGivenNames x4
  have h4 : Keeps s₀ x4 := by
    unfold x4
    refine State.sendEvent_keeps _ ?_ _ _
    refine State.addLog_keeps _ ?_ _ _ _
    exact h3
  refine State.respond_keeps _ ?_ _ _ _ _ _
  exact h4

theorem State.setDesc_keeps {s₀ : State} (s : State) (hs : Keeps s₀ s) (i : Nat) (v : Option DescSlot) :
    Keeps s₀ (State.setDesc s i v) := by
  unfold State.setDesc
  exact Keeps.part hs rfl rfl (fun i => ⟨{ i.canonical with descs := SMap.wf_set i.canonical.descs _ _ }, i.ring⟩) rfl rfl

theorem State.setRxFlow_keeps {s₀ : State} (s : State) (hs : Keeps s₀ s) (f : Nat) (v : RxFlow) :
    Keeps s₀ (State.setRxFlow s f v) := by
  unfold State.setRxFlow
  exact Keeps.part hs rfl rfl (fun i => ⟨{ i.canonical with rxFlows := SMap.wf_set i.canonical.rxFlows _ _ }, i.ring⟩) rfl rfl

theorem State.setAlloc_keeps {s₀ : State} (s : State) (hs : Keeps s₀ s) (i : Nat) (v : Option Alloc) :
    Keeps s₀ (State.setAlloc s i v) := by
  unfold State.setAlloc
  exact Keeps.part hs rfl rfl (fun i => ⟨{ i.canonical with allocs := SMap.wf_set i.canonical.allocs _ _ }, i.ring⟩) rfl rfl

theorem State.setArb_keeps {s₀ : State} (s : State) (hs : Keeps s₀ s) (p : Nat) (v : Arb) :
    Keeps s₀ (State.setArb s p v) := by
  unfold State.setArb
  exact Keeps.part hs rfl rfl (fun i => ⟨{ i.canonical with arbs := SMap.wf_set i.canonical.arbs _ _ }, i.ring⟩) rfl rfl

end Sys2Proof.Machine
end

