-- ==== Sys2Proof/Laws/KeepStore.lean ====
section
/-! SUPPORT. What memory and allocations keep (`Keeps`), one lemma for each. -/

namespace Sys2Proof.Machine

open Sys2Proof

theorem State.countAccess_keeps {s₀ : State} (s : State) (hs : Keeps s₀ s) (write : Bool) (a : Nat) (n : Nat) :
    Keeps s₀ (State.countAccess s write a n) := by
  unfold State.countAccess
  refine pred_ite ?_ ?_
  · refine pred_foldl ?_ ?_
    · intro x1 h1 a1
      refine State.count_keeps _ ?_ _ _ _ _
      exact h1
    · exact hs
  · refine State.count_keeps _ ?_ _ _ _ _
    exact hs

theorem State.noteBurst_keeps {s₀ : State} (s : State) (hs : Keeps s₀ s) (a : Nat) (kind : Nat) :
    Keeps s₀ (State.noteBurst s a kind) := by
  unfold State.noteBurst
  extract_lets -underBinder -merge -useContext +onlyGivenNames x1
  extract_lets -underBinder -merge -useContext +onlyGivenNames x2
  extract_lets -underBinder -merge -useContext +onlyGivenNames x3
  have h3 : Keeps s₀ x3 := by
    unfold x3
    refine State.setReg_keeps _ ?_ _ _
    exact hs
  extract_lets -underBinder -merge -useContext +onlyGivenNames x4
  have h4 : Keeps s₀ x4 := by
    unfold x4
    refine State.setReg_keeps _ ?_ _ _
    exact h3
  refine State.count_keeps _ ?_ _ _ _ _
  refine State.inc_keeps _ ?_ _ _
  exact h4

theorem State.readUnit_keeps {s₀ : State} (s : State) (hs : Keeps s₀ s) (u : Nat) :
    Keeps s₀ (State.readUnit s u) := by
  unfold State.readUnit
  extract_lets -underBinder -merge -useContext +onlyGivenNames x1
  have h1 : Keeps s₀ x1 := by
    unfold x1
    refine State.countAccess_keeps _ ?_ _ _ _
    exact hs
  refine pred_ite ?_ ?_
  · exact h1
  · refine pred_ite ?_ ?_
    · refine State.noteBurst_keeps _ ?_ _ _
      exact h1
    · refine State.inc_keeps _ ?_ _ _
      exact h1

theorem State.readRange_keeps {s₀ : State} (s : State) (hs : Keeps s₀ s) (a : Nat) (n : Nat) :
    Keeps s₀ (State.readRange s a n) := by
  unfold State.readRange
  refine pred_foldl ?_ ?_
  · intro x1 h1 a1
    refine State.readUnit_keeps _ ?_ _
    exact h1
  · exact hs

theorem State.countBypass_keeps {s₀ : State} (s : State) (hs : Keeps s₀ s) (w : Writer) (a : Nat) (n : Nat) :
    Keeps s₀ (State.countBypass s w a n) := by
  unfold State.countBypass
  refine pred_ite ?_ ?_
  · exact hs
  · split
    · refine pred_ite ?_ ?_
      · refine pred_foldl ?_ ?_
        · intro x3 h3 a3
          refine State.inc_keeps _ ?_ _ _
          exact h3
        · exact hs
      · exact hs
    · exact hs

theorem State.snoop_keeps {s₀ : State} (s : State) (hs : Keeps s₀ s) (d : Nat) (own : Bool) (a : Nat) (bytes : List Byte) :
    Keeps s₀ (State.snoop s d own a bytes) := by
  unfold State.snoop
  extract_lets -underBinder -merge -useContext +onlyGivenNames x1
  extract_lets -underBinder -merge -useContext +onlyGivenNames x2
  extract_lets -underBinder -merge -useContext +onlyGivenNames x3
  refine pred_ite ?_ ?_
  · exact hs
  · refine pred_ite ?_ ?_
    · extract_lets -underBinder -merge -useContext +onlyGivenNames x4
      refine State.setDie_keeps _ ?_ _ _
      exact hs
    · refine State.count_keeps _ ?_ _ _ _ _
      refine State.inc_keeps _ ?_ _ _
      refine State.setDie_keeps _ ?_ _ _
      exact hs

theorem State.put_keeps {s₀ : State} (s : State) (hs : Keeps s₀ s) (w : Writer) (a : Nat) (bytes : List Byte) (bad : Bool) :
    Keeps s₀ (State.put s w a bytes bad) := by
  unfold State.put
  refine pred_ite ?_ ?_
  · exact hs
  · extract_lets -underBinder -merge -useContext +onlyGivenNames x1
    have h1 : Keeps s₀ x1 := by
      unfold x1
      exact Keeps.part hs rfl rfl (fun i => ⟨{ i.canonical with mem := Memory.wf_write i.canonical.mem _ _ }, i.ring⟩) rfl rfl
    extract_lets -underBinder -merge -useContext +onlyGivenNames x2
    have h2 : Keeps s₀ x2 := by
      unfold x2
      refine State.countBypass_keeps _ ?_ _ _ _
      refine State.countAccess_keeps _ ?_ _ _ _
      exact h1
    refine pred_ite ?_ ?_
    · refine pred_foldl ?_ ?_
      · intro x3 h3 a3
        refine State.snoop_keeps _ ?_ _ _ _ _
        exact h3
      · exact h2
    · exact h2

theorem State.createDesc_keeps {s₀ : State} (s : State) (hs : Keeps s₀ s) (groups : List ShardGroup) (byLoader : Bool) (h : Nat) (v : Nat) :
    In1 (Keeps s₀) (State.createDesc s groups byLoader h v) := by
  unfold State.createDesc
  split
  · refine In1.mk ?_
    refine State.setDesc_keeps _ ?_ _ _
    exact hs
  · refine In1.mk ?_
    refine State.inc_keeps _ ?_ _ _
    refine State.setReg_keeps _ ?_ _ _
    exact hs

theorem State.freeAlloc_keeps {s₀ : State} (s : State) (hs : Keeps s₀ s) (id : Nat) :
    Keeps s₀ (State.freeAlloc s id) := by
  unfold State.freeAlloc
  split
  · exact hs
  · extract_lets -underBinder -merge -useContext +onlyGivenNames x3
    have h3 : Keeps s₀ x3 := by
      unfold x3
      refine State.setAlloc_keeps _ ?_ _ _
      exact hs
    refine pred_ite ?_ ?_
    · exact Keeps.upd h3
    · exact h3

theorem State.putBits_keeps {s₀ : State} (s : State) (hs : Keeps s₀ s) (w : Writer) (a : Nat) (lo : Nat) (width : Nat) (v : Nat) (bad : Bool) :
    Keeps s₀ (State.putBits s w a lo width v bad) := by
  unfold State.putBits
  refine State.put_keeps _ ?_ _ _ _ _
  exact hs

theorem State.putCode_keeps {s₀ : State} (s : State) (hs : Keeps s₀ s) (wr : Writer) (base : Nat) (e : ℤ) (w : Nat) (code : Nat) (bad : Bool) :
    Keeps s₀ (State.putCode s wr base e w code bad) := by
  unfold State.putCode
  extract_lets -underBinder -merge -useContext +onlyGivenNames x1
  refine pred_ite ?_ ?_
  · refine State.putBits_keeps _ ?_ _ _ _ _ _ _
    exact hs
  · refine State.put_keeps _ ?_ _ _ _ _
    exact hs

theorem State.readRanges_keeps {s₀ : State} (s : State) (hs : Keeps s₀ s) (l : List (Nat × Nat)) :
    Keeps s₀ (State.readRanges s l) := by
  unfold State.readRanges
  refine pred_foldl ?_ ?_
  · intro x1 h1 a1
    refine State.readRange_keeps _ ?_ _ _
    exact h1
  · exact hs

end Sys2Proof.Machine
end

