-- ==== Sys2Proof/Laws/KeepIslands.lean ====
section
/-! SUPPORT. What islands and bridges keep (`Keeps`), one lemma for each. -/

namespace Sys2Proof.Machine

open Sys2Proof

theorem State.sendFrom_keeps {s₀ : State} (s : State) (hs : Keeps s₀ s) (e : Nat) (l : Nat) (p : Pkt) :
    Keeps s₀ (State.sendFrom s e l p) := by
  unfold State.sendFrom
  refine pred_ite ?_ ?_
  · refine State.linkSend_keeps _ ?_ _ _
    exact hs
  · exact Keeps.upd hs

theorem State.dropWords_keeps {s₀ : State} (s : State) (hs : Keeps s₀ s) (i : Nat) (n : Nat) :
    Keeps s₀ (State.dropWords s i n) := by
  unfold State.dropWords
  refine pred_ite ?_ ?_
  · refine State.inc_keeps _ ?_ _ _
    exact hs
  · refine pred_ite ?_ ?_
    · refine State.inc_keeps _ ?_ _ _
      exact hs
    · refine pred_ite ?_ ?_
      · refine State.inc_keeps _ ?_ _ _
        exact hs
      · refine pred_ite ?_ ?_
        · refine State.inc_keeps _ ?_ _ _
          exact hs
        · refine State.inc_keeps _ ?_ _ _
          exact hs

theorem State.dropMsgs_keeps {s₀ : State} (s : State) (hs : Keeps s₀ s) (i : Nat) :
    Keeps s₀ (State.dropMsgs s i) := by
  unfold State.dropMsgs
  extract_lets -underBinder -merge -useContext +onlyGivenNames x1
  refine State.dropWords_keeps _ ?_ _ _
  exact Keeps.upd hs

theorem State.noteTherm_keeps {s₀ : State} (s : State) (hs : Keeps s₀ s) :
    Keeps s₀ (State.noteTherm s) := by
  unfold State.noteTherm
  refine State.setRegF_keeps _ ?_ _ _ _ _
  exact hs

theorem State.resetCore_keeps {s₀ : State} (s : State) (hs : Keeps s₀ s) (c : Nat) :
    Keeps s₀ (State.resetCore s c) := by
  unfold State.resetCore
  extract_lets -underBinder -merge -useContext +onlyGivenNames x1
  refine State.setCore_keeps _ ?_ _ _
  refine State.dropWords_keeps _ ?_ _ _
  exact hs

theorem State.cutCore_keeps {s₀ : State} (s : State) (hs : Keeps s₀ s) (c : Nat) :
    Keeps s₀ (State.cutCore s c) := by
  unfold State.cutCore
  extract_lets -underBinder -merge -useContext +onlyGivenNames x1
  extract_lets -underBinder -merge -useContext +onlyGivenNames x2
  refine State.setCore_keeps _ ?_ _ _
  refine State.dropWords_keeps _ ?_ _ _
  exact hs

theorem State.cutBridges_keeps {s₀ : State} (s : State) (hs : Keeps s₀ s) (d : Nat) :
    Keeps s₀ (State.cutBridges s d) := by
  unfold State.cutBridges
  refine pred_foldl ?_ ?_
  · intro x1 h1 a1
    refine State.setBridge_keeps _ ?_ _ _
    exact h1
  · exact hs

theorem State.resetEdge_keeps {s₀ : State} (s : State) (hs : Keeps s₀ s) (e : Nat) :
    Keeps s₀ (State.resetEdge s e) := by
  unfold State.resetEdge
  extract_lets -underBinder -merge -useContext +onlyGivenNames x1
  extract_lets -underBinder -merge -useContext +onlyGivenNames x2
  have h2 : Keeps s₀ x2 := by
    unfold x2
    refine pred_ite ?_ ?_
    · refine State.dropWords_keeps _ ?_ _ _
      refine In2.out ?_
      refine State.draw_keeps _ ?_
      exact hs
    · exact hs
  extract_lets -underBinder -merge -useContext +onlyGivenNames x3
  have h3 : Keeps s₀ x3 := by
    unfold x3
    refine pred_foldl ?_ ?_
    · intro x4 h4 a4
      refine State.setEngine_keeps _ ?_ _ _
      exact h4
    · exact h2
  refine pred_foldl ?_ ?_
  · intro x5 h5 a5
    refine State.setLink_keeps _ ?_ _ _
    exact h5
  · exact Keeps.upd h3

theorem State.resetEvc_keeps {s₀ : State} (s : State) (hs : Keeps s₀ s) (b : Nat) :
    Keeps s₀ (State.resetEvc s b) := by
  unfold State.resetEvc
  extract_lets -underBinder -merge -useContext +onlyGivenNames x1
  extract_lets -underBinder -merge -useContext +onlyGivenNames x2
  have h2 : Keeps s₀ x2 := by
    unfold x2
    refine pred_foldl ?_ ?_
    · intro x3 h3 a3
      refine State.setReg_keeps _ ?_ _ _
      exact h3
    · exact hs
  exact Keeps.part h2 rfl rfl (fun i => ⟨{ i.canonical with evcStage := SMap.wf_filter i.canonical.evcStage _ }, i.ring⟩) rfl rfl

theorem State.noteReset_keeps {s₀ : State} (s : State) (hs : Keeps s₀ s) (i : Nat) :
    Keeps s₀ (State.noteReset s i) := by
  unfold State.noteReset
  refine pred_foldl ?_ ?_
  · intro x1 h1 a1
    extract_lets -underBinder -merge -useContext +onlyGivenNames x2
    refine pred_ite ?_ ?_
    · refine State.setIsland_keeps _ ?_ _ _
      exact h1
    · exact h1
  · exact hs

theorem State.enterReset_keeps {s₀ : State} (s : State) (hs : Keeps s₀ s) (i : Nat) (off : Bool) :
    Keeps s₀ (State.enterReset s i off) := by
  unfold State.enterReset
  extract_lets -underBinder -merge -useContext +onlyGivenNames x1
  have h1 : Keeps s₀ x1 := by
    unfold x1
    refine State.dropMsgs_keeps _ ?_ _
    exact hs
  extract_lets -underBinder -merge -useContext +onlyGivenNames x2 x3 x4 x5
  have h3 : Keeps s₀ x3 := by
    unfold x3
    refine pred_foldl ?_ ?_
    · intro x6 h6 a6
      refine State.cutCore_keeps _ ?_ _
      exact h6
    · exact h1
  have h5 : Keeps s₀ x5 := by
    unfold x5
    refine pred_ite ?_ ?_
    · refine State.noteTherm_keeps _ ?_
      refine State.resetCore_keeps _ ?_ _
      exact h1
    · refine pred_ite ?_ ?_
      · refine State.cutBridges_keeps _ ?_ _
        refine State.setDie_keeps _ ?_ _ _
        exact h3
      · refine pred_ite ?_ ?_
        · refine State.cutBridges_keeps _ ?_ _
          refine State.resetEdge_keeps _ ?_ _
          exact h1
        · exact h1
  extract_lets -underBinder -merge -useContext +onlyGivenNames x7 x8
  have h7 : Keeps s₀ x7 := by
    unfold x7
    refine pred_ite ?_ ?_
    · refine pred_foldl ?_ ?_
      · intro x9 h9 a9
        refine State.setReg_keeps _ ?_ _ _
        exact h9
      · exact h5
    · exact h5
  have h8 : Keeps s₀ x8 := by
    unfold x8
    refine pred_ite ?_ ?_
    · exact h5
    · refine pred_ite ?_ ?_
      · refine State.resetEvc_keeps _ ?_ _
        exact h7
      · exact h7
  extract_lets -underBinder -merge -useContext +onlyGivenNames x10
  refine pred_foldl ?_ ?_
  · intro x11 h11 a11
    refine State.setIsland_keeps _ ?_ _ _
    refine State.noteReset_keeps _ ?_ _
    exact h11
  · exact h8

theorem State.setPstate_keeps {s₀ : State} (s : State) (hs : Keeps s₀ s) (c : Nat) (p : Nat) :
    Keeps s₀ (State.setPstate s c p) := by
  unfold State.setPstate
  refine State.setRegF_keeps _ ?_ _ _ _ _
  refine State.setRegF_keeps _ ?_ _ _ _ _
  exact hs

theorem State.ungate_keeps {s₀ : State} (s : State) (hs : Keeps s₀ s) (c : Nat) :
    Keeps s₀ (State.ungate s c) := by
  unfold State.ungate
  extract_lets -underBinder -merge -useContext +onlyGivenNames x1
  extract_lets -underBinder -merge -useContext +onlyGivenNames x2
  have h2 : Keeps s₀ x2 := by
    unfold x2
    refine State.setCore_keeps _ ?_ _ _
    exact hs
  refine State.setPstate_keeps _ ?_ _ _
  exact h2

theorem State.railUp_keeps {s₀ : State} (s : State) (hs : Keeps s₀ s) (c : Nat) :
    Keeps s₀ (State.railUp s c) := by
  unfold State.railUp
  extract_lets -underBinder -merge -useContext +onlyGivenNames x1
  refine pred_ite ?_ ?_
  · exact hs
  · exact Keeps.upd hs

theorem State.countResync_keeps {s₀ : State} (s : State) (hs : Keeps s₀ s) (i : Nat) :
    Keeps s₀ (State.countResync s i) := by
  unfold State.countResync
  split
  · refine State.incF_keeps _ ?_ _ _ _
    exact hs
  · exact hs

theorem State.settleIsland_keeps {s₀ : State} (s : State) (hs : Keeps s₀ s) (i : Nat) :
    Keeps s₀ (State.settleIsland s i) := by
  unfold State.settleIsland
  extract_lets -underBinder -merge -useContext +onlyGivenNames x1
  refine pred_ite ?_ ?_
  · exact hs
  · extract_lets -underBinder -merge -useContext +onlyGivenNames x2
    extract_lets -underBinder -merge -useContext +onlyGivenNames x3
    extract_lets -underBinder -merge -useContext +onlyGivenNames x4
    have h4 : Keeps s₀ x4 := by
      unfold x4
      refine pred_foldl ?_ ?_
      · intro x5 h5 a5
        refine State.countResync_keeps _ ?_ _
        exact h5
      · exact hs
    refine State.setIsland_keeps _ ?_ _ _
    exact h4

theorem State.releaseXfer_keeps {s₀ : State} (s : State) (hs : Keeps s₀ s) :
    Keeps s₀ (State.releaseXfer s) := by
  unfold State.releaseXfer
  extract_lets -underBinder -merge -useContext +onlyGivenNames x1
  refine pred_foldl ?_ ?_
  · intro x2 h2 a2
    refine State.linkSend_keeps _ ?_ _ _
    exact h2
  · exact Keeps.upd hs

theorem State.releaseMsgs_keeps {s₀ : State} (s : State) (hs : Keeps s₀ s) :
    Keeps s₀ (State.releaseMsgs s) := by
  unfold State.releaseMsgs
  exact Keeps.upd hs

theorem State.releaseHeld_keeps {s₀ : State} (s : State) (hs : Keeps s₀ s) (c : Nat) :
    Keeps s₀ (State.releaseHeld s c) := by
  unfold State.releaseHeld
  extract_lets -underBinder -merge -useContext +onlyGivenNames x1
  refine pred_ite ?_ ?_
  · exact hs
  · refine State.setCore_keeps _ ?_ _ _
    exact hs

theorem State.rejoin_keeps {s₀ : State} (s : State) (hs : Keeps s₀ s) (is : List Nat) :
    Keeps s₀ (State.rejoin s is) := by
  unfold State.rejoin
  extract_lets -underBinder -merge -useContext +onlyGivenNames x1
  have h1 : Keeps s₀ x1 := by
    unfold x1
    refine pred_foldl ?_ ?_
    · intro x2 h2 a2
      refine State.setIsland_keeps _ ?_ _ _
      exact h2
    · exact hs
  extract_lets -underBinder -merge -useContext +onlyGivenNames x3
  have h3 : Keeps s₀ x3 := by
    unfold x3
    refine pred_foldl ?_ ?_
    · intro x4 h4 a4
      refine State.settleIsland_keeps _ ?_ _
      exact h4
    · exact h1
  refine State.releaseXfer_keeps _ ?_
  refine State.releaseMsgs_keeps _ ?_
  refine pred_foldl ?_ ?_
  · intro x5 h5 a5
    refine State.releaseHeld_keeps _ ?_ _
    exact h5
  · exact h3

theorem State.leaveReset_keeps {s₀ : State} (s : State) (hs : Keeps s₀ s) (i : Nat) :
    Keeps s₀ (State.leaveReset s i) := by
  unfold State.leaveReset
  refine pred_ite ?_ ?_
  · extract_lets -underBinder -merge -useContext +onlyGivenNames x1
    extract_lets -underBinder -merge -useContext +onlyGivenNames x2
    extract_lets -underBinder -merge -useContext +onlyGivenNames x3
    have h3 : Keeps s₀ x3 := by
      unfold x3
      refine State.setCore_keeps _ ?_ _ _
      exact hs
    extract_lets -underBinder -merge -useContext +onlyGivenNames x4
    have h4 : Keeps s₀ x4 := by
      unfold x4
      refine State.railUp_keeps _ ?_ _
      exact h3
    refine State.rejoin_keeps _ ?_ _
    refine State.setPstate_keeps _ ?_ _ _
    exact h4
  · refine pred_ite ?_ ?_
    · refine State.rejoin_keeps _ ?_ _
      exact hs
    · refine State.rejoin_keeps _ ?_ _
      exact hs

theorem State.countBridge_keeps {s₀ : State} (s : State) (hs : Keeps s₀ s) (d : Nat) (src : Nat) (b : Nat) (n : Nat) :
    Keeps s₀ (State.countBridge s d src b n) := by
  unfold State.countBridge
  refine pred_ite ?_ ?_
  · refine State.count_keeps _ ?_ _ _ _ _
    exact hs
  · exact hs

theorem execBridgeTransfer_keeps {s₀ : State} (b : Fin 13) (dir : Fin 2) (data : List Byte) (crc : BitVec 32) (s : State) (hs : Keeps s₀ s) :
    InOut (Keeps s₀) (execBridgeTransfer b dir data crc s) := by
  unfold execBridgeTransfer
  extract_lets -underBinder -merge -useContext +onlyGivenNames x1
  extract_lets -underBinder -merge -useContext +onlyGivenNames x2
  extract_lets -underBinder -merge -useContext +onlyGivenNames x3
  extract_lets -underBinder -merge -useContext +onlyGivenNames x4
  extract_lets -underBinder -merge -useContext +onlyGivenNames x5
  split
  · refine InOut.next ?_
    exact hs
  · refine pred_ite ?_ ?_
    · refine InOut.next ?_
      exact hs
    · refine pred_ite ?_ ?_
      · refine InOut.next ?_
        refine pred_ite ?_ ?_
        · refine State.setBridge_keeps _ ?_ _ _
          exact hs
        · exact hs
      · refine pred_ite ?_ ?_
        · extract_lets -underBinder -merge -useContext +onlyGivenNames x8
          have h8 : Keeps s₀ x8 := by
            unfold x8
            refine State.setBridge_keeps _ ?_ _ _
            exact hs
          refine InOut.next ?_
          refine State.countBridge_keeps _ ?_ _ _ _ _
          refine State.countBridge_keeps _ ?_ _ _ _ _
          exact h8
        · extract_lets -underBinder -merge -useContext +onlyGivenNames x9
          have h9 : Keeps s₀ x9 := by
            unfold x9
            refine State.setBridge_keeps _ ?_ _ _
            exact hs
          refine InOut.next ?_
          refine State.countBridge_keeps _ ?_ _ _ _ _
          refine State.countBridge_keeps _ ?_ _ _ _ _
          exact h9

theorem execChannelResync_keeps {s₀ : State} (i : ClkIsl) (s : State) (hs : Keeps s₀ s) :
    InOut (Keeps s₀) (execChannelResync i s) := by
  unfold execChannelResync
  refine InOut.next ?_
  refine pred_ite ?_ ?_
  · exact hs
  · refine State.leaveReset_keeps _ ?_ _
    exact hs

theorem execClockChange_keeps {s₀ : State} (c : Core) (s : State) (hs : Keeps s₀ s) :
    InOut (Keeps s₀) (execClockChange c s) := by
  unfold execClockChange
  extract_lets -underBinder -merge -useContext +onlyGivenNames x1
  split
  · refine InOut.next ?_
    exact hs
  · refine pred_ite ?_ ?_
    · refine InOut.next ?_
      refine State.setRegF_keeps _ ?_ _ _ _ _
      refine State.setCore_keeps _ ?_ _ _
      exact hs
    · refine InOut.next ?_
      exact hs

theorem execIslandReset_keeps {s₀ : State} (i : ClkIsl) (s : State) (hs : Keeps s₀ s) :
    InOut (Keeps s₀) (execIslandReset i s) := by
  unfold execIslandReset
  refine InOut.next ?_
  refine State.enterReset_keeps _ ?_ _ _
  exact hs

end Sys2Proof.Machine
end

