-- ==== Sys2Proof/Laws/KeepControl.lean ====
section
/-! SUPPORT. What the command queue words keep (`Keeps`), one lemma for each. -/

namespace Sys2Proof.Machine

open Sys2Proof

theorem State.abandonSteps_keeps {s₀ : State} (s : State) (hs : Keeps s₀ s) :
    Keeps s₀ (State.abandonSteps s) := by
  unfold State.abandonSteps
  exact Keeps.upd hs

theorem State.sendCore_keeps {s₀ : State} (s : State) (hs : Keeps s₀ s) (c : Nat) (ws : List CmdWord) :
    Keeps s₀ (State.sendCore s c ws) := by
  unfold State.sendCore
  extract_lets -underBinder -merge -useContext +onlyGivenNames x1
  refine pred_ite ?_ ?_
  · refine State.setCore_keeps _ ?_ _ _
    exact hs
  · refine State.setCore_keeps _ ?_ _ _
    exact hs

theorem State.sendCmd_keeps {s₀ : State} (s : State) (hs : Keeps s₀ s) (c : Nat) (w : CmdWord) :
    Keeps s₀ (State.sendCmd s c w) := by
  unfold State.sendCmd
  extract_lets -underBinder -merge -useContext +onlyGivenNames x1
  have h1 : Keeps s₀ x1 := by
    unfold x1
    refine State.sendCore_keeps _ ?_ _ _
    exact hs
  exact Keeps.upd h1

theorem State.sendMb_keeps {s₀ : State} (s : State) (hs : Keeps s₀ s) (e : Sched) (replay : Bool) :
    Keeps s₀ (State.sendMb s e replay) := by
  unfold State.sendMb
  split
  · extract_lets -underBinder -merge -useContext +onlyGivenNames x2
    have h2 : Keeps s₀ x2 := by
      unfold x2
      refine State.sendCmd_keeps _ ?_ _ _
      exact hs
    exact Keeps.upd h2
  · exact hs

theorem State.replayPhase_keeps {s₀ : State} (s : State) (hs : Keeps s₀ s) (e : Sched) :
    Keeps s₀ (State.replayPhase s e) := by
  unfold State.replayPhase
  extract_lets -underBinder -merge -useContext +onlyGivenNames x1
  extract_lets -underBinder -merge -useContext +onlyGivenNames x2 x3
  have h3 : Keeps s₀ x3 := by
    unfold x3
    exact Keeps.upd hs
  refine State.sendMb_keeps _ ?_ _ _
  refine State.inc_keeps _ ?_ _ _
  exact h3

theorem State.startStepReplay_keeps {s₀ : State} (s : State) (hs : Keeps s₀ s) :
    Keeps s₀ (State.startStepReplay s) := by
  unfold State.startStepReplay
  refine State.inc_keeps _ ?_ _ _
  exact Keeps.upd hs

theorem State.breachOpen_keeps {s₀ : State} (s : State) (hs : Keeps s₀ s) (i : Nat) (b : BreachInfo) :
    Keeps s₀ (State.breachOpen s i b) := by
  unfold State.breachOpen
  refine State.breach_keeps _ ?_ _ _
  refine In2.out ?_
  refine State.draw_keeps _ ?_
  exact hs

theorem State.taint_keeps {s₀ : State} (s : State) (hs : Keeps s₀ s) (i : Nat) (polder : Nat) (cause : Option Cause) (step : Nat) (group : Nat) :
    Keeps s₀ (State.taint s i polder cause step group) := by
  unfold State.taint
  refine pred_ite ?_ ?_
  · exact hs
  · extract_lets -underBinder -merge -useContext +onlyGivenNames x1
    extract_lets -underBinder -merge -useContext +onlyGivenNames x2
    have h2 : Keeps s₀ x2 := by
      unfold x2
      refine State.inc_keeps _ ?_ _ _
      refine State.breachOpen_keeps _ ?_ _ _
      exact hs
    refine pred_ite ?_ ?_
    · exact Keeps.upd h2
    · exact Keeps.upd h2

theorem State.absorbPhase_keeps {s₀ : State} (s : State) (hs : Keeps s₀ s) (e : Sched) (c : Nat) (cause : Option Cause) :
    In1 (Keeps s₀) (State.absorbPhase s e c cause) := by
  unfold State.absorbPhase
  split
  · refine In1.mk ?_
    refine State.replayPhase_keeps _ ?_ _
    exact hs
  · refine In1.mk ?_
    refine State.startStepReplay_keeps _ ?_
    exact hs
  · refine In1.mk ?_
    refine pred_foldl ?_ ?_
    · intro x4 h4 a4
      refine State.taint_keeps _ ?_ _ _ _ _ _
      exact h4
    · exact hs

theorem State.forgetResults_keeps {s₀ : State} (s : State) (hs : Keeps s₀ s) (above : Nat) :
    Keeps s₀ (State.forgetResults s above) := by
  unfold State.forgetResults
  refine pred_foldl ?_ ?_
  · intro x1 h1 a1
    split
    · refine State.setWindow_keeps _ ?_ _ _
      exact h1
    · exact h1
  · exact hs

theorem State.standbyTakes_keeps {s₀ : State} (s : State) (hs : Keeps s₀ s) :
    Keeps s₀ (State.standbyTakes s) := by
  unfold State.standbyTakes
  refine State.abandonSteps_keeps _ ?_
  exact Keeps.upd hs

theorem State.answerHolds_keeps {s₀ : State} (s : State) (hs : Keeps s₀ s) (status : Nat) (detail : Nat) :
    Keeps s₀ (State.answerHolds s status detail) := by
  unfold State.answerHolds
  extract_lets -underBinder -merge -useContext +onlyGivenNames x1
  extract_lets -underBinder -merge -useContext +onlyGivenNames x2 x3
  have h3 : Keeps s₀ x3 := by
    unfold x3
    exact Keeps.upd hs
  refine State.setRegF_keeps _ ?_ _ _ _ _
  refine pred_foldl ?_ ?_
  · intro x4 h4 a4
    refine State.respond_keeps _ ?_ _ _ _ _ _
    exact h4
  · exact h3

theorem State.enterHolding_keeps {s₀ : State} (s : State) (hs : Keeps s₀ s) (cause : Nat) :
    Keeps s₀ (State.enterHolding s cause) := by
  unfold State.enterHolding
  extract_lets -underBinder -merge -useContext +onlyGivenNames x1 x2
  have h2 : Keeps s₀ x2 := by
    unfold x2
    exact Keeps.upd hs
  refine State.answerHolds_keeps _ ?_ _ _
  refine State.setMode_keeps _ ?_ _
  refine State.setRegF_keeps _ ?_ _ _ _ _
  exact h2

theorem State.dropEngines_keeps {s₀ : State} (s : State) (hs : Keeps s₀ s) :
    Keeps s₀ (State.dropEngines s) := by
  unfold State.dropEngines
  extract_lets -underBinder -merge -useContext +onlyGivenNames x1
  extract_lets -underBinder -merge -useContext +onlyGivenNames x2
  have h2 : Keeps s₀ x2 := by
    unfold x2
    refine pred_foldl ?_ ?_
    · intro x3 h3 a3
      extract_lets -underBinder -merge -useContext +onlyGivenNames x4
      extract_lets -underBinder -merge -useContext +onlyGivenNames x5
      have h5 : Keeps s₀ x5 := by
        unfold x5
        refine pred_ite ?_ ?_
        · refine State.setRegF_keeps _ ?_ _ _ _ _
          refine State.setRegF_keeps _ ?_ _ _ _ _
          exact h3
        · exact h3
      refine State.setEngine_keeps _ ?_ _ _
      exact h5
    · exact hs
  extract_lets -underBinder -merge -useContext +onlyGivenNames x6
  have h6 : Keeps s₀ x6 := by
    unfold x6
    refine pred_foldl ?_ ?_
    · intro x7 h7 a7
      refine State.setReg_keeps _ ?_ _ _
      exact h7
    · exact h2
  extract_lets -underBinder -merge -useContext +onlyGivenNames x8
  extract_lets -underBinder -merge -useContext +onlyGivenNames x9
  exact Keeps.upd h6

theorem State.giveUp_keeps {s₀ : State} (s : State) (hs : Keeps s₀ s) :
    Keeps s₀ (State.giveUp s) := by
  unfold State.giveUp
  extract_lets -underBinder -merge -useContext +onlyGivenNames x1
  have h1 : Keeps s₀ x1 := by
    unfold x1
    refine State.forgetResults_keeps _ ?_ _
    refine State.dropEngines_keeps _ ?_
    refine State.abandonSteps_keeps _ ?_
    exact hs
  exact Keeps.upd h1

theorem State.pairLoss_keeps {s₀ : State} (s : State) (hs : Keeps s₀ s) (i : Nat) (cause : Option Cause) (polder : Nat) (obj : Nat) (addr : Nat) :
    Keeps s₀ (State.pairLoss s i cause polder obj addr) := by
  unfold State.pairLoss
  extract_lets -underBinder -merge -useContext +onlyGivenNames x1
  have h1 : Keeps s₀ x1 := by
    unfold x1
    refine State.breachOpen_keeps _ ?_ _ _
    exact hs
  extract_lets -underBinder -merge -useContext +onlyGivenNames x2
  have h2 : Keeps s₀ x2 := by
    unfold x2
    refine State.announce_keeps _ ?_ _ _ _ _
    refine State.setRegF_keeps _ ?_ _ _ _ _
    exact h1
  refine pred_ite ?_ ?_
  · refine State.enterHolding_keeps _ ?_ _
    refine State.giveUp_keeps _ ?_
    exact h2
  · exact h2

theorem State.polderLoss_keeps {s₀ : State} (s : State) (hs : Keeps s₀ s) (i : Nat) (polder : Nat) (obj : Nat) (detail : Option Nat) :
    Keeps s₀ (State.polderLoss s i polder obj detail) := by
  unfold State.polderLoss
  refine pred_ite ?_ ?_
  · exact hs
  · extract_lets -underBinder -merge -useContext +onlyGivenNames x1
    extract_lets -underBinder -merge -useContext +onlyGivenNames x2
    have h2 : Keeps s₀ x2 := by
      unfold x2
      refine pred_ite ?_ ?_
      · refine State.standbyTakes_keeps _ ?_
        exact hs
      · exact hs
    extract_lets -underBinder -merge -useContext +onlyGivenNames x3
    extract_lets -underBinder -merge -useContext +onlyGivenNames x4
    have h4 : Keeps s₀ x4 := by
      unfold x4
      refine pred_ite ?_ ?_
      · refine State.pairLoss_keeps _ ?_ _ _ _ _ _
        exact h2
      · exact h2
    extract_lets -underBinder -merge -useContext +onlyGivenNames x5
    extract_lets -underBinder -merge -useContext +onlyGivenNames x6
    have h6 : Keeps s₀ x6 := by
      unfold x6
      split
      · refine State.breach_keeps _ ?_ _ _
        exact h4
      · refine State.breachOpen_keeps _ ?_ _ _
        exact h4
    extract_lets -underBinder -merge -useContext +onlyGivenNames x9
    have h9 : Keeps s₀ x9 := by
      unfold x9
      exact Keeps.upd h6
    refine pred_ite ?_ ?_
    · refine State.answerHolds_keeps _ ?_ _ _
      refine State.setMode_keeps _ ?_ _
      exact Keeps.upd h9
    · exact h9

theorem State.sendBind_keeps {s₀ : State} (s : State) (hs : Keeps s₀ s) (n : Nat) :
    Keeps s₀ (State.sendBind s n) := by
  unfold State.sendBind
  split
  · refine State.sendCmd_keeps _ ?_ _ _
    exact hs
  · exact hs

theorem State.takeover_keeps {s₀ : State} (s : State) (hs : Keeps s₀ s) (c : Nat) (spare : Nat) (stageNo : Nat) :
    Keeps s₀ (State.takeover s c spare stageNo) := by
  unfold State.takeover
  extract_lets -underBinder -merge -useContext +onlyGivenNames x1
  extract_lets -underBinder -merge -useContext +onlyGivenNames x2
  have h2 : Keeps s₀ x2 := by
    unfold x2
    refine State.ungate_keeps _ ?_ _
    exact hs
  extract_lets -underBinder -merge -useContext +onlyGivenNames x3
  have h3 : Keeps s₀ x3 := by
    unfold x3
    refine State.setRegF_keeps _ ?_ _ _ _ _
    exact h2
  extract_lets -underBinder -merge -useContext +onlyGivenNames x4
  have h4 : Keeps s₀ x4 := by
    unfold x4
    split
    · extract_lets -underBinder -merge -useContext +onlyGivenNames x6
      exact Keeps.upd h3
    · exact h3
  extract_lets -underBinder -merge -useContext +onlyGivenNames x8 x9
  have h9 : Keeps s₀ x9 := by
    unfold x9
    exact Keeps.upd h4
  extract_lets -underBinder -merge -useContext +onlyGivenNames x10
  have h10 : Keeps s₀ x10 := by
    unfold x10
    refine State.sendCmd_keeps _ ?_ _ _
    refine State.sendBind_keeps _ ?_ _
    exact h9
  refine State.setReg_keeps _ ?_ _ _
  refine State.inc_keeps _ ?_ _ _
  exact h10

theorem State.loseCore_keeps {s₀ : State} (s : State) (hs : Keeps s₀ s) (c : Nat) :
    Keeps s₀ (State.loseCore s c) := by
  unfold State.loseCore
  extract_lets -underBinder -merge -useContext +onlyGivenNames x1
  extract_lets -underBinder -merge -useContext +onlyGivenNames x2
  extract_lets -underBinder -merge -useContext +onlyGivenNames x3
  have h3 : Keeps s₀ x3 := by
    unfold x3
    refine State.enterReset_keeps _ ?_ _ _
    exact hs
  extract_lets -underBinder -merge -useContext +onlyGivenNames x4 x5
  have h5 : Keeps s₀ x5 := by
    unfold x5
    refine State.setCore_keeps _ ?_ _ _
    exact h3
  extract_lets -underBinder -merge -useContext +onlyGivenNames x6
  have h6 : Keeps s₀ x6 := by
    unfold x6
    refine State.setRegF_keeps _ ?_ _ _ _ _
    refine State.setPstate_keeps _ ?_ _ _
    exact h5
  extract_lets -underBinder -merge -useContext +onlyGivenNames x7
  have h7 : Keeps s₀ x7 := by
    unfold x7
    exact Keeps.upd h6
  refine pred_ite ?_ ?_
  · refine State.polderLoss_keeps _ ?_ _ _ _ _
    exact h7
  · split
    · exact h7
    · split
      · refine State.openWindow_keeps _ ?_ _ _ _
        refine State.takeover_keeps _ ?_ _ _ _
        exact h7
      · exact h7

theorem State.coreFail_keeps {s₀ : State} (s : State) (hs : Keeps s₀ s) (i : Nat) (cause : Option Cause) (c : Nat) :
    Keeps s₀ (State.coreFail s i cause c) := by
  unfold State.coreFail
  extract_lets -underBinder -merge -useContext +onlyGivenNames x1
  extract_lets -underBinder -merge -useContext +onlyGivenNames x2
  have h2 : Keeps s₀ x2 := by
    unfold x2
    refine State.breachOpen_keeps _ ?_ _ _
    exact hs
  refine pred_ite ?_ ?_
  · exact h2
  · refine State.loseCore_keeps _ ?_ _
    exact h2

theorem State.poisonedPhase_keeps {s₀ : State} (s : State) (hs : Keeps s₀ s) (e : Sched) (c : Nat) :
    In1 (Keeps s₀) (State.poisonedPhase s e c) := by
  unfold State.poisonedPhase
  split
  · refine In1.mk ?_
    exact hs
  · extract_lets -underBinder -merge -useContext +onlyGivenNames x3
    refine pred_ite ?_ ?_
    · extract_lets -underBinder -merge -useContext +onlyGivenNames x4
      refine In1.mk ?_
      refine State.coreFail_keeps _ ?_ _ _ _
      exact Keeps.upd hs
    · extract_lets -underBinder -merge -useContext +onlyGivenNames x5
      extract_lets -underBinder -merge -useContext +onlyGivenNames x6
      extract_lets -underBinder -merge -useContext +onlyGivenNames x7
      have h7 : Keeps s₀ x7 := by
        unfold x7
        refine State.breachOpen_keeps _ ?_ _ _
        exact hs
      refine pred_ite ?_ ?_
      · refine In1.mk ?_
        exact Keeps.upd h7
      · refine State.absorbPhase_keeps _ ?_ _ _ _
        exact h7

theorem State.taintNow_keeps {s₀ : State} (s : State) (hs : Keeps s₀ s) (group : Nat) :
    Keeps s₀ (State.taintNow s group) := by
  unfold State.taintNow
  split
  · exact Keeps.upd hs
  · exact hs

theorem State.dropMirror_keeps {s₀ : State} (s : State) (hs : Keeps s₀ s) :
    Keeps s₀ (State.dropMirror s) := by
  unfold State.dropMirror
  extract_lets -underBinder -merge -useContext +onlyGivenNames x1
  have h1 : Keeps s₀ x1 := by
    unfold x1
    refine pred_foldl ?_ ?_
    · intro x2 h2 a2
      refine State.setEngine_keeps _ ?_ _ _
      exact h2
    · exact hs
  exact Keeps.upd h1

theorem State.failRestore_keeps {s₀ : State} (s : State) (hs : Keeps s₀ s) (cause : Option Cause) (addr : Nat) :
    Keeps s₀ (State.failRestore s cause addr) := by
  unfold State.failRestore
  refine pred_ite ?_ ?_
  · refine State.pairLoss_keeps _ ?_ _ _ _ _ _
    refine State.closeWindow_keeps _ ?_ _ _
    refine State.setReg_keeps _ ?_ _ _
    exact Keeps.upd hs
  · exact hs

theorem State.twinBreach_keeps {s₀ : State} (s : State) (hs : Keeps s₀ s) (detail : Option Nat) :
    Keeps s₀ (State.twinBreach s detail) := by
  unfold State.twinBreach
  extract_lets -underBinder -merge -useContext +onlyGivenNames x1
  extract_lets -underBinder -merge -useContext +onlyGivenNames x2
  have h2 : Keeps s₀ x2 := by
    unfold x2
    split
    · refine State.breach_keeps _ ?_ _ _
      exact hs
    · refine State.breachOpen_keeps _ ?_ _ _
      exact hs
  extract_lets -underBinder -merge -useContext +onlyGivenNames x5
  refine State.announce_keeps _ ?_ _ _ _ _
  exact h2

theorem State.loseTwin_keeps {s₀ : State} (s : State) (hs : Keeps s₀ s) (detail : Option Nat) :
    Keeps s₀ (State.loseTwin s detail) := by
  unfold State.loseTwin
  extract_lets -underBinder -merge -useContext +onlyGivenNames x1
  refine pred_ite ?_ ?_
  · refine pred_ite ?_ ?_
    · refine State.failRestore_keeps _ ?_ _ _
      refine State.dropMirror_keeps _ ?_
      refine State.twinBreach_keeps _ ?_ _
      refine State.setRegF_keeps _ ?_ _ _ _ _
      refine State.setReg48_keeps _ ?_ _ _ _
      exact Keeps.upd hs
    · refine pred_ite ?_ ?_
      · refine State.failRestore_keeps _ ?_ _ _
        refine State.twinBreach_keeps _ ?_ _
        exact hs
      · exact hs
  · extract_lets -underBinder -merge -useContext +onlyGivenNames x2
    have h2 : Keeps s₀ x2 := by
      unfold x2
      refine State.dropMirror_keeps _ ?_
      refine State.openWindow_keeps _ ?_ _ _ _
      refine State.setRegF_keeps _ ?_ _ _ _ _
      refine State.twinBreach_keeps _ ?_ _
      exact hs
    extract_lets -underBinder -merge -useContext +onlyGivenNames x3
    have h3 : Keeps s₀ x3 := by
      unfold x3
      refine State.failRestore_keeps _ ?_ _ _
      exact h2
    refine pred_ite ?_ ?_
    · refine State.pairLoss_keeps _ ?_ _ _ _ _ _
      exact h3
    · exact h3

theorem execBridgeFail_keeps {s₀ : State} (b : Fin 13) (dir : Fin 2) (lostLock : Bool) (s : State) (hs : Keeps s₀ s) :
    InOut (Keeps s₀) (execBridgeFail b dir lostLock s) := by
  unfold execBridgeFail
  extract_lets -underBinder -merge -useContext +onlyGivenNames x1
  extract_lets -underBinder -merge -useContext +onlyGivenNames x2
  extract_lets -underBinder -merge -useContext +onlyGivenNames x3
  refine pred_ite ?_ ?_
  · extract_lets -underBinder -merge -useContext +onlyGivenNames x4
    refine InOut.next ?_
    refine State.polderLoss_keeps _ ?_ _ _ _ _
    refine State.setBridge_keeps _ ?_ _ _
    exact hs
  · refine InOut.next ?_
    exact hs

theorem execIslandStepBegin_keeps {s₀ : State} (i : Isl) (s : State) (hs : Keeps s₀ s) :
    InOut (Keeps s₀) (execIslandStepBegin i s) := by
  unfold execIslandStepBegin
  split
  · refine InOut.next ?_
    exact hs
  · refine pred_ite ?_ ?_
    · refine InOut.next ?_
      refine State.addLogBy_keeps _ ?_ _ _ _ _
      refine State.islandStep_keeps _ ?_ _ _
      exact Keeps.upd hs
    · refine InOut.next ?_
      exact hs

end Sys2Proof.Machine
end

