-- ==== Sys2Proof/Laws/KeepViews.lean ====
section
/-! SUPPORT. What register views keep (`Keeps`), one lemma for each. -/

namespace Sys2Proof.Machine

open Sys2Proof

theorem State.clearRc_keeps {s₀ : State} (s : State) (hs : Keeps s₀ s) (a : Nat) (rc : Nat) :
    Keeps s₀ (State.clearRc s a rc) := by
  unfold State.clearRc
  refine pred_ite ?_ ?_
  · exact hs
  · extract_lets -underBinder -merge -useContext +onlyGivenNames x1
    have h1 : Keeps s₀ x1 := by
      unfold x1
      refine State.setReg_keeps _ ?_ _ _
      exact hs
    exact Keeps.upd h1

theorem State.setLatch_keeps {s₀ : State} (s : State) (hs : Keeps s₀ s) (acc : Nat) (v : Option (Nat × Word)) :
    Keeps s₀ (State.setLatch s acc v) := by
  unfold State.setLatch
  exact Keeps.part hs rfl rfl (fun i => ⟨{ i.canonical with latch := SMap.wf_set i.canonical.latch _ _ }, i.ring⟩) rfl rfl

theorem State.readAudMiss_keeps {s₀ : State} (s : State) (hs : Keeps s₀ s) (d : Nat) (l : Nat) :
    In2 (Keeps s₀) (State.readAudMiss s d l) := by
  unfold State.readAudMiss
  extract_lets -underBinder -merge -useContext +onlyGivenNames x1
  split
  · extract_lets -underBinder -merge -useContext +onlyGivenNames x4
    have h4 : Keeps s₀ x4 := by
      unfold x4
      refine State.setReg_keeps _ ?_ _ _
      refine State.setLatch_keeps _ ?_ _ _
      exact hs
    refine In2.mk ?_
    exact Keeps.upd h4
  · refine In2.mk ?_
    refine State.clearRc_keeps _ ?_ _ _
    exact hs

theorem State.readAudRows_keeps {s₀ : State} (s : State) (hs : Keeps s₀ s) (d : Nat) (l : Nat) :
    In2 (Keeps s₀) (State.readAudRows s d l) := by
  unfold State.readAudRows
  extract_lets -underBinder -merge -useContext +onlyGivenNames x1
  extract_lets -underBinder -merge -useContext +onlyGivenNames x2
  refine In2.mk ?_
  refine State.clearRc_keeps _ ?_ _ _
  refine State.setLatch_keeps _ ?_ _ _
  exact hs

theorem State.readPlain_keeps {s₀ : State} (s : State) (hs : Keeps s₀ s) (acc : Nat) (a : Nat) (r : RegRow) :
    In2 (Keeps s₀) (State.readPlain s acc a r) := by
  unfold State.readPlain
  extract_lets -underBinder -merge -useContext +onlyGivenNames x1
  refine pred_ite ?_ ?_
  · refine In2.mk ?_
    refine State.clearRc_keeps _ ?_ _ _
    refine State.setLatch_keeps _ ?_ _ _
    exact hs
  · split
    · refine pred_ite ?_ ?_
      · refine In2.mk ?_
        refine State.clearRc_keeps _ ?_ _ _
        refine State.setLatch_keeps _ ?_ _ _
        exact hs
      · refine In2.mk ?_
        refine State.clearRc_keeps _ ?_ _ _
        exact hs
    · refine In2.mk ?_
      refine State.clearRc_keeps _ ?_ _ _
      exact hs

theorem State.readReg_keeps {s₀ : State} (s : State) (hs : Keeps s₀ s) (acc : Nat) (a : Nat) :
    In2 (Keeps s₀) (State.readReg s acc a) := by
  unfold State.readReg
  split
  · refine In2.mk ?_
    refine State.unmapped_keeps _ ?_ _ _
    exact hs
  · split
    · refine State.readAudMiss_keeps _ ?_ _ _
      exact hs
    · refine State.readAudRows_keeps _ ?_ _ _
      exact hs
    · refine State.readPlain_keeps _ ?_ _ _ _
      exact hs

theorem State.readTo_keeps {s₀ : State} (s : State) (hs : Keeps s₀ s) (acc : Nat) (a : Nat) :
    Keeps s₀ (State.readTo s acc a) := by
  unfold State.readTo
  extract_lets -underBinder -merge -useContext +onlyGivenNames x1
  have h1 : In2 (Keeps s₀) x1 := by
    unfold x1
    refine State.readReg_keeps _ ?_ _ _
    exact hs
  extract_lets -underBinder -merge -useContext +onlyGivenNames x2
  have h2 : Keeps s₀ x2 := by
    unfold x2
    exact h1.out
  exact Keeps.part h2 rfl rfl (fun i => ⟨{ i.canonical with readData := SMap.wf_set i.canonical.readData _ _ }, i.ring⟩) rfl rfl

theorem execPrdAudMissRead_keeps {s₀ : State} (a : Accessor) (d : Die) (l : Fin 256) (s : State) (hs : Keeps s₀ s) :
    InOut (Keeps s₀) (execPrdAudMissRead a d l s) := by
  unfold execPrdAudMissRead
  refine InOut.next ?_
  refine State.readTo_keeps _ ?_ _ _
  exact hs

theorem execPrdAudRowsRead_keeps {s₀ : State} (a : Accessor) (d : Die) (l : Fin 256) (s : State) (hs : Keeps s₀ s) :
    InOut (Keeps s₀) (execPrdAudRowsRead a d l s) := by
  unfold execPrdAudRowsRead
  refine InOut.next ?_
  refine State.readTo_keeps _ ?_ _ _
  exact hs

theorem execRegisterRead_keeps {s₀ : State} (a : Accessor) (addr : BitVec 32) (s : State) (hs : Keeps s₀ s) :
    InOut (Keeps s₀) (execRegisterRead a addr s) := by
  unfold execRegisterRead
  refine InOut.next ?_
  refine State.readTo_keeps _ ?_ _ _
  exact hs

end Sys2Proof.Machine
end

