-- ==== Sys2Proof/Laws/KeepWalk.lean ====
section
/-! SUPPORT. What operand walks keep (`Keeps`), one lemma for each. -/

namespace Sys2Proof.Machine

open Sys2Proof

theorem State.readElems_keeps {s₀ : State} (s : State) (hs : Keeps s₀ s) (l : List (Desc × List Nat)) :
    Keeps s₀ (State.readElems s l) := by
  unfold State.readElems
  refine pred_foldl ?_ ?_
  · intro x1 h1 a1
    refine State.readUnit_keeps _ ?_ _
    exact h1
  · exact hs

theorem State.metaDrop_keeps {s₀ : State} (s : State) (hs : Keeps s₀ s) (c : Nat) (role : Nat) (tag : Nat) (q : Drop) :
    Keeps s₀ (State.metaDrop s c role tag q) := by
  unfold State.metaDrop
  extract_lets -underBinder -merge -useContext +onlyGivenNames x1
  have h1 : Keeps s₀ x1 := by
    unfold x1
    refine State.incThr_keeps _ ?_ _ _ _ _ _ _
    exact hs
  extract_lets -underBinder -merge -useContext +onlyGivenNames x2
  have h2 : Keeps s₀ x2 := by
    unfold x2
    refine State.setReg_keeps _ ?_ _ _
    exact h1
  refine State.count_keeps _ ?_ _ _ _ _
  refine State.setReg_keeps _ ?_ _ _
  exact h2

theorem State.poisonPair_keeps {s₀ : State} (s : State) (hs : Keeps s₀ s) (c : Nat) (slot : Nat) (x : Nat) (y : Nat) :
    Keeps s₀ (State.poisonPair s c slot x y) := by
  unfold State.poisonPair
  extract_lets -underBinder -merge -useContext +onlyGivenNames x1
  split
  · exact hs
  · extract_lets -underBinder -merge -useContext +onlyGivenNames x4
    extract_lets -underBinder -merge -useContext +onlyGivenNames x5
    have h5 : Keeps s₀ x5 := by
      unfold x5
      refine State.setCore_keeps _ ?_ _ _
      exact hs
    extract_lets -underBinder -merge -useContext +onlyGivenNames x6
    refine pred_ite ?_ ?_
    · refine State.setRegF_keeps _ ?_ _ _ _ _
      exact h5
    · exact h5

theorem State.readPair_keeps {s₀ : State} (s : State) (hs : Keeps s₀ s) (c : Nat) (m : RunMop) (slot : Nat) (x : Nat) (y : Nat) :
    Keeps s₀ (State.readPair s c m slot x y) := by
  unfold State.readPair
  refine pred_ite ?_ ?_
  · exact hs
  · extract_lets -underBinder -merge -useContext +onlyGivenNames x1
    extract_lets -underBinder -merge -useContext +onlyGivenNames x2
    have h2 : Keeps s₀ x2 := by
      unfold x2
      refine pred_foldl ?_ ?_
      · intro x3 h3 a3
        refine State.metaDrop_keeps _ ?_ _ _ _ _
        exact h3
      · exact hs
    refine pred_ite ?_ ?_
    · refine State.poisonPair_keeps _ ?_ _ _ _ _
      exact h2
    · exact h2

theorem State.countIsect_keeps {s₀ : State} (s : State) (hs : Keeps s₀ s) (c : Nat) (out : Nat) (zc : Nat) :
    Keeps s₀ (State.countIsect s c out zc) := by
  unfold State.countIsect
  extract_lets -underBinder -merge -useContext +onlyGivenNames x1
  have h1 : Keeps s₀ x1 := by
    unfold x1
    refine State.count_keeps _ ?_ _ _ _ _
    refine State.inc_keeps _ ?_ _ _
    exact hs
  refine State.count_keeps _ ?_ _ _ _ _
  refine State.inc_keeps _ ?_ _ _
  exact h1

theorem State.countReadsOnce_keeps {s₀ : State} (s : State) (hs : Keeps s₀ s) (c : Nat) (role : Nat) (tag : Nat) (l : List RowRead) (seen : List DropKey) :
    Keeps s₀ (State.countReadsOnce s c role tag l seen) := by
  unfold State.countReadsOnce
  extract_lets -underBinder -merge -useContext +onlyGivenNames x1
  have h1 : Keeps s₀ x1 := by
    unfold x1
    refine pred_foldl ?_ ?_
    · intro x2 h2 a2
      refine State.metaDrop_keeps _ ?_ _ _ _ _
      exact h2
    · exact hs
  refine State.inc_keeps _ ?_ _ _
  exact h1

theorem State.countReads_keeps {s₀ : State} (s : State) (hs : Keeps s₀ s) (c : Nat) (role : Nat) (tag : Nat) (l : List RowRead) :
    Keeps s₀ (State.countReads s c role tag l) := by
  unfold State.countReads
  refine State.countReadsOnce_keeps _ ?_ _ _ _ _ _
  exact hs

theorem State.readUnvisited_keeps {s₀ : State} (s : State) (hs : Keeps s₀ s) (c : Nat) (m : RunMop) (slot : Nat) (x : Nat) (y : Nat) (w : Nat) :
    Keeps s₀ (State.readUnvisited s c m slot x y w) := by
  unfold State.readUnvisited
  extract_lets -underBinder -merge -useContext +onlyGivenNames x1
  have h1 : Keeps s₀ x1 := by
    unfold x1
    refine pred_ite ?_ ?_
    · refine State.poisonPair_keeps _ ?_ _ _ _ _
      exact hs
    · exact hs
  extract_lets -underBinder -merge -useContext +onlyGivenNames x2
  refine pred_ite ?_ ?_
  · exact h1
  · extract_lets -underBinder -merge -useContext +onlyGivenNames x3
    extract_lets -underBinder -merge -useContext +onlyGivenNames x4
    refine State.countIsect_keeps _ ?_ _ _ _
    refine State.countReads_keeps _ ?_ _ _ _ _
    exact h1

theorem State.beginGroup_keeps {s₀ : State} (s : State) (hs : Keeps s₀ s) (c : Nat) (m : RunMop) (g : List GroupPair) (tiles : SMap (Option Tile)) :
    Keeps s₀ (State.beginGroup s c m g tiles) := by
  unfold State.beginGroup
  extract_lets -underBinder -merge -useContext +onlyGivenNames x1
  extract_lets -underBinder -merge -useContext +onlyGivenNames x2
  extract_lets -underBinder -merge -useContext +onlyGivenNames x3
  extract_lets -underBinder -merge -useContext +onlyGivenNames x4 x5
  have h5 : Keeps s₀ x5 := by
    unfold x5
    refine State.setCore_keeps _ ?_ _ _
    exact hs
  extract_lets -underBinder -merge -useContext +onlyGivenNames x6
  have h6 : Keeps s₀ x6 := by
    unfold x6
    refine pred_foldl ?_ ?_
    · intro x7 h7 a7
      refine State.readPair_keeps _ ?_ _ _ _ _ _
      exact h7
    · exact h5
  extract_lets -underBinder -merge -useContext +onlyGivenNames x8
  have h8 : Keeps s₀ x8 := by
    unfold x8
    refine pred_foldl ?_ ?_
    · intro x9 h9 a9
      refine pred_foldl ?_ ?_
      · intro x10 h10 a10
        refine pred_ite ?_ ?_
        · exact h10
        · refine State.readUnvisited_keeps _ ?_ _ _ _ _ _ _
          exact h10
      · exact h9
    · exact h6
  extract_lets -underBinder -merge -useContext +onlyGivenNames x11
  refine State.count_keeps _ ?_ _ _ _ _
  refine State.count_keeps _ ?_ _ _ _ _
  refine State.count_keeps _ ?_ _ _ _ _
  refine State.inc_keeps _ ?_ _ _
  exact h8

theorem State.advance_keeps {s₀ : State} (s : State) (hs : Keeps s₀ s) (c : Nat) :
    Keeps s₀ (State.advance s c) := by
  unfold State.advance
  extract_lets -underBinder -merge -useContext +onlyGivenNames x1
  split
  · exact hs
  · extract_lets -underBinder -merge -useContext +onlyGivenNames x4
    extract_lets -underBinder -merge -useContext +onlyGivenNames x5
    have h5 : Keeps s₀ x5 := by
      unfold x5
      refine State.setCore_keeps _ ?_ _ _
      exact hs
    refine pred_ite ?_ ?_
    · split
      · exact h5
      · split
        · exact h5
        · refine State.beginGroup_keeps _ ?_ _ _ _ _
          exact h5
    · exact h5

theorem State.qPoison_keeps {s₀ : State} (s : State) (hs : Keeps s₀ s) (c : Nat) (q : Nat) :
    Keeps s₀ (State.qPoison s c q) := by
  unfold State.qPoison
  refine State.count_keeps _ ?_ _ _ _ _
  refine State.inc_keeps _ ?_ _ _
  refine State.setRegF_keeps _ ?_ _ _ _ _
  exact hs

theorem State.poisonWords_keeps {s₀ : State} (s : State) (hs : Keeps s₀ s) (c : Nat) (q : Nat) (n : Nat) (bad : List Bool) :
    Keeps s₀ (State.poisonWords s c q n bad) := by
  unfold State.poisonWords
  refine pred_foldl ?_ ?_
  · intro x1 h1 a1
    refine State.qPoison_keeps _ ?_ _ _
    exact h1
  · exact hs

theorem State.prefetch_keeps {s₀ : State} (s : State) (hs : Keeps s₀ s) (c : Nat) :
    Keeps s₀ (State.prefetch s c) := by
  unfold State.prefetch
  extract_lets -underBinder -merge -useContext +onlyGivenNames x1
  split
  · exact hs
  · refine pred_ite ?_ ?_
    · exact hs
    · extract_lets -underBinder -merge -useContext +onlyGivenNames x4
      refine State.setCore_keeps _ ?_ _ _
      exact hs

theorem State.feedElems_keeps {s₀ : State} (s : State) (hs : Keeps s₀ s) (c : Nat) (l : List (Desc × List Nat)) :
    Keeps s₀ (State.feedElems s c l) := by
  unfold State.feedElems
  refine pred_foldl ?_ ?_
  · intro x1 h1 a1
    refine State.readUnit_keeps _ ?_ _
    exact h1
  · exact hs

theorem State.underrun_keeps {s₀ : State} (s : State) (hs : Keeps s₀ s) (c : Nat) (q : Nat) :
    Keeps s₀ (State.underrun s c q) := by
  unfold State.underrun
  refine State.count_keeps _ ?_ _ _ _ _
  refine State.setRegF_keeps _ ?_ _ _ _ _
  exact hs

end Sys2Proof.Machine
end

