-- ==== Sys2Proof/Laws/KeepSeq.lean ====
section
/-! SUPPORT. What the macro-operation sequencer keeps (`Keeps`), one lemma for each. -/

namespace Sys2Proof.Machine

open Sys2Proof

theorem State.resendCmd_keeps {s₀ : State} (s : State) (hs : Keeps s₀ s) (c : Nat) :
    Keeps s₀ (State.resendCmd s c) := by
  unfold State.resendCmd
  extract_lets -underBinder -merge -useContext +onlyGivenNames x1
  refine pred_ite ?_ ?_
  · exact hs
  · refine State.sendCore_keeps _ ?_ _ _
    exact hs

theorem State.writeCpl_keeps {s₀ : State} (s : State) (hs : Keeps s₀ s) (c : Nat) (w : BitVec 64) :
    Keeps s₀ (State.writeCpl s c w) := by
  unfold State.writeCpl
  extract_lets -underBinder -merge -useContext +onlyGivenNames x1
  refine State.setCore_keeps _ ?_ _ _
  exact hs

theorem State.segFlags_keeps {s₀ : State} (s : State) (hs : Keeps s₀ s) (c : Nat) (f : Flags) :
    Keeps s₀ (State.segFlags s c f) := by
  unfold State.segFlags
  extract_lets -underBinder -merge -useContext +onlyGivenNames x1
  split
  · refine State.setCore_keeps _ ?_ _ _
    exact hs
  · exact hs

theorem State.completeMop_keeps {s₀ : State} (s : State) (hs : Keeps s₀ s) (c : Nat) (m : RunMop) :
    Keeps s₀ (State.completeMop s c m) := by
  unfold State.completeMop
  extract_lets -underBinder -merge -useContext +onlyGivenNames x1
  have h1 : Keeps s₀ x1 := by
    unfold x1
    refine State.writeCpl_keeps _ ?_ _ _
    exact hs
  extract_lets -underBinder -merge -useContext +onlyGivenNames x2
  have h2 : Keeps s₀ x2 := by
    unfold x2
    refine State.inc_keeps _ ?_ _ _
    exact h1
  refine pred_ite ?_ ?_
  · exact h2
  · refine State.segFlags_keeps _ ?_ _ _
    exact h2

theorem State.popCmd_keeps {s₀ : State} (s : State) (hs : Keeps s₀ s) (c : Nat) (n : Nat) :
    Keeps s₀ (State.popCmd s c n) := by
  unfold State.popCmd
  extract_lets -underBinder -merge -useContext +onlyGivenNames x1
  refine State.setCore_keeps _ ?_ _ _
  exact hs

theorem State.ctrlPoison_keeps {s₀ : State} (s : State) (hs : Keeps s₀ s) (c : Nat) (p : List CmdWord) :
    Keeps s₀ (State.ctrlPoison s c p) := by
  unfold State.ctrlPoison
  extract_lets -underBinder -merge -useContext +onlyGivenNames x1
  have h1 : Keeps s₀ x1 := by
    unfold x1
    refine State.qPoison_keeps _ ?_ _ _
    refine State.popCmd_keeps _ ?_ _ _
    exact hs
  extract_lets -underBinder -merge -useContext +onlyGivenNames x2
  extract_lets -underBinder -merge -useContext +onlyGivenNames x3
  have h3 : Keeps s₀ x3 := by
    unfold x3
    refine State.breachOpen_keeps _ ?_ _ _
    exact h1
  refine pred_ite ?_ ?_
  · exact h3
  · refine State.resendCmd_keeps _ ?_ _
    exact h3

theorem State.control_keeps {s₀ : State} (s : State) (hs : Keeps s₀ s) (c : Nat) (bad : Bool) (p : Nat → Bool) (f : State → List CmdWord → State) (hf : ∀ z1 : State, Keeps s₀ z1 → ∀ z2 : List CmdWord, Keeps s₀ (f z1 z2)) :
    Keeps s₀ (State.control s c bad p f) := by
  unfold State.control
  extract_lets -underBinder -merge -useContext +onlyGivenNames x1
  refine pred_ite ?_ ?_
  · split
    · exact hs
    · refine pred_ite ?_ ?_
      · refine pred_ite ?_ ?_
        · refine State.ctrlPoison_keeps _ ?_ _ _
          exact hs
        · refine hf _ ?_ _
          refine State.popCmd_keeps _ ?_ _ _
          exact hs
      · exact hs
  · exact hs

theorem State.cooExcess_keeps {s₀ : State} (s : State) (hs : Keeps s₀ s) (c : Nat) (d : Desc) :
    Keeps s₀ (State.cooExcess s c d) := by
  unfold State.cooExcess
  extract_lets -underBinder -merge -useContext +onlyGivenNames x1
  refine pred_ite ?_ ?_
  · refine State.metaDrop_keeps _ ?_ _ _ _ _
    exact hs
  · exact hs

theorem State.idleRead_keeps {s₀ : State} (s : State) (hs : Keeps s₀ s) (c : Nat) (q : Nat) :
    Keeps s₀ (State.idleRead s c q) := by
  unfold State.idleRead
  refine pred_ite ?_ ?_
  · refine State.underrun_keeps _ ?_ _ _
    exact hs
  · exact hs

theorem State.takeMop_keeps {s₀ : State} (s : State) (hs : Keeps s₀ s) (c : Nat) (n : Nat) :
    Keeps s₀ (State.takeMop s c n) := by
  unfold State.takeMop
  extract_lets -underBinder -merge -useContext +onlyGivenNames x1
  split
  · refine State.setCore_keeps _ ?_ _ _
    exact hs
  · refine State.popCmd_keeps _ ?_ _ _
    exact hs

theorem State.noteRefusal_keeps {s₀ : State} (s : State) (hs : Keeps s₀ s) (c : Nat) (e : IssueErr) (op : Nat) (pkt : Nat) :
    Keeps s₀ (State.noteRefusal s c e op pkt) := by
  unfold State.noteRefusal
  refine State.count_keeps _ ?_ _ _ _ _
  refine State.setReg_keeps _ ?_ _ _
  refine State.inc_keeps _ ?_ _ _
  exact hs

theorem State.refuseMop_keeps {s₀ : State} (s : State) (hs : Keeps s₀ s) (c : Nat) (ws : List (BitVec 128)) (pkt : Nat) (e : IssueErr) :
    Keeps s₀ (State.refuseMop s c ws pkt e) := by
  unfold State.refuseMop
  extract_lets -underBinder -merge -useContext +onlyGivenNames x1
  have h1 : Keeps s₀ x1 := by
    unfold x1
    refine State.writeCpl_keeps _ ?_ _ _
    exact hs
  refine State.logNamed_keeps _ ?_ _ _ _
  refine State.noteRefusal_keeps _ ?_ _ _ _ _
  exact h1

theorem State.lenPoisoned_keeps {s₀ : State} (s : State) (hs : Keeps s₀ s) (c : Nat) :
    Keeps s₀ (State.lenPoisoned s c) := by
  unfold State.lenPoisoned
  extract_lets -underBinder -merge -useContext +onlyGivenNames x1
  extract_lets -underBinder -merge -useContext +onlyGivenNames x2
  extract_lets -underBinder -merge -useContext +onlyGivenNames x3
  have h3 : Keeps s₀ x3 := by
    unfold x3
    refine State.breachOpen_keeps _ ?_ _ _
    exact hs
  refine pred_ite ?_ ?_
  · exact Keeps.upd h3
  · exact h3

theorem State.readMap_keeps {s₀ : State} (s : State) (hs : Keeps s₀ s) (c : Nat) (ws : List (BitVec 128)) :
    In22 (Keeps s₀) (State.readMap s c ws) := by
  unfold State.readMap
  refine pred_ite ?_ ?_
  · refine In22.mk ?_
    refine In2.mk ?_
    exact hs
  · split
    · refine In22.mk ?_
      refine In2.mk ?_
      exact hs
    · extract_lets -underBinder -merge -useContext +onlyGivenNames x3
      extract_lets -underBinder -merge -useContext +onlyGivenNames x4
      extract_lets -underBinder -merge -useContext +onlyGivenNames x5
      refine pred_ite ?_ ?_
      · refine In22.mk ?_
        refine In2.mk ?_
        exact hs
      · refine In22.mk ?_
        refine In2.mk ?_
        refine State.logNamed_keeps _ ?_ _ _ _
        refine State.inc_keeps _ ?_ _ _
        exact hs

theorem State.startMop_keeps {s₀ : State} (s : State) (hs : Keeps s₀ s) (c : Nat) (ws : List (BitVec 128)) (l : Lens) (pkt : Nat) :
    Keeps s₀ (State.startMop s c ws l pkt) := by
  unfold State.startMop
  extract_lets -underBinder -merge -useContext +onlyGivenNames x1
  extract_lets -underBinder -merge -useContext +onlyGivenNames x2
  extract_lets -underBinder -merge -useContext +onlyGivenNames x3
  have h3 : Keeps s₀ x3 := by
    unfold x3
    refine pred_foldl ?_ ?_
    · intro x4 h4 a4
      refine pred_ite ?_ ?_
      · refine State.put_keeps _ ?_ _ _ _ _
        exact h4
      · exact h4
    · exact hs
  have h5 : In22 (Keeps s₀) (x3.readMap c ws) := by
    refine State.readMap_keeps _ ?_ _ _
    exact h3
  generalize (x3.readMap c ws) = z5 at h5 ⊢
  split
  · extract_lets -underBinder -merge -useContext +onlyGivenNames x9
    extract_lets -underBinder -merge -useContext +onlyGivenNames x10
    have h10 : Keeps s₀ x10 := by
      unfold x10
      split
      · refine State.cooExcess_keeps _ ?_ _ _
        exact h5
      · exact h5
    extract_lets -underBinder -merge -useContext +onlyGivenNames x13
    extract_lets -underBinder -merge -useContext +onlyGivenNames x14
    have h14 : Keeps s₀ x14 := by
      unfold x14
      refine State.setCore_keeps _ ?_ _ _
      exact h10
    extract_lets -underBinder -merge -useContext +onlyGivenNames x15
    have h15 : Keeps s₀ x15 := by
      unfold x15
      refine State.count_keeps _ ?_ _ _ _ _
      refine State.inc_keeps _ ?_ _ _
      exact h14
    refine pred_ite ?_ ?_
    · extract_lets -underBinder -merge -useContext +onlyGivenNames x16
      extract_lets -underBinder -merge -useContext +onlyGivenNames x17
      split
      · refine State.setDie_keeps _ ?_ _ _
        exact h15
      · exact h15
    · refine State.prefetch_keeps _ ?_ _
      refine State.advance_keeps _ ?_ _
      exact h15

theorem State.issue_keeps {s₀ : State} (s : State) (hs : Keeps s₀ s) (c : Nat) (p : Nat → Bool) (bad : Bool) :
    Keeps s₀ (State.issue s c p bad) := by
  unfold State.issue
  extract_lets -underBinder -merge -useContext +onlyGivenNames x1
  refine pred_ite ?_ ?_
  · split
    · exact hs
    · refine pred_ite ?_ ?_
      · exact hs
      · refine pred_ite ?_ ?_
        · refine State.ctrlPoison_keeps _ ?_ _ _
          exact hs
        · extract_lets -underBinder -merge -useContext +onlyGivenNames x7
          refine pred_ite ?_ ?_
          · exact hs
          · extract_lets -underBinder -merge -useContext +onlyGivenNames x8
            have h8 : Keeps s₀ x8 := by
              unfold x8
              refine State.takeMop_keeps _ ?_ _ _
              exact hs
            extract_lets -underBinder -merge -useContext +onlyGivenNames x9 x10
            have h10 : Keeps s₀ x10 := by
              unfold x10
              refine State.setCore_keeps _ ?_ _ _
              exact h8
            refine pred_ite ?_ ?_
            · refine State.segFlags_keeps _ ?_ _ _
              exact h10
            · split
              · extract_lets -underBinder -merge -useContext +onlyGivenNames x12
                have h12 : Keeps s₀ x12 := by
                  unfold x12
                  refine State.refuseMop_keeps _ ?_ _ _ _ _
                  exact h10
                refine pred_ite ?_ ?_
                · refine State.lenPoisoned_keeps _ ?_ _
                  exact h12
                · exact h12
              · refine State.startMop_keeps _ ?_ _ _ _ _
                exact h10
  · exact hs

theorem execCmdqReservedOpcode_keeps {s₀ : State} (c : Core) (bad : Bool) (s : State) (hs : Keeps s₀ s) :
    InOut (Keeps s₀) (execCmdqReservedOpcode c bad s) := by
  unfold execCmdqReservedOpcode
  refine InOut.next ?_
  refine pred_ite ?_ ?_
  · refine State.issue_keeps _ ?_ _ _ _
    exact hs
  · refine State.control_keeps _ ?_ _ _ _ _ ?_
    · exact hs
    · intro x1 h1 x2
      try beta_reduce
      refine State.noteRefusal_keeps _ ?_ _ _ _ _
      refine State.writeCpl_keeps _ ?_ _ _
      exact h1

theorem execConv_keeps {s₀ : State} (rd : CoreRead) (s : State) (hs : Keeps s₀ s) :
    InOut (Keeps s₀) (execConv rd s) := by
  unfold execConv
  refine InOut.next ?_
  refine State.issue_keeps _ ?_ _ _ _
  exact hs

theorem execCopy_keeps {s₀ : State} (rd : CoreRead) (s : State) (hs : Keeps s₀ s) :
    InOut (Keeps s₀) (execCopy rd s) := by
  unfold execCopy
  refine InOut.next ?_
  refine State.issue_keeps _ ?_ _ _ _
  exact hs

theorem execElemwise_keeps {s₀ : State} (rd : CoreRead) (s : State) (hs : Keeps s₀ s) :
    InOut (Keeps s₀) (execElemwise rd s) := by
  unfold execElemwise
  refine InOut.next ?_
  refine State.issue_keeps _ ?_ _ _ _
  exact hs

theorem execGather_keeps {s₀ : State} (rd : CoreRead) (s : State) (hs : Keeps s₀ s) :
    InOut (Keeps s₀) (execGather rd s) := by
  unfold execGather
  refine InOut.next ?_
  refine State.issue_keeps _ ?_ _ _ _
  exact hs

theorem execIdleItem_keeps {s₀ : State} (rd : CoreRead) (s : State) (hs : Keeps s₀ s) :
    InOut (Keeps s₀) (execIdleItem rd s) := by
  unfold execIdleItem
  refine InOut.next ?_
  refine State.control_keeps _ ?_ _ _ _ _ ?_
  · exact hs
  · intro x1 h1 x2
    try beta_reduce
    exact h1

theorem execMbBegin_keeps {s₀ : State} (c : Core) (bad : Bool) (s : State) (hs : Keeps s₀ s) :
    InOut (Keeps s₀) (execMbBegin c bad s) := by
  unfold execMbBegin
  refine InOut.next ?_
  refine State.control_keeps _ ?_ _ _ _ _ ?_
  · exact hs
  · intro x1 h1 x2
    try beta_reduce
    extract_lets -underBinder -merge -useContext +onlyGivenNames x3
    extract_lets -underBinder -merge -useContext +onlyGivenNames x4
    split
    · refine State.noteRefusal_keeps _ ?_ _ _ _ _
      refine State.writeCpl_keeps _ ?_ _ _
      exact h1
    · refine pred_ite ?_ ?_
      · refine State.noteRefusal_keeps _ ?_ _ _ _ _
        refine State.writeCpl_keeps _ ?_ _ _
        exact h1
      · extract_lets -underBinder -merge -useContext +onlyGivenNames x7 x8
        have h8 : Keeps s₀ x8 := by
          unfold x8
          refine State.setCore_keeps _ ?_ _ _
          exact h1
        refine pred_ite ?_ ?_
        · refine State.addLogBy_keeps _ ?_ _ _ _ _
          exact h8
        · exact h8

theorem execMopComplete_keeps {s₀ : State} (c : Core) (s : State) (hs : Keeps s₀ s) :
    InOut (Keeps s₀) (execMopComplete c s) := by
  unfold execMopComplete
  extract_lets -underBinder -merge -useContext +onlyGivenNames x1
  refine pred_ite ?_ ?_
  · split
    · refine InOut.next ?_
      refine pred_ite ?_ ?_
      · refine State.completeMop_keeps _ ?_ _ _
        refine State.setCore_keeps _ ?_ _ _
        exact hs
      · exact hs
    · refine InOut.next ?_
      refine pred_ite ?_ ?_
      · refine State.completeMop_keeps _ ?_ _ _
        refine State.setCore_keeps _ ?_ _ _
        exact hs
      · exact hs
    · refine InOut.next ?_
      exact hs
  · refine InOut.next ?_
    exact hs

theorem execMopEarlyStart_keeps {s₀ : State} (rd : CoreRead) (s : State) (hs : Keeps s₀ s) :
    InOut (Keeps s₀) (execMopEarlyStart rd s) := by
  unfold execMopEarlyStart
  extract_lets -underBinder -merge -useContext +onlyGivenNames x1
  split
  · refine pred_ite ?_ ?_
    · extract_lets -underBinder -merge -useContext +onlyGivenNames x6
      extract_lets -underBinder -merge -useContext +onlyGivenNames x7
      refine pred_ite ?_ ?_
      · refine InOut.next ?_
        exact hs
      · refine pred_ite ?_ ?_
        · extract_lets -underBinder -merge -useContext +onlyGivenNames x8
          have h8 : Keeps s₀ x8 := by
            unfold x8
            refine State.setCore_keeps _ ?_ _ _
            exact hs
          refine InOut.next ?_
          refine State.startMop_keeps _ ?_ _ _ _ _
          refine State.takeMop_keeps _ ?_ _ _
          exact h8
        · refine InOut.next ?_
          refine State.setCore_keeps _ ?_ _ _
          exact hs
    · refine InOut.next ?_
      exact hs
  · refine InOut.next ?_
    exact hs

theorem execNormstat_keeps {s₀ : State} (rd : CoreRead) (s : State) (hs : Keeps s₀ s) :
    InOut (Keeps s₀) (execNormstat rd s) := by
  unfold execNormstat
  refine InOut.next ?_
  refine State.issue_keeps _ ?_ _ _ _
  exact hs

theorem execPhaseDone_keeps {s₀ : State} (c : Core) (s : State) (hs : Keeps s₀ s) :
    InOut (Keeps s₀) (execPhaseDone c s) := by
  unfold execPhaseDone
  extract_lets -underBinder -merge -useContext +onlyGivenNames x1
  split
  · refine pred_ite ?_ ?_
    · extract_lets -underBinder -merge -useContext +onlyGivenNames x4
      have h4 : Keeps s₀ x4 := by
        unfold x4
        refine State.writeCpl_keeps _ ?_ _ _
        exact hs
      extract_lets -underBinder -merge -useContext +onlyGivenNames x5 x6
      have h6 : Keeps s₀ x6 := by
        unfold x6
        refine State.count_keeps _ ?_ _ _ _ _
        refine State.setCore_keeps _ ?_ _ _
        exact h4
      refine InOut.next ?_
      refine State.addLogBy_keeps _ ?_ _ _ _ _
      exact h6
    · refine InOut.next ?_
      exact hs
  · refine InOut.next ?_
    exact hs

theorem execPredict_keeps {s₀ : State} (rd : CoreRead) (s : State) (hs : Keeps s₀ s) :
    InOut (Keeps s₀) (execPredict rd s) := by
  unfold execPredict
  refine InOut.next ?_
  refine State.issue_keeps _ ?_ _ _ _
  exact hs

theorem execScatterAdd_keeps {s₀ : State} (rd : CoreRead) (s : State) (hs : Keeps s₀ s) :
    InOut (Keeps s₀) (execScatterAdd rd s) := by
  unfold execScatterAdd
  refine InOut.next ?_
  refine State.issue_keeps _ ?_ _ _ _
  exact hs

theorem execSddmm_keeps {s₀ : State} (rd : CoreRead) (s : State) (hs : Keeps s₀ s) :
    InOut (Keeps s₀) (execSddmm rd s) := by
  unfold execSddmm
  refine InOut.next ?_
  refine State.issue_keeps _ ?_ _ _ _
  exact hs

theorem execSpgemm_keeps {s₀ : State} (rd : CoreRead) (s : State) (hs : Keeps s₀ s) :
    InOut (Keeps s₀) (execSpgemm rd s) := by
  unfold execSpgemm
  refine InOut.next ?_
  refine State.issue_keeps _ ?_ _ _ _
  exact hs

theorem execSpmm_keeps {s₀ : State} (rd : CoreRead) (s : State) (hs : Keeps s₀ s) :
    InOut (Keeps s₀) (execSpmm rd s) := by
  unfold execSpmm
  refine InOut.next ?_
  refine State.issue_keeps _ ?_ _ _ _
  exact hs

theorem execStageBind_keeps {s₀ : State} (c : Core) (bad : Bool) (s : State) (hs : Keeps s₀ s) :
    InOut (Keeps s₀) (execStageBind c bad s) := by
  unfold execStageBind
  refine InOut.next ?_
  refine State.control_keeps _ ?_ _ _ _ _ ?_
  · exact hs
  · intro x1 h1 x2
    try beta_reduce
    refine State.setCore_keeps _ ?_ _ _
    refine State.setReg_keeps _ ?_ _ _
    exact h1

theorem execStageUnbind_keeps {s₀ : State} (c : Core) (bad : Bool) (s : State) (hs : Keeps s₀ s) :
    InOut (Keeps s₀) (execStageUnbind c bad s) := by
  unfold execStageUnbind
  refine InOut.next ?_
  refine State.control_keeps _ ?_ _ _ _ _ ?_
  · exact hs
  · intro x1 h1 x2
    try beta_reduce
    refine State.setCore_keeps _ ?_ _ _
    refine State.setReg_keeps _ ?_ _ _
    exact h1

theorem execStepBegin_keeps {s₀ : State} (c : Core) (bad : Bool) (s : State) (hs : Keeps s₀ s) :
    InOut (Keeps s₀) (execStepBegin c bad s) := by
  unfold execStepBegin
  refine InOut.next ?_
  refine State.control_keeps _ ?_ _ _ _ _ ?_
  · exact hs
  · intro x1 h1 x2
    try beta_reduce
    refine State.addLogBy_keeps _ ?_ _ _ _ _
    refine State.islandStep_keeps _ ?_ _ _
    exact h1

end Sys2Proof.Machine
end

