-- ==== Sys2Proof/Laws/KeepPredict.lean ====
section
/-! SUPPORT. What the predictor keeps (`Keeps`), one lemma for each. -/

namespace Sys2Proof.Machine

open Sys2Proof

theorem State.predNote_keeps {s₀ : State} (s : State) (hs : Keeps s₀ s) (d : Nat) (q : PredReq) (poi : Bool) (nonf : Bool) :
    Keeps s₀ (State.predNote s d q poi nonf) := by
  unfold State.predNote
  extract_lets -underBinder -merge -useContext +onlyGivenNames x1
  extract_lets -underBinder -merge -useContext +onlyGivenNames x2
  have h2 : Keeps s₀ x2 := by
    unfold x2
    split
    · refine pred_ite ?_ ?_
      · refine State.setCore_keeps _ ?_ _ _
        exact hs
      · exact hs
    · exact hs
  refine pred_foldl ?_ ?_
  · intro x5 h5 a5
    refine State.setCore_keeps _ ?_ _ _
    exact h5
  · exact h2

theorem State.predFinish_keeps {s₀ : State} (s : State) (hs : Keeps s₀ s) (d : Nat) (p : PredRun) :
    Keeps s₀ (State.predFinish s d p) := by
  unfold State.predFinish
  extract_lets -underBinder -merge -useContext +onlyGivenNames x1
  extract_lets -underBinder -merge -useContext +onlyGivenNames x2
  extract_lets -underBinder -merge -useContext +onlyGivenNames x3
  split
  · extract_lets -underBinder -merge -useContext +onlyGivenNames x8
    extract_lets -underBinder -merge -useContext +onlyGivenNames x9
    extract_lets -underBinder -merge -useContext +onlyGivenNames x10
    extract_lets -underBinder -merge -useContext +onlyGivenNames x11
    extract_lets -underBinder -merge -useContext +onlyGivenNames x12
    extract_lets -underBinder -merge -useContext +onlyGivenNames x13
    have h13 : Keeps s₀ x13 := by
      unfold x13
      refine pred_ite ?_ ?_
      · exact hs
      · refine State.readElems_keeps _ ?_ _
        exact hs
    extract_lets -underBinder -merge -useContext +onlyGivenNames x14
    extract_lets -underBinder -merge -useContext +onlyGivenNames x15
    extract_lets -underBinder -merge -useContext +onlyGivenNames x16
    extract_lets -underBinder -merge -useContext +onlyGivenNames x17
    extract_lets -underBinder -merge -useContext +onlyGivenNames x18
    have h18 : Keeps s₀ x18 := by
      unfold x18
      refine State.put_keeps _ ?_ _ _ _ _
      exact h13
    extract_lets -underBinder -merge -useContext +onlyGivenNames x19
    have h19 : Keeps s₀ x19 := by
      unfold x19
      refine State.put_keeps _ ?_ _ _ _ _
      exact h18
    extract_lets -underBinder -merge -useContext +onlyGivenNames x20
    have h20 : Keeps s₀ x20 := by
      unfold x20
      refine pred_ite ?_ ?_
      · refine State.setReg_keeps _ ?_ _ _
        exact h19
      · exact h19
    extract_lets -underBinder -merge -useContext +onlyGivenNames x21 x22
    have h22 : Keeps s₀ x22 := by
      unfold x22
      refine State.setDie_keeps _ ?_ _ _
      exact h20
    refine State.predNote_keeps _ ?_ _ _ _ _
    refine State.count_keeps _ ?_ _ _ _ _
    refine State.inc_keeps _ ?_ _ _
    exact h22
  · refine State.predNote_keeps _ ?_ _ _ _ _
    refine State.setDie_keeps _ ?_ _ _
    exact hs

theorem execPredictComplete_keeps {s₀ : State} (d : Die) (s : State) (hs : Keeps s₀ s) :
    InOut (Keeps s₀) (execPredictComplete d s) := by
  unfold execPredictComplete
  split
  · refine InOut.next ?_
    refine pred_ite ?_ ?_
    · refine State.predFinish_keeps _ ?_ _ _
      exact hs
    · exact hs
  · refine InOut.next ?_
    exact hs

theorem execPredictStart_keeps {s₀ : State} (d : Die) (s : State) (hs : Keeps s₀ s) :
    InOut (Keeps s₀) (execPredictStart d s) := by
  unfold execPredictStart
  extract_lets -underBinder -merge -useContext +onlyGivenNames x1
  split
  · refine pred_ite ?_ ?_
    · extract_lets -underBinder -merge -useContext +onlyGivenNames x4
      refine InOut.next ?_
      refine State.setDie_keeps _ ?_ _ _
      exact hs
    · refine InOut.next ?_
      exact hs
  · refine InOut.next ?_
    exact hs

end Sys2Proof.Machine
end

