-- ==== Sys2Proof/Laws/KeepFeeder.lean ====
section
/-! SUPPORT. What the feeder keeps (`Keeps`), one lemma for each. -/

namespace Sys2Proof.Machine

open Sys2Proof

theorem State.emitWave_keeps {s₀ : State} (s : State) (hs : Keeps s₀ s) (c : Nat) (m : RunMop) (p : Packer) :
    Keeps s₀ (State.emitWave s c m p) := by
  unfold State.emitWave
  split
  · extract_lets -underBinder -merge -useContext +onlyGivenNames x3
    split
    · extract_lets -underBinder -merge -useContext +onlyGivenNames x9
      extract_lets -underBinder -merge -useContext +onlyGivenNames x10
      extract_lets -underBinder -merge -useContext +onlyGivenNames x11
      extract_lets -underBinder -merge -useContext +onlyGivenNames x12
      extract_lets -underBinder -merge -useContext +onlyGivenNames x13
      extract_lets -underBinder -merge -useContext +onlyGivenNames x14
      extract_lets -underBinder -merge -useContext +onlyGivenNames x15
      extract_lets -underBinder -merge -useContext +onlyGivenNames x16
      have h16 : Keeps s₀ x16 := by
        unfold x16
        refine State.setCore_keeps _ ?_ _ _
        exact hs
      extract_lets -underBinder -merge -useContext +onlyGivenNames x17
      have h17 : Keeps s₀ x17 := by
        unfold x17
        refine pred_ite ?_ ?_
        · refine State.inc_keeps _ ?_ _ _
          exact h16
        · exact h16
      extract_lets -underBinder -merge -useContext +onlyGivenNames x18
      have h18 : Keeps s₀ x18 := by
        unfold x18
        refine State.setRegF_keeps _ ?_ _ _ _ _
        refine State.setRegF_keeps _ ?_ _ _ _ _
        exact h17
      refine State.count_keeps _ ?_ _ _ _ _
      exact h18

theorem State.fillNow_keeps {s₀ : State} (s : State) (hs : Keeps s₀ s) (c : Nat) (m : RunMop) (a : Nat) (len : Nat) :
    Keeps s₀ (State.fillNow s c m a len) := by
  unfold State.fillNow
  extract_lets -underBinder -merge -useContext +onlyGivenNames x1
  extract_lets -underBinder -merge -useContext +onlyGivenNames x2
  extract_lets -underBinder -merge -useContext +onlyGivenNames x3
  extract_lets -underBinder -merge -useContext +onlyGivenNames x4
  extract_lets -underBinder -merge -useContext +onlyGivenNames x5
  have h5 : Keeps s₀ x5 := by
    unfold x5
    refine pred_foldl ?_ ?_
    · intro x6 h6 a6
      refine State.readUnit_keeps _ ?_ _
      exact h6
    · exact hs
  extract_lets -underBinder -merge -useContext +onlyGivenNames x7
  extract_lets -underBinder -merge -useContext +onlyGivenNames x8
  have h8 : Keeps s₀ x8 := by
    unfold x8
    refine State.setCore_keeps _ ?_ _ _
    exact h5
  refine State.count_keeps _ ?_ _ _ _ _
  exact h8

theorem State.serveFills_keeps {s₀ : State} (c : Nat) (m : RunMop) (l : List (Nat × Nat)) (s : State)
    (hs : Keeps s₀ s) : Keeps s₀ (State.serveFills c m l s) := by
  induction l generalizing s with
  | nil => exact State.setCore_keeps _ hs _ _
  | cons x l ih =>
    unfold State.serveFills
    exact pred_ite (ih _ (State.fillNow_keeps _ hs _ _ _ _)) (State.setCore_keeps _ hs _ _)

theorem State.takePack_keeps {s₀ : State} (s : State) (hs : Keeps s₀ s) (c : Nat) (m : RunMop) (bad : List Bool) :
    InSome (Keeps s₀) (State.takePack s c m bad) := by
  unfold State.takePack
  split
  · exact InSome.none
  · split
    · extract_lets -underBinder -merge -useContext +onlyGivenNames x7
      extract_lets -underBinder -merge -useContext +onlyGivenNames x8
      extract_lets -underBinder -merge -useContext +onlyGivenNames x9
      extract_lets -underBinder -merge -useContext +onlyGivenNames x10
      extract_lets -underBinder -merge -useContext +onlyGivenNames x11
      have h11 : Keeps s₀ x11 := by
        unfold x11
        refine State.setCore_keeps _ ?_ _ _
        exact hs
      extract_lets -underBinder -merge -useContext +onlyGivenNames x12
      have h12 : Keeps s₀ x12 := by
        unfold x12
        refine State.poisonWords_keeps _ ?_ _ _ _ _
        exact h11
      extract_lets -underBinder -merge -useContext +onlyGivenNames x13
      have h13 : Keeps s₀ x13 := by
        unfold x13
        refine State.countReads_keeps _ ?_ _ _ _ _
        exact h12
      extract_lets -underBinder -merge -useContext +onlyGivenNames x14
      have h14 : Keeps s₀ x14 := by
        unfold x14
        refine State.countIsect_keeps _ ?_ _ _ _
        exact h13
      extract_lets -underBinder -merge -useContext +onlyGivenNames x15
      have h15 : Keeps s₀ x15 := by
        unfold x15
        refine pred_ite ?_ ?_
        · refine State.poisonPair_keeps _ ?_ _ _ _ _
          exact h14
        · exact h14
      refine InSome.some ?_
      refine In2.mk ?_
      exact h15

theorem execMergeSegment_keeps {s₀ : State} (rd : CoreRead) (s : State) (hs : Keeps s₀ s) :
    InOut (Keeps s₀) (execMergeSegment rd s) := by
  unfold execMergeSegment
  extract_lets -underBinder -merge -useContext +onlyGivenNames x1
  split
  · refine InOut.next ?_
    refine State.idleRead_keeps _ ?_ _ _
    exact hs
  · refine pred_ite ?_ ?_
    · refine InOut.next ?_
      exact hs
    · split
      · refine InOut.next ?_
        refine State.idleRead_keeps _ ?_ _ _
        exact hs
      · extract_lets -underBinder -merge -useContext +onlyGivenNames x9
        split
        · extract_lets -underBinder -merge -useContext +onlyGivenNames x13
          extract_lets -underBinder -merge -useContext +onlyGivenNames x14
          extract_lets -underBinder -merge -useContext +onlyGivenNames x15
          extract_lets -underBinder -merge -useContext +onlyGivenNames x16
          have h16 : Keeps s₀ x16 := by
            unfold x16
            refine State.setCore_keeps _ ?_ _ _
            exact hs
          extract_lets -underBinder -merge -useContext +onlyGivenNames x17
          have h17 : Keeps s₀ x17 := by
            unfold x17
            refine State.poisonWords_keeps _ ?_ _ _ _ _
            exact h16
          extract_lets -underBinder -merge -useContext +onlyGivenNames x18
          have h18 : Keeps s₀ x18 := by
            unfold x18
            refine pred_foldl ?_ ?_
            · intro x19 h19 a19
              refine State.metaDrop_keeps _ ?_ _ _ _ _
              exact h19
            · exact h17
          extract_lets -underBinder -merge -useContext +onlyGivenNames x20
          have h20 : Keeps s₀ x20 := by
            unfold x20
            refine pred_ite ?_ ?_
            · exact h18
            · refine State.inc_keeps _ ?_ _ _
              exact h18
          extract_lets -underBinder -merge -useContext +onlyGivenNames x21
          have h21 : Keeps s₀ x21 := by
            unfold x21
            refine State.count_keeps _ ?_ _ _ _ _
            refine State.inc_keeps _ ?_ _ _
            exact h20
          refine InOut.next ?_
          refine State.prefetch_keeps _ ?_ _
          refine State.advance_keeps _ ?_ _
          exact h21

theorem execOperandFill_keeps {s₀ : State} (c : Core) (addr : Addr) (len : Nat) (s : State) (hs : Keeps s₀ s) :
    InOut (Keeps s₀) (execOperandFill c addr len s) := by
  unfold execOperandFill
  extract_lets -underBinder -merge -useContext +onlyGivenNames x1
  extract_lets -underBinder -merge -useContext +onlyGivenNames x2
  split
  · refine InOut.next ?_
    exact hs
  · extract_lets -underBinder -merge -useContext +onlyGivenNames x5
    extract_lets -underBinder -merge -useContext +onlyGivenNames x6
    extract_lets -underBinder -merge -useContext +onlyGivenNames x7
    refine pred_ite ?_ ?_
    · refine InOut.next ?_
      refine State.serveFills_keeps _ _ _ _ ?_
      exact hs
    · refine InOut.next ?_
      exact hs

theorem execStationaryLoad_keeps {s₀ : State} (rd : CoreRead) (s : State) (hs : Keeps s₀ s) :
    InOut (Keeps s₀) (execStationaryLoad rd s) := by
  unfold execStationaryLoad
  extract_lets -underBinder -merge -useContext +onlyGivenNames x1
  split
  · refine InOut.next ?_
    refine State.idleRead_keeps _ ?_ _ _
    exact hs
  · split
    · refine InOut.next ?_
      refine State.idleRead_keeps _ ?_ _ _
      exact hs
    · refine pred_ite ?_ ?_
      · refine InOut.next ?_
        exact hs
      · split
        · extract_lets -underBinder -merge -useContext +onlyGivenNames x10
          extract_lets -underBinder -merge -useContext +onlyGivenNames x11
          extract_lets -underBinder -merge -useContext +onlyGivenNames x12
          extract_lets -underBinder -merge -useContext +onlyGivenNames x13
          extract_lets -underBinder -merge -useContext +onlyGivenNames x14
          extract_lets -underBinder -merge -useContext +onlyGivenNames x15
          extract_lets -underBinder -merge -useContext +onlyGivenNames x16
          have h16 : Keeps s₀ x16 := by
            unfold x16
            refine State.setCore_keeps _ ?_ _ _
            exact hs
          extract_lets -underBinder -merge -useContext +onlyGivenNames x17
          have h17 : Keeps s₀ x17 := by
            unfold x17
            refine State.poisonWords_keeps _ ?_ _ _ _ _
            exact h16
          extract_lets -underBinder -merge -useContext +onlyGivenNames x18
          have h18 : Keeps s₀ x18 := by
            unfold x18
            refine State.countReads_keeps _ ?_ _ _ _ _
            exact h17
          extract_lets -underBinder -merge -useContext +onlyGivenNames x19
          have h19 : Keeps s₀ x19 := by
            unfold x19
            refine pred_ite ?_ ?_
            · refine State.poisonPair_keeps _ ?_ _ _ _ _
              exact h18
            · exact h18
          refine InOut.next ?_
          refine State.prefetch_keeps _ ?_ _
          exact h19

theorem execWavefrontEmit_keeps {s₀ : State} (rd : CoreRead) (s : State) (hs : Keeps s₀ s) :
    InOut (Keeps s₀) (execWavefrontEmit rd s) := by
  unfold execWavefrontEmit
  extract_lets -underBinder -merge -useContext +onlyGivenNames x1
  split
  · refine InOut.next ?_
    refine State.idleRead_keeps _ ?_ _ _
    exact hs
  · rename_i p3 e0
    refine pred_ite ?_ ?_
    · refine InOut.next ?_
      exact hs
    · split
      · refine InOut.next ?_
        refine State.prefetch_keeps _ ?_ _
        refine State.advance_keeps _ ?_ _
        refine State.emitWave_keeps _ ?_ _ _ _
        exact hs
      · refine pred_ite ?_ ?_
        · refine InOut.next ?_
          exact hs
        · have h6 : InSome (Keeps s₀) (s.takePack (↑rd.core) p3 rd.bad) := by
            refine State.takePack_keeps _ ?_ _ _ _
            exact hs
          generalize (s.takePack (↑rd.core) p3 rd.bad) = z6 at h6 ⊢
          split
          · refine InOut.next ?_
            refine State.idleRead_keeps _ ?_ _ _
            exact hs
          · refine InOut.next ?_
            refine State.prefetch_keeps _ ?_ _
            refine State.advance_keeps _ ?_ _
            refine State.emitWave_keeps _ ?_ _ _ _
            exact (h6 _ rfl)

end Sys2Proof.Machine
end

