-- ==== Sys2Proof/Laws/KeepArray.lean ====
section
/-! SUPPORT. What the array keeps (`Keeps`), one lemma for each. -/

namespace Sys2Proof.Machine

open Sys2Proof

theorem State.flagTile_keeps {s₀ : State} (s : State) (hs : Keeps s₀ s) (c : Nat) (slot : Nat) (sat : Bool) (poison : Bool) (nonfin : Bool) :
    Keeps s₀ (State.flagTile s c slot sat poison nonfin) := by
  unfold State.flagTile
  extract_lets -underBinder -merge -useContext +onlyGivenNames x1
  extract_lets -underBinder -merge -useContext +onlyGivenNames x2
  have h2 : Keeps s₀ x2 := by
    unfold x2
    refine pred_ite ?_ ?_
    · refine State.setRegF_keeps _ ?_ _ _ _ _
      exact hs
    · exact hs
  extract_lets -underBinder -merge -useContext +onlyGivenNames x3
  have h3 : Keeps s₀ x3 := by
    unfold x3
    refine pred_ite ?_ ?_
    · refine State.setRegF_keeps _ ?_ _ _ _ _
      exact h2
    · exact h2
  refine pred_ite ?_ ?_
  · refine State.setCore_keeps _ ?_ _ _
    exact h3
  · exact h3

theorem State.countAcc_keeps {s₀ : State} (s : State) (hs : Keeps s₀ s) (c : Nat) (sat : Nat) (nf : Nat) :
    Keeps s₀ (State.countAcc s c sat nf) := by
  unfold State.countAcc
  extract_lets -underBinder -merge -useContext +onlyGivenNames x1
  extract_lets -underBinder -merge -useContext +onlyGivenNames x2
  have h2 : Keeps s₀ x2 := by
    unfold x2
    refine State.incThr_keeps _ ?_ _ _ _ _ _ _
    exact hs
  refine State.count_keeps _ ?_ _ _ _ _
  refine State.inc_keeps _ ?_ _ _
  refine State.count_keeps _ ?_ _ _ _ _
  exact h2

theorem State.addSums_keeps {s₀ : State} (s : State) (hs : Keeps s₀ s) (c : Nat) (w : SumWord) (bad : Bool) :
    Keeps s₀ (State.addSums s c w bad) := by
  unfold State.addSums
  extract_lets -underBinder -merge -useContext +onlyGivenNames x1
  split
  · extract_lets -underBinder -merge -useContext +onlyGivenNames x4
    extract_lets -underBinder -merge -useContext +onlyGivenNames x5
    have h5 : Keeps s₀ x5 := by
      unfold x5
      refine State.setCore_keeps _ ?_ _ _
      exact hs
    extract_lets -underBinder -merge -useContext +onlyGivenNames x6
    have h6 : Keeps s₀ x6 := by
      unfold x6
      refine State.flagTile_keeps _ ?_ _ _ _ _ _
      exact h5
    refine State.countAcc_keeps _ ?_ _ _ _
    exact h6
  · exact hs

theorem State.clearFlags_keeps {s₀ : State} (s : State) (hs : Keeps s₀ s) (c : Nat) (slot : Nat) :
    Keeps s₀ (State.clearFlags s c slot) := by
  unfold State.clearFlags
  extract_lets -underBinder -merge -useContext +onlyGivenNames x1
  extract_lets -underBinder -merge -useContext +onlyGivenNames x2
  have h2 : Keeps s₀ x2 := by
    unfold x2
    refine State.setRegF_keeps _ ?_ _ _ _ _
    refine State.setRegF_keeps _ ?_ _ _ _ _
    exact hs
  extract_lets -underBinder -merge -useContext +onlyGivenNames x3
  refine State.setCore_keeps _ ?_ _ _
  exact h2

theorem State.passWave_keeps {s₀ : State} (s : State) (hs : Keeps s₀ s) (c : Nat) (w : Wavefront) (bad : Bool) :
    Keeps s₀ (State.passWave s c w bad) := by
  unfold State.passWave
  extract_lets -underBinder -merge -useContext +onlyGivenNames x1
  split
  · exact hs
  · extract_lets -underBinder -merge -useContext +onlyGivenNames x4
    extract_lets -underBinder -merge -useContext +onlyGivenNames x5
    extract_lets -underBinder -merge -useContext +onlyGivenNames x6
    extract_lets -underBinder -merge -useContext +onlyGivenNames x7
    extract_lets -underBinder -merge -useContext +onlyGivenNames x8
    refine State.countAcc_keeps _ ?_ _ _ _
    refine State.setCore_keeps _ ?_ _ _
    exact hs

theorem execSumqAccumulate_keeps {s₀ : State} (c : Core) (bad : Bool) (s : State) (hs : Keeps s₀ s) :
    InOut (Keeps s₀) (execSumqAccumulate c bad s) := by
  unfold execSumqAccumulate
  extract_lets -underBinder -merge -useContext +onlyGivenNames x1
  refine pred_ite ?_ ?_
  · refine InOut.next ?_
    exact hs
  · split
    · refine pred_ite ?_ ?_
      · extract_lets -underBinder -merge -useContext +onlyGivenNames x4
        have h4 : Keeps s₀ x4 := by
          unfold x4
          refine State.setCore_keeps _ ?_ _ _
          exact hs
        extract_lets -underBinder -merge -useContext +onlyGivenNames x5
        have h5 : Keeps s₀ x5 := by
          unfold x5
          refine pred_ite ?_ ?_
          · refine State.qPoison_keeps _ ?_ _ _
            exact h4
          · exact h4
        refine InOut.next ?_
        refine State.prefetch_keeps _ ?_ _
        refine State.advance_keeps _ ?_ _
        refine State.addSums_keeps _ ?_ _ _ _
        exact h5
      · refine InOut.next ?_
        exact hs
    · extract_lets -underBinder -merge -useContext +onlyGivenNames x7
      extract_lets -underBinder -merge -useContext +onlyGivenNames x8
      have h8 : Keeps s₀ x8 := by
        unfold x8
        refine State.underrun_keeps _ ?_ _ _
        exact hs
      refine InOut.next ?_
      refine pred_ite ?_ ?_
      · refine State.addSums_keeps _ ?_ _ _ _
        exact h8
      · exact h8

theorem execTileInit_keeps {s₀ : State} (c : Core) (s : State) (hs : Keeps s₀ s) :
    InOut (Keeps s₀) (execTileInit c s) := by
  unfold execTileInit
  extract_lets -underBinder -merge -useContext +onlyGivenNames x1
  split
  · refine InOut.next ?_
    exact hs
  · split
    · refine InOut.next ?_
      exact hs
    · split
      · refine InOut.next ?_
        exact hs
      · refine pred_ite ?_ ?_
        · refine InOut.next ?_
          exact hs
        · extract_lets -underBinder -merge -useContext +onlyGivenNames x9
          extract_lets -underBinder -merge -useContext +onlyGivenNames x10
          extract_lets -underBinder -merge -useContext +onlyGivenNames x11
          extract_lets -underBinder -merge -useContext +onlyGivenNames x12
          extract_lets -underBinder -merge -useContext +onlyGivenNames x13
          extract_lets -underBinder -merge -useContext +onlyGivenNames x14
          extract_lets -underBinder -merge -useContext +onlyGivenNames x15
          extract_lets -underBinder -merge -useContext +onlyGivenNames x16
          extract_lets -underBinder -merge -useContext +onlyGivenNames x17
          have h17 : Keeps s₀ x17 := by
            unfold x17
            refine State.setCore_keeps _ ?_ _ _
            exact hs
          extract_lets -underBinder -merge -useContext +onlyGivenNames x18
          have h18 : Keeps s₀ x18 := by
            unfold x18
            refine State.clearFlags_keeps _ ?_ _ _
            exact h17
          extract_lets -underBinder -merge -useContext +onlyGivenNames x19
          have h19 : Keeps s₀ x19 := by
            unfold x19
            refine pred_ite ?_ ?_
            · refine State.clearFlags_keeps _ ?_ _ _
              exact h18
            · exact h18
          extract_lets -underBinder -merge -useContext +onlyGivenNames x20
          have h20 : Keeps s₀ x20 := by
            unfold x20
            refine State.countAcc_keeps _ ?_ _ _ _
            refine State.flagTile_keeps _ ?_ _ _ _ _ _
            exact h19
          extract_lets -underBinder -merge -useContext +onlyGivenNames x21
          have h21 : Keeps s₀ x21 := by
            unfold x21
            refine State.feedElems_keeps _ ?_ _ _
            exact h20
          extract_lets -underBinder -merge -useContext +onlyGivenNames x22
          have h22 : Keeps s₀ x22 := by
            unfold x22
            refine State.countReadsOnce_keeps _ ?_ _ _ _ _ _
            exact h21
          extract_lets -underBinder -merge -useContext +onlyGivenNames x23
          have h23 : Keeps s₀ x23 := by
            unfold x23
            refine State.count_keeps _ ?_ _ _ _ _
            refine State.count_keeps _ ?_ _ _ _ _
            exact h22
          refine InOut.next ?_
          refine State.advance_keeps _ ?_ _
          exact h23

theorem execWavefront_keeps {s₀ : State} (c : Core) (bad : Bool) (s : State) (hs : Keeps s₀ s) :
    InOut (Keeps s₀) (execWavefront c bad s) := by
  unfold execWavefront
  extract_lets -underBinder -merge -useContext +onlyGivenNames x1
  refine pred_ite ?_ ?_
  · refine InOut.next ?_
    exact hs
  · split
    · extract_lets -underBinder -merge -useContext +onlyGivenNames x4
      have h4 : Keeps s₀ x4 := by
        unfold x4
        refine State.setCore_keeps _ ?_ _ _
        exact hs
      extract_lets -underBinder -merge -useContext +onlyGivenNames x5
      have h5 : Keeps s₀ x5 := by
        unfold x5
        refine pred_ite ?_ ?_
        · refine State.qPoison_keeps _ ?_ _ _
          exact h4
        · exact h4
      extract_lets -underBinder -merge -useContext +onlyGivenNames x6
      have h6 : Keeps s₀ x6 := by
        unfold x6
        refine State.count_keeps _ ?_ _ _ _ _
        refine State.count_keeps _ ?_ _ _ _ _
        refine State.count_keeps _ ?_ _ _ _ _
        exact h5
      refine InOut.next ?_
      refine State.passWave_keeps _ ?_ _ _ _
      exact h6
    · refine InOut.next ?_
      refine State.passWave_keeps _ ?_ _ _ _
      refine State.underrun_keeps _ ?_ _ _
      exact hs

end Sys2Proof.Machine
end

