-- ==== Sys2Proof/Laws/KeepDrain.lean ====
section
/-! SUPPORT. What the drain keeps (`Keeps`), one lemma for each. -/

namespace Sys2Proof.Machine

open Sys2Proof

theorem State.commitStage_keeps {s₀ : State} (s : State) (hs : Keeps s₀ s) (w : Writer) (badUnits : List Nat) (st : Staging) :
    In1 (Keeps s₀) (State.commitStage s w badUnits st) := by
  unfold State.commitStage
  extract_lets -underBinder -merge -useContext +onlyGivenNames x1
  extract_lets -underBinder -merge -useContext +onlyGivenNames x2
  extract_lets -underBinder -merge -useContext +onlyGivenNames x3
  have h3 : Keeps s₀ x3 := by
    unfold x3
    refine pred_foldl ?_ ?_
    · intro x4 h4 a4
      extract_lets -underBinder -merge -useContext +onlyGivenNames x5
      extract_lets -underBinder -merge -useContext +onlyGivenNames x6
      have h6 : Keeps s₀ x6 := by
        unfold x6
        refine State.put_keeps _ ?_ _ _ _ _
        exact h4
      refine pred_ite ?_ ?_
      · exact h6
      · exact Keeps.upd h6
    · exact hs
  refine In1.mk ?_
  exact h3

theorem State.blockOrder_keeps {s₀ : State} (α : Type) (s : State) (hs : Keeps s₀ s) (asks : α → Bool) (l : List α) :
    In2 (Keeps s₀) (State.blockOrder s asks l) := by
  unfold State.blockOrder
  extract_lets -underBinder -merge -useContext +onlyGivenNames x1
  refine pred_ite ?_ ?_
  · refine In2.mk ?_
    exact hs
  · refine In2.mk ?_
    exact Keeps.draws hs _

theorem State.commitRun_keeps {s₀ : State} (s : State) (hs : Keeps s₀ s) (c : Nat) (ws : List DrqWord)
    (bad : Bool) (r : Nat) : Keeps s₀ (s.commitRun c ws bad r) := by
  unfold State.commitRun
  extract_lets -underBinder -merge -useContext +onlyGivenNames k st upd
  have h : ∀ l, Keeps s₀ (s.commitStage (.die (c / 9)) l st).1 := fun _ =>
    State.commitStage_keeps _ hs _ _ _
  split
  · refine pred_ite (State.setCore_keeps _ (h _) _ _) ?_
    split
    · exact State.setCore_keeps _ (h _) _ _
    · exact hs
  · exact State.setCore_keeps _ (h _) _ _
  · exact hs

theorem State.countSat_keeps {s₀ : State} (s : State) (hs : Keeps s₀ s) (c : Nat) (n : Nat) :
    Keeps s₀ (State.countSat s c n) := by
  unfold State.countSat
  refine State.inc_keeps _ ?_ _ _
  exact hs

theorem State.countOvertop_keeps {s₀ : State} (s : State) (hs : Keeps s₀ s) (c : Nat) :
    Keeps s₀ (State.countOvertop s c) := by
  unfold State.countOvertop
  extract_lets -underBinder -merge -useContext +onlyGivenNames x1
  refine State.count_keeps _ ?_ _ _ _ _
  refine State.incThr_keeps _ ?_ _ _ _ _ _ _
  exact hs

theorem State.spillAlloc_keeps {s₀ : State} (s : State) (hs : Keeps s₀ s) (w : Writer) (d : Desc) :
    In2 (Keeps s₀) (State.spillAlloc s w d) := by
  unfold State.spillAlloc
  extract_lets -underBinder -merge -useContext +onlyGivenNames x1
  extract_lets -underBinder -merge -useContext +onlyGivenNames x2
  refine pred_ite ?_ ?_
  · refine In2.mk ?_
    refine State.put_keeps _ ?_ _ _ _ _
    exact hs
  · refine In2.mk ?_
    exact hs

theorem State.convertBlock_keeps {s₀ : State} (s : State) (hs : Keeps s₀ s) (c : Nat) (w : Writer) (d : Desc) (ctl : CvtCtl) (room : Bool) (vals : List Num) (bad : Bool) (st : Staging) :
    In221 (Keeps s₀) (State.convertBlock s c w d ctl room vals bad st) := by
  unfold State.convertBlock
  extract_lets -underBinder -merge -useContext +onlyGivenNames x1
  extract_lets -underBinder -merge -useContext +onlyGivenNames x2
  have h2 : Keeps s₀ x2 := by
    unfold x2
    refine pred_ite ?_ ?_
    · exact Keeps.draws hs _
    · exact hs
  refine pred_ite ?_ ?_
  · refine In221.mk ?_
    refine In21.mk ?_
    refine In1.mk ?_
    refine State.countSat_keeps _ ?_ _ _
    exact h2
  · extract_lets -underBinder -merge -useContext +onlyGivenNames x3
    have h3 : Keeps s₀ x3 := by
      unfold x3
      refine State.countOvertop_keeps _ ?_ _
      exact h2
    extract_lets -underBinder -merge -useContext +onlyGivenNames x4
    have h5 : In2 (Keeps s₀) (if (!ctl.clamp && x4) = Bool.true then x3.spillAlloc w d else (Option.none, x3)) := by
      refine pred_ite ?_ ?_
      · refine State.spillAlloc_keeps _ ?_ _ _
        exact h3
      · refine In2.mk ?_
        exact h3
    generalize (if (!ctl.clamp && x4) = Bool.true then x3.spillAlloc w d else (Option.none, x3)) = z5 at h5 ⊢
    split
    · split
      · extract_lets -underBinder -merge -useContext +onlyGivenNames x9
        extract_lets -underBinder -merge -useContext +onlyGivenNames x10
        have h10 : Keeps s₀ x10 := by
          unfold x10
          refine pred_ite ?_ ?_
          · exact Keeps.draws h5 _
          · exact h5
        extract_lets -underBinder -merge -useContext +onlyGivenNames x11
        refine In221.mk ?_
        refine In21.mk ?_
        refine In1.mk ?_
        refine State.countSat_keeps _ ?_ _ _
        exact h10
      · extract_lets -underBinder -merge -useContext +onlyGivenNames x13
        have h13 : Keeps s₀ x13 := by
          unfold x13
          refine pred_ite ?_ ?_
          · exact h5
          · refine State.inc_keeps _ ?_ _ _
            exact h5
        refine pred_ite ?_ ?_
        · refine In221.mk ?_
          refine In21.mk ?_
          refine In1.mk ?_
          exact h13
        · refine In221.mk ?_
          refine In21.mk ?_
          refine In1.mk ?_
          refine State.countSat_keeps _ ?_ _ _
          exact h13

theorem State.countNonfin_keeps {s₀ : State} (s : State) (hs : Keeps s₀ s) (c : Nat) (n : Nat) :
    Keeps s₀ (State.countNonfin s c n) := by
  unfold State.countNonfin
  refine State.inc_keeps _ ?_ _ _
  exact hs

theorem State.convertPlain_keeps {s₀ : State} (s : State) (hs : Keeps s₀ s) (c : Nat) (f : ElemFmt) (ctl : CvtCtl) (v : OutVal) :
    In2 (Keeps s₀) (State.convertPlain s c f ctl v) := by
  unfold State.convertPlain
  extract_lets -underBinder -merge -useContext +onlyGivenNames x1
  extract_lets -underBinder -merge -useContext +onlyGivenNames x2
  extract_lets -underBinder -merge -useContext +onlyGivenNames x3
  have h3 : Keeps s₀ x3 := by
    unfold x3
    refine pred_ite ?_ ?_
    · exact Keeps.draws hs _
    · exact hs
  extract_lets -underBinder -merge -useContext +onlyGivenNames x4
  refine In2.mk ?_
  refine State.countNonfin_keeps _ ?_ _ _
  refine State.countSat_keeps _ ?_ _ _
  exact h3

theorem State.crossDrq_keeps {s₀ : State} (s : State) (hs : Keeps s₀ s) (c : Nat) (ws : List DrqWord) (bad : List Bool) :
    Keeps s₀ (State.crossDrq s c ws bad) := by
  unfold State.crossDrq
  refine pred_ite ?_ ?_
  · exact hs
  · extract_lets -underBinder -merge -useContext +onlyGivenNames x1
    extract_lets -underBinder -merge -useContext +onlyGivenNames x2
    extract_lets -underBinder -merge -useContext +onlyGivenNames x3
    extract_lets -underBinder -merge -useContext +onlyGivenNames x4
    have h4 : Keeps s₀ x4 := by
      unfold x4
      refine State.poisonWords_keeps _ ?_ _ _ _ _
      exact hs
    extract_lets -underBinder -merge -useContext +onlyGivenNames x5 x6
    have h6 : Keeps s₀ x6 := by
      unfold x6
      refine State.setCore_keeps _ ?_ _ _
      exact h4
    extract_lets -underBinder -merge -useContext +onlyGivenNames x7
    extract_lets -underBinder -merge -useContext +onlyGivenNames x8
    have h8 : Keeps s₀ x8 := by
      unfold x8
      refine pred_foldl ?_ ?_
      · intro x9 h9 a9
        refine State.commitRun_keeps _ ?_ _ _ _ _
        exact h9
      · exact h6
    refine pred_ite ?_ ?_
    · refine State.setReg_keeps _ ?_ _ _
      exact h8
    · exact h8

theorem State.drainLane_keeps {s₀ : State} (s : State) (hs : Keeps s₀ s) (c : Nat) (v : IssueEnv) (d : DrainTile) (o : Desc) (w : Nat) (buf : SMap (Option OutVal)) :
    In1 (Keeps s₀) (State.drainLane s c v d o w buf) := by
  unfold State.drainLane
  extract_lets -underBinder -merge -useContext +onlyGivenNames x1
  extract_lets -underBinder -merge -useContext +onlyGivenNames x2
  refine pred_foldl ?_ ?_
  · intro x3 h3 a3
    extract_lets -underBinder -merge -useContext +onlyGivenNames x4
    refine pred_ite ?_ ?_
    · extract_lets -underBinder -merge -useContext +onlyGivenNames x5
      refine In1.mk ?_
      refine State.countNonfin_keeps _ ?_ _ _
      exact h3.out
    · refine In1.mk ?_
      exact h3.out
  · refine In1.mk ?_
    exact hs

theorem State.writeBlock_keeps {s₀ : State} (s : State) (hs : Keeps s₀ s) (c : Nat) (w : Writer) (m : RunMop) (o : Desc) (ctl : CvtCtl) (buf : SMap (Option OutVal)) (ix : List Nat) (st : Staging) :
    In1 (Keeps s₀) (State.writeBlock s c w m o ctl buf ix st) := by
  unfold State.writeBlock
  extract_lets -underBinder -merge -useContext +onlyGivenNames x1
  extract_lets -underBinder -merge -useContext +onlyGivenNames x2
  refine pred_ite ?_ ?_
  · refine In1.mk ?_
    exact hs
  · extract_lets -underBinder -merge -useContext +onlyGivenNames x3
    extract_lets -underBinder -merge -useContext +onlyGivenNames x4
    have h5 : In221 (Keeps s₀) (s.convertBlock c w o ctl (o.ptrRoom ix) x3 x4 st) := by
      refine State.convertBlock_keeps _ ?_ _ _ _ _ _ _ _ _
      exact hs
    generalize (s.convertBlock c w o ctl (o.ptrRoom ix) x3 x4 st) = z5 at h5 ⊢
    split
    · extract_lets -underBinder -merge -useContext +onlyGivenNames x10
      refine In1.mk ?_
      exact h5

theorem State.writeDense_keeps {s₀ : State} (s : State) (hs : Keeps s₀ s) (c : Nat) (w : Writer) (m : RunMop) (o : Desc) (ctl : CvtCtl) (buf : SMap (Option OutVal)) (places : List (Nat × Nat)) (st : Staging) :
    In1 (Keeps s₀) (State.writeDense s c w m o ctl buf places st) := by
  unfold State.writeDense
  refine pred_ite ?_ ?_
  · extract_lets -underBinder -merge -useContext +onlyGivenNames x1
    extract_lets -underBinder -merge -useContext +onlyGivenNames x2
    have h2 : In2 (Keeps s₀) x2 := by
      unfold x2
      refine State.blockOrder_keeps _ _ ?_ _ _
      exact hs
    refine pred_foldl ?_ ?_
    · intro x3 h3 a3
      refine State.writeBlock_keeps _ ?_ _ _ _ _ _ _ _ _
      exact h3.out
    · refine In1.mk ?_
      exact h2.out
  · refine pred_foldl ?_ ?_
    · intro x4 h4 a4
      split
      · exact h4
      · extract_lets -underBinder -merge -useContext +onlyGivenNames x7
        have h7 : In2 (Keeps s₀) x7 := by
          unfold x7
          refine State.convertPlain_keeps _ ?_ _ _ _ _
          exact h4.out
        extract_lets -underBinder -merge -useContext +onlyGivenNames x8
        refine In1.mk ?_
        exact h7.out
    · refine In1.mk ?_
      exact hs

theorem State.drainLanes_keeps {s₀ : State} (s : State) (hs : Keeps s₀ s) (c : Nat) (v : IssueEnv) (d : DrainTile) (st : Staging) :
    In1 (Keeps s₀) (State.drainLanes s c v d st) := by
  unfold State.drainLanes
  extract_lets -underBinder -merge -useContext +onlyGivenNames x1
  refine pred_foldl ?_ ?_
  · intro x2 h2 a2
    split
    · exact h2
    · rename_i p4 e0
      extract_lets -underBinder -merge -useContext +onlyGivenNames x5
      have h6 : In1 (Keeps s₀) (x2.1.drainLane c v d p4 a2.2 (x5.outBuf.getD a2.1 [])) := by
        refine State.drainLane_keeps _ ?_ _ _ _ _ _ _
        exact h2.out
      generalize (x2.1.drainLane c v d p4 a2.2 (x5.outBuf.getD a2.1 [])) = z6 at h6 ⊢
      split
      · rename_i p7 p8 p9
        extract_lets -underBinder -merge -useContext +onlyGivenNames x10
        have h11 : In1 (Keeps s₀) (if p4.cfmt = CFmt.dns then   p7.writeDense c x1 x5 p4 x10 p8 d.places (stagePadding p7.mem x5 p4 d.t.x d.t.y x2.2.2.1) else (p7, x2.2.2.1)) := by
          refine pred_ite ?_ ?_
          · refine State.writeDense_keeps _ ?_ _ _ _ _ _ _ _ _
            exact h6
          · refine In1.mk ?_
            exact h6
        generalize (if p4.cfmt = CFmt.dns then   p7.writeDense c x1 x5 p4 x10 p8 d.places (stagePadding p7.mem x5 p4 d.t.x d.t.y x2.2.2.1) else (p7, x2.2.2.1)) = z11 at h11 ⊢
        split
        · refine In1.mk ?_
          exact h11
  · refine In1.mk ?_
    exact hs

theorem State.drainStats_keeps {s₀ : State} (s : State) (hs : Keeps s₀ s) (c : Nat) (d : DrainTile) (st : Staging) :
    In1 (Keeps s₀) (State.drainStats s c d st) := by
  unfold State.drainStats
  refine pred_ite ?_ ?_
  · refine In1.mk ?_
    exact hs
  · split
    · refine In1.mk ?_
      exact hs
    · extract_lets -underBinder -merge -useContext +onlyGivenNames x3
      extract_lets -underBinder -merge -useContext +onlyGivenNames x4
      extract_lets -underBinder -merge -useContext +onlyGivenNames x5
      extract_lets -underBinder -merge -useContext +onlyGivenNames x6
      extract_lets -underBinder -merge -useContext +onlyGivenNames x7
      extract_lets -underBinder -merge -useContext +onlyGivenNames x8
      refine pred_foldl ?_ ?_
      · intro x9 h9 a9
        extract_lets -underBinder -merge -useContext +onlyGivenNames x10
        split
        · extract_lets -underBinder -merge -useContext +onlyGivenNames x13
          extract_lets -underBinder -merge -useContext +onlyGivenNames x14
          extract_lets -underBinder -merge -useContext +onlyGivenNames x15
          extract_lets -underBinder -merge -useContext +onlyGivenNames x16
          extract_lets -underBinder -merge -useContext +onlyGivenNames x17
          extract_lets -underBinder -merge -useContext +onlyGivenNames x18
          extract_lets -underBinder -merge -useContext +onlyGivenNames x19
          refine In1.mk ?_
          refine State.count_keeps _ ?_ _ _ _ _
          refine State.countNonfin_keeps _ ?_ _ _
          exact h9.out
      · refine In1.mk ?_
        exact hs

theorem State.passScratch_keeps {s₀ : State} (s : State) (hs : Keeps s₀ s) (c : Nat) (m : RunMop) (x : Nat) :
    Keeps s₀ (State.passScratch s c m x) := by
  unfold State.passScratch
  extract_lets -underBinder -merge -useContext +onlyGivenNames x1
  split
  · exact hs
  · split
    · exact hs
    · extract_lets -underBinder -merge -useContext +onlyGivenNames x7
      extract_lets -underBinder -merge -useContext +onlyGivenNames x8
      refine State.put_keeps _ ?_ _ _ _ _
      exact Keeps.draws hs _

theorem State.writeSlots_keeps {s₀ : State} (s : State) (hs : Keeps s₀ s) (c : Nat) (w : Writer) (o : Desc) (ctl : CvtCtl) (vals : SMap (Option OutVal)) (st : Staging) :
    In1 (Keeps s₀) (State.writeSlots s c w o ctl vals st) := by
  unfold State.writeSlots
  refine pred_ite ?_ ?_
  · extract_lets -underBinder -merge -useContext +onlyGivenNames x1
    extract_lets -underBinder -merge -useContext +onlyGivenNames x2
    have h2 : In2 (Keeps s₀) x2 := by
      unfold x2
      refine State.blockOrder_keeps _ _ ?_ _ _
      exact hs
    refine pred_foldl ?_ ?_
    · intro x3 h3 a3
      extract_lets -underBinder -merge -useContext +onlyGivenNames x4
      extract_lets -underBinder -merge -useContext +onlyGivenNames x5
      have h6 : In221 (Keeps s₀) (x3.1.convertBlock c w o ctl Bool.true (List.map OutVal.x x4) x5 x3.2) := by
        refine State.convertBlock_keeps _ ?_ _ _ _ _ _ _ _ _
        exact h3.out
      generalize (x3.1.convertBlock c w o ctl Bool.true (List.map OutVal.x x4) x5 x3.2) = z6 at h6 ⊢
      split
      · extract_lets -underBinder -merge -useContext +onlyGivenNames x11
        refine In1.mk ?_
        exact h6
    · refine In1.mk ?_
      exact h2.out
  · refine pred_foldl ?_ ?_
    · intro x12 h12 a12
      split
      · exact h12
      · extract_lets -underBinder -merge -useContext +onlyGivenNames x15
        have h15 : In2 (Keeps s₀) x15 := by
          unfold x15
          refine State.convertPlain_keeps _ ?_ _ _ _ _
          exact h12.out
        refine In1.mk ?_
        exact h15.out
    · refine In1.mk ?_
      exact hs

theorem State.writeSampled_keeps {s₀ : State} (s : State) (hs : Keeps s₀ s) (c : Nat) (w : Writer) (m : RunMop) (sd : Desc) (o : Desc) (ctl : CvtCtl) (buf : SMap (Option OutVal)) (st : Staging) :
    In1 (Keeps s₀) (State.writeSampled s c w m sd o ctl buf st) := by
  unfold State.writeSampled
  extract_lets -underBinder -merge -useContext +onlyGivenNames x1
  extract_lets -underBinder -merge -useContext +onlyGivenNames x2
  extract_lets -underBinder -merge -useContext +onlyGivenNames x3
  extract_lets -underBinder -merge -useContext +onlyGivenNames x4
  extract_lets -underBinder -merge -useContext +onlyGivenNames x5
  extract_lets -underBinder -merge -useContext +onlyGivenNames x6
  extract_lets -underBinder -merge -useContext +onlyGivenNames x7
  extract_lets -underBinder -merge -useContext +onlyGivenNames x8
  extract_lets -underBinder -merge -useContext +onlyGivenNames x9
  have h9 : In1 (Keeps s₀) x9 := by
    unfold x9
    refine State.writeSlots_keeps _ ?_ _ _ _ _ _ _
    exact hs
  refine In1.mk ?_
  refine State.inc_keeps _ ?_ _ _
  exact h9.out

theorem State.writeCompressed_keeps {s₀ : State} (s : State) (hs : Keeps s₀ s) (c : Nat) (w : Writer) (o : Desc) (ctl : CvtCtl) (rows : Stored) (st : Staging) :
    In1 (Keeps s₀) (State.writeCompressed s c w o ctl rows st) := by
  unfold State.writeCompressed
  extract_lets -underBinder -merge -useContext +onlyGivenNames x1
  extract_lets -underBinder -merge -useContext +onlyGivenNames x2
  have h2 : ∀ x3 : State, Keeps s₀ x3 → ∀ x4 : Nat, Keeps s₀ (x2 x3 x4) := by
    unfold x2
    intro x3 h3 x4
    try beta_reduce
    refine State.inc_keeps _ ?_ _ _
    exact h3
  split
  · extract_lets -underBinder -merge -useContext +onlyGivenNames x6
    extract_lets -underBinder -merge -useContext +onlyGivenNames x7
    extract_lets -underBinder -merge -useContext +onlyGivenNames x8
    extract_lets -underBinder -merge -useContext +onlyGivenNames x9
    extract_lets -underBinder -merge -useContext +onlyGivenNames x10
    extract_lets -underBinder -merge -useContext +onlyGivenNames x11
    refine In1.mk ?_
    refine h2 _ ?_ _
    refine In1.out ?_
    refine State.writeSlots_keeps _ ?_ _ _ _ _ _ _
    exact hs
  · split
    · extract_lets -underBinder -merge -useContext +onlyGivenNames x15
      extract_lets -underBinder -merge -useContext +onlyGivenNames x16
      extract_lets -underBinder -merge -useContext +onlyGivenNames x17
      extract_lets -underBinder -merge -useContext +onlyGivenNames x18
      have h18 : In1 (Keeps s₀) x18 := by
        unfold x18
        refine State.writeSlots_keeps _ ?_ _ _ _ _ _ _
        exact hs
      refine In1.mk ?_
      refine h2 _ ?_ _
      exact h18.out

theorem State.finishLanes_keeps {s₀ : State} (s : State) (hs : Keeps s₀ s) (c : Nat) (m : RunMop) (st : Staging) :
    In1 (Keeps s₀) (State.finishLanes s c m st) := by
  unfold State.finishLanes
  extract_lets -underBinder -merge -useContext +onlyGivenNames x1
  refine pred_foldl ?_ ?_
  · intro x2 h2 a2
    split
    · exact h2
    · extract_lets -underBinder -merge -useContext +onlyGivenNames x5
      extract_lets -underBinder -merge -useContext +onlyGivenNames x6
      refine pred_ite ?_ ?_
      · exact h2
      · refine pred_ite ?_ ?_
        · split
          · refine State.writeSampled_keeps _ ?_ _ _ _ _ _ _ _ _
            exact h2.out
          · exact h2
        · refine State.writeCompressed_keeps _ ?_ _ _ _ _ _ _
          exact h2.out
  · refine In1.mk ?_
    exact hs

theorem State.drainTile_keeps {s₀ : State} (s : State) (hs : Keeps s₀ s) (c : Nat) (m : RunMop) (prev : Bool) (slot : Nat) (t : Tile) (bad : List Bool) :
    Keeps s₀ (State.drainTile s c m prev slot t bad) := by
  unfold State.drainTile
  extract_lets -underBinder -merge -useContext +onlyGivenNames x1
  extract_lets -underBinder -merge -useContext +onlyGivenNames x2
  extract_lets -underBinder -merge -useContext +onlyGivenNames x3
  extract_lets -underBinder -merge -useContext +onlyGivenNames x4
  extract_lets -underBinder -merge -useContext +onlyGivenNames x5
  have h5 : Keeps s₀ x5 := by
    unfold x5
    refine State.countAcc_keeps _ ?_ _ _ _
    refine State.flagTile_keeps _ ?_ _ _ _ _ _
    exact hs
  extract_lets -underBinder -merge -useContext +onlyGivenNames x6
  extract_lets -underBinder -merge -useContext +onlyGivenNames x7
  extract_lets -underBinder -merge -useContext +onlyGivenNames x8
  extract_lets -underBinder -merge -useContext +onlyGivenNames x9
  extract_lets -underBinder -merge -useContext +onlyGivenNames x10 x11
  extract_lets -underBinder -merge -useContext +onlyGivenNames x12
  extract_lets -underBinder -merge -useContext +onlyGivenNames x13
  extract_lets -underBinder -merge -useContext +onlyGivenNames x14
  extract_lets -underBinder -merge -useContext +onlyGivenNames x15
  extract_lets -underBinder -merge -useContext +onlyGivenNames x16
  have h16 : Keeps s₀ x16 := by
    unfold x16
    refine State.readElems_keeps _ ?_ _
    exact h5
  have h17 : In1 (Keeps s₀) (x16.drainLanes c x11 x9 []) := by
    refine State.drainLanes_keeps _ ?_ _ _ _ _
    exact h16
  generalize (x16.drainLanes c x11 x9 []) = z17 at h17 ⊢
  split
  · rename_i p18 p19 p20 p21
    have h22 : In1 (Keeps s₀) (p18.drainStats c x9 p20) := by
      refine State.drainStats_keeps _ ?_ _ _ _
      exact h17
    generalize (p18.drainStats c x9 p20) = z22 at h22 ⊢
    split
    · rename_i p23 p24 p25
      extract_lets -underBinder -merge -useContext +onlyGivenNames x26
      extract_lets -underBinder -merge -useContext +onlyGivenNames x27
      extract_lets -underBinder -merge -useContext +onlyGivenNames x28
      extract_lets -underBinder -merge -useContext +onlyGivenNames x29
      extract_lets -underBinder -merge -useContext +onlyGivenNames x30
      have h30 : Keeps s₀ x30 := by
        unfold x30
        refine pred_ite ?_ ?_
        · refine State.passScratch_keeps _ ?_ _ _ _
          exact h22
        · exact h22
      have h31 : In1 (Keeps s₀) (if (x28.walked && x28.drainQ.isEmpty) = Bool.true then x30.finishLanes c x28 p24 else (x30, p24)) := by
        refine pred_ite ?_ ?_
        · refine State.finishLanes_keeps _ ?_ _ _ _
          exact h30
        · refine In1.mk ?_
          exact h30
      generalize (if (x28.walked && x28.drainQ.isEmpty) = Bool.true then x30.finishLanes c x28 p24 else (x30, p24)) = z31 at h31 ⊢
      split
      · extract_lets -underBinder -merge -useContext +onlyGivenNames x34
        extract_lets -underBinder -merge -useContext +onlyGivenNames x35
        extract_lets -underBinder -merge -useContext +onlyGivenNames x36
        extract_lets -underBinder -merge -useContext +onlyGivenNames x37
        extract_lets -underBinder -merge -useContext +onlyGivenNames x38
        extract_lets -underBinder -merge -useContext +onlyGivenNames x39
        extract_lets -underBinder -merge -useContext +onlyGivenNames x40
        extract_lets -underBinder -merge -useContext +onlyGivenNames x41
        extract_lets -underBinder -merge -useContext +onlyGivenNames x42
        extract_lets -underBinder -merge -useContext +onlyGivenNames x43
        have h43 : Keeps s₀ x43 := by
          unfold x43
          refine State.flagTile_keeps _ ?_ _ _ _ _ _
          refine State.setCore_keeps _ ?_ _ _
          exact h31
        extract_lets -underBinder -merge -useContext +onlyGivenNames x44
        extract_lets -underBinder -merge -useContext +onlyGivenNames x45
        have h45 : Keeps s₀ x45 := by
          unfold x45
          refine State.setReg_keeps _ ?_ _ _
          exact h43
        extract_lets -underBinder -merge -useContext +onlyGivenNames x46
        have h46 : Keeps s₀ x46 := by
          unfold x46
          refine State.count_keeps _ ?_ _ _ _ _
          refine State.count_keeps _ ?_ _ _ _ _
          refine State.count_keeps _ ?_ _ _ _ _
          exact h45
        refine State.prefetch_keeps _ ?_ _
        refine State.advance_keeps _ ?_ _
        refine State.crossDrq_keeps _ ?_ _ _ _
        exact h46

theorem State.drainNext_keeps {s₀ : State} (s : State) (hs : Keeps s₀ s) (c : Nat) (bad : List Bool) :
    Keeps s₀ (State.drainNext s c bad) := by
  unfold State.drainNext
  extract_lets -underBinder -merge -useContext +onlyGivenNames x1
  split
  · exact hs
  · split
    · exact hs
    · split
      · exact hs
      · refine pred_ite ?_ ?_
        · refine State.drainTile_keeps _ ?_ _ _ _ _ _ _
          exact hs
        · exact hs

theorem execAuditRowReport_keeps {s₀ : State} (c : Core) (s : State) (hs : Keeps s₀ s) :
    InOut (Keeps s₀) (execAuditRowReport c s) := by
  unfold execAuditRowReport
  extract_lets -underBinder -merge -useContext +onlyGivenNames x1
  extract_lets -underBinder -merge -useContext +onlyGivenNames x2
  split
  · refine InOut.next ?_
    exact hs
  · refine pred_ite ?_ ?_
    · refine InOut.next ?_
      exact hs
    · extract_lets -underBinder -merge -useContext +onlyGivenNames x7
      have h7 : Keeps s₀ x7 := by
        unfold x7
        refine State.setCore_keeps _ ?_ _ _
        exact hs
      extract_lets -underBinder -merge -useContext +onlyGivenNames x8
      have h8 : Keeps s₀ x8 := by
        unfold x8
        refine State.count_keeps _ ?_ _ _ _ _
        refine State.inc_keeps _ ?_ _ _
        exact h7
      refine pred_ite ?_ ?_
      · extract_lets -underBinder -merge -useContext +onlyGivenNames x9
        refine InOut.next ?_
        refine State.count_keeps _ ?_ _ _ _ _
        refine State.incThr_keeps _ ?_ _ _ _ _ _ _
        exact h8
      · refine InOut.next ?_
        exact h8

theorem execTileDrain_keeps {s₀ : State} (rd : CoreRead) (s : State) (hs : Keeps s₀ s) :
    InOut (Keeps s₀) (execTileDrain rd s) := by
  unfold execTileDrain
  extract_lets -underBinder -merge -useContext +onlyGivenNames x1
  extract_lets -underBinder -merge -useContext +onlyGivenNames x2
  extract_lets -underBinder -merge -useContext +onlyGivenNames x3
  extract_lets -underBinder -merge -useContext +onlyGivenNames x4
  have h4 : Keeps s₀ x4 := by
    unfold x4
    refine State.crossDrq_keeps _ ?_ _ _ _
    exact hs
  extract_lets -underBinder -merge -useContext +onlyGivenNames x5
  refine InOut.next ?_
  refine pred_ite ?_ ?_
  · exact h4
  · refine pred_ite ?_ ?_
    · refine State.drainNext_keeps _ ?_ _ _
      exact h4
    · refine pred_ite ?_ ?_
      · refine State.idleRead_keeps _ ?_ _ _
        exact hs
      · exact h4

end Sys2Proof.Machine
end

