-- ==== Sys2Proof/Laws/KeepBoot.lean ====
section
/-! SUPPORT. What start-up and flash keep (`Keeps`), one lemma for each. -/

namespace Sys2Proof.Machine

open Sys2Proof

theorem State.applyConfig_keeps {s₀ : State} (s : State) (hs : Keeps s₀ s) (c : Cfg) :
    Keeps s₀ (State.applyConfig s c) := by
  unfold State.applyConfig
  extract_lets -underBinder -merge -useContext +onlyGivenNames x1
  have h1 : Keeps s₀ x1 := by
    unfold x1
    exact Keeps.upd hs
  extract_lets -underBinder -merge -useContext +onlyGivenNames x2
  have h2 : Keeps s₀ x2 := by
    unfold x2
    refine pred_foldl ?_ ?_
    · intro x3 h3 a3
      refine State.setBridge_keeps _ ?_ _ _
      exact h3
    · exact h1
  extract_lets -underBinder -merge -useContext +onlyGivenNames x4
  have h4 : Keeps s₀ x4 := by
    unfold x4
    refine pred_foldl ?_ ?_
    · intro x5 h5 a5
      extract_lets -underBinder -merge -useContext +onlyGivenNames x6
      have h6 : Keeps s₀ x6 := by
        unfold x6
        refine State.setReg_keeps _ ?_ _ _
        refine State.setReg_keeps _ ?_ _ _
        exact h5
      refine pred_ite ?_ ?_
      · exact h6
      · refine State.setReg48_keeps _ ?_ _ _ _
        refine State.setReg48_keeps _ ?_ _ _ _
        exact h6
    · exact h2
  extract_lets -underBinder -merge -useContext +onlyGivenNames x7
  have h7 : Keeps s₀ x7 := by
    unfold x7
    refine pred_foldl ?_ ?_
    · intro x8 h8 a8
      refine State.setRegF_keeps _ ?_ _ _ _ _
      exact h8
    · exact h4
  extract_lets -underBinder -merge -useContext +onlyGivenNames x9
  have h9 : Keeps s₀ x9 := by
    unfold x9
    refine State.setReg48_keeps _ ?_ _ _ _
    exact h7
  extract_lets -underBinder -merge -useContext +onlyGivenNames x10
  have h10 : Keeps s₀ x10 := by
    unfold x10
    refine State.setReg48_keeps _ ?_ _ _ _
    exact h9
  extract_lets -underBinder -merge -useContext +onlyGivenNames x11
  have h11 : Keeps s₀ x11 := by
    unfold x11
    refine State.setReg48_keeps _ ?_ _ _ _
    exact h10
  extract_lets -underBinder -merge -useContext +onlyGivenNames x12
  have h12 : Keeps s₀ x12 := by
    unfold x12
    refine State.setReg48_keeps _ ?_ _ _ _
    exact h11
  extract_lets -underBinder -merge -useContext +onlyGivenNames x13
  have h13 : Keeps s₀ x13 := by
    unfold x13
    refine State.setReg48_keeps _ ?_ _ _ _
    exact h12
  extract_lets -underBinder -merge -useContext +onlyGivenNames x14
  have h14 : Keeps s₀ x14 := by
    unfold x14
    refine State.setReg_keeps _ ?_ _ _
    exact h13
  extract_lets -underBinder -merge -useContext +onlyGivenNames x15
  have h15 : Keeps s₀ x15 := by
    unfold x15
    refine pred_foldl ?_ ?_
    · intro x16 h16 a16
      refine State.setReg_keeps _ ?_ _ _
      exact h16
    · exact h14
  extract_lets -underBinder -merge -useContext +onlyGivenNames x17
  have h17 : Keeps s₀ x17 := by
    unfold x17
    refine pred_foldl ?_ ?_
    · intro x18 h18 a18
      refine State.setRegF_keeps _ ?_ _ _ _ _
      exact h18
    · exact h15
  refine State.setRegF_keeps _ ?_ _ _ _ _
  exact h17

theorem State.setWords_keeps {s₀ : State} (s : State) (hs : Keeps s₀ s) (a : Nat) (bytes : List Byte) :
    Keeps s₀ (State.setWords s a bytes) := by
  unfold State.setWords
  refine pred_foldl ?_ ?_
  · intro x1 h1 a1
    refine State.setReg_keeps _ ?_ _ _
    exact h1
  · exact hs

theorem State.showOtp_keeps {s₀ : State} (s : State) (hs : Keeps s₀ s) :
    Keeps s₀ (State.showOtp s) := by
  unfold State.showOtp
  extract_lets -underBinder -merge -useContext +onlyGivenNames x1
  extract_lets -underBinder -merge -useContext +onlyGivenNames x2
  have h2 : Keeps s₀ x2 := by
    unfold x2
    refine State.setRegF_keeps _ ?_ _ _ _ _
    exact hs
  extract_lets -underBinder -merge -useContext +onlyGivenNames x3
  have h3 : Keeps s₀ x3 := by
    unfold x3
    refine State.setRegF_keeps _ ?_ _ _ _ _
    exact h2
  extract_lets -underBinder -merge -useContext +onlyGivenNames x4
  have h4 : Keeps s₀ x4 := by
    unfold x4
    refine State.setRegF_keeps _ ?_ _ _ _ _
    exact h3
  split
  · refine State.setWords_keeps _ ?_ _ _
    refine State.setRegF_keeps _ ?_ _ _ _ _
    exact h4
  · exact h4

theorem State.bootFail_keeps {s₀ : State} (s : State) (hs : Keeps s₀ s) (cause : Nat) :
    Keeps s₀ (State.bootFail s cause) := by
  unfold State.bootFail
  refine State.setMode_keeps _ ?_ _
  refine State.setRegF_keeps _ ?_ _ _ _ _
  refine State.setRegF_keeps _ ?_ _ _ _ _
  exact hs

theorem State.noteRunning_keeps {s₀ : State} (s : State) (hs : Keeps s₀ s) (kind : Nat) (slot : Nat) :
    Keeps s₀ (State.noteRunning s kind slot) := by
  unfold State.noteRunning
  extract_lets -underBinder -merge -useContext +onlyGivenNames x1
  extract_lets -underBinder -merge -useContext +onlyGivenNames x2
  have h2 : Keeps s₀ x2 := by
    unfold x2
    refine State.setRegF_keeps _ ?_ _ _ _ _
    exact hs
  extract_lets -underBinder -merge -useContext +onlyGivenNames x3
  have h3 : Keeps s₀ x3 := by
    unfold x3
    refine State.setRegF_keeps _ ?_ _ _ _ _
    exact h2
  refine State.setRegF_keeps _ ?_ _ _ _ _
  exact h3

theorem State.drawBig_keeps {s₀ : State} (s : State) (hs : Keeps s₀ s) :
    In2 (Keeps s₀) (State.drawBig s) := by
  unfold State.drawBig
  refine In2.mk ?_
  exact Keeps.draws hs _

/-- The identity key is written once. -/
theorem Otp.grows_ident {o : Otp} (h : o.ident = none) (x : Option (Nat × Nat × Nat)) :
    o.Grows { o with ident := x } :=
  ⟨Nat.le_refl _, rfl, fun _ k h p => ⟨k, h, p, rfl⟩, fun _ k h p => ⟨k, h, p⟩, fun _ e => by
    rw [h] at e; cases e⟩

theorem State.setIdent_keeps {s₀ : State} (s : State) (hs : Keeps s₀ s) (hn : s.otp.ident = none)
    (d : Nat) (x : Option (Nat × Nat)) : Keeps s₀ (s.setIdent d x) := by
  unfold State.setIdent
  split
  · exact hs.program (Otp.grows_ident hn _)
  · exact hs

theorem State.makeIdent_keeps {s₀ : State} (s : State) (hs : Keeps s₀ s) (hn : s.otp.ident = none)
    (n : Nat) : Keeps s₀ (s.makeIdent n) := by
  unfold State.makeIdent
  exact State.setIdent_keeps _ hs hn _ _

theorem State.tryIdent_keeps {s₀ : State} (n : Nat) (s : State) (hs : Keeps s₀ s) (hn : s.otp.ident = none) :
    Keeps s₀ (State.tryIdent n s) := by
  induction n generalizing s with
  | zero => exact hs
  | succ n ih =>
    unfold State.tryIdent
    refine pred_ite (State.makeIdent_keeps _ (State.drawBig_keeps _ hs) hn _) (ih _ ?_ hn)
    exact (State.drawBig_keeps _ hs : Keeps s₀ s.drawBig.2).program
      ⟨Nat.le_refl _, rfl, fun _ k h p => ⟨k, h, p, rfl⟩, fun _ k h p => ⟨k, h, p⟩, fun _ h => h⟩

theorem State.genIdentity_keeps {s₀ : State} (s : State) (hs : Keeps s₀ s) : Keeps s₀ s.genIdentity := by
  unfold State.genIdentity
  split
  · exact hs
  · rename_i h
    exact State.tryIdent_keeps _ _ hs (by simpa using h)

theorem State.trySlot_keeps {s₀ : State} (s : State) (hs : Keeps s₀ s) (kind : Nat) (slot : Nat) :
    In2 (Keeps s₀) (State.trySlot s kind slot) := by
  unfold State.trySlot
  extract_lets -underBinder -merge -useContext +onlyGivenNames x1
  extract_lets -underBinder -merge -useContext +onlyGivenNames x2
  have h2 : Keeps s₀ x2 := by
    unfold x2
    refine State.setWords_keeps _ ?_ _ _
    exact hs
  extract_lets -underBinder -merge -useContext +onlyGivenNames x3
  refine pred_ite ?_ ?_
  · refine In2.mk ?_
    refine State.setRegF_keeps _ ?_ _ _ _ _
    exact h2
  · refine pred_ite ?_ ?_
    · refine In2.mk ?_
      refine State.setRegF_keeps _ ?_ _ _ _ _
      exact h2
    · refine In2.mk ?_
      exact h2

theorem State.findSlot_keeps {s₀ : State} (s : State) (hs : Keeps s₀ s) (kind : Nat) (slot : Nat) :
    In2 (Keeps s₀) (State.findSlot s kind slot) := by
  unfold State.findSlot
  extract_lets -underBinder -merge -useContext +onlyGivenNames x1
  have h1 : In2 (Keeps s₀) x1 := by
    unfold x1
    refine State.trySlot_keeps _ ?_ _ _
    exact hs
  refine pred_ite ?_ ?_
  · refine In2.mk ?_
    exact h1.out
  · extract_lets -underBinder -merge -useContext +onlyGivenNames x2
    have h2 : In2 (Keeps s₀) x2 := by
      unfold x2
      refine State.trySlot_keeps _ ?_ _ _
      exact h1.out
    refine pred_ite ?_ ?_
    · refine In2.mk ?_
      refine State.setRegF_keeps _ ?_ _ _ _ _
      exact h2.out
    · refine In2.mk ?_
      exact h2.out

theorem State.readHealth_keeps {s₀ : State} (s : State) (hs : Keeps s₀ s) :
    Keeps s₀ (State.readHealth s) := by
  unfold State.readHealth
  split
  · refine State.setRegF_keeps _ ?_ _ _ _ _
    exact hs
  · extract_lets -underBinder -merge -useContext +onlyGivenNames x3
    have h3 : Keeps s₀ x3 := by
      unfold x3
      exact Keeps.upd hs
    extract_lets -underBinder -merge -useContext +onlyGivenNames x4
    have h4 : Keeps s₀ x4 := by
      unfold x4
      refine pred_foldl ?_ ?_
      · intro x5 h5 a5
        refine pred_ite ?_ ?_
        · refine State.setCore_keeps _ ?_ _ _
          exact h5
        · exact h5
      · exact h3
    refine pred_foldl ?_ ?_
    · intro x6 h6 a6
      extract_lets -underBinder -merge -useContext +onlyGivenNames x7
      refine State.setChan_keeps _ ?_ _ _
      exact h6
    · exact h4

theorem State.bootRest_keeps {s₀ : State} (s : State) (hs : Keeps s₀ s) (dir : Nat) (fw : Nat) :
    Keeps s₀ (State.bootRest s dir fw) := by
  unfold State.bootRest
  extract_lets -underBinder -merge -useContext +onlyGivenNames x1 x2
  have h1 : Keeps s₀ x1 := by
    unfold x1
    refine State.noteRunning_keeps _ ?_ _ _
    exact hs
  have h2 : Keeps s₀ x2 := by
    unfold x2
    exact Keeps.upd h1
  extract_lets -underBinder -merge -useContext +onlyGivenNames x3
  have h3 : Keeps s₀ x3 := by
    unfold x3
    refine State.showOtp_keeps _ ?_
    refine State.genIdentity_keeps _ ?_
    exact h2
  refine pred_ite ?_ ?_
  · refine State.bootFail_keeps _ ?_ _
    exact h3
  · extract_lets -underBinder -merge -useContext +onlyGivenNames x4
    have h4 : Keeps s₀ x4 := by
      unfold x4
      refine State.setRegF_keeps _ ?_ _ _ _ _
      exact h3
    have h5 : In2 (Keeps s₀) (x4.findSlot 1 (x4.flashLe (dir + 9) 1)) := by
      refine State.findSlot_keeps _ ?_ _ _
      exact h4
    generalize (x4.findSlot 1 (x4.flashLe (dir + 9) 1)) = z5 at h5 ⊢
    split
    · refine State.bootFail_keeps _ ?_ _
      exact h5
    · extract_lets -underBinder -merge -useContext +onlyGivenNames x9 x10
      have h9 : Keeps s₀ x9 := by
        unfold x9
        refine State.noteRunning_keeps _ ?_ _ _
        exact h5
      have h10 : Keeps s₀ x10 := by
        unfold x10
        exact Keeps.upd h9
      extract_lets -underBinder -merge -useContext +onlyGivenNames x11
      have h11 : Keeps s₀ x11 := by
        unfold x11
        refine State.readHealth_keeps _ ?_
        refine State.setRegF_keeps _ ?_ _ _ _ _
        exact h10
      refine pred_ite ?_ ?_
      · refine State.bootFail_keeps _ ?_ _
        exact h11
      · extract_lets -underBinder -merge -useContext +onlyGivenNames x12
        have h12 : Keeps s₀ x12 := by
          unfold x12
          refine State.applyConfig_keeps _ ?_ _
          exact h11
        refine State.setMode_keeps _ ?_ _
        refine State.setRegF_keeps _ ?_ _ _ _ _
        exact h12

theorem State.flashPut_keeps {s₀ : State} (s : State) (hs : Keeps s₀ s) (a : Nat) (bytes : List Byte) :
    Keeps s₀ (State.flashPut s a bytes) := by
  unfold State.flashPut
  exact Keeps.part hs rfl rfl (fun i => ⟨{ i.canonical with flash := flash_wf_write i.canonical.flash _ _ }, i.ring⟩) rfl rfl

theorem State.nameSlot_keeps {s₀ : State} (s : State) (hs : Keeps s₀ s) (kind : Nat) (slot : Nat) :
    Keeps s₀ (State.nameSlot s kind slot) := by
  unfold State.nameSlot
  split
  · extract_lets -underBinder -merge -useContext +onlyGivenNames x2
    refine State.flashPut_keeps _ ?_ _ _
    exact hs
  · refine State.flashPut_keeps _ ?_ _ _
    exact hs

theorem State.flActivate_keeps {s₀ : State} (s : State) (hs : Keeps s₀ s) (kind : Nat) :
    In2 (Keeps s₀) (State.flActivate s kind) := by
  unfold State.flActivate
  split
  · refine In2.mk ?_
    exact hs
  · extract_lets -underBinder -merge -useContext +onlyGivenNames x3
    extract_lets -underBinder -merge -useContext +onlyGivenNames x4
    refine pred_ite ?_ ?_
    · refine In2.mk ?_
      exact hs
    · refine pred_ite ?_ ?_
      · refine In2.mk ?_
        exact hs
      · refine In2.mk ?_
        extract_lets -underBinder -merge -useContext +onlyGivenNames x5
        have h5 : Keeps s₀ x5 := by
          unfold x5
          refine State.nameSlot_keeps _ ?_ _ _
          exact hs
        exact Keeps.upd h5

theorem State.flAdvance_keeps {s₀ : State} (s : State) (hs : Keeps s₀ s) (t : Nat) :
    In2 (Keeps s₀) (s.flAdvance t) := by
  unfold State.flAdvance
  extract_lets -underBinder -merge -useContext +onlyGivenNames named
  split
  · rename_i h
    refine In2.mk (State.showOtp_keeps _ (hs.program ?_))
    exact ⟨Nat.le_of_lt h.1, rfl, fun _ k h p => ⟨k, h, p, rfl⟩, fun _ k h p => ⟨k, h, p⟩, fun _ h => h⟩
  · exact In2.mk hs

theorem State.flErase_keeps {s₀ : State} (s : State) (hs : Keeps s₀ s) (kind : Nat) (off : Nat) :
    In2 (Keeps s₀) (State.flErase s kind off) := by
  unfold State.flErase
  split
  · refine In2.mk ?_
    exact Keeps.part hs rfl rfl (fun i => ⟨{ i.canonical with flash := SMap.wf_filter i.canonical.flash _ }, i.ring⟩) rfl rfl
  · refine In2.mk ?_
    exact hs

theorem State.flKey_keeps {s₀ : State} (s : State) (hs : Keeps s₀ s) (rec : List Byte) :
    In2 (Keeps s₀) (s.flKey rec) := by
  unfold State.flKey
  extract_lets -underBinder -merge -useContext +onlyGivenNames hdr body a tgt k k'
  refine pred_ite (In2.mk hs) ?_
  split
  · exact In2.mk hs
  · rename_i hc
    have hp : k.programmed = false := by simpa using fun e => hc (Or.inr e)
    refine In2.mk (State.showOtp_keeps _ (hs.program ?_))
    refine ⟨Nat.le_refl _, by simp, fun i x h p => ?_, fun i x h p => ?_, fun _ h => h⟩
    · by_cases hi : tgt = i
      · have hk : k = x := by simp [k, hi, h]
        rw [hk, p] at hp
        cases hp
      · exact ⟨x, by simpa [List.getElem?_set_ne hi] using h, p, rfl⟩
    · have hl : i < s.otp.keys.length := (List.getElem?_eq_some_iff.1 h).1
      by_cases hi : tgt = i
      · have hk : k = x := by simp [k, hi, h]
        exact ⟨k', by simp [hi, hl], by simp [k', hk, p]⟩
      · exact ⟨x, by simpa [List.getElem?_set_ne hi] using h, p⟩

theorem State.flRevoke_keeps {s₀ : State} (s : State) (hs : Keeps s₀ s) (rec : List Byte) :
    In2 (Keeps s₀) (s.flRevoke rec) := by
  unfold State.flRevoke
  extract_lets -underBinder -merge -useContext +onlyGivenNames hdr body a tgt rest k
  refine pred_ite (In2.mk hs) (pred_ite (In2.mk hs) (pred_ite (In2.mk hs)
    (pred_ite (In2.mk hs) (In2.mk (State.showOtp_keeps _ (hs.program ?_))))))
  refine ⟨Nat.le_refl _, by simp, fun i x h p => ?_, fun i x h p => ?_, fun _ h => h⟩
  all_goals
    by_cases hi : tgt = i
    · have hk : k = x := by simp [k, hi, h]
      have hl : i < s.otp.keys.length := (List.getElem?_eq_some_iff.1 h).1
      refine ⟨{ k with revoked := true }, by simp [hi, hl], ?_⟩
      simp [hk, p]
    · exact ⟨x, by simpa [List.getElem?_set_ne hi] using h, by simp [p]⟩

theorem State.flashProgram_keeps {s₀ : State} (s : State) (hs : Keeps s₀ s) (a : Nat) (bytes : List Byte) :
    Keeps s₀ (State.flashProgram s a bytes) := by
  unfold State.flashProgram
  extract_lets -underBinder -merge -useContext +onlyGivenNames x1
  exact Keeps.part hs rfl rfl (fun i => ⟨{ i.canonical with flash := flash_wf_write i.canonical.flash _ _ }, i.ring⟩) rfl rfl

theorem State.flWrite_keeps {s₀ : State} (s : State) (hs : Keeps s₀ s) (kind : Nat) (off : Nat) (data : List Byte) :
    In2 (Keeps s₀) (State.flWrite s kind off data) := by
  unfold State.flWrite
  split
  · refine In2.mk ?_
    refine State.flashProgram_keeps _ ?_ _ _
    exact hs
  · refine In2.mk ?_
    exact hs

theorem State.flashOp_keeps {s₀ : State} (s : State) (hs : Keeps s₀ s) (args : Nat) (payload : List Byte) :
    In2 (Keeps s₀) (State.flashOp s args payload) := by
  unfold State.flashOp
  extract_lets -underBinder -merge -useContext +onlyGivenNames x1
  extract_lets -underBinder -merge -useContext +onlyGivenNames x2
  split
  · refine State.flWrite_keeps _ ?_ _ _ _
    exact hs
  · refine State.flErase_keeps _ ?_ _ _
    exact hs
  · refine State.flActivate_keeps _ ?_ _
    exact hs
  · refine State.flAdvance_keeps _ ?_ _
    exact hs
  · refine State.flRevoke_keeps _ ?_ _
    exact hs
  · refine State.flKey_keeps _ ?_ _
    exact hs
  · refine In2.mk ?_
    exact hs

theorem State.report_keeps {s₀ : State} (s : State) (hs : Keeps s₀ s) (nonce : List Byte) :
    In2 (Keeps s₀) (State.report s nonce) := by
  unfold State.report
  extract_lets -underBinder -merge -useContext +onlyGivenNames x1
  extract_lets -underBinder -merge -useContext +onlyGivenNames x2
  have h2 : In2 (Keeps s₀) x2 := by
    unfold x2
    refine State.drawBig_keeps _ ?_
    exact hs
  extract_lets -underBinder -merge -useContext +onlyGivenNames x3
  have h3 : In2 (Keeps s₀) x3 := by
    unfold x3
    refine State.drawBig_keeps _ ?_
    exact h2.out
  extract_lets -underBinder -merge -useContext +onlyGivenNames x4
  refine In2.mk ?_
  refine State.bumpSeq_keeps _ ?_ _
  exact h3.out

theorem State.startLanes_keeps {s₀ : State} (s : State) (hs : Keeps s₀ s) :
    Keeps s₀ (State.startLanes s) := by
  unfold State.startLanes
  refine pred_foldl ?_ ?_
  · intro x1 h1 a1
    refine pred_ite ?_ ?_
    · refine State.incF_keeps _ ?_ _ _ _
      refine State.setRegF_keeps _ ?_ _ _ _ _
      exact h1
    · exact h1
  · exact hs

theorem execBootRomStart_keeps {s₀ : State} (s : State) (hs : Keeps s₀ s) :
    InOut (Keeps s₀) (execBootRomStart s) := by
  unfold execBootRomStart
  refine pred_ite ?_ ?_
  · refine InOut.next ?_
    exact hs
  · extract_lets -underBinder -merge -useContext +onlyGivenNames x1
    have h1 : Keeps s₀ x1 := by
      unfold x1
      refine State.showOtp_keeps _ ?_
      refine State.startLanes_keeps _ ?_
      exact hs
    extract_lets -underBinder -merge -useContext +onlyGivenNames x2
    have h2 : Keeps s₀ x2 := by
      unfold x2
      refine State.setRegF_keeps _ ?_ _ _ _ _
      exact h1
    refine pred_ite ?_ ?_
    · refine InOut.next ?_
      refine State.bootFail_keeps _ ?_ _
      exact h2
    · split
      · refine InOut.next ?_
        refine State.bootFail_keeps _ ?_ _
        exact h2
      · rename_i p4 e0
        extract_lets -underBinder -merge -useContext +onlyGivenNames x5
        have h5 : Keeps s₀ x5 := by
          unfold x5
          refine State.setRegF_keeps _ ?_ _ _ _ _
          exact h2
        have h6 : In2 (Keeps s₀) (x5.findSlot 0 (x5.flashLe (p4 + 8) 1)) := by
          refine State.findSlot_keeps _ ?_ _ _
          exact h5
        generalize (x5.findSlot 0 (x5.flashLe (p4 + 8) 1)) = z6 at h6 ⊢
        split
        · refine InOut.next ?_
          refine State.bootFail_keeps _ ?_ _
          exact h6
        · refine InOut.next ?_
          refine State.bootRest_keeps _ ?_ _ _
          exact h6

theorem execFunctionReady_keeps {s₀ : State} (f : ReadyFn) (s : State) (hs : Keeps s₀ s) :
    InOut (Keeps s₀) (execFunctionReady f s) := by
  unfold execFunctionReady
  extract_lets -underBinder -merge -useContext +onlyGivenNames x1
  refine InOut.next ?_
  refine pred_ite ?_ ?_
  · refine State.setRegF_keeps _ ?_ _ _ _ _
    exact hs
  · exact hs

theorem execHealthAreaWrite_keeps {s₀ : State} (s : State) (hs : Keeps s₀ s) :
    InOut (Keeps s₀) (execHealthAreaWrite s) := by
  unfold execHealthAreaWrite
  refine pred_ite ?_ ?_
  · extract_lets -underBinder -merge -useContext +onlyGivenNames x1
    refine InOut.next ?_
    extract_lets -underBinder -merge -useContext +onlyGivenNames x2
    have h2 : Keeps s₀ x2 := by
      unfold x2
      refine State.flashPut_keeps _ ?_ _ _
      exact hs
    exact Keeps.upd h2
  · refine InOut.next ?_
    exact hs

end Sys2Proof.Machine
end

