-- ==== Sys2Proof/Laws/KeepMemory.lean ====
section
/-! SUPPORT. What near memory, cache and arbitration keep (`Keeps`), one lemma for each. -/

namespace Sys2Proof.Machine

open Sys2Proof

theorem State.countArb_keeps {s₀ : State} (s : State) (hs : Keeps s₀ s) (p : Nat) (losers : List Nat) (w : Nat) (capped : Bool) :
    Keeps s₀ (State.countArb s p losers w capped) := by
  unfold State.countArb
  refine pred_ite ?_ ?_
  · extract_lets -underBinder -merge -useContext +onlyGivenNames x1
    extract_lets -underBinder -merge -useContext +onlyGivenNames x2
    have h2 : Keeps s₀ x2 := by
      unfold x2
      refine pred_foldl ?_ ?_
      · intro x3 h3 a3
        refine State.count_keeps _ ?_ _ _ _ _
        exact h3
      · exact hs
    refine pred_ite ?_ ?_
    · refine State.count_keeps _ ?_ _ _ _ _
      refine State.inc_keeps _ ?_ _ _
      exact h2
    · exact h2
  · extract_lets -underBinder -merge -useContext +onlyGivenNames x4
    extract_lets -underBinder -merge -useContext +onlyGivenNames x5
    have h5 : Keeps s₀ x5 := by
      unfold x5
      refine pred_foldl ?_ ?_
      · intro x6 h6 a6
        refine State.count_keeps _ ?_ _ _ _ _
        exact h6
      · exact hs
    refine pred_ite ?_ ?_
    · refine State.inc_keeps _ ?_ _ _
      exact h5
    · exact h5

theorem State.countRetrain_keeps {s₀ : State} (s : State) (hs : Keeps s₀ s) (ch : Nat) :
    Keeps s₀ (State.countRetrain s ch) := by
  unfold State.countRetrain
  refine State.incF_keeps _ ?_ _ _ _
  exact hs

theorem State.failChan_keeps {s₀ : State} (s : State) (hs : Keeps s₀ s) (ch : Nat) :
    Keeps s₀ (State.failChan s ch) := by
  unfold State.failChan
  refine State.polderLoss_keeps _ ?_ _ _ _ _
  refine State.setRegF_keeps _ ?_ _ _ _ _
  exact hs

theorem State.setWay_keeps {s₀ : State} (s : State) (hs : Keeps s₀ s) (d : Nat) (set : Nat) (way : Nat) (l : Option CacheLine) :
    Keeps s₀ (State.setWay s d set way l) := by
  unfold State.setWay
  extract_lets -underBinder -merge -useContext +onlyGivenNames x1
  refine State.setDie_keeps _ ?_ _ _
  exact hs

theorem State.touchWay_keeps {s₀ : State} (s : State) (hs : Keeps s₀ s) (d : Nat) (set : Nat) (way : Nat) :
    Keeps s₀ (State.touchWay s d set way) := by
  unfold State.touchWay
  extract_lets -underBinder -merge -useContext +onlyGivenNames x1
  extract_lets -underBinder -merge -useContext +onlyGivenNames x2
  refine State.setDie_keeps _ ?_ _ _
  exact hs

theorem State.fillLine_keeps {s₀ : State} (s : State) (hs : Keeps s₀ s) (d : Nat) (req : Nat) (line : Nat) :
    Keeps s₀ (State.fillLine s d req line) := by
  unfold State.fillLine
  extract_lets -underBinder -merge -useContext +onlyGivenNames x1
  extract_lets -underBinder -merge -useContext +onlyGivenNames x2
  extract_lets -underBinder -merge -useContext +onlyGivenNames x3
  have h3 : Keeps s₀ x3 := by
    unfold x3
    refine State.count_keeps _ ?_ _ _ _ _
    refine State.readRange_keeps _ ?_ _ _
    exact hs
  refine pred_ite ?_ ?_
  · exact h3
  · extract_lets -underBinder -merge -useContext +onlyGivenNames x4
    extract_lets -underBinder -merge -useContext +onlyGivenNames x5
    have h5 : Keeps s₀ x5 := by
      unfold x5
      refine State.setWay_keeps _ ?_ _ _ _ _
      exact h3
    refine State.count_keeps _ ?_ _ _ _ _
    refine State.touchWay_keeps _ ?_ _ _ _
    exact h5

theorem State.issueRefresh_keeps {s₀ : State} (s : State) (hs : Keeps s₀ s) (ch : Nat) (n : Nat) :
    Keeps s₀ (State.issueRefresh s ch n) := by
  unfold State.issueRefresh
  refine State.count_keeps _ ?_ _ _ _ _
  refine State.setChan_keeps _ ?_ _ _
  exact hs

theorem State.noteUe_keeps {s₀ : State} (s : State) (hs : Keeps s₀ s) (d : Nat) (off : Nat) :
    Keeps s₀ (State.noteUe s d off) := by
  unfold State.noteUe
  extract_lets -underBinder -merge -useContext +onlyGivenNames x1
  extract_lets -underBinder -merge -useContext +onlyGivenNames x2
  extract_lets -underBinder -merge -useContext +onlyGivenNames x3
  extract_lets -underBinder -merge -useContext +onlyGivenNames x4
  have h4 : Keeps s₀ x4 := by
    unfold x4
    refine State.setDie_keeps _ ?_ _ _
    exact hs
  refine pred_ite ?_ ?_
  · refine State.polderLoss_keeps _ ?_ _ _ _ _
    exact h4
  · exact h4

theorem State.poisonLine_keeps {s₀ : State} (s : State) (hs : Keeps s₀ s) (d : Nat) (off : Nat) :
    Keeps s₀ (State.poisonLine s d off) := by
  unfold State.poisonLine
  split
  · extract_lets -underBinder -merge -useContext +onlyGivenNames x2
    extract_lets -underBinder -merge -useContext +onlyGivenNames x3
    refine State.setDie_keeps _ ?_ _ _
    exact hs
  · exact Keeps.upd hs

theorem State.readLine_keeps {s₀ : State} (s : State) (hs : Keeps s₀ s) (d : Nat) (off : Nat) (err : EccErr) :
    Keeps s₀ (State.readLine s d off err) := by
  unfold State.readLine
  extract_lets -underBinder -merge -useContext +onlyGivenNames x1
  have h1 : Keeps s₀ x1 := by
    unfold x1
    refine pred_ite ?_ ?_
    · refine State.count_keeps _ ?_ _ _ _ _
      refine State.inc_keeps _ ?_ _ _
      exact hs
    · exact hs
  extract_lets -underBinder -merge -useContext +onlyGivenNames x2
  have h2 : Keeps s₀ x2 := by
    unfold x2
    refine pred_ite ?_ ?_
    · refine State.poisonLine_keeps _ ?_ _ _
      exact h1
    · exact h1
  refine pred_ite ?_ ?_
  · refine State.noteUe_keeps _ ?_ _ _
    refine State.inc_keeps _ ?_ _ _
    exact h2
  · refine pred_ite ?_ ?_
    · refine State.inc_keeps _ ?_ _ _
      exact h2
    · exact h2

theorem State.serveNear_keeps {s₀ : State} (s : State) (hs : Keeps s₀ s) (d : Nat) (q : NearReq) :
    Keeps s₀ (State.serveNear s d q) := by
  unfold State.serveNear
  extract_lets -underBinder -merge -useContext +onlyGivenNames x1
  split
  · refine State.put_keeps _ ?_ _ _ _ _
    exact hs
  · refine State.readLine_keeps _ ?_ _ _ _
    refine State.countAccess_keeps _ ?_ _ _ _
    exact hs

theorem State.serveDie_keeps {s₀ : State} (s : State) (hs : Keeps s₀ s) (d : Nat) :
    Keeps s₀ (State.serveDie s d) := by
  unfold State.serveDie
  extract_lets -underBinder -merge -useContext +onlyGivenNames x1
  refine pred_ite ?_ ?_
  · exact hs
  · refine pred_foldl ?_ ?_
    · intro x2 h2 a2
      refine State.serveNear_keeps _ ?_ _ _
      exact h2
    · refine State.setDie_keeps _ ?_ _ _
      exact hs

theorem State.zeroChan_keeps {s₀ : State} (s : State) (hs : Keeps s₀ s) (ch : Nat) :
    Keeps s₀ (State.zeroChan s ch) := by
  unfold State.zeroChan
  exact Keeps.part hs rfl rfl (fun i => ⟨{ i.canonical with mem := SMap.wf_filter i.canonical.mem _ }, i.ring⟩) rfl rfl

theorem State.trainChan_keeps {s₀ : State} (s : State) (hs : Keeps s₀ s) (ch : Nat) (fails : Bool) :
    Keeps s₀ (State.trainChan s ch fails) := by
  unfold State.trainChan
  extract_lets -underBinder -merge -useContext +onlyGivenNames x1
  refine pred_ite ?_ ?_
  · exact hs
  · refine pred_ite ?_ ?_
    · extract_lets -underBinder -merge -useContext +onlyGivenNames x2
      have h2 : Keeps s₀ x2 := by
        unfold x2
        refine State.setChan_keeps _ ?_ _ _
        exact hs
      refine pred_ite ?_ ?_
      · refine State.setRegF_keeps _ ?_ _ _ _ _
        exact h2
      · refine State.failChan_keeps _ ?_ _
        exact h2
    · refine State.rejoin_keeps _ ?_ _
      refine State.zeroChan_keeps _ ?_ _
      refine State.setRegF_keeps _ ?_ _ _ _ _
      refine State.setChan_keeps _ ?_ _ _
      exact hs

theorem execArbBackoffExpire_keeps {s₀ : State} (p : ArbPoint) (req : Fin 22) (s : State) (hs : Keeps s₀ s) :
    InOut (Keeps s₀) (execArbBackoffExpire p req s) := by
  unfold execArbBackoffExpire
  extract_lets -underBinder -merge -useContext +onlyGivenNames x1
  extract_lets -underBinder -merge -useContext +onlyGivenNames x2
  refine pred_ite ?_ ?_
  · refine InOut.next ?_
    exact hs
  · refine InOut.next ?_
    refine State.setArb_keeps _ ?_ _ _
    exact hs

theorem execArbGrant_keeps {s₀ : State} (p : ArbPoint) (want : BitVec 22) (s : State) (hs : Keeps s₀ s) :
    InOut (Keeps s₀) (execArbGrant p want s) := by
  unfold execArbGrant
  extract_lets -underBinder -merge -useContext +onlyGivenNames x1
  extract_lets -underBinder -merge -useContext +onlyGivenNames x2
  refine pred_ite ?_ ?_
  · refine InOut.next ?_
    exact hs
  · split
    · refine InOut.next ?_
      exact hs
    · refine InOut.next ?_
      refine State.countArb_keeps _ ?_ _ _ _ _
      refine State.setArb_keeps _ ?_ _ _
      exact hs

theorem execCacheFill_keeps {s₀ : State} (d : Die) (req : Fin 10) (addr : Addr) (s : State) (hs : Keeps s₀ s) :
    InOut (Keeps s₀) (execCacheFill d req addr s) := by
  unfold execCacheFill
  extract_lets -underBinder -merge -useContext +onlyGivenNames x1
  extract_lets -underBinder -merge -useContext +onlyGivenNames x2
  extract_lets -underBinder -merge -useContext +onlyGivenNames x3
  extract_lets -underBinder -merge -useContext +onlyGivenNames x4
  extract_lets -underBinder -merge -useContext +onlyGivenNames x5
  refine pred_ite ?_ ?_
  · exact InOut.fault
  · refine pred_ite ?_ ?_
    · refine InOut.next ?_
      exact hs
    · split
      · split
        · refine pred_ite ?_ ?_
          · refine InOut.next ?_
            exact hs
          · refine pred_ite ?_ ?_
            · refine InOut.next ?_
              refine State.fillLine_keeps _ ?_ _ _ _
              refine State.inc_keeps _ ?_ _ _
              refine State.setWay_keeps _ ?_ _ _ _ _
              exact hs
            · refine InOut.next ?_
              refine State.count_keeps _ ?_ _ _ _ _
              refine State.touchWay_keeps _ ?_ _ _ _
              exact hs
        · refine InOut.next ?_
          exact hs
      · refine InOut.next ?_
        refine pred_ite ?_ ?_
        · refine State.fillLine_keeps _ ?_ _ _ _
          exact hs
        · exact hs

theorem execCacheInvalidate_keeps {s₀ : State} (d : Die) (addr : Addr) (own : Bool) (s : State) (hs : Keeps s₀ s) :
    InOut (Keeps s₀) (execCacheInvalidate d addr own s) := by
  unfold execCacheInvalidate
  extract_lets -underBinder -merge -useContext +onlyGivenNames x1
  extract_lets -underBinder -merge -useContext +onlyGivenNames x2
  extract_lets -underBinder -merge -useContext +onlyGivenNames x3
  refine pred_ite ?_ ?_
  · exact InOut.fault
  · split
    · refine InOut.next ?_
      exact hs
    · refine pred_ite ?_ ?_
      · refine InOut.next ?_
        refine State.setWay_keeps _ ?_ _ _ _ _
        exact hs
      · refine InOut.next ?_
        refine State.count_keeps _ ?_ _ _ _ _
        refine State.inc_keeps _ ?_ _ _
        refine State.setWay_keeps _ ?_ _ _ _ _
        exact hs

theorem execFmemDriftCheck_keeps {s₀ : State} (ch : Chan) (drift : BitVec 8) (ok1 : Bool) (ok2 : Bool) (s : State) (hs : Keeps s₀ s) :
    InOut (Keeps s₀) (execFmemDriftCheck ch drift ok1 ok2 s) := by
  unfold execFmemDriftCheck
  refine pred_ite ?_ ?_
  · refine InOut.next ?_
    exact hs
  · extract_lets -underBinder -merge -useContext +onlyGivenNames x1
    have h1 : Keeps s₀ x1 := by
      unfold x1
      refine State.countRetrain_keeps _ ?_ _
      exact hs
    refine pred_ite ?_ ?_
    · refine InOut.next ?_
      exact h1
    · extract_lets -underBinder -merge -useContext +onlyGivenNames x2
      have h2 : Keeps s₀ x2 := by
        unfold x2
        refine State.countRetrain_keeps _ ?_ _
        exact h1
      refine InOut.next ?_
      refine pred_ite ?_ ?_
      · exact h2
      · refine State.failChan_keeps _ ?_ _
        exact h2

theorem execFmemRefresh_keeps {s₀ : State} (ch : Chan) (bank : Fin 16) (busy : Bool) (s : State) (hs : Keeps s₀ s) :
    InOut (Keeps s₀) (execFmemRefresh ch bank busy s) := by
  unfold execFmemRefresh
  extract_lets -underBinder -merge -useContext +onlyGivenNames x1
  extract_lets -underBinder -merge -useContext +onlyGivenNames x2
  refine pred_ite ?_ ?_
  · refine InOut.next ?_
    refine State.setChan_keeps _ ?_ _ _
    exact hs
  · refine pred_ite ?_ ?_
    · refine InOut.next ?_
      exact hs
    · extract_lets -underBinder -merge -useContext +onlyGivenNames x3
      extract_lets -underBinder -merge -useContext +onlyGivenNames x4
      refine InOut.next ?_
      refine State.issueRefresh_keeps _ ?_ _ _
      refine State.setChan_keeps _ ?_ _ _
      exact hs

theorem execFmemTrain_keeps {s₀ : State} (pkg : Fin 48) (fail : BitVec 4) (s : State) (hs : Keeps s₀ s) :
    InOut (Keeps s₀) (execFmemTrain pkg fail s) := by
  unfold execFmemTrain
  refine InOut.next ?_
  refine pred_foldl ?_ ?_
  · intro x1 h1 a1
    refine State.trainChan_keeps _ ?_ _ _
    exact h1
  · exact hs

theorem execFmemZqLatch_keeps {s₀ : State} (ch : Chan) (s : State) (hs : Keeps s₀ s) :
    InOut (Keeps s₀) (execFmemZqLatch ch s) := by
  unfold execFmemZqLatch
  refine InOut.next ?_
  refine pred_ite ?_ ?_
  · refine State.setChan_keeps _ ?_ _ _
    exact hs
  · exact hs

theorem execNmemAccess_keeps {s₀ : State} (d : Die) (_req : Fin 16) (off : BitVec 31) (wr : Option (List Byte)) (err : EccErr) (s : State) (hs : Keeps s₀ s) :
    InOut (Keeps s₀) (execNmemAccess d _req off wr err s) := by
  unfold execNmemAccess
  extract_lets -underBinder -merge -useContext +onlyGivenNames x1
  refine pred_ite ?_ ?_
  · refine InOut.next ?_
    refine State.serveNear_keeps _ ?_ _ _
    refine State.serveDie_keeps _ ?_ _
    exact hs
  · refine InOut.next ?_
    refine State.setDie_keeps _ ?_ _ _
    exact hs

theorem execNmemPatrolScrub_keeps {s₀ : State} (d : Die) (off : BitVec 31) (err : EccErr) (s : State) (hs : Keeps s₀ s) :
    InOut (Keeps s₀) (execNmemPatrolScrub d off err s) := by
  unfold execNmemPatrolScrub
  refine InOut.next ?_
  refine pred_ite ?_ ?_
  · refine State.readLine_keeps _ ?_ _ _ _
    exact hs
  · exact hs

theorem execRefreshManagementRequest_keeps {s₀ : State} (ch : Chan) (s : State) (hs : Keeps s₀ s) :
    InOut (Keeps s₀) (execRefreshManagementRequest ch s) := by
  unfold execRefreshManagementRequest
  refine InOut.next ?_
  refine pred_ite ?_ ?_
  · refine State.setChan_keeps _ ?_ _ _
    exact hs
  · exact hs

end Sys2Proof.Machine
end

