-- ==== Sys2Proof/Laws/KeepLink.lean ====
section
/-! SUPPORT. What links keep (`Keeps`), one lemma for each. -/

namespace Sys2Proof.Machine

open Sys2Proof

theorem State.sendRouted_keeps {s₀ : State} (s : State) (hs : Keeps s₀ s) (e : Nat) (q : Pkt) :
    Keeps s₀ (State.sendRouted s e q) := by
  unfold State.sendRouted
  split
  · refine State.sendFrom_keeps _ ?_ _ _ _
    exact hs
  · exact hs

theorem State.transmit_keeps {s₀ : State} (s : State) (hs : Keeps s₀ s) (mirror : Bool) (e : Nat) (q : Pkt) :
    Keeps s₀ (State.transmit s mirror e q) := by
  unfold State.transmit
  refine pred_ite ?_ ?_
  · split
    · extract_lets -underBinder -merge -useContext +onlyGivenNames x2
      have h2 : Keeps s₀ x2 := by
        unfold x2
        refine pred_ite ?_ ?_
        · refine State.count_keeps _ ?_ _ _ _ _
          exact hs
        · exact hs
      refine State.sendFrom_keeps _ ?_ _ _ _
      exact h2
    · exact hs
  · refine State.sendRouted_keeps _ ?_ _ _
    exact hs

theorem State.ackFlow_keeps {s₀ : State} (s : State) (hs : Keeps s₀ s) (e : Nat) (key : Nat) (upTo : Nat) :
    Keeps s₀ (State.ackFlow s e key upTo) := by
  unfold State.ackFlow
  extract_lets -underBinder -merge -useContext +onlyGivenNames x1
  extract_lets -underBinder -merge -useContext +onlyGivenNames x2
  refine pred_ite ?_ ?_
  · exact hs
  · extract_lets -underBinder -merge -useContext +onlyGivenNames x3
    extract_lets -underBinder -merge -useContext +onlyGivenNames x4
    have h4 : Keeps s₀ x4 := by
      unfold x4
      refine State.setTxFlow_keeps _ ?_ _ _
      exact hs
    refine pred_foldl ?_ ?_
    · intro x5 h5 a5
      refine State.transmit_keeps _ ?_ _ _ _
      exact h5
    · exact h4

theorem State.e2eSend_keeps {s₀ : State} (s : State) (hs : Keeps s₀ s) (e : Nat) (peer : Nat) (vc : Nat) (flow : Nat) (opcode : Nat) (ops : Nat) (payload : List Byte) :
    Keeps s₀ (State.e2eSend s e peer vc flow opcode ops payload) := by
  unfold State.e2eSend
  extract_lets -underBinder -merge -useContext +onlyGivenNames x1
  extract_lets -underBinder -merge -useContext +onlyGivenNames x2
  extract_lets -underBinder -merge -useContext +onlyGivenNames x3
  refine pred_ite ?_ ?_
  · refine State.transmit_keeps _ ?_ _ _ _
    refine State.setTxFlow_keeps _ ?_ _ _
    exact hs
  · refine State.setTxFlow_keeps _ ?_ _ _
    exact hs

theorem State.adoptQueue_keeps {s₀ : State} (s : State) (hs : Keeps s₀ s) (l : Nat) :
    Keeps s₀ (State.adoptQueue s l) := by
  unfold State.adoptQueue
  extract_lets -underBinder -merge -useContext +onlyGivenNames x1
  extract_lets -underBinder -merge -useContext +onlyGivenNames x2
  refine pred_ite ?_ ?_
  · exact hs
  · refine State.setLink_keeps _ ?_ _ _
    refine State.setLink_keeps _ ?_ _ _
    exact hs

theorem State.clockIn_keeps {s₀ : State} (s : State) (hs : Keeps s₀ s) (i : Nat) :
    Keeps s₀ (State.clockIn s i) := by
  unfold State.clockIn
  refine pred_ite ?_ ?_
  · exact hs
  · refine State.leaveReset_keeps _ ?_ _
    exact hs

theorem State.takeGrant_keeps {s₀ : State} (s : State) (hs : Keeps s₀ s) (p : Nat) (q : Pkt) :
    In2 (Keeps s₀) (State.takeGrant s p q) := by
  unfold State.takeGrant
  extract_lets -underBinder -merge -useContext +onlyGivenNames x1
  refine pred_ite ?_ ?_
  · refine In2.mk ?_
    exact hs
  · refine In2.mk ?_
    refine State.setLink_keeps _ ?_ _ _
    exact hs

theorem State.freeRx_keeps {s₀ : State} (s : State) (hs : Keeps s₀ s) (l : Nat) (q : Pkt) :
    Keeps s₀ (State.freeRx s l q) := by
  unfold State.freeRx
  extract_lets -underBinder -merge -useContext +onlyGivenNames x1
  refine State.setLink_keeps _ ?_ _ _
  exact hs

theorem State.dropRx_keeps {s₀ : State} (s : State) (hs : Keeps s₀ s) (p : Nat) (q : Pkt) :
    Keeps s₀ (State.dropRx s p q) := by
  unfold State.dropRx
  extract_lets -underBinder -merge -useContext +onlyGivenNames x1
  have h1 : In2 (Keeps s₀) x1 := by
    unfold x1
    refine State.takeGrant_keeps _ ?_ _ _
    exact hs
  refine pred_ite ?_ ?_
  · refine State.freeRx_keeps _ ?_ _ _
    exact h1.out
  · exact hs

theorem State.sendAck_keeps {s₀ : State} (s : State) (hs : Keeps s₀ s) (e : Nat) (key : Nat) :
    Keeps s₀ (State.sendAck s e key) := by
  unfold State.sendAck
  extract_lets -underBinder -merge -useContext +onlyGivenNames x1
  extract_lets -underBinder -merge -useContext +onlyGivenNames x2
  extract_lets -underBinder -merge -useContext +onlyGivenNames x3
  extract_lets -underBinder -merge -useContext +onlyGivenNames x4
  refine State.transmit_keeps _ ?_ _ _ _
  refine State.setRxFlow_keeps _ ?_ _ _
  exact hs

theorem State.noteNak_keeps {s₀ : State} (s : State) (hs : Keeps s₀ s) (l : Nat) (code : Nat) :
    Keeps s₀ (State.noteNak s l code) := by
  unfold State.noteNak
  extract_lets -underBinder -merge -useContext +onlyGivenNames x1
  refine State.setLink_keeps _ ?_ _ _
  exact hs

theorem State.nakTo_keeps {s₀ : State} (s : State) (hs : Keeps s₀ s) (p : Nat) (code : Nat) (expected : Nat) (q : Pkt) (hop : Bool) :
    Keeps s₀ (State.nakTo s p code expected q hop) := by
  unfold State.nakTo
  refine pred_ite ?_ ?_
  · exact hs
  · extract_lets -underBinder -merge -useContext +onlyGivenNames x1
    have h1 : Keeps s₀ x1 := by
      unfold x1
      refine State.noteNak_keeps _ ?_ _ _
      exact hs
    extract_lets -underBinder -merge -useContext +onlyGivenNames x2
    refine pred_ite ?_ ?_
    · refine State.linkSend_keeps _ ?_ _ _
      exact h1
    · refine pred_ite ?_ ?_
      · refine State.linkSend_keeps _ ?_ _ _
        exact h1
      · refine State.sendRouted_keeps _ ?_ _ _
        exact h1

theorem State.e2eAccept_keeps {s₀ : State} (s : State) (hs : Keeps s₀ s) (p : Nat) (q : Pkt) :
    In2 (Keeps s₀) (State.e2eAccept s p q) := by
  unfold State.e2eAccept
  extract_lets -underBinder -merge -useContext +onlyGivenNames x1
  extract_lets -underBinder -merge -useContext +onlyGivenNames x2
  refine pred_ite ?_ ?_
  · extract_lets -underBinder -merge -useContext +onlyGivenNames x3
    have h3 : Keeps s₀ x3 := by
      unfold x3
      refine State.setRxFlow_keeps _ ?_ _ _
      exact hs
    refine In2.mk ?_
    refine pred_ite ?_ ?_
    · exact h3
    · refine State.sendAck_keeps _ ?_ _ _
      exact h3
  · refine pred_ite ?_ ?_
    · refine In2.mk ?_
      refine State.nakTo_keeps _ ?_ _ _ _ _ _
      refine State.inc_keeps _ ?_ _ _
      exact hs
    · refine In2.mk ?_
      refine State.sendAck_keeps _ ?_ _ _
      exact hs

theorem State.portLost_keeps {s₀ : State} (s : State) (hs : Keeps s₀ s) (p : Nat) :
    Keeps s₀ (State.portLost s p) := by
  unfold State.portLost
  refine State.breachOpen_keeps _ ?_ _ _
  exact hs

theorem State.setLinkState_keeps {s₀ : State} (s : State) (hs : Keeps s₀ s) (l : Nat) (v : Nat) :
    Keeps s₀ (State.setLinkState s l v) := by
  unfold State.setLinkState
  refine pred_ite ?_ ?_
  · refine State.setRegF_keeps _ ?_ _ _ _ _
    exact hs
  · refine State.setRegF_keeps _ ?_ _ _ _ _
    exact hs

theorem State.sendCtl_keeps {s₀ : State} (s : State) (hs : Keeps s₀ s) (p : Nat) (sub : Nat) :
    Keeps s₀ (State.sendCtl s p sub) := by
  unfold State.sendCtl
  extract_lets -underBinder -merge -useContext +onlyGivenNames x1
  extract_lets -underBinder -merge -useContext +onlyGivenNames x2
  refine State.linkSend_keeps _ ?_ _ _
  exact hs

theorem State.fencePort_keeps {s₀ : State} (s : State) (hs : Keeps s₀ s) (p : Nat) :
    Keeps s₀ (State.fencePort s p) := by
  unfold State.fencePort
  refine pred_ite ?_ ?_
  · exact hs
  · refine State.portLost_keeps _ ?_ _
    refine State.setLinkState_keeps _ ?_ _ _
    refine pred_ite ?_ ?_
    · refine State.sendCtl_keeps _ ?_ _ _
      exact hs
    · exact hs

theorem State.violate_keeps {s₀ : State} (s : State) (hs : Keeps s₀ s) (p : Nat) (code : Nat) (opcode : Nat) (src : Nat) :
    Keeps s₀ (State.violate s p code opcode src) := by
  unfold State.violate
  extract_lets -underBinder -merge -useContext +onlyGivenNames x1
  have h1 : Keeps s₀ x1 := by
    unfold x1
    refine State.inc_keeps _ ?_ _ _
    exact hs
  extract_lets -underBinder -merge -useContext +onlyGivenNames x2
  have h2 : Keeps s₀ x2 := by
    unfold x2
    refine State.setReg_keeps _ ?_ _ _
    exact h1
  extract_lets -underBinder -merge -useContext +onlyGivenNames x3
  have h3 : Keeps s₀ x3 := by
    unfold x3
    refine State.addLog_keeps _ ?_ _ _ _
    refine State.count_keeps _ ?_ _ _ _ _
    exact h2
  extract_lets -underBinder -merge -useContext +onlyGivenNames x4
  extract_lets -underBinder -merge -useContext +onlyGivenNames x5
  extract_lets -underBinder -merge -useContext +onlyGivenNames x6
  have h6 : Keeps s₀ x6 := by
    unfold x6
    refine State.setLink_keeps _ ?_ _ _
    exact h3
  extract_lets -underBinder -merge -useContext +onlyGivenNames x7
  refine pred_ite ?_ ?_
  · refine State.fencePort_keeps _ ?_ _
    exact h6
  · exact h6

theorem State.refusePkt_keeps {s₀ : State} (s : State) (hs : Keeps s₀ s) (p : Nat) (code : Nat) (q : Pkt) (hop : Bool) :
    Keeps s₀ (State.refusePkt s p code q hop) := by
  unfold State.refusePkt
  refine State.nakTo_keeps _ ?_ _ _ _ _ _
  refine State.violate_keeps _ ?_ _ _ _ _
  exact hs

theorem State.forward_keeps {s₀ : State} (s : State) (hs : Keeps s₀ s) (p : Nat) (q : Pkt) :
    Keeps s₀ (State.forward s p q) := by
  unfold State.forward
  extract_lets -underBinder -merge -useContext +onlyGivenNames x1
  have h1 : Keeps s₀ x1 := by
    unfold x1
    refine State.freeRx_keeps _ ?_ _ _
    exact hs
  refine pred_ite ?_ ?_
  · refine State.nakTo_keeps _ ?_ _ _ _ _ _
    refine State.violate_keeps _ ?_ _ _ _ _
    refine State.inc_keeps _ ?_ _ _
    exact h1
  · split
    · refine State.refusePkt_keeps _ ?_ _ _ _ _
      exact h1
    · extract_lets -underBinder -merge -useContext +onlyGivenNames x4
      refine State.sendFrom_keeps _ ?_ _ _ _
      refine State.count_keeps _ ?_ _ _ _ _
      exact h1

theorem State.heard_keeps {s₀ : State} (s : State) (hs : Keeps s₀ s) (src : Nat) :
    Keeps s₀ (State.heard s src) := by
  unfold State.heard
  refine pred_foldl ?_ ?_
  · intro x1 h1 a1
    refine State.setTxFlow_keeps _ ?_ _ _
    exact h1
  · exact hs

theorem State.linkDown_keeps {s₀ : State} (s : State) (hs : Keeps s₀ s) (l : Nat) :
    Keeps s₀ (State.linkDown s l) := by
  unfold State.linkDown
  extract_lets -underBinder -merge -useContext +onlyGivenNames x1
  extract_lets -underBinder -merge -useContext +onlyGivenNames x2 x3
  have h3 : Keeps s₀ x3 := by
    unfold x3
    refine State.setLinkState_keeps _ ?_ _ _
    refine State.setLink_keeps _ ?_ _ _
    exact hs
  refine pred_ite ?_ ?_
  · exact h3
  · extract_lets -underBinder -merge -useContext +onlyGivenNames x4
    refine pred_ite ?_ ?_
    · refine State.pump_keeps _ ?_ _
      refine State.setLink_keeps _ ?_ _ _
      exact h3
    · refine State.setLink_keeps _ ?_ _ _
      exact h3

theorem State.linkUp_keeps {s₀ : State} (s : State) (hs : Keeps s₀ s) (l : Nat) (credits : List Nat) :
    Keeps s₀ (State.linkUp s l credits) := by
  unfold State.linkUp
  refine State.pump_keeps _ ?_ _
  refine State.adoptQueue_keeps _ ?_ _
  refine State.setLinkState_keeps _ ?_ _ _
  refine State.setLink_keeps _ ?_ _ _
  exact hs

theorem State.portAttempt_keeps {s₀ : State} (s : State) (hs : Keeps s₀ s) (p : Nat) :
    Keeps s₀ (State.portAttempt s p) := by
  unfold State.portAttempt
  refine State.setRegF_keeps _ ?_ _ _ _ _
  refine State.setLinkState_keeps _ ?_ _ _
  exact hs

theorem State.portDown_keeps {s₀ : State} (s : State) (hs : Keeps s₀ s) (p : Nat) :
    Keeps s₀ (State.portDown s p) := by
  unfold State.portDown
  refine State.portLost_keeps _ ?_ _
  refine State.linkDown_keeps _ ?_ _
  refine State.closeWindow_keeps _ ?_ _ _
  exact hs

theorem State.portPkt_keeps {s₀ : State} (s : State) (hs : Keeps s₀ s) (p : Nat) (q : Pkt) (lenOk : Bool) :
    Keeps s₀ (State.portPkt s p q lenOk) := by
  unfold State.portPkt
  refine pred_ite ?_ ?_
  · refine State.refusePkt_keeps _ ?_ _ _ _ _
    refine pred_ite ?_ ?_
    · refine State.dropRx_keeps _ ?_ _ _
      exact hs
    · exact hs
  · refine pred_ite ?_ ?_
    · refine State.refusePkt_keeps _ ?_ _ _ _ _
      exact hs
    · refine pred_ite ?_ ?_
      · refine State.refusePkt_keeps _ ?_ _ _ _ _
        refine State.dropRx_keeps _ ?_ _ _
        exact hs
      · extract_lets -underBinder -merge -useContext +onlyGivenNames x1
        have h1 : In2 (Keeps s₀) x1 := by
          unfold x1
          refine State.takeGrant_keeps _ ?_ _ _
          exact hs
        refine pred_ite ?_ ?_
        · refine State.refusePkt_keeps _ ?_ _ _ _ _
          exact hs
        · extract_lets -underBinder -merge -useContext +onlyGivenNames x2
          have h2 : Keeps s₀ x2 := by
            unfold x2
            exact h1.out
          refine pred_ite ?_ ?_
          · refine State.freeRx_keeps _ ?_ _ _
            exact h2
          · extract_lets -underBinder -merge -useContext +onlyGivenNames x3
            have h3 : Keeps s₀ x3 := by
              unfold x3
              refine State.heard_keeps _ ?_ _
              exact h2
            refine pred_ite ?_ ?_
            · refine State.setLink_keeps _ ?_ _ _
              exact h3
            · refine State.forward_keeps _ ?_ _ _
              exact h3

theorem State.replayLink_keeps {s₀ : State} (s : State) (hs : Keeps s₀ s) (l : Nat) :
    Keeps s₀ (State.replayLink s l) := by
  unfold State.replayLink
  extract_lets -underBinder -merge -useContext +onlyGivenNames x1
  refine pred_ite ?_ ?_
  · exact hs
  · refine State.countSent_keeps _ ?_ _ _ _
    refine State.setLink_keeps _ ?_ _ _
    exact hs

theorem State.resend_keeps {s₀ : State} (s : State) (hs : Keeps s₀ s) (e : Nat) (key : Nat) (from_ : Nat) :
    Keeps s₀ (State.resend s e key from_) := by
  unfold State.resend
  refine pred_foldl ?_ ?_
  · intro x1 h1 a1
    refine State.transmit_keeps _ ?_ _ _ _
    exact h1
  · exact hs

theorem State.wantRetry_keeps {s₀ : State} (s : State) (hs : Keeps s₀ s) (l : Nat) :
    Keeps s₀ (State.wantRetry s l) := by
  unfold State.wantRetry
  extract_lets -underBinder -merge -useContext +onlyGivenNames x1 x2
  have h2 : Keeps s₀ x2 := by
    unfold x2
    refine State.inc_keeps _ ?_ _ _
    refine State.setLink_keeps _ ?_ _ _
    exact hs
  refine pred_ite ?_ ?_
  · refine State.count_keeps _ ?_ _ _ _ _
    exact h2
  · exact h2

theorem State.takeAck_keeps {s₀ : State} (s : State) (hs : Keeps s₀ s) (l : Nat) (ack : BitVec 12) (retry : Bool) :
    In2 (Keeps s₀) (State.takeAck s l ack retry) := by
  unfold State.takeAck
  extract_lets -underBinder -merge -useContext +onlyGivenNames x1
  extract_lets -underBinder -merge -useContext +onlyGivenNames x2
  refine pred_ite ?_ ?_
  · extract_lets -underBinder -merge -useContext +onlyGivenNames x3
    have h3 : Keeps s₀ x3 := by
      unfold x3
      refine State.setLink_keeps _ ?_ _ _
      exact hs
    refine In2.mk ?_
    refine State.pump_keeps _ ?_ _
    refine pred_ite ?_ ?_
    · refine State.replayLink_keeps _ ?_ _
      exact h3
    · exact h3
  · refine In2.mk ?_
    refine pred_ite ?_ ?_
    · refine State.replayLink_keeps _ ?_ _
      exact hs
    · exact hs

theorem State.rxFlit_keeps {s₀ : State} (s : State) (hs : Keeps s₀ s) (l : Nat) (bytes : List Byte) (fec : FecResult) :
    In22 (Keeps s₀) (State.rxFlit s l bytes fec) := by
  unfold State.rxFlit
  extract_lets -underBinder -merge -useContext +onlyGivenNames x1
  have h1 : Keeps s₀ x1 := by
    unfold x1
    refine State.inc_keeps _ ?_ _ _
    refine State.inc_keeps _ ?_ _ _
    exact hs
  extract_lets -underBinder -merge -useContext +onlyGivenNames x2
  have h2 : Keeps s₀ x2 := by
    unfold x2
    refine pred_ite ?_ ?_
    · refine State.count_keeps _ ?_ _ _ _ _
      exact h1
    · exact h1
  extract_lets -underBinder -merge -useContext +onlyGivenNames x3
  refine pred_ite ?_ ?_
  · refine In22.mk ?_
    refine In2.mk ?_
    refine State.wantRetry_keeps _ ?_ _
    exact h2
  · extract_lets -underBinder -merge -useContext +onlyGivenNames x4
    have h4 : In2 (Keeps s₀) x4 := by
      unfold x4
      refine State.takeAck_keeps _ ?_ _ _ _
      exact h2
    extract_lets -underBinder -merge -useContext +onlyGivenNames x5
    have h5 : Keeps s₀ x5 := by
      unfold x5
      exact h4.out
    extract_lets -underBinder -merge -useContext +onlyGivenNames x6
    extract_lets -underBinder -merge -useContext +onlyGivenNames x7
    refine pred_ite ?_ ?_
    · refine In22.mk ?_
      refine In2.mk ?_
      exact h5
    · refine pred_ite ?_ ?_
      · extract_lets -underBinder -merge -useContext +onlyGivenNames x8
        extract_lets -underBinder -merge -useContext +onlyGivenNames x9
        extract_lets -underBinder -merge -useContext +onlyGivenNames x10
        extract_lets -underBinder -merge -useContext +onlyGivenNames x11
        refine In22.mk ?_
        refine In2.mk ?_
        refine State.setLink_keeps _ ?_ _ _
        exact h5
      · refine pred_ite ?_ ?_
        · refine In22.mk ?_
          refine In2.mk ?_
          exact h5
        · refine In22.mk ?_
          refine In2.mk ?_
          refine pred_ite ?_ ?_
          · exact h5
          · refine State.wantRetry_keeps _ ?_ _
            exact h5

theorem State.swapDone_keeps {s₀ : State} (s : State) (hs : Keeps s₀ s) (p : Nat) :
    Keeps s₀ (State.swapDone s p) := by
  unfold State.swapDone
  refine State.replayLink_keeps _ ?_ _
  refine State.count_keeps _ ?_ _ _ _ _
  refine State.inc_keeps _ ?_ _ _
  exact hs

theorem State.takeCredits_keeps {s₀ : State} (s : State) (hs : Keeps s₀ s) (l : Nat) (n : Nat) :
    In2 (Keeps s₀) (State.takeCredits s l n) := by
  unfold State.takeCredits
  extract_lets -underBinder -merge -useContext +onlyGivenNames x1
  extract_lets -underBinder -merge -useContext +onlyGivenNames x2
  extract_lets -underBinder -merge -useContext +onlyGivenNames x3
  refine In2.mk ?_
  refine State.pump_keeps _ ?_ _
  refine State.setLink_keeps _ ?_ _ _
  exact hs

theorem State.takeRx_keeps {s₀ : State} (s : State) (hs : Keeps s₀ s) (p : Nat) (opcode : Nat) :
    InSome (Keeps s₀) (State.takeRx s p opcode) := by
  unfold State.takeRx
  extract_lets -underBinder -merge -useContext +onlyGivenNames x1
  split
  · exact InSome.none
  · refine InSome.some ?_
    refine In2.mk ?_
    refine State.freeRx_keeps _ ?_ _ _
    refine State.setLink_keeps _ ?_ _ _
    exact hs

theorem State.unfencePort_keeps {s₀ : State} (s : State) (hs : Keeps s₀ s) (p : Nat) :
    Keeps s₀ (State.unfencePort s p) := by
  unfold State.unfencePort
  refine pred_ite ?_ ?_
  · refine State.setLinkState_keeps _ ?_ _ _
    exact hs
  · refine pred_ite ?_ ?_
    · extract_lets -underBinder -merge -useContext +onlyGivenNames x1 x2
      have h2 : Keeps s₀ x2 := by
        unfold x2
        refine State.setLink_keeps _ ?_ _ _
        exact hs
      refine State.sendCtl_keeps _ ?_ _ _
      refine State.setLinkState_keeps _ ?_ _ _
      exact h2
    · exact hs

theorem execCredit_keeps {s₀ : State} (p : Port) (s : State) (hs : Keeps s₀ s) :
    InOut (Keeps s₀) (execCredit p s) := by
  unfold execCredit
  have h1 : InSome (Keeps s₀) (s.takeRx (↑p) 1) := by
    refine State.takeRx_keeps _ ?_ _ _
    exact hs
  generalize (s.takeRx (↑p) 1) = z1 at h1 ⊢
  split
  · refine InOut.next ?_
    exact hs
  · extract_lets -underBinder -merge -useContext +onlyGivenNames x5
    have h5 : In2 (Keeps s₀) x5 := by
      unfold x5
      refine State.takeCredits_keeps _ ?_ _ _
      exact (h1 _ rfl)
    refine InOut.next ?_
    refine pred_ite ?_ ?_
    · exact h5.out
    · refine State.refusePkt_keeps _ ?_ _ _ _ _
      exact h5.out

theorem execCreditReturn_keeps {s₀ : State} (l : Link) (s : State) (hs : Keeps s₀ s) :
    InOut (Keeps s₀) (execCreditReturn l s) := by
  unfold execCreditReturn
  extract_lets -underBinder -merge -useContext +onlyGivenNames x1
  refine pred_ite ?_ ?_
  · refine InOut.next ?_
    exact hs
  · extract_lets -underBinder -merge -useContext +onlyGivenNames x2
    extract_lets -underBinder -merge -useContext +onlyGivenNames x3
    have h3 : Keeps s₀ x3 := by
      unfold x3
      refine State.setLink_keeps _ ?_ _ _
      exact hs
    refine pred_ite ?_ ?_
    · refine InOut.next ?_
      refine State.linkSend_keeps _ ?_ _ _
      exact h3
    · refine InOut.next ?_
      refine State.linkSend_keeps _ ?_ _ _
      exact h3

theorem execE2eAck_keeps {s₀ : State} (p : Port) (s : State) (hs : Keeps s₀ s) :
    InOut (Keeps s₀) (execE2eAck p s) := by
  unfold execE2eAck
  have h1 : InSome (Keeps s₀) (s.takeRx (↑p) 3) := by
    refine State.takeRx_keeps _ ?_ _ _
    exact hs
  generalize (s.takeRx (↑p) 3) = z1 at h1 ⊢
  split
  · refine InOut.next ?_
    exact hs
  · extract_lets -underBinder -merge -useContext +onlyGivenNames x5
    extract_lets -underBinder -merge -useContext +onlyGivenNames x6
    refine pred_ite ?_ ?_
    · refine InOut.next ?_
      refine State.refusePkt_keeps _ ?_ _ _ _ _
      exact (h1 _ rfl)
    · refine InOut.next ?_
      refine State.ackFlow_keeps _ ?_ _ _ _
      exact (h1 _ rfl)

theorem execE2eAckDue_keeps {s₀ : State} (f : FlowId) (s : State) (hs : Keeps s₀ s) :
    InOut (Keeps s₀) (execE2eAckDue f s) := by
  unfold execE2eAckDue
  extract_lets -underBinder -merge -useContext +onlyGivenNames x1
  refine InOut.next ?_
  refine pred_ite ?_ ?_
  · exact hs
  · refine State.sendAck_keeps _ ?_ _ _
    exact hs

theorem execE2eTimeout_keeps {s₀ : State} (f : FlowId) (s : State) (hs : Keeps s₀ s) :
    InOut (Keeps s₀) (execE2eTimeout f s) := by
  unfold execE2eTimeout
  extract_lets -underBinder -merge -useContext +onlyGivenNames x1
  extract_lets -underBinder -merge -useContext +onlyGivenNames x2
  split
  · refine InOut.next ?_
    exact hs
  · refine pred_ite ?_ ?_
    · refine InOut.next ?_
      exact hs
    · refine pred_ite ?_ ?_
      · refine InOut.next ?_
        refine State.resend_keeps _ ?_ _ _ _
        refine State.setTxFlow_keeps _ ?_ _ _
        exact hs
      · extract_lets -underBinder -merge -useContext +onlyGivenNames x6 x7
        have h7 : Keeps s₀ x7 := by
          unfold x7
          refine State.setTxFlow_keeps _ ?_ _ _
          exact hs
        extract_lets -underBinder -merge -useContext +onlyGivenNames x8
        have h8 : Keeps s₀ x8 := by
          unfold x8
          refine State.breachOpen_keeps _ ?_ _ _
          exact h7
        extract_lets -underBinder -merge -useContext +onlyGivenNames x9
        refine InOut.next ?_
        refine pred_ite ?_ ?_
        · refine State.loseTwin_keeps _ ?_ _
          exact h8
        · refine pred_ite ?_ ?_
          · exact h8
          · exact Keeps.upd h8

theorem execFence_keeps {s₀ : State} (p : Port) (s : State) (hs : Keeps s₀ s) :
    InOut (Keeps s₀) (execFence p s) := by
  unfold execFence
  refine InOut.next ?_
  refine State.fencePort_keeps _ ?_ _
  exact hs

theorem execFlitReceive_keeps {s₀ : State} (p : Port) (bytes : List Byte) (fec : FecResult) (s : State) (hs : Keeps s₀ s) :
    InOut (Keeps s₀) (execFlitReceive p bytes fec s) := by
  unfold execFlitReceive
  refine pred_ite ?_ ?_
  · refine InOut.next ?_
    exact hs
  · extract_lets -underBinder -merge -useContext +onlyGivenNames x1
    have h1 : In22 (Keeps s₀) x1 := by
      unfold x1
      refine State.rxFlit_keeps _ ?_ _ _ _
      exact hs
    extract_lets -underBinder -merge -useContext +onlyGivenNames x2
    have h2 : Keeps s₀ x2 := by
      unfold x2
      exact h1.out
    extract_lets -underBinder -merge -useContext +onlyGivenNames x3
    have h3 : Keeps s₀ x3 := by
      unfold x3
      refine pred_ite ?_ ?_
      · exact h2
      · refine State.refusePkt_keeps _ ?_ _ _ _ _
        exact h2
    refine InOut.next ?_
    refine State.pump_keeps _ ?_ _
    refine pred_foldl ?_ ?_
    · intro x4 h4 a4
      refine State.portPkt_keeps _ ?_ _ _ _
      exact h4
    · exact h3

theorem execLaneFail_keeps {s₀ : State} (p : Port) (lane : Fin 5) (s : State) (hs : Keeps s₀ s) :
    InOut (Keeps s₀) (execLaneFail p lane s) := by
  unfold execLaneFail
  extract_lets -underBinder -merge -useContext +onlyGivenNames x1
  refine pred_ite ?_ ?_
  · refine InOut.next ?_
    exact hs
  · refine pred_ite ?_ ?_
    · refine InOut.next ?_
      refine State.portDown_keeps _ ?_ _
      exact hs
    · extract_lets -underBinder -merge -useContext +onlyGivenNames x2
      have h2 : Keeps s₀ x2 := by
        unfold x2
        refine State.sendCtl_keeps _ ?_ _ _
        exact hs
      extract_lets -underBinder -merge -useContext +onlyGivenNames x3 x4
      have h4 : Keeps s₀ x4 := by
        unfold x4
        refine State.setLink_keeps _ ?_ _ _
        exact h2
      extract_lets -underBinder -merge -useContext +onlyGivenNames x5
      refine InOut.next ?_
      refine State.openWindow_keeps _ ?_ _ _ _
      refine State.breachOpen_keeps _ ?_ _ _
      exact h4

theorem execLaneSwapComplete_keeps {s₀ : State} (p : Port) (s : State) (hs : Keeps s₀ s) :
    InOut (Keeps s₀) (execLaneSwapComplete p s) := by
  unfold execLaneSwapComplete
  split
  · refine InOut.next ?_
    exact hs
  · extract_lets -underBinder -merge -useContext +onlyGivenNames x3 x4
    have h4 : Keeps s₀ x4 := by
      unfold x4
      refine State.setLink_keeps _ ?_ _ _
      refine State.setRegF_keeps _ ?_ _ _ _ _
      exact hs
    refine InOut.next ?_
    refine State.closeWindow_keeps _ ?_ _ _
    refine State.swapDone_keeps _ ?_ _
    refine State.sendCtl_keeps _ ?_ _ _
    refine State.wantRetry_keeps _ ?_ _
    exact h4

theorem execLinkCtlFenceNotice_keeps {s₀ : State} (p : Port) (s : State) (hs : Keeps s₀ s) :
    InOut (Keeps s₀) (execLinkCtlFenceNotice p s) := by
  unfold execLinkCtlFenceNotice
  have h1 : InSome (Keeps s₀) (s.takeRx (↑p) 64) := by
    refine State.takeRx_keeps _ ?_ _ _
    exact hs
  generalize (s.takeRx (↑p) 64) = z1 at h1 ⊢
  split
  · refine InOut.next ?_
    refine pred_ite ?_ ?_
    · exact (h1 _ rfl)
    · exact hs
  · refine InOut.next ?_
    exact hs

theorem execLinkCtlSwapDone_keeps {s₀ : State} (p : Port) (s : State) (hs : Keeps s₀ s) :
    InOut (Keeps s₀) (execLinkCtlSwapDone p s) := by
  unfold execLinkCtlSwapDone
  have h1 : InSome (Keeps s₀) (s.takeRx (↑p) 64) := by
    refine State.takeRx_keeps _ ?_ _ _
    exact hs
  generalize (s.takeRx (↑p) 64) = z1 at h1 ⊢
  split
  · refine pred_ite ?_ ?_
    · extract_lets -underBinder -merge -useContext +onlyGivenNames x4
      extract_lets -underBinder -merge -useContext +onlyGivenNames x5 x6
      have h6 : Keeps s₀ x6 := by
        unfold x6
        refine State.setLink_keeps _ ?_ _ _
        exact (h1 _ rfl)
      refine InOut.next ?_
      refine pred_ite ?_ ?_
      · refine State.pump_keeps _ ?_ _
        refine State.swapDone_keeps _ ?_ _
        exact h6
      · exact h6
    · refine InOut.next ?_
      exact hs
  · refine InOut.next ?_
    exact hs

theorem execLinkCtlSwapRequest_keeps {s₀ : State} (p : Port) (s : State) (hs : Keeps s₀ s) :
    InOut (Keeps s₀) (execLinkCtlSwapRequest p s) := by
  unfold execLinkCtlSwapRequest
  have h1 : InSome (Keeps s₀) (s.takeRx (↑p) 64) := by
    refine State.takeRx_keeps _ ?_ _ _
    exact hs
  generalize (s.takeRx (↑p) 64) = z1 at h1 ⊢
  split
  · refine pred_ite ?_ ?_
    · extract_lets -underBinder -merge -useContext +onlyGivenNames x4 x5
      have h5 : Keeps s₀ x5 := by
        unfold x5
        refine State.setLink_keeps _ ?_ _ _
        exact (h1 _ rfl)
      refine InOut.next ?_
      refine State.setRegF_keeps _ ?_ _ _ _ _
      refine In2.out ?_
      refine State.draw_keeps _ ?_
      exact h5
    · refine InOut.next ?_
      exact hs
  · refine InOut.next ?_
    exact hs

theorem execLinkSilence_keeps {s₀ : State} (p : Port) (s : State) (hs : Keeps s₀ s) :
    InOut (Keeps s₀) (execLinkSilence p s) := by
  unfold execLinkSilence
  refine InOut.next ?_
  refine pred_ite ?_ ?_
  · refine State.portDown_keeps _ ?_ _
    exact hs
  · refine pred_ite ?_ ?_
    · refine State.linkDown_keeps _ ?_ _
      exact hs
    · exact hs

theorem execNak_keeps {s₀ : State} (p : Port) (s : State) (hs : Keeps s₀ s) :
    InOut (Keeps s₀) (execNak p s) := by
  unfold execNak
  have h1 : InSome (Keeps s₀) (s.takeRx (↑p) 2) := by
    refine State.takeRx_keeps _ ?_ _ _
    exact hs
  generalize (s.takeRx (↑p) 2) = z1 at h1 ⊢
  split
  · refine InOut.next ?_
    exact hs
  · extract_lets -underBinder -merge -useContext +onlyGivenNames x5
    extract_lets -underBinder -merge -useContext +onlyGivenNames x6
    refine pred_ite ?_ ?_
    · refine InOut.next ?_
      refine State.resend_keeps _ ?_ _ _ _
      exact (h1 _ rfl)
    · refine pred_ite ?_ ?_
      · refine InOut.next ?_
        refine State.loseTwin_keeps _ ?_ _
        exact Keeps.upd (h1 _ rfl)
      · refine pred_ite ?_ ?_
        · refine InOut.next ?_
          refine State.loseTwin_keeps _ ?_ _
          exact (h1 _ rfl)
        · refine InOut.next ?_
          exact (h1 _ rfl)

theorem execPortTrain_keeps {s₀ : State} (x : PortMarks) (s : State) (hs : Keeps s₀ s) :
    InOut (Keeps s₀) (execPortTrain x s) := by
  unfold execPortTrain
  extract_lets -underBinder -merge -useContext +onlyGivenNames x1
  extract_lets -underBinder -merge -useContext +onlyGivenNames x2
  refine pred_ite ?_ ?_
  · refine InOut.next ?_
    exact hs
  · extract_lets -underBinder -merge -useContext +onlyGivenNames x3
    have h3 : Keeps s₀ x3 := by
      unfold x3
      refine pred_ite ?_ ?_
      · refine State.portAttempt_keeps _ ?_ _
        exact hs
      · exact hs
    refine pred_ite ?_ ?_
    · split
      · refine InOut.next ?_
        exact h3
      · refine InOut.next ?_
        refine State.sendCtl_keeps _ ?_ _ _
        refine State.setLink_keeps _ ?_ _ _
        exact h3
    · extract_lets -underBinder -merge -useContext +onlyGivenNames x6 x7
      have h7 : Keeps s₀ x7 := by
        unfold x7
        refine State.setLink_keeps _ ?_ _ _
        exact h3
      refine InOut.next ?_
      refine pred_ite ?_ ?_
      · refine State.clockIn_keeps _ ?_ _
        exact h7
      · exact h7

theorem execPortTrainTimeout_keeps {s₀ : State} (p : Port) (s : State) (hs : Keeps s₀ s) :
    InOut (Keeps s₀) (execPortTrainTimeout p s) := by
  unfold execPortTrainTimeout
  refine pred_ite ?_ ?_
  · refine InOut.next ?_
    refine State.portAttempt_keeps _ ?_ _
    refine State.setLink_keeps _ ?_ _ _
    exact hs
  · refine InOut.next ?_
    exact hs

theorem execRetryTimeout_keeps {s₀ : State} (l : Link) (s : State) (hs : Keeps s₀ s) :
    InOut (Keeps s₀) (execRetryTimeout l s) := by
  unfold execRetryTimeout
  refine InOut.next ?_
  refine State.replayLink_keeps _ ?_ _
  exact hs

theorem execSpareLaneTrainTimeout_keeps {s₀ : State} (p : Port) (s : State) (hs : Keeps s₀ s) :
    InOut (Keeps s₀) (execSpareLaneTrainTimeout p s) := by
  unfold execSpareLaneTrainTimeout
  refine InOut.next ?_
  refine pred_ite ?_ ?_
  · refine State.portDown_keeps _ ?_ _
    exact hs
  · exact hs

theorem execUnfence_keeps {s₀ : State} (p : Port) (s : State) (hs : Keeps s₀ s) :
    InOut (Keeps s₀) (execUnfence p s) := by
  unfold execUnfence
  refine InOut.next ?_
  refine State.unfencePort_keeps _ ?_ _
  exact hs

end Sys2Proof.Machine
end

