-- ==== Sys2Proof/Laws/KeepCollective.lean ====
section
/-! SUPPORT. What collectives keep (`Keeps`), one lemma for each. -/

namespace Sys2Proof.Machine

open Sys2Proof

theorem State.readSlots_keeps {s₀ : State} (s : State) (hs : Keeps s₀ s) (d : Desc) (lo : Nat) (n : Nat) :
    Keeps s₀ (State.readSlots s d lo n) := by
  unfold State.readSlots
  extract_lets -underBinder -merge -useContext +onlyGivenNames x1
  refine pred_ite ?_ ?_
  · exact hs
  · refine State.readRange_keeps _ ?_ _ _
    exact hs

theorem State.gatherRead_keeps {s₀ : State} (s : State) (hs : Keeps s₀ s) (d : Desc) (lo : Nat) (count : Nat) :
    Keeps s₀ (State.gatherRead s d lo count) := by
  unfold State.gatherRead
  refine pred_ite ?_ ?_
  · refine State.readElems_keeps _ ?_ _
    exact hs
  · refine State.readSlots_keeps _ ?_ _ _ _
    exact hs

theorem State.scatter_keeps {s₀ : State} (s : State) (hs : Keeps s₀ s) (R : Ring) (r : Nat) (j : Nat) (payload : List Byte) :
    Keeps s₀ (State.scatter s R r j payload) := by
  unfold State.scatter
  split
  · exact hs
  · extract_lets -underBinder -merge -useContext +onlyGivenNames x3
    extract_lets -underBinder -merge -useContext +onlyGivenNames x4
    refine In1.out ?_
    refine State.commitStage_keeps _ ?_ _ _ _
    exact hs

theorem State.workColl_keeps {s₀ : State} (s : State) (hs : Keeps s₀ s) (half : Nat) (idx : Nat) :
    Keeps s₀ (State.workColl s half idx) := by
  unfold State.workColl
  refine State.setReg_keeps _ ?_ _ _
  exact hs

theorem State.restColl_keeps {s₀ : State} (s : State) (hs : Keeps s₀ s) (idx : Nat) :
    Keeps s₀ (State.restColl s idx) := by
  unfold State.restColl
  refine pred_foldl ?_ ?_
  · intro x1 h1 a1
    refine pred_ite ?_ ?_
    · refine State.setReg_keeps _ ?_ _ _
      exact h1
    · exact h1
  · exact hs

theorem State.sendColl_keeps {s₀ : State} (s : State) (hs : Keeps s₀ s) (half : Nat) (op : Nat) (R : Ring) (step : Nat) (chunk : Nat) (payload : List Byte) :
    Keeps s₀ (State.sendColl s half op R step chunk payload) := by
  unfold State.sendColl
  extract_lets -underBinder -merge -useContext +onlyGivenNames x1 x2
  have h2 : Keeps s₀ x2 := by
    unfold x2
    refine pred_ite ?_ ?_
    · exact Keeps.upd hs
    · exact hs
  refine State.e2eSend_keeps _ ?_ _ _ _ _ _ _ _
  refine State.workColl_keeps _ ?_ _ _
  exact h2

theorem State.countChunk_keeps {s₀ : State} (s : State) (hs : Keeps s₀ s) (half : Nat) :
    Keeps s₀ (State.countChunk s half) := by
  unfold State.countChunk
  refine State.count_keeps _ ?_ _ _ _ _
  refine State.inc_keeps _ ?_ _ _
  exact hs

theorem State.gatherChunk_keeps {s₀ : State} (s : State) (hs : Keeps s₀ s) (half : Nat) (R : Ring) (step : Nat) (r : Nat) (j : Nat) (payload : List Byte) (own : Bool) :
    Keeps s₀ (State.gatherChunk s half R step r j payload own) := by
  unfold State.gatherChunk
  extract_lets -underBinder -merge -useContext +onlyGivenNames x1
  extract_lets -underBinder -merge -useContext +onlyGivenNames x2
  have h2 : Keeps s₀ x2 := by
    unfold x2
    refine State.scatter_keeps _ ?_ _ _ _ _
    exact hs
  extract_lets -underBinder -merge -useContext +onlyGivenNames x3 x4
  have h4 : Keeps s₀ x4 := by
    unfold x4
    refine pred_ite ?_ ?_
    · exact h2
    · exact Keeps.upd h2
  extract_lets -underBinder -merge -useContext +onlyGivenNames x5
  have h5 : Keeps s₀ x5 := by
    unfold x5
    refine State.workColl_keeps _ ?_ _ _
    exact h4
  extract_lets -underBinder -merge -useContext +onlyGivenNames x6
  have h6 : Keeps s₀ x6 := by
    unfold x6
    refine pred_ite ?_ ?_
    · refine State.restColl_keeps _ ?_ _
      exact h5
    · exact h5
  refine pred_ite ?_ ?_
  · exact h6
  · refine State.sendColl_keeps _ ?_ _ _ _ _ _ _
    refine pred_ite ?_ ?_
    · exact h6
    · refine State.countChunk_keeps _ ?_ _
      exact h6

theorem State.startGather_keeps {s₀ : State} (s : State) (hs : Keeps s₀ s) (R : Ring) (step : Nat) :
    Keeps s₀ (State.startGather s R step) := by
  unfold State.startGather
  extract_lets -underBinder -merge -useContext +onlyGivenNames x1
  extract_lets -underBinder -merge -useContext +onlyGivenNames x2
  clear_value x2
  split
  · exact hs
  · refine pred_ite ?_ ?_
    · refine pred_foldl ?_ ?_
      · intro x5 h5 a5
        extract_lets -underBinder -merge -useContext +onlyGivenNames x6
        have h6 : Keeps s₀ x6 := by
          unfold x6
          refine State.gatherRead_keeps _ ?_ _ _ _
          exact h5
        refine State.gatherChunk_keeps _ ?_ _ _ _ _ _ _ _
        exact h6
      · exact hs
    · exact hs

theorem State.tellEmpty_keeps {s₀ : State} (s : State) (hs : Keeps s₀ s) (R : Ring) (step : Nat) :
    Keeps s₀ (State.tellEmpty s R step) := by
  unfold State.tellEmpty
  split
  · refine pred_ite ?_ ?_
    · exact hs
    · refine pred_foldl ?_ ?_
      · intro x2 h2 a2
        refine pred_ite ?_ ?_
        · refine State.setEngine_keeps _ ?_ _ _
          exact h2
        · exact h2
      · exact hs
  · exact hs

theorem State.readElements_keeps {s₀ : State} (s : State) (hs : Keeps s₀ s) (d : Desc) (gs : List (List Nat)) :
    Keeps s₀ (State.readElements s d gs) := by
  unfold State.readElements
  extract_lets -underBinder -merge -useContext +onlyGivenNames x1
  refine pred_ite ?_ ?_
  · refine State.readElems_keeps _ ?_ _
    exact hs
  · refine pred_foldl ?_ ?_
    · intro x2 h2 a2
      refine State.readSlots_keeps _ ?_ _ _ _
      exact h2
    · exact hs

theorem State.taintRing_keeps {s₀ : State} (s : State) (hs : Keeps s₀ s) (half : Nat) (R : Ring) (step : Nat) :
    Keeps s₀ (State.taintRing s half R step) := by
  unfold State.taintRing
  split
  · refine State.taint_keeps _ ?_ _ _ _ _ _
    exact hs
  · exact hs

theorem State.ownRows_keeps {s₀ : State} (s : State) (hs : Keeps s₀ s) (half : Nat) (R : Ring) (step : Nat) (r : Nat) :
    In2 (Keeps s₀) (State.ownRows s half R step r) := by
  unfold State.ownRows
  split
  · extract_lets -underBinder -merge -useContext +onlyGivenNames x3
    extract_lets -underBinder -merge -useContext +onlyGivenNames x4
    extract_lets -underBinder -merge -useContext +onlyGivenNames x5
    have h5 : Keeps s₀ x5 := by
      unfold x5
      refine State.readElements_keeps _ ?_ _ _
      exact hs
    refine In2.mk ?_
    refine pred_ite ?_ ?_
    · refine State.taintRing_keeps _ ?_ _ _ _
      exact h5
    · exact h5
  · refine In2.mk ?_
    exact hs

theorem State.rowsOn_keeps {s₀ : State} (s : State) (hs : Keeps s₀ s) (half : Nat) (R : Ring) (step : Nat) (r : Nat) (rows : List (Nat × List Word)) :
    Keeps s₀ (State.rowsOn s half R step r rows) := by
  unfold State.rowsOn
  extract_lets -underBinder -merge -useContext +onlyGivenNames x1
  split
  · exact hs
  · refine pred_ite ?_ ?_
    · extract_lets -underBinder -merge -useContext +onlyGivenNames x4
      have h4 : ∀ x5 : State, Keeps s₀ x5 → ∀ x6 : Nat, ∀ x7 : Chunk, Keeps s₀ (x4 x5 x6 x7) := by
        unfold x4
        intro x5 h5 x6 x7
        try beta_reduce
        refine State.setEngine_keeps _ ?_ _ _
        exact h5
      extract_lets -underBinder -merge -useContext +onlyGivenNames x8
      have h8 : Keeps s₀ x8 := by
        unfold x8
        refine pred_foldl ?_ ?_
        · intro x9 h9 a9
          refine h4 _ ?_ _ _
          exact h9
        · exact hs
      refine pred_foldl ?_ ?_
      · intro x10 h10 a10
        refine h4 _ ?_ _ _
        exact h10
      · exact h8
    · extract_lets -underBinder -merge -useContext +onlyGivenNames x11
      refine pred_foldl ?_ ?_
      · intro x12 h12 a12
        refine State.sendColl_keeps _ ?_ _ _ _ _ _ _
        exact h12
      · exact hs

theorem State.contribution_keeps {s₀ : State} (s : State) (hs : Keeps s₀ s) (half : Nat) (R : Ring) (step : Nat) (r : Nat) (j : Nat) :
    In2 (Keeps s₀) (State.contribution s half R step r j) := by
  unfold State.contribution
  split
  · refine In2.mk ?_
    exact hs
  · extract_lets -underBinder -merge -useContext +onlyGivenNames x3
    extract_lets -underBinder -merge -useContext +onlyGivenNames x4
    extract_lets -underBinder -merge -useContext +onlyGivenNames x5
    have h5 : Keeps s₀ x5 := by
      unfold x5
      refine State.readElements_keeps _ ?_ _ _
      exact hs
    refine In2.mk ?_
    refine pred_ite ?_ ?_
    · refine State.taintRing_keeps _ ?_ _ _ _
      exact h5
    · exact h5

theorem State.deliver_keeps {s₀ : State} (s : State) (hs : Keeps s₀ s) (half : Nat) (R : Ring) (step : Nat) (r : Nat) (j : Nat) (vals : List Word) :
    Keeps s₀ (State.deliver s half R step r j vals) := by
  unfold State.deliver
  split
  · extract_lets -underBinder -merge -useContext +onlyGivenNames x2
    extract_lets -underBinder -merge -useContext +onlyGivenNames x3
    refine State.setEngine_keeps _ ?_ _ _
    exact hs
  · extract_lets -underBinder -merge -useContext +onlyGivenNames x5
    extract_lets -underBinder -merge -useContext +onlyGivenNames x6
    have h6 : Keeps s₀ x6 := by
      unfold x6
      refine pred_ite ?_ ?_
      · exact hs
      · refine State.put_keeps _ ?_ _ _ _ _
        exact hs
    refine State.gatherChunk_keeps _ ?_ _ _ _ _ _ _ _
    exact h6

theorem State.reduceOn_keeps {s₀ : State} (s : State) (hs : Keeps s₀ s) (half : Nat) (R : Ring) (step : Nat) (r : Nat) (j : Nat) (vals : List Word) :
    Keeps s₀ (State.reduceOn s half R step r j vals) := by
  unfold State.reduceOn
  extract_lets -underBinder -merge -useContext +onlyGivenNames x1
  refine pred_ite ?_ ?_
  · refine State.deliver_keeps _ ?_ _ _ _ _ _ _
    exact hs
  · refine State.sendColl_keeps _ ?_ _ _ _ _ _ _
    exact hs

theorem State.startReduce_keeps {s₀ : State} (s : State) (hs : Keeps s₀ s) (R : Ring) (step : Nat) :
    Keeps s₀ (State.startReduce s R step) := by
  unfold State.startReduce
  extract_lets -underBinder -merge -useContext +onlyGivenNames x1
  have h1 : Keeps s₀ x1 := by
    unfold x1
    refine State.tellEmpty_keeps _ ?_ _ _
    exact hs
  refine pred_foldl ?_ ?_
  · intro x2 h2 a2
    refine pred_ite ?_ ?_
    · extract_lets -underBinder -merge -useContext +onlyGivenNames x3
      have h3 : In2 (Keeps s₀) x3 := by
        unfold x3
        refine State.ownRows_keeps _ ?_ _ _ _ _
        exact h2
      refine State.rowsOn_keeps _ ?_ _ _ _ _ _
      exact h3.out
    · refine pred_foldl ?_ ?_
      · intro x4 h4 a4
        extract_lets -underBinder -merge -useContext +onlyGivenNames x5
        have h5 : In2 (Keeps s₀) x5 := by
          unfold x5
          refine State.contribution_keeps _ ?_ _ _ _ _ _
          exact h4
        refine State.reduceOn_keeps _ ?_ _ _ _ _ _ _
        exact h5.out
      · exact h2
  · exact h1

theorem State.startColls_keeps {s₀ : State} (s : State) (hs : Keeps s₀ s) (step : Nat) :
    Keeps s₀ (State.startColls s step) := by
  unfold State.startColls
  split
  · exact hs
  · refine pred_foldl ?_ ?_
    · intro x3 h3 a3
      split
      · refine pred_ite ?_ ?_
        · refine State.startGather_keeps _ ?_ _ _
          exact h3
        · refine State.startReduce_keeps _ ?_ _ _
          exact h3
      · exact h3
    · exact hs

theorem State.hopRows_keeps {s₀ : State} (s : State) (hs : Keeps s₀ s) (half : Nat) (R : Ring) (step : Nat) (r : Nat) (arr : List (Nat × List Word)) :
    Keeps s₀ (State.hopRows s half R step r arr) := by
  unfold State.hopRows
  split
  · exact hs
  · extract_lets -underBinder -merge -useContext +onlyGivenNames x3
    have h3 : In2 (Keeps s₀) x3 := by
      unfold x3
      refine State.ownRows_keeps _ ?_ _ _ _ _
      exact hs
    extract_lets -underBinder -merge -useContext +onlyGivenNames x4
    extract_lets -underBinder -merge -useContext +onlyGivenNames x5
    extract_lets -underBinder -merge -useContext +onlyGivenNames x6
    have h6 : Keeps s₀ x6 := by
      unfold x6
      refine pred_foldl ?_ ?_
      · intro x7 h7 a7
        extract_lets -underBinder -merge -useContext +onlyGivenNames x8
        refine State.inc_keeps _ ?_ _ _
        exact h7
      · exact h3.out
    refine State.rowsOn_keeps _ ?_ _ _ _ _ _
    refine State.countChunk_keeps _ ?_ _
    exact h6

theorem State.addRows_keeps {s₀ : State} (s : State) (hs : Keeps s₀ s) (half : Nat) (R : Ring) (step : Nat) (r : Nat) (rows : List Nat) :
    Keeps s₀ (State.addRows s half R step r rows) := by
  unfold State.addRows
  split
  · exact hs
  · extract_lets -underBinder -merge -useContext +onlyGivenNames x3
    extract_lets -underBinder -merge -useContext +onlyGivenNames x4
    have h4 : Keeps s₀ x4 := by
      unfold x4
      refine pred_foldl ?_ ?_
      · intro x5 h5 a5
        refine State.readRange_keeps _ ?_ _ _
        exact h5
      · exact hs
    refine State.hopRows_keeps _ ?_ _ _ _ _ _
    refine pred_ite ?_ ?_
    · refine State.taintRing_keeps _ ?_ _ _ _
      exact h4
    · exact h4

theorem State.normOut_keeps {s₀ : State} (s : State) (hs : Keeps s₀ s) (u : UGroup) (step : Nat) (a : Norm) :
    Keeps s₀ (State.normOut s u step a) := by
  unfold State.normOut
  refine pred_foldl ?_ ?_
  · intro x1 h1 a1
    refine State.setEngine_keeps _ ?_ _ _
    exact h1
  · exact hs

theorem State.sendNorm_keeps {s₀ : State} (s : State) (hs : Keeps s₀ s) (u : UGroup) (g : ShardGroup) (step : Nat) (leg : Nat) (a : Norm) :
    Keeps s₀ (State.sendNorm s u g step leg a) := by
  unfold State.sendNorm
  extract_lets -underBinder -merge -useContext +onlyGivenNames x1 x2
  have h2 : Keeps s₀ x2 := by
    unfold x2
    refine pred_ite ?_ ?_
    · exact Keeps.upd hs
    · exact hs
  refine State.e2eSend_keeps _ ?_ _ _ _ _ _ _ _
  exact h2

theorem State.normGo_keeps {s₀ : State} (s : State) (hs : Keeps s₀ s) (u : UGroup) (g : ShardGroup) (step : Nat) :
    Keeps s₀ (State.normGo s u g step) := by
  unfold State.normGo
  split
  · exact hs
  · extract_lets -underBinder -merge -useContext +onlyGivenNames x3
    extract_lets -underBinder -merge -useContext +onlyGivenNames x4
    clear_value x4
    refine pred_ite ?_ ?_
    · exact hs
    · split
      · exact hs
      · extract_lets -underBinder -merge -useContext +onlyGivenNames x8
        extract_lets -underBinder -merge -useContext +onlyGivenNames x9
        extract_lets -underBinder -merge -useContext +onlyGivenNames x10
        have h10 : Keeps s₀ x10 := by
          unfold x10
          exact Keeps.upd hs
        refine pred_ite ?_ ?_
        · extract_lets -underBinder -merge -useContext +onlyGivenNames x11
          have h11 : Keeps s₀ x11 := by
            unfold x11
            refine State.normOut_keeps _ ?_ _ _ _
            exact h10
          refine pred_ite ?_ ?_
          · exact h11
          · refine State.sendNorm_keeps _ ?_ _ _ _ _ _
            exact h11
        · refine State.sendNorm_keeps _ ?_ _ _ _ _ _
          exact h10

theorem State.setNorm_keeps {s₀ : State} (s : State) (hs : Keeps s₀ s) (u : UGroup) (step : Nat) (f : NormRun → NormRun) :
    Keeps s₀ (State.setNorm s u step f) := by
  unfold State.setNorm
  extract_lets -underBinder -merge -useContext +onlyGivenNames x1
  extract_lets -underBinder -merge -useContext +onlyGivenNames x2
  extract_lets -underBinder -merge -useContext +onlyGivenNames x3
  exact Keeps.upd hs

theorem State.normHear_keeps {s₀ : State} (s : State) (hs : Keeps s₀ s) (u : UGroup) (e : Nat) (step : Nat) (a : Norm) :
    Keeps s₀ (State.normHear s u e step a) := by
  unfold State.normHear
  split
  · refine State.normGo_keeps _ ?_ _ _ _
    refine State.setNorm_keeps _ ?_ _ _ _
    exact hs
  · exact hs

theorem State.sumVals_keeps {s₀ : State} (s : State) (hs : Keeps s₀ s) (half : Nat) (a : List Word) (b : List Word) :
    In2 (Keeps s₀) (State.sumVals s half a b) := by
  unfold State.sumVals
  extract_lets -underBinder -merge -useContext +onlyGivenNames x1
  refine In2.mk ?_
  refine State.inc_keeps _ ?_ _ _
  exact hs

theorem State.hopAdd_keeps {s₀ : State} (s : State) (hs : Keeps s₀ s) (half : Nat) (R : Ring) (step : Nat) (r : Nat) (j : Nat) (arr : List Word) :
    Keeps s₀ (State.hopAdd s half R step r j arr) := by
  unfold State.hopAdd
  extract_lets -underBinder -merge -useContext +onlyGivenNames x1
  extract_lets -underBinder -merge -useContext +onlyGivenNames x2
  have h2 : In2 (Keeps s₀) x2 := by
    unfold x2
    refine State.contribution_keeps _ ?_ _ _ _ _ _
    exact hs
  extract_lets -underBinder -merge -useContext +onlyGivenNames x3
  have h3 : In2 (Keeps s₀) x3 := by
    unfold x3
    refine State.sumVals_keeps _ ?_ _ _ _
    exact h2.out
  refine State.reduceOn_keeps _ ?_ _ _ _ _ _ _
  refine State.countChunk_keeps _ ?_ _
  exact h3.out

theorem State.stagePartial_keeps {s₀ : State} (s : State) (hs : Keeps s₀ s) (half : Nat) (R : Ring) (step : Nat) (r : Nat) (j : Nat) (payload : List Byte) :
    Keeps s₀ (State.stagePartial s half R step r j payload) := by
  unfold State.stagePartial
  extract_lets -underBinder -merge -useContext +onlyGivenNames x1
  extract_lets -underBinder -merge -useContext +onlyGivenNames x2
  have h2 : Keeps s₀ x2 := by
    unfold x2
    refine State.put_keeps _ ?_ _ _ _ _
    exact hs
  extract_lets -underBinder -merge -useContext +onlyGivenNames x3
  extract_lets -underBinder -merge -useContext +onlyGivenNames x4
  have h4 : Keeps s₀ x4 := by
    unfold x4
    exact Keeps.upd h2
  refine State.count_keeps _ ?_ _ _ _ _
  refine State.inc_keeps _ ?_ _ _
  exact h4

theorem State.stageRows_keeps {s₀ : State} (s : State) (hs : Keeps s₀ s) (R : Ring) (d : Nat) (r : Nat) (recs : List (Nat × List Word)) :
    Keeps s₀ (State.stageRows s R d r recs) := by
  unfold State.stageRows
  refine pred_foldl ?_ ?_
  · intro x1 h1 a1
    refine State.put_keeps _ ?_ _ _ _ _
    exact h1
  · exact hs

theorem State.takePartial_keeps {s₀ : State} (s : State) (hs : Keeps s₀ s) (half : Nat) (R : Ring) (step : Nat) (chunk : Nat) (payload : List Byte) :
    Keeps s₀ (State.takePartial s half R step chunk payload) := by
  unfold State.takePartial
  extract_lets -underBinder -merge -useContext +onlyGivenNames x1
  extract_lets -underBinder -merge -useContext +onlyGivenNames x2
  refine pred_ite ?_ ?_
  · refine State.hopAdd_keeps _ ?_ _ _ _ _ _ _
    exact hs
  · refine State.stagePartial_keeps _ ?_ _ _ _ _ _ _
    exact hs

theorem State.takeRows_keeps {s₀ : State} (s : State) (hs : Keeps s₀ s) (half : Nat) (R : Ring) (step : Nat) (chunk : Nat) (payload : List Byte) :
    Keeps s₀ (State.takeRows s half R step chunk payload) := by
  unfold State.takeRows
  extract_lets -underBinder -merge -useContext +onlyGivenNames x1
  extract_lets -underBinder -merge -useContext +onlyGivenNames x2
  extract_lets -underBinder -merge -useContext +onlyGivenNames x3
  extract_lets -underBinder -merge -useContext +onlyGivenNames x4
  clear_value x4
  extract_lets -underBinder -merge -useContext +onlyGivenNames x5
  extract_lets -underBinder -merge -useContext +onlyGivenNames x6
  extract_lets -underBinder -merge -useContext +onlyGivenNames x7
  extract_lets -underBinder -merge -useContext +onlyGivenNames x8
  extract_lets -underBinder -merge -useContext +onlyGivenNames x9
  have h9 : Keeps s₀ x9 := by
    unfold x9
    exact Keeps.upd hs
  extract_lets -underBinder -merge -useContext +onlyGivenNames x10
  have h10 : ∀ x11 : State, Keeps s₀ x11 → ∀ x12 : List Nat, ∀ x13 : List Byte, Keeps s₀ (x10 x11 x12 x13) := by
    unfold x10
    intro x11 h11 x12 x13
    try beta_reduce
    exact Keeps.upd h11
  refine pred_ite ?_ ?_
  · refine pred_ite ?_ ?_
    · refine State.hopRows_keeps _ ?_ _ _ _ _ _
      exact h9
    · refine h10 _ ?_ _ _
      exact h9
  · extract_lets -underBinder -merge -useContext +onlyGivenNames x14
    extract_lets -underBinder -merge -useContext +onlyGivenNames x15
    have h15 : Keeps s₀ x15 := by
      unfold x15
      refine State.stageRows_keeps _ ?_ _ _ _ _
      exact h9
    extract_lets -underBinder -merge -useContext +onlyGivenNames x16
    have h16 : Keeps s₀ x16 := by
      unfold x16
      refine pred_ite ?_ ?_
      · refine State.count_keeps _ ?_ _ _ _ _
        refine State.inc_keeps _ ?_ _ _
        exact h15
      · exact h15
    refine pred_ite ?_ ?_
    · refine State.addRows_keeps _ ?_ _ _ _ _ _
      exact h16
    · refine h10 _ ?_ _ _
      exact h16

theorem execCag_keeps {s₀ : State} (p : Port) (s : State) (hs : Keeps s₀ s) :
    InOut (Keeps s₀) (execCag p s) := by
  unfold execCag
  refine pred_ite ?_ ?_
  · refine InOut.next ?_
    exact hs
  · have h1 : InSome (Keeps s₀) (s.takeRx (↑p) 33) := by
      refine State.takeRx_keeps _ ?_ _ _
      exact hs
    generalize (s.takeRx (↑p) 33) = z1 at h1 ⊢
    split
    · refine InOut.next ?_
      exact hs
    · extract_lets -underBinder -merge -useContext +onlyGivenNames x5
      have h5 : In2 (Keeps s₀) x5 := by
        unfold x5
        refine State.e2eAccept_keeps _ ?_ _ _
        exact (h1 _ rfl)
      extract_lets -underBinder -merge -useContext +onlyGivenNames x6
      have h6 : Keeps s₀ x6 := by
        unfold x6
        exact h5.out
      refine pred_ite ?_ ?_
      · refine InOut.next ?_
        exact h6
      · extract_lets -underBinder -merge -useContext +onlyGivenNames x7
        extract_lets -underBinder -merge -useContext +onlyGivenNames x8
        split
        · refine InOut.next ?_
          refine State.refusePkt_keeps _ ?_ _ _ _ _
          exact h6
        · extract_lets -underBinder -merge -useContext +onlyGivenNames x11
          extract_lets -underBinder -merge -useContext +onlyGivenNames x12
          refine pred_ite ?_ ?_
          · refine InOut.next ?_
            refine State.refusePkt_keeps _ ?_ _ _ _ _
            exact h6
          · extract_lets -underBinder -merge -useContext +onlyGivenNames x13
            have h13 : Keeps s₀ x13 := by
              unfold x13
              refine State.gatherChunk_keeps _ ?_ _ _ _ _ _ _ _
              exact h6
            refine InOut.next ?_
            refine pred_ite ?_ ?_
            · refine State.startGather_keeps _ ?_ _ _
              exact Keeps.upd h13
            · exact h13

theorem execCrs_keeps {s₀ : State} (p : Port) (s : State) (hs : Keeps s₀ s) :
    InOut (Keeps s₀) (execCrs p s) := by
  unfold execCrs
  refine pred_ite ?_ ?_
  · refine InOut.next ?_
    exact hs
  · have h1 : InSome (Keeps s₀) (s.takeRx (↑p) 32) := by
      refine State.takeRx_keeps _ ?_ _ _
      exact hs
    generalize (s.takeRx (↑p) 32) = z1 at h1 ⊢
    split
    · refine InOut.next ?_
      exact hs
    · extract_lets -underBinder -merge -useContext +onlyGivenNames x5
      have h5 : In2 (Keeps s₀) x5 := by
        unfold x5
        refine State.e2eAccept_keeps _ ?_ _ _
        exact (h1 _ rfl)
      extract_lets -underBinder -merge -useContext +onlyGivenNames x6
      have h6 : Keeps s₀ x6 := by
        unfold x6
        exact h5.out
      refine pred_ite ?_ ?_
      · refine InOut.next ?_
        exact h6
      · extract_lets -underBinder -merge -useContext +onlyGivenNames x7
        extract_lets -underBinder -merge -useContext +onlyGivenNames x8
        split
        · refine InOut.next ?_
          refine State.refusePkt_keeps _ ?_ _ _ _ _
          exact h6
        · refine pred_ite ?_ ?_
          · refine InOut.next ?_
            refine State.refusePkt_keeps _ ?_ _ _ _ _
            exact h6
          · refine pred_ite ?_ ?_
            · refine InOut.next ?_
              refine State.takeRows_keeps _ ?_ _ _ _ _ _
              exact h6
            · refine InOut.next ?_
              refine State.takePartial_keeps _ ?_ _ _ _ _ _
              exact h6

theorem execCscalar_keeps {s₀ : State} (p : Port) (s : State) (hs : Keeps s₀ s) :
    InOut (Keeps s₀) (execCscalar p s) := by
  unfold execCscalar
  refine pred_ite ?_ ?_
  · refine InOut.next ?_
    exact hs
  · have h1 : InSome (Keeps s₀) (s.takeRx (↑p) 34) := by
      refine State.takeRx_keeps _ ?_ _ _
      exact hs
    generalize (s.takeRx (↑p) 34) = z1 at h1 ⊢
    split
    · refine InOut.next ?_
      exact hs
    · extract_lets -underBinder -merge -useContext +onlyGivenNames x5
      have h5 : In2 (Keeps s₀) x5 := by
        unfold x5
        refine State.e2eAccept_keeps _ ?_ _ _
        exact (h1 _ rfl)
      extract_lets -underBinder -merge -useContext +onlyGivenNames x6
      have h6 : Keeps s₀ x6 := by
        unfold x6
        exact h5.out
      refine pred_ite ?_ ?_
      · refine InOut.next ?_
        exact h6
      · extract_lets -underBinder -merge -useContext +onlyGivenNames x7
        split
        · refine InOut.next ?_
          refine State.refusePkt_keeps _ ?_ _ _ _ _
          exact h6
        · split
          · refine InOut.next ?_
            refine State.refusePkt_keeps _ ?_ _ _ _ _
            exact h6
          · extract_lets -underBinder -merge -useContext +onlyGivenNames x12
            refine pred_ite ?_ ?_
            · refine InOut.next ?_
              refine State.refusePkt_keeps _ ?_ _ _ _ _
              exact h6
            · refine pred_ite ?_ ?_
              · refine InOut.next ?_
                refine State.normGo_keeps _ ?_ _ _ _
                refine State.setNorm_keeps _ ?_ _ _ _
                exact h6
              · extract_lets -underBinder -merge -useContext +onlyGivenNames x13
                have h13 : Keeps s₀ x13 := by
                  unfold x13
                  refine State.normOut_keeps _ ?_ _ _ _
                  exact h6
                refine InOut.next ?_
                refine pred_ite ?_ ?_
                · exact h13
                · refine State.sendNorm_keeps _ ?_ _ _ _ _ _
                  exact h13

theorem execStagedPartialAdd_keeps {s₀ : State} (e : Half) (s : State) (hs : Keeps s₀ s) :
    InOut (Keeps s₀) (execStagedPartialAdd e s) := by
  unfold execStagedPartialAdd
  refine pred_ite ?_ ?_
  · refine InOut.next ?_
    exact hs
  · split
    · refine InOut.next ?_
      exact hs
    · extract_lets -underBinder -merge -useContext +onlyGivenNames x3
      have h3 : Keeps s₀ x3 := by
        unfold x3
        exact Keeps.upd hs
      split
      · refine InOut.next ?_
        exact h3
      · extract_lets -underBinder -merge -useContext +onlyGivenNames x6
        refine pred_ite ?_ ?_
        · refine InOut.next ?_
          refine State.addRows_keeps _ ?_ _ _ _ _ _
          exact h3
        · extract_lets -underBinder -merge -useContext +onlyGivenNames x7
          extract_lets -underBinder -merge -useContext +onlyGivenNames x8
          extract_lets -underBinder -merge -useContext +onlyGivenNames x9
          extract_lets -underBinder -merge -useContext +onlyGivenNames x10
          have h10 : Keeps s₀ x10 := by
            unfold x10
            refine State.readRange_keeps _ ?_ _ _
            exact h3
          extract_lets -underBinder -merge -useContext +onlyGivenNames x11
          have h11 : Keeps s₀ x11 := by
            unfold x11
            refine pred_ite ?_ ?_
            · refine State.taintRing_keeps _ ?_ _ _ _
              exact h10
            · exact h10
          refine InOut.next ?_
          refine State.hopAdd_keeps _ ?_ _ _ _ _ _ _
          exact h11

end Sys2Proof.Machine
end

