-- ==== Sys2Proof/Laws/KeepUpdate.lean ====
section
/-! SUPPORT. What the update engines keep (`Keeps`), one lemma for each. -/

namespace Sys2Proof.Machine

open Sys2Proof

theorem State.drew_keeps {s₀ : State} (s : State) (hs : Keeps s₀ s) (u : UGroup) (n : Nat) :
    Keeps s₀ (State.drew s u n) := by
  unfold State.drew
  refine pred_ite ?_ ?_
  · exact Keeps.draws hs _
  · exact hs

theorem State.copyBlockAt_keeps {s₀ : State} (s : State) (hs : Keeps s₀ s) (d : Desc) (u : UGroup) (e : Nat) (j : Nat) (limit : Nat) (k : Nat) (st : Staging) :
    In1 (Keeps s₀) (State.copyBlockAt s d u e j limit k st) := by
  unfold State.copyBlockAt
  extract_lets -underBinder -merge -useContext +onlyGivenNames x1
  extract_lets -underBinder -merge -useContext +onlyGivenNames x2
  extract_lets -underBinder -merge -useContext +onlyGivenNames x3
  extract_lets -underBinder -merge -useContext +onlyGivenNames x4
  extract_lets -underBinder -merge -useContext +onlyGivenNames x5
  extract_lets -underBinder -merge -useContext +onlyGivenNames x6
  extract_lets -underBinder -merge -useContext +onlyGivenNames x7
  extract_lets -underBinder -merge -useContext +onlyGivenNames x8
  refine In1.mk ?_
  refine State.inc_keeps _ ?_ _ _
  refine State.drew_keeps _ ?_ _ _
  exact hs

theorem State.copyMasks_keeps {s₀ : State} (s : State) (hs : Keeps s₀ s) (u : UGroup) (gen : Nat) (lo : Nat) (n : Nat) :
    Keeps s₀ (State.copyMasks s u gen lo n) := by
  unfold State.copyMasks
  split
  · extract_lets -underBinder -merge -useContext +onlyGivenNames x2
    refine State.put_keeps _ ?_ _ _ _ _
    exact hs
  · exact hs

theorem State.copySlot_keeps {s₀ : State} (s : State) (hs : Keeps s₀ s) (d : Desc) (u : UGroup) (e : Nat) (j : Nat) (limit : Nat) (k : Nat) (st : Staging) :
    In1 (Keeps s₀) (State.copySlot s d u e j limit k st) := by
  unfold State.copySlot
  extract_lets -underBinder -merge -useContext +onlyGivenNames x1
  extract_lets -underBinder -merge -useContext +onlyGivenNames x2
  extract_lets -underBinder -merge -useContext +onlyGivenNames x3
  extract_lets -underBinder -merge -useContext +onlyGivenNames x4
  extract_lets -underBinder -merge -useContext +onlyGivenNames x5
  refine In1.mk ?_
  refine State.inc_keeps _ ?_ _ _
  refine State.drew_keeps _ ?_ _ _
  exact hs

theorem State.copyOut_keeps {s₀ : State} (s : State) (hs : Keeps s₀ s) (u : UGroup) (j : Nat) (limit : Nat) (want : Nat → Bool) (mine : Nat → Bool) :
    Keeps s₀ (State.copyOut s u j limit want mine) := by
  unfold State.copyOut
  split
  · exact hs
  · extract_lets -underBinder -merge -useContext +onlyGivenNames x3
    have h3 : In1 (Keeps s₀) x3 := by
      unfold x3
      refine pred_foldl ?_ ?_
      · intro x4 h4 a4
        refine pred_ite ?_ ?_
        · refine pred_ite ?_ ?_
          · refine State.copyBlockAt_keeps _ ?_ _ _ _ _ _ _ _
            exact h4.out
          · exact h4
        · refine pred_ite ?_ ?_
          · refine State.copySlot_keeps _ ?_ _ _ _ _ _ _ _
            exact h4.out
          · exact h4
      · refine In1.mk ?_
        exact hs
    refine In1.out ?_
    refine State.commitStage_keeps _ ?_ _ _ _
    exact h3.out

theorem State.sendMwr_keeps {s₀ : State} (s : State) (hs : Keeps s₀ s) (e : Nat) (step : Nat) (group : Nat) (off : Nat) (bytes : List Byte) (isRec : Bool) :
    Keeps s₀ (State.sendMwr s e step group off bytes isRec) := by
  unfold State.sendMwr
  refine State.e2eSend_keeps _ ?_ _ _ _ _ _ _ _
  exact hs

theorem State.countIntake_keeps {s₀ : State} (s : State) (hs : Keeps s₀ s) (e : Nat) (bytes : Nat) :
    Keeps s₀ (State.countIntake s e bytes) := by
  unfold State.countIntake
  refine State.count_keeps _ ?_ _ _ _ _
  exact hs

theorem State.countPass2_keeps {s₀ : State} (s : State) (hs : Keeps s₀ s) (e : Nat) (n : Nat) (nf : Nat) :
    Keeps s₀ (State.countPass2 s e n nf) := by
  unfold State.countPass2
  refine State.count_keeps _ ?_ _ _ _ _
  refine State.inc_keeps _ ?_ _ _
  exact hs

theorem State.dropChunk_keeps {s₀ : State} (s : State) (hs : Keeps s₀ s) (e : Nat) (g : Nat) :
    Keeps s₀ (State.dropChunk s e g) := by
  unfold State.dropChunk
  refine State.breachOpen_keeps _ ?_ _ _
  refine State.inc_keeps _ ?_ _ _
  exact hs

theorem State.updWrite_keeps {s₀ : State} (s : State) (hs : Keeps s₀ s) (e : Nat) (step : Nat) (group : Nat) (a : Nat) (bytes : List Byte) (isRec : Bool) (bad : Bool) :
    Keeps s₀ (State.updWrite s e step group a bytes isRec bad) := by
  unfold State.updWrite
  refine pred_ite ?_ ?_
  · exact hs
  · extract_lets -underBinder -merge -useContext +onlyGivenNames x1
    have h1 : Keeps s₀ x1 := by
      unfold x1
      refine State.put_keeps _ ?_ _ _ _ _
      exact hs
    split
    · refine pred_ite ?_ ?_
      · refine State.sendMwr_keeps _ ?_ _ _ _ _ _ _
        exact h1
      · exact h1
    · exact h1

theorem State.updBit_keeps {s₀ : State} (s : State) (hs : Keeps s₀ s) (e : Nat) (step : Nat) (group : Nat) (a : Nat) (i : Nat) (v : Nat) :
    Keeps s₀ (State.updBit s e step group a i v) := by
  unfold State.updBit
  refine State.updWrite_keeps _ ?_ _ _ _ _ _ _ _
  exact hs

theorem State.setRun_keeps {s₀ : State} (s : State) (hs : Keeps s₀ s) (e : Nat) (g : Nat) (step : Nat) (r : GrpRun) :
    Keeps s₀ (State.setRun s e g step r) := by
  unfold State.setRun
  extract_lets -underBinder -merge -useContext +onlyGivenNames x1
  refine State.setEngine_keeps _ ?_ _ _
  exact hs

theorem State.endPass1_keeps {s₀ : State} (s : State) (hs : Keeps s₀ s) (u : UGroup) (e : Nat) (step : Nat) (r : GrpRun) :
    Keeps s₀ (State.endPass1 s u e step r) := by
  unfold State.endPass1
  extract_lets -underBinder -merge -useContext +onlyGivenNames x1
  have h1 : Keeps s₀ x1 := by
    unfold x1
    refine pred_foldl ?_ ?_
    · intro x2 h2 a2
      refine State.updBit_keeps _ ?_ _ _ _ _ _ _
      exact h2
    · exact hs
  extract_lets -underBinder -merge -useContext +onlyGivenNames x3
  extract_lets -underBinder -merge -useContext +onlyGivenNames x4
  have h4 : Keeps s₀ x4 := by
    unfold x4
    refine pred_ite ?_ ?_
    · refine State.taint_keeps _ ?_ _ _ _ _ _
      exact h1
    · exact h1
  extract_lets -underBinder -merge -useContext +onlyGivenNames x5
  extract_lets -underBinder -merge -useContext +onlyGivenNames x6
  refine State.normHear_keeps _ ?_ _ _ _ _
  refine State.setRun_keeps _ ?_ _ _ _ _
  exact h4

theorem State.gatherGroup_keeps {s₀ : State} (s : State) (hs : Keeps s₀ s) (g : Nat) (step : Nat) :
    Keeps s₀ (State.gatherGroup s g step) := by
  unfold State.gatherGroup
  split
  · exact hs
  · refine pred_foldl ?_ ?_
    · intro x3 h3 a3
      split
      · refine pred_ite ?_ ?_
        · refine State.startGather_keeps _ ?_ _ _
          exact h3
        · exact h3
      · exact h3
    · exact hs

theorem State.lateRebuild_keeps {s₀ : State} (s : State) (hs : Keeps s₀ s) (u : UGroup) (e : Nat) :
    Keeps s₀ (State.lateRebuild s u e) := by
  unfold State.lateRebuild
  split
  · refine pred_ite ?_ ?_
    · refine State.setRegF_keeps _ ?_ _ _ _ _
      refine State.inc_keeps _ ?_ _ _
      exact hs
    · exact hs
  · exact hs

theorem State.passChunk_keeps {s₀ : State} (s : State) (hs : Keeps s₀ s) (u : UGroup) (e : Nat) (step : Nat) (c : Chunk) (r : GrpRun) :
    Keeps s₀ (State.passChunk s u e step c r) := by
  unfold State.passChunk
  extract_lets -underBinder -merge -useContext +onlyGivenNames x1
  extract_lets -underBinder -merge -useContext +onlyGivenNames x2
  extract_lets -underBinder -merge -useContext +onlyGivenNames x3
  have h3 : Keeps s₀ x3 := by
    unfold x3
    refine State.updBit_keeps _ ?_ _ _ _ _ _ _
    refine State.countIntake_keeps _ ?_ _ _
    exact hs
  extract_lets -underBinder -merge -useContext +onlyGivenNames x4
  have h4 : Keeps s₀ x4 := by
    unfold x4
    refine State.updWrite_keeps _ ?_ _ _ _ _ _ _ _
    exact h3
  extract_lets -underBinder -merge -useContext +onlyGivenNames x5
  extract_lets -underBinder -merge -useContext +onlyGivenNames x6
  refine pred_ite ?_ ?_
  · refine State.endPass1_keeps _ ?_ _ _ _ _
    exact h4
  · refine State.setRun_keeps _ ?_ _ _ _ _
    exact h4

theorem State.updWords_keeps {s₀ : State} (s : State) (hs : Keeps s₀ s) (e step group n a : Nat)
    (l : List Word) : Keeps s₀ (s.updWords e step group n a l) := by
  induction n generalizing s a l with
  | zero => exact hs
  | succ n ih =>
    unfold State.updWords
    exact pred_ite hs (ih _ (State.updWrite_keeps _ hs _ _ _ _ _ _ _) _ _)

theorem State.writeState_keeps {s₀ : State} (s : State) (hs : Keeps s₀ s) (u : UGroup) (e : Nat) (step : Nat) (j : Nat) (lo : Nat) (l : List (Word × Word × Word)) :
    Keeps s₀ (State.writeState s u e step j lo l) := by
  unfold State.writeState
  extract_lets -underBinder -merge -useContext +onlyGivenNames x1
  extract_lets -underBinder -merge -useContext +onlyGivenNames x2
  have h2 : Keeps s₀ x2 := by
    unfold x2
    refine State.updWords_keeps _ ?_ _ _ _ _ _ _
    exact hs
  extract_lets -underBinder -merge -useContext +onlyGivenNames x3
  have h3 : Keeps s₀ x3 := by
    unfold x3
    refine State.updWords_keeps _ ?_ _ _ _ _ _ _
    exact h2
  refine pred_ite ?_ ?_
  · refine State.updWords_keeps _ ?_ _ _ _ _ _ _
    exact h3
  · exact h3

theorem State.writeRec_keeps {s₀ : State} (s : State) (hs : Keeps s₀ s) (u : UGroup) (e : Nat) (step : Nat) (j : Nat) (t : Word) (gen : Word) :
    Keeps s₀ (State.writeRec s u e step j t gen) := by
  unfold State.writeRec
  extract_lets -underBinder -merge -useContext +onlyGivenNames x1
  extract_lets -underBinder -merge -useContext +onlyGivenNames x2
  extract_lets -underBinder -merge -useContext +onlyGivenNames x3
  have h3 : Keeps s₀ x3 := by
    unfold x3
    refine State.updWrite_keeps _ ?_ _ _ _ _ _ _ _
    exact hs
  refine pred_ite ?_ ?_
  · extract_lets -underBinder -merge -useContext +onlyGivenNames x4
    refine State.setEngine_keeps _ ?_ _ _
    exact h3
  · exact h3

theorem State.passDense_keeps {s₀ : State} (s : State) (hs : Keeps s₀ s) (u : UGroup) (e : Nat) (step : Nat) (r : GrpRun) (a : Norm) :
    Keeps s₀ (State.passDense s u e step r a) := by
  unfold State.passDense
  extract_lets -underBinder -merge -useContext +onlyGivenNames x1
  extract_lets -underBinder -merge -useContext +onlyGivenNames x2
  extract_lets -underBinder -merge -useContext +onlyGivenNames x3
  extract_lets -underBinder -merge -useContext +onlyGivenNames x4
  extract_lets -underBinder -merge -useContext +onlyGivenNames x5
  extract_lets -underBinder -merge -useContext +onlyGivenNames x6
  have h6 : Keeps s₀ x6 := by
    unfold x6
    refine State.countPass2_keeps _ ?_ _ _ _
    refine State.writeState_keeps _ ?_ _ _ _ _ _ _
    exact hs
  extract_lets -underBinder -merge -useContext +onlyGivenNames x7
  extract_lets -underBinder -merge -useContext +onlyGivenNames x8
  have h8 : Keeps s₀ x8 := by
    unfold x8
    split
    · split
      · refine State.copyMasks_keeps _ ?_ _ _ _ _
        exact h6
      · exact h6
    · exact h6
  extract_lets -underBinder -merge -useContext +onlyGivenNames x15
  extract_lets -underBinder -merge -useContext +onlyGivenNames x16
  have h16 : Keeps s₀ x16 := by
    unfold x16
    refine State.copyOut_keeps _ ?_ _ _ _ _ _
    exact h8
  refine State.writeRec_keeps _ ?_ _ _ _ _ _ _
  exact h16

theorem State.passRow_keeps {s₀ : State} (s : State) (hs : Keeps s₀ s) (u : UGroup) (e : Nat) (step : Nat) (r : GrpRun) (a : Norm) (row : Nat) (x : Nat) :
    Keeps s₀ (State.passRow s u e step r a row x) := by
  unfold State.passRow
  extract_lets -underBinder -merge -useContext +onlyGivenNames x1
  extract_lets -underBinder -merge -useContext +onlyGivenNames x2
  extract_lets -underBinder -merge -useContext +onlyGivenNames x3
  extract_lets -underBinder -merge -useContext +onlyGivenNames x4
  extract_lets -underBinder -merge -useContext +onlyGivenNames x5
  extract_lets -underBinder -merge -useContext +onlyGivenNames x6
  extract_lets -underBinder -merge -useContext +onlyGivenNames x7
  have h7 : Keeps s₀ x7 := by
    unfold x7
    refine State.countPass2_keeps _ ?_ _ _ _
    refine State.writeState_keeps _ ?_ _ _ _ _ _ _
    exact hs
  refine State.updWrite_keeps _ ?_ _ _ _ _ _ _ _
  exact h7

theorem State.passRows_keeps {s₀ : State} (s : State) (hs : Keeps s₀ s) (u : UGroup) (e : Nat) (step : Nat) (r : GrpRun) (a : Norm) :
    Keeps s₀ (State.passRows s u e step r a) := by
  unfold State.passRows
  extract_lets -underBinder -merge -useContext +onlyGivenNames x1
  extract_lets -underBinder -merge -useContext +onlyGivenNames x2
  extract_lets -underBinder -merge -useContext +onlyGivenNames x3
  have h3 : Keeps s₀ x3 := by
    unfold x3
    refine pred_foldl ?_ ?_
    · intro x4 h4 a4
      refine State.passRow_keeps _ ?_ _ _ _ _ _ _ _
      exact h4
    · exact hs
  extract_lets -underBinder -merge -useContext +onlyGivenNames x5
  extract_lets -underBinder -merge -useContext +onlyGivenNames x6
  have h6 : Keeps s₀ x6 := by
    unfold x6
    refine pred_ite ?_ ?_
    · refine pred_ite ?_ ?_
      · refine State.copyOut_keeps _ ?_ _ _ _ _ _
        exact h3
      · exact h3
    · refine State.copyOut_keeps _ ?_ _ _ _ _ _
      exact h3
  refine State.writeRec_keeps _ ?_ _ _ _ _ _ _
  exact h6

theorem State.recompReq_keeps {s₀ : State} (s : State) (hs : Keeps s₀ s) (e : Nat) (v : Word) :
    Keeps s₀ (State.recompReq s e v) := by
  unfold State.recompReq
  extract_lets -underBinder -merge -useContext +onlyGivenNames x1
  extract_lets -underBinder -merge -useContext +onlyGivenNames x2
  have h2 : ∀ x3 : Nat, Keeps s₀ (x2 x3) := by
    unfold x2
    intro x3
    try beta_reduce
    refine State.setReg_keeps _ ?_ _ _
    exact hs
  refine pred_ite ?_ ?_
  · refine h2 _
  · split
    · refine h2 _
    · refine pred_ite ?_ ?_
      · refine h2 _
      · split
        · refine h2 _
        · extract_lets -underBinder -merge -useContext +onlyGivenNames x8
          split
          · refine pred_ite ?_ ?_
            · refine h2 _
            · extract_lets -underBinder -merge -useContext +onlyGivenNames x11
              extract_lets -underBinder -merge -useContext +onlyGivenNames x12
              refine State.setEngine_keeps _ ?_ _ _
              refine h2 _
          · refine h2 _

theorem State.restGroup_keeps {s₀ : State} (s : State) (hs : Keeps s₀ s) (g : Nat) (step : Nat) :
    Keeps s₀ (State.restGroup s g step) := by
  unfold State.restGroup
  split
  · exact hs
  · refine pred_foldl ?_ ?_
    · intro x3 h3 a3
      split
      · refine pred_ite ?_ ?_
        · refine State.restColl_keeps _ ?_ _
          exact h3
        · exact h3
      · exact h3
    · exact hs

theorem State.rewriteGroup_keeps {s₀ : State} (s : State) (hs : Keeps s₀ s) (u : UGroup) (limit : Nat) :
    Keeps s₀ (State.rewriteGroup s u limit) := by
  unfold State.rewriteGroup
  extract_lets -underBinder -merge -useContext +onlyGivenNames x1
  extract_lets -underBinder -merge -useContext +onlyGivenNames x2
  have h2 : Keeps s₀ x2 := by
    unfold x2
    refine State.readRanges_keeps _ ?_ _
    exact hs
  extract_lets -underBinder -merge -useContext +onlyGivenNames x3
  have h3 : Keeps s₀ x3 := by
    unfold x3
    split
    · refine State.copyMasks_keeps _ ?_ _ _ _ _
      exact h2
    · exact h2
  refine State.copyOut_keeps _ ?_ _ _ _ _ _
  exact h3

theorem State.rewriteAll_keeps {s₀ : State} (s : State) (hs : Keeps s₀ s) :
    Keeps s₀ (State.rewriteAll s) := by
  unfold State.rewriteAll
  split
  · refine pred_foldl ?_ ?_
    · intro x2 h2 a2
      refine State.rewriteGroup_keeps _ ?_ _ _
      exact h2
    · exact hs
  · exact hs

theorem State.skew_keeps {s₀ : State} (s : State) (hs : Keeps s₀ s) (u : UGroup) (e : Nat) (t : Word) :
    Keeps s₀ (State.skew s u e t) := by
  unfold State.skew
  extract_lets -underBinder -merge -useContext +onlyGivenNames x1
  have h1 : Keeps s₀ x1 := by
    unfold x1
    refine State.setReg_keeps _ ?_ _ _
    refine State.inc_keeps _ ?_ _ _
    exact hs
  refine State.breachOpen_keeps _ ?_ _ _
  refine State.setReg_keeps _ ?_ _ _
  exact h1

theorem State.stateBad_keeps {s₀ : State} (s : State) (hs : Keeps s₀ s) (g : Nat) (addr : Nat) :
    Keeps s₀ (State.stateBad s g addr) := by
  unfold State.stateBad
  extract_lets -underBinder -merge -useContext +onlyGivenNames x1
  refine pred_ite ?_ ?_
  · refine pred_ite ?_ ?_
    · refine pred_ite ?_ ?_
      · exact hs
      · refine State.pairLoss_keeps _ ?_ _ _ _ _ _
        refine State.readUnit_keeps _ ?_ _
        exact hs
    · refine pred_ite ?_ ?_
      · exact hs
      · refine State.openWindow_keeps _ ?_ _ _ _
        refine State.breachOpen_keeps _ ?_ _ _
        refine State.readUnit_keeps _ ?_ _
        exact hs
  · refine pred_ite ?_ ?_
    · exact hs
    · extract_lets -underBinder -merge -useContext +onlyGivenNames x2
      have h2 : Keeps s₀ x2 := by
        unfold x2
        refine State.breachOpen_keeps _ ?_ _ _
        refine State.readUnit_keeps _ ?_ _
        exact hs
      exact Keeps.upd h2

theorem State.switched_keeps {s₀ : State} (s : State) (hs : Keeps s₀ s) (u : UGroup) (e : Nat) (r : GrpRun) :
    Keeps s₀ (State.switched s u e r) := by
  unfold State.switched
  refine pred_ite ?_ ?_
  · refine State.setRegF_keeps _ ?_ _ _ _ _
    refine State.setRegF_keeps _ ?_ _ _ _ _
    refine State.setEngine_keeps _ ?_ _ _
    exact hs
  · exact hs

theorem execCommitRecordWrite_keeps {s₀ : State} (s : State) (hs : Keeps s₀ s) :
    InOut (Keeps s₀) (execCommitRecordWrite s) := by
  unfold execCommitRecordWrite
  refine pred_ite ?_ ?_
  · refine InOut.next ?_
    exact hs
  · extract_lets -underBinder -merge -useContext +onlyGivenNames x1
    split
    · refine InOut.next ?_
      exact hs
    · refine pred_ite ?_ ?_
      · refine InOut.next ?_
        exact hs
      · extract_lets -underBinder -merge -useContext +onlyGivenNames x4
        extract_lets -underBinder -merge -useContext +onlyGivenNames x5
        have h5 : Keeps s₀ x5 := by
          unfold x5
          refine State.updWrite_keeps _ ?_ _ _ _ _ _ _ _
          exact hs
        refine InOut.next ?_
        exact Keeps.upd h5

theorem execGroupLocalDone_keeps {s₀ : State} (e : Half) (g : Fin 4096) (s : State) (hs : Keeps s₀ s) :
    InOut (Keeps s₀) (execGroupLocalDone e g s) := by
  unfold execGroupLocalDone
  refine pred_ite ?_ ?_
  · refine InOut.next ?_
    exact hs
  · extract_lets -underBinder -merge -useContext +onlyGivenNames x1
    split
    · extract_lets -underBinder -merge -useContext +onlyGivenNames x4
      refine pred_ite ?_ ?_
      · refine InOut.next ?_
        exact hs
      · extract_lets -underBinder -merge -useContext +onlyGivenNames x5
        have h5 : Keeps s₀ x5 := by
          unfold x5
          refine State.inc_keeps _ ?_ _ _
          refine State.setRun_keeps _ ?_ _ _ _ _
          exact hs
        extract_lets -underBinder -merge -useContext +onlyGivenNames x6
        have h6 : Keeps s₀ x6 := by
          unfold x6
          refine State.addLog_keeps _ ?_ _ _ _
          refine State.count_keeps _ ?_ _ _ _ _
          exact h5
        extract_lets -underBinder -merge -useContext +onlyGivenNames x7
        refine InOut.next ?_
        refine pred_ite ?_ ?_
        · refine State.gatherGroup_keeps _ ?_ _ _
          exact h6
        · exact h6
    · refine InOut.next ?_
      exact hs

theorem execNormResult_keeps {s₀ : State} (e : Half) (s : State) (hs : Keeps s₀ s) :
    InOut (Keeps s₀) (execNormResult e s) := by
  unfold execNormResult
  refine pred_ite ?_ ?_
  · refine InOut.next ?_
    exact hs
  · split
    · refine InOut.next ?_
      exact hs
    · extract_lets -underBinder -merge -useContext +onlyGivenNames x6 x7
      have h7 : Keeps s₀ x7 := by
        unfold x7
        refine State.setEngine_keeps _ ?_ _ _
        exact hs
      split
      · refine pred_ite ?_ ?_
        · extract_lets -underBinder -merge -useContext +onlyGivenNames x10
          have h10 : Keeps s₀ x10 := by
            unfold x10
            refine pred_ite ?_ ?_
            · refine State.lateRebuild_keeps _ ?_ _ _
              exact h7
            · exact h7
          extract_lets -underBinder -merge -useContext +onlyGivenNames x11
          have h11 : Keeps s₀ x11 := by
            unfold x11
            refine State.setRun_keeps _ ?_ _ _ _ _
            exact h10
          extract_lets -underBinder -merge -useContext +onlyGivenNames x12
          have h12 : Keeps s₀ x12 := by
            unfold x12
            refine State.logNamed_keeps _ ?_ _ _ _
            refine State.inc_keeps _ ?_ _ _
            exact h11
          refine InOut.next ?_
          refine State.restGroup_keeps _ ?_ _ _
          exact h12
        · extract_lets -underBinder -merge -useContext +onlyGivenNames x13
          extract_lets -underBinder -merge -useContext +onlyGivenNames x14
          extract_lets -underBinder -merge -useContext +onlyGivenNames x15
          extract_lets -underBinder -merge -useContext +onlyGivenNames x16
          have h16 : Keeps s₀ x16 := by
            unfold x16
            refine pred_ite ?_ ?_
            · refine State.skew_keeps _ ?_ _ _ _
              exact h7
            · exact h7
          extract_lets -underBinder -merge -useContext +onlyGivenNames x17
          have h17 : Keeps s₀ x17 := by
            unfold x17
            refine pred_ite ?_ ?_
            · refine State.lateRebuild_keeps _ ?_ _ _
              exact h16
            · exact h16
          refine InOut.next ?_
          refine State.setRun_keeps _ ?_ _ _ _ _
          exact h17
      · refine InOut.next ?_
        exact h7

theorem execPass2Start_keeps {s₀ : State} (e : Half) (g : Fin 4096) (s : State) (hs : Keeps s₀ s) :
    InOut (Keeps s₀) (execPass2Start e g s) := by
  unfold execPass2Start
  split
  · extract_lets -underBinder -merge -useContext +onlyGivenNames x3
    refine pred_ite ?_ ?_
    · refine InOut.next ?_
      exact hs
    · split
      · refine InOut.next ?_
        refine State.stateBad_keeps _ ?_ _ _
        exact hs
      · refine InOut.next ?_
        exact hs
      · extract_lets -underBinder -merge -useContext +onlyGivenNames x8
        extract_lets -underBinder -merge -useContext +onlyGivenNames x9
        have h9 : Keeps s₀ x9 := by
          unfold x9
          refine State.readRanges_keeps _ ?_ _
          exact hs
        extract_lets -underBinder -merge -useContext +onlyGivenNames x10
        have h10 : Keeps s₀ x10 := by
          unfold x10
          refine State.setReg_keeps _ ?_ _ _
          refine State.setRun_keeps _ ?_ _ _ _ _
          exact h9
        extract_lets -underBinder -merge -useContext +onlyGivenNames x11
        have h11 : Keeps s₀ x11 := by
          unfold x11
          refine pred_ite ?_ ?_
          · refine State.passRows_keeps _ ?_ _ _ _ _ _
            exact h10
          · refine State.passDense_keeps _ ?_ _ _ _ _ _
            exact h10
        refine InOut.next ?_
        refine State.switched_keeps _ ?_ _ _ _
        exact h11
  · refine InOut.next ?_
    exact hs

theorem execRecompReady_keeps {s₀ : State} (e : Half) (s : State) (hs : Keeps s₀ s) :
    InOut (Keeps s₀) (execRecompReady e s) := by
  unfold execRecompReady
  split
  · refine InOut.next ?_
    refine pred_ite ?_ ?_
    · refine State.setReg_keeps _ ?_ _ _
      refine State.setEngine_keeps _ ?_ _ _
      exact hs
    · exact hs
  · refine InOut.next ?_
    exact hs

theorem execRecompRebuild_keeps {s₀ : State} (e : Half) (s : State) (hs : Keeps s₀ s) :
    InOut (Keeps s₀) (execRecompRebuild e s) := by
  unfold execRecompRebuild
  split
  · refine InOut.next ?_
    exact hs
  · refine pred_ite ?_ ?_
    · refine InOut.next ?_
      exact hs
    · split
      · refine InOut.next ?_
        exact hs
      · split
        · refine InOut.next ?_
          exact hs
        · refine pred_ite ?_ ?_
          · refine InOut.next ?_
            exact hs
          · split
            · extract_lets -underBinder -merge -useContext +onlyGivenNames x9
              extract_lets -underBinder -merge -useContext +onlyGivenNames x10
              extract_lets -underBinder -merge -useContext +onlyGivenNames x11
              have h11 : Keeps s₀ x11 := by
                unfold x11
                refine State.readRange_keeps _ ?_ _ _
                exact hs
              extract_lets -underBinder -merge -useContext +onlyGivenNames x12
              extract_lets -underBinder -merge -useContext +onlyGivenNames x13
              extract_lets -underBinder -merge -useContext +onlyGivenNames x14
              extract_lets -underBinder -merge -useContext +onlyGivenNames x15
              extract_lets -underBinder -merge -useContext +onlyGivenNames x16
              have h16 : Keeps s₀ x16 := by
                unfold x16
                refine State.inc_keeps _ ?_ _ _
                exact h11
              extract_lets -underBinder -merge -useContext +onlyGivenNames x17
              extract_lets -underBinder -merge -useContext +onlyGivenNames x18
              extract_lets -underBinder -merge -useContext +onlyGivenNames x19
              have h19 : Keeps s₀ x19 := by
                unfold x19
                refine pred_foldl ?_ ?_
                · intro x20 h20 a20
                  refine State.updWrite_keeps _ ?_ _ _ _ _ _ _ _
                  exact h20
                · exact h16
              extract_lets -underBinder -merge -useContext +onlyGivenNames x21
              extract_lets -underBinder -merge -useContext +onlyGivenNames x22
              extract_lets -underBinder -merge -useContext +onlyGivenNames x23
              have h23 : Keeps s₀ x23 := by
                unfold x23
                refine State.updWrite_keeps _ ?_ _ _ _ _ _ _ _
                exact h19
              extract_lets -underBinder -merge -useContext +onlyGivenNames x24
              refine InOut.next ?_
              refine State.setEngine_keeps _ ?_ _ _
              exact h23
            · refine InOut.next ?_
              exact hs

theorem execTwinLost_keeps {s₀ : State} (e : Half) (s : State) (hs : Keeps s₀ s) :
    InOut (Keeps s₀) (execTwinLost e s) := by
  unfold execTwinLost
  extract_lets -underBinder -merge -useContext +onlyGivenNames x1
  extract_lets -underBinder -merge -useContext +onlyGivenNames x2
  extract_lets -underBinder -merge -useContext +onlyGivenNames x3
  extract_lets -underBinder -merge -useContext +onlyGivenNames x4
  extract_lets -underBinder -merge -useContext +onlyGivenNames x5
  refine pred_ite ?_ ?_
  · refine InOut.next ?_
    exact hs
  · refine pred_ite ?_ ?_
    · refine InOut.next ?_
      refine State.loseTwin_keeps _ ?_ _
      exact hs
    · refine pred_ite ?_ ?_
      · refine InOut.next ?_
        refine State.loseTwin_keeps _ ?_ _
        exact Keeps.upd hs
      · refine InOut.next ?_
        exact hs

theorem execUpdChunk_keeps {s₀ : State} (e : Half) (s : State) (hs : Keeps s₀ s) :
    InOut (Keeps s₀) (execUpdChunk e s) := by
  unfold execUpdChunk
  refine pred_ite ?_ ?_
  · refine InOut.next ?_
    exact hs
  · split
    · refine InOut.next ?_
      exact hs
    · extract_lets -underBinder -merge -useContext +onlyGivenNames x4
      extract_lets -underBinder -merge -useContext +onlyGivenNames x5 x6
      have h6 : Keeps s₀ x6 := by
        unfold x6
        refine State.setEngine_keeps _ ?_ _ _
        exact hs
      split
      · refine InOut.next ?_
        refine State.dropChunk_keeps _ ?_ _ _
        exact h6
      · refine pred_ite ?_ ?_
        · refine InOut.next ?_
          exact hs
        · extract_lets -underBinder -merge -useContext +onlyGivenNames x9
          extract_lets -underBinder -merge -useContext +onlyGivenNames x10
          refine pred_ite ?_ ?_
          · refine InOut.next ?_
            refine pred_ite ?_ ?_
            · exact h6
            · refine State.endPass1_keeps _ ?_ _ _ _ _
              exact h6
          · refine pred_ite ?_ ?_
            · refine InOut.next ?_
              refine State.dropChunk_keeps _ ?_ _ _
              exact h6
            · extract_lets -underBinder -merge -useContext +onlyGivenNames x11
              extract_lets -underBinder -merge -useContext +onlyGivenNames x12
              split
              · refine InOut.next ?_
                refine State.stateBad_keeps _ ?_ _ _
                exact hs
              · refine InOut.next ?_
                refine State.passChunk_keeps _ ?_ _ _ _ _ _
                refine State.readRanges_keeps _ ?_ _
                exact h6

theorem execUpdRecompReq_keeps {s₀ : State} (_a : Accessor) (e : Half) (v : Word) (s : State) (hs : Keeps s₀ s) :
    InOut (Keeps s₀) (execUpdRecompReq _a e v s) := by
  unfold execUpdRecompReq
  refine InOut.next ?_
  refine State.recompReq_keeps _ ?_ _ _
  exact hs

theorem execUpdRowRecord_keeps {s₀ : State} (e : Half) (s : State) (hs : Keeps s₀ s) :
    InOut (Keeps s₀) (execUpdRowRecord e s) := by
  unfold execUpdRowRecord
  refine pred_ite ?_ ?_
  · refine InOut.next ?_
    exact hs
  · split
    · refine InOut.next ?_
      exact hs
    · extract_lets -underBinder -merge -useContext +onlyGivenNames x4
      extract_lets -underBinder -merge -useContext +onlyGivenNames x5 x6
      have h6 : Keeps s₀ x6 := by
        unfold x6
        refine State.setEngine_keeps _ ?_ _ _
        exact hs
      split
      · refine InOut.next ?_
        refine State.dropChunk_keeps _ ?_ _ _
        exact h6
      · refine pred_ite ?_ ?_
        · refine InOut.next ?_
          exact hs
        · extract_lets -underBinder -merge -useContext +onlyGivenNames x9
          split
          · refine InOut.next ?_
            refine State.stateBad_keeps _ ?_ _ _
            exact hs
          · refine pred_ite ?_ ?_
            · refine InOut.next ?_
              refine pred_ite ?_ ?_
              · exact h6
              · refine State.endPass1_keeps _ ?_ _ _ _ _
                exact h6
            · extract_lets -underBinder -merge -useContext +onlyGivenNames x12
              extract_lets -underBinder -merge -useContext +onlyGivenNames x13
              refine pred_ite ?_ ?_
              · refine InOut.next ?_
                refine State.dropChunk_keeps _ ?_ _ _
                exact h6
              · extract_lets -underBinder -merge -useContext +onlyGivenNames x14
                have h14 : Keeps s₀ x14 := by
                  unfold x14
                  refine State.countIntake_keeps _ ?_ _ _
                  exact h6
                extract_lets -underBinder -merge -useContext +onlyGivenNames x15
                have h15 : Keeps s₀ x15 := by
                  unfold x15
                  refine State.updWrite_keeps _ ?_ _ _ _ _ _ _ _
                  exact h14
                refine InOut.next ?_
                refine State.setRun_keeps _ ?_ _ _ _ _
                exact h15

end Sys2Proof.Machine
end

