-- ==== Sys2Proof/Laws/KeepStepctl.lean ====
section
/-! SUPPORT. What the step controller keeps (`Keeps`), one lemma for each. -/

namespace Sys2Proof.Machine

open Sys2Proof

theorem State.setCtl_keeps {s₀ : State} (s : State) (hs : Keeps s₀ s) (f : Ctl → Ctl) :
    Keeps s₀ (State.setCtl s f) := by
  unfold State.setCtl
  exact Keeps.upd hs

theorem State.copyMem_keeps {s₀ : State} (s : State) (hs : Keeps s₀ s) (src : Nat) (dst : Nat) (n : Nat) :
    Keeps s₀ (State.copyMem s src dst n) := by
  unfold State.copyMem
  extract_lets -underBinder -merge -useContext +onlyGivenNames x1
  extract_lets -underBinder -merge -useContext +onlyGivenNames x2
  have h2 : Keeps s₀ x2 := by
    unfold x2
    refine State.put_keeps _ ?_ _ _ _ _
    refine State.readRange_keeps _ ?_ _ _
    exact hs
  exact Keeps.upd h2

theorem State.copyFeed_keeps {s₀ : State} (s : State) (hs : Keeps s₀ s) (k : Nat) (f : Nat) :
    Keeps s₀ (State.copyFeed s k f) := by
  unfold State.copyFeed
  split
  · exact hs
  · split
    · extract_lets -underBinder -merge -useContext +onlyGivenNames x5
      extract_lets -underBinder -merge -useContext +onlyGivenNames x6
      have h6 : Keeps s₀ x6 := by
        unfold x6
        refine pred_ite ?_ ?_
        · refine State.breachOpen_keeps _ ?_ _ _
          refine State.readRange_keeps _ ?_ _ _
          exact hs
        · exact hs
      refine State.copyMem_keeps _ ?_ _ _ _
      exact h6
    · exact hs

theorem State.copyFeeds_keeps {s₀ : State} (s : State) (hs : Keeps s₀ s) (k : Nat) :
    Keeps s₀ (State.copyFeeds s k) := by
  unfold State.copyFeeds
  refine pred_foldl ?_ ?_
  · intro x1 h1 a1
    refine State.copyFeed_keeps _ ?_ _ _
    exact h1
  · exact hs

theorem State.issueMbs_keeps {s₀ : State} (sched : List Sched) (n : Nat) (s : State) (hs : Keeps s₀ s) :
    Keeps s₀ (State.issueMbs sched n s) := by
  induction n generalizing s with
  | zero => exact hs
  | succ n ih =>
    unfold State.issueMbs
    split
    · exact hs
    · exact pred_ite (ih _ (State.sendMb_keeps _ (State.setCtl_keeps _ hs _) _ _)) hs

theorem State.kickColls_keeps {s₀ : State} (s : State) (hs : Keeps s₀ s) :
    Keeps s₀ (State.kickColls s) := by
  unfold State.kickColls
  extract_lets -underBinder -merge -useContext +onlyGivenNames x1
  refine pred_ite ?_ ?_
  · refine State.startColls_keeps _ ?_ _
    refine State.setCtl_keeps _ ?_ _
    exact hs
  · exact hs

theorem State.takeCopy_keeps {s₀ : State} (s : State) (hs : Keeps s₀ s) (w : Nat) (k : Nat) (x : Window) :
    Keeps s₀ (State.takeCopy s w k x) := by
  unfold State.takeCopy
  extract_lets -underBinder -merge -useContext +onlyGivenNames x1
  extract_lets -underBinder -merge -useContext +onlyGivenNames x2
  have h2 : Keeps s₀ x2 := by
    unfold x2
    refine pred_ite ?_ ?_
    · refine State.readRange_keeps _ ?_ _ _
      exact hs
    · exact hs
  extract_lets -underBinder -merge -useContext +onlyGivenNames x3
  have h3 : Keeps s₀ x3 := by
    unfold x3
    refine State.copyMem_keeps _ ?_ _ _ _
    exact h2
  extract_lets -underBinder -merge -useContext +onlyGivenNames x4 x5 x6
  have h5 : Keeps s₀ x5 := by
    unfold x5
    refine State.setWindow_keeps _ ?_ _ _
    exact h3
  have h6 : Keeps s₀ x6 := by
    unfold x6
    exact Keeps.draws h5 _
  refine pred_ite ?_ ?_
  · split
    · extract_lets -underBinder -merge -useContext +onlyGivenNames x8
      have h8 : Keeps s₀ x8 := by
        unfold x8
        refine State.setCtl_keeps _ ?_ _
        exact h6
      extract_lets -underBinder -merge -useContext +onlyGivenNames x9
      have h9 : In1 (Keeps s₀) x9 := by
        unfold x9
        refine State.poisonedPhase_keeps _ ?_ _ _
        exact h8
      refine pred_ite ?_ ?_
      · refine State.setCtl_keeps _ ?_ _
        exact h9.out
      · exact h9.out
    · refine State.breachOpen_keeps _ ?_ _ _
      exact h6
  · exact h6

theorem State.takeCopies_keeps {s₀ : State} (s : State) (hs : Keeps s₀ s) (k : Nat) :
    Keeps s₀ (State.takeCopies s k) := by
  unfold State.takeCopies
  refine pred_foldl ?_ ?_
  · intro x1 h1 a1
    split
    · refine pred_ite ?_ ?_
      · exact h1
      · refine pred_ite ?_ ?_
        · refine State.takeCopy_keeps _ ?_ _ _ _
          exact h1
        · refine State.setWindow_keeps _ ?_ _ _
          exact h1
    · exact h1
  · exact hs

theorem State.endSchedule_keeps {s₀ : State} (s : State) (hs : Keeps s₀ s) :
    Keeps s₀ (State.endSchedule s) := by
  unfold State.endSchedule
  refine State.kickColls_keeps _ ?_
  refine State.takeCopies_keeps _ ?_ _
  exact hs

theorem State.goOn_keeps {s₀ : State} (s : State) (hs : Keeps s₀ s) :
    Keeps s₀ (State.goOn s) := by
  unfold State.goOn
  extract_lets -underBinder -merge -useContext +onlyGivenNames x1
  extract_lets -underBinder -merge -useContext +onlyGivenNames x2
  have h2 : Keeps s₀ x2 := by
    unfold x2
    refine State.issueMbs_keeps _ _ _ ?_
    exact hs
  refine pred_ite ?_ ?_
  · refine State.endSchedule_keeps _ ?_
    exact h2
  · exact h2

theorem State.beginCores_keeps {s₀ : State} (s : State) (hs : Keeps s₀ s) (k : Nat) :
    Keeps s₀ (State.beginCores s k) := by
  unfold State.beginCores
  split
  · refine pred_foldl ?_ ?_
    · intro x2 h2 a2
      refine State.sendCmd_keeps _ ?_ _ _
      exact h2
    · exact hs
  · exact hs

theorem State.restartStep_keeps {s₀ : State} (s : State) (hs : Keeps s₀ s) :
    Keeps s₀ (State.restartStep s) := by
  unfold State.restartStep
  extract_lets -underBinder -merge -useContext +onlyGivenNames x1
  refine pred_ite ?_ ?_
  · exact hs
  · extract_lets -underBinder -merge -useContext +onlyGivenNames x2
    have h2 : Keeps s₀ x2 := by
      unfold x2
      refine State.copyFeeds_keeps _ ?_ _
      refine State.setCtl_keeps _ ?_ _
      refine State.forgetResults_keeps _ ?_ _
      exact hs
    refine State.goOn_keeps _ ?_
    refine State.beginCores_keeps _ ?_ _
    exact h2

theorem State.afterPhase_keeps {s₀ : State} (s : State) (hs : Keeps s₀ s) :
    Keeps s₀ (State.afterPhase s) := by
  unfold State.afterPhase
  refine pred_ite ?_ ?_
  · refine pred_ite ?_ ?_
    · refine State.setCtl_keeps _ ?_ _
      exact hs
    · exact hs
  · refine pred_ite ?_ ?_
    · refine State.restartStep_keeps _ ?_
      exact hs
    · refine State.goOn_keeps _ ?_
      exact hs

theorem State.phaseEnded_keeps {s₀ : State} (s : State) (hs : Keeps s₀ s) (e : Sched) :
    Keeps s₀ (State.phaseEnded s e) := by
  unfold State.phaseEnded
  refine State.setCtl_keeps _ ?_ _
  exact hs

theorem State.beginHere_keeps {s₀ : State} (s : State) (hs : Keeps s₀ s) (k : Nat) :
    Keeps s₀ (State.beginHere s k) := by
  unfold State.beginHere
  extract_lets -underBinder -merge -useContext +onlyGivenNames x1
  have h1 : Keeps s₀ x1 := by
    unfold x1
    refine State.islandStep_keeps _ ?_ _ _
    exact hs
  refine State.addLog_keeps _ ?_ _ _ _
  refine State.setCtl_keeps _ ?_ _
  exact h1

theorem State.beginStep_keeps {s₀ : State} (s : State) (hs : Keeps s₀ s) (k : Nat) :
    Keeps s₀ (State.beginStep s k) := by
  unfold State.beginStep
  extract_lets -underBinder -merge -useContext +onlyGivenNames x1
  have h1 : Keeps s₀ x1 := by
    unfold x1
    refine State.beginHere_keeps _ ?_ _
    exact hs
  extract_lets -underBinder -merge -useContext +onlyGivenNames x2
  have h2 : Keeps s₀ x2 := by
    unfold x2
    refine State.setCtl_keeps _ ?_ _
    exact h1
  refine State.goOn_keeps _ ?_
  refine State.beginCores_keeps _ ?_ _
  exact h2

theorem State.holdCheck_keeps {s₀ : State} (s : State) (hs : Keeps s₀ s) :
    Keeps s₀ (State.holdCheck s) := by
  unfold State.holdCheck
  extract_lets -underBinder -merge -useContext +onlyGivenNames x1
  refine pred_ite ?_ ?_
  · exact hs
  · refine pred_ite ?_ ?_
    · refine State.enterHolding_keeps _ ?_ _
      exact hs
    · refine pred_ite ?_ ?_
      · refine State.enterHolding_keeps _ ?_ _
        exact hs
      · exact hs

theorem State.postResult_keeps {s₀ : State} (s : State) (hs : Keeps s₀ s) (w : Nat) (k : Nat) :
    Keeps s₀ (State.postResult s w k) := by
  unfold State.postResult
  split
  · extract_lets -underBinder -merge -useContext +onlyGivenNames x2
    refine State.announce_keeps _ ?_ _ _ _ _
    refine State.setWindow_keeps _ ?_ _ _
    exact hs
  · exact hs

theorem State.resumeCopy_keeps {s₀ : State} (s : State) (hs : Keeps s₀ s) (w : Nat) :
    Keeps s₀ (State.resumeCopy s w) := by
  unfold State.resumeCopy
  split
  · exact hs
  · split
    · exact hs
    · refine pred_ite ?_ ?_
      · extract_lets -underBinder -merge -useContext +onlyGivenNames x5
        have h5 : Keeps s₀ x5 := by
          unfold x5
          refine State.takeCopy_keeps _ ?_ _ _ _
          exact hs
        refine pred_ite ?_ ?_
        · refine State.postResult_keeps _ ?_ _ _
          exact h5
        · exact h5
      · exact hs

theorem State.takeWaiting_keeps {s₀ : State} (s : State) (hs : Keeps s₀ s) :
    Keeps s₀ (State.takeWaiting s) := by
  unfold State.takeWaiting
  refine pred_foldl ?_ ?_
  · intro x1 h1 a1
    refine State.resumeCopy_keeps _ ?_ _
    exact h1
  · exact hs

theorem State.postStep_keeps {s₀ : State} (s : State) (hs : Keeps s₀ s) (k : Nat) :
    Keeps s₀ (State.postStep s k) := by
  unfold State.postStep
  refine pred_foldl ?_ ?_
  · intro x1 h1 a1
    split
    · refine pred_ite ?_ ?_
      · refine State.postResult_keeps _ ?_ _ _
        exact h1
      · exact h1
    · exact h1
  · exact hs

theorem State.freeFeeds_keeps {s₀ : State} (s : State) (hs : Keeps s₀ s) (k : Nat) :
    Keeps s₀ (State.freeFeeds s k) := by
  unfold State.freeFeeds
  refine pred_foldl ?_ ?_
  · intro x1 h1 a1
    split
    · refine State.setFeed_keeps _ ?_ _ _
      exact h1
    · exact h1
  · exact hs

theorem State.commitStep_keeps {s₀ : State} (s : State) (hs : Keeps s₀ s) (k : Nat) :
    Keeps s₀ (State.commitStep s k) := by
  unfold State.commitStep
  extract_lets -underBinder -merge -useContext +onlyGivenNames x1
  have h1 : Keeps s₀ x1 := by
    unfold x1
    refine State.setCtl_keeps _ ?_ _
    refine State.setReg_keeps _ ?_ _ _
    exact hs
  extract_lets -underBinder -merge -useContext +onlyGivenNames x2
  have h2 : Keeps s₀ x2 := by
    unfold x2
    exact Keeps.upd h1
  extract_lets -underBinder -merge -useContext +onlyGivenNames x3
  have h3 : Keeps s₀ x3 := by
    unfold x3
    refine State.count_keeps _ ?_ _ _ _ _
    refine State.count_keeps _ ?_ _ _ _ _
    refine State.setCtl_keeps _ ?_ _
    refine State.announceBy_keeps _ ?_ _ _ _ _ _
    exact h2
  refine State.holdCheck_keeps _ ?_
  refine State.kickColls_keeps _ ?_
  refine State.takeWaiting_keeps _ ?_
  refine State.postStep_keeps _ ?_ _
  refine State.freeFeeds_keeps _ ?_ _
  exact h3

theorem State.cplPoison_keeps {s₀ : State} (s : State) (hs : Keeps s₀ s) (c : Nat) :
    Keeps s₀ (State.cplPoison s c) := by
  unfold State.cplPoison
  extract_lets -underBinder -merge -useContext +onlyGivenNames x1
  have h1 : Keeps s₀ x1 := by
    unfold x1
    refine State.qPoison_keeps _ ?_ _ _
    exact hs
  extract_lets -underBinder -merge -useContext +onlyGivenNames x2
  extract_lets -underBinder -merge -useContext +onlyGivenNames x3
  have h3 : Keeps s₀ x3 := by
    unfold x3
    refine State.breachOpen_keeps _ ?_ _ _
    exact h1
  refine pred_ite ?_ ?_
  · exact h3
  · refine State.resendCmd_keeps _ ?_ _
    exact h3

theorem State.lenReplay_keeps {s₀ : State} (s : State) (hs : Keeps s₀ s) (e : Sched) (c : Core) :
    Keeps s₀ (State.lenReplay s e c) := by
  unfold State.lenReplay
  extract_lets -underBinder -merge -useContext +onlyGivenNames x1
  extract_lets -underBinder -merge -useContext +onlyGivenNames x2
  have h2 : Keeps s₀ x2 := by
    unfold x2
    refine State.breachOpen_keeps _ ?_ _ _
    exact hs
  refine pred_ite ?_ ?_
  · refine State.setCtl_keeps _ ?_ _
    exact h2
  · refine State.replayPhase_keeps _ ?_ _
    exact h2

theorem State.phaseResult_keeps {s₀ : State} (s : State) (hs : Keeps s₀ s) (e : Sched) (c : Core) (poison : Bool) (lenBad : Bool) :
    Keeps s₀ (State.phaseResult s e c poison lenBad) := by
  unfold State.phaseResult
  refine pred_ite ?_ ?_
  · extract_lets -underBinder -merge -useContext +onlyGivenNames x1
    have h1 : In1 (Keeps s₀) x1 := by
      unfold x1
      refine State.poisonedPhase_keeps _ ?_ _ _
      exact hs
    refine pred_ite ?_ ?_
    · refine State.phaseEnded_keeps _ ?_ _
      exact h1.out
    · exact h1.out
  · refine pred_ite ?_ ?_
    · refine State.lenReplay_keeps _ ?_ _ _
      exact hs
    · refine State.phaseEnded_keeps _ ?_ _
      exact hs

theorem State.phaseDone_keeps {s₀ : State} (s : State) (hs : Keeps s₀ s) (c : Core) (w : BitVec 64) :
    Keeps s₀ (State.phaseDone s c w) := by
  unfold State.phaseDone
  extract_lets -underBinder -merge -useContext +onlyGivenNames x1
  extract_lets -underBinder -merge -useContext +onlyGivenNames x2
  have h2 : Keeps s₀ x2 := by
    unfold x2
    refine State.setCtl_keeps _ ?_ _
    exact hs
  split
  · exact h2
  · extract_lets -underBinder -merge -useContext +onlyGivenNames x5
    have h5 : Keeps s₀ x5 := by
      unfold x5
      refine State.setCtl_keeps _ ?_ _
      exact h2
    refine pred_ite ?_ ?_
    · refine State.afterPhase_keeps _ ?_
      exact h5
    · refine State.afterPhase_keeps _ ?_
      refine State.phaseResult_keeps _ ?_ _ _ _ _
      exact h5

theorem State.resumeWork_keeps {s₀ : State} (s : State) (hs : Keeps s₀ s) :
    Keeps s₀ (State.resumeWork s) := by
  unfold State.resumeWork
  refine State.rewriteAll_keeps _ ?_
  refine State.giveUp_keeps _ ?_
  exact hs

theorem execFeedStall_keeps {s₀ : State} (s : State) (hs : Keeps s₀ s) :
    InOut (Keeps s₀) (execFeedStall s) := by
  unfold execFeedStall
  extract_lets -underBinder -merge -useContext +onlyGivenNames x1
  split
  · refine pred_ite ?_ ?_
    · refine InOut.next ?_
      refine State.announce_keeps _ ?_ _ _ _ _
      refine State.inc_keeps _ ?_ _ _
      refine State.setCtl_keeps _ ?_ _
      exact hs
    · refine InOut.next ?_
      exact hs
  · refine InOut.next ?_
    exact hs

theorem execPhaseDoneReceive_keeps {s₀ : State} (rd : CoreRead) (s : State) (hs : Keeps s₀ s) :
    InOut (Keeps s₀) (execPhaseDoneReceive rd s) := by
  unfold execPhaseDoneReceive
  split
  · refine InOut.next ?_
    exact hs
  · refine pred_ite ?_ ?_
    · extract_lets -underBinder -merge -useContext +onlyGivenNames x4 x5
      have h5 : Keeps s₀ x5 := by
        unfold x5
        refine State.setCore_keeps _ ?_ _ _
        exact hs
      refine pred_ite ?_ ?_
      · refine InOut.next ?_
        refine State.cplPoison_keeps _ ?_ _
        exact h5
      · extract_lets -underBinder -merge -useContext +onlyGivenNames x6
        have h6 : Keeps s₀ x6 := by
          unfold x6
          refine State.setCtl_keeps _ ?_ _
          exact h5
        refine InOut.next ?_
        refine pred_ite ?_ ?_
        · refine State.phaseDone_keeps _ ?_ _ _
          exact h6
        · exact h6
    · refine InOut.next ?_
      exact hs

theorem execResultCopyResume_keeps {s₀ : State} (w : Fin 64) (s : State) (hs : Keeps s₀ s) :
    InOut (Keeps s₀) (execResultCopyResume w s) := by
  unfold execResultCopyResume
  refine InOut.next ?_
  refine pred_ite ?_ ?_
  · refine State.resumeCopy_keeps _ ?_ _
    exact hs
  · exact hs

theorem execResultStall_keeps {s₀ : State} (s : State) (hs : Keeps s₀ s) :
    InOut (Keeps s₀) (execResultStall s) := by
  unfold execResultStall
  extract_lets -underBinder -merge -useContext +onlyGivenNames x1
  refine pred_ite ?_ ?_
  · extract_lets -underBinder -merge -useContext +onlyGivenNames x2
    have h2 : Keeps s₀ x2 := by
      unfold x2
      refine pred_foldl ?_ ?_
      · intro x3 h3 a3
        split
        · refine State.setWindow_keeps _ ?_ _ _
          exact h3
        · exact h3
      · exact hs
    refine InOut.next ?_
    refine State.inc_keeps _ ?_ _ _
    exact h2
  · refine InOut.next ?_
    exact hs

theorem execStepBeginIssue_keeps {s₀ : State} (s : State) (hs : Keeps s₀ s) :
    InOut (Keeps s₀) (execStepBeginIssue s) := by
  unfold execStepBeginIssue
  extract_lets -underBinder -merge -useContext +onlyGivenNames x1
  refine pred_ite ?_ ?_
  · refine InOut.next ?_
    refine State.restartStep_keeps _ ?_
    exact hs
  · refine pred_ite ?_ ?_
    · refine InOut.next ?_
      refine State.kickColls_keeps _ ?_
      exact hs
    · refine pred_ite ?_ ?_
      · refine InOut.next ?_
        exact hs
      · refine pred_ite ?_ ?_
        · refine InOut.next ?_
          refine pred_ite ?_ ?_
          · exact hs
          · refine State.setCtl_keeps _ ?_ _
            exact hs
        · refine pred_ite ?_ ?_
          · refine InOut.next ?_
            exact hs
          · refine InOut.next ?_
            refine State.beginStep_keeps _ ?_ _
            refine State.copyFeeds_keeps _ ?_ _
            exact hs

theorem execStepCommit_keeps {s₀ : State} (s : State) (hs : Keeps s₀ s) :
    InOut (Keeps s₀) (execStepCommit s) := by
  unfold execStepCommit
  refine InOut.next ?_
  refine pred_ite ?_ ?_
  · refine State.commitStep_keeps _ ?_ _
    exact hs
  · exact hs

theorem execStepResume_keeps {s₀ : State} (s : State) (hs : Keeps s₀ s) :
    InOut (Keeps s₀) (execStepResume s) := by
  unfold execStepResume
  refine pred_ite ?_ ?_
  · refine InOut.next ?_
    refine State.inc_keeps _ ?_ _ _
    refine State.resumeWork_keeps _ ?_
    exact hs
  · refine InOut.next ?_
    exact hs

end Sys2Proof.Machine
end

