-- ==== Sys2Proof/Laws/KeepPower.lean ====
section
/-! SUPPORT. What power and sensors keep (`Keeps`), one lemma for each. -/

namespace Sys2Proof.Machine

open Sys2Proof

theorem State.addEnergy_keeps {s₀ : State} (s : State) (hs : Keeps s₀ s) (p : Nat) :
    Keeps s₀ (State.addEnergy s p) := by
  unfold State.addEnergy
  extract_lets -underBinder -merge -useContext +onlyGivenNames x1
  refine State.setReg48_keeps _ ?_ _ _ _
  exact Keeps.upd hs

theorem State.cleared_keeps {s₀ : State} (s : State) (hs : Keeps s₀ s) : Keeps s₀ s.cleared :=
  State.showOtp_keeps _ <| hs.trans ⟨rfl, rfl, fun i => ⟨⟨SMap.wf_nil _, SMap.wf_nil _, SMap.wf_nil _, SMap.wf_nil _, SMap.wf_nil _,
    i.canonical.flash, SMap.wf_nil _, SMap.wf_nil _, SMap.wf_nil _, SMap.wf_nil _, SMap.wf_nil _,
    SMap.wf_nil _, SMap.wf_nil _, SMap.wf_nil _, SMap.wf_nil _, SMap.wf_nil _, SMap.wf_nil _,
    SMap.wf_nil _, SMap.wf_nil _, SMap.wf_nil _, SMap.wf_nil _, SMap.wf_nil _⟩, Nat.zero_le _⟩,
    Otp.Grows.refl _, Nat.le_refl _⟩


theorem State.bootAnew_keeps {s₀ : State} (s : State) (hs : Keeps s₀ s) :
    Keeps s₀ (State.bootAnew s) := by
  unfold State.bootAnew
  refine State.setMode_keeps _ ?_ _
  refine State.cleared_keeps _ ?_
  exact hs

theorem State.setPwrState_keeps {s₀ : State} (s : State) (hs : Keeps s₀ s) (key : Nat) (v : Nat) :
    Keeps s₀ (State.setPwrState s key v) := by
  unfold State.setPwrState
  exact Keeps.part hs rfl rfl (fun i => ⟨{ i.canonical with pwrStates := SMap.wf_set i.canonical.pwrStates _ _ }, i.ring⟩) rfl rfl

theorem State.wake_keeps {s₀ : State} (s : State) (hs : Keeps s₀ s) (f : PwrFn) :
    Keeps s₀ (State.wake s f) := by
  unfold State.wake
  split
  · refine pred_ite ?_ ?_
    · refine State.leaveReset_keeps _ ?_ _
      exact hs
    · refine State.ungate_keeps _ ?_ _
      exact hs
  · refine State.setRegF_keeps _ ?_ _ _ _ _
    refine State.setRegF_keeps _ ?_ _ _ _ _
    exact hs
  · extract_lets -underBinder -merge -useContext +onlyGivenNames x4 x5
    have h5 : Keeps s₀ x5 := by
      unfold x5
      refine pred_ite ?_ ?_
      · refine State.setChan_keeps _ ?_ _ _
        refine State.leaveReset_keeps _ ?_ _
        exact hs
      · exact hs
    refine State.setPwrState_keeps _ ?_ _ _
    exact h5
  · refine State.setPwrState_keeps _ ?_ _ _
    exact hs

theorem State.budgetWritten_keeps {s₀ : State} (s : State) (hs : Keeps s₀ s) (k : Nat) :
    Keeps s₀ (State.budgetWritten s k) := by
  unfold State.budgetWritten
  refine pred_foldl ?_ ?_
  · intro x1 h1 a1
    refine pred_ite ?_ ?_
    · refine State.wake_keeps _ ?_ _
      exact h1
    · exact h1
  · exact hs

theorem State.checkAlert_keeps {s₀ : State} (s : State) (hs : Keeps s₀ s) (k : Nat) :
    Keeps s₀ (State.checkAlert s k) := by
  unfold State.checkAlert
  extract_lets -underBinder -merge -useContext +onlyGivenNames x1
  extract_lets -underBinder -merge -useContext +onlyGivenNames x2
  extract_lets -underBinder -merge -useContext +onlyGivenNames x3
  refine pred_ite ?_ ?_
  · extract_lets -underBinder -merge -useContext +onlyGivenNames x4
    extract_lets -underBinder -merge -useContext +onlyGivenNames x5
    have h5 : Keeps s₀ x5 := by
      unfold x5
      refine State.setRegF_keeps _ ?_ _ _ _ _
      exact hs
    refine pred_ite ?_ ?_
    · refine State.logNamed_keeps _ ?_ _ _ _
      exact h5
    · exact h5
  · exact hs

theorem State.dueClocks_keeps {s₀ : State} (s : State) (hs : Keeps s₀ s) :
    Keeps s₀ (State.dueClocks s) := by
  unfold State.dueClocks
  refine pred_foldl ?_ ?_
  · intro x1 h1 a1
    extract_lets -underBinder -merge -useContext +onlyGivenNames x2
    extract_lets -underBinder -merge -useContext +onlyGivenNames x3
    refine pred_ite ?_ ?_
    · refine pred_ite ?_ ?_
      · exact h1
      · refine State.setCore_keeps _ ?_ _ _
        exact h1
    · refine State.setCore_keeps _ ?_ _ _
      exact h1
  · exact hs

theorem State.railDown_keeps {s₀ : State} (s : State) (hs : Keeps s₀ s) (c : Core) :
    Keeps s₀ (State.railDown s c) := by
  unfold State.railDown
  exact Keeps.upd hs

theorem State.enterPower_keeps {s₀ : State} (s : State) (hs : Keeps s₀ s) (f : PwrFn) (st : Nat) :
    Keeps s₀ (State.enterPower s f st) := by
  unfold State.enterPower
  split
  · refine State.setPstate_keeps _ ?_ _ _
    refine pred_ite ?_ ?_
    · refine State.railDown_keeps _ ?_ _
      refine State.enterReset_keeps _ ?_ _ _
      exact hs
    · exact hs
  · refine State.setRegF_keeps _ ?_ _ _ _ _
    refine State.setRegF_keeps _ ?_ _ _ _ _
    exact hs
  · extract_lets -underBinder -merge -useContext +onlyGivenNames x4 x5
    have h5 : Keeps s₀ x5 := by
      unfold x5
      refine pred_ite ?_ ?_
      · refine State.setChan_keeps _ ?_ _ _
        refine State.enterReset_keeps _ ?_ _ _
        exact hs
      · exact hs
    refine State.setPwrState_keeps _ ?_ _ _
    exact h5
  · refine State.setPwrState_keeps _ ?_ _ _
    exact hs

theorem State.inputSample_keeps {s₀ : State} (s : State) (hs : Keeps s₀ s) (j : Nat) :
    Keeps s₀ (State.inputSample s j) := by
  unfold State.inputSample
  extract_lets -underBinder -merge -useContext +onlyGivenNames x1
  extract_lets -underBinder -merge -useContext +onlyGivenNames x2
  have h2 : Keeps s₀ x2 := by
    unfold x2
    exact Keeps.upd hs
  extract_lets -underBinder -merge -useContext +onlyGivenNames x3
  extract_lets -underBinder -merge -useContext +onlyGivenNames x4
  have h4 : Keeps s₀ x4 := by
    unfold x4
    refine pred_ite ?_ ?_
    · refine State.setRegF_keeps _ ?_ _ _ _ _
      exact h2
    · exact h2
  refine pred_ite ?_ ?_
  · extract_lets -underBinder -merge -useContext +onlyGivenNames x5
    refine pred_ite ?_ ?_
    · refine State.setRegF_keeps _ ?_ _ _ _ _
      exact h4
    · exact h4
  · exact h4

theorem State.powerOff_keeps {s₀ : State} (s : State) (hs : Keeps s₀ s) :
    Keeps s₀ (State.powerOff s) := by
  unfold State.powerOff
  extract_lets -underBinder -merge -useContext +onlyGivenNames x1
  have h1 : Keeps s₀ x1 := by
    unfold x1
    refine State.cleared_keeps _ ?_
    exact hs
  exact Keeps.upd h1

theorem State.recheckAlerts_keeps {s₀ : State} (s : State) (hs : Keeps s₀ s) (mask : Nat) :
    Keeps s₀ (State.recheckAlerts s mask) := by
  unfold State.recheckAlerts
  refine pred_foldl ?_ ?_
  · intro x1 h1 a1
    refine pred_ite ?_ ?_
    · refine State.checkAlert_keeps _ ?_ _
      exact h1
    · exact h1
  · exact hs

theorem execCoreThermalGate_keeps {s₀ : State} (c : Core) (s : State) (hs : Keeps s₀ s) :
    InOut (Keeps s₀) (execCoreThermalGate c s) := by
  unfold execCoreThermalGate
  extract_lets -underBinder -merge -useContext +onlyGivenNames x1
  split
  · refine InOut.next ?_
    exact hs
  · refine pred_ite ?_ ?_
    · refine InOut.next ?_
      refine State.ungate_keeps _ ?_ _
      refine State.setCore_keeps _ ?_ _ _
      exact hs
    · refine pred_ite ?_ ?_
      · refine InOut.next ?_
        refine State.setPstate_keeps _ ?_ _ _
        refine State.setCore_keeps _ ?_ _ _
        exact hs
      · refine InOut.next ?_
        exact hs

theorem execDroopEnd_keeps {s₀ : State} (c : Core) (s : State) (hs : Keeps s₀ s) :
    InOut (Keeps s₀) (execDroopEnd c s) := by
  unfold execDroopEnd
  extract_lets -underBinder -merge -useContext +onlyGivenNames x1
  refine pred_ite ?_ ?_
  · refine InOut.next ?_
    exact hs
  · extract_lets -underBinder -merge -useContext +onlyGivenNames x2
    extract_lets -underBinder -merge -useContext +onlyGivenNames x3
    have h3 : Keeps s₀ x3 := by
      unfold x3
      refine State.setCore_keeps _ ?_ _ _
      exact hs
    refine InOut.next ?_
    refine pred_ite ?_ ?_
    · refine State.setRegF_keeps _ ?_ _ _ _ _
      exact h3
    · exact h3

theorem execDroopResponse_keeps {s₀ : State} (c : Core) (s : State) (hs : Keeps s₀ s) :
    InOut (Keeps s₀) (execDroopResponse c s) := by
  unfold execDroopResponse
  extract_lets -underBinder -merge -useContext +onlyGivenNames x1
  refine pred_ite ?_ ?_
  · refine InOut.next ?_
    exact hs
  · refine InOut.next ?_
    refine State.inc_keeps _ ?_ _ _
    refine State.setCore_keeps _ ?_ _ _
    exact hs

theorem execHousekeepingRailDown_keeps {s₀ : State} (s : State) (hs : Keeps s₀ s) :
    InOut (Keeps s₀) (execHousekeepingRailDown s) := by
  unfold execHousekeepingRailDown
  refine InOut.next ?_
  exact Keeps.upd hs

theorem execIdleEntry_keeps {s₀ : State} (f : PwrFn) (s : State) (hs : Keeps s₀ s) :
    InOut (Keeps s₀) (execIdleEntry f s) := by
  unfold execIdleEntry
  refine InOut.next ?_
  refine pred_ite ?_ ?_
  · refine State.enterPower_keeps _ ?_ _ _
    exact hs
  · exact hs

theorem execInputShutdown_keeps {s₀ : State} (s : State) (hs : Keeps s₀ s) :
    InOut (Keeps s₀) (execInputShutdown s) := by
  unfold execInputShutdown
  refine InOut.next ?_
  refine pred_ite ?_ ?_
  · exact hs
  · refine State.powerOff_keeps _ ?_
    exact hs

theorem execInputTurnOn_keeps {s₀ : State} (s : State) (hs : Keeps s₀ s) :
    InOut (Keeps s₀) (execInputTurnOn s) := by
  unfold execInputTurnOn
  refine InOut.next ?_
  refine pred_ite ?_ ?_
  · exact hs
  · refine pred_ite ?_ ?_
    · exact Keeps.upd hs
    · exact Keeps.upd hs

theorem execModResetN_keeps {s₀ : State} (s : State) (hs : Keeps s₀ s) :
    InOut (Keeps s₀) (execModResetN s) := by
  unfold execModResetN
  refine InOut.next ?_
  extract_lets -underBinder -merge -useContext +onlyGivenNames x1
  have h1 : Keeps s₀ x1 := by
    unfold x1
    refine pred_ite ?_ ?_
    · exact hs
    · refine State.powerOff_keeps _ ?_
      exact hs
  exact Keeps.upd h1

theorem execOvercurrentTrip_keeps {s₀ : State} (s : State) (hs : Keeps s₀ s) :
    InOut (Keeps s₀) (execOvercurrentTrip s) := by
  unfold execOvercurrentTrip
  refine InOut.next ?_
  refine pred_ite ?_ ?_
  · exact hs
  · refine State.powerOff_keeps _ ?_
    exact hs

theorem execPowerCapEval_keeps {s₀ : State} (p : BitVec 16) (s : State) (hs : Keeps s₀ s) :
    InOut (Keeps s₀) (execPowerCapEval p s) := by
  unfold execPowerCapEval
  extract_lets -underBinder -merge -useContext +onlyGivenNames x1
  extract_lets -underBinder -merge -useContext +onlyGivenNames x2
  extract_lets -underBinder -merge -useContext +onlyGivenNames x3
  have h3 : Keeps s₀ x3 := by
    unfold x3
    refine State.setRegF_keeps _ ?_ _ _ _ _
    refine State.setRegF_keeps _ ?_ _ _ _ _
    exact hs
  extract_lets -underBinder -merge -useContext +onlyGivenNames x4
  have h4 : Keeps s₀ x4 := by
    unfold x4
    refine State.setRegF_keeps _ ?_ _ _ _ _
    exact h3
  extract_lets -underBinder -merge -useContext +onlyGivenNames x5
  have h5 : Keeps s₀ x5 := by
    unfold x5
    refine State.setRegF_keeps _ ?_ _ _ _ _
    exact h4
  refine InOut.next ?_
  refine State.dueClocks_keeps _ ?_
  refine State.addEnergy_keeps _ ?_ _
  exact h5

theorem execPowerGood_keeps {s₀ : State} (straps : BitVec 3) (s : State) (hs : Keeps s₀ s) :
    InOut (Keeps s₀) (execPowerGood straps s) := by
  unfold execPowerGood
  refine InOut.next ?_
  refine pred_ite ?_ ?_
  · refine State.bootAnew_keeps _ ?_
    exact Keeps.upd hs
  · exact hs

theorem execPowerStateWake_keeps {s₀ : State} (f : PwrFn) (s : State) (hs : Keeps s₀ s) :
    InOut (Keeps s₀) (execPowerStateWake f s) := by
  unfold execPowerStateWake
  refine InOut.next ?_
  refine pred_ite ?_ ?_
  · refine State.wake_keeps _ ?_ _
    exact hs
  · exact hs

theorem execRegulatorFail_keeps {s₀ : State} (r : Rail) (s : State) (hs : Keeps s₀ s) :
    InOut (Keeps s₀) (execRegulatorFail r s) := by
  unfold execRegulatorFail
  refine pred_ite ?_ ?_
  · refine InOut.next ?_
    exact hs
  · extract_lets -underBinder -merge -useContext +onlyGivenNames x1
    have h1 : Keeps s₀ x1 := by
      unfold x1
      refine pred_foldl ?_ ?_
      · intro x2 h2 a2
        refine State.enterReset_keeps _ ?_ _ _
        exact h2
      · exact Keeps.upd hs
    split
    · refine InOut.next ?_
      refine State.powerOff_keeps _ ?_
      exact hs
    · refine InOut.next ?_
      exact h1
    · refine InOut.next ?_
      refine State.polderLoss_keeps _ ?_ _ _ _ _
      exact h1
    · refine InOut.next ?_
      refine State.polderLoss_keeps _ ?_ _ _ _ _
      exact h1
    · refine InOut.next ?_
      refine State.polderLoss_keeps _ ?_ _ _ _ _
      exact h1
    · refine InOut.next ?_
      refine State.polderLoss_keeps _ ?_ _ _ _ _
      exact h1
    · refine InOut.next ?_
      refine State.polderLoss_keeps _ ?_ _ _ _ _
      exact h1

theorem execSensorUpdate_keeps {s₀ : State} (j : Fin 256) (v : BitVec 24) (s : State) (hs : Keeps s₀ s) :
    InOut (Keeps s₀) (execSensorUpdate j v s) := by
  unfold execSensorUpdate
  refine pred_ite ?_ ?_
  · refine InOut.next ?_
    exact hs
  · extract_lets -underBinder -merge -useContext +onlyGivenNames x1
    have h1 : Keeps s₀ x1 := by
      unfold x1
      refine pred_ite ?_ ?_
      · exact Keeps.upd hs
      · exact hs
    extract_lets -underBinder -merge -useContext +onlyGivenNames x2
    have h2 : Keeps s₀ x2 := by
      unfold x2
      refine State.inputSample_keeps _ ?_ _
      refine State.setReg_keeps _ ?_ _ _
      exact h1
    refine InOut.next ?_
    refine pred_foldl ?_ ?_
    · intro x3 h3 a3
      refine pred_ite ?_ ?_
      · refine State.checkAlert_keeps _ ?_ _
        exact h3
      · exact h3
    · exact h2

theorem execThermalEval_keeps {s₀ : State} (s : State) (hs : Keeps s₀ s) :
    InOut (Keeps s₀) (execThermalEval s) := by
  unfold execThermalEval
  extract_lets -underBinder -merge -useContext +onlyGivenNames x1
  have h1 : Keeps s₀ x1 := by
    unfold x1
    refine pred_foldl ?_ ?_
    · intro x2 h2 a2
      split
      · exact h2
      · extract_lets -underBinder -merge -useContext +onlyGivenNames x5
        refine pred_ite ?_ ?_
        · exact h2
        · refine State.setCore_keeps _ ?_ _ _
          exact h2
    · exact hs
  refine InOut.next ?_
  refine State.dueClocks_keeps _ ?_
  refine State.noteTherm_keeps _ ?_
  exact Keeps.upd h1

theorem execThermalTrip_keeps {s₀ : State} (s : State) (hs : Keeps s₀ s) :
    InOut (Keeps s₀) (execThermalTrip s) := by
  unfold execThermalTrip
  refine InOut.next ?_
  refine pred_ite ?_ ?_
  · exact hs
  · extract_lets -underBinder -merge -useContext +onlyGivenNames x1
    have h1 : Keeps s₀ x1 := by
      unfold x1
      refine State.powerOff_keeps _ ?_
      exact hs
    exact Keeps.upd h1

end Sys2Proof.Machine
end

