-- ==== Sys2Proof/Laws/KeepPins.lean ====
section
/-! SUPPORT. What pins and the test port keep (`Keeps`), one lemma for each. -/

namespace Sys2Proof.Machine

open Sys2Proof

theorem State.answerIn_keeps {s₀ : State} (s : State) (hs : Keeps s₀ s) (lo : Nat) (hi : Nat) (status : Nat) (data : List Byte) :
    Keeps s₀ (State.answerIn s lo hi status data) := by
  unfold State.answerIn
  extract_lets -underBinder -merge -useContext +onlyGivenNames x1
  have h1 : Keeps s₀ x1 := by
    unfold x1
    refine In2.out ?_
    refine State.draw_keeps _ ?_
    exact hs
  exact Keeps.upd h1

theorem State.answer_keeps {s₀ : State} (s : State) (hs : Keeps s₀ s) (status : Nat) (data : List Byte) :
    Keeps s₀ (State.answer s status data) := by
  unfold State.answer
  refine State.answerIn_keeps _ ?_ _ _ _ _
  exact hs

theorem State.loadTap_keeps {s₀ : State} (s : State) (hs : Keeps s₀ s) (i : TapIns) (refused : Bool) :
    Keeps s₀ (State.loadTap s i refused) := by
  unfold State.loadTap
  refine pred_ite ?_ ?_
  · exact Keeps.upd hs
  · exact hs

theorem State.loadPins_keeps {s₀ : State} (s : State) (hs : Keeps s₀ s) (i : TapIns) :
    Keeps s₀ (State.loadPins s i) := by
  unfold State.loadPins
  refine pred_ite ?_ ?_
  · refine State.loadTap_keeps _ ?_ _ _
    exact hs
  · refine State.loadTap_keeps _ ?_ _ _
    exact hs

theorem State.mgmt_keeps {s₀ : State} (s : State) (hs : Keeps s₀ s) (code : Nat) (m : MgmtCmd) (ok : Bool) (legal : Bool) (run : State → State) (hrun : ∀ z1 : State, Keeps s₀ z1 → Keeps s₀ (run z1)) :
    Keeps s₀ (State.mgmt s code m ok legal run) := by
  unfold State.mgmt
  refine pred_ite ?_ ?_
  · exact hs
  · refine pred_ite ?_ ?_
    · exact hs
    · refine pred_ite ?_ ?_
      · refine State.answer_keeps _ ?_ _ _
        exact hs
      · refine pred_ite ?_ ?_
        · refine State.answer_keeps _ ?_ _ _
          exact hs
        · refine pred_ite ?_ ?_
          · refine State.answer_keeps _ ?_ _ _
            refine State.inc_keeps _ ?_ _ _
            exact hs
          · refine hrun _ ?_
            exact hs

theorem execBypass_keeps {s₀ : State} (code : Byte) (s : State) (hs : Keeps s₀ s) :
    InOut (Keeps s₀) (execBypass code s) := by
  unfold execBypass
  split
  · refine InOut.next ?_
    refine State.loadPins_keeps _ ?_ _
    exact hs
  · refine InOut.next ?_
    refine State.loadTap_keeps _ ?_ _ _
    exact hs
  · refine InOut.next ?_
    refine State.loadTap_keeps _ ?_ _ _
    exact hs
  · refine InOut.next ?_
    refine State.loadPins_keeps _ ?_ _
    exact hs
  · refine InOut.next ?_
    refine State.loadPins_keeps _ ?_ _
    exact hs
  · refine InOut.next ?_
    refine State.loadTap_keeps _ ?_ _ _
    exact hs

theorem execClamp_keeps {s₀ : State} (s : State) (hs : Keeps s₀ s) :
    InOut (Keeps s₀) (execClamp s) := by
  unfold execClamp
  refine InOut.next ?_
  refine State.loadPins_keeps _ ?_ _
  exact hs

theorem execClearAlert_keeps {s₀ : State} (m : MgmtCmd) (s : State) (hs : Keeps s₀ s) :
    InOut (Keeps s₀) (execClearAlert m s) := by
  unfold execClearAlert
  refine InOut.next ?_
  refine State.mgmt_keeps _ ?_ _ _ _ _ _ ?_
  · exact hs
  · intro x1 h1
    try beta_reduce
    refine State.answer_keeps _ ?_ _ _
    refine State.recheckAlerts_keeps _ ?_ _
    refine State.setReg_keeps _ ?_ _ _
    exact h1

theorem execDataRegisterScan_keeps {s₀ : State} (tdi : List Bool) (pins : BitVec 12) (s : State) (hs : Keeps s₀ s) :
    InOut (Keeps s₀) (execDataRegisterScan tdi pins s) := by
  unfold execDataRegisterScan
  refine pred_ite ?_ ?_
  · refine InOut.next ?_
    exact hs
  · split
    · extract_lets -underBinder -merge -useContext +onlyGivenNames x2
      refine InOut.next ?_
      exact Keeps.upd hs
    · extract_lets -underBinder -merge -useContext +onlyGivenNames x4
      refine InOut.next ?_
      exact Keeps.upd hs
    · refine InOut.next ?_
      exact Keeps.upd hs
    · extract_lets -underBinder -merge -useContext +onlyGivenNames x7
      refine InOut.next ?_
      exact Keeps.upd hs
    · extract_lets -underBinder -merge -useContext +onlyGivenNames x9
      refine InOut.next ?_
      exact Keeps.upd hs
    · extract_lets -underBinder -merge -useContext +onlyGivenNames x11
      refine InOut.next ?_
      exact Keeps.upd hs

theorem execExtest_keeps {s₀ : State} (s : State) (hs : Keeps s₀ s) :
    InOut (Keeps s₀) (execExtest s) := by
  unfold execExtest
  refine InOut.next ?_
  refine State.loadPins_keeps _ ?_ _
  exact hs

theorem execFlash_keeps {s₀ : State} (m : MgmtCmd) (s : State) (hs : Keeps s₀ s) :
    InOut (Keeps s₀) (execFlash m s) := by
  unfold execFlash
  extract_lets -underBinder -merge -useContext +onlyGivenNames x1
  refine InOut.next ?_
  refine State.mgmt_keeps _ ?_ _ _ _ _ _ ?_
  · exact hs
  · intro x2 h2
    try beta_reduce
    extract_lets -underBinder -merge -useContext +onlyGivenNames x3
    have h3 : In2 (Keeps s₀) x3 := by
      unfold x3
      refine State.flashOp_keeps _ ?_ _ _
      exact h2
    refine State.answerIn_keeps _ ?_ _ _ _ _
    exact h3.out

theorem execGetIdentity_keeps {s₀ : State} (m : MgmtCmd) (s : State) (hs : Keeps s₀ s) :
    InOut (Keeps s₀) (execGetIdentity m s) := by
  unfold execGetIdentity
  refine InOut.next ?_
  refine State.mgmt_keeps _ ?_ _ _ _ _ _ ?_
  · exact hs
  · intro x1 h1
    try beta_reduce
    refine State.answer_keeps _ ?_ _ _
    exact h1

theorem execGetState_keeps {s₀ : State} (m : MgmtCmd) (s : State) (hs : Keeps s₀ s) :
    InOut (Keeps s₀) (execGetState m s) := by
  unfold execGetState
  refine InOut.next ?_
  refine State.mgmt_keeps _ ?_ _ _ _ _ _ ?_
  · exact hs
  · intro x1 h1
    try beta_reduce
    refine State.answer_keeps _ ?_ _ _
    exact h1

theorem execHighz_keeps {s₀ : State} (s : State) (hs : Keeps s₀ s) :
    InOut (Keeps s₀) (execHighz s) := by
  unfold execHighz
  refine InOut.next ?_
  refine State.loadPins_keeps _ ?_ _
  exact hs

theorem execIdcode_keeps {s₀ : State} (s : State) (hs : Keeps s₀ s) :
    InOut (Keeps s₀) (execIdcode s) := by
  unfold execIdcode
  refine InOut.next ?_
  refine State.loadTap_keeps _ ?_ _ _
  exact hs

theorem execReadBreach_keeps {s₀ : State} (m : MgmtCmd) (s : State) (hs : Keeps s₀ s) :
    InOut (Keeps s₀) (execReadBreach m s) := by
  unfold execReadBreach
  refine InOut.next ?_
  refine State.mgmt_keeps _ ?_ _ _ _ _ _ ?_
  · exact hs
  · intro x1 h1
    try beta_reduce
    extract_lets -underBinder -merge -useContext +onlyGivenNames x2
    extract_lets -underBinder -merge -useContext +onlyGivenNames x3
    refine pred_ite ?_ ?_
    · refine State.answer_keeps _ ?_ _ _
      exact h1
    · split
      · refine State.answer_keeps _ ?_ _ _
        exact h1
      · refine State.answer_keeps _ ?_ _ _
        exact h1

theorem execReadReg_keeps {s₀ : State} (m : MgmtCmd) (s : State) (hs : Keeps s₀ s) :
    InOut (Keeps s₀) (execReadReg m s) := by
  unfold execReadReg
  extract_lets -underBinder -merge -useContext +onlyGivenNames x1
  refine InOut.next ?_
  refine State.mgmt_keeps _ ?_ _ _ _ _ _ ?_
  · exact hs
  · intro x2 h2
    try beta_reduce
    refine State.answer_keeps _ ?_ _ _
    exact h2

theorem execReadSensors_keeps {s₀ : State} (m : MgmtCmd) (s : State) (hs : Keeps s₀ s) :
    InOut (Keeps s₀) (execReadSensors m s) := by
  unfold execReadSensors
  extract_lets -underBinder -merge -useContext +onlyGivenNames x1
  extract_lets -underBinder -merge -useContext +onlyGivenNames x2
  refine InOut.next ?_
  refine State.mgmt_keeps _ ?_ _ _ _ _ _ ?_
  · exact hs
  · intro x3 h3
    try beta_reduce
    refine State.answer_keeps _ ?_ _ _
    exact h3

theorem execSamplePreload_keeps {s₀ : State} (s : State) (hs : Keeps s₀ s) :
    InOut (Keeps s₀) (execSamplePreload s) := by
  unfold execSamplePreload
  refine InOut.next ?_
  refine State.loadTap_keeps _ ?_ _ _
  exact hs

theorem execSetAlert_keeps {s₀ : State} (m : MgmtCmd) (s : State) (hs : Keeps s₀ s) :
    InOut (Keeps s₀) (execSetAlert m s) := by
  unfold execSetAlert
  extract_lets -underBinder -merge -useContext +onlyGivenNames x1
  extract_lets -underBinder -merge -useContext +onlyGivenNames x2
  refine InOut.next ?_
  refine State.mgmt_keeps _ ?_ _ _ _ _ _ ?_
  · exact hs
  · intro x3 h3
    try beta_reduce
    extract_lets -underBinder -merge -useContext +onlyGivenNames x4
    have h4 : Keeps s₀ x4 := by
      unfold x4
      refine State.setReg_keeps _ ?_ _ _
      exact h3
    refine State.answer_keeps _ ?_ _ _
    refine State.checkAlert_keeps _ ?_ _
    refine State.setReg_keeps _ ?_ _ _
    exact h4

theorem execSetCap_keeps {s₀ : State} (m : MgmtCmd) (s : State) (hs : Keeps s₀ s) :
    InOut (Keeps s₀) (execSetCap m s) := by
  unfold execSetCap
  refine InOut.next ?_
  refine State.mgmt_keeps _ ?_ _ _ _ _ _ ?_
  · exact hs
  · intro x1 h1
    try beta_reduce
    refine State.answer_keeps _ ?_ _ _
    refine State.setReg_keeps _ ?_ _ _
    exact h1

theorem execTapReset_keeps {s₀ : State} (s : State) (hs : Keeps s₀ s) :
    InOut (Keeps s₀) (execTapReset s) := by
  unfold execTapReset
  refine InOut.next ?_
  exact Keeps.upd hs

end Sys2Proof.Machine
end

