-- ==== Sys2Proof/Laws/KeepFabric.lean ====
section
/-! SUPPORT. What the fabric and far memory keeps (`Keeps`), one lemma for each. -/

namespace Sys2Proof.Machine

open Sys2Proof

theorem State.closeChan_keeps {s₀ : State} (s : State) (hs : Keeps s₀ s) (ch : Nat) :
    Keeps s₀ (State.closeChan s ch) := by
  unfold State.closeChan
  extract_lets -underBinder -merge -useContext +onlyGivenNames x1
  refine pred_ite ?_ ?_
  · exact hs
  · refine State.closeWindow_keeps _ ?_ _ _
    exact hs

theorem State.sendRead_keeps {s₀ : State} (s : State) (hs : Keeps s₀ s) (e : Nat) (node : Nat) (addr : Nat) (n : Nat) (use : ReadUse) :
    Keeps s₀ (State.sendRead s e node addr n use) := by
  unfold State.sendRead
  extract_lets -underBinder -merge -useContext +onlyGivenNames x1
  extract_lets -underBinder -merge -useContext +onlyGivenNames x2
  refine State.e2eSend_keeps _ ?_ _ _ _ _ _ _ _
  exact Keeps.upd hs

theorem State.burstBack_keeps {s₀ : State} (s : State) (hs : Keeps s₀ s) (addr : Nat) (n : Nat) (data : List Byte) :
    Keeps s₀ (State.burstBack s addr n data) := by
  unfold State.burstBack
  extract_lets -underBinder -merge -useContext +onlyGivenNames x1
  extract_lets -underBinder -merge -useContext +onlyGivenNames x2
  refine pred_ite ?_ ?_
  · refine State.closeChan_keeps _ ?_ _
    refine pred_foldl ?_ ?_
    · intro x3 h3 a3
      refine State.inc_keeps _ ?_ _ _
      refine State.put_keeps _ ?_ _ _ _ _
      exact h3
    · exact hs
  · refine pred_ite ?_ ?_
    · refine State.closeChan_keeps _ ?_ _
      refine pred_foldl ?_ ?_
      · intro x4 h4 a4
        split
        · refine State.sendRead_keeps _ ?_ _ _ _ _ _
          exact h4
        · exact h4
      · exact hs
    · refine pred_ite ?_ ?_
      · refine State.closeChan_keeps _ ?_ _
        exact hs
      · refine State.pairLoss_keeps _ ?_ _ _ _ _ _
        refine State.closeChan_keeps _ ?_ _
        exact hs

theorem State.copyPiece_keeps {s₀ : State} (s : State) (hs : Keeps s₀ s) (e : Nat) (a : Nat) (n : Nat) :
    Keeps s₀ (State.copyPiece s e a n) := by
  unfold State.copyPiece
  extract_lets -underBinder -merge -useContext +onlyGivenNames x1
  have h1 : ∀ x2 : State, Keeps s₀ x2 → ∀ x3 : Nat, ∀ x4 : Nat, Keeps s₀ (x1 x2 x3 x4) := by
    unfold x1
    intro x2 h2 x3 x4
    try beta_reduce
    split
    · refine State.sendMwr_keeps _ ?_ _ _ _ _ _ _
      exact h2
    · exact h2
  extract_lets -underBinder -merge -useContext +onlyGivenNames x7
  have h7 : Keeps s₀ x7 := by
    unfold x7
    refine State.readRange_keeps _ ?_ _ _
    exact hs
  refine pred_ite ?_ ?_
  · refine pred_foldl ?_ ?_
    · intro x8 h8 a8
      refine pred_ite ?_ ?_
      · exact h8
      · refine h1 _ ?_ _ _
        exact h8
    · exact h7
  · refine h1 _ ?_ _ _
    exact h7

theorem State.inSync_keeps {s₀ : State} (s : State) (hs : Keeps s₀ s) :
    Keeps s₀ (State.inSync s) := by
  unfold State.inSync
  extract_lets -underBinder -merge -useContext +onlyGivenNames x1
  have h1 : Keeps s₀ x1 := by
    unfold x1
    refine State.closeWindow_keeps _ ?_ _ _
    refine State.setRegF_keeps _ ?_ _ _ _ _
    refine State.setReg48_keeps _ ?_ _ _ _
    exact Keeps.upd hs
  refine pred_ite ?_ ?_
  · exact h1
  · refine State.closeWindow_keeps _ ?_ _ _
    exact h1

theorem State.openChan_keeps {s₀ : State} (s : State) (hs : Keeps s₀ s) (ch : Nat) :
    Keeps s₀ (State.openChan s ch) := by
  unfold State.openChan
  refine pred_ite ?_ ?_
  · exact hs
  · refine State.openWindow_keeps _ ?_ _ _ _
    exact hs

theorem State.pairBack_keeps {s₀ : State} (s : State) (hs : Keeps s₀ s) (data : List Byte) :
    Keeps s₀ (State.pairBack s data) := by
  unfold State.pairBack
  split
  · exact hs
  · extract_lets -underBinder -merge -useContext +onlyGivenNames x3
    extract_lets -underBinder -merge -useContext +onlyGivenNames x4
    extract_lets -underBinder -merge -useContext +onlyGivenNames x5
    extract_lets -underBinder -merge -useContext +onlyGivenNames x6
    refine pred_ite ?_ ?_
    · exact hs
    · refine State.loseTwin_keeps _ ?_ _
      exact hs

theorem State.queueRetire_keeps {s₀ : State} (s : State) (hs : Keeps s₀ s) (a : Nat) :
    Keeps s₀ (State.queueRetire s a) := by
  unfold State.queueRetire
  extract_lets -underBinder -merge -useContext +onlyGivenNames x1
  refine State.setChan_keeps _ ?_ _ _
  exact hs

theorem State.readBurst_keeps {s₀ : State} (s : State) (hs : Keeps s₀ s) (a : Nat) (err : EccErr) :
    Keeps s₀ (State.readBurst s a err) := by
  unfold State.readBurst
  extract_lets -underBinder -merge -useContext +onlyGivenNames x1
  extract_lets -underBinder -merge -useContext +onlyGivenNames x2
  split
  · extract_lets -underBinder -merge -useContext +onlyGivenNames x4
    have h4 : Keeps s₀ x4 := by
      unfold x4
      refine State.count_keeps _ ?_ _ _ _ _
      refine State.inc_keeps _ ?_ _ _
      exact hs
    extract_lets -underBinder -merge -useContext +onlyGivenNames x5
    extract_lets -underBinder -merge -useContext +onlyGivenNames x6
    extract_lets -underBinder -merge -useContext +onlyGivenNames x7
    have h7 : Keeps s₀ x7 := by
      unfold x7
      refine State.setChan_keeps _ ?_ _ _
      exact h4
    extract_lets -underBinder -merge -useContext +onlyGivenNames x8
    extract_lets -underBinder -merge -useContext +onlyGivenNames x9
    have h9 : Keeps s₀ x9 := by
      unfold x9
      refine pred_ite ?_ ?_
      · refine State.queueRetire_keeps _ ?_ _
        exact h7
      · exact h7
    refine pred_ite ?_ ?_
    · refine State.noteBurst_keeps _ ?_ _ _
      exact h9
    · exact h9
  · refine pred_ite ?_ ?_
    · refine State.noteBurst_keeps _ ?_ _ _
      exact hs
    · exact hs
  · extract_lets -underBinder -merge -useContext +onlyGivenNames x12
    have h12 : Keeps s₀ x12 := by
      unfold x12
      refine State.noteBurst_keeps _ ?_ _ _
      exact Keeps.upd hs
    extract_lets -underBinder -merge -useContext +onlyGivenNames x13
    have h13 : Keeps s₀ x13 := by
      unfold x13
      refine State.queueRetire_keeps _ ?_ _
      exact h12
    refine pred_ite ?_ ?_
    · refine pred_ite ?_ ?_
      · refine pred_ite ?_ ?_
        · exact h13
        · refine State.pairLoss_keeps _ ?_ _ _ _ _ _
          exact h13
      · refine State.openChan_keeps _ ?_ _
        exact h13
    · exact h13

theorem State.restoreBack_keeps {s₀ : State} (s : State) (hs : Keeps s₀ s) (addr : Nat) (data : List Byte) :
    Keeps s₀ (State.restoreBack s addr data) := by
  unfold State.restoreBack
  split
  · exact hs
  · refine pred_ite ?_ ?_
    · refine State.failRestore_keeps _ ?_ _ _
      exact hs
    · refine State.put_keeps _ ?_ _ _ _ _
      exact Keeps.upd hs

theorem State.serveReq_keeps {s₀ : State} (s : State) (hs : Keeps s₀ s) (q : FarReq) :
    Keeps s₀ (State.serveReq s q) := by
  unfold State.serveReq
  split
  · refine State.put_keeps _ ?_ _ _ _ _
    exact hs
  · refine State.readBurst_keeps _ ?_ _ _
    refine State.countAccess_keeps _ ?_ _ _ _
    exact hs

theorem State.serveChan_keeps {s₀ : State} (s : State) (hs : Keeps s₀ s) (ch : Nat) :
    Keeps s₀ (State.serveChan s ch) := by
  unfold State.serveChan
  extract_lets -underBinder -merge -useContext +onlyGivenNames x1
  refine pred_ite ?_ ?_
  · exact hs
  · refine pred_foldl ?_ ?_
    · intro x2 h2 a2
      refine State.serveReq_keeps _ ?_ _
      exact h2
    · refine State.setChan_keeps _ ?_ _ _
      exact hs

theorem State.showLeft_keeps {s₀ : State} (s : State) (hs : Keeps s₀ s) (l : List (Half × Nat × Nat)) :
    Keeps s₀ (State.showLeft s l) := by
  unfold State.showLeft
  refine State.setReg48_keeps _ ?_ _ _ _
  exact hs

theorem State.startResync_keeps {s₀ : State} (s : State) (hs : Keeps s₀ s) :
    Keeps s₀ (State.startResync s) := by
  unfold State.startResync
  extract_lets -underBinder -merge -useContext +onlyGivenNames x1
  refine State.showLeft_keeps _ ?_ _
  refine State.setRegF_keeps _ ?_ _ _ _ _
  exact Keeps.upd hs

theorem State.twinPartner_keeps {s₀ : State} (s : State) (hs : Keeps s₀ s) (p : Nat) (node : Nat) :
    Keeps s₀ (State.twinPartner s p node) := by
  unfold State.twinPartner
  refine pred_ite ?_ ?_
  · exact hs
  · refine pred_ite ?_ ?_
    · refine State.portLost_keeps _ ?_ _
      exact hs
    · refine pred_ite ?_ ?_
      · refine State.startResync_keeps _ ?_
        exact hs
      · exact hs

theorem execBurstReconstruct_keeps {s₀ : State} (addr : Addr) (s : State) (hs : Keeps s₀ s) :
    InOut (Keeps s₀) (execBurstReconstruct addr s) := by
  unfold execBurstReconstruct
  extract_lets -underBinder -merge -useContext +onlyGivenNames x1
  refine pred_ite ?_ ?_
  · exact InOut.fault
  · refine pred_ite ?_ ?_
    · refine InOut.next ?_
      exact hs
    · refine pred_ite ?_ ?_
      · extract_lets -underBinder -merge -useContext +onlyGivenNames x2
        refine InOut.next ?_
        refine pred_foldl ?_ ?_
        · intro x3 h3 a3
          split
          · refine State.sendRead_keeps _ ?_ _ _ _ _ _
            exact h3
          · exact h3
        · refine State.openChan_keeps _ ?_ _
          exact hs
      · split
        · refine InOut.next ?_
          refine State.rewriteGroup_keeps _ ?_ _ _
          exact hs
        · refine InOut.next ?_
          exact hs

theorem execFmemAccess_keeps {s₀ : State} (addr : Addr) (wr : Option (List Byte × Bool)) (err : EccErr) (s : State) (hs : Keeps s₀ s) :
    InOut (Keeps s₀) (execFmemAccess addr wr err s) := by
  unfold execFmemAccess
  extract_lets -underBinder -merge -useContext +onlyGivenNames x1
  extract_lets -underBinder -merge -useContext +onlyGivenNames x2
  extract_lets -underBinder -merge -useContext +onlyGivenNames x3
  refine pred_ite ?_ ?_
  · exact InOut.fault
  · refine pred_ite ?_ ?_
    · refine InOut.next ?_
      refine State.serveReq_keeps _ ?_ _
      refine State.serveChan_keeps _ ?_ _
      exact hs
    · refine InOut.next ?_
      refine State.setChan_keeps _ ?_ _ _
      exact hs

theorem execFmemPatrolScrub_keeps {s₀ : State} (addr : Addr) (err : EccErr) (s : State) (hs : Keeps s₀ s) :
    InOut (Keeps s₀) (execFmemPatrolScrub addr err s) := by
  unfold execFmemPatrolScrub
  extract_lets -underBinder -merge -useContext +onlyGivenNames x1
  refine pred_ite ?_ ?_
  · exact InOut.fault
  · refine InOut.next ?_
    refine pred_ite ?_ ?_
    · refine State.readBurst_keeps _ ?_ _ _
      exact hs
    · exact hs

theorem execLinkCtlHello_keeps {s₀ : State} (p : Port) (s : State) (hs : Keeps s₀ s) :
    InOut (Keeps s₀) (execLinkCtlHello p s) := by
  unfold execLinkCtlHello
  have h1 : InSome (Keeps s₀) (s.takeRx (↑p) 64) := by
    refine State.takeRx_keeps _ ?_ _ _
    exact hs
  generalize (s.takeRx (↑p) 64) = z1 at h1 ⊢
  split
  · refine InOut.next ?_
    exact hs
  · refine pred_ite ?_ ?_
    · refine InOut.next ?_
      exact hs
    · extract_lets -underBinder -merge -useContext +onlyGivenNames x5
      extract_lets -underBinder -merge -useContext +onlyGivenNames x6
      extract_lets -underBinder -merge -useContext +onlyGivenNames x7
      refine pred_ite ?_ ?_
      · refine InOut.next ?_
        refine State.twinPartner_keeps _ ?_ _ _
        refine State.linkUp_keeps _ ?_ _ _
        refine State.setRegF_keeps _ ?_ _ _ _ _
        exact (h1 _ rfl)
      · refine pred_ite ?_ ?_
        · refine InOut.next ?_
          refine State.twinPartner_keeps _ ?_ _ _
          refine State.sendCtl_keeps _ ?_ _ _
          refine State.linkUp_keeps _ ?_ _ _
          refine State.setRegF_keeps _ ?_ _ _ _ _
          exact (h1 _ rfl)
        · refine InOut.next ?_
          exact (h1 _ rfl)

theorem execMack_keeps {s₀ : State} (p : Port) (s : State) (hs : Keeps s₀ s) :
    InOut (Keeps s₀) (execMack p s) := by
  unfold execMack
  have h1 : InSome (Keeps s₀) (s.takeRx (↑p) 49) := by
    refine State.takeRx_keeps _ ?_ _ _
    exact hs
  generalize (s.takeRx (↑p) 49) = z1 at h1 ⊢
  split
  · refine InOut.next ?_
    exact hs
  · extract_lets -underBinder -merge -useContext +onlyGivenNames x5
    have h5 : In2 (Keeps s₀) x5 := by
      unfold x5
      refine State.e2eAccept_keeps _ ?_ _ _
      exact (h1 _ rfl)
    extract_lets -underBinder -merge -useContext +onlyGivenNames x6
    have h6 : Keeps s₀ x6 := by
      unfold x6
      exact h5.out
    extract_lets -underBinder -merge -useContext +onlyGivenNames x7
    extract_lets -underBinder -merge -useContext +onlyGivenNames x8
    refine pred_ite ?_ ?_
    · refine InOut.next ?_
      exact h6
    · refine pred_ite ?_ ?_
      · split
        · refine pred_ite ?_ ?_
          · extract_lets -underBinder -merge -useContext +onlyGivenNames x11
            have h11 : Keeps s₀ x11 := by
              unfold x11
              refine State.addLog_keeps _ ?_ _ _ _
              refine State.setCtl_keeps _ ?_ _
              exact h6
            extract_lets -underBinder -merge -useContext +onlyGivenNames x12
            have h12 : Keeps s₀ x12 := by
              unfold x12
              refine State.count_keeps _ ?_ _ _ _ _
              exact h11
            refine InOut.next ?_
            refine pred_ite ?_ ?_
            · refine State.inSync_keeps _ ?_
              exact h12
            · exact h12
          · refine InOut.next ?_
            refine State.refusePkt_keeps _ ?_ _ _ _ _
            exact h6
        · refine InOut.next ?_
          refine State.refusePkt_keeps _ ?_ _ _ _ _
          exact h6
      · extract_lets -underBinder -merge -useContext +onlyGivenNames x14
        split
        · refine InOut.next ?_
          refine State.count_keeps _ ?_ _ _ _ _
          refine State.setEngine_keeps _ ?_ _ _
          exact h6
        · refine InOut.next ?_
          refine State.refusePkt_keeps _ ?_ _ _ _ _
          exact h6

theorem execMwr_keeps {s₀ : State} (p : Port) (s : State) (hs : Keeps s₀ s) :
    InOut (Keeps s₀) (execMwr p s) := by
  unfold execMwr
  have h1 : InSome (Keeps s₀) (s.takeRx (↑p) 48) := by
    refine State.takeRx_keeps _ ?_ _ _
    exact hs
  generalize (s.takeRx (↑p) 48) = z1 at h1 ⊢
  split
  · refine InOut.next ?_
    exact hs
  · extract_lets -underBinder -merge -useContext +onlyGivenNames x5
    have h5 : In2 (Keeps s₀) x5 := by
      unfold x5
      refine State.e2eAccept_keeps _ ?_ _ _
      exact (h1 _ rfl)
    extract_lets -underBinder -merge -useContext +onlyGivenNames x6
    extract_lets -underBinder -merge -useContext +onlyGivenNames x7
    extract_lets -underBinder -merge -useContext +onlyGivenNames x8
    extract_lets -underBinder -merge -useContext +onlyGivenNames x9
    refine pred_ite ?_ ?_
    · refine InOut.next ?_
      exact hs
    · extract_lets -underBinder -merge -useContext +onlyGivenNames x10
      have h10 : Keeps s₀ x10 := by
        unfold x10
        exact h5.out
      refine pred_ite ?_ ?_
      · refine InOut.next ?_
        exact h10
      · refine pred_ite ?_ ?_
        · refine InOut.next ?_
          refine State.refusePkt_keeps _ ?_ _ _ _ _
          exact h10
        · extract_lets -underBinder -merge -useContext +onlyGivenNames x11
          have h11 : Keeps s₀ x11 := by
            unfold x11
            refine State.put_keeps _ ?_ _ _ _ _
            exact h10
          refine pred_ite ?_ ?_
          · extract_lets -underBinder -merge -useContext +onlyGivenNames x12
            refine InOut.next ?_
            refine State.e2eSend_keeps _ ?_ _ _ _ _ _ _ _
            exact h11
          · refine InOut.next ?_
            exact h11

theorem execRead_keeps {s₀ : State} (p : Port) (s : State) (hs : Keeps s₀ s) :
    InOut (Keeps s₀) (execRead p s) := by
  unfold execRead
  have h1 : InSome (Keeps s₀) (s.takeRx (↑p) 17) := by
    refine State.takeRx_keeps _ ?_ _ _
    exact hs
  generalize (s.takeRx (↑p) 17) = z1 at h1 ⊢
  split
  · refine InOut.next ?_
    exact hs
  · extract_lets -underBinder -merge -useContext +onlyGivenNames x5
    extract_lets -underBinder -merge -useContext +onlyGivenNames x6
    extract_lets -underBinder -merge -useContext +onlyGivenNames x7
    have h7 : In2 (Keeps s₀) x7 := by
      unfold x7
      refine State.e2eAccept_keeps _ ?_ _ _
      exact (h1 _ rfl)
    extract_lets -underBinder -merge -useContext +onlyGivenNames x8
    have h8 : Keeps s₀ x8 := by
      unfold x8
      exact h7.out
    refine pred_ite ?_ ?_
    · refine InOut.next ?_
      exact hs
    · refine pred_ite ?_ ?_
      · refine InOut.next ?_
        exact h8
      · refine pred_ite ?_ ?_
        · refine InOut.next ?_
          refine State.refusePkt_keeps _ ?_ _ _ _ _
          exact h8
        · refine pred_ite ?_ ?_
          · extract_lets -underBinder -merge -useContext +onlyGivenNames x9
            refine InOut.next ?_
            refine State.e2eSend_keeps _ ?_ _ _ _ _ _ _ _
            refine State.readRange_keeps _ ?_ _ _
            exact h8
          · refine InOut.next ?_
            refine State.refusePkt_keeps _ ?_ _ _ _ _
            exact h8

theorem execReadResp_keeps {s₀ : State} (p : Port) (s : State) (hs : Keeps s₀ s) :
    InOut (Keeps s₀) (execReadResp p s) := by
  unfold execReadResp
  have h1 : InSome (Keeps s₀) (s.takeRx (↑p) 18) := by
    refine State.takeRx_keeps _ ?_ _ _
    exact hs
  generalize (s.takeRx (↑p) 18) = z1 at h1 ⊢
  split
  · refine InOut.next ?_
    exact hs
  · extract_lets -underBinder -merge -useContext +onlyGivenNames x5
    have h5 : In2 (Keeps s₀) x5 := by
      unfold x5
      refine State.e2eAccept_keeps _ ?_ _ _
      exact (h1 _ rfl)
    extract_lets -underBinder -merge -useContext +onlyGivenNames x6
    have h6 : Keeps s₀ x6 := by
      unfold x6
      exact h5.out
    refine pred_ite ?_ ?_
    · refine InOut.next ?_
      exact h6
    · split
      · refine InOut.next ?_
        refine State.refusePkt_keeps _ ?_ _ _ _ _
        exact h6
      · extract_lets -underBinder -merge -useContext +onlyGivenNames x9
        have h9 : Keeps s₀ x9 := by
          unfold x9
          exact Keeps.upd h6
        extract_lets -underBinder -merge -useContext +onlyGivenNames x10
        split
        · refine InOut.next ?_
          refine State.burstBack_keeps _ ?_ _ _ _
          exact h9
        · refine InOut.next ?_
          refine State.restoreBack_keeps _ ?_ _ _
          exact h9
        · refine InOut.next ?_
          refine State.pairBack_keeps _ ?_ _
          exact h9

theorem execResyncUnitCopy_keeps {s₀ : State} (e : Half) (s : State) (hs : Keeps s₀ s) :
    InOut (Keeps s₀) (execResyncUnitCopy e s) := by
  unfold execResyncUnitCopy
  split
  · refine InOut.next ?_
    exact hs
  · split
    · refine InOut.next ?_
      exact hs
    · extract_lets -underBinder -merge -useContext +onlyGivenNames x5
      extract_lets -underBinder -merge -useContext +onlyGivenNames x6
      refine pred_ite ?_ ?_
      · refine InOut.next ?_
        exact hs
      · extract_lets -underBinder -merge -useContext +onlyGivenNames x7
        have h7 : Keeps s₀ x7 := by
          unfold x7
          refine pred_foldl ?_ ?_
          · intro x8 h8 a8
            refine State.copyPiece_keeps _ ?_ _ _ _
            exact h8
          · exact hs
        extract_lets -underBinder -merge -useContext +onlyGivenNames x9
        extract_lets -underBinder -merge -useContext +onlyGivenNames x10
        have h10 : Keeps s₀ x10 := by
          unfold x10
          exact Keeps.upd h7
        refine InOut.next ?_
        refine State.showLeft_keeps _ ?_ _
        refine pred_ite ?_ ?_
        · refine State.setRegF_keeps _ ?_ _ _ _ _
          exact h10
        · exact h10

theorem execRowRetire_keeps {s₀ : State} (ch : Chan) (s : State) (hs : Keeps s₀ s) :
    InOut (Keeps s₀) (execRowRetire ch s) := by
  unfold execRowRetire
  extract_lets -underBinder -merge -useContext +onlyGivenNames x1
  split
  · refine InOut.next ?_
    exact hs
  · extract_lets -underBinder -merge -useContext +onlyGivenNames x5
    extract_lets -underBinder -merge -useContext +onlyGivenNames x6
    extract_lets -underBinder -merge -useContext +onlyGivenNames x7
    extract_lets -underBinder -merge -useContext +onlyGivenNames x8
    have h8 : Keeps s₀ x8 := by
      unfold x8
      refine State.setChan_keeps _ ?_ _ _
      exact hs
    extract_lets -underBinder -merge -useContext +onlyGivenNames x9
    refine pred_ite ?_ ?_
    · refine InOut.next ?_
      refine State.breachOpen_keeps _ ?_ _ _
      refine State.inc_keeps _ ?_ _ _
      exact h8
    · extract_lets -underBinder -merge -useContext +onlyGivenNames x10
      extract_lets -underBinder -merge -useContext +onlyGivenNames x11
      extract_lets -underBinder -merge -useContext +onlyGivenNames x12
      have h12 : Keeps s₀ x12 := by
        unfold x12
        refine State.setChan_keeps _ ?_ _ _
        exact h8
      extract_lets -underBinder -merge -useContext +onlyGivenNames x13
      have h13 : Keeps s₀ x13 := by
        unfold x13
        refine State.inc_keeps _ ?_ _ _
        refine State.setRegF_keeps _ ?_ _ _ _ _
        exact h12
      refine InOut.next ?_
      refine State.breachOpen_keeps _ ?_ _ _
      exact Keeps.upd h13

theorem execWrite_keeps {s₀ : State} (p : Port) (s : State) (hs : Keeps s₀ s) :
    InOut (Keeps s₀) (execWrite p s) := by
  unfold execWrite
  have h1 : InSome (Keeps s₀) (s.takeRx (↑p) 16) := by
    refine State.takeRx_keeps _ ?_ _ _
    exact hs
  generalize (s.takeRx (↑p) 16) = z1 at h1 ⊢
  split
  · refine InOut.next ?_
    exact hs
  · extract_lets -underBinder -merge -useContext +onlyGivenNames x5
    extract_lets -underBinder -merge -useContext +onlyGivenNames x6
    have h6 : In2 (Keeps s₀) x6 := by
      unfold x6
      refine State.e2eAccept_keeps _ ?_ _ _
      exact (h1 _ rfl)
    extract_lets -underBinder -merge -useContext +onlyGivenNames x7
    have h7 : Keeps s₀ x7 := by
      unfold x7
      exact h6.out
    refine pred_ite ?_ ?_
    · refine InOut.next ?_
      exact hs
    · refine pred_ite ?_ ?_
      · refine InOut.next ?_
        exact h7
      · refine pred_ite ?_ ?_
        · refine InOut.next ?_
          refine State.put_keeps _ ?_ _ _ _ _
          exact h7
        · refine InOut.next ?_
          refine State.refusePkt_keeps _ ?_ _ _ _ _
          exact h7

end Sys2Proof.Machine
end

