-- ==== Sys2Proof/Laws/KeepFaults.lean ====
section
/-! SUPPORT. What faults and recovery keep (`Keeps`), one lemma for each. -/

namespace Sys2Proof.Machine

open Sys2Proof

theorem State.actOn_keeps {s₀ : State} (s : State) (hs : Keeps s₀ s) (r : Breach) :
    Keeps s₀ (State.actOn s r) := by
  unfold State.actOn
  extract_lets -underBinder -merge -useContext +onlyGivenNames x1
  refine pred_ite ?_ ?_
  · split
    · extract_lets -underBinder -merge -useContext +onlyGivenNames x3
      have h3 : In1 (Keeps s₀) x3 := by
        unfold x3
        refine State.absorbPhase_keeps _ ?_ _ _ _
        refine State.setCtl_keeps _ ?_ _
        exact hs
      refine State.afterPhase_keeps _ ?_
      refine pred_ite ?_ ?_
      · refine State.phaseEnded_keeps _ ?_ _
        exact h3.out
      · exact h3.out
    · exact hs
  · refine pred_ite ?_ ?_
    · refine State.resendCmd_keeps _ ?_ _
      exact hs
    · refine pred_ite ?_ ?_
      · refine pred_ite ?_ ?_
        · exact hs
        · refine State.loseCore_keeps _ ?_ _
          exact hs
      · refine pred_ite ?_ ?_
        · refine State.taintNow_keeps _ ?_ _
          exact hs
        · exact hs

theorem State.rerun_keeps {s₀ : State} (s : State) (hs : Keeps s₀ s) (e : Sched) :
    Keeps s₀ (State.rerun s e) := by
  unfold State.rerun
  split
  · exact hs
  · refine pred_ite ?_ ?_
    · refine State.replayPhase_keeps _ ?_ _
      exact hs
    · extract_lets -underBinder -merge -useContext +onlyGivenNames x3
      have h3 : In1 (Keeps s₀) x3 := by
        unfold x3
        refine State.poisonedPhase_keeps _ ?_ _ _
        exact hs
      refine pred_ite ?_ ?_
      · refine State.phaseEnded_keeps _ ?_ _
        exact h3.out
      · exact h3.out

theorem State.setRestoreStat_keeps {s₀ : State} (s : State) (hs : Keeps s₀ s) (n : Nat) :
    Keeps s₀ (State.setRestoreStat s n) := by
  unfold State.setRestoreStat
  refine State.setReg_keeps _ ?_ _ _
  exact hs

theorem State.restoreDone_keeps {s₀ : State} (s : State) (hs : Keeps s₀ s) (c : Nat) :
    Keeps s₀ (State.restoreDone s c) := by
  unfold State.restoreDone
  extract_lets -underBinder -merge -useContext +onlyGivenNames x1
  have h1 : Keeps s₀ x1 := by
    unfold x1
    refine State.setCtl_keeps _ ?_ _
    exact hs
  extract_lets -underBinder -merge -useContext +onlyGivenNames x2
  have h2 : Keeps s₀ x2 := by
    unfold x2
    refine State.setRestoreStat_keeps _ ?_ _
    exact h1
  extract_lets -underBinder -merge -useContext +onlyGivenNames x3
  have h3 : Keeps s₀ x3 := by
    unfold x3
    refine pred_ite ?_ ?_
    · exact h2
    · refine State.closeWindow_keeps _ ?_ _ _
      exact h2
  exact Keeps.upd h3

theorem State.restoreStart_keeps {s₀ : State} (s : State) (hs : Keeps s₀ s) :
    Keeps s₀ (State.restoreStart s) := by
  unfold State.restoreStart
  refine pred_ite ?_ ?_
  · refine State.setRestoreStat_keeps _ ?_ _
    exact hs
  · extract_lets -underBinder -merge -useContext +onlyGivenNames x1
    extract_lets -underBinder -merge -useContext +onlyGivenNames x2
    have h2 : Keeps s₀ x2 := by
      unfold x2
      exact Keeps.upd hs
    extract_lets -underBinder -merge -useContext +onlyGivenNames x3
    have h3 : Keeps s₀ x3 := by
      unfold x3
      refine State.setRestoreStat_keeps _ ?_ _
      exact Keeps.upd h2
    extract_lets -underBinder -merge -useContext +onlyGivenNames x4
    have h4 : Keeps s₀ x4 := by
      unfold x4
      refine State.openWindow_keeps _ ?_ _ _ _
      exact h3
    refine pred_foldl ?_ ?_
    · intro x5 h5 a5
      split
      · refine State.sendRead_keeps _ ?_ _ _ _ _ _
        exact h5
      · exact h5
    · exact h4

theorem State.writeDump_keeps {s₀ : State} (s : State) (hs : Keeps s₀ s) : Keeps s₀ s.writeDump := by
  unfold State.writeDump
  extract_lets -underBinder -merge -useContext +onlyGivenNames b inDump m1 cells m2 poison key
  refine hs.trans ⟨rfl, rfl, fun i => ⟨{ i.canonical with mem := ?_ }, i.ring⟩, Otp.Grows.refl _,
    Nat.le_trans (Nat.le_add_right _ _) (Nat.le_add_right _ _)⟩
  unfold m2
  exact pred_foldl (P := fun m => Memory.wf m = true) (fun m hm e => SMap.wf_set hm _ _)
    (SMap.wf_filter i.canonical.mem _)

theorem execCoreFail_keeps {s₀ : State} (c : Core) (cause : CoreFailCause) (s : State) (hs : Keeps s₀ s) :
    InOut (Keeps s₀) (execCoreFail c cause s) := by
  unfold execCoreFail
  refine InOut.next ?_
  refine pred_ite ?_ ?_
  · refine State.coreFail_keeps _ ?_ _ _ _
    exact hs
  · exact hs

theorem execCoreWatchdog_keeps {s₀ : State} (c : Core) (s : State) (hs : Keeps s₀ s) :
    InOut (Keeps s₀) (execCoreWatchdog c s) := by
  unfold execCoreWatchdog
  refine InOut.next ?_
  refine pred_ite ?_ ?_
  · refine State.coreFail_keeps _ ?_ _ _ _
    exact hs
  · exact hs

theorem execDumpComplete_keeps {s₀ : State} (s : State) (hs : Keeps s₀ s) :
    InOut (Keeps s₀) (execDumpComplete s) := by
  unfold execDumpComplete
  refine InOut.next ?_
  refine pred_ite ?_ ?_
  · refine State.setMode_keeps _ ?_ _
    exact hs
  · exact hs

theorem execDumpWrite_keeps {s₀ : State} (s : State) (hs : Keeps s₀ s) :
    InOut (Keeps s₀) (execDumpWrite s) := by
  unfold execDumpWrite
  refine InOut.next ?_
  refine pred_ite ?_ ?_
  · refine State.writeDump_keeps _ ?_
    exact hs
  · exact hs

theorem execPolderLoss_keeps {s₀ : State} (why : PolderCause) (s : State) (hs : Keeps s₀ s) :
    InOut (Keeps s₀) (execPolderLoss why s) := by
  unfold execPolderLoss
  refine InOut.next ?_
  refine pred_ite ?_ ?_
  · refine State.polderLoss_keeps _ ?_ _ _ _ _
    exact hs
  · exact hs

theorem execQueuedBreach_keeps {s₀ : State} (s : State) (hs : Keeps s₀ s) :
    InOut (Keeps s₀) (execQueuedBreach s) := by
  unfold execQueuedBreach
  split
  · refine InOut.next ?_
    exact hs
  · refine pred_ite ?_ ?_
    · refine InOut.next ?_
      exact hs
    · extract_lets -underBinder -merge -useContext +onlyGivenNames x4
      have h4 : Keeps s₀ x4 := by
        unfold x4
        exact Keeps.upd hs
      refine InOut.next ?_
      refine State.actOn_keeps _ ?_ _
      refine State.setRegF_keeps _ ?_ _ _ _ _
      exact h4

theorem execReplayIssue_keeps {s₀ : State} (s : State) (hs : Keeps s₀ s) :
    InOut (Keeps s₀) (execReplayIssue s) := by
  unfold execReplayIssue
  split
  · refine InOut.next ?_
    exact Keeps.upd hs
  · refine pred_ite ?_ ?_
    · refine InOut.next ?_
      exact hs
    · extract_lets -underBinder -merge -useContext +onlyGivenNames x3
      extract_lets -underBinder -merge -useContext +onlyGivenNames x4
      extract_lets -underBinder -merge -useContext +onlyGivenNames x5
      have h5 : Keeps s₀ x5 := by
        unfold x5
        refine State.closeWindow_keeps _ ?_ _ _
        refine State.setCtl_keeps _ ?_ _
        exact hs
      refine pred_ite ?_ ?_
      · refine InOut.next ?_
        refine State.afterPhase_keeps _ ?_
        exact h5
      · extract_lets -underBinder -merge -useContext +onlyGivenNames x6
        have h6 : Keeps s₀ x6 := by
          unfold x6
          split
          · refine pred_ite ?_ ?_
            · refine State.breachOpen_keeps _ ?_ _ _
              exact h5
            · exact h5
          · exact h5
        refine InOut.next ?_
        refine State.afterPhase_keeps _ ?_
        refine State.rerun_keeps _ ?_ _
        exact h6

theorem execRestoreComplete_keeps {s₀ : State} (s : State) (hs : Keeps s₀ s) :
    InOut (Keeps s₀) (execRestoreComplete s) := by
  unfold execRestoreComplete
  split
  · refine pred_ite ?_ ?_
    · refine InOut.next ?_
      exact hs
    · extract_lets -underBinder -merge -useContext +onlyGivenNames x3
      have h3 : Keeps s₀ x3 := by
        unfold x3
        exact Keeps.upd hs
      extract_lets -underBinder -merge -useContext +onlyGivenNames x4
      refine pred_ite ?_ ?_
      · refine InOut.next ?_
        refine State.restoreDone_keeps _ ?_ _
        refine State.setReg_keeps _ ?_ _ _
        exact h3
      · refine pred_ite ?_ ?_
        · extract_lets -underBinder -merge -useContext +onlyGivenNames x5
          have h5 : Keeps s₀ x5 := by
            unfold x5
            refine State.updWrite_keeps _ ?_ _ _ _ _ _ _ _
            exact h3
          refine InOut.next ?_
          refine State.restoreDone_keeps _ ?_ _
          refine State.commitStep_keeps _ ?_ _
          exact h5
        · refine InOut.next ?_
          refine State.closeWindow_keeps _ ?_ _ _
          refine State.setRestoreStat_keeps _ ?_ _
          exact h3
  · refine InOut.next ?_
    exact hs

theorem execRestoreStart_keeps {s₀ : State} (s : State) (hs : Keeps s₀ s) :
    InOut (Keeps s₀) (execRestoreStart s) := by
  unfold execRestoreStart
  refine InOut.next ?_
  refine State.restoreStart_keeps _ ?_
  exact hs

end Sys2Proof.Machine
end

