-- ==== Sys2Proof/Laws/KeepLoader.lean ====
section
/-! SUPPORT. What the loader keeps (`Keeps`), one lemma for each. -/

namespace Sys2Proof.Machine

open Sys2Proof

theorem State.loadAllocs_keeps {s₀ : State} (r : Rd) (l : List Nat) (s : State) (hs : Keeps s₀ s) :
    InOk (Keeps s₀) (State.loadAllocs r l s) := by
  induction l generalizing s with
  | nil => exact InOk.ok hs
  | cons p l ih =>
    unfold State.loadAllocs
    split
    · exact InOk.error
    · exact pred_ite (ih _ (State.setAlloc_keeps _ hs _ _)) InOk.error

theorem State.loadDescs_keeps {s₀ : State} (r : Rd) (g : List ShardGroup) (h : Nat) (l : List Nat)
    (s : State) (hs : Keeps s₀ s) : InOk (Keeps s₀) (State.loadDescs r g h l s) := by
  induction l generalizing s h with
  | nil => exact InOk.ok hs
  | cons p l ih =>
    unfold State.loadDescs
    split
    · exact InOk.error
    · exact ih _ _ (State.setDesc_keeps _ hs _ _)

theorem State.checkImage_keeps {s₀ : State} (s : State) (hs : Keeps s₀ s) (a room : Nat) :
    InOk22 (Keeps s₀) (s.checkImage a room) := by
  unfold State.checkImage
  refine InOk22.bind fun l _ => ?_
  refine pred_ite (InOk22.bind fun _ h => by cases h) ?_
  refine InOk22.bind fun s1 h1 => ?_
  refine InOk22.bind fun s2 h2 => ?_
  refine InOk22.bind fun p _ => ?_
  exact InOk22.ok (State.loadDescs_keeps _ _ _ _ _ (State.loadAllocs_keeps _ _ _ hs _ h1) _ h2)

theorem State.drewRange_keeps {s₀ : State} (s : State) (hs : Keeps s₀ s) (a : Nat) (n : Nat) :
    Keeps s₀ (State.drewRange s a n) := by
  unfold State.drewRange
  refine pred_ite ?_ ?_
  · exact Keeps.draws hs _
  · exact hs

theorem State.zeroRange_keeps {s₀ : State} (s : State) (hs : Keeps s₀ s) (a : Nat) (n : Nat) :
    Keeps s₀ (State.zeroRange s a n) := by
  unfold State.zeroRange
  refine State.put_keeps _ ?_ _ _ _ _
  exact hs

theorem State.markSpares_keeps {s₀ : State} (s : State) (hs : Keeps s₀ s) (stages : List Stage) :
    Keeps s₀ (State.markSpares s stages) := by
  unfold State.markSpares
  refine pred_foldl ?_ ?_
  · intro x1 h1 a1
    refine pred_ite ?_ ?_
    · refine pred_foldl ?_ ?_
      · intro x2 h2 a2
        extract_lets -underBinder -merge -useContext +onlyGivenNames x3
        have h3 : Keeps s₀ x3 := by
          unfold x3
          refine State.setRegF_keeps _ ?_ _ _ _ _
          exact h2
        refine pred_ite ?_ ?_
        · exact h3
        · refine State.setPstate_keeps _ ?_ _ _
          exact h3
      · exact h1
    · exact h1
  · exact hs

theorem State.install_keeps {s₀ : State} (s : State) (hs : Keeps s₀ s) (p : Prog) (streams : List Nat) :
    Keeps s₀ (State.install s p streams) := by
  unfold State.install
  extract_lets -underBinder -merge -useContext +onlyGivenNames x1
  extract_lets -underBinder -merge -useContext +onlyGivenNames x2
  extract_lets -underBinder -merge -useContext +onlyGivenNames x3
  extract_lets -underBinder -merge -useContext +onlyGivenNames x4
  have h4 : Keeps s₀ x4 := by
    unfold x4
    refine State.readRange_keeps _ ?_ _ _
    refine State.drewRange_keeps _ ?_ _ _
    exact hs
  extract_lets -underBinder -merge -useContext +onlyGivenNames x5
  have h5 : Keeps s₀ x5 := by
    unfold x5
    refine pred_foldl ?_ ?_
    · intro x6 h6 a6
      refine State.put_keeps _ ?_ _ _ _ _
      exact h6
    · exact h4
  extract_lets -underBinder -merge -useContext +onlyGivenNames x7
  have h7 : Keeps s₀ x7 := by
    unfold x7
    refine pred_foldl ?_ ?_
    · intro x8 h8 a8
      split
      · refine pred_ite ?_ ?_
        · refine State.zeroRange_keeps _ ?_ _ _
          exact h8
        · exact h8
      · exact h8
    · exact h5
  extract_lets -underBinder -merge -useContext +onlyGivenNames x11
  have h11 : Keeps s₀ x11 := by
    unfold x11
    refine pred_foldl ?_ ?_
    · intro x12 h12 a12
      refine State.zeroRange_keeps _ ?_ _ _
      exact h12
    · exact h7
  extract_lets -underBinder -merge -useContext +onlyGivenNames x13
  extract_lets -underBinder -merge -useContext +onlyGivenNames x14
  extract_lets -underBinder -merge -useContext +onlyGivenNames x15 x16
  have h16 : Keeps s₀ x16 := by
    unfold x16
    exact Keeps.part h11 rfl rfl (fun i => ⟨{ i.canonical with engines := SMap.wf_nil _ }, i.ring⟩) rfl rfl
  extract_lets -underBinder -merge -useContext +onlyGivenNames x17
  have h17 : Keeps s₀ x17 := by
    unfold x17
    refine State.setReg_keeps _ ?_ _ _
    refine State.setWords_keeps _ ?_ _ _
    exact h16
  extract_lets -underBinder -merge -useContext +onlyGivenNames x18
  have h18 : Keeps s₀ x18 := by
    unfold x18
    refine pred_foldl ?_ ?_
    · intro x19 h19 a19
      refine State.setReg_keeps _ ?_ _ _
      exact h19
    · exact h17
  extract_lets -underBinder -merge -useContext +onlyGivenNames x20
  have h20 : Keeps s₀ x20 := by
    unfold x20
    refine State.markSpares_keeps _ ?_ _
    exact h18
  refine pred_foldl ?_ ?_
  · intro x21 h21 a21
    refine State.sendBind_keeps _ ?_ _
    exact h21
  · exact h20

theorem State.setLoadStat_keeps {s₀ : State} (s : State) (hs : Keeps s₀ s) (e : LoadErr) :
    Keeps s₀ (State.setLoadStat s e) := by
  unfold State.setLoadStat
  extract_lets -underBinder -merge -useContext +onlyGivenNames x1
  have h1 : Keeps s₀ x1 := by
    unfold x1
    refine State.setReg_keeps _ ?_ _ _
    exact hs
  refine State.setReg_keeps _ ?_ _ _
  exact h1

theorem State.loadAt_keeps {s₀ : State} (s : State) (hs : Keeps s₀ s) (a : Nat) (room : Nat) :
    In2 (Keeps s₀) (State.loadAt s a room) := by
  unfold State.loadAt
  have h1 : InOk22 (Keeps s₀) (s.checkImage a room) := by
    refine State.checkImage_keeps _ ?_ _ _
    exact hs
  generalize (s.checkImage a room) = z1 at h1 ⊢
  split
  · extract_lets -underBinder -merge -useContext +onlyGivenNames x3
    have h3 : Keeps s₀ x3 := by
      unfold x3
      refine State.setLoadStat_keeps _ ?_ _
      exact hs
    refine In2.mk ?_
    split
    · refine State.inc_keeps _ ?_ _ _
      refine State.setReg_keeps _ ?_ _ _
      exact h3
    · exact h3
  · refine In2.mk ?_
    refine State.setMode_keeps _ ?_ _
    refine State.setLoadStat_keeps _ ?_ _
    refine State.install_keeps _ ?_ _ _
    exact (h1 _ rfl)

end Sys2Proof.Machine
end

