-- ==== Sys2Proof/Laws/KeepHostLink.lean ====
section
/-! SUPPORT. What the host lanes keep (`Keeps`), one lemma for each. -/

namespace Sys2Proof.Machine

open Sys2Proof

theorem State.hostAccept_keeps {s₀ : State} (s : State) (hs : Keeps s₀ s) (qid : Nat) (e : BitVec 16 × HostCmd) :
    Keeps s₀ (State.hostAccept s qid e) := by
  unfold State.hostAccept
  extract_lets -underBinder -merge -useContext +onlyGivenNames x1
  extract_lets -underBinder -merge -useContext +onlyGivenNames x2
  extract_lets -underBinder -merge -useContext +onlyGivenNames x3
  extract_lets -underBinder -merge -useContext +onlyGivenNames x4
  have h4 : Keeps s₀ x4 := by
    unfold x4
    refine State.setHostQ_keeps _ ?_ _ _
    exact hs
  extract_lets -underBinder -merge -useContext +onlyGivenNames x5
  have h5 : Keeps s₀ x5 := by
    unfold x5
    refine pred_foldl ?_ ?_
    · intro x6 h6 a6
      refine State.count_keeps _ ?_ _ _ _ _
      exact h6
    · exact h4
  refine State.flushBad_keeps _ _ _ ?_
  exact h5

theorem State.hostDuplicate_keeps {s₀ : State} (s : State) (hs : Keeps s₀ s) (l : Nat) (qid : Nat) (cmd : Nat) (h : HostCmd) :
    Keeps s₀ (State.hostDuplicate s l qid cmd h) := by
  unfold State.hostDuplicate
  extract_lets -underBinder -merge -useContext +onlyGivenNames x1
  have h1 : Keeps s₀ x1 := by
    unfold x1
    refine State.inc_keeps _ ?_ _ _
    exact hs
  extract_lets -underBinder -merge -useContext +onlyGivenNames x2
  refine pred_ite ?_ ?_
  · refine State.setHostQ_keeps _ ?_ _ _
    exact h1
  · split
    · refine State.hostSend_keeps _ ?_ _ _
      exact h1
    · exact h1

theorem State.hostViolate_keeps {s₀ : State} (s : State) (hs : Keeps s₀ s) (l : Nat) (code : Nat) (q : Pkt) (expected : Nat) :
    Keeps s₀ (State.hostViolate s l code q expected) := by
  unfold State.hostViolate
  extract_lets -underBinder -merge -useContext +onlyGivenNames x1
  extract_lets -underBinder -merge -useContext +onlyGivenNames x2
  extract_lets -underBinder -merge -useContext +onlyGivenNames x3
  extract_lets -underBinder -merge -useContext +onlyGivenNames x4
  have h4 : Keeps s₀ x4 := by
    unfold x4
    refine State.inc_keeps _ ?_ _ _
    exact hs
  extract_lets -underBinder -merge -useContext +onlyGivenNames x5
  have h5 : Keeps s₀ x5 := by
    unfold x5
    refine State.setReg_keeps _ ?_ _ _
    exact h4
  extract_lets -underBinder -merge -useContext +onlyGivenNames x6
  have h6 : Keeps s₀ x6 := by
    unfold x6
    refine State.addLog_keeps _ ?_ _ _ _
    exact h5
  refine pred_ite ?_ ?_
  · exact h6
  · refine State.hostSend_keeps _ ?_ _ _
    refine State.noteNak_keeps _ ?_ _ _
    exact h6

theorem State.hostCmd_keeps {s₀ : State} (s : State) (hs : Keeps s₀ s) (lane : Lane) (q : Pkt) :
    Keeps s₀ (State.hostCmd s lane q) := by
  unfold State.hostCmd
  extract_lets -underBinder -merge -useContext +onlyGivenNames x1
  extract_lets -underBinder -merge -useContext +onlyGivenNames x2
  extract_lets -underBinder -merge -useContext +onlyGivenNames x3
  extract_lets -underBinder -merge -useContext +onlyGivenNames x4
  extract_lets -underBinder -merge -useContext +onlyGivenNames x5
  extract_lets -underBinder -merge -useContext +onlyGivenNames x6
  refine pred_ite ?_ ?_
  · refine State.hostDuplicate_keeps _ ?_ _ _ _ _
    exact hs
  · refine pred_ite ?_ ?_
    · refine State.hostViolate_keeps _ ?_ _ _ _ _
      exact hs
    · refine pred_ite ?_ ?_
      · refine State.setHostQ_keeps _ ?_ _ _
        exact hs
      · refine pred_ite ?_ ?_
        · refine State.hostViolate_keeps _ ?_ _ _ _ _
          exact hs
        · refine pred_ite ?_ ?_
          · refine State.hostAccept_keeps _ ?_ _ _
            exact hs
          · refine State.setHostQ_keeps _ ?_ _ _
            exact hs

theorem State.hostPkt_keeps {s₀ : State} (s : State) (hs : Keeps s₀ s) (lane : Lane) (q : Pkt) (lenOk : Bool) :
    Keeps s₀ (State.hostPkt s lane q lenOk) := by
  unfold State.hostPkt
  extract_lets -underBinder -merge -useContext +onlyGivenNames x1
  extract_lets -underBinder -merge -useContext +onlyGivenNames x2
  extract_lets -underBinder -merge -useContext +onlyGivenNames x3
  refine pred_ite ?_ ?_
  · refine State.hostViolate_keeps _ ?_ _ _ _ _
    refine pred_ite ?_ ?_
    · refine State.dropRx_keeps _ ?_ _ _
      exact hs
    · exact hs
  · refine pred_ite ?_ ?_
    · refine State.hostViolate_keeps _ ?_ _ _ _ _
      exact hs
    · refine pred_ite ?_ ?_
      · extract_lets -underBinder -merge -useContext +onlyGivenNames x4
        have h4 : Keeps s₀ x4 := by
          unfold x4
          refine State.freeRx_keeps _ ?_ _ _
          refine State.setLink_keeps _ ?_ _ _
          exact hs
        refine State.hostCmd_keeps _ ?_ _ _
        exact h4
      · refine pred_ite ?_ ?_
        · exact hs
        · refine State.setLink_keeps _ ?_ _ _
          exact hs

theorem State.laneAttempt_keeps {s₀ : State} (s : State) (hs : Keeps s₀ s) (l : Nat) :
    Keeps s₀ (State.laneAttempt s l) := by
  unfold State.laneAttempt
  refine State.incF_keeps _ ?_ _ _ _
  refine State.setLinkState_keeps _ ?_ _ _
  exact hs

theorem State.laneLost_keeps {s₀ : State} (s : State) (hs : Keeps s₀ s) (l : Nat) :
    Keeps s₀ (State.laneLost s l) := by
  unfold State.laneLost
  extract_lets -underBinder -merge -useContext +onlyGivenNames x1
  have h1 : Keeps s₀ x1 := by
    unfold x1
    refine State.breachOpen_keeps _ ?_ _ _
    refine State.linkDown_keeps _ ?_ _
    exact hs
  refine State.laneAttempt_keeps _ ?_ _
  exact h1

theorem execEventDrop_keeps {s₀ : State} (s : State) (hs : Keeps s₀ s) :
    InOut (Keeps s₀) (execEventDrop s) := by
  unfold execEventDrop
  extract_lets -underBinder -merge -useContext +onlyGivenNames x1
  extract_lets -underBinder -merge -useContext +onlyGivenNames x2
  split
  · refine InOut.next ?_
    exact hs
  · refine InOut.next ?_
    refine State.inc_keeps _ ?_ _ _
    refine State.setLink_keeps _ ?_ _ _
    exact hs

theorem execGapTimeout_keeps {s₀ : State} (q : Fin 16) (s : State) (hs : Keeps s₀ s) :
    InOut (Keeps s₀) (execGapTimeout q s) := by
  unfold execGapTimeout
  extract_lets -underBinder -merge -useContext +onlyGivenNames x1
  refine pred_ite ?_ ?_
  · refine InOut.next ?_
    exact hs
  · refine InOut.next ?_
    refine pred_foldl ?_ ?_
    · intro x2 h2 a2
      refine State.hostViolate_keeps _ ?_ _ _ _ _
      exact h2
    · refine State.setHostQ_keeps _ ?_ _ _
      exact hs

theorem execHostFlitReceive_keeps {s₀ : State} (l : Lane) (bytes : List Byte) (fec : FecResult) (s : State) (hs : Keeps s₀ s) :
    InOut (Keeps s₀) (execHostFlitReceive l bytes fec s) := by
  unfold execHostFlitReceive
  refine pred_ite ?_ ?_
  · refine InOut.next ?_
    exact hs
  · extract_lets -underBinder -merge -useContext +onlyGivenNames x1
    have h1 : In22 (Keeps s₀) x1 := by
      unfold x1
      refine State.rxFlit_keeps _ ?_ _ _ _
      exact hs
    extract_lets -underBinder -merge -useContext +onlyGivenNames x2
    have h2 : Keeps s₀ x2 := by
      unfold x2
      exact h1.out
    extract_lets -underBinder -merge -useContext +onlyGivenNames x3
    have h3 : Keeps s₀ x3 := by
      unfold x3
      refine pred_ite ?_ ?_
      · exact h2
      · refine State.hostViolate_keeps _ ?_ _ _ _ _
        exact h2
    refine InOut.next ?_
    refine State.pump_keeps _ ?_ _
    refine pred_foldl ?_ ?_
    · intro x4 h4 a4
      refine State.hostPkt_keeps _ ?_ _ _ _
      exact h4
    · exact h3

theorem execHostLaneFail_keeps {s₀ : State} (l : Lane) (s : State) (hs : Keeps s₀ s) :
    InOut (Keeps s₀) (execHostLaneFail l s) := by
  unfold execHostLaneFail
  refine InOut.next ?_
  refine pred_ite ?_ ?_
  · refine State.laneLost_keeps _ ?_ _
    exact hs
  · exact hs

theorem execHostLaneSilence_keeps {s₀ : State} (l : Lane) (s : State) (hs : Keeps s₀ s) :
    InOut (Keeps s₀) (execHostLaneSilence l s) := by
  unfold execHostLaneSilence
  refine InOut.next ?_
  refine pred_ite ?_ ?_
  · refine State.laneLost_keeps _ ?_ _
    exact hs
  · exact hs

theorem execHostLaneTrain_keeps {s₀ : State} (l : Lane) (peer : LaneHello) (s : State) (hs : Keeps s₀ s) :
    InOut (Keeps s₀) (execHostLaneTrain l peer s) := by
  unfold execHostLaneTrain
  refine pred_ite ?_ ?_
  · refine InOut.next ?_
    exact hs
  · extract_lets -underBinder -merge -useContext +onlyGivenNames x1
    have h1 : Keeps s₀ x1 := by
      unfold x1
      refine pred_ite ?_ ?_
      · refine State.laneAttempt_keeps _ ?_ _
        exact hs
      · exact hs
    extract_lets -underBinder -merge -useContext +onlyGivenNames x2
    have h2 : Keeps s₀ x2 := by
      unfold x2
      refine State.clockIn_keeps _ ?_ _
      exact h1
    refine pred_ite ?_ ?_
    · refine InOut.next ?_
      exact h2
    · extract_lets -underBinder -merge -useContext +onlyGivenNames x3 x4
      have h4 : Keeps s₀ x4 := by
        unfold x4
        refine State.setLink_keeps _ ?_ _ _
        exact h2
      extract_lets -underBinder -merge -useContext +onlyGivenNames x5
      extract_lets -underBinder -merge -useContext +onlyGivenNames x6
      have h6 : Keeps s₀ x6 := by
        unfold x6
        refine State.linkSend_keeps _ ?_ _ _
        exact h4
      refine InOut.next ?_
      refine State.linkUp_keeps _ ?_ _ _
      exact h6

theorem execHostLaneTrainTimeout_keeps {s₀ : State} (l : Lane) (s : State) (hs : Keeps s₀ s) :
    InOut (Keeps s₀) (execHostLaneTrainTimeout l s) := by
  unfold execHostLaneTrainTimeout
  refine InOut.next ?_
  refine pred_ite ?_ ?_
  · refine State.laneAttempt_keeps _ ?_ _
    exact hs
  · exact hs

theorem execNhlCredit_keeps {s₀ : State} (l : Lane) (s : State) (hs : Keeps s₀ s) :
    InOut (Keeps s₀) (execNhlCredit l s) := by
  unfold execNhlCredit
  have h1 : InSome (Keeps s₀) (s.takeRx (16 + ↑l) 1) := by
    refine State.takeRx_keeps _ ?_ _ _
    exact hs
  generalize (s.takeRx (16 + ↑l) 1) = z1 at h1 ⊢
  split
  · refine InOut.next ?_
    exact hs
  · extract_lets -underBinder -merge -useContext +onlyGivenNames x5
    have h5 : In2 (Keeps s₀) x5 := by
      unfold x5
      refine State.takeCredits_keeps _ ?_ _ _
      exact (h1 _ rfl)
    refine InOut.next ?_
    refine pred_ite ?_ ?_
    · exact h5.out
    · refine State.hostViolate_keeps _ ?_ _ _ _ _
      exact h5.out

theorem execNhlNak_keeps {s₀ : State} (l : Lane) (s : State) (hs : Keeps s₀ s) :
    InOut (Keeps s₀) (execNhlNak l s) := by
  unfold execNhlNak
  have h1 : InSome (Keeps s₀) (s.takeRx (16 + ↑l) 2) := by
    refine State.takeRx_keeps _ ?_ _ _
    exact hs
  generalize (s.takeRx (16 + ↑l) 2) = z1 at h1 ⊢
  split
  · refine InOut.next ?_
    exact hs
  · refine InOut.next ?_
    exact (h1 _ rfl)

end Sys2Proof.Machine
end

