-- ==== Sys2Proof/Laws/KeepHost.lean ====
section
/-! SUPPORT. What the host commands keep (`Keeps`), one lemma for each. -/

namespace Sys2Proof.Machine

open Sys2Proof

theorem State.answerResult_keeps {s₀ : State} (s : State) (hs : Keeps s₀ s) (h : HostCmd) (st : Nat) (size : Nat) (r : List Byte × State) (hr :  In2 (Keeps s₀) (r)) :
    Keeps s₀ (State.answerResult s h st size r) := by
  unfold State.answerResult
  refine pred_ite ?_ ?_
  · refine State.respond_keeps _ ?_ _ _ _ _ _
    exact hs
  · refine pred_ite ?_ ?_
    · refine State.respond_keeps _ ?_ _ _ _ _ _
      exact hs
    · refine State.respond_keeps _ ?_ _ _ _ _ _
      exact hr.out

theorem State.feedCheck_keeps {s₀ : State} (s : State) (hs : Keeps s₀ s) (h : HostCmd) (cmd : Nat) (go : Feed → State) (hgo : ∀ z1 : Feed, Keeps s₀ (go z1)) :
    Keeps s₀ (State.feedCheck s h cmd go) := by
  unfold State.feedCheck
  extract_lets -underBinder -merge -useContext +onlyGivenNames x1
  split
  · refine State.respond_keeps _ ?_ _ _ _ _ _
    exact hs
  · refine pred_ite ?_ ?_
    · refine State.respond_keeps _ ?_ _ _ _ _ _
      exact hs
    · split
      · refine State.respond_keeps _ ?_ _ _ _ _ _
        exact hs
      · refine hgo _

theorem State.runCmd_keeps {s₀ : State} (s : State) (hs : Keeps s₀ s) (h : HostCmd) (cmd : Nat) (bad : Option (Option Nat)) (ok : Bool) (act : State → State) (hact : ∀ z1 : State, Keeps s₀ z1 → Keeps s₀ (act z1)) :
    InOut (Keeps s₀) (State.runCmd s h cmd bad ok act) := by
  unfold State.runCmd
  refine pred_ite ?_ ?_
  · refine InOut.next ?_
    exact hs
  · split
    · refine InOut.next ?_
      refine State.badCommand_keeps _ ?_ _ _ _
      exact hs
    · refine InOut.next ?_
      refine State.badLen_keeps _ ?_ _ _
      exact hs
    · refine InOut.next ?_
      refine pred_ite ?_ ?_
      · refine hact _ ?_
        exact hs
      · refine State.conflict_keeps _ ?_ _ _
        exact hs

theorem State.flashRun_keeps {s₀ : State} (s : State) (hs : Keeps s₀ s) (h : HostCmd) (mine : Nat → Bool) :
    InOut (Keeps s₀) (State.flashRun s h mine) := by
  unfold State.flashRun
  refine pred_ite ?_ ?_
  · refine InOut.next ?_
    exact hs
  · refine State.runCmd_keeps _ ?_ _ _ _ _ _ ?_
    · exact hs
    · intro x1 h1
      try beta_reduce
      extract_lets -underBinder -merge -useContext +onlyGivenNames x2
      have h2 : In2 (Keeps s₀) x2 := by
        unfold x2
        refine State.flashOp_keeps _ ?_ _ _
        exact h1
      refine State.respond_keeps _ ?_ _ _ _ _ _
      exact h2.out

theorem State.hostRun_keeps {s₀ : State} (s : State) (hs : Keeps s₀ s) (h : HostCmd) (cmd : Nat) (act : State → State) (hact : ∀ z1 : State, Keeps s₀ z1 → Keeps s₀ (act z1)) :
    InOut (Keeps s₀) (State.hostRun s h cmd act) := by
  unfold State.hostRun
  refine State.runCmd_keeps _ ?_ _ _ _ _ _ ?_
  · exact hs
  · exact hact

theorem State.heldRun_keeps {s₀ : State} (s : State) (hs : Keeps s₀ s) (h : HostCmd) (cmd : Nat) (reach : Bool) (act : State → State) (hact : ∀ z1 : State, Keeps s₀ z1 → Keeps s₀ (act z1)) :
    InOut (Keeps s₀) (State.heldRun s h cmd reach act) := by
  unfold State.heldRun
  refine pred_ite ?_ ?_
  · refine InOut.next ?_
    exact hs
  · refine State.hostRun_keeps _ ?_ _ _ _ ?_
    · exact hs
    · exact hact

theorem State.hostBytes_keeps {s₀ : State} (s : State) (hs : Keeps s₀ s) (a : Nat) (n : Nat) :
    In2 (Keeps s₀) (State.hostBytes s a n) := by
  unfold State.hostBytes
  refine In2.mk ?_
  refine State.readRange_keeps _ ?_ _ _
  refine State.drewRange_keeps _ ?_ _ _
  exact hs

theorem State.keepWire_keeps {s₀ : State} (t : State) (ht : Keeps s₀ t) (s : State) (_hs : Keeps s₀ s) :
    Keeps s₀ (State.keepWire t s) := by
  unfold State.keepWire
  refine pred_foldl ?_ ?_
  · intro x1 h1 a1
    refine State.setLink_keeps _ ?_ _ _
    exact h1
  · exact ht

theorem State.ok_keeps {s₀ : State} (s : State) (hs : Keeps s₀ s) (h : HostCmd) (cmd : Nat) :
    Keeps s₀ (State.ok s h cmd) := by
  unfold State.ok
  refine State.respond_keeps _ ?_ _ _ _ _ _
  exact hs

theorem State.pairCheck_keeps {s₀ : State} (s : State) (hs : Keeps s₀ s) :
    Keeps s₀ (State.pairCheck s) := by
  unfold State.pairCheck
  split
  · exact hs
  · refine pred_ite ?_ ?_
    · exact hs
    · split
      · refine State.sendRead_keeps _ ?_ _ _ _ _ _
        exact hs
      · exact hs

theorem State.readRegs_keeps {s₀ : State} (s : State) (hs : Keeps s₀ s) (acc a n : Nat) :
    In2 (Keeps s₀) (s.readRegs acc a n) := by
  induction n generalizing s a with
  | zero => exact hs
  | succ n ih =>
    unfold State.readRegs
    exact ih _ (State.readReg_keeps _ hs _ _) _

theorem State.refuseRange_keeps {s₀ : State} (s : State) (hs : Keeps s₀ s) (h : HostCmd) (cmd : Nat) :
    Keeps s₀ (State.refuseRange s h cmd) := by
  unfold State.refuseRange
  refine State.respond_keeps _ ?_ _ _ _ _ _
  refine In2.out ?_
  refine State.draw_keeps _ ?_
  exact hs

theorem State.regather_keeps {s₀ : State} (s : State) (hs : Keeps s₀ s) :
    Keeps s₀ (State.regather s) := by
  unfold State.regather
  split
  · exact hs
  · refine pred_foldl ?_ ?_
    · intro x3 h3 a3
      split
      · refine pred_ite ?_ ?_
        · refine State.startGather_keeps _ ?_ _ _
          exact h3
        · exact h3
      · exact h3
    · exact hs

theorem State.resultBytes_keeps {s₀ : State} (s : State) (hs : Keeps s₀ s) (x : Window) (k : Nat) (off : Nat) (n : Nat) :
    In2 (Keeps s₀) (State.resultBytes s x k off n) := by
  unfold State.resultBytes
  extract_lets -underBinder -merge -useContext +onlyGivenNames x1
  refine In2.mk ?_
  refine State.readRange_keeps _ ?_ _ _
  exact hs

theorem State.resultRead_keeps {s₀ : State} (s : State) (hs : Keeps s₀ s) (h : HostCmd) :
    Keeps s₀ (State.resultRead s h) := by
  unfold State.resultRead
  extract_lets -underBinder -merge -useContext +onlyGivenNames x1
  extract_lets -underBinder -merge -useContext +onlyGivenNames x2
  refine pred_ite ?_ ?_
  · refine State.answerResult_keeps _ ?_ _ _ _ _ ?_
    · exact hs
    · refine In2.mk ?_
      refine State.readRange_keeps _ ?_ _ _
      exact hs
  · split
    · refine State.respond_keeps _ ?_ _ _ _ _ _
      exact hs
    · refine State.answerResult_keeps _ ?_ _ _ _ _ ?_
      · exact hs
      · refine State.resultBytes_keeps _ ?_ _ _ _ _
        exact hs

theorem State.unbind_keeps {s₀ : State} (s : State) (hs : Keeps s₀ s) (stages : List Stage) :
    Keeps s₀ (State.unbind s stages) := by
  unfold State.unbind
  extract_lets -underBinder -merge -useContext +onlyGivenNames x1
  have h1 : Keeps s₀ x1 := by
    unfold x1
    refine pred_foldl ?_ ?_
    · intro x2 h2 a2
      refine State.sendCmd_keeps _ ?_ _ _
      exact h2
    · exact hs
  refine pred_foldl ?_ ?_
  · intro x3 h3 a3
    refine pred_ite ?_ ?_
    · extract_lets -underBinder -merge -useContext +onlyGivenNames x4
      have h4 : Keeps s₀ x4 := by
        unfold x4
        refine State.setRegF_keeps _ ?_ _ _ _ _
        exact h3
      refine pred_ite ?_ ?_
      · refine State.ungate_keeps _ ?_ _
        exact h4
      · exact h4
    · exact h3
  · exact h1

theorem State.unload_keeps {s₀ : State} (s : State) (hs : Keeps s₀ s) :
    Keeps s₀ (State.unload s) := by
  unfold State.unload
  extract_lets -underBinder -merge -useContext +onlyGivenNames x1
  extract_lets -underBinder -merge -useContext +onlyGivenNames x2
  extract_lets -underBinder -merge -useContext +onlyGivenNames x3
  extract_lets -underBinder -merge -useContext +onlyGivenNames x4
  extract_lets -underBinder -merge -useContext +onlyGivenNames x5
  have h5 : Keeps s₀ x5 := by
    unfold x5
    exact Keeps.part hs rfl rfl (fun i => ⟨{ i.canonical with descs := SMap.wf_filter i.canonical.descs _, feeds := SMap.wf_nil _, windows := SMap.wf_nil _ }, i.ring⟩) rfl rfl
  extract_lets -underBinder -merge -useContext +onlyGivenNames x6
  have h6 : Keeps s₀ x6 := by
    unfold x6
    refine State.unbind_keeps _ ?_ _
    refine pred_foldl ?_ ?_
    · intro x7 h7 a7
      refine State.freeAlloc_keeps _ ?_ _
      exact h7
    · exact h5
  extract_lets -underBinder -merge -useContext +onlyGivenNames x8
  have h8 : Keeps s₀ x8 := by
    unfold x8
    exact Keeps.part h6 rfl rfl (fun i => ⟨{ i.canonical with engines := SMap.wf_nil _ }, i.ring⟩) rfl rfl
  extract_lets -underBinder -merge -useContext +onlyGivenNames x9
  have h9 : Keeps s₀ x9 := by
    unfold x9
    refine pred_foldl ?_ ?_
    · intro x10 h10 a10
      refine State.setReg_keeps _ ?_ _ _
      exact h10
    · exact h8
  refine State.setMode_keeps _ ?_ _
  refine State.setWords_keeps _ ?_ _ _
  exact h9

theorem State.writeRegs_keeps {s₀ : State} (s : State) (hs : Keeps s₀ s) (a : Nat) (l : List Word) :
    Keeps s₀ (s.writeRegs a l) := by
  induction l generalizing s a with
  | nil => exact hs
  | cons v l ih =>
    unfold State.writeRegs
    exact ih _ (State.writeReg_keeps _ hs _ _) _

theorem execActivate_keeps {s₀ : State} (h : HostCmd) (s : State) (hs : Keeps s₀ s) :
    InOut (Keeps s₀) (execActivate h s) := by
  unfold execActivate
  refine State.flashRun_keeps _ ?_ _ _
  exact hs

theorem execAdvanceSvn_keeps {s₀ : State} (h : HostCmd) (s : State) (hs : Keeps s₀ s) :
    InOut (Keeps s₀) (execAdvanceSvn h s) := by
  unfold execAdvanceSvn
  refine State.flashRun_keeps _ ?_ _ _
  exact hs

theorem execAllocCreate_keeps {s₀ : State} (h : HostCmd) (s : State) (hs : Keeps s₀ s) :
    InOut (Keeps s₀) (execAllocCreate h s) := by
  unfold execAllocCreate
  refine State.hostRun_keeps _ ?_ _ _ _ ?_
  · exact hs
  · intro x1 h1
    try beta_reduce
    split
    · refine pred_ite ?_ ?_
      · refine State.ok_keeps _ ?_ _ _
        refine State.setAlloc_keeps _ ?_ _ _
        exact h1
      · refine State.refuseRange_keeps _ ?_ _ _
        exact h1
    · refine State.refuseRange_keeps _ ?_ _ _
      exact h1

theorem execAllocFree_keeps {s₀ : State} (h : HostCmd) (s : State) (hs : Keeps s₀ s) :
    InOut (Keeps s₀) (execAllocFree h s) := by
  unfold execAllocFree
  refine State.hostRun_keeps _ ?_ _ _ _ ?_
  · exact hs
  · intro x1 h1
    try beta_reduce
    extract_lets -underBinder -merge -useContext +onlyGivenNames x2
    refine pred_ite ?_ ?_
    · refine State.respond_keeps _ ?_ _ _ _ _ _
      exact h1
    · refine pred_ite ?_ ?_
      · refine State.refuseRange_keeps _ ?_ _ _
        exact h1
      · refine State.ok_keeps _ ?_ _ _
        refine State.freeAlloc_keeps _ ?_ _
        exact h1

theorem execAttest_keeps {s₀ : State} (h : HostCmd) (s : State) (hs : Keeps s₀ s) :
    InOut (Keeps s₀) (execAttest h s) := by
  unfold execAttest
  refine State.hostRun_keeps _ ?_ _ _ _ ?_
  · exact hs
  · intro x1 h1
    try beta_reduce
    refine State.respond_keeps _ ?_ _ _ _ _ _
    refine In2.out ?_
    refine State.report_keeps _ ?_ _
    exact h1

theorem execDescCreate_keeps {s₀ : State} (h : HostCmd) (s : State) (hs : Keeps s₀ s) :
    InOut (Keeps s₀) (execDescCreate h s) := by
  unfold execDescCreate
  refine State.hostRun_keeps _ ?_ _ _ _ ?_
  · exact hs
  · intro x1 h1
    try beta_reduce
    extract_lets -underBinder -merge -useContext +onlyGivenNames x2
    have h2 : In1 (Keeps s₀) x2 := by
      unfold x2
      refine State.createDesc_keeps _ ?_ _ _ _ _
      exact h1
    split
    · refine State.respond_keeps _ ?_ _ _ _ _ _
      exact h2.out
    · refine State.respond_keeps _ ?_ _ _ _ _ _
      exact h2.out

theorem execDescDestroy_keeps {s₀ : State} (h : HostCmd) (s : State) (hs : Keeps s₀ s) :
    InOut (Keeps s₀) (execDescDestroy h s) := by
  unfold execDescDestroy
  refine State.hostRun_keeps _ ?_ _ _ _ ?_
  · exact hs
  · intro x1 h1
    try beta_reduce
    refine pred_ite ?_ ?_
    · refine State.respond_keeps _ ?_ _ _ _ _ _
      exact h1
    · refine State.ok_keeps _ ?_ _ _
      refine State.setDesc_keeps _ ?_ _ _
      exact h1

theorem execFeedClose_keeps {s₀ : State} (h : HostCmd) (s : State) (hs : Keeps s₀ s) :
    InOut (Keeps s₀) (execFeedClose h s) := by
  unfold execFeedClose
  refine State.hostRun_keeps _ ?_ _ _ _ ?_
  · exact hs
  · intro x1 h1
    try beta_reduce
    refine pred_ite ?_ ?_
    · refine State.respond_keeps _ ?_ _ _ _ _ _
      exact h1
    · refine State.ok_keeps _ ?_ _ _
      refine State.setFeed_keeps _ ?_ _ _
      exact h1

theorem execFeedCommit_keeps {s₀ : State} (h : HostCmd) (s : State) (hs : Keeps s₀ s) :
    InOut (Keeps s₀) (execFeedCommit h s) := by
  unfold execFeedCommit
  refine State.hostRun_keeps _ ?_ _ _ _ ?_
  · exact hs
  · intro x1 h1
    try beta_reduce
    refine State.feedCheck_keeps _ ?_ _ _ _ ?_
    · exact h1
    · intro x2
      try beta_reduce
      refine State.ok_keeps _ ?_ _ _
      refine State.setFeed_keeps _ ?_ _ _
      exact h1

theorem execFeedOpen_keeps {s₀ : State} (h : HostCmd) (s : State) (hs : Keeps s₀ s) :
    InOut (Keeps s₀) (execFeedOpen h s) := by
  unfold execFeedOpen
  refine State.hostRun_keeps _ ?_ _ _ _ ?_
  · exact hs
  · intro x1 h1
    try beta_reduce
    extract_lets -underBinder -merge -useContext +onlyGivenNames x2
    extract_lets -underBinder -merge -useContext +onlyGivenNames x3
    extract_lets -underBinder -merge -useContext +onlyGivenNames x4
    extract_lets -underBinder -merge -useContext +onlyGivenNames x5
    split
    · refine pred_ite ?_ ?_
      · refine State.refuseRange_keeps _ ?_ _ _
        exact h1
      · refine State.ok_keeps _ ?_ _ _
        refine State.setFeed_keeps _ ?_ _ _
        exact h1
    · refine State.respond_keeps _ ?_ _ _ _ _ _
      exact h1

theorem execFeedWrite_keeps {s₀ : State} (h : HostCmd) (s : State) (hs : Keeps s₀ s) :
    InOut (Keeps s₀) (execFeedWrite h s) := by
  unfold execFeedWrite
  extract_lets -underBinder -merge -useContext +onlyGivenNames x1
  refine State.heldRun_keeps _ ?_ _ _ _ _ ?_
  · exact hs
  · intro x2 h2
    try beta_reduce
    refine State.feedCheck_keeps _ ?_ _ _ _ ?_
    · exact h2
    · intro x3
      try beta_reduce
      extract_lets -underBinder -merge -useContext +onlyGivenNames x4
      refine pred_ite ?_ ?_
      · refine State.respond_keeps _ ?_ _ _ _ _ _
        exact h2
      · extract_lets -underBinder -merge -useContext +onlyGivenNames x5
        have h5 : Keeps s₀ x5 := by
          unfold x5
          refine State.put_keeps _ ?_ _ _ _ _
          exact h2
        refine State.ok_keeps _ ?_ _ _
        refine State.setFeed_keeps _ ?_ _ _
        exact h5

theorem execFlashErase_keeps {s₀ : State} (h : HostCmd) (s : State) (hs : Keeps s₀ s) :
    InOut (Keeps s₀) (execFlashErase h s) := by
  unfold execFlashErase
  refine State.flashRun_keeps _ ?_ _ _
  exact hs

theorem execFlashRead_keeps {s₀ : State} (h : HostCmd) (s : State) (hs : Keeps s₀ s) :
    InOut (Keeps s₀) (execFlashRead h s) := by
  unfold execFlashRead
  refine State.flashRun_keeps _ ?_ _ _
  exact hs

theorem execFlashWrite_keeps {s₀ : State} (h : HostCmd) (s : State) (hs : Keeps s₀ s) :
    InOut (Keeps s₀) (execFlashWrite h s) := by
  unfold execFlashWrite
  refine State.flashRun_keeps _ ?_ _ _
  exact hs

theorem execHold_keeps {s₀ : State} (h : HostCmd) (s : State) (hs : Keeps s₀ s) :
    InOut (Keeps s₀) (execHold h s) := by
  unfold execHold
  refine pred_ite ?_ ?_
  · refine InOut.next ?_
    exact hs
  · refine State.hostRun_keeps _ ?_ _ _ _ ?_
    · exact hs
    · intro x1 h1
      try beta_reduce
      extract_lets -underBinder -merge -useContext +onlyGivenNames x2 x3
      have h3 : Keeps s₀ x3 := by
        unfold x3
        refine State.setRegF_keeps _ ?_ _ _ _ _
        exact Keeps.upd h1
      refine pred_ite ?_ ?_
      · refine State.enterHolding_keeps _ ?_ _
        exact h3
      · exact h3

theorem execKeyProgram_keeps {s₀ : State} (h : HostCmd) (s : State) (hs : Keeps s₀ s) :
    InOut (Keeps s₀) (execKeyProgram h s) := by
  unfold execKeyProgram
  refine State.flashRun_keeps _ ?_ _ _
  exact hs

theorem execLoad_keeps {s₀ : State} (h : HostCmd) (s : State) (hs : Keeps s₀ s) :
    InOut (Keeps s₀) (execLoad h s) := by
  unfold execLoad
  extract_lets -underBinder -merge -useContext +onlyGivenNames x1
  refine State.heldRun_keeps _ ?_ _ _ _ _ ?_
  · exact hs
  · intro x2 h2
    try beta_reduce
    split
    · refine State.respond_keeps _ ?_ _ _ _ _ _
      exact h2
    · extract_lets -underBinder -merge -useContext +onlyGivenNames x5
      have h5 : In2 (Keeps s₀) x5 := by
        unfold x5
        refine State.loadAt_keeps _ ?_ _ _
        exact h2
      refine State.respond_keeps _ ?_ _ _ _ _ _
      exact h5.out

theorem execMemRead_keeps {s₀ : State} (h : HostCmd) (s : State) (hs : Keeps s₀ s) :
    InOut (Keeps s₀) (execMemRead h s) := by
  unfold execMemRead
  refine State.heldRun_keeps _ ?_ _ _ _ _ ?_
  · exact hs
  · intro x1 h1
    try beta_reduce
    refine pred_ite ?_ ?_
    · extract_lets -underBinder -merge -useContext +onlyGivenNames x2
      have h2 : In2 (Keeps s₀) x2 := by
        unfold x2
        refine State.hostBytes_keeps _ ?_ _ _
        exact h1
      refine State.respond_keeps _ ?_ _ _ _ _ _
      exact h2.out
    · refine State.respond_keeps _ ?_ _ _ _ _ _
      exact h1

theorem execMemWrite_keeps {s₀ : State} (h : HostCmd) (s : State) (hs : Keeps s₀ s) :
    InOut (Keeps s₀) (execMemWrite h s) := by
  unfold execMemWrite
  refine State.heldRun_keeps _ ?_ _ _ _ _ ?_
  · exact hs
  · intro x1 h1
    try beta_reduce
    refine pred_ite ?_ ?_
    · refine State.ok_keeps _ ?_ _ _
      refine State.put_keeps _ ?_ _ _ _ _
      exact h1
    · refine State.respond_keeps _ ?_ _ _ _ _ _
      exact h1

theorem execModuleReset_keeps {s₀ : State} (h : HostCmd) (s : State) (hs : Keeps s₀ s) :
    InOut (Keeps s₀) (execModuleReset h s) := by
  unfold execModuleReset
  refine State.hostRun_keeps _ ?_ _ _ _ ?_
  · exact hs
  · intro x1 h1
    try beta_reduce
    extract_lets -underBinder -merge -useContext +onlyGivenNames x2
    have h2 : Keeps s₀ x2 := by
      unfold x2
      refine State.ok_keeps _ ?_ _ _
      exact h1
    refine State.setMode_keeps _ ?_ _
    refine State.keepWire_keeps _ ?_ _ ?_
    · refine State.cleared_keeps _ ?_
      exact h2
    · exact h2

theorem execNop_keeps {s₀ : State} (h : HostCmd) (s : State) (hs : Keeps s₀ s) :
    InOut (Keeps s₀) (execNop h s) := by
  unfold execNop
  refine State.hostRun_keeps _ ?_ _ _ _ ?_
  · exact hs
  · intro x1 h1
    try beta_reduce
    refine State.ok_keeps _ ?_ _ _
    exact h1

theorem execRegRead_keeps {s₀ : State} (h : HostCmd) (s : State) (hs : Keeps s₀ s) :
    InOut (Keeps s₀) (execRegRead h s) := by
  unfold execRegRead
  refine State.hostRun_keeps _ ?_ _ _ _ ?_
  · exact hs
  · intro x1 h1
    try beta_reduce
    extract_lets -underBinder -merge -useContext +onlyGivenNames x2
    have h2 : In2 (Keeps s₀) x2 := by
      unfold x2
      refine State.readRegs_keeps _ ?_ _ _ _
      exact h1
    refine State.respond_keeps _ ?_ _ _ _ _ _
    exact h2.out

theorem execRegWrite_keeps {s₀ : State} (h : HostCmd) (s : State) (hs : Keeps s₀ s) :
    InOut (Keeps s₀) (execRegWrite h s) := by
  unfold execRegWrite
  refine State.hostRun_keeps _ ?_ _ _ _ ?_
  · exact hs
  · intro x1 h1
    try beta_reduce
    refine State.ok_keeps _ ?_ _ _
    refine State.writeRegs_keeps _ ?_ _ _
    exact h1

theorem execResultClose_keeps {s₀ : State} (h : HostCmd) (s : State) (hs : Keeps s₀ s) :
    InOut (Keeps s₀) (execResultClose h s) := by
  unfold execResultClose
  refine State.hostRun_keeps _ ?_ _ _ _ ?_
  · exact hs
  · intro x1 h1
    try beta_reduce
    refine pred_ite ?_ ?_
    · refine State.respond_keeps _ ?_ _ _ _ _ _
      exact h1
    · refine State.ok_keeps _ ?_ _ _
      refine State.setWindow_keeps _ ?_ _ _
      exact h1

theorem execResultOpen_keeps {s₀ : State} (h : HostCmd) (s : State) (hs : Keeps s₀ s) :
    InOut (Keeps s₀) (execResultOpen h s) := by
  unfold execResultOpen
  refine State.hostRun_keeps _ ?_ _ _ _ ?_
  · exact hs
  · intro x1 h1
    try beta_reduce
    extract_lets -underBinder -merge -useContext +onlyGivenNames x2
    extract_lets -underBinder -merge -useContext +onlyGivenNames x3
    extract_lets -underBinder -merge -useContext +onlyGivenNames x4
    extract_lets -underBinder -merge -useContext +onlyGivenNames x5
    split
    · refine pred_ite ?_ ?_
      · refine State.refuseRange_keeps _ ?_ _ _
        exact h1
      · extract_lets -underBinder -merge -useContext +onlyGivenNames x8
        refine State.respond_keeps _ ?_ _ _ _ _ _
        refine State.setWindow_keeps _ ?_ _ _
        exact h1
    · refine State.respond_keeps _ ?_ _ _ _ _ _
      exact h1

theorem execResultRead_keeps {s₀ : State} (h : HostCmd) (s : State) (hs : Keeps s₀ s) :
    InOut (Keeps s₀) (execResultRead h s) := by
  unfold execResultRead
  refine pred_ite ?_ ?_
  · refine InOut.next ?_
    exact hs
  · refine State.runCmd_keeps _ ?_ _ _ _ _ _ ?_
    · exact hs
    · intro x1 h1
      try beta_reduce
      refine State.resultRead_keeps _ ?_ _
      exact h1

theorem execResultRelease_keeps {s₀ : State} (h : HostCmd) (s : State) (hs : Keeps s₀ s) :
    InOut (Keeps s₀) (execResultRelease h s) := by
  unfold execResultRelease
  refine State.runCmd_keeps _ ?_ _ _ _ _ _ ?_
  · exact hs
  · intro x1 h1
    try beta_reduce
    extract_lets -underBinder -merge -useContext +onlyGivenNames x2
    refine pred_ite ?_ ?_
    · refine pred_ite ?_ ?_
      · refine State.ok_keeps _ ?_ _ _
        exact Keeps.upd h1
      · refine State.respond_keeps _ ?_ _ _ _ _ _
        exact h1
    · split
      · refine State.respond_keeps _ ?_ _ _ _ _ _
        exact h1
      · refine pred_ite ?_ ?_
        · extract_lets -underBinder -merge -useContext +onlyGivenNames x5
          refine State.ok_keeps _ ?_ _ _
          refine State.setWindow_keeps _ ?_ _ _
          exact h1
        · refine State.respond_keeps _ ?_ _ _ _ _ _
          exact h1

theorem execRevoke_keeps {s₀ : State} (h : HostCmd) (s : State) (hs : Keeps s₀ s) :
    InOut (Keeps s₀) (execRevoke h s) := by
  unfold execRevoke
  refine State.flashRun_keeps _ ?_ _ _
  exact hs

theorem execRun_keeps {s₀ : State} (h : HostCmd) (s : State) (hs : Keeps s₀ s) :
    InOut (Keeps s₀) (execRun h s) := by
  unfold execRun
  refine State.hostRun_keeps _ ?_ _ _ _ ?_
  · exact hs
  · intro x1 h1
    try beta_reduce
    extract_lets -underBinder -merge -useContext +onlyGivenNames x2
    refine pred_ite ?_ ?_
    · refine State.respond_keeps _ ?_ _ _ _ _ _
      exact h1
    · extract_lets -underBinder -merge -useContext +onlyGivenNames x3
      extract_lets -underBinder -merge -useContext +onlyGivenNames x4
      have h4 : Keeps s₀ x4 := by
        unfold x4
        refine State.setRegF_keeps _ ?_ _ _ _ _
        refine State.setReg_keeps _ ?_ _ _
        exact h1
      extract_lets -underBinder -merge -useContext +onlyGivenNames x5
      have h5 : Keeps s₀ x5 := by
        unfold x5
        refine pred_ite ?_ ?_
        · refine State.rewriteAll_keeps _ ?_
          exact h4
        · exact h4
      extract_lets -underBinder -merge -useContext +onlyGivenNames x6 x7
      have h6 : Keeps s₀ x6 := by
        unfold x6
        refine State.regather_keeps _ ?_
        exact h5
      have h7 : Keeps s₀ x7 := by
        unfold x7
        refine pred_ite ?_ ?_
        · exact Keeps.upd h6
        · exact h5
      refine State.ok_keeps _ ?_ _ _
      refine State.setMode_keeps _ ?_ _
      refine State.pairCheck_keeps _ ?_
      exact h7

theorem execStatus_keeps {s₀ : State} (h : HostCmd) (s : State) (hs : Keeps s₀ s) :
    InOut (Keeps s₀) (execStatus h s) := by
  unfold execStatus
  refine State.hostRun_keeps _ ?_ _ _ _ ?_
  · exact hs
  · intro x1 h1
    try beta_reduce
    refine State.respond_keeps _ ?_ _ _ _ _ _
    exact h1

theorem execUnload_keeps {s₀ : State} (h : HostCmd) (s : State) (hs : Keeps s₀ s) :
    InOut (Keeps s₀) (execUnload h s) := by
  unfold execUnload
  refine State.hostRun_keeps _ ?_ _ _ _ ?_
  · exact hs
  · intro x1 h1
    try beta_reduce
    refine State.ok_keeps _ ?_ _ _
    refine State.unload_keeps _ ?_
    exact h1

end Sys2Proof.Machine
end

