-- ==== Sys2Proof/Laws/KeepTick.lean ====
section
/-! SUPPORT. What the passing of time keeps (`Keeps`), one lemma for each. -/

namespace Sys2Proof.Machine

open Sys2Proof

theorem State.tickPort_keeps {s₀ : State} (s : State) (hs : Keeps s₀ s) (p : Nat) :
    Keeps s₀ (State.tickPort s p) := by
  unfold State.tickPort
  extract_lets -underBinder -merge -useContext +onlyGivenNames x1
  extract_lets -underBinder -merge -useContext +onlyGivenNames x2
  refine pred_ite ?_ ?_
  · extract_lets -underBinder -merge -useContext +onlyGivenNames x3
    have h3 : Keeps s₀ x3 := by
      unfold x3
      refine pred_foldl ?_ ?_
      · intro x4 h4 a4
        refine State.count_keeps _ ?_ _ _ _ _
        exact h4
      · exact hs
    refine State.count_keeps _ ?_ _ _ _ _
    refine In2.out ?_
    refine State.draw_keeps _ ?_
    exact h3
  · exact hs

theorem State.tickEdge_keeps {s₀ : State} (s : State) (hs : Keeps s₀ s) (e : Nat) :
    Keeps s₀ (State.tickEdge s e) := by
  unfold State.tickEdge
  extract_lets -underBinder -merge -useContext +onlyGivenNames x1
  refine pred_foldl ?_ ?_
  · intro x2 h2 a2
    refine State.count_keeps _ ?_ _ _ _ _
    exact h2
  · refine State.count_keeps _ ?_ _ _ _ _
    exact hs

theorem State.tickDie_keeps {s₀ : State} (s : State) (hs : Keeps s₀ s) (d : Nat) :
    Keeps s₀ (State.tickDie s d) := by
  unfold State.tickDie
  extract_lets -underBinder -merge -useContext +onlyGivenNames x1
  refine State.count_keeps _ ?_ _ _ _ _
  refine State.count_keeps _ ?_ _ _ _ _
  exact hs

theorem State.tickCore_keeps {s₀ : State} (s : State) (hs : Keeps s₀ s) (c : Nat) :
    Keeps s₀ (State.tickCore s c) := by
  unfold State.tickCore
  extract_lets -underBinder -merge -useContext +onlyGivenNames x1
  extract_lets -underBinder -merge -useContext +onlyGivenNames x2
  extract_lets -underBinder -merge -useContext +onlyGivenNames x3
  extract_lets -underBinder -merge -useContext +onlyGivenNames x4
  extract_lets -underBinder -merge -useContext +onlyGivenNames x5
  extract_lets -underBinder -merge -useContext +onlyGivenNames x6
  have h6 : Keeps s₀ x6 := by
    unfold x6
    refine State.count_keeps _ ?_ _ _ _ _
    exact hs
  extract_lets -underBinder -merge -useContext +onlyGivenNames x7
  have h7 : Keeps s₀ x7 := by
    unfold x7
    refine State.count_keeps _ ?_ _ _ _ _
    exact h6
  extract_lets -underBinder -merge -useContext +onlyGivenNames x8
  have h8 : Keeps s₀ x8 := by
    unfold x8
    refine State.count_keeps _ ?_ _ _ _ _
    exact h7
  extract_lets -underBinder -merge -useContext +onlyGivenNames x9
  have h9 : Keeps s₀ x9 := by
    unfold x9
    refine State.count_keeps _ ?_ _ _ _ _
    exact h8
  extract_lets -underBinder -merge -useContext +onlyGivenNames x10
  have h10 : Keeps s₀ x10 := by
    unfold x10
    refine State.count_keeps _ ?_ _ _ _ _
    exact h9
  refine State.count_keeps _ ?_ _ _ _ _
  exact h10

theorem State.runClocks_keeps {s₀ : State} (s : State) (hs : Keeps s₀ s) :
    Keeps s₀ (State.runClocks s) := by
  unfold State.runClocks
  refine pred_foldl ?_ ?_
  · intro x1 h1 a1
    refine State.tickPort_keeps _ ?_ _
    exact h1
  · refine pred_foldl ?_ ?_
    · intro x2 h2 a2
      refine State.tickEdge_keeps _ ?_ _
      exact h2
    · refine pred_foldl ?_ ?_
      · intro x3 h3 a3
        refine State.tickDie_keeps _ ?_ _
        exact h3
      · refine pred_foldl ?_ ?_
        · intro x4 h4 a4
          refine State.tickCore_keeps _ ?_ _
          exact h4
        · exact hs

/-- A tick moves the clock and keeps the rest. -/
theorem tick_keeps {s₀ : State} (s : State) (hs : Keeps s₀ { s with now := s.now + 1 }) :
    Keeps s₀ (tick s) := by
  unfold tick
  refine pred_ite (pred_foldl ?_ (pred_foldl ?_ (State.runClocks_keeps _ hs))) hs
  · intro x h a
    exact State.serveDie_keeps _ h _
  · intro x h a
    exact State.serveChan_keeps _ h _

end Sys2Proof.Machine
end

