-- ==== Sys2Proof/WellFormed.lean ====
section
/-! DEFINITION. What the spec says of a command's operands before any state is looked at: alignments,
lengths and counts. A command outside these bounds is none that the block can be sent. -/

namespace Sys2Proof

/-- A register address: 32-bit registers at multiples of 4 (R8). -/
def wfReg (addr : BitVec 32) : Bool := decide (addr.toNat % 4 = 0)

/-- The counters of an event-counter block: 8 in a core block, 32 in a die block (R471). -/
def counters (b : Block) : Nat := if b.val < 54 then 8 else 32

/-- A host packet's payload: at most 8,192 bytes, a multiple of 4 (R351). -/
def HostCmd.wf (h : HostCmd) : Bool := decide (h.payload.length ≤ 8192 ∧ h.payload.length % 4 = 0)

/-- A management command's length takes 16 bits (R460). -/
def MgmtCmd.wf (m : MgmtCmd) : Bool := decide (m.payload.length < 65536)

/-- A flit has 256 bytes (R320, R349). -/
def wfFlit (bytes : List Byte) : Bool := decide (bytes.length = 256)

/-- The requesters of an arbitration point (R266): a bank port has 16, a channel queue 22. -/
def requesters (p : ArbPoint) : Nat := if p.val < 144 then 16 else 22

/-- The bytes of a write of one memory unit. -/
def wfUnit (n : Nat) (wr : Option (List Byte)) : Bool := match wr with
  | some l => decide (l.length = n)
  | none => true

/-- The well-formed commands. -/
def Instr.wf : Instr → Bool
  | .registerWrite _ addr _ => wfReg addr
  | .registerRead _ addr => wfReg addr
  | .unmappedAccess addr _ => wfReg addr
  -- a bridge moves 1,024 bytes at a time (R17)
  | .bridgeTransfer _ _ data _ => decide (data.length = 1024)
  | .operandFill _ addr len => decide (0 < len ∧ addr.toNat + len ≤ 2 ^ 48)
  -- near memory is read and written by 64-byte lines (R252), far memory by 32-byte bursts (R264)
  | .nmemAccess _ _ off wr _ => decide (off.toNat % 64 = 0) && wfUnit 64 wr
  | .nmemPatrolScrub _ off _ => decide (off.toNat % 64 = 0)
  | .fmemAccess addr wr _ => decide (addr.toNat % 32 = 0) && wfUnit 32 (wr.map Prod.fst)
  | .fmemPatrolScrub addr _ => decide (addr.toNat % 32 = 0)
  | .burstReconstruct addr => decide (addr.toNat % 32 = 0)
  -- a cache line holds 256 bytes (R254)
  | .cacheFill _ _ addr => decide (addr.toNat % 256 = 0)
  | .cacheInvalidate _ addr _ => decide (addr.toNat % 256 = 0)
  | .arbGrant p want => decide (want.toNat < 2 ^ requesters p)
  | .arbBackoffExpire p req => decide (req.val < requesters p)
  | .flitReceive _ bytes _ => wfFlit bytes
  | .hostFlitReceive _ bytes _ => wfFlit bytes
  -- a marker codeword of each logical receive lane (R316, R318)
  | .portTrain x => decide (x.marks.length = 4)
  | .evcCntHiWrite b i _ => decide (i.val < counters b)
  | .evcCntLoWrite b i _ => decide (i.val < counters b)
  | .evcOvf b i => decide (i.val < counters b)
  | .nop h | .status h | .regRead h | .regWrite h | .allocCreate h | .allocFree h | .descCreate h
  | .descDestroy h | .memWrite h | .memRead h | .load h | .unload h | .run h | .hold h | .moduleReset h
  | .feedOpen h | .feedClose h | .feedWrite h | .feedCommit h | .resultOpen h | .resultClose h
  | .resultRead h | .resultRelease h | .attest h | .flashWrite h | .flashErase h | .activate h
  | .advanceSvn h | .revoke h | .keyProgram h | .flashRead h => h.wf
  | .getState m | .readSensors m | .readReg m | .readBreach m | .setCap m | .getIdentity m | .flash m
  | .setAlert m | .clearAlert m => m.wf
  -- the operands of the others take every value of their types
  | .prdAudRowsRead .. | .prdAudMissRead .. | .bridgeFail .. | .islandReset .. | .channelResync ..
  | .clockChange .. | .stepBeginIssue | .islandStepBegin .. | .idleItem .. | .stepBegin .. | .mbBegin ..
  | .stageBind .. | .stageUnbind .. | .cmdqReservedOpcode .. | .spmm .. | .sddmm .. | .spgemm ..
  | .gather .. | .scatterAdd .. | .conv .. | .normstat .. | .copy .. | .predict .. | .elemwise ..
  | .mopComplete .. | .mopEarlyStart .. | .phaseDone .. | .phaseDoneReceive .. | .resultCopyResume ..
  | .stationaryLoad .. | .wavefrontEmit .. | .mergeSegment .. | .wavefront .. | .tileInit ..
  | .sumqAccumulate .. | .tileDrain .. | .auditRowReport .. | .predictStart .. | .predictComplete ..
  | .fmemTrain .. | .fmemDriftCheck .. | .fmemRefresh .. | .fmemZqLatch .. | .rowRetire .. | .updChunk ..
  | .updRowRecord .. | .normResult .. | .pass2Start .. | .groupLocalDone .. | .commitRecordWrite
  | .stepCommit | .stepResume | .twinLost .. | .updRecompReq .. | .recompRebuild .. | .recompReady ..
  | .portTrainTimeout .. | .laneFail .. | .laneSwapComplete .. | .linkSilence ..
  | .retryTimeout .. | .creditReturn .. | .credit .. | .nak .. | .e2eAck .. | .e2eAckDue .. | .e2eTimeout ..
  | .write .. | .read .. | .readResp .. | .crs .. | .stagedPartialAdd .. | .cag .. | .cscalar .. | .mwr ..
  | .mack .. | .linkCtlHello .. | .resyncUnitCopy .. | .linkCtlSwapRequest .. | .linkCtlSwapDone ..
  | .linkCtlFenceNotice .. | .fence .. | .unfence .. | .hostLaneTrain .. | .hostLaneSilence .. | .nhlCredit ..
  | .nhlNak .. | .gapTimeout .. | .feedStall | .resultStall | .eventDrop | .coreWatchdog .. | .coreFail ..
  | .replayIssue | .queuedBreach | .polderLoss .. | .dumpWrite | .dumpComplete | .restoreStart
  | .restoreComplete | .clear .. | .snap .. | .clearAll | .snapAll | .evcBroadcastArrive .. | .bootRomStart
  | .functionReady .. | .healthAreaWrite | .inputTurnOn | .powerGood .. | .inputShutdown | .overcurrentTrip
  | .thermalTrip | .regulatorFail .. | .powerCapEval .. | .thermalEval | .coreThermalGate ..
  | .droopResponse .. | .droopEnd .. | .idleEntry .. | .powerStateWake .. | .sensorUpdate .. | .modResetN
  | .tapReset | .extest | .samplePreload | .idcode | .clamp | .highz | .bypass .. | .hostLaneFail ..
  | .hostLaneTrainTimeout .. | .spareLaneTrainTimeout .. | .refreshManagementRequest ..
  | .housekeepingRailDown | .dataRegisterScan .. => true

end Sys2Proof
end

