-- ==== Sys2Proof/Laws/PerInstr.lean ====
section
/-! SUPPORT. What holds of every command as syntax, constructor by constructor. -/

namespace Sys2Proof.Laws.Wf

open Sys2Proof Sys2Proof.Machine

/-- A well-formed command presents memory with the address of a whole burst of far memory (R258, R264): a
multiple of 32 bytes. -/
def Statement (i : Instr) : Prop := i.wf = true → ∀ a, addrOf i = some a → a % 32 = 0

theorem registerWrite (a : Accessor) (addr : BitVec 32) (v : Word) : Statement (.registerWrite a addr v) :=
  fun _ _ h => nomatch h
theorem unmappedAccess (addr : BitVec 32) (write : Bool) : Statement (.unmappedAccess addr write) :=
  fun _ _ h => nomatch h
theorem prdAudRowsRead (a : Accessor) (d : Die) (l : Fin 256) : Statement (.prdAudRowsRead a d l) :=
  fun _ _ h => nomatch h
theorem prdAudMissRead (a : Accessor) (d : Die) (l : Fin 256) : Statement (.prdAudMissRead a d l) :=
  fun _ _ h => nomatch h
theorem bridgeTransfer (b : Fin 13) (dir : Fin 2) (data : List Byte) (crc : BitVec 32) :
    Statement (.bridgeTransfer b dir data crc) :=
  fun _ _ h => nomatch h
theorem bridgeFail (b : Fin 13) (dir : Fin 2) (lostLock : Bool) : Statement (.bridgeFail b dir lostLock) :=
  fun _ _ h => nomatch h
theorem islandReset (i : ClkIsl) : Statement (.islandReset i) :=
  fun _ _ h => nomatch h
theorem channelResync (i : ClkIsl) : Statement (.channelResync i) :=
  fun _ _ h => nomatch h
theorem clockChange (c : Core) : Statement (.clockChange c) :=
  fun _ _ h => nomatch h
theorem stepBeginIssue : Statement .stepBeginIssue :=
  fun _ _ h => nomatch h
theorem islandStepBegin (i : Isl) : Statement (.islandStepBegin i) :=
  fun _ _ h => nomatch h
theorem idleItem (rd : CoreRead) : Statement (.idleItem rd) :=
  fun _ _ h => nomatch h
theorem stepBegin (c : Core) (bad : Bool) : Statement (.stepBegin c bad) :=
  fun _ _ h => nomatch h
theorem mbBegin (c : Core) (bad : Bool) : Statement (.mbBegin c bad) :=
  fun _ _ h => nomatch h
theorem stageBind (c : Core) (bad : Bool) : Statement (.stageBind c bad) :=
  fun _ _ h => nomatch h
theorem stageUnbind (c : Core) (bad : Bool) : Statement (.stageUnbind c bad) :=
  fun _ _ h => nomatch h
theorem cmdqReservedOpcode (c : Core) (bad : Bool) : Statement (.cmdqReservedOpcode c bad) :=
  fun _ _ h => nomatch h
theorem spmm (rd : CoreRead) : Statement (.spmm rd) :=
  fun _ _ h => nomatch h
theorem sddmm (rd : CoreRead) : Statement (.sddmm rd) :=
  fun _ _ h => nomatch h
theorem spgemm (rd : CoreRead) : Statement (.spgemm rd) :=
  fun _ _ h => nomatch h
theorem gather (rd : CoreRead) : Statement (.gather rd) :=
  fun _ _ h => nomatch h
theorem scatterAdd (rd : CoreRead) : Statement (.scatterAdd rd) :=
  fun _ _ h => nomatch h
theorem conv (rd : CoreRead) : Statement (.conv rd) :=
  fun _ _ h => nomatch h
theorem normstat (rd : CoreRead) : Statement (.normstat rd) :=
  fun _ _ h => nomatch h
theorem copy (rd : CoreRead) : Statement (.copy rd) :=
  fun _ _ h => nomatch h
theorem predict (rd : CoreRead) : Statement (.predict rd) :=
  fun _ _ h => nomatch h
theorem elemwise (rd : CoreRead) : Statement (.elemwise rd) :=
  fun _ _ h => nomatch h
theorem mopComplete (c : Core) : Statement (.mopComplete c) :=
  fun _ _ h => nomatch h
theorem mopEarlyStart (rd : CoreRead) : Statement (.mopEarlyStart rd) :=
  fun _ _ h => nomatch h
theorem phaseDone (c : Core) : Statement (.phaseDone c) :=
  fun _ _ h => nomatch h
theorem phaseDoneReceive (rd : CoreRead) : Statement (.phaseDoneReceive rd) :=
  fun _ _ h => nomatch h
theorem resultCopyResume (w : Fin 64) : Statement (.resultCopyResume w) :=
  fun _ _ h => nomatch h
theorem operandFill (c : Core) (addr : Addr) (len : Nat) : Statement (.operandFill c addr len) :=
  fun _ _ h => nomatch h
theorem stationaryLoad (rd : CoreRead) : Statement (.stationaryLoad rd) :=
  fun _ _ h => nomatch h
theorem wavefrontEmit (rd : CoreRead) : Statement (.wavefrontEmit rd) :=
  fun _ _ h => nomatch h
theorem mergeSegment (rd : CoreRead) : Statement (.mergeSegment rd) :=
  fun _ _ h => nomatch h
theorem wavefront (c : Core) (bad : Bool) : Statement (.wavefront c bad) :=
  fun _ _ h => nomatch h
theorem tileInit (c : Core) : Statement (.tileInit c) :=
  fun _ _ h => nomatch h
theorem sumqAccumulate (c : Core) (bad : Bool) : Statement (.sumqAccumulate c bad) :=
  fun _ _ h => nomatch h
theorem tileDrain (rd : CoreRead) : Statement (.tileDrain rd) :=
  fun _ _ h => nomatch h
theorem auditRowReport (c : Core) : Statement (.auditRowReport c) :=
  fun _ _ h => nomatch h
theorem predictStart (d : Die) : Statement (.predictStart d) :=
  fun _ _ h => nomatch h
theorem predictComplete (d : Die) : Statement (.predictComplete d) :=
  fun _ _ h => nomatch h
theorem allocCreate (h : HostCmd) : Statement (.allocCreate h) :=
  fun _ _ h => nomatch h
theorem allocFree (h : HostCmd) : Statement (.allocFree h) :=
  fun _ _ h => nomatch h
theorem nmemAccess (d : Die) (req : Fin 16) (off : BitVec 31) (wr : Option (List Byte)) (err : EccErr) :
    Statement (.nmemAccess d req off wr err) :=
  fun _ _ h => nomatch h
theorem nmemPatrolScrub (d : Die) (off : BitVec 31) (err : EccErr) : Statement (.nmemPatrolScrub d off err) :=
  fun _ _ h => nomatch h
theorem cacheFill (d : Die) (req : Fin 10) (addr : Addr) : Statement (.cacheFill d req addr) := by
  intro h a ha
  simp only [addrOf, Option.some.injEq] at ha
  simp only [Instr.wf, decide_eq_true_eq] at h
  omega
theorem cacheInvalidate (d : Die) (addr : Addr) (own : Bool) : Statement (.cacheInvalidate d addr own) := by
  intro h a ha
  simp only [addrOf, Option.some.injEq] at ha
  simp only [Instr.wf, decide_eq_true_eq] at h
  omega
theorem arbGrant (p : ArbPoint) (want : BitVec 22) : Statement (.arbGrant p want) :=
  fun _ _ h => nomatch h
theorem arbBackoffExpire (p : ArbPoint) (req : Fin 22) : Statement (.arbBackoffExpire p req) :=
  fun _ _ h => nomatch h
theorem fmemTrain (pkg : Fin 48) (fail : BitVec 4) : Statement (.fmemTrain pkg fail) :=
  fun _ _ h => nomatch h
theorem fmemDriftCheck (ch : Chan) (drift : BitVec 8) (ok1 ok2 : Bool) :
    Statement (.fmemDriftCheck ch drift ok1 ok2) :=
  fun _ _ h => nomatch h
theorem fmemRefresh (ch : Chan) (bank : Fin 16) (busy : Bool) : Statement (.fmemRefresh ch bank busy) :=
  fun _ _ h => nomatch h
theorem fmemZqLatch (ch : Chan) : Statement (.fmemZqLatch ch) :=
  fun _ _ h => nomatch h
theorem fmemAccess (addr : Addr) (wr : Option (List Byte × Bool)) (err : EccErr) :
    Statement (.fmemAccess addr wr err) := by
  intro h a ha
  simp only [addrOf, Option.some.injEq] at ha
  simp only [Instr.wf, Bool.and_eq_true, decide_eq_true_eq] at h
  omega
theorem fmemPatrolScrub (addr : Addr) (err : EccErr) : Statement (.fmemPatrolScrub addr err) := by
  intro h a ha
  simp only [addrOf, Option.some.injEq] at ha
  simp only [Instr.wf, decide_eq_true_eq] at h
  omega
theorem rowRetire (ch : Chan) : Statement (.rowRetire ch) :=
  fun _ _ h => nomatch h
theorem burstReconstruct (addr : Addr) : Statement (.burstReconstruct addr) := by
  intro h a ha
  simp only [addrOf, Option.some.injEq] at ha
  simp only [Instr.wf, decide_eq_true_eq] at h
  omega
theorem updChunk (e : Half) : Statement (.updChunk e) :=
  fun _ _ h => nomatch h
theorem updRowRecord (e : Half) : Statement (.updRowRecord e) :=
  fun _ _ h => nomatch h
theorem normResult (e : Half) : Statement (.normResult e) :=
  fun _ _ h => nomatch h
theorem pass2Start (e : Half) (g : Fin 4096) : Statement (.pass2Start e g) :=
  fun _ _ h => nomatch h
theorem groupLocalDone (e : Half) (g : Fin 4096) : Statement (.groupLocalDone e g) :=
  fun _ _ h => nomatch h
theorem commitRecordWrite : Statement .commitRecordWrite :=
  fun _ _ h => nomatch h
theorem stepCommit : Statement .stepCommit :=
  fun _ _ h => nomatch h
theorem stepResume : Statement .stepResume :=
  fun _ _ h => nomatch h
theorem twinLost (e : Half) : Statement (.twinLost e) :=
  fun _ _ h => nomatch h
theorem updRecompReq (a : Accessor) (e : Half) (v : Word) : Statement (.updRecompReq a e v) :=
  fun _ _ h => nomatch h
theorem recompRebuild (e : Half) : Statement (.recompRebuild e) :=
  fun _ _ h => nomatch h
theorem recompReady (e : Half) : Statement (.recompReady e) :=
  fun _ _ h => nomatch h
theorem portTrain (x : PortMarks) : Statement (.portTrain x) :=
  fun _ _ h => nomatch h
theorem portTrainTimeout (p : Port) : Statement (.portTrainTimeout p) :=
  fun _ _ h => nomatch h
theorem laneFail (p : Port) (lane : Fin 5) : Statement (.laneFail p lane) :=
  fun _ _ h => nomatch h
theorem laneSwapComplete (p : Port) : Statement (.laneSwapComplete p) :=
  fun _ _ h => nomatch h
theorem linkSilence (p : Port) : Statement (.linkSilence p) :=
  fun _ _ h => nomatch h
theorem flitReceive (p : Port) (bytes : List Byte) (fec : FecResult) :
    Statement (.flitReceive p bytes fec) :=
  fun _ _ h => nomatch h
theorem retryTimeout (l : Link) : Statement (.retryTimeout l) :=
  fun _ _ h => nomatch h
theorem creditReturn (l : Link) : Statement (.creditReturn l) :=
  fun _ _ h => nomatch h
theorem credit (p : Port) : Statement (.credit p) :=
  fun _ _ h => nomatch h
theorem nak (p : Port) : Statement (.nak p) :=
  fun _ _ h => nomatch h
theorem e2eAck (p : Port) : Statement (.e2eAck p) :=
  fun _ _ h => nomatch h
theorem e2eAckDue (f : FlowId) : Statement (.e2eAckDue f) :=
  fun _ _ h => nomatch h
theorem e2eTimeout (f : FlowId) : Statement (.e2eTimeout f) :=
  fun _ _ h => nomatch h
theorem write (p : Port) : Statement (.write p) :=
  fun _ _ h => nomatch h
theorem read (p : Port) : Statement (.read p) :=
  fun _ _ h => nomatch h
theorem readResp (p : Port) : Statement (.readResp p) :=
  fun _ _ h => nomatch h
theorem crs (p : Port) : Statement (.crs p) :=
  fun _ _ h => nomatch h
theorem stagedPartialAdd (e : Half) : Statement (.stagedPartialAdd e) :=
  fun _ _ h => nomatch h
theorem cag (p : Port) : Statement (.cag p) :=
  fun _ _ h => nomatch h
theorem cscalar (p : Port) : Statement (.cscalar p) :=
  fun _ _ h => nomatch h
theorem mwr (p : Port) : Statement (.mwr p) :=
  fun _ _ h => nomatch h
theorem mack (p : Port) : Statement (.mack p) :=
  fun _ _ h => nomatch h
theorem linkCtlHello (p : Port) : Statement (.linkCtlHello p) :=
  fun _ _ h => nomatch h
theorem resyncUnitCopy (e : Half) : Statement (.resyncUnitCopy e) :=
  fun _ _ h => nomatch h
theorem linkCtlSwapRequest (p : Port) : Statement (.linkCtlSwapRequest p) :=
  fun _ _ h => nomatch h
theorem linkCtlSwapDone (p : Port) : Statement (.linkCtlSwapDone p) :=
  fun _ _ h => nomatch h
theorem linkCtlFenceNotice (p : Port) : Statement (.linkCtlFenceNotice p) :=
  fun _ _ h => nomatch h
theorem fence (p : Port) : Statement (.fence p) :=
  fun _ _ h => nomatch h
theorem unfence (p : Port) : Statement (.unfence p) :=
  fun _ _ h => nomatch h
theorem hostLaneTrain (l : Lane) (peer : LaneHello) :
    Statement (.hostLaneTrain l peer) :=
  fun _ _ h => nomatch h
theorem hostLaneSilence (l : Lane) : Statement (.hostLaneSilence l) :=
  fun _ _ h => nomatch h
theorem hostFlitReceive (l : Lane) (bytes : List Byte) (fec : FecResult) :
    Statement (.hostFlitReceive l bytes fec) :=
  fun _ _ h => nomatch h
theorem nhlCredit (l : Lane) : Statement (.nhlCredit l) :=
  fun _ _ h => nomatch h
theorem nhlNak (l : Lane) : Statement (.nhlNak l) :=
  fun _ _ h => nomatch h
theorem gapTimeout (q : Fin 16) : Statement (.gapTimeout q) :=
  fun _ _ h => nomatch h
theorem nop (h : HostCmd) : Statement (.nop h) :=
  fun _ _ h => nomatch h
theorem status (h : HostCmd) : Statement (.status h) :=
  fun _ _ h => nomatch h
theorem regRead (h : HostCmd) : Statement (.regRead h) :=
  fun _ _ h => nomatch h
theorem regWrite (h : HostCmd) : Statement (.regWrite h) :=
  fun _ _ h => nomatch h
theorem descCreate (h : HostCmd) : Statement (.descCreate h) :=
  fun _ _ h => nomatch h
theorem descDestroy (h : HostCmd) : Statement (.descDestroy h) :=
  fun _ _ h => nomatch h
theorem memWrite (h : HostCmd) : Statement (.memWrite h) :=
  fun _ _ h => nomatch h
theorem memRead (h : HostCmd) : Statement (.memRead h) :=
  fun _ _ h => nomatch h
theorem load (h : HostCmd) : Statement (.load h) :=
  fun _ _ h => nomatch h
theorem unload (h : HostCmd) : Statement (.unload h) :=
  fun _ _ h => nomatch h
theorem run (h : HostCmd) : Statement (.run h) :=
  fun _ _ h => nomatch h
theorem hold (h : HostCmd) : Statement (.hold h) :=
  fun _ _ h => nomatch h
theorem moduleReset (h : HostCmd) : Statement (.moduleReset h) :=
  fun _ _ h => nomatch h
theorem feedOpen (h : HostCmd) : Statement (.feedOpen h) :=
  fun _ _ h => nomatch h
theorem feedClose (h : HostCmd) : Statement (.feedClose h) :=
  fun _ _ h => nomatch h
theorem feedWrite (h : HostCmd) : Statement (.feedWrite h) :=
  fun _ _ h => nomatch h
theorem feedCommit (h : HostCmd) : Statement (.feedCommit h) :=
  fun _ _ h => nomatch h
theorem feedStall : Statement .feedStall :=
  fun _ _ h => nomatch h
theorem resultOpen (h : HostCmd) : Statement (.resultOpen h) :=
  fun _ _ h => nomatch h
theorem resultClose (h : HostCmd) : Statement (.resultClose h) :=
  fun _ _ h => nomatch h
theorem resultRead (h : HostCmd) : Statement (.resultRead h) :=
  fun _ _ h => nomatch h
theorem resultRelease (h : HostCmd) : Statement (.resultRelease h) :=
  fun _ _ h => nomatch h
theorem resultStall : Statement .resultStall :=
  fun _ _ h => nomatch h
theorem attest (h : HostCmd) : Statement (.attest h) :=
  fun _ _ h => nomatch h
theorem flashWrite (h : HostCmd) : Statement (.flashWrite h) :=
  fun _ _ h => nomatch h
theorem flashErase (h : HostCmd) : Statement (.flashErase h) :=
  fun _ _ h => nomatch h
theorem activate (h : HostCmd) : Statement (.activate h) :=
  fun _ _ h => nomatch h
theorem advanceSvn (h : HostCmd) : Statement (.advanceSvn h) :=
  fun _ _ h => nomatch h
theorem revoke (h : HostCmd) : Statement (.revoke h) :=
  fun _ _ h => nomatch h
theorem keyProgram (h : HostCmd) : Statement (.keyProgram h) :=
  fun _ _ h => nomatch h
theorem flashRead (h : HostCmd) : Statement (.flashRead h) :=
  fun _ _ h => nomatch h
theorem eventDrop : Statement .eventDrop :=
  fun _ _ h => nomatch h
theorem coreWatchdog (c : Core) : Statement (.coreWatchdog c) :=
  fun _ _ h => nomatch h
theorem coreFail (c : Core) (cause : CoreFailCause) : Statement (.coreFail c cause) :=
  fun _ _ h => nomatch h
theorem replayIssue : Statement .replayIssue :=
  fun _ _ h => nomatch h
theorem queuedBreach : Statement .queuedBreach :=
  fun _ _ h => nomatch h
theorem polderLoss (why : PolderCause) : Statement (.polderLoss why) :=
  fun _ _ h => nomatch h
theorem dumpWrite : Statement .dumpWrite :=
  fun _ _ h => nomatch h
theorem dumpComplete : Statement .dumpComplete :=
  fun _ _ h => nomatch h
theorem restoreStart : Statement .restoreStart :=
  fun _ _ h => nomatch h
theorem restoreComplete : Statement .restoreComplete :=
  fun _ _ h => nomatch h
theorem evcCntHiWrite (b : Block) (i : Fin 32) (v : Word) : Statement (.evcCntHiWrite b i v) :=
  fun _ _ h => nomatch h
theorem evcCntLoWrite (b : Block) (i : Fin 32) (v : Word) : Statement (.evcCntLoWrite b i v) :=
  fun _ _ h => nomatch h
theorem clear (b : Block) : Statement (.clear b) :=
  fun _ _ h => nomatch h
theorem snap (b : Block) : Statement (.snap b) :=
  fun _ _ h => nomatch h
theorem clearAll : Statement .clearAll :=
  fun _ _ h => nomatch h
theorem snapAll : Statement .snapAll :=
  fun _ _ h => nomatch h
theorem evcBroadcastArrive (b : Block) : Statement (.evcBroadcastArrive b) :=
  fun _ _ h => nomatch h
theorem evcOvf (b : Block) (i : Fin 32) : Statement (.evcOvf b i) :=
  fun _ _ h => nomatch h
theorem bootRomStart : Statement .bootRomStart :=
  fun _ _ h => nomatch h
theorem functionReady (f : ReadyFn) : Statement (.functionReady f) :=
  fun _ _ h => nomatch h
theorem healthAreaWrite : Statement .healthAreaWrite :=
  fun _ _ h => nomatch h
theorem inputTurnOn : Statement .inputTurnOn :=
  fun _ _ h => nomatch h
theorem powerGood (straps : BitVec 3) : Statement (.powerGood straps) :=
  fun _ _ h => nomatch h
theorem inputShutdown : Statement .inputShutdown :=
  fun _ _ h => nomatch h
theorem overcurrentTrip : Statement .overcurrentTrip :=
  fun _ _ h => nomatch h
theorem thermalTrip : Statement .thermalTrip :=
  fun _ _ h => nomatch h
theorem regulatorFail (r : Rail) : Statement (.regulatorFail r) :=
  fun _ _ h => nomatch h
theorem powerCapEval (p : BitVec 16) : Statement (.powerCapEval p) :=
  fun _ _ h => nomatch h
theorem thermalEval : Statement .thermalEval :=
  fun _ _ h => nomatch h
theorem coreThermalGate (c : Core) : Statement (.coreThermalGate c) :=
  fun _ _ h => nomatch h
theorem droopResponse (c : Core) : Statement (.droopResponse c) :=
  fun _ _ h => nomatch h
theorem droopEnd (c : Core) : Statement (.droopEnd c) :=
  fun _ _ h => nomatch h
theorem idleEntry (f : PwrFn) : Statement (.idleEntry f) :=
  fun _ _ h => nomatch h
theorem powerStateWake (f : PwrFn) : Statement (.powerStateWake f) :=
  fun _ _ h => nomatch h
theorem sensorUpdate (j : Fin 256) (v : BitVec 24) : Statement (.sensorUpdate j v) :=
  fun _ _ h => nomatch h
theorem getState (m : MgmtCmd) : Statement (.getState m) :=
  fun _ _ h => nomatch h
theorem readSensors (m : MgmtCmd) : Statement (.readSensors m) :=
  fun _ _ h => nomatch h
theorem readReg (m : MgmtCmd) : Statement (.readReg m) :=
  fun _ _ h => nomatch h
theorem readBreach (m : MgmtCmd) : Statement (.readBreach m) :=
  fun _ _ h => nomatch h
theorem setCap (m : MgmtCmd) : Statement (.setCap m) :=
  fun _ _ h => nomatch h
theorem getIdentity (m : MgmtCmd) : Statement (.getIdentity m) :=
  fun _ _ h => nomatch h
theorem flash (m : MgmtCmd) : Statement (.flash m) :=
  fun _ _ h => nomatch h
theorem setAlert (m : MgmtCmd) : Statement (.setAlert m) :=
  fun _ _ h => nomatch h
theorem clearAlert (m : MgmtCmd) : Statement (.clearAlert m) :=
  fun _ _ h => nomatch h
theorem modResetN : Statement .modResetN :=
  fun _ _ h => nomatch h
theorem tapReset : Statement .tapReset :=
  fun _ _ h => nomatch h
theorem extest : Statement .extest :=
  fun _ _ h => nomatch h
theorem samplePreload : Statement .samplePreload :=
  fun _ _ h => nomatch h
theorem idcode : Statement .idcode :=
  fun _ _ h => nomatch h
theorem clamp : Statement .clamp :=
  fun _ _ h => nomatch h
theorem highz : Statement .highz :=
  fun _ _ h => nomatch h
theorem bypass (code : Byte) : Statement (.bypass code) :=
  fun _ _ h => nomatch h
theorem hostLaneFail (l : Lane) : Statement (.hostLaneFail l) :=
  fun _ _ h => nomatch h
theorem hostLaneTrainTimeout (l : Lane) : Statement (.hostLaneTrainTimeout l) :=
  fun _ _ h => nomatch h
theorem spareLaneTrainTimeout (p : Port) : Statement (.spareLaneTrainTimeout p) :=
  fun _ _ h => nomatch h
theorem refreshManagementRequest (ch : Chan) : Statement (.refreshManagementRequest ch) :=
  fun _ _ h => nomatch h
theorem housekeepingRailDown : Statement .housekeepingRailDown :=
  fun _ _ h => nomatch h
theorem dataRegisterScan (tdi : List Bool) (pins : BitVec 12) : Statement (.dataRegisterScan tdi pins) :=
  fun _ _ h => nomatch h
theorem registerRead (a : Accessor) (addr : BitVec 32) : Statement (.registerRead a addr) :=
  fun _ _ h => nomatch h

end Sys2Proof.Laws.Wf
end

