-- ==== Sys2Proof/Laws/Reads.lean ====
section
/-! SUPPORT. What a read of the control space does, once for each kind of register. The addresses are
variables here: a proof about a register of a given name cites these lemmas, so that the kernel never computes
with the address. -/

namespace Sys2Proof.Machine

open Sys2Proof

theorem State.latchOf_clearRc (s : State) (a rc j : Nat) : (s.clearRc a rc).latchOf j = s.latchOf j := by
  unfold State.clearRc; split <;> rfl

theorem State.reg_clearRc_self (s : State) (a rc : Nat) :
    (s.clearRc a rc).reg a = s.reg a &&& ~~~(BitVec.ofNat 32 rc) := by
  unfold State.clearRc
  split
  · rename_i h
    subst h
    show s.reg a = s.reg a &&& 4294967295#32
    exact (BitVec.and_allOnes (x := s.reg a)).symm
  · exact State.reg_setReg_self _ _ _

theorem State.reg_clearRc_ne (s : State) (a rc j : Nat) (h : j ≠ a) : (s.clearRc a rc).reg j = s.reg j := by
  unfold State.clearRc
  split
  · rfl
  · exact State.reg_setReg_ne _ _ _ _ h

/-- Clearing a register on a read touches the registers and the threshold marks alone. -/
theorem State.clearRc_frame (s : State) (a rc : Nat) :
    s.clearRc a rc = { s with regs := (s.clearRc a rc).regs, thrFired := (s.clearRc a rc).thrFired } := by
  unfold State.clearRc; split <;> rfl

theorem State.latchOf_readTo (s : State) (acc a j : Nat) :
    (s.readTo acc a).latchOf j = (s.readReg acc a).2.latchOf j := rfl

theorem State.reg_readTo (s : State) (acc a j : Nat) : (s.readTo acc a).reg j = (s.readReg acc a).2.reg j := rfl

theorem State.readData_readTo (s : State) (acc a : Nat) :
    SMap.get (fun _ => 0) (s.readTo acc a).readData acc = (s.readReg acc a).1 := SMap.get_set_self _ _ _ _

/-- A read of an address that no register occupies (R11). -/
theorem State.readReg_unmapped (s : State) (acc a : Nat) (h : regRow a = none) :
    s.readReg acc a = (0, s.unmapped a false) := by simp only [State.readReg, h]

/-- A read of a register that is no audit counter. -/
theorem State.readReg_plain (s : State) (acc a : Nat) (r : RegRow) (h : regRow a = some r)
    (h2 : audAt a = none) : s.readReg acc a = s.readPlain acc a r := by simp only [State.readReg, h, h2]

/-- A read of a row counter of the audit (R243). -/
theorem State.readReg_audRows (s : State) (acc a d l : Nat) (r : RegRow) (h : regRow a = some r)
    (h2 : audAt a = some (d, l, false)) : s.readReg acc a = s.readAudRows d l := by
  simp only [State.readReg, h, h2]

/-- A read of a miss counter of the audit (R243). -/
theorem State.readReg_audMiss (s : State) (acc a d l : Nat) (r : RegRow) (h : regRow a = some r)
    (h2 : audAt a = some (d, l, true)) : s.readReg acc a = s.readAudMiss d l := by
  simp only [State.readReg, h, h2]

/-- A read that no latch of the accessor answers: the value, the latch of a low word, the cleared fields. -/
theorem State.readPlain_eq (s : State) (acc a : Nat) (r : RegRow)
    (h : ∀ lo hi, s.latchOf acc = some (lo, hi) → lo + 4 ≠ a) :
    s.readPlain acc a r = (s.view a,
      (if r.pair then s.setLatch acc (some (a, s.view (a + 4))) else s).clearRc a r.rc) := by
  unfold State.readPlain
  cases hp : r.pair
  · cases hl : s.latchOf acc with
    | none => simp
    | some x => obtain ⟨lo, hi⟩ := x; simp [h lo hi hl]
  · simp

/-- A read that the accessor's latch answers (R8). -/
theorem State.readPlain_latched (s : State) (acc lo a : Nat) (hi : Word) (r : RegRow) (h : r.pair = false)
    (hl : s.latchOf acc = some (lo, hi)) (ha : lo + 4 = a) :
    s.readPlain acc a r = (hi, (s.setLatch acc none).clearRc a r.rc) := by
  simp [State.readPlain, h, hl, ha]

/-- A read of a row counter returns it, clears it and latches the misses. -/
theorem State.readAudRows_eq (s : State) (d l : Nat) :
    s.readAudRows d l = (s.reg (Reg.PRD_AUD_ROWS d l),
      (s.setLatch (audKey d l) (some (Reg.PRD_AUD_MISS d l, s.reg (Reg.PRD_AUD_MISS d l)))).clearRc
        (Reg.PRD_AUD_ROWS d l) 0xFFFFFFFF) := rfl

theorem State.audMiss_latched (s : State) (k a x : Nat) (w : Word) (h : s.latchOf k = some (x, w)) :
    (match s.latchOf k with
    | some (_, v) =>
      let s' := (s.setLatch k none).setReg a (BitVec.ofNat 32 ((s.reg a).toNat - v.toNat))
      (v, { s' with thrFired := s'.thrFired.erase a })
    | none => (s.reg a, s.clearRc a 0xFFFFFFFF)) =
    (w, { (s.setLatch k none).setReg a (BitVec.ofNat 32 ((s.reg a).toNat - w.toNat)) with
      thrFired := s.thrFired.erase a }) := by
  simp only [h]; rfl

/-- A read of a miss counter that is latched returns the latched value and subtracts it. -/
theorem State.readAudMiss_latched (s : State) (d l x : Nat) (w : Word)
    (h : s.latchOf (audKey d l) = some (x, w)) :
    s.readAudMiss d l =
      (w, { (s.setLatch (audKey d l) none).setReg (Reg.PRD_AUD_MISS d l)
              (BitVec.ofNat 32 ((s.reg (Reg.PRD_AUD_MISS d l)).toNat - w.toNat)) with
            thrFired := s.thrFired.erase (Reg.PRD_AUD_MISS d l) }) :=
  State.audMiss_latched s _ _ x w h

end Sys2Proof.Machine
end

