-- ==== Sys2Proof/Laws/Same.lean ====
section
/-! SUPPORT. What a command that stores nothing leaves as it was: memory, its poison marks, flash and
one-time-programmable memory. -/

namespace Sys2Proof.Machine

open Sys2Proof

/-- State t has the stored contents of s. -/
structure Same (s t : State) : Prop where
  mem : t.mem = s.mem
  poison : t.poison = s.poison
  flash : t.flash = s.flash
  otp : t.otp = s.otp

theorem Same.refl (s : State) : Same s s := ⟨rfl, rfl, rfl, rfl⟩

/-- A change of other parts. -/
theorem Same.upd {s₀ s : State}
    {regs : SMap Word} {latch : SMap (Option (Nat × Word))} {readData : SMap Word} {evcStage : SMap
    Word} {evcMsgs : List EvcMsg} {thrFired : List Nat} {islands : SMap Island} {cores : SMap CoreSt}
    {dies : SMap DieSt} {arbs : SMap Arb} {chans : SMap ChanSt} {bridges : SMap BridgeSt} {engines :
    SMap EngineSt} {links : SMap LinkSt} {xfer : List HeldPkt} {txFlows : SMap TxFlow} {rxFlows : SMap
    RxFlow} {reads : List ReadOut} {nextTag : BitVec 16} {staged : List Staged} {norms : List NormRun}
    {allocs : SMap (Option Alloc)} {freed : List (Nat × Nat)} {descs : SMap (Option DescSlot)} {prog :
    Option Prog} {feeds : SMap (Option Feed)} {windows : SMap (Option Window)} {ctl : Ctl} {hostQs :
    SMap HostQ} {evtSeq : BitVec 32} {log : List LogEvent} {breaches : List Breach} {breachQ : List
    Breach} {recWindows : List RecWindow} {dumpWritten : Bool} {dumpReleased : Bool} {dumpKey : Nat}
    {fatal : Option Breach} {lostPolders : List Nat} {standby : Bool} {resync : Option Resync} {restore
    : Option Restore} {restored : Bool} {flashPart : FlashPart} {activated : List Nat} {cfg : Option
    Cfg} {fwVerified : Bool} {cfgVerified : Bool} {healthDirty : Bool} {healthGen : Nat} {power :
    PkgPower} {rails : List Rail} {railsOff : List Rail} {pwrStates : SMap Nat} {energy : Nat} {inputAt
    : Option Nat × Option Nat} {actThrottle : Int} {resetHeld : Bool} {thermLatch : Bool} {houseRail :
    Bool} {straps : BitVec 3} {tap : Tap} {mgmtRsp : Byte × List Byte} {mgmtDue : Nat} {now : Nat}
    {freeCtr : Nat} {pending : List Instr}
    (h : Same s₀ s) :
    Same s₀ ⟨regs, latch, readData, evcStage, evcMsgs, thrFired, s.mem, s.poison, islands, cores, dies, arbs,
      chans, bridges, engines, links, xfer, txFlows, rxFlows, reads, nextTag, staged, norms, allocs,
      freed, descs, prog, feeds, windows, ctl, hostQs, evtSeq, log, breaches, breachQ, recWindows,
      dumpWritten, dumpReleased, dumpKey, fatal, lostPolders, standby, resync, restore, restored,
      s.flash, flashPart, activated, s.otp, cfg, fwVerified, cfgVerified, healthDirty, healthGen, power,
      rails, railsOff, pwrStates, energy, inputAt, actThrottle, resetHeld, thermLatch, houseRail,
      straps, tap, mgmtRsp, mgmtDue, now, freeCtr, pending⟩ :=
  ⟨h.mem, h.poison, h.flash, h.otp⟩

end Sys2Proof.Machine
end

