-- ==== Sys2Proof/Laws/SameOps.lean ====
section
/-! SUPPORT. Which of the shared operations store nothing (`Same`), one lemma for each. -/

namespace Sys2Proof.Machine

open Sys2Proof

theorem State.setCore_same {s₀ : State} (s : State) (hs : Same s₀ s) (c : Nat) (v : CoreSt) :
    Same s₀ (State.setCore s c v) := by
  unfold State.setCore
  exact Same.upd hs

theorem State.setReg_same {s₀ : State} (s : State) (hs : Same s₀ s) (a : Nat) (v : Word) :
    Same s₀ (State.setReg s a v) := by
  unfold State.setReg
  exact Same.upd hs

theorem State.inc_same {s₀ : State} (s : State) (hs : Same s₀ s) (a : Nat) (n : Nat) :
    Same s₀ (State.inc s a n) := by
  unfold State.inc
  refine State.setReg_same _ ?_ _ _
  exact hs

theorem State.setIsland_same {s₀ : State} (s : State) (hs : Same s₀ s) (i : Nat) (v : Island) :
    Same s₀ (State.setIsland s i v) := by
  unfold State.setIsland
  exact Same.upd hs

theorem State.bumpSeq_same {s₀ : State} (s : State) (hs : Same s₀ s) (i : Nat) :
    Same s₀ (State.bumpSeq s i) := by
  unfold State.bumpSeq
  refine State.setIsland_same _ ?_ _ _
  exact hs

theorem State.setReg48_same {s₀ : State} (s : State) (hs : Same s₀ s) (lo : Nat) (hi : Nat) (v : Nat) :
    Same s₀ (State.setReg48 s lo hi v) := by
  unfold State.setReg48
  refine State.setReg_same _ ?_ _ _
  refine State.setReg_same _ ?_ _ _
  exact hs

theorem State.setEvcCount_same {s₀ : State} (s : State) (hs : Same s₀ s) (b : Nat) (i : Nat) (v : Nat) :
    Same s₀ (State.setEvcCount s b i v) := by
  unfold State.setEvcCount
  refine State.setReg48_same _ ?_ _ _ _
  exact hs

theorem State.setRegF_same {s₀ : State} (s : State) (hs : Same s₀ s) (a : Nat) (hi : Nat) (lo : Nat) (v : Nat) :
    Same s₀ (State.setRegF s a hi lo v) := by
  unfold State.setRegF
  refine State.setReg_same _ ?_ _ _
  exact hs

theorem State.setLink_same {s₀ : State} (s : State) (hs : Same s₀ s) (l : Nat) (v : LinkSt) :
    Same s₀ (State.setLink s l v) := by
  unfold State.setLink
  exact Same.upd hs

theorem State.enqueue_same {s₀ : State} (s : State) (hs : Same s₀ s) (l : Nat) (p : Pkt) :
    Same s₀ (State.enqueue s l p) := by
  unfold State.enqueue
  refine State.setLink_same _ ?_ _ _
  exact hs

theorem State.queueEvent_same {s₀ : State} (s : State) (hs : Same s₀ s) (code : Nat) (payload : List Byte) :
    Same s₀ (State.queueEvent s code payload) := by
  unfold State.queueEvent
  refine pred_ite ?_ ?_
  · refine State.enqueue_same _ ?_ _ _
    exact Same.upd hs
  · exact hs

theorem State.addLogBy_same {s₀ : State} (s : State) (hs : Same s₀ s) (i : Nat) (name : Nat) (arg : Nat) (cause : Option Cause) :
    Same s₀ (State.addLogBy s i name arg cause) := by
  unfold State.addLogBy
  extract_lets -underBinder -merge -useContext +onlyGivenNames x1
  have h1 : Same s₀ x1 := by
    unfold x1
    refine State.bumpSeq_same _ ?_ _
    exact hs
  exact Same.upd h1

theorem State.addLog_same {s₀ : State} (s : State) (hs : Same s₀ s) (i : Nat) (name : Nat) (arg : Nat) :
    Same s₀ (State.addLog s i name arg) := by
  unfold State.addLog
  refine State.addLogBy_same _ ?_ _ _ _ _
  exact hs

theorem State.queueNamed_same {s₀ : State} (s : State) (hs : Same s₀ s) (i : Nat) (name : Nat) (arg : Nat) :
    Same s₀ (State.queueNamed s i name arg) := by
  unfold State.queueNamed
  refine pred_ite ?_ ?_
  · refine State.queueEvent_same _ ?_ _ _
    refine State.addLog_same _ ?_ _ _ _
    exact hs
  · refine State.addLog_same _ ?_ _ _ _
    exact hs

theorem State.evcAdd_same {s₀ : State} (s : State) (hs : Same s₀ s) (b : Nat) (i : Nat) (n : Nat) :
    Same s₀ (State.evcAdd s b i n) := by
  unfold State.evcAdd
  extract_lets -underBinder -merge -useContext +onlyGivenNames x1
  extract_lets -underBinder -merge -useContext +onlyGivenNames x2
  have h2 : Same s₀ x2 := by
    unfold x2
    refine State.setEvcCount_same _ ?_ _ _ _
    exact hs
  refine pred_ite ?_ ?_
  · exact h2
  · extract_lets -underBinder -merge -useContext +onlyGivenNames x3
    extract_lets -underBinder -merge -useContext +onlyGivenNames x4
    have h4 : Same s₀ x4 := by
      unfold x4
      refine State.setRegF_same _ ?_ _ _ _ _
      exact h2
    refine pred_ite ?_ ?_
    · refine State.queueNamed_same _ ?_ _ _ _
      exact h4
    · exact h4

theorem State.countQ_same {s₀ : State} (s : State) (hs : Same s₀ s) (b : Nat) (src : Nat) (inst : Nat) (n : Nat) :
    Same s₀ (State.countQ s b src inst n) := by
  unfold State.countQ
  refine pred_ite ?_ ?_
  · exact hs
  · refine pred_foldl ?_ ?_
    · intro x1 h1 a1
      refine pred_ite ?_ ?_
      · refine State.evcAdd_same _ ?_ _ _ _
        exact h1
      · exact h1
    · exact hs

theorem State.countSent_same {s₀ : State} (s : State) (hs : Same s₀ s) (l : Nat) (flits : Nat) (pkts : Nat) :
    Same s₀ (State.countSent s l flits pkts) := by
  unfold State.countSent
  refine pred_ite ?_ ?_
  · refine State.countQ_same _ ?_ _ _ _ _
    exact hs
  · refine State.countQ_same _ ?_ _ _ _ _
    exact hs

theorem State.pumpOne_same {s₀ : State} (s : State) (hs : Same s₀ s) (l : Nat) :
    Same s₀ (State.pumpOne s l) := by
  unfold State.pumpOne
  extract_lets -underBinder -merge -useContext +onlyGivenNames x1
  extract_lets -underBinder -merge -useContext +onlyGivenNames x2
  refine pred_ite ?_ ?_
  · exact hs
  · extract_lets -underBinder -merge -useContext +onlyGivenNames x3
    extract_lets -underBinder -merge -useContext +onlyGivenNames x4
    extract_lets -underBinder -merge -useContext +onlyGivenNames x5
    extract_lets -underBinder -merge -useContext +onlyGivenNames x6
    refine State.countSent_same _ ?_ _ _ _
    refine State.setLink_same _ ?_ _ _
    exact hs

theorem State.pumpLanes_same {s₀ : State} (n l : Nat) (s : State) (hs : Same s₀ s) :
    Same s₀ (State.pumpLanes n l s) := by
  induction n generalizing l s with
  | zero => exact hs
  | succ n ih =>
    unfold State.pumpLanes
    exact pred_ite (State.pumpOne_same _ hs _) (ih _ _ (State.pumpOne_same _ hs _))

theorem State.pump_same {s₀ : State} (s : State) (hs : Same s₀ s) (l : Nat) :
    Same s₀ (State.pump s l) := by
  unfold State.pump
  refine pred_ite ?_ ?_
  · refine State.pumpOne_same _ ?_ _
    exact hs
  · refine State.pumpLanes_same _ _ _ ?_
    exact hs

theorem State.count_same {s₀ : State} (s : State) (hs : Same s₀ s) (b : Nat) (src : Nat) (inst : Nat) (n : Nat) :
    Same s₀ (State.count s b src inst n) := by
  unfold State.count
  extract_lets -underBinder -merge -useContext +onlyGivenNames x1
  have h1 : Same s₀ x1 := by
    unfold x1
    refine State.countQ_same _ ?_ _ _ _ _
    exact hs
  refine pred_ite ?_ ?_
  · exact h1
  · refine State.pump_same _ ?_ _
    exact h1

theorem State.sendEvent_same {s₀ : State} (s : State) (hs : Same s₀ s) (code : Nat) (payload : List Byte) :
    Same s₀ (State.sendEvent s code payload) := by
  unfold State.sendEvent
  refine State.pump_same _ ?_ _
  refine State.queueEvent_same _ ?_ _ _
  exact hs

theorem State.breach_same {s₀ : State} (s : State) (hs : Same s₀ s) (i : Nat) (b : BreachInfo) :
    Same s₀ (State.breach s i b) := by
  unfold State.breach
  extract_lets -underBinder -merge -useContext +onlyGivenNames x1
  extract_lets -underBinder -merge -useContext +onlyGivenNames x2
  have h2 : Same s₀ x2 := by
    unfold x2
    refine State.bumpSeq_same _ ?_ _
    exact hs
  extract_lets -underBinder -merge -useContext +onlyGivenNames x3
  have h3 : Same s₀ x3 := by
    unfold x3
    exact Same.upd h2
  extract_lets -underBinder -merge -useContext +onlyGivenNames x4
  have h4 : Same s₀ x4 := by
    unfold x4
    refine State.inc_same _ ?_ _ _
    refine State.inc_same _ ?_ _ _
    exact h3
  extract_lets -underBinder -merge -useContext +onlyGivenNames x5
  have h5 : Same s₀ x5 := by
    unfold x5
    refine State.count_same _ ?_ _ _ _ _
    refine State.count_same _ ?_ _ _ _ _
    exact h4
  extract_lets -underBinder -merge -useContext +onlyGivenNames x6 x7
  have h6 : Same s₀ x6 := by
    unfold x6
    exact Same.upd h5
  have h7 : Same s₀ x7 := by
    unfold x7
    refine pred_ite ?_ ?_
    · refine State.setRegF_same _ ?_ _ _ _ _
      exact h6
    · exact h5
  refine State.sendEvent_same _ ?_ _ _
  exact h7

theorem State.draw_same {s₀ : State} (s : State) (hs : Same s₀ s) :
    In2 (Same s₀) (State.draw s) := by
  unfold State.draw
  refine In2.mk ?_
  exact Same.upd hs

theorem State.setTxFlow_same {s₀ : State} (s : State) (hs : Same s₀ s) (f : Nat) (v : TxFlow) :
    Same s₀ (State.setTxFlow s f v) := by
  unfold State.setTxFlow
  exact Same.upd hs

theorem State.linkSend_same {s₀ : State} (s : State) (hs : Same s₀ s) (l : Nat) (p : Pkt) :
    Same s₀ (State.linkSend s l p) := by
  unfold State.linkSend
  refine State.pump_same _ ?_ _
  refine State.enqueue_same _ ?_ _ _
  exact hs

theorem State.setDie_same {s₀ : State} (s : State) (hs : Same s₀ s) (d : Nat) (v : DieSt) :
    Same s₀ (State.setDie s d v) := by
  unfold State.setDie
  exact Same.upd hs

theorem State.setWindow_same {s₀ : State} (s : State) (hs : Same s₀ s) (i : Nat) (v : Option Window) :
    Same s₀ (State.setWindow s i v) := by
  unfold State.setWindow
  exact Same.upd hs

theorem State.setEngine_same {s₀ : State} (s : State) (hs : Same s₀ s) (e : Nat) (v : EngineSt) :
    Same s₀ (State.setEngine s e v) := by
  unfold State.setEngine
  exact Same.upd hs

theorem State.setBridge_same {s₀ : State} (s : State) (hs : Same s₀ s) (k : Nat) (v : BridgeSt) :
    Same s₀ (State.setBridge s k v) := by
  unfold State.setBridge
  exact Same.upd hs

theorem State.announceBy_same {s₀ : State} (s : State) (hs : Same s₀ s) (i : Nat) (code : Nat) (arg : Nat) (args : List Nat) (cause : Option Cause) :
    Same s₀ (State.announceBy s i code arg args cause) := by
  unfold State.announceBy
  refine State.sendEvent_same _ ?_ _ _
  refine State.addLogBy_same _ ?_ _ _ _ _
  exact hs

theorem State.announce_same {s₀ : State} (s : State) (hs : Same s₀ s) (i : Nat) (code : Nat) (arg : Nat) (args : List Nat) :
    Same s₀ (State.announce s i code arg args) := by
  unfold State.announce
  refine State.announceBy_same _ ?_ _ _ _ _ _
  exact hs

theorem State.hostSend_same {s₀ : State} (s : State) (hs : Same s₀ s) (lane : Nat) (p : Pkt) :
    Same s₀ (State.hostSend s lane p) := by
  unfold State.hostSend
  refine State.linkSend_same _ ?_ _ _
  exact hs

theorem State.setHostQ_same {s₀ : State} (s : State) (hs : Same s₀ s) (q : Nat) (v : HostQ) :
    Same s₀ (State.setHostQ s q v) := by
  unfold State.setHostQ
  exact Same.upd hs

theorem State.answerHost_same {s₀ : State} (s : State) (hs : Same s₀ s) (h : HostCmd) (cmd : Nat) (status : Nat) (args : Nat) (data : List Byte) :
    Same s₀ (State.answerHost s h cmd status args data) := by
  unfold State.answerHost
  extract_lets -underBinder -merge -useContext +onlyGivenNames x1
  extract_lets -underBinder -merge -useContext +onlyGivenNames x2
  refine State.hostSend_same _ ?_ _ _
  refine State.setHostQ_same _ ?_ _ _
  exact hs

theorem State.flushBad_same {s₀ : State} (q n : Nat) (s : State) (hs : Same s₀ s) :
    Same s₀ (State.flushBad q n s) := by
  induction n generalizing s with
  | zero => exact hs
  | succ n ih =>
    unfold State.flushBad
    split
    · exact hs
    · exact pred_ite hs (ih _ (State.answerHost_same _ hs _ _ _ _ _))

theorem State.respond_same {s₀ : State} (s : State) (hs : Same s₀ s) (h : HostCmd) (cmd : Nat) (status : Nat) (args : Nat) (data : List Byte) :
    Same s₀ (State.respond s h cmd status args data) := by
  unfold State.respond
  extract_lets -underBinder -merge -useContext +onlyGivenNames x1
  have h1 : Same s₀ x1 := by
    unfold x1
    refine State.answerHost_same _ ?_ _ _ _ _ _
    exact hs
  refine State.flushBad_same _ _ _ ?_
  exact h1

theorem State.setMode_same {s₀ : State} (s : State) (hs : Same s₀ s) (m : Nat) :
    Same s₀ (State.setMode s m) := by
  unfold State.setMode
  extract_lets -underBinder -merge -useContext +onlyGivenNames x1
  have h1 : Same s₀ x1 := by
    unfold x1
    refine State.setRegF_same _ ?_ _ _ _ _
    exact hs
  refine State.announce_same _ ?_ _ _ _ _
  exact h1

theorem State.openWindow_same {s₀ : State} (s : State) (hs : Same s₀ s) (cls : Nat) (polder : Nat) (obj : Nat) :
    Same s₀ (State.openWindow s cls polder obj) := by
  unfold State.openWindow
  exact Same.upd hs

theorem State.logNamed_same {s₀ : State} (s : State) (hs : Same s₀ s) (i : Nat) (name : Nat) (arg : Nat) :
    Same s₀ (State.logNamed s i name arg) := by
  unfold State.logNamed
  refine pred_ite ?_ ?_
  · refine State.pump_same _ ?_ _
    refine State.queueNamed_same _ ?_ _ _ _
    exact hs
  · refine State.queueNamed_same _ ?_ _ _ _
    exact hs

theorem State.incThr_same {s₀ : State} (s : State) (hs : Same s₀ s) (a : Nat) (n : Nat) (thr : Nat) (isl : Nat) (name : Nat) (arg : Nat) :
    Same s₀ (State.incThr s a n thr isl name arg) := by
  unfold State.incThr
  extract_lets -underBinder -merge -useContext +onlyGivenNames x1
  extract_lets -underBinder -merge -useContext +onlyGivenNames x2
  have h2 : Same s₀ x2 := by
    unfold x2
    refine State.inc_same _ ?_ _ _
    exact hs
  refine pred_ite ?_ ?_
  · refine State.logNamed_same _ ?_ _ _ _
    exact Same.upd h2
  · exact h2

theorem State.badCommand_same {s₀ : State} (s : State) (hs : Same s₀ s) (h : HostCmd) (cmd : Nat) (off : Nat) :
    Same s₀ (State.badCommand s h cmd off) := by
  unfold State.badCommand
  refine State.respond_same _ ?_ _ _ _ _ _
  exact hs

theorem State.badLen_same {s₀ : State} (s : State) (hs : Same s₀ s) (h : HostCmd) (cmd : Nat) :
    Same s₀ (State.badLen s h cmd) := by
  unfold State.badLen
  refine State.respond_same _ ?_ _ _ _ _ _
  refine In2.out ?_
  refine State.draw_same _ ?_
  exact hs

theorem State.setChan_same {s₀ : State} (s : State) (hs : Same s₀ s) (ch : Nat) (v : ChanSt) :
    Same s₀ (State.setChan s ch v) := by
  unfold State.setChan
  exact Same.upd hs

theorem State.incF_same {s₀ : State} (s : State) (hs : Same s₀ s) (a : Nat) (hi : Nat) (lo : Nat) :
    Same s₀ (State.incF s a hi lo) := by
  unfold State.incF
  refine State.setRegF_same _ ?_ _ _ _ _
  exact hs

theorem State.closeWindow_same {s₀ : State} (s : State) (hs : Same s₀ s) (cls : Nat) (obj : Nat) :
    Same s₀ (State.closeWindow s cls obj) := by
  unfold State.closeWindow
  exact Same.upd hs

theorem State.setFeed_same {s₀ : State} (s : State) (hs : Same s₀ s) (i : Nat) (v : Option Feed) :
    Same s₀ (State.setFeed s i v) := by
  unfold State.setFeed
  exact Same.upd hs

theorem State.conflict_same {s₀ : State} (s : State) (hs : Same s₀ s) (h : HostCmd) (cmd : Nat) :
    Same s₀ (State.conflict s h cmd) := by
  unfold State.conflict
  extract_lets -underBinder -merge -useContext +onlyGivenNames x1
  extract_lets -underBinder -merge -useContext +onlyGivenNames x2
  extract_lets -underBinder -merge -useContext +onlyGivenNames x3
  have h3 : Same s₀ x3 := by
    unfold x3
    refine State.count_same _ ?_ _ _ _ _
    refine State.inc_same _ ?_ _ _
    exact hs
  extract_lets -underBinder -merge -useContext +onlyGivenNames x4
  have h4 : Same s₀ x4 := by
    unfold x4
    refine State.sendEvent_same _ ?_ _ _
    refine State.addLog_same _ ?_ _ _ _
    exact h3
  refine State.respond_same _ ?_ _ _ _ _ _
  exact h4

theorem State.setDesc_same {s₀ : State} (s : State) (hs : Same s₀ s) (i : Nat) (v : Option DescSlot) :
    Same s₀ (State.setDesc s i v) := by
  unfold State.setDesc
  exact Same.upd hs

theorem State.setRxFlow_same {s₀ : State} (s : State) (hs : Same s₀ s) (f : Nat) (v : RxFlow) :
    Same s₀ (State.setRxFlow s f v) := by
  unfold State.setRxFlow
  exact Same.upd hs

theorem State.setAlloc_same {s₀ : State} (s : State) (hs : Same s₀ s) (i : Nat) (v : Option Alloc) :
    Same s₀ (State.setAlloc s i v) := by
  unfold State.setAlloc
  exact Same.upd hs

theorem State.setArb_same {s₀ : State} (s : State) (hs : Same s₀ s) (p : Nat) (v : Arb) :
    Same s₀ (State.setArb s p v) := by
  unfold State.setArb
  exact Same.upd hs

end Sys2Proof.Machine
end

