-- ==== Sys2Proof/Laws/SameStore.lean ====
section
/-! SUPPORT. Which of memory and allocations store nothing (`Same`), one lemma for each. -/

namespace Sys2Proof.Machine

open Sys2Proof

theorem State.countAccess_same {s₀ : State} (s : State) (hs : Same s₀ s) (write : Bool) (a : Nat) (n : Nat) :
    Same s₀ (State.countAccess s write a n) := by
  unfold State.countAccess
  refine pred_ite ?_ ?_
  · refine pred_foldl ?_ ?_
    · intro x1 h1 a1
      refine State.count_same _ ?_ _ _ _ _
      exact h1
    · exact hs
  · refine State.count_same _ ?_ _ _ _ _
    exact hs

theorem State.noteBurst_same {s₀ : State} (s : State) (hs : Same s₀ s) (a : Nat) (kind : Nat) :
    Same s₀ (State.noteBurst s a kind) := by
  unfold State.noteBurst
  extract_lets -underBinder -merge -useContext +onlyGivenNames x1
  extract_lets -underBinder -merge -useContext +onlyGivenNames x2
  extract_lets -underBinder -merge -useContext +onlyGivenNames x3
  have h3 : Same s₀ x3 := by
    unfold x3
    refine State.setReg_same _ ?_ _ _
    exact hs
  extract_lets -underBinder -merge -useContext +onlyGivenNames x4
  have h4 : Same s₀ x4 := by
    unfold x4
    refine State.setReg_same _ ?_ _ _
    exact h3
  refine State.count_same _ ?_ _ _ _ _
  refine State.inc_same _ ?_ _ _
  exact h4

theorem State.readUnit_same {s₀ : State} (s : State) (hs : Same s₀ s) (u : Nat) :
    Same s₀ (State.readUnit s u) := by
  unfold State.readUnit
  extract_lets -underBinder -merge -useContext +onlyGivenNames x1
  have h1 : Same s₀ x1 := by
    unfold x1
    refine State.countAccess_same _ ?_ _ _ _
    exact hs
  refine pred_ite ?_ ?_
  · exact h1
  · refine pred_ite ?_ ?_
    · refine State.noteBurst_same _ ?_ _ _
      exact h1
    · refine State.inc_same _ ?_ _ _
      exact h1

theorem State.readRange_same {s₀ : State} (s : State) (hs : Same s₀ s) (a : Nat) (n : Nat) :
    Same s₀ (State.readRange s a n) := by
  unfold State.readRange
  refine pred_foldl ?_ ?_
  · intro x1 h1 a1
    refine State.readUnit_same _ ?_ _
    exact h1
  · exact hs

theorem State.countBypass_same {s₀ : State} (s : State) (hs : Same s₀ s) (w : Writer) (a : Nat) (n : Nat) :
    Same s₀ (State.countBypass s w a n) := by
  unfold State.countBypass
  refine pred_ite ?_ ?_
  · exact hs
  · split
    · refine pred_ite ?_ ?_
      · refine pred_foldl ?_ ?_
        · intro x3 h3 a3
          refine State.inc_same _ ?_ _ _
          exact h3
        · exact hs
      · exact hs
    · exact hs

theorem State.snoop_same {s₀ : State} (s : State) (hs : Same s₀ s) (d : Nat) (own : Bool) (a : Nat) (bytes : List Byte) :
    Same s₀ (State.snoop s d own a bytes) := by
  unfold State.snoop
  extract_lets -underBinder -merge -useContext +onlyGivenNames x1
  extract_lets -underBinder -merge -useContext +onlyGivenNames x2
  extract_lets -underBinder -merge -useContext +onlyGivenNames x3
  refine pred_ite ?_ ?_
  · exact hs
  · refine pred_ite ?_ ?_
    · extract_lets -underBinder -merge -useContext +onlyGivenNames x4
      refine State.setDie_same _ ?_ _ _
      exact hs
    · refine State.count_same _ ?_ _ _ _ _
      refine State.inc_same _ ?_ _ _
      refine State.setDie_same _ ?_ _ _
      exact hs

theorem State.createDesc_same {s₀ : State} (s : State) (hs : Same s₀ s) (groups : List ShardGroup) (byLoader : Bool) (h : Nat) (v : Nat) :
    In1 (Same s₀) (State.createDesc s groups byLoader h v) := by
  unfold State.createDesc
  split
  · refine In1.mk ?_
    refine State.setDesc_same _ ?_ _ _
    exact hs
  · refine In1.mk ?_
    refine State.inc_same _ ?_ _ _
    refine State.setReg_same _ ?_ _ _
    exact hs

theorem State.freeAlloc_same {s₀ : State} (s : State) (hs : Same s₀ s) (id : Nat) :
    Same s₀ (State.freeAlloc s id) := by
  unfold State.freeAlloc
  split
  · exact hs
  · extract_lets -underBinder -merge -useContext +onlyGivenNames x3
    have h3 : Same s₀ x3 := by
      unfold x3
      refine State.setAlloc_same _ ?_ _ _
      exact hs
    refine pred_ite ?_ ?_
    · exact Same.upd h3
    · exact h3

theorem State.readRanges_same {s₀ : State} (s : State) (hs : Same s₀ s) (l : List (Nat × Nat)) :
    Same s₀ (State.readRanges s l) := by
  unfold State.readRanges
  refine pred_foldl ?_ ?_
  · intro x1 h1 a1
    refine State.readRange_same _ ?_ _ _
    exact h1
  · exact hs

end Sys2Proof.Machine
end

