-- ==== Sys2Proof/Laws/SameCounters.lean ====
section
/-! SUPPORT. Which of event counters store nothing (`Same`), one lemma for each. -/

namespace Sys2Proof.Machine

open Sys2Proof

theorem State.snapOne_same {s₀ : State} (s : State) (hs : Same s₀ s) (b : Nat) (clr : Bool) (i : Nat) :
    Same s₀ (State.snapOne s b clr i) := by
  unfold State.snapOne
  refine pred_ite ?_ ?_
  · extract_lets -underBinder -merge -useContext +onlyGivenNames x1
    have h1 : Same s₀ x1 := by
      unfold x1
      refine State.setReg48_same _ ?_ _ _ _
      exact hs
    refine pred_ite ?_ ?_
    · refine State.setEvcCount_same _ ?_ _ _ _
      exact h1
    · exact h1
  · exact hs

theorem State.evcSnap_same {s₀ : State} (s : State) (hs : Same s₀ s) (b : Nat) (cause : Nat) :
    Same s₀ (State.evcSnap s b cause) := by
  unfold State.evcSnap
  extract_lets -underBinder -merge -useContext +onlyGivenNames x1
  extract_lets -underBinder -merge -useContext +onlyGivenNames x2
  have h2 : Same s₀ x2 := by
    unfold x2
    refine pred_foldl ?_ ?_
    · intro x3 h3 a3
      refine State.snapOne_same _ ?_ _ _ _
      exact h3
    · exact hs
  extract_lets -underBinder -merge -useContext +onlyGivenNames x4
  refine State.setReg_same _ ?_ _ _
  refine State.setReg_same _ ?_ _ _
  exact h2

theorem State.islandStep_same {s₀ : State} (s : State) (hs : Same s₀ s) (i : Nat) (k : Word) :
    Same s₀ (State.islandStep s i k) := by
  unfold State.islandStep
  extract_lets -underBinder -merge -useContext +onlyGivenNames x1
  have h1 : Same s₀ x1 := by
    unfold x1
    refine pred_ite ?_ ?_
    · refine State.evcSnap_same _ ?_ _ _
      exact hs
    · exact hs
  refine State.setIsland_same _ ?_ _ _
  exact h1

theorem State.evcBroadcast_same {s₀ : State} (s : State) (hs : Same s₀ s) (clr : Bool) :
    Same s₀ (State.evcBroadcast s clr) := by
  unfold State.evcBroadcast
  exact Same.upd hs

theorem State.evcClear_same {s₀ : State} (s : State) (hs : Same s₀ s) (b : Nat) :
    Same s₀ (State.evcClear s b) := by
  unfold State.evcClear
  refine pred_foldl ?_ ?_
  · intro x1 h1 a1
    refine State.setRegF_same _ ?_ _ _ _ _
    refine State.setEvcCount_same _ ?_ _ _ _
    exact h1
  · exact hs

theorem State.evcOver_same {s₀ : State} (s : State) (hs : Same s₀ s) (b : Nat) (i : Nat) (n : Nat) :
    Same s₀ (State.evcOver s b i n) := by
  unfold State.evcOver
  extract_lets -underBinder -merge -useContext +onlyGivenNames x1
  have h1 : Same s₀ x1 := by
    unfold x1
    refine State.evcAdd_same _ ?_ _ _ _
    refine In2.out ?_
    refine State.draw_same _ ?_
    exact hs
  refine pred_ite ?_ ?_
  · exact h1
  · refine State.pump_same _ ?_ _
    exact h1

theorem State.evcWriteHi_same {s₀ : State} (s : State) (hs : Same s₀ s) (b : Nat) (i : Nat) (v : Word) :
    Same s₀ (State.evcWriteHi s b i v) := by
  unfold State.evcWriteHi
  exact Same.upd hs

theorem State.evcWriteLo_same {s₀ : State} (s : State) (hs : Same s₀ s) (b : Nat) (i : Nat) (v : Word) :
    Same s₀ (State.evcWriteLo s b i v) := by
  unfold State.evcWriteLo
  refine State.setEvcCount_same _ ?_ _ _ _
  exact hs

theorem State.unmapped_same {s₀ : State} (s : State) (hs : Same s₀ s) (addr : Nat) (write : Bool) :
    Same s₀ (State.unmapped s addr write) := by
  unfold State.unmapped
  refine State.setReg_same _ ?_ _ _
  refine State.inc_same _ ?_ _ _
  exact hs

theorem execClear_same {s₀ : State} (b : Block) (s : State) (hs : Same s₀ s) :
    InOut (Same s₀) (execClear b s) := by
  unfold execClear
  refine InOut.next ?_
  refine State.evcClear_same _ ?_ _
  exact hs

theorem execClearAll_same {s₀ : State} (s : State) (hs : Same s₀ s) :
    InOut (Same s₀) (execClearAll s) := by
  unfold execClearAll
  refine InOut.next ?_
  refine State.evcBroadcast_same _ ?_ _
  exact hs

theorem execEvcBroadcastArrive_same {s₀ : State} (b : Block) (s : State) (hs : Same s₀ s) :
    InOut (Same s₀) (execEvcBroadcastArrive b s) := by
  unfold execEvcBroadcastArrive
  split
  · refine InOut.next ?_
    exact hs
  · refine pred_ite ?_ ?_
    · extract_lets -underBinder -merge -useContext +onlyGivenNames x3
      have h3 : Same s₀ x3 := by
        unfold x3
        exact Same.upd hs
      refine InOut.next ?_
      refine pred_ite ?_ ?_
      · refine State.evcClear_same _ ?_ _
        exact h3
      · refine State.evcSnap_same _ ?_ _ _
        exact h3
    · refine InOut.next ?_
      exact hs

theorem execEvcCntHiWrite_same {s₀ : State} (b : Block) (i : Fin 32) (v : Word) (s : State) (hs : Same s₀ s) :
    InOut (Same s₀) (execEvcCntHiWrite b i v s) := by
  unfold execEvcCntHiWrite
  refine InOut.next ?_
  refine pred_ite ?_ ?_
  · refine State.evcWriteHi_same _ ?_ _ _ _
    exact hs
  · refine State.unmapped_same _ ?_ _ _
    exact hs

theorem execEvcCntLoWrite_same {s₀ : State} (b : Block) (i : Fin 32) (v : Word) (s : State) (hs : Same s₀ s) :
    InOut (Same s₀) (execEvcCntLoWrite b i v s) := by
  unfold execEvcCntLoWrite
  refine InOut.next ?_
  refine pred_ite ?_ ?_
  · refine State.evcWriteLo_same _ ?_ _ _ _
    exact hs
  · refine State.unmapped_same _ ?_ _ _
    exact hs

theorem execEvcOvf_same {s₀ : State} (b : Block) (i : Fin 32) (s : State) (hs : Same s₀ s) :
    InOut (Same s₀) (execEvcOvf b i s) := by
  unfold execEvcOvf
  extract_lets -underBinder -merge -useContext +onlyGivenNames x1
  extract_lets -underBinder -merge -useContext +onlyGivenNames x2
  split
  · extract_lets -underBinder -merge -useContext +onlyGivenNames x6
    refine pred_ite ?_ ?_
    · refine InOut.next ?_
      refine State.evcOver_same _ ?_ _ _ _
      exact hs
    · refine InOut.next ?_
      exact hs
  · refine InOut.next ?_
    exact hs

theorem execSnap_same {s₀ : State} (b : Block) (s : State) (hs : Same s₀ s) :
    InOut (Same s₀) (execSnap b s) := by
  unfold execSnap
  refine InOut.next ?_
  refine State.evcSnap_same _ ?_ _ _
  exact hs

theorem execSnapAll_same {s₀ : State} (s : State) (hs : Same s₀ s) :
    InOut (Same s₀) (execSnapAll s) := by
  unfold execSnapAll
  refine InOut.next ?_
  refine State.evcBroadcast_same _ ?_ _
  exact hs

theorem execUnmappedAccess_same {s₀ : State} (addr : BitVec 32) (write : Bool) (s : State) (hs : Same s₀ s) :
    InOut (Same s₀) (execUnmappedAccess addr write s) := by
  unfold execUnmappedAccess
  refine InOut.next ?_
  refine pred_ite ?_ ?_
  · refine State.unmapped_same _ ?_ _ _
    exact hs
  · exact hs

end Sys2Proof.Machine
end

