-- ==== Sys2Proof/Laws/SameControl.lean ====
section
/-! SUPPORT. Which of the command queue words store nothing (`Same`), one lemma for each. -/

namespace Sys2Proof.Machine

open Sys2Proof

theorem State.abandonSteps_same {s₀ : State} (s : State) (hs : Same s₀ s) :
    Same s₀ (State.abandonSteps s) := by
  unfold State.abandonSteps
  exact Same.upd hs

theorem State.sendCore_same {s₀ : State} (s : State) (hs : Same s₀ s) (c : Nat) (ws : List CmdWord) :
    Same s₀ (State.sendCore s c ws) := by
  unfold State.sendCore
  extract_lets -underBinder -merge -useContext +onlyGivenNames x1
  refine pred_ite ?_ ?_
  · refine State.setCore_same _ ?_ _ _
    exact hs
  · refine State.setCore_same _ ?_ _ _
    exact hs

theorem State.sendCmd_same {s₀ : State} (s : State) (hs : Same s₀ s) (c : Nat) (w : CmdWord) :
    Same s₀ (State.sendCmd s c w) := by
  unfold State.sendCmd
  extract_lets -underBinder -merge -useContext +onlyGivenNames x1
  have h1 : Same s₀ x1 := by
    unfold x1
    refine State.sendCore_same _ ?_ _ _
    exact hs
  exact Same.upd h1

theorem State.sendMb_same {s₀ : State} (s : State) (hs : Same s₀ s) (e : Sched) (replay : Bool) :
    Same s₀ (State.sendMb s e replay) := by
  unfold State.sendMb
  split
  · extract_lets -underBinder -merge -useContext +onlyGivenNames x2
    have h2 : Same s₀ x2 := by
      unfold x2
      refine State.sendCmd_same _ ?_ _ _
      exact hs
    exact Same.upd h2
  · exact hs

theorem State.replayPhase_same {s₀ : State} (s : State) (hs : Same s₀ s) (e : Sched) :
    Same s₀ (State.replayPhase s e) := by
  unfold State.replayPhase
  extract_lets -underBinder -merge -useContext +onlyGivenNames x1
  extract_lets -underBinder -merge -useContext +onlyGivenNames x2 x3
  have h3 : Same s₀ x3 := by
    unfold x3
    exact Same.upd hs
  refine State.sendMb_same _ ?_ _ _
  refine State.inc_same _ ?_ _ _
  exact h3

theorem State.startStepReplay_same {s₀ : State} (s : State) (hs : Same s₀ s) :
    Same s₀ (State.startStepReplay s) := by
  unfold State.startStepReplay
  refine State.inc_same _ ?_ _ _
  exact Same.upd hs

theorem State.breachOpen_same {s₀ : State} (s : State) (hs : Same s₀ s) (i : Nat) (b : BreachInfo) :
    Same s₀ (State.breachOpen s i b) := by
  unfold State.breachOpen
  refine State.breach_same _ ?_ _ _
  refine In2.out ?_
  refine State.draw_same _ ?_
  exact hs

theorem State.taint_same {s₀ : State} (s : State) (hs : Same s₀ s) (i : Nat) (polder : Nat) (cause : Option Cause) (step : Nat) (group : Nat) :
    Same s₀ (State.taint s i polder cause step group) := by
  unfold State.taint
  refine pred_ite ?_ ?_
  · exact hs
  · extract_lets -underBinder -merge -useContext +onlyGivenNames x1
    extract_lets -underBinder -merge -useContext +onlyGivenNames x2
    have h2 : Same s₀ x2 := by
      unfold x2
      refine State.inc_same _ ?_ _ _
      refine State.breachOpen_same _ ?_ _ _
      exact hs
    refine pred_ite ?_ ?_
    · exact Same.upd h2
    · exact Same.upd h2

theorem State.absorbPhase_same {s₀ : State} (s : State) (hs : Same s₀ s) (e : Sched) (c : Nat) (cause : Option Cause) :
    In1 (Same s₀) (State.absorbPhase s e c cause) := by
  unfold State.absorbPhase
  split
  · refine In1.mk ?_
    refine State.replayPhase_same _ ?_ _
    exact hs
  · refine In1.mk ?_
    refine State.startStepReplay_same _ ?_
    exact hs
  · refine In1.mk ?_
    refine pred_foldl ?_ ?_
    · intro x4 h4 a4
      refine State.taint_same _ ?_ _ _ _ _ _
      exact h4
    · exact hs

theorem State.forgetResults_same {s₀ : State} (s : State) (hs : Same s₀ s) (above : Nat) :
    Same s₀ (State.forgetResults s above) := by
  unfold State.forgetResults
  refine pred_foldl ?_ ?_
  · intro x1 h1 a1
    split
    · refine State.setWindow_same _ ?_ _ _
      exact h1
    · exact h1
  · exact hs

theorem State.standbyTakes_same {s₀ : State} (s : State) (hs : Same s₀ s) :
    Same s₀ (State.standbyTakes s) := by
  unfold State.standbyTakes
  refine State.abandonSteps_same _ ?_
  exact Same.upd hs

theorem State.answerHolds_same {s₀ : State} (s : State) (hs : Same s₀ s) (status : Nat) (detail : Nat) :
    Same s₀ (State.answerHolds s status detail) := by
  unfold State.answerHolds
  extract_lets -underBinder -merge -useContext +onlyGivenNames x1
  extract_lets -underBinder -merge -useContext +onlyGivenNames x2 x3
  have h3 : Same s₀ x3 := by
    unfold x3
    exact Same.upd hs
  refine State.setRegF_same _ ?_ _ _ _ _
  refine pred_foldl ?_ ?_
  · intro x4 h4 a4
    refine State.respond_same _ ?_ _ _ _ _ _
    exact h4
  · exact h3

theorem State.enterHolding_same {s₀ : State} (s : State) (hs : Same s₀ s) (cause : Nat) :
    Same s₀ (State.enterHolding s cause) := by
  unfold State.enterHolding
  extract_lets -underBinder -merge -useContext +onlyGivenNames x1 x2
  have h2 : Same s₀ x2 := by
    unfold x2
    exact Same.upd hs
  refine State.answerHolds_same _ ?_ _ _
  refine State.setMode_same _ ?_ _
  refine State.setRegF_same _ ?_ _ _ _ _
  exact h2

theorem State.dropEngines_same {s₀ : State} (s : State) (hs : Same s₀ s) :
    Same s₀ (State.dropEngines s) := by
  unfold State.dropEngines
  extract_lets -underBinder -merge -useContext +onlyGivenNames x1
  extract_lets -underBinder -merge -useContext +onlyGivenNames x2
  have h2 : Same s₀ x2 := by
    unfold x2
    refine pred_foldl ?_ ?_
    · intro x3 h3 a3
      extract_lets -underBinder -merge -useContext +onlyGivenNames x4
      extract_lets -underBinder -merge -useContext +onlyGivenNames x5
      have h5 : Same s₀ x5 := by
        unfold x5
        refine pred_ite ?_ ?_
        · refine State.setRegF_same _ ?_ _ _ _ _
          refine State.setRegF_same _ ?_ _ _ _ _
          exact h3
        · exact h3
      refine State.setEngine_same _ ?_ _ _
      exact h5
    · exact hs
  extract_lets -underBinder -merge -useContext +onlyGivenNames x6
  have h6 : Same s₀ x6 := by
    unfold x6
    refine pred_foldl ?_ ?_
    · intro x7 h7 a7
      refine State.setReg_same _ ?_ _ _
      exact h7
    · exact h2
  extract_lets -underBinder -merge -useContext +onlyGivenNames x8
  extract_lets -underBinder -merge -useContext +onlyGivenNames x9
  exact Same.upd h6

theorem State.giveUp_same {s₀ : State} (s : State) (hs : Same s₀ s) :
    Same s₀ (State.giveUp s) := by
  unfold State.giveUp
  extract_lets -underBinder -merge -useContext +onlyGivenNames x1
  have h1 : Same s₀ x1 := by
    unfold x1
    refine State.forgetResults_same _ ?_ _
    refine State.dropEngines_same _ ?_
    refine State.abandonSteps_same _ ?_
    exact hs
  exact Same.upd h1

theorem State.pairLoss_same {s₀ : State} (s : State) (hs : Same s₀ s) (i : Nat) (cause : Option Cause) (polder : Nat) (obj : Nat) (addr : Nat) :
    Same s₀ (State.pairLoss s i cause polder obj addr) := by
  unfold State.pairLoss
  extract_lets -underBinder -merge -useContext +onlyGivenNames x1
  have h1 : Same s₀ x1 := by
    unfold x1
    refine State.breachOpen_same _ ?_ _ _
    exact hs
  extract_lets -underBinder -merge -useContext +onlyGivenNames x2
  have h2 : Same s₀ x2 := by
    unfold x2
    refine State.announce_same _ ?_ _ _ _ _
    refine State.setRegF_same _ ?_ _ _ _ _
    exact h1
  refine pred_ite ?_ ?_
  · refine State.enterHolding_same _ ?_ _
    refine State.giveUp_same _ ?_
    exact h2
  · exact h2

theorem State.polderLoss_same {s₀ : State} (s : State) (hs : Same s₀ s) (i : Nat) (polder : Nat) (obj : Nat) (detail : Option Nat) :
    Same s₀ (State.polderLoss s i polder obj detail) := by
  unfold State.polderLoss
  refine pred_ite ?_ ?_
  · exact hs
  · extract_lets -underBinder -merge -useContext +onlyGivenNames x1
    extract_lets -underBinder -merge -useContext +onlyGivenNames x2
    have h2 : Same s₀ x2 := by
      unfold x2
      refine pred_ite ?_ ?_
      · refine State.standbyTakes_same _ ?_
        exact hs
      · exact hs
    extract_lets -underBinder -merge -useContext +onlyGivenNames x3
    extract_lets -underBinder -merge -useContext +onlyGivenNames x4
    have h4 : Same s₀ x4 := by
      unfold x4
      refine pred_ite ?_ ?_
      · refine State.pairLoss_same _ ?_ _ _ _ _ _
        exact h2
      · exact h2
    extract_lets -underBinder -merge -useContext +onlyGivenNames x5
    extract_lets -underBinder -merge -useContext +onlyGivenNames x6
    have h6 : Same s₀ x6 := by
      unfold x6
      split
      · refine State.breach_same _ ?_ _ _
        exact h4
      · refine State.breachOpen_same _ ?_ _ _
        exact h4
    extract_lets -underBinder -merge -useContext +onlyGivenNames x9
    have h9 : Same s₀ x9 := by
      unfold x9
      exact Same.upd h6
    refine pred_ite ?_ ?_
    · refine State.answerHolds_same _ ?_ _ _
      refine State.setMode_same _ ?_ _
      exact Same.upd h9
    · exact h9

theorem State.sendBind_same {s₀ : State} (s : State) (hs : Same s₀ s) (n : Nat) :
    Same s₀ (State.sendBind s n) := by
  unfold State.sendBind
  split
  · refine State.sendCmd_same _ ?_ _ _
    exact hs
  · exact hs

theorem State.takeover_same {s₀ : State} (s : State) (hs : Same s₀ s) (c : Nat) (spare : Nat) (stageNo : Nat) :
    Same s₀ (State.takeover s c spare stageNo) := by
  unfold State.takeover
  extract_lets -underBinder -merge -useContext +onlyGivenNames x1
  extract_lets -underBinder -merge -useContext +onlyGivenNames x2
  have h2 : Same s₀ x2 := by
    unfold x2
    refine State.ungate_same _ ?_ _
    exact hs
  extract_lets -underBinder -merge -useContext +onlyGivenNames x3
  have h3 : Same s₀ x3 := by
    unfold x3
    refine State.setRegF_same _ ?_ _ _ _ _
    exact h2
  extract_lets -underBinder -merge -useContext +onlyGivenNames x4
  have h4 : Same s₀ x4 := by
    unfold x4
    split
    · extract_lets -underBinder -merge -useContext +onlyGivenNames x6
      exact Same.upd h3
    · exact h3
  extract_lets -underBinder -merge -useContext +onlyGivenNames x8 x9
  have h9 : Same s₀ x9 := by
    unfold x9
    exact Same.upd h4
  extract_lets -underBinder -merge -useContext +onlyGivenNames x10
  have h10 : Same s₀ x10 := by
    unfold x10
    refine State.sendCmd_same _ ?_ _ _
    refine State.sendBind_same _ ?_ _
    exact h9
  refine State.setReg_same _ ?_ _ _
  refine State.inc_same _ ?_ _ _
  exact h10

theorem State.loseCore_same {s₀ : State} (s : State) (hs : Same s₀ s) (c : Nat) :
    Same s₀ (State.loseCore s c) := by
  unfold State.loseCore
  extract_lets -underBinder -merge -useContext +onlyGivenNames x1
  extract_lets -underBinder -merge -useContext +onlyGivenNames x2
  extract_lets -underBinder -merge -useContext +onlyGivenNames x3
  have h3 : Same s₀ x3 := by
    unfold x3
    refine State.enterReset_same _ ?_ _ _
    exact hs
  extract_lets -underBinder -merge -useContext +onlyGivenNames x4 x5
  have h5 : Same s₀ x5 := by
    unfold x5
    refine State.setCore_same _ ?_ _ _
    exact h3
  extract_lets -underBinder -merge -useContext +onlyGivenNames x6
  have h6 : Same s₀ x6 := by
    unfold x6
    refine State.setRegF_same _ ?_ _ _ _ _
    refine State.setPstate_same _ ?_ _ _
    exact h5
  extract_lets -underBinder -merge -useContext +onlyGivenNames x7
  have h7 : Same s₀ x7 := by
    unfold x7
    exact Same.upd h6
  refine pred_ite ?_ ?_
  · refine State.polderLoss_same _ ?_ _ _ _ _
    exact h7
  · split
    · exact h7
    · split
      · refine State.openWindow_same _ ?_ _ _ _
        refine State.takeover_same _ ?_ _ _ _
        exact h7
      · exact h7

theorem State.coreFail_same {s₀ : State} (s : State) (hs : Same s₀ s) (i : Nat) (cause : Option Cause) (c : Nat) :
    Same s₀ (State.coreFail s i cause c) := by
  unfold State.coreFail
  extract_lets -underBinder -merge -useContext +onlyGivenNames x1
  extract_lets -underBinder -merge -useContext +onlyGivenNames x2
  have h2 : Same s₀ x2 := by
    unfold x2
    refine State.breachOpen_same _ ?_ _ _
    exact hs
  refine pred_ite ?_ ?_
  · exact h2
  · refine State.loseCore_same _ ?_ _
    exact h2

theorem State.poisonedPhase_same {s₀ : State} (s : State) (hs : Same s₀ s) (e : Sched) (c : Nat) :
    In1 (Same s₀) (State.poisonedPhase s e c) := by
  unfold State.poisonedPhase
  split
  · refine In1.mk ?_
    exact hs
  · extract_lets -underBinder -merge -useContext +onlyGivenNames x3
    refine pred_ite ?_ ?_
    · extract_lets -underBinder -merge -useContext +onlyGivenNames x4
      refine In1.mk ?_
      refine State.coreFail_same _ ?_ _ _ _
      exact Same.upd hs
    · extract_lets -underBinder -merge -useContext +onlyGivenNames x5
      extract_lets -underBinder -merge -useContext +onlyGivenNames x6
      extract_lets -underBinder -merge -useContext +onlyGivenNames x7
      have h7 : Same s₀ x7 := by
        unfold x7
        refine State.breachOpen_same _ ?_ _ _
        exact hs
      refine pred_ite ?_ ?_
      · refine In1.mk ?_
        exact Same.upd h7
      · refine State.absorbPhase_same _ ?_ _ _ _
        exact h7

theorem State.taintNow_same {s₀ : State} (s : State) (hs : Same s₀ s) (group : Nat) :
    Same s₀ (State.taintNow s group) := by
  unfold State.taintNow
  split
  · exact Same.upd hs
  · exact hs

theorem State.dropMirror_same {s₀ : State} (s : State) (hs : Same s₀ s) :
    Same s₀ (State.dropMirror s) := by
  unfold State.dropMirror
  extract_lets -underBinder -merge -useContext +onlyGivenNames x1
  have h1 : Same s₀ x1 := by
    unfold x1
    refine pred_foldl ?_ ?_
    · intro x2 h2 a2
      refine State.setEngine_same _ ?_ _ _
      exact h2
    · exact hs
  exact Same.upd h1

theorem State.failRestore_same {s₀ : State} (s : State) (hs : Same s₀ s) (cause : Option Cause) (addr : Nat) :
    Same s₀ (State.failRestore s cause addr) := by
  unfold State.failRestore
  refine pred_ite ?_ ?_
  · refine State.pairLoss_same _ ?_ _ _ _ _ _
    refine State.closeWindow_same _ ?_ _ _
    refine State.setReg_same _ ?_ _ _
    exact Same.upd hs
  · exact hs

theorem State.twinBreach_same {s₀ : State} (s : State) (hs : Same s₀ s) (detail : Option Nat) :
    Same s₀ (State.twinBreach s detail) := by
  unfold State.twinBreach
  extract_lets -underBinder -merge -useContext +onlyGivenNames x1
  extract_lets -underBinder -merge -useContext +onlyGivenNames x2
  have h2 : Same s₀ x2 := by
    unfold x2
    split
    · refine State.breach_same _ ?_ _ _
      exact hs
    · refine State.breachOpen_same _ ?_ _ _
      exact hs
  extract_lets -underBinder -merge -useContext +onlyGivenNames x5
  refine State.announce_same _ ?_ _ _ _ _
  exact h2

theorem State.loseTwin_same {s₀ : State} (s : State) (hs : Same s₀ s) (detail : Option Nat) :
    Same s₀ (State.loseTwin s detail) := by
  unfold State.loseTwin
  extract_lets -underBinder -merge -useContext +onlyGivenNames x1
  refine pred_ite ?_ ?_
  · refine pred_ite ?_ ?_
    · refine State.failRestore_same _ ?_ _ _
      refine State.dropMirror_same _ ?_
      refine State.twinBreach_same _ ?_ _
      refine State.setRegF_same _ ?_ _ _ _ _
      refine State.setReg48_same _ ?_ _ _ _
      exact Same.upd hs
    · refine pred_ite ?_ ?_
      · refine State.failRestore_same _ ?_ _ _
        refine State.twinBreach_same _ ?_ _
        exact hs
      · exact hs
  · extract_lets -underBinder -merge -useContext +onlyGivenNames x2
    have h2 : Same s₀ x2 := by
      unfold x2
      refine State.dropMirror_same _ ?_
      refine State.openWindow_same _ ?_ _ _ _
      refine State.setRegF_same _ ?_ _ _ _ _
      refine State.twinBreach_same _ ?_ _
      exact hs
    extract_lets -underBinder -merge -useContext +onlyGivenNames x3
    have h3 : Same s₀ x3 := by
      unfold x3
      refine State.failRestore_same _ ?_ _ _
      exact h2
    refine pred_ite ?_ ?_
    · refine State.pairLoss_same _ ?_ _ _ _ _ _
      exact h3
    · exact h3

theorem execBridgeFail_same {s₀ : State} (b : Fin 13) (dir : Fin 2) (lostLock : Bool) (s : State) (hs : Same s₀ s) :
    InOut (Same s₀) (execBridgeFail b dir lostLock s) := by
  unfold execBridgeFail
  extract_lets -underBinder -merge -useContext +onlyGivenNames x1
  extract_lets -underBinder -merge -useContext +onlyGivenNames x2
  extract_lets -underBinder -merge -useContext +onlyGivenNames x3
  refine pred_ite ?_ ?_
  · extract_lets -underBinder -merge -useContext +onlyGivenNames x4
    refine InOut.next ?_
    refine State.polderLoss_same _ ?_ _ _ _ _
    refine State.setBridge_same _ ?_ _ _
    exact hs
  · refine InOut.next ?_
    exact hs

theorem execIslandStepBegin_same {s₀ : State} (i : Isl) (s : State) (hs : Same s₀ s) :
    InOut (Same s₀) (execIslandStepBegin i s) := by
  unfold execIslandStepBegin
  split
  · refine InOut.next ?_
    exact hs
  · refine pred_ite ?_ ?_
    · refine InOut.next ?_
      refine State.addLogBy_same _ ?_ _ _ _ _
      refine State.islandStep_same _ ?_ _ _
      exact Same.upd hs
    · refine InOut.next ?_
      exact hs

end Sys2Proof.Machine
end

