-- ==== Sys2Proof/Laws/SameViews.lean ====
section
/-! SUPPORT. Which of register views store nothing (`Same`), one lemma for each. -/

namespace Sys2Proof.Machine

open Sys2Proof

theorem State.clearRc_same {s₀ : State} (s : State) (hs : Same s₀ s) (a : Nat) (rc : Nat) :
    Same s₀ (State.clearRc s a rc) := by
  unfold State.clearRc
  refine pred_ite ?_ ?_
  · exact hs
  · extract_lets -underBinder -merge -useContext +onlyGivenNames x1
    have h1 : Same s₀ x1 := by
      unfold x1
      refine State.setReg_same _ ?_ _ _
      exact hs
    exact Same.upd h1

theorem State.setLatch_same {s₀ : State} (s : State) (hs : Same s₀ s) (acc : Nat) (v : Option (Nat × Word)) :
    Same s₀ (State.setLatch s acc v) := by
  unfold State.setLatch
  exact Same.upd hs

theorem State.readAudMiss_same {s₀ : State} (s : State) (hs : Same s₀ s) (d : Nat) (l : Nat) :
    In2 (Same s₀) (State.readAudMiss s d l) := by
  unfold State.readAudMiss
  extract_lets -underBinder -merge -useContext +onlyGivenNames x1
  split
  · extract_lets -underBinder -merge -useContext +onlyGivenNames x4
    have h4 : Same s₀ x4 := by
      unfold x4
      refine State.setReg_same _ ?_ _ _
      refine State.setLatch_same _ ?_ _ _
      exact hs
    refine In2.mk ?_
    exact Same.upd h4
  · refine In2.mk ?_
    refine State.clearRc_same _ ?_ _ _
    exact hs

theorem State.readAudRows_same {s₀ : State} (s : State) (hs : Same s₀ s) (d : Nat) (l : Nat) :
    In2 (Same s₀) (State.readAudRows s d l) := by
  unfold State.readAudRows
  extract_lets -underBinder -merge -useContext +onlyGivenNames x1
  extract_lets -underBinder -merge -useContext +onlyGivenNames x2
  refine In2.mk ?_
  refine State.clearRc_same _ ?_ _ _
  refine State.setLatch_same _ ?_ _ _
  exact hs

theorem State.readPlain_same {s₀ : State} (s : State) (hs : Same s₀ s) (acc : Nat) (a : Nat) (r : RegRow) :
    In2 (Same s₀) (State.readPlain s acc a r) := by
  unfold State.readPlain
  extract_lets -underBinder -merge -useContext +onlyGivenNames x1
  refine pred_ite ?_ ?_
  · refine In2.mk ?_
    refine State.clearRc_same _ ?_ _ _
    refine State.setLatch_same _ ?_ _ _
    exact hs
  · split
    · refine pred_ite ?_ ?_
      · refine In2.mk ?_
        refine State.clearRc_same _ ?_ _ _
        refine State.setLatch_same _ ?_ _ _
        exact hs
      · refine In2.mk ?_
        refine State.clearRc_same _ ?_ _ _
        exact hs
    · refine In2.mk ?_
      refine State.clearRc_same _ ?_ _ _
      exact hs

theorem State.readReg_same {s₀ : State} (s : State) (hs : Same s₀ s) (acc : Nat) (a : Nat) :
    In2 (Same s₀) (State.readReg s acc a) := by
  unfold State.readReg
  split
  · refine In2.mk ?_
    refine State.unmapped_same _ ?_ _ _
    exact hs
  · split
    · refine State.readAudMiss_same _ ?_ _ _
      exact hs
    · refine State.readAudRows_same _ ?_ _ _
      exact hs
    · refine State.readPlain_same _ ?_ _ _ _
      exact hs

theorem State.readTo_same {s₀ : State} (s : State) (hs : Same s₀ s) (acc : Nat) (a : Nat) :
    Same s₀ (State.readTo s acc a) := by
  unfold State.readTo
  extract_lets -underBinder -merge -useContext +onlyGivenNames x1
  have h1 : In2 (Same s₀) x1 := by
    unfold x1
    refine State.readReg_same _ ?_ _ _
    exact hs
  extract_lets -underBinder -merge -useContext +onlyGivenNames x2
  have h2 : Same s₀ x2 := by
    unfold x2
    exact h1.out
  exact Same.upd h2

theorem execPrdAudMissRead_same {s₀ : State} (a : Accessor) (d : Die) (l : Fin 256) (s : State) (hs : Same s₀ s) :
    InOut (Same s₀) (execPrdAudMissRead a d l s) := by
  unfold execPrdAudMissRead
  refine InOut.next ?_
  refine State.readTo_same _ ?_ _ _
  exact hs

theorem execPrdAudRowsRead_same {s₀ : State} (a : Accessor) (d : Die) (l : Fin 256) (s : State) (hs : Same s₀ s) :
    InOut (Same s₀) (execPrdAudRowsRead a d l s) := by
  unfold execPrdAudRowsRead
  refine InOut.next ?_
  refine State.readTo_same _ ?_ _ _
  exact hs

theorem execRegisterRead_same {s₀ : State} (a : Accessor) (addr : BitVec 32) (s : State) (hs : Same s₀ s) :
    InOut (Same s₀) (execRegisterRead a addr s) := by
  unfold execRegisterRead
  refine InOut.next ?_
  refine State.readTo_same _ ?_ _ _
  exact hs

end Sys2Proof.Machine
end

