-- ==== Sys2Proof/Laws/SameWalk.lean ====
section
/-! SUPPORT. Which of operand walks store nothing (`Same`), one lemma for each. -/

namespace Sys2Proof.Machine

open Sys2Proof

theorem State.readElems_same {s₀ : State} (s : State) (hs : Same s₀ s) (l : List (Desc × List Nat)) :
    Same s₀ (State.readElems s l) := by
  unfold State.readElems
  refine pred_foldl ?_ ?_
  · intro x1 h1 a1
    refine State.readUnit_same _ ?_ _
    exact h1
  · exact hs

theorem State.metaDrop_same {s₀ : State} (s : State) (hs : Same s₀ s) (c : Nat) (role : Nat) (tag : Nat) (q : Drop) :
    Same s₀ (State.metaDrop s c role tag q) := by
  unfold State.metaDrop
  extract_lets -underBinder -merge -useContext +onlyGivenNames x1
  have h1 : Same s₀ x1 := by
    unfold x1
    refine State.incThr_same _ ?_ _ _ _ _ _ _
    exact hs
  extract_lets -underBinder -merge -useContext +onlyGivenNames x2
  have h2 : Same s₀ x2 := by
    unfold x2
    refine State.setReg_same _ ?_ _ _
    exact h1
  refine State.count_same _ ?_ _ _ _ _
  refine State.setReg_same _ ?_ _ _
  exact h2

theorem State.poisonPair_same {s₀ : State} (s : State) (hs : Same s₀ s) (c : Nat) (slot : Nat) (x : Nat) (y : Nat) :
    Same s₀ (State.poisonPair s c slot x y) := by
  unfold State.poisonPair
  extract_lets -underBinder -merge -useContext +onlyGivenNames x1
  split
  · exact hs
  · extract_lets -underBinder -merge -useContext +onlyGivenNames x4
    extract_lets -underBinder -merge -useContext +onlyGivenNames x5
    have h5 : Same s₀ x5 := by
      unfold x5
      refine State.setCore_same _ ?_ _ _
      exact hs
    extract_lets -underBinder -merge -useContext +onlyGivenNames x6
    refine pred_ite ?_ ?_
    · refine State.setRegF_same _ ?_ _ _ _ _
      exact h5
    · exact h5

theorem State.readPair_same {s₀ : State} (s : State) (hs : Same s₀ s) (c : Nat) (m : RunMop) (slot : Nat) (x : Nat) (y : Nat) :
    Same s₀ (State.readPair s c m slot x y) := by
  unfold State.readPair
  refine pred_ite ?_ ?_
  · exact hs
  · extract_lets -underBinder -merge -useContext +onlyGivenNames x1
    extract_lets -underBinder -merge -useContext +onlyGivenNames x2
    have h2 : Same s₀ x2 := by
      unfold x2
      refine pred_foldl ?_ ?_
      · intro x3 h3 a3
        refine State.metaDrop_same _ ?_ _ _ _ _
        exact h3
      · exact hs
    refine pred_ite ?_ ?_
    · refine State.poisonPair_same _ ?_ _ _ _ _
      exact h2
    · exact h2

theorem State.countIsect_same {s₀ : State} (s : State) (hs : Same s₀ s) (c : Nat) (out : Nat) (zc : Nat) :
    Same s₀ (State.countIsect s c out zc) := by
  unfold State.countIsect
  extract_lets -underBinder -merge -useContext +onlyGivenNames x1
  have h1 : Same s₀ x1 := by
    unfold x1
    refine State.count_same _ ?_ _ _ _ _
    refine State.inc_same _ ?_ _ _
    exact hs
  refine State.count_same _ ?_ _ _ _ _
  refine State.inc_same _ ?_ _ _
  exact h1

theorem State.countReadsOnce_same {s₀ : State} (s : State) (hs : Same s₀ s) (c : Nat) (role : Nat) (tag : Nat) (l : List RowRead) (seen : List DropKey) :
    Same s₀ (State.countReadsOnce s c role tag l seen) := by
  unfold State.countReadsOnce
  extract_lets -underBinder -merge -useContext +onlyGivenNames x1
  have h1 : Same s₀ x1 := by
    unfold x1
    refine pred_foldl ?_ ?_
    · intro x2 h2 a2
      refine State.metaDrop_same _ ?_ _ _ _ _
      exact h2
    · exact hs
  refine State.inc_same _ ?_ _ _
  exact h1

theorem State.countReads_same {s₀ : State} (s : State) (hs : Same s₀ s) (c : Nat) (role : Nat) (tag : Nat) (l : List RowRead) :
    Same s₀ (State.countReads s c role tag l) := by
  unfold State.countReads
  refine State.countReadsOnce_same _ ?_ _ _ _ _ _
  exact hs

theorem State.readUnvisited_same {s₀ : State} (s : State) (hs : Same s₀ s) (c : Nat) (m : RunMop) (slot : Nat) (x : Nat) (y : Nat) (w : Nat) :
    Same s₀ (State.readUnvisited s c m slot x y w) := by
  unfold State.readUnvisited
  extract_lets -underBinder -merge -useContext +onlyGivenNames x1
  have h1 : Same s₀ x1 := by
    unfold x1
    refine pred_ite ?_ ?_
    · refine State.poisonPair_same _ ?_ _ _ _ _
      exact hs
    · exact hs
  extract_lets -underBinder -merge -useContext +onlyGivenNames x2
  refine pred_ite ?_ ?_
  · exact h1
  · extract_lets -underBinder -merge -useContext +onlyGivenNames x3
    extract_lets -underBinder -merge -useContext +onlyGivenNames x4
    refine State.countIsect_same _ ?_ _ _ _
    refine State.countReads_same _ ?_ _ _ _ _
    exact h1

theorem State.beginGroup_same {s₀ : State} (s : State) (hs : Same s₀ s) (c : Nat) (m : RunMop) (g : List GroupPair) (tiles : SMap (Option Tile)) :
    Same s₀ (State.beginGroup s c m g tiles) := by
  unfold State.beginGroup
  extract_lets -underBinder -merge -useContext +onlyGivenNames x1
  extract_lets -underBinder -merge -useContext +onlyGivenNames x2
  extract_lets -underBinder -merge -useContext +onlyGivenNames x3
  extract_lets -underBinder -merge -useContext +onlyGivenNames x4 x5
  have h5 : Same s₀ x5 := by
    unfold x5
    refine State.setCore_same _ ?_ _ _
    exact hs
  extract_lets -underBinder -merge -useContext +onlyGivenNames x6
  have h6 : Same s₀ x6 := by
    unfold x6
    refine pred_foldl ?_ ?_
    · intro x7 h7 a7
      refine State.readPair_same _ ?_ _ _ _ _ _
      exact h7
    · exact h5
  extract_lets -underBinder -merge -useContext +onlyGivenNames x8
  have h8 : Same s₀ x8 := by
    unfold x8
    refine pred_foldl ?_ ?_
    · intro x9 h9 a9
      refine pred_foldl ?_ ?_
      · intro x10 h10 a10
        refine pred_ite ?_ ?_
        · exact h10
        · refine State.readUnvisited_same _ ?_ _ _ _ _ _ _
          exact h10
      · exact h9
    · exact h6
  extract_lets -underBinder -merge -useContext +onlyGivenNames x11
  refine State.count_same _ ?_ _ _ _ _
  refine State.count_same _ ?_ _ _ _ _
  refine State.count_same _ ?_ _ _ _ _
  refine State.inc_same _ ?_ _ _
  exact h8

theorem State.advance_same {s₀ : State} (s : State) (hs : Same s₀ s) (c : Nat) :
    Same s₀ (State.advance s c) := by
  unfold State.advance
  extract_lets -underBinder -merge -useContext +onlyGivenNames x1
  split
  · exact hs
  · extract_lets -underBinder -merge -useContext +onlyGivenNames x4
    extract_lets -underBinder -merge -useContext +onlyGivenNames x5
    have h5 : Same s₀ x5 := by
      unfold x5
      refine State.setCore_same _ ?_ _ _
      exact hs
    refine pred_ite ?_ ?_
    · split
      · exact h5
      · split
        · exact h5
        · refine State.beginGroup_same _ ?_ _ _ _ _
          exact h5
    · exact h5

theorem State.qPoison_same {s₀ : State} (s : State) (hs : Same s₀ s) (c : Nat) (q : Nat) :
    Same s₀ (State.qPoison s c q) := by
  unfold State.qPoison
  refine State.count_same _ ?_ _ _ _ _
  refine State.inc_same _ ?_ _ _
  refine State.setRegF_same _ ?_ _ _ _ _
  exact hs

theorem State.poisonWords_same {s₀ : State} (s : State) (hs : Same s₀ s) (c : Nat) (q : Nat) (n : Nat) (bad : List Bool) :
    Same s₀ (State.poisonWords s c q n bad) := by
  unfold State.poisonWords
  refine pred_foldl ?_ ?_
  · intro x1 h1 a1
    refine State.qPoison_same _ ?_ _ _
    exact h1
  · exact hs

theorem State.prefetch_same {s₀ : State} (s : State) (hs : Same s₀ s) (c : Nat) :
    Same s₀ (State.prefetch s c) := by
  unfold State.prefetch
  extract_lets -underBinder -merge -useContext +onlyGivenNames x1
  split
  · exact hs
  · refine pred_ite ?_ ?_
    · exact hs
    · extract_lets -underBinder -merge -useContext +onlyGivenNames x4
      refine State.setCore_same _ ?_ _ _
      exact hs

theorem State.feedElems_same {s₀ : State} (s : State) (hs : Same s₀ s) (c : Nat) (l : List (Desc × List Nat)) :
    Same s₀ (State.feedElems s c l) := by
  unfold State.feedElems
  refine pred_foldl ?_ ?_
  · intro x1 h1 a1
    refine State.readUnit_same _ ?_ _
    exact h1
  · exact hs

theorem State.underrun_same {s₀ : State} (s : State) (hs : Same s₀ s) (c : Nat) (q : Nat) :
    Same s₀ (State.underrun s c q) := by
  unfold State.underrun
  refine State.count_same _ ?_ _ _ _ _
  refine State.setRegF_same _ ?_ _ _ _ _
  exact hs

end Sys2Proof.Machine
end

