-- ==== Sys2Proof/Laws/SameSeq.lean ====
section
/-! SUPPORT. Which of the macro-operation sequencer store nothing (`Same`), one lemma for each. -/

namespace Sys2Proof.Machine

open Sys2Proof

theorem State.resendCmd_same {s₀ : State} (s : State) (hs : Same s₀ s) (c : Nat) :
    Same s₀ (State.resendCmd s c) := by
  unfold State.resendCmd
  extract_lets -underBinder -merge -useContext +onlyGivenNames x1
  refine pred_ite ?_ ?_
  · exact hs
  · refine State.sendCore_same _ ?_ _ _
    exact hs

theorem State.writeCpl_same {s₀ : State} (s : State) (hs : Same s₀ s) (c : Nat) (w : BitVec 64) :
    Same s₀ (State.writeCpl s c w) := by
  unfold State.writeCpl
  extract_lets -underBinder -merge -useContext +onlyGivenNames x1
  refine State.setCore_same _ ?_ _ _
  exact hs

theorem State.segFlags_same {s₀ : State} (s : State) (hs : Same s₀ s) (c : Nat) (f : Flags) :
    Same s₀ (State.segFlags s c f) := by
  unfold State.segFlags
  extract_lets -underBinder -merge -useContext +onlyGivenNames x1
  split
  · refine State.setCore_same _ ?_ _ _
    exact hs
  · exact hs

theorem State.completeMop_same {s₀ : State} (s : State) (hs : Same s₀ s) (c : Nat) (m : RunMop) :
    Same s₀ (State.completeMop s c m) := by
  unfold State.completeMop
  extract_lets -underBinder -merge -useContext +onlyGivenNames x1
  have h1 : Same s₀ x1 := by
    unfold x1
    refine State.writeCpl_same _ ?_ _ _
    exact hs
  extract_lets -underBinder -merge -useContext +onlyGivenNames x2
  have h2 : Same s₀ x2 := by
    unfold x2
    refine State.inc_same _ ?_ _ _
    exact h1
  refine pred_ite ?_ ?_
  · exact h2
  · refine State.segFlags_same _ ?_ _ _
    exact h2

theorem State.popCmd_same {s₀ : State} (s : State) (hs : Same s₀ s) (c : Nat) (n : Nat) :
    Same s₀ (State.popCmd s c n) := by
  unfold State.popCmd
  extract_lets -underBinder -merge -useContext +onlyGivenNames x1
  refine State.setCore_same _ ?_ _ _
  exact hs

theorem State.ctrlPoison_same {s₀ : State} (s : State) (hs : Same s₀ s) (c : Nat) (p : List CmdWord) :
    Same s₀ (State.ctrlPoison s c p) := by
  unfold State.ctrlPoison
  extract_lets -underBinder -merge -useContext +onlyGivenNames x1
  have h1 : Same s₀ x1 := by
    unfold x1
    refine State.qPoison_same _ ?_ _ _
    refine State.popCmd_same _ ?_ _ _
    exact hs
  extract_lets -underBinder -merge -useContext +onlyGivenNames x2
  extract_lets -underBinder -merge -useContext +onlyGivenNames x3
  have h3 : Same s₀ x3 := by
    unfold x3
    refine State.breachOpen_same _ ?_ _ _
    exact h1
  refine pred_ite ?_ ?_
  · exact h3
  · refine State.resendCmd_same _ ?_ _
    exact h3

theorem State.control_same {s₀ : State} (s : State) (hs : Same s₀ s) (c : Nat) (bad : Bool) (p : Nat → Bool) (f : State → List CmdWord → State) (hf : ∀ z1 : State, Same s₀ z1 → ∀ z2 : List CmdWord, Same s₀ (f z1 z2)) :
    Same s₀ (State.control s c bad p f) := by
  unfold State.control
  extract_lets -underBinder -merge -useContext +onlyGivenNames x1
  refine pred_ite ?_ ?_
  · split
    · exact hs
    · refine pred_ite ?_ ?_
      · refine pred_ite ?_ ?_
        · refine State.ctrlPoison_same _ ?_ _ _
          exact hs
        · refine hf _ ?_ _
          refine State.popCmd_same _ ?_ _ _
          exact hs
      · exact hs
  · exact hs

theorem State.cooExcess_same {s₀ : State} (s : State) (hs : Same s₀ s) (c : Nat) (d : Desc) :
    Same s₀ (State.cooExcess s c d) := by
  unfold State.cooExcess
  extract_lets -underBinder -merge -useContext +onlyGivenNames x1
  refine pred_ite ?_ ?_
  · refine State.metaDrop_same _ ?_ _ _ _ _
    exact hs
  · exact hs

theorem State.idleRead_same {s₀ : State} (s : State) (hs : Same s₀ s) (c : Nat) (q : Nat) :
    Same s₀ (State.idleRead s c q) := by
  unfold State.idleRead
  refine pred_ite ?_ ?_
  · refine State.underrun_same _ ?_ _ _
    exact hs
  · exact hs

theorem State.takeMop_same {s₀ : State} (s : State) (hs : Same s₀ s) (c : Nat) (n : Nat) :
    Same s₀ (State.takeMop s c n) := by
  unfold State.takeMop
  extract_lets -underBinder -merge -useContext +onlyGivenNames x1
  split
  · refine State.setCore_same _ ?_ _ _
    exact hs
  · refine State.popCmd_same _ ?_ _ _
    exact hs

theorem State.noteRefusal_same {s₀ : State} (s : State) (hs : Same s₀ s) (c : Nat) (e : IssueErr) (op : Nat) (pkt : Nat) :
    Same s₀ (State.noteRefusal s c e op pkt) := by
  unfold State.noteRefusal
  refine State.count_same _ ?_ _ _ _ _
  refine State.setReg_same _ ?_ _ _
  refine State.inc_same _ ?_ _ _
  exact hs

theorem State.refuseMop_same {s₀ : State} (s : State) (hs : Same s₀ s) (c : Nat) (ws : List (BitVec 128)) (pkt : Nat) (e : IssueErr) :
    Same s₀ (State.refuseMop s c ws pkt e) := by
  unfold State.refuseMop
  extract_lets -underBinder -merge -useContext +onlyGivenNames x1
  have h1 : Same s₀ x1 := by
    unfold x1
    refine State.writeCpl_same _ ?_ _ _
    exact hs
  refine State.logNamed_same _ ?_ _ _ _
  refine State.noteRefusal_same _ ?_ _ _ _ _
  exact h1

theorem State.lenPoisoned_same {s₀ : State} (s : State) (hs : Same s₀ s) (c : Nat) :
    Same s₀ (State.lenPoisoned s c) := by
  unfold State.lenPoisoned
  extract_lets -underBinder -merge -useContext +onlyGivenNames x1
  extract_lets -underBinder -merge -useContext +onlyGivenNames x2
  extract_lets -underBinder -merge -useContext +onlyGivenNames x3
  have h3 : Same s₀ x3 := by
    unfold x3
    refine State.breachOpen_same _ ?_ _ _
    exact hs
  refine pred_ite ?_ ?_
  · exact Same.upd h3
  · exact h3

theorem State.readMap_same {s₀ : State} (s : State) (hs : Same s₀ s) (c : Nat) (ws : List (BitVec 128)) :
    In22 (Same s₀) (State.readMap s c ws) := by
  unfold State.readMap
  refine pred_ite ?_ ?_
  · refine In22.mk ?_
    refine In2.mk ?_
    exact hs
  · split
    · refine In22.mk ?_
      refine In2.mk ?_
      exact hs
    · extract_lets -underBinder -merge -useContext +onlyGivenNames x3
      extract_lets -underBinder -merge -useContext +onlyGivenNames x4
      extract_lets -underBinder -merge -useContext +onlyGivenNames x5
      refine pred_ite ?_ ?_
      · refine In22.mk ?_
        refine In2.mk ?_
        exact hs
      · refine In22.mk ?_
        refine In2.mk ?_
        refine State.logNamed_same _ ?_ _ _ _
        refine State.inc_same _ ?_ _ _
        exact hs

theorem execIdleItem_same {s₀ : State} (rd : CoreRead) (s : State) (hs : Same s₀ s) :
    InOut (Same s₀) (execIdleItem rd s) := by
  unfold execIdleItem
  refine InOut.next ?_
  refine State.control_same _ ?_ _ _ _ _ ?_
  · exact hs
  · intro x1 h1 x2
    try beta_reduce
    exact h1

theorem execMbBegin_same {s₀ : State} (c : Core) (bad : Bool) (s : State) (hs : Same s₀ s) :
    InOut (Same s₀) (execMbBegin c bad s) := by
  unfold execMbBegin
  refine InOut.next ?_
  refine State.control_same _ ?_ _ _ _ _ ?_
  · exact hs
  · intro x1 h1 x2
    try beta_reduce
    extract_lets -underBinder -merge -useContext +onlyGivenNames x3
    extract_lets -underBinder -merge -useContext +onlyGivenNames x4
    split
    · refine State.noteRefusal_same _ ?_ _ _ _ _
      refine State.writeCpl_same _ ?_ _ _
      exact h1
    · refine pred_ite ?_ ?_
      · refine State.noteRefusal_same _ ?_ _ _ _ _
        refine State.writeCpl_same _ ?_ _ _
        exact h1
      · extract_lets -underBinder -merge -useContext +onlyGivenNames x7 x8
        have h8 : Same s₀ x8 := by
          unfold x8
          refine State.setCore_same _ ?_ _ _
          exact h1
        refine pred_ite ?_ ?_
        · refine State.addLogBy_same _ ?_ _ _ _ _
          exact h8
        · exact h8

theorem execMopComplete_same {s₀ : State} (c : Core) (s : State) (hs : Same s₀ s) :
    InOut (Same s₀) (execMopComplete c s) := by
  unfold execMopComplete
  extract_lets -underBinder -merge -useContext +onlyGivenNames x1
  refine pred_ite ?_ ?_
  · split
    · refine InOut.next ?_
      refine pred_ite ?_ ?_
      · refine State.completeMop_same _ ?_ _ _
        refine State.setCore_same _ ?_ _ _
        exact hs
      · exact hs
    · refine InOut.next ?_
      refine pred_ite ?_ ?_
      · refine State.completeMop_same _ ?_ _ _
        refine State.setCore_same _ ?_ _ _
        exact hs
      · exact hs
    · refine InOut.next ?_
      exact hs
  · refine InOut.next ?_
    exact hs

theorem execPhaseDone_same {s₀ : State} (c : Core) (s : State) (hs : Same s₀ s) :
    InOut (Same s₀) (execPhaseDone c s) := by
  unfold execPhaseDone
  extract_lets -underBinder -merge -useContext +onlyGivenNames x1
  split
  · refine pred_ite ?_ ?_
    · extract_lets -underBinder -merge -useContext +onlyGivenNames x4
      have h4 : Same s₀ x4 := by
        unfold x4
        refine State.writeCpl_same _ ?_ _ _
        exact hs
      extract_lets -underBinder -merge -useContext +onlyGivenNames x5 x6
      have h6 : Same s₀ x6 := by
        unfold x6
        refine State.count_same _ ?_ _ _ _ _
        refine State.setCore_same _ ?_ _ _
        exact h4
      refine InOut.next ?_
      refine State.addLogBy_same _ ?_ _ _ _ _
      exact h6
    · refine InOut.next ?_
      exact hs
  · refine InOut.next ?_
    exact hs

theorem execStageBind_same {s₀ : State} (c : Core) (bad : Bool) (s : State) (hs : Same s₀ s) :
    InOut (Same s₀) (execStageBind c bad s) := by
  unfold execStageBind
  refine InOut.next ?_
  refine State.control_same _ ?_ _ _ _ _ ?_
  · exact hs
  · intro x1 h1 x2
    try beta_reduce
    refine State.setCore_same _ ?_ _ _
    refine State.setReg_same _ ?_ _ _
    exact h1

theorem execStageUnbind_same {s₀ : State} (c : Core) (bad : Bool) (s : State) (hs : Same s₀ s) :
    InOut (Same s₀) (execStageUnbind c bad s) := by
  unfold execStageUnbind
  refine InOut.next ?_
  refine State.control_same _ ?_ _ _ _ _ ?_
  · exact hs
  · intro x1 h1 x2
    try beta_reduce
    refine State.setCore_same _ ?_ _ _
    refine State.setReg_same _ ?_ _ _
    exact h1

theorem execStepBegin_same {s₀ : State} (c : Core) (bad : Bool) (s : State) (hs : Same s₀ s) :
    InOut (Same s₀) (execStepBegin c bad s) := by
  unfold execStepBegin
  refine InOut.next ?_
  refine State.control_same _ ?_ _ _ _ _ ?_
  · exact hs
  · intro x1 h1 x2
    try beta_reduce
    refine State.addLogBy_same _ ?_ _ _ _ _
    refine State.islandStep_same _ ?_ _ _
    exact h1

end Sys2Proof.Machine
end

