-- ==== Sys2Proof/Laws/SamePredict.lean ====
section
/-! SUPPORT. Which of the predictor store nothing (`Same`), one lemma for each. -/

namespace Sys2Proof.Machine

open Sys2Proof

theorem State.predNote_same {s₀ : State} (s : State) (hs : Same s₀ s) (d : Nat) (q : PredReq) (poi : Bool) (nonf : Bool) :
    Same s₀ (State.predNote s d q poi nonf) := by
  unfold State.predNote
  extract_lets -underBinder -merge -useContext +onlyGivenNames x1
  extract_lets -underBinder -merge -useContext +onlyGivenNames x2
  have h2 : Same s₀ x2 := by
    unfold x2
    split
    · refine pred_ite ?_ ?_
      · refine State.setCore_same _ ?_ _ _
        exact hs
      · exact hs
    · exact hs
  refine pred_foldl ?_ ?_
  · intro x5 h5 a5
    refine State.setCore_same _ ?_ _ _
    exact h5
  · exact h2

theorem execPredictStart_same {s₀ : State} (d : Die) (s : State) (hs : Same s₀ s) :
    InOut (Same s₀) (execPredictStart d s) := by
  unfold execPredictStart
  extract_lets -underBinder -merge -useContext +onlyGivenNames x1
  split
  · refine pred_ite ?_ ?_
    · extract_lets -underBinder -merge -useContext +onlyGivenNames x4
      refine InOut.next ?_
      refine State.setDie_same _ ?_ _ _
      exact hs
    · refine InOut.next ?_
      exact hs
  · refine InOut.next ?_
    exact hs

end Sys2Proof.Machine
end

