-- ==== Sys2Proof/Laws/SameDrain.lean ====
section
/-! SUPPORT. Which of the drain store nothing (`Same`), one lemma for each. -/

namespace Sys2Proof.Machine

open Sys2Proof

theorem State.blockOrder_same {s₀ : State} (α : Type) (s : State) (hs : Same s₀ s) (asks : α → Bool) (l : List α) :
    In2 (Same s₀) (State.blockOrder s asks l) := by
  unfold State.blockOrder
  extract_lets -underBinder -merge -useContext +onlyGivenNames x1
  refine pred_ite ?_ ?_
  · refine In2.mk ?_
    exact hs
  · refine In2.mk ?_
    exact Same.upd hs

theorem State.countSat_same {s₀ : State} (s : State) (hs : Same s₀ s) (c : Nat) (n : Nat) :
    Same s₀ (State.countSat s c n) := by
  unfold State.countSat
  refine State.inc_same _ ?_ _ _
  exact hs

theorem State.countOvertop_same {s₀ : State} (s : State) (hs : Same s₀ s) (c : Nat) :
    Same s₀ (State.countOvertop s c) := by
  unfold State.countOvertop
  extract_lets -underBinder -merge -useContext +onlyGivenNames x1
  refine State.count_same _ ?_ _ _ _ _
  refine State.incThr_same _ ?_ _ _ _ _ _ _
  exact hs

theorem State.countNonfin_same {s₀ : State} (s : State) (hs : Same s₀ s) (c : Nat) (n : Nat) :
    Same s₀ (State.countNonfin s c n) := by
  unfold State.countNonfin
  refine State.inc_same _ ?_ _ _
  exact hs

theorem State.convertPlain_same {s₀ : State} (s : State) (hs : Same s₀ s) (c : Nat) (f : ElemFmt) (ctl : CvtCtl) (v : OutVal) :
    In2 (Same s₀) (State.convertPlain s c f ctl v) := by
  unfold State.convertPlain
  extract_lets -underBinder -merge -useContext +onlyGivenNames x1
  extract_lets -underBinder -merge -useContext +onlyGivenNames x2
  extract_lets -underBinder -merge -useContext +onlyGivenNames x3
  have h3 : Same s₀ x3 := by
    unfold x3
    refine pred_ite ?_ ?_
    · exact Same.upd hs
    · exact hs
  extract_lets -underBinder -merge -useContext +onlyGivenNames x4
  refine In2.mk ?_
  refine State.countNonfin_same _ ?_ _ _
  refine State.countSat_same _ ?_ _ _
  exact h3

theorem State.drainLane_same {s₀ : State} (s : State) (hs : Same s₀ s) (c : Nat) (v : IssueEnv) (d : DrainTile) (o : Desc) (w : Nat) (buf : SMap (Option OutVal)) :
    In1 (Same s₀) (State.drainLane s c v d o w buf) := by
  unfold State.drainLane
  extract_lets -underBinder -merge -useContext +onlyGivenNames x1
  extract_lets -underBinder -merge -useContext +onlyGivenNames x2
  refine pred_foldl ?_ ?_
  · intro x3 h3 a3
    extract_lets -underBinder -merge -useContext +onlyGivenNames x4
    refine pred_ite ?_ ?_
    · extract_lets -underBinder -merge -useContext +onlyGivenNames x5
      refine In1.mk ?_
      refine State.countNonfin_same _ ?_ _ _
      exact h3.out
    · refine In1.mk ?_
      exact h3.out
  · refine In1.mk ?_
    exact hs

theorem State.drainStats_same {s₀ : State} (s : State) (hs : Same s₀ s) (c : Nat) (d : DrainTile) (st : Staging) :
    In1 (Same s₀) (State.drainStats s c d st) := by
  unfold State.drainStats
  refine pred_ite ?_ ?_
  · refine In1.mk ?_
    exact hs
  · split
    · refine In1.mk ?_
      exact hs
    · extract_lets -underBinder -merge -useContext +onlyGivenNames x3
      extract_lets -underBinder -merge -useContext +onlyGivenNames x4
      extract_lets -underBinder -merge -useContext +onlyGivenNames x5
      extract_lets -underBinder -merge -useContext +onlyGivenNames x6
      extract_lets -underBinder -merge -useContext +onlyGivenNames x7
      extract_lets -underBinder -merge -useContext +onlyGivenNames x8
      refine pred_foldl ?_ ?_
      · intro x9 h9 a9
        extract_lets -underBinder -merge -useContext +onlyGivenNames x10
        split
        · extract_lets -underBinder -merge -useContext +onlyGivenNames x13
          extract_lets -underBinder -merge -useContext +onlyGivenNames x14
          extract_lets -underBinder -merge -useContext +onlyGivenNames x15
          extract_lets -underBinder -merge -useContext +onlyGivenNames x16
          extract_lets -underBinder -merge -useContext +onlyGivenNames x17
          extract_lets -underBinder -merge -useContext +onlyGivenNames x18
          extract_lets -underBinder -merge -useContext +onlyGivenNames x19
          refine In1.mk ?_
          refine State.count_same _ ?_ _ _ _ _
          refine State.countNonfin_same _ ?_ _ _
          exact h9.out
      · refine In1.mk ?_
        exact hs

theorem execAuditRowReport_same {s₀ : State} (c : Core) (s : State) (hs : Same s₀ s) :
    InOut (Same s₀) (execAuditRowReport c s) := by
  unfold execAuditRowReport
  extract_lets -underBinder -merge -useContext +onlyGivenNames x1
  extract_lets -underBinder -merge -useContext +onlyGivenNames x2
  split
  · refine InOut.next ?_
    exact hs
  · refine pred_ite ?_ ?_
    · refine InOut.next ?_
      exact hs
    · extract_lets -underBinder -merge -useContext +onlyGivenNames x7
      have h7 : Same s₀ x7 := by
        unfold x7
        refine State.setCore_same _ ?_ _ _
        exact hs
      extract_lets -underBinder -merge -useContext +onlyGivenNames x8
      have h8 : Same s₀ x8 := by
        unfold x8
        refine State.count_same _ ?_ _ _ _ _
        refine State.inc_same _ ?_ _ _
        exact h7
      refine pred_ite ?_ ?_
      · extract_lets -underBinder -merge -useContext +onlyGivenNames x9
        refine InOut.next ?_
        refine State.count_same _ ?_ _ _ _ _
        refine State.incThr_same _ ?_ _ _ _ _ _ _
        exact h8
      · refine InOut.next ?_
        exact h8

end Sys2Proof.Machine
end

