-- ==== Sys2Proof/Laws/SameBoot.lean ====
section
/-! SUPPORT. Which of start-up and flash store nothing (`Same`), one lemma for each. -/

namespace Sys2Proof.Machine

open Sys2Proof

theorem State.applyConfig_same {s₀ : State} (s : State) (hs : Same s₀ s) (c : Cfg) :
    Same s₀ (State.applyConfig s c) := by
  unfold State.applyConfig
  extract_lets -underBinder -merge -useContext +onlyGivenNames x1
  have h1 : Same s₀ x1 := by
    unfold x1
    exact Same.upd hs
  extract_lets -underBinder -merge -useContext +onlyGivenNames x2
  have h2 : Same s₀ x2 := by
    unfold x2
    refine pred_foldl ?_ ?_
    · intro x3 h3 a3
      refine State.setBridge_same _ ?_ _ _
      exact h3
    · exact h1
  extract_lets -underBinder -merge -useContext +onlyGivenNames x4
  have h4 : Same s₀ x4 := by
    unfold x4
    refine pred_foldl ?_ ?_
    · intro x5 h5 a5
      extract_lets -underBinder -merge -useContext +onlyGivenNames x6
      have h6 : Same s₀ x6 := by
        unfold x6
        refine State.setReg_same _ ?_ _ _
        refine State.setReg_same _ ?_ _ _
        exact h5
      refine pred_ite ?_ ?_
      · exact h6
      · refine State.setReg48_same _ ?_ _ _ _
        refine State.setReg48_same _ ?_ _ _ _
        exact h6
    · exact h2
  extract_lets -underBinder -merge -useContext +onlyGivenNames x7
  have h7 : Same s₀ x7 := by
    unfold x7
    refine pred_foldl ?_ ?_
    · intro x8 h8 a8
      refine State.setRegF_same _ ?_ _ _ _ _
      exact h8
    · exact h4
  extract_lets -underBinder -merge -useContext +onlyGivenNames x9
  have h9 : Same s₀ x9 := by
    unfold x9
    refine State.setReg48_same _ ?_ _ _ _
    exact h7
  extract_lets -underBinder -merge -useContext +onlyGivenNames x10
  have h10 : Same s₀ x10 := by
    unfold x10
    refine State.setReg48_same _ ?_ _ _ _
    exact h9
  extract_lets -underBinder -merge -useContext +onlyGivenNames x11
  have h11 : Same s₀ x11 := by
    unfold x11
    refine State.setReg48_same _ ?_ _ _ _
    exact h10
  extract_lets -underBinder -merge -useContext +onlyGivenNames x12
  have h12 : Same s₀ x12 := by
    unfold x12
    refine State.setReg48_same _ ?_ _ _ _
    exact h11
  extract_lets -underBinder -merge -useContext +onlyGivenNames x13
  have h13 : Same s₀ x13 := by
    unfold x13
    refine State.setReg48_same _ ?_ _ _ _
    exact h12
  extract_lets -underBinder -merge -useContext +onlyGivenNames x14
  have h14 : Same s₀ x14 := by
    unfold x14
    refine State.setReg_same _ ?_ _ _
    exact h13
  extract_lets -underBinder -merge -useContext +onlyGivenNames x15
  have h15 : Same s₀ x15 := by
    unfold x15
    refine pred_foldl ?_ ?_
    · intro x16 h16 a16
      refine State.setReg_same _ ?_ _ _
      exact h16
    · exact h14
  extract_lets -underBinder -merge -useContext +onlyGivenNames x17
  have h17 : Same s₀ x17 := by
    unfold x17
    refine pred_foldl ?_ ?_
    · intro x18 h18 a18
      refine State.setRegF_same _ ?_ _ _ _ _
      exact h18
    · exact h15
  refine State.setRegF_same _ ?_ _ _ _ _
  exact h17

theorem State.setWords_same {s₀ : State} (s : State) (hs : Same s₀ s) (a : Nat) (bytes : List Byte) :
    Same s₀ (State.setWords s a bytes) := by
  unfold State.setWords
  refine pred_foldl ?_ ?_
  · intro x1 h1 a1
    refine State.setReg_same _ ?_ _ _
    exact h1
  · exact hs

theorem State.showOtp_same {s₀ : State} (s : State) (hs : Same s₀ s) :
    Same s₀ (State.showOtp s) := by
  unfold State.showOtp
  extract_lets -underBinder -merge -useContext +onlyGivenNames x1
  extract_lets -underBinder -merge -useContext +onlyGivenNames x2
  have h2 : Same s₀ x2 := by
    unfold x2
    refine State.setRegF_same _ ?_ _ _ _ _
    exact hs
  extract_lets -underBinder -merge -useContext +onlyGivenNames x3
  have h3 : Same s₀ x3 := by
    unfold x3
    refine State.setRegF_same _ ?_ _ _ _ _
    exact h2
  extract_lets -underBinder -merge -useContext +onlyGivenNames x4
  have h4 : Same s₀ x4 := by
    unfold x4
    refine State.setRegF_same _ ?_ _ _ _ _
    exact h3
  split
  · refine State.setWords_same _ ?_ _ _
    refine State.setRegF_same _ ?_ _ _ _ _
    exact h4
  · exact h4

theorem State.bootFail_same {s₀ : State} (s : State) (hs : Same s₀ s) (cause : Nat) :
    Same s₀ (State.bootFail s cause) := by
  unfold State.bootFail
  refine State.setMode_same _ ?_ _
  refine State.setRegF_same _ ?_ _ _ _ _
  refine State.setRegF_same _ ?_ _ _ _ _
  exact hs

theorem State.noteRunning_same {s₀ : State} (s : State) (hs : Same s₀ s) (kind : Nat) (slot : Nat) :
    Same s₀ (State.noteRunning s kind slot) := by
  unfold State.noteRunning
  extract_lets -underBinder -merge -useContext +onlyGivenNames x1
  extract_lets -underBinder -merge -useContext +onlyGivenNames x2
  have h2 : Same s₀ x2 := by
    unfold x2
    refine State.setRegF_same _ ?_ _ _ _ _
    exact hs
  extract_lets -underBinder -merge -useContext +onlyGivenNames x3
  have h3 : Same s₀ x3 := by
    unfold x3
    refine State.setRegF_same _ ?_ _ _ _ _
    exact h2
  refine State.setRegF_same _ ?_ _ _ _ _
  exact h3

theorem State.trySlot_same {s₀ : State} (s : State) (hs : Same s₀ s) (kind : Nat) (slot : Nat) :
    In2 (Same s₀) (State.trySlot s kind slot) := by
  unfold State.trySlot
  extract_lets -underBinder -merge -useContext +onlyGivenNames x1
  extract_lets -underBinder -merge -useContext +onlyGivenNames x2
  have h2 : Same s₀ x2 := by
    unfold x2
    refine State.setWords_same _ ?_ _ _
    exact hs
  extract_lets -underBinder -merge -useContext +onlyGivenNames x3
  refine pred_ite ?_ ?_
  · refine In2.mk ?_
    refine State.setRegF_same _ ?_ _ _ _ _
    exact h2
  · refine pred_ite ?_ ?_
    · refine In2.mk ?_
      refine State.setRegF_same _ ?_ _ _ _ _
      exact h2
    · refine In2.mk ?_
      exact h2

theorem State.findSlot_same {s₀ : State} (s : State) (hs : Same s₀ s) (kind : Nat) (slot : Nat) :
    In2 (Same s₀) (State.findSlot s kind slot) := by
  unfold State.findSlot
  extract_lets -underBinder -merge -useContext +onlyGivenNames x1
  have h1 : In2 (Same s₀) x1 := by
    unfold x1
    refine State.trySlot_same _ ?_ _ _
    exact hs
  refine pred_ite ?_ ?_
  · refine In2.mk ?_
    exact h1.out
  · extract_lets -underBinder -merge -useContext +onlyGivenNames x2
    have h2 : In2 (Same s₀) x2 := by
      unfold x2
      refine State.trySlot_same _ ?_ _ _
      exact h1.out
    refine pred_ite ?_ ?_
    · refine In2.mk ?_
      refine State.setRegF_same _ ?_ _ _ _ _
      exact h2.out
    · refine In2.mk ?_
      exact h2.out

theorem State.readHealth_same {s₀ : State} (s : State) (hs : Same s₀ s) :
    Same s₀ (State.readHealth s) := by
  unfold State.readHealth
  split
  · refine State.setRegF_same _ ?_ _ _ _ _
    exact hs
  · extract_lets -underBinder -merge -useContext +onlyGivenNames x3
    have h3 : Same s₀ x3 := by
      unfold x3
      exact Same.upd hs
    extract_lets -underBinder -merge -useContext +onlyGivenNames x4
    have h4 : Same s₀ x4 := by
      unfold x4
      refine pred_foldl ?_ ?_
      · intro x5 h5 a5
        refine pred_ite ?_ ?_
        · refine State.setCore_same _ ?_ _ _
          exact h5
        · exact h5
      · exact h3
    refine pred_foldl ?_ ?_
    · intro x6 h6 a6
      extract_lets -underBinder -merge -useContext +onlyGivenNames x7
      refine State.setChan_same _ ?_ _ _
      exact h6
    · exact h4

theorem State.drawBig_same {s₀ : State} (s : State) (hs : Same s₀ s) :
    In2 (Same s₀) (State.drawBig s) := by
  unfold State.drawBig
  refine In2.mk ?_
  exact Same.upd hs

theorem State.report_same {s₀ : State} (s : State) (hs : Same s₀ s) (nonce : List Byte) :
    In2 (Same s₀) (State.report s nonce) := by
  unfold State.report
  extract_lets -underBinder -merge -useContext +onlyGivenNames x1
  extract_lets -underBinder -merge -useContext +onlyGivenNames x2
  have h2 : In2 (Same s₀) x2 := by
    unfold x2
    refine State.drawBig_same _ ?_
    exact hs
  extract_lets -underBinder -merge -useContext +onlyGivenNames x3
  have h3 : In2 (Same s₀) x3 := by
    unfold x3
    refine State.drawBig_same _ ?_
    exact h2.out
  extract_lets -underBinder -merge -useContext +onlyGivenNames x4
  refine In2.mk ?_
  refine State.bumpSeq_same _ ?_ _
  exact h3.out

theorem State.startLanes_same {s₀ : State} (s : State) (hs : Same s₀ s) :
    Same s₀ (State.startLanes s) := by
  unfold State.startLanes
  refine pred_foldl ?_ ?_
  · intro x1 h1 a1
    refine pred_ite ?_ ?_
    · refine State.incF_same _ ?_ _ _ _
      refine State.setRegF_same _ ?_ _ _ _ _
      exact h1
    · exact h1
  · exact hs

theorem execFunctionReady_same {s₀ : State} (f : ReadyFn) (s : State) (hs : Same s₀ s) :
    InOut (Same s₀) (execFunctionReady f s) := by
  unfold execFunctionReady
  extract_lets -underBinder -merge -useContext +onlyGivenNames x1
  refine InOut.next ?_
  refine pred_ite ?_ ?_
  · refine State.setRegF_same _ ?_ _ _ _ _
    exact hs
  · exact hs

end Sys2Proof.Machine
end

