-- ==== Sys2Proof/Laws/SameMemory.lean ====
section
/-! SUPPORT. Which of near memory, cache and arbitration store nothing (`Same`), one lemma for each. -/

namespace Sys2Proof.Machine

open Sys2Proof

theorem State.countArb_same {s₀ : State} (s : State) (hs : Same s₀ s) (p : Nat) (losers : List Nat) (w : Nat) (capped : Bool) :
    Same s₀ (State.countArb s p losers w capped) := by
  unfold State.countArb
  refine pred_ite ?_ ?_
  · extract_lets -underBinder -merge -useContext +onlyGivenNames x1
    extract_lets -underBinder -merge -useContext +onlyGivenNames x2
    have h2 : Same s₀ x2 := by
      unfold x2
      refine pred_foldl ?_ ?_
      · intro x3 h3 a3
        refine State.count_same _ ?_ _ _ _ _
        exact h3
      · exact hs
    refine pred_ite ?_ ?_
    · refine State.count_same _ ?_ _ _ _ _
      refine State.inc_same _ ?_ _ _
      exact h2
    · exact h2
  · extract_lets -underBinder -merge -useContext +onlyGivenNames x4
    extract_lets -underBinder -merge -useContext +onlyGivenNames x5
    have h5 : Same s₀ x5 := by
      unfold x5
      refine pred_foldl ?_ ?_
      · intro x6 h6 a6
        refine State.count_same _ ?_ _ _ _ _
        exact h6
      · exact hs
    refine pred_ite ?_ ?_
    · refine State.inc_same _ ?_ _ _
      exact h5
    · exact h5

theorem State.countRetrain_same {s₀ : State} (s : State) (hs : Same s₀ s) (ch : Nat) :
    Same s₀ (State.countRetrain s ch) := by
  unfold State.countRetrain
  refine State.incF_same _ ?_ _ _ _
  exact hs

theorem State.failChan_same {s₀ : State} (s : State) (hs : Same s₀ s) (ch : Nat) :
    Same s₀ (State.failChan s ch) := by
  unfold State.failChan
  refine State.polderLoss_same _ ?_ _ _ _ _
  refine State.setRegF_same _ ?_ _ _ _ _
  exact hs

theorem State.setWay_same {s₀ : State} (s : State) (hs : Same s₀ s) (d : Nat) (set : Nat) (way : Nat) (l : Option CacheLine) :
    Same s₀ (State.setWay s d set way l) := by
  unfold State.setWay
  extract_lets -underBinder -merge -useContext +onlyGivenNames x1
  refine State.setDie_same _ ?_ _ _
  exact hs

theorem State.touchWay_same {s₀ : State} (s : State) (hs : Same s₀ s) (d : Nat) (set : Nat) (way : Nat) :
    Same s₀ (State.touchWay s d set way) := by
  unfold State.touchWay
  extract_lets -underBinder -merge -useContext +onlyGivenNames x1
  extract_lets -underBinder -merge -useContext +onlyGivenNames x2
  refine State.setDie_same _ ?_ _ _
  exact hs

theorem State.fillLine_same {s₀ : State} (s : State) (hs : Same s₀ s) (d : Nat) (req : Nat) (line : Nat) :
    Same s₀ (State.fillLine s d req line) := by
  unfold State.fillLine
  extract_lets -underBinder -merge -useContext +onlyGivenNames x1
  extract_lets -underBinder -merge -useContext +onlyGivenNames x2
  extract_lets -underBinder -merge -useContext +onlyGivenNames x3
  have h3 : Same s₀ x3 := by
    unfold x3
    refine State.count_same _ ?_ _ _ _ _
    refine State.readRange_same _ ?_ _ _
    exact hs
  refine pred_ite ?_ ?_
  · exact h3
  · extract_lets -underBinder -merge -useContext +onlyGivenNames x4
    extract_lets -underBinder -merge -useContext +onlyGivenNames x5
    have h5 : Same s₀ x5 := by
      unfold x5
      refine State.setWay_same _ ?_ _ _ _ _
      exact h3
    refine State.count_same _ ?_ _ _ _ _
    refine State.touchWay_same _ ?_ _ _ _
    exact h5

theorem State.issueRefresh_same {s₀ : State} (s : State) (hs : Same s₀ s) (ch : Nat) (n : Nat) :
    Same s₀ (State.issueRefresh s ch n) := by
  unfold State.issueRefresh
  refine State.count_same _ ?_ _ _ _ _
  refine State.setChan_same _ ?_ _ _
  exact hs

theorem State.noteUe_same {s₀ : State} (s : State) (hs : Same s₀ s) (d : Nat) (off : Nat) :
    Same s₀ (State.noteUe s d off) := by
  unfold State.noteUe
  extract_lets -underBinder -merge -useContext +onlyGivenNames x1
  extract_lets -underBinder -merge -useContext +onlyGivenNames x2
  extract_lets -underBinder -merge -useContext +onlyGivenNames x3
  extract_lets -underBinder -merge -useContext +onlyGivenNames x4
  have h4 : Same s₀ x4 := by
    unfold x4
    refine State.setDie_same _ ?_ _ _
    exact hs
  refine pred_ite ?_ ?_
  · refine State.polderLoss_same _ ?_ _ _ _ _
    exact h4
  · exact h4

theorem execArbBackoffExpire_same {s₀ : State} (p : ArbPoint) (req : Fin 22) (s : State) (hs : Same s₀ s) :
    InOut (Same s₀) (execArbBackoffExpire p req s) := by
  unfold execArbBackoffExpire
  extract_lets -underBinder -merge -useContext +onlyGivenNames x1
  extract_lets -underBinder -merge -useContext +onlyGivenNames x2
  refine pred_ite ?_ ?_
  · refine InOut.next ?_
    exact hs
  · refine InOut.next ?_
    refine State.setArb_same _ ?_ _ _
    exact hs

theorem execArbGrant_same {s₀ : State} (p : ArbPoint) (want : BitVec 22) (s : State) (hs : Same s₀ s) :
    InOut (Same s₀) (execArbGrant p want s) := by
  unfold execArbGrant
  extract_lets -underBinder -merge -useContext +onlyGivenNames x1
  extract_lets -underBinder -merge -useContext +onlyGivenNames x2
  refine pred_ite ?_ ?_
  · refine InOut.next ?_
    exact hs
  · split
    · refine InOut.next ?_
      exact hs
    · refine InOut.next ?_
      refine State.countArb_same _ ?_ _ _ _ _
      refine State.setArb_same _ ?_ _ _
      exact hs

theorem execCacheFill_same {s₀ : State} (d : Die) (req : Fin 10) (addr : Addr) (s : State) (hs : Same s₀ s) :
    InOut (Same s₀) (execCacheFill d req addr s) := by
  unfold execCacheFill
  extract_lets -underBinder -merge -useContext +onlyGivenNames x1
  extract_lets -underBinder -merge -useContext +onlyGivenNames x2
  extract_lets -underBinder -merge -useContext +onlyGivenNames x3
  extract_lets -underBinder -merge -useContext +onlyGivenNames x4
  extract_lets -underBinder -merge -useContext +onlyGivenNames x5
  refine pred_ite ?_ ?_
  · exact InOut.fault
  · refine pred_ite ?_ ?_
    · refine InOut.next ?_
      exact hs
    · split
      · split
        · refine pred_ite ?_ ?_
          · refine InOut.next ?_
            exact hs
          · refine pred_ite ?_ ?_
            · refine InOut.next ?_
              refine State.fillLine_same _ ?_ _ _ _
              refine State.inc_same _ ?_ _ _
              refine State.setWay_same _ ?_ _ _ _ _
              exact hs
            · refine InOut.next ?_
              refine State.count_same _ ?_ _ _ _ _
              refine State.touchWay_same _ ?_ _ _ _
              exact hs
        · refine InOut.next ?_
          exact hs
      · refine InOut.next ?_
        refine pred_ite ?_ ?_
        · refine State.fillLine_same _ ?_ _ _ _
          exact hs
        · exact hs

theorem execCacheInvalidate_same {s₀ : State} (d : Die) (addr : Addr) (own : Bool) (s : State) (hs : Same s₀ s) :
    InOut (Same s₀) (execCacheInvalidate d addr own s) := by
  unfold execCacheInvalidate
  extract_lets -underBinder -merge -useContext +onlyGivenNames x1
  extract_lets -underBinder -merge -useContext +onlyGivenNames x2
  extract_lets -underBinder -merge -useContext +onlyGivenNames x3
  refine pred_ite ?_ ?_
  · exact InOut.fault
  · split
    · refine InOut.next ?_
      exact hs
    · refine pred_ite ?_ ?_
      · refine InOut.next ?_
        refine State.setWay_same _ ?_ _ _ _ _
        exact hs
      · refine InOut.next ?_
        refine State.count_same _ ?_ _ _ _ _
        refine State.inc_same _ ?_ _ _
        refine State.setWay_same _ ?_ _ _ _ _
        exact hs

theorem execFmemDriftCheck_same {s₀ : State} (ch : Chan) (drift : BitVec 8) (ok1 : Bool) (ok2 : Bool) (s : State) (hs : Same s₀ s) :
    InOut (Same s₀) (execFmemDriftCheck ch drift ok1 ok2 s) := by
  unfold execFmemDriftCheck
  refine pred_ite ?_ ?_
  · refine InOut.next ?_
    exact hs
  · extract_lets -underBinder -merge -useContext +onlyGivenNames x1
    have h1 : Same s₀ x1 := by
      unfold x1
      refine State.countRetrain_same _ ?_ _
      exact hs
    refine pred_ite ?_ ?_
    · refine InOut.next ?_
      exact h1
    · extract_lets -underBinder -merge -useContext +onlyGivenNames x2
      have h2 : Same s₀ x2 := by
        unfold x2
        refine State.countRetrain_same _ ?_ _
        exact h1
      refine InOut.next ?_
      refine pred_ite ?_ ?_
      · exact h2
      · refine State.failChan_same _ ?_ _
        exact h2

theorem execFmemRefresh_same {s₀ : State} (ch : Chan) (bank : Fin 16) (busy : Bool) (s : State) (hs : Same s₀ s) :
    InOut (Same s₀) (execFmemRefresh ch bank busy s) := by
  unfold execFmemRefresh
  extract_lets -underBinder -merge -useContext +onlyGivenNames x1
  extract_lets -underBinder -merge -useContext +onlyGivenNames x2
  refine pred_ite ?_ ?_
  · refine InOut.next ?_
    refine State.setChan_same _ ?_ _ _
    exact hs
  · refine pred_ite ?_ ?_
    · refine InOut.next ?_
      exact hs
    · extract_lets -underBinder -merge -useContext +onlyGivenNames x3
      extract_lets -underBinder -merge -useContext +onlyGivenNames x4
      refine InOut.next ?_
      refine State.issueRefresh_same _ ?_ _ _
      refine State.setChan_same _ ?_ _ _
      exact hs

theorem execFmemZqLatch_same {s₀ : State} (ch : Chan) (s : State) (hs : Same s₀ s) :
    InOut (Same s₀) (execFmemZqLatch ch s) := by
  unfold execFmemZqLatch
  refine InOut.next ?_
  refine pred_ite ?_ ?_
  · refine State.setChan_same _ ?_ _ _
    exact hs
  · exact hs

theorem execRefreshManagementRequest_same {s₀ : State} (ch : Chan) (s : State) (hs : Same s₀ s) :
    InOut (Same s₀) (execRefreshManagementRequest ch s) := by
  unfold execRefreshManagementRequest
  refine InOut.next ?_
  refine pred_ite ?_ ?_
  · refine State.setChan_same _ ?_ _ _
    exact hs
  · exact hs

end Sys2Proof.Machine
end

