-- ==== Sys2Proof/Laws/SameCollective.lean ====
section
/-! SUPPORT. Which of collectives store nothing (`Same`), one lemma for each. -/

namespace Sys2Proof.Machine

open Sys2Proof

theorem State.readSlots_same {s₀ : State} (s : State) (hs : Same s₀ s) (d : Desc) (lo : Nat) (n : Nat) :
    Same s₀ (State.readSlots s d lo n) := by
  unfold State.readSlots
  extract_lets -underBinder -merge -useContext +onlyGivenNames x1
  refine pred_ite ?_ ?_
  · exact hs
  · refine State.readRange_same _ ?_ _ _
    exact hs

theorem State.gatherRead_same {s₀ : State} (s : State) (hs : Same s₀ s) (d : Desc) (lo : Nat) (count : Nat) :
    Same s₀ (State.gatherRead s d lo count) := by
  unfold State.gatherRead
  refine pred_ite ?_ ?_
  · refine State.readElems_same _ ?_ _
    exact hs
  · refine State.readSlots_same _ ?_ _ _ _
    exact hs

theorem State.workColl_same {s₀ : State} (s : State) (hs : Same s₀ s) (half : Nat) (idx : Nat) :
    Same s₀ (State.workColl s half idx) := by
  unfold State.workColl
  refine State.setReg_same _ ?_ _ _
  exact hs

theorem State.restColl_same {s₀ : State} (s : State) (hs : Same s₀ s) (idx : Nat) :
    Same s₀ (State.restColl s idx) := by
  unfold State.restColl
  refine pred_foldl ?_ ?_
  · intro x1 h1 a1
    refine pred_ite ?_ ?_
    · refine State.setReg_same _ ?_ _ _
      exact h1
    · exact h1
  · exact hs

theorem State.sendColl_same {s₀ : State} (s : State) (hs : Same s₀ s) (half : Nat) (op : Nat) (R : Ring) (step : Nat) (chunk : Nat) (payload : List Byte) :
    Same s₀ (State.sendColl s half op R step chunk payload) := by
  unfold State.sendColl
  extract_lets -underBinder -merge -useContext +onlyGivenNames x1 x2
  have h2 : Same s₀ x2 := by
    unfold x2
    refine pred_ite ?_ ?_
    · exact Same.upd hs
    · exact hs
  refine State.e2eSend_same _ ?_ _ _ _ _ _ _ _
  refine State.workColl_same _ ?_ _ _
  exact h2

theorem State.countChunk_same {s₀ : State} (s : State) (hs : Same s₀ s) (half : Nat) :
    Same s₀ (State.countChunk s half) := by
  unfold State.countChunk
  refine State.count_same _ ?_ _ _ _ _
  refine State.inc_same _ ?_ _ _
  exact hs

theorem State.tellEmpty_same {s₀ : State} (s : State) (hs : Same s₀ s) (R : Ring) (step : Nat) :
    Same s₀ (State.tellEmpty s R step) := by
  unfold State.tellEmpty
  split
  · refine pred_ite ?_ ?_
    · exact hs
    · refine pred_foldl ?_ ?_
      · intro x2 h2 a2
        refine pred_ite ?_ ?_
        · refine State.setEngine_same _ ?_ _ _
          exact h2
        · exact h2
      · exact hs
  · exact hs

theorem State.readElements_same {s₀ : State} (s : State) (hs : Same s₀ s) (d : Desc) (gs : List (List Nat)) :
    Same s₀ (State.readElements s d gs) := by
  unfold State.readElements
  extract_lets -underBinder -merge -useContext +onlyGivenNames x1
  refine pred_ite ?_ ?_
  · refine State.readElems_same _ ?_ _
    exact hs
  · refine pred_foldl ?_ ?_
    · intro x2 h2 a2
      refine State.readSlots_same _ ?_ _ _ _
      exact h2
    · exact hs

theorem State.taintRing_same {s₀ : State} (s : State) (hs : Same s₀ s) (half : Nat) (R : Ring) (step : Nat) :
    Same s₀ (State.taintRing s half R step) := by
  unfold State.taintRing
  split
  · refine State.taint_same _ ?_ _ _ _ _ _
    exact hs
  · exact hs

theorem State.ownRows_same {s₀ : State} (s : State) (hs : Same s₀ s) (half : Nat) (R : Ring) (step : Nat) (r : Nat) :
    In2 (Same s₀) (State.ownRows s half R step r) := by
  unfold State.ownRows
  split
  · extract_lets -underBinder -merge -useContext +onlyGivenNames x3
    extract_lets -underBinder -merge -useContext +onlyGivenNames x4
    extract_lets -underBinder -merge -useContext +onlyGivenNames x5
    have h5 : Same s₀ x5 := by
      unfold x5
      refine State.readElements_same _ ?_ _ _
      exact hs
    refine In2.mk ?_
    refine pred_ite ?_ ?_
    · refine State.taintRing_same _ ?_ _ _ _
      exact h5
    · exact h5
  · refine In2.mk ?_
    exact hs

theorem State.rowsOn_same {s₀ : State} (s : State) (hs : Same s₀ s) (half : Nat) (R : Ring) (step : Nat) (r : Nat) (rows : List (Nat × List Word)) :
    Same s₀ (State.rowsOn s half R step r rows) := by
  unfold State.rowsOn
  extract_lets -underBinder -merge -useContext +onlyGivenNames x1
  split
  · exact hs
  · refine pred_ite ?_ ?_
    · extract_lets -underBinder -merge -useContext +onlyGivenNames x4
      have h4 : ∀ x5 : State, Same s₀ x5 → ∀ x6 : Nat, ∀ x7 : Chunk, Same s₀ (x4 x5 x6 x7) := by
        unfold x4
        intro x5 h5 x6 x7
        try beta_reduce
        refine State.setEngine_same _ ?_ _ _
        exact h5
      extract_lets -underBinder -merge -useContext +onlyGivenNames x8
      have h8 : Same s₀ x8 := by
        unfold x8
        refine pred_foldl ?_ ?_
        · intro x9 h9 a9
          refine h4 _ ?_ _ _
          exact h9
        · exact hs
      refine pred_foldl ?_ ?_
      · intro x10 h10 a10
        refine h4 _ ?_ _ _
        exact h10
      · exact h8
    · extract_lets -underBinder -merge -useContext +onlyGivenNames x11
      refine pred_foldl ?_ ?_
      · intro x12 h12 a12
        refine State.sendColl_same _ ?_ _ _ _ _ _ _
        exact h12
      · exact hs

theorem State.contribution_same {s₀ : State} (s : State) (hs : Same s₀ s) (half : Nat) (R : Ring) (step : Nat) (r : Nat) (j : Nat) :
    In2 (Same s₀) (State.contribution s half R step r j) := by
  unfold State.contribution
  split
  · refine In2.mk ?_
    exact hs
  · extract_lets -underBinder -merge -useContext +onlyGivenNames x3
    extract_lets -underBinder -merge -useContext +onlyGivenNames x4
    extract_lets -underBinder -merge -useContext +onlyGivenNames x5
    have h5 : Same s₀ x5 := by
      unfold x5
      refine State.readElements_same _ ?_ _ _
      exact hs
    refine In2.mk ?_
    refine pred_ite ?_ ?_
    · refine State.taintRing_same _ ?_ _ _ _
      exact h5
    · exact h5

theorem State.hopRows_same {s₀ : State} (s : State) (hs : Same s₀ s) (half : Nat) (R : Ring) (step : Nat) (r : Nat) (arr : List (Nat × List Word)) :
    Same s₀ (State.hopRows s half R step r arr) := by
  unfold State.hopRows
  split
  · exact hs
  · extract_lets -underBinder -merge -useContext +onlyGivenNames x3
    have h3 : In2 (Same s₀) x3 := by
      unfold x3
      refine State.ownRows_same _ ?_ _ _ _ _
      exact hs
    extract_lets -underBinder -merge -useContext +onlyGivenNames x4
    extract_lets -underBinder -merge -useContext +onlyGivenNames x5
    extract_lets -underBinder -merge -useContext +onlyGivenNames x6
    have h6 : Same s₀ x6 := by
      unfold x6
      refine pred_foldl ?_ ?_
      · intro x7 h7 a7
        extract_lets -underBinder -merge -useContext +onlyGivenNames x8
        refine State.inc_same _ ?_ _ _
        exact h7
      · exact h3.out
    refine State.rowsOn_same _ ?_ _ _ _ _ _
    refine State.countChunk_same _ ?_ _
    exact h6

theorem State.addRows_same {s₀ : State} (s : State) (hs : Same s₀ s) (half : Nat) (R : Ring) (step : Nat) (r : Nat) (rows : List Nat) :
    Same s₀ (State.addRows s half R step r rows) := by
  unfold State.addRows
  split
  · exact hs
  · extract_lets -underBinder -merge -useContext +onlyGivenNames x3
    extract_lets -underBinder -merge -useContext +onlyGivenNames x4
    have h4 : Same s₀ x4 := by
      unfold x4
      refine pred_foldl ?_ ?_
      · intro x5 h5 a5
        refine State.readRange_same _ ?_ _ _
        exact h5
      · exact hs
    refine State.hopRows_same _ ?_ _ _ _ _ _
    refine pred_ite ?_ ?_
    · refine State.taintRing_same _ ?_ _ _ _
      exact h4
    · exact h4

theorem State.normOut_same {s₀ : State} (s : State) (hs : Same s₀ s) (u : UGroup) (step : Nat) (a : Norm) :
    Same s₀ (State.normOut s u step a) := by
  unfold State.normOut
  refine pred_foldl ?_ ?_
  · intro x1 h1 a1
    refine State.setEngine_same _ ?_ _ _
    exact h1
  · exact hs

theorem State.sendNorm_same {s₀ : State} (s : State) (hs : Same s₀ s) (u : UGroup) (g : ShardGroup) (step : Nat) (leg : Nat) (a : Norm) :
    Same s₀ (State.sendNorm s u g step leg a) := by
  unfold State.sendNorm
  extract_lets -underBinder -merge -useContext +onlyGivenNames x1 x2
  have h2 : Same s₀ x2 := by
    unfold x2
    refine pred_ite ?_ ?_
    · exact Same.upd hs
    · exact hs
  refine State.e2eSend_same _ ?_ _ _ _ _ _ _ _
  exact h2

theorem State.normGo_same {s₀ : State} (s : State) (hs : Same s₀ s) (u : UGroup) (g : ShardGroup) (step : Nat) :
    Same s₀ (State.normGo s u g step) := by
  unfold State.normGo
  split
  · exact hs
  · extract_lets -underBinder -merge -useContext +onlyGivenNames x3
    extract_lets -underBinder -merge -useContext +onlyGivenNames x4
    clear_value x4
    refine pred_ite ?_ ?_
    · exact hs
    · split
      · exact hs
      · extract_lets -underBinder -merge -useContext +onlyGivenNames x8
        extract_lets -underBinder -merge -useContext +onlyGivenNames x9
        extract_lets -underBinder -merge -useContext +onlyGivenNames x10
        have h10 : Same s₀ x10 := by
          unfold x10
          exact Same.upd hs
        refine pred_ite ?_ ?_
        · extract_lets -underBinder -merge -useContext +onlyGivenNames x11
          have h11 : Same s₀ x11 := by
            unfold x11
            refine State.normOut_same _ ?_ _ _ _
            exact h10
          refine pred_ite ?_ ?_
          · exact h11
          · refine State.sendNorm_same _ ?_ _ _ _ _ _
            exact h11
        · refine State.sendNorm_same _ ?_ _ _ _ _ _
          exact h10

theorem State.setNorm_same {s₀ : State} (s : State) (hs : Same s₀ s) (u : UGroup) (step : Nat) (f : NormRun → NormRun) :
    Same s₀ (State.setNorm s u step f) := by
  unfold State.setNorm
  extract_lets -underBinder -merge -useContext +onlyGivenNames x1
  extract_lets -underBinder -merge -useContext +onlyGivenNames x2
  extract_lets -underBinder -merge -useContext +onlyGivenNames x3
  exact Same.upd hs

theorem State.normHear_same {s₀ : State} (s : State) (hs : Same s₀ s) (u : UGroup) (e : Nat) (step : Nat) (a : Norm) :
    Same s₀ (State.normHear s u e step a) := by
  unfold State.normHear
  split
  · refine State.normGo_same _ ?_ _ _ _
    refine State.setNorm_same _ ?_ _ _ _
    exact hs
  · exact hs

theorem State.sumVals_same {s₀ : State} (s : State) (hs : Same s₀ s) (half : Nat) (a : List Word) (b : List Word) :
    In2 (Same s₀) (State.sumVals s half a b) := by
  unfold State.sumVals
  extract_lets -underBinder -merge -useContext +onlyGivenNames x1
  refine In2.mk ?_
  refine State.inc_same _ ?_ _ _
  exact hs

theorem execCscalar_same {s₀ : State} (p : Port) (s : State) (hs : Same s₀ s) :
    InOut (Same s₀) (execCscalar p s) := by
  unfold execCscalar
  refine pred_ite ?_ ?_
  · refine InOut.next ?_
    exact hs
  · have h1 : InSome (Same s₀) (s.takeRx (↑p) 34) := by
      refine State.takeRx_same _ ?_ _ _
      exact hs
    generalize (s.takeRx (↑p) 34) = z1 at h1 ⊢
    split
    · refine InOut.next ?_
      exact hs
    · extract_lets -underBinder -merge -useContext +onlyGivenNames x5
      have h5 : In2 (Same s₀) x5 := by
        unfold x5
        refine State.e2eAccept_same _ ?_ _ _
        exact (h1 _ rfl)
      extract_lets -underBinder -merge -useContext +onlyGivenNames x6
      have h6 : Same s₀ x6 := by
        unfold x6
        exact h5.out
      refine pred_ite ?_ ?_
      · refine InOut.next ?_
        exact h6
      · extract_lets -underBinder -merge -useContext +onlyGivenNames x7
        split
        · refine InOut.next ?_
          refine State.refusePkt_same _ ?_ _ _ _ _
          exact h6
        · split
          · refine InOut.next ?_
            refine State.refusePkt_same _ ?_ _ _ _ _
            exact h6
          · extract_lets -underBinder -merge -useContext +onlyGivenNames x12
            refine pred_ite ?_ ?_
            · refine InOut.next ?_
              refine State.refusePkt_same _ ?_ _ _ _ _
              exact h6
            · refine pred_ite ?_ ?_
              · refine InOut.next ?_
                refine State.normGo_same _ ?_ _ _ _
                refine State.setNorm_same _ ?_ _ _ _
                exact h6
              · extract_lets -underBinder -merge -useContext +onlyGivenNames x13
                have h13 : Same s₀ x13 := by
                  unfold x13
                  refine State.normOut_same _ ?_ _ _ _
                  exact h6
                refine InOut.next ?_
                refine pred_ite ?_ ?_
                · exact h13
                · refine State.sendNorm_same _ ?_ _ _ _ _ _
                  exact h13

end Sys2Proof.Machine
end

