-- ==== Sys2Proof/Laws/SameUpdate.lean ====
section
/-! SUPPORT. Which of the update engines store nothing (`Same`), one lemma for each. -/

namespace Sys2Proof.Machine

open Sys2Proof

theorem State.drew_same {s₀ : State} (s : State) (hs : Same s₀ s) (u : UGroup) (n : Nat) :
    Same s₀ (State.drew s u n) := by
  unfold State.drew
  refine pred_ite ?_ ?_
  · exact Same.upd hs
  · exact hs

theorem State.copyBlockAt_same {s₀ : State} (s : State) (hs : Same s₀ s) (d : Desc) (u : UGroup) (e : Nat) (j : Nat) (limit : Nat) (k : Nat) (st : Staging) :
    In1 (Same s₀) (State.copyBlockAt s d u e j limit k st) := by
  unfold State.copyBlockAt
  extract_lets -underBinder -merge -useContext +onlyGivenNames x1
  extract_lets -underBinder -merge -useContext +onlyGivenNames x2
  extract_lets -underBinder -merge -useContext +onlyGivenNames x3
  extract_lets -underBinder -merge -useContext +onlyGivenNames x4
  extract_lets -underBinder -merge -useContext +onlyGivenNames x5
  extract_lets -underBinder -merge -useContext +onlyGivenNames x6
  extract_lets -underBinder -merge -useContext +onlyGivenNames x7
  extract_lets -underBinder -merge -useContext +onlyGivenNames x8
  refine In1.mk ?_
  refine State.inc_same _ ?_ _ _
  refine State.drew_same _ ?_ _ _
  exact hs

theorem State.copySlot_same {s₀ : State} (s : State) (hs : Same s₀ s) (d : Desc) (u : UGroup) (e : Nat) (j : Nat) (limit : Nat) (k : Nat) (st : Staging) :
    In1 (Same s₀) (State.copySlot s d u e j limit k st) := by
  unfold State.copySlot
  extract_lets -underBinder -merge -useContext +onlyGivenNames x1
  extract_lets -underBinder -merge -useContext +onlyGivenNames x2
  extract_lets -underBinder -merge -useContext +onlyGivenNames x3
  extract_lets -underBinder -merge -useContext +onlyGivenNames x4
  extract_lets -underBinder -merge -useContext +onlyGivenNames x5
  refine In1.mk ?_
  refine State.inc_same _ ?_ _ _
  refine State.drew_same _ ?_ _ _
  exact hs

theorem State.sendMwr_same {s₀ : State} (s : State) (hs : Same s₀ s) (e : Nat) (step : Nat) (group : Nat) (off : Nat) (bytes : List Byte) (isRec : Bool) :
    Same s₀ (State.sendMwr s e step group off bytes isRec) := by
  unfold State.sendMwr
  refine State.e2eSend_same _ ?_ _ _ _ _ _ _ _
  exact hs

theorem State.countIntake_same {s₀ : State} (s : State) (hs : Same s₀ s) (e : Nat) (bytes : Nat) :
    Same s₀ (State.countIntake s e bytes) := by
  unfold State.countIntake
  refine State.count_same _ ?_ _ _ _ _
  exact hs

theorem State.countPass2_same {s₀ : State} (s : State) (hs : Same s₀ s) (e : Nat) (n : Nat) (nf : Nat) :
    Same s₀ (State.countPass2 s e n nf) := by
  unfold State.countPass2
  refine State.count_same _ ?_ _ _ _ _
  refine State.inc_same _ ?_ _ _
  exact hs

theorem State.dropChunk_same {s₀ : State} (s : State) (hs : Same s₀ s) (e : Nat) (g : Nat) :
    Same s₀ (State.dropChunk s e g) := by
  unfold State.dropChunk
  refine State.breachOpen_same _ ?_ _ _
  refine State.inc_same _ ?_ _ _
  exact hs

theorem State.setRun_same {s₀ : State} (s : State) (hs : Same s₀ s) (e : Nat) (g : Nat) (step : Nat) (r : GrpRun) :
    Same s₀ (State.setRun s e g step r) := by
  unfold State.setRun
  extract_lets -underBinder -merge -useContext +onlyGivenNames x1
  refine State.setEngine_same _ ?_ _ _
  exact hs

theorem State.lateRebuild_same {s₀ : State} (s : State) (hs : Same s₀ s) (u : UGroup) (e : Nat) :
    Same s₀ (State.lateRebuild s u e) := by
  unfold State.lateRebuild
  split
  · refine pred_ite ?_ ?_
    · refine State.setRegF_same _ ?_ _ _ _ _
      refine State.inc_same _ ?_ _ _
      exact hs
    · exact hs
  · exact hs

theorem State.recompReq_same {s₀ : State} (s : State) (hs : Same s₀ s) (e : Nat) (v : Word) :
    Same s₀ (State.recompReq s e v) := by
  unfold State.recompReq
  extract_lets -underBinder -merge -useContext +onlyGivenNames x1
  extract_lets -underBinder -merge -useContext +onlyGivenNames x2
  have h2 : ∀ x3 : Nat, Same s₀ (x2 x3) := by
    unfold x2
    intro x3
    try beta_reduce
    refine State.setReg_same _ ?_ _ _
    exact hs
  refine pred_ite ?_ ?_
  · refine h2 _
  · split
    · refine h2 _
    · refine pred_ite ?_ ?_
      · refine h2 _
      · split
        · refine h2 _
        · extract_lets -underBinder -merge -useContext +onlyGivenNames x8
          split
          · refine pred_ite ?_ ?_
            · refine h2 _
            · extract_lets -underBinder -merge -useContext +onlyGivenNames x11
              extract_lets -underBinder -merge -useContext +onlyGivenNames x12
              refine State.setEngine_same _ ?_ _ _
              refine h2 _
          · refine h2 _

theorem State.restGroup_same {s₀ : State} (s : State) (hs : Same s₀ s) (g : Nat) (step : Nat) :
    Same s₀ (State.restGroup s g step) := by
  unfold State.restGroup
  split
  · exact hs
  · refine pred_foldl ?_ ?_
    · intro x3 h3 a3
      split
      · refine pred_ite ?_ ?_
        · refine State.restColl_same _ ?_ _
          exact h3
        · exact h3
      · exact h3
    · exact hs

theorem State.skew_same {s₀ : State} (s : State) (hs : Same s₀ s) (u : UGroup) (e : Nat) (t : Word) :
    Same s₀ (State.skew s u e t) := by
  unfold State.skew
  extract_lets -underBinder -merge -useContext +onlyGivenNames x1
  have h1 : Same s₀ x1 := by
    unfold x1
    refine State.setReg_same _ ?_ _ _
    refine State.inc_same _ ?_ _ _
    exact hs
  refine State.breachOpen_same _ ?_ _ _
  refine State.setReg_same _ ?_ _ _
  exact h1

theorem State.stateBad_same {s₀ : State} (s : State) (hs : Same s₀ s) (g : Nat) (addr : Nat) :
    Same s₀ (State.stateBad s g addr) := by
  unfold State.stateBad
  extract_lets -underBinder -merge -useContext +onlyGivenNames x1
  refine pred_ite ?_ ?_
  · refine pred_ite ?_ ?_
    · refine pred_ite ?_ ?_
      · exact hs
      · refine State.pairLoss_same _ ?_ _ _ _ _ _
        refine State.readUnit_same _ ?_ _
        exact hs
    · refine pred_ite ?_ ?_
      · exact hs
      · refine State.openWindow_same _ ?_ _ _ _
        refine State.breachOpen_same _ ?_ _ _
        refine State.readUnit_same _ ?_ _
        exact hs
  · refine pred_ite ?_ ?_
    · exact hs
    · extract_lets -underBinder -merge -useContext +onlyGivenNames x2
      have h2 : Same s₀ x2 := by
        unfold x2
        refine State.breachOpen_same _ ?_ _ _
        refine State.readUnit_same _ ?_ _
        exact hs
      exact Same.upd h2

theorem State.switched_same {s₀ : State} (s : State) (hs : Same s₀ s) (u : UGroup) (e : Nat) (r : GrpRun) :
    Same s₀ (State.switched s u e r) := by
  unfold State.switched
  refine pred_ite ?_ ?_
  · refine State.setRegF_same _ ?_ _ _ _ _
    refine State.setRegF_same _ ?_ _ _ _ _
    refine State.setEngine_same _ ?_ _ _
    exact hs
  · exact hs

theorem execNormResult_same {s₀ : State} (e : Half) (s : State) (hs : Same s₀ s) :
    InOut (Same s₀) (execNormResult e s) := by
  unfold execNormResult
  refine pred_ite ?_ ?_
  · refine InOut.next ?_
    exact hs
  · split
    · refine InOut.next ?_
      exact hs
    · extract_lets -underBinder -merge -useContext +onlyGivenNames x6 x7
      have h7 : Same s₀ x7 := by
        unfold x7
        refine State.setEngine_same _ ?_ _ _
        exact hs
      split
      · refine pred_ite ?_ ?_
        · extract_lets -underBinder -merge -useContext +onlyGivenNames x10
          have h10 : Same s₀ x10 := by
            unfold x10
            refine pred_ite ?_ ?_
            · refine State.lateRebuild_same _ ?_ _ _
              exact h7
            · exact h7
          extract_lets -underBinder -merge -useContext +onlyGivenNames x11
          have h11 : Same s₀ x11 := by
            unfold x11
            refine State.setRun_same _ ?_ _ _ _ _
            exact h10
          extract_lets -underBinder -merge -useContext +onlyGivenNames x12
          have h12 : Same s₀ x12 := by
            unfold x12
            refine State.logNamed_same _ ?_ _ _ _
            refine State.inc_same _ ?_ _ _
            exact h11
          refine InOut.next ?_
          refine State.restGroup_same _ ?_ _ _
          exact h12
        · extract_lets -underBinder -merge -useContext +onlyGivenNames x13
          extract_lets -underBinder -merge -useContext +onlyGivenNames x14
          extract_lets -underBinder -merge -useContext +onlyGivenNames x15
          extract_lets -underBinder -merge -useContext +onlyGivenNames x16
          have h16 : Same s₀ x16 := by
            unfold x16
            refine pred_ite ?_ ?_
            · refine State.skew_same _ ?_ _ _ _
              exact h7
            · exact h7
          extract_lets -underBinder -merge -useContext +onlyGivenNames x17
          have h17 : Same s₀ x17 := by
            unfold x17
            refine pred_ite ?_ ?_
            · refine State.lateRebuild_same _ ?_ _ _
              exact h16
            · exact h16
          refine InOut.next ?_
          refine State.setRun_same _ ?_ _ _ _ _
          exact h17
      · refine InOut.next ?_
        exact h7

theorem execRecompReady_same {s₀ : State} (e : Half) (s : State) (hs : Same s₀ s) :
    InOut (Same s₀) (execRecompReady e s) := by
  unfold execRecompReady
  split
  · refine InOut.next ?_
    refine pred_ite ?_ ?_
    · refine State.setReg_same _ ?_ _ _
      refine State.setEngine_same _ ?_ _ _
      exact hs
    · exact hs
  · refine InOut.next ?_
    exact hs

theorem execTwinLost_same {s₀ : State} (e : Half) (s : State) (hs : Same s₀ s) :
    InOut (Same s₀) (execTwinLost e s) := by
  unfold execTwinLost
  extract_lets -underBinder -merge -useContext +onlyGivenNames x1
  extract_lets -underBinder -merge -useContext +onlyGivenNames x2
  extract_lets -underBinder -merge -useContext +onlyGivenNames x3
  extract_lets -underBinder -merge -useContext +onlyGivenNames x4
  extract_lets -underBinder -merge -useContext +onlyGivenNames x5
  refine pred_ite ?_ ?_
  · refine InOut.next ?_
    exact hs
  · refine pred_ite ?_ ?_
    · refine InOut.next ?_
      refine State.loseTwin_same _ ?_ _
      exact hs
    · refine pred_ite ?_ ?_
      · refine InOut.next ?_
        refine State.loseTwin_same _ ?_ _
        exact Same.upd hs
      · refine InOut.next ?_
        exact hs

theorem execUpdRecompReq_same {s₀ : State} (_a : Accessor) (e : Half) (v : Word) (s : State) (hs : Same s₀ s) :
    InOut (Same s₀) (execUpdRecompReq _a e v s) := by
  unfold execUpdRecompReq
  refine InOut.next ?_
  refine State.recompReq_same _ ?_ _ _
  exact hs

end Sys2Proof.Machine
end

