-- ==== Sys2Proof/Laws/SameStepctl.lean ====
section
/-! SUPPORT. Which of the step controller store nothing (`Same`), one lemma for each. -/

namespace Sys2Proof.Machine

open Sys2Proof

theorem State.setCtl_same {s₀ : State} (s : State) (hs : Same s₀ s) (f : Ctl → Ctl) :
    Same s₀ (State.setCtl s f) := by
  unfold State.setCtl
  exact Same.upd hs

theorem State.issueMbs_same {s₀ : State} (sched : List Sched) (n : Nat) (s : State) (hs : Same s₀ s) :
    Same s₀ (State.issueMbs sched n s) := by
  induction n generalizing s with
  | zero => exact hs
  | succ n ih =>
    unfold State.issueMbs
    split
    · exact hs
    · exact pred_ite (ih _ (State.sendMb_same _ (State.setCtl_same _ hs _) _ _)) hs

theorem State.beginCores_same {s₀ : State} (s : State) (hs : Same s₀ s) (k : Nat) :
    Same s₀ (State.beginCores s k) := by
  unfold State.beginCores
  split
  · refine pred_foldl ?_ ?_
    · intro x2 h2 a2
      refine State.sendCmd_same _ ?_ _ _
      exact h2
    · exact hs
  · exact hs

theorem State.phaseEnded_same {s₀ : State} (s : State) (hs : Same s₀ s) (e : Sched) :
    Same s₀ (State.phaseEnded s e) := by
  unfold State.phaseEnded
  refine State.setCtl_same _ ?_ _
  exact hs

theorem State.beginHere_same {s₀ : State} (s : State) (hs : Same s₀ s) (k : Nat) :
    Same s₀ (State.beginHere s k) := by
  unfold State.beginHere
  extract_lets -underBinder -merge -useContext +onlyGivenNames x1
  have h1 : Same s₀ x1 := by
    unfold x1
    refine State.islandStep_same _ ?_ _ _
    exact hs
  refine State.addLog_same _ ?_ _ _ _
  refine State.setCtl_same _ ?_ _
  exact h1

theorem State.holdCheck_same {s₀ : State} (s : State) (hs : Same s₀ s) :
    Same s₀ (State.holdCheck s) := by
  unfold State.holdCheck
  extract_lets -underBinder -merge -useContext +onlyGivenNames x1
  refine pred_ite ?_ ?_
  · exact hs
  · refine pred_ite ?_ ?_
    · refine State.enterHolding_same _ ?_ _
      exact hs
    · refine pred_ite ?_ ?_
      · refine State.enterHolding_same _ ?_ _
        exact hs
      · exact hs

theorem State.postResult_same {s₀ : State} (s : State) (hs : Same s₀ s) (w : Nat) (k : Nat) :
    Same s₀ (State.postResult s w k) := by
  unfold State.postResult
  split
  · extract_lets -underBinder -merge -useContext +onlyGivenNames x2
    refine State.announce_same _ ?_ _ _ _ _
    refine State.setWindow_same _ ?_ _ _
    exact hs
  · exact hs

theorem State.postStep_same {s₀ : State} (s : State) (hs : Same s₀ s) (k : Nat) :
    Same s₀ (State.postStep s k) := by
  unfold State.postStep
  refine pred_foldl ?_ ?_
  · intro x1 h1 a1
    split
    · refine pred_ite ?_ ?_
      · refine State.postResult_same _ ?_ _ _
        exact h1
      · exact h1
    · exact h1
  · exact hs

theorem State.freeFeeds_same {s₀ : State} (s : State) (hs : Same s₀ s) (k : Nat) :
    Same s₀ (State.freeFeeds s k) := by
  unfold State.freeFeeds
  refine pred_foldl ?_ ?_
  · intro x1 h1 a1
    split
    · refine State.setFeed_same _ ?_ _ _
      exact h1
    · exact h1
  · exact hs

theorem State.cplPoison_same {s₀ : State} (s : State) (hs : Same s₀ s) (c : Nat) :
    Same s₀ (State.cplPoison s c) := by
  unfold State.cplPoison
  extract_lets -underBinder -merge -useContext +onlyGivenNames x1
  have h1 : Same s₀ x1 := by
    unfold x1
    refine State.qPoison_same _ ?_ _ _
    exact hs
  extract_lets -underBinder -merge -useContext +onlyGivenNames x2
  extract_lets -underBinder -merge -useContext +onlyGivenNames x3
  have h3 : Same s₀ x3 := by
    unfold x3
    refine State.breachOpen_same _ ?_ _ _
    exact h1
  refine pred_ite ?_ ?_
  · exact h3
  · refine State.resendCmd_same _ ?_ _
    exact h3

theorem State.lenReplay_same {s₀ : State} (s : State) (hs : Same s₀ s) (e : Sched) (c : Core) :
    Same s₀ (State.lenReplay s e c) := by
  unfold State.lenReplay
  extract_lets -underBinder -merge -useContext +onlyGivenNames x1
  extract_lets -underBinder -merge -useContext +onlyGivenNames x2
  have h2 : Same s₀ x2 := by
    unfold x2
    refine State.breachOpen_same _ ?_ _ _
    exact hs
  refine pred_ite ?_ ?_
  · refine State.setCtl_same _ ?_ _
    exact h2
  · refine State.replayPhase_same _ ?_ _
    exact h2

theorem State.phaseResult_same {s₀ : State} (s : State) (hs : Same s₀ s) (e : Sched) (c : Core) (poison : Bool) (lenBad : Bool) :
    Same s₀ (State.phaseResult s e c poison lenBad) := by
  unfold State.phaseResult
  refine pred_ite ?_ ?_
  · extract_lets -underBinder -merge -useContext +onlyGivenNames x1
    have h1 : In1 (Same s₀) x1 := by
      unfold x1
      refine State.poisonedPhase_same _ ?_ _ _
      exact hs
    refine pred_ite ?_ ?_
    · refine State.phaseEnded_same _ ?_ _
      exact h1.out
    · exact h1.out
  · refine pred_ite ?_ ?_
    · refine State.lenReplay_same _ ?_ _ _
      exact hs
    · refine State.phaseEnded_same _ ?_ _
      exact hs

theorem execFeedStall_same {s₀ : State} (s : State) (hs : Same s₀ s) :
    InOut (Same s₀) (execFeedStall s) := by
  unfold execFeedStall
  extract_lets -underBinder -merge -useContext +onlyGivenNames x1
  split
  · refine pred_ite ?_ ?_
    · refine InOut.next ?_
      refine State.announce_same _ ?_ _ _ _ _
      refine State.inc_same _ ?_ _ _
      refine State.setCtl_same _ ?_ _
      exact hs
    · refine InOut.next ?_
      exact hs
  · refine InOut.next ?_
    exact hs

theorem execResultStall_same {s₀ : State} (s : State) (hs : Same s₀ s) :
    InOut (Same s₀) (execResultStall s) := by
  unfold execResultStall
  extract_lets -underBinder -merge -useContext +onlyGivenNames x1
  refine pred_ite ?_ ?_
  · extract_lets -underBinder -merge -useContext +onlyGivenNames x2
    have h2 : Same s₀ x2 := by
      unfold x2
      refine pred_foldl ?_ ?_
      · intro x3 h3 a3
        split
        · refine State.setWindow_same _ ?_ _ _
          exact h3
        · exact h3
      · exact hs
    refine InOut.next ?_
    refine State.inc_same _ ?_ _ _
    exact h2
  · refine InOut.next ?_
    exact hs

end Sys2Proof.Machine
end

