-- ==== Sys2Proof/Laws/SamePower.lean ====
section
/-! SUPPORT. Which of power and sensors store nothing (`Same`), one lemma for each. -/

namespace Sys2Proof.Machine

open Sys2Proof

theorem State.addEnergy_same {s₀ : State} (s : State) (hs : Same s₀ s) (p : Nat) :
    Same s₀ (State.addEnergy s p) := by
  unfold State.addEnergy
  extract_lets -underBinder -merge -useContext +onlyGivenNames x1
  refine State.setReg48_same _ ?_ _ _ _
  exact Same.upd hs

theorem State.setPwrState_same {s₀ : State} (s : State) (hs : Same s₀ s) (key : Nat) (v : Nat) :
    Same s₀ (State.setPwrState s key v) := by
  unfold State.setPwrState
  exact Same.upd hs

theorem State.wake_same {s₀ : State} (s : State) (hs : Same s₀ s) (f : PwrFn) :
    Same s₀ (State.wake s f) := by
  unfold State.wake
  split
  · refine pred_ite ?_ ?_
    · refine State.leaveReset_same _ ?_ _
      exact hs
    · refine State.ungate_same _ ?_ _
      exact hs
  · refine State.setRegF_same _ ?_ _ _ _ _
    refine State.setRegF_same _ ?_ _ _ _ _
    exact hs
  · extract_lets -underBinder -merge -useContext +onlyGivenNames x4 x5
    have h5 : Same s₀ x5 := by
      unfold x5
      refine pred_ite ?_ ?_
      · refine State.setChan_same _ ?_ _ _
        refine State.leaveReset_same _ ?_ _
        exact hs
      · exact hs
    refine State.setPwrState_same _ ?_ _ _
    exact h5
  · refine State.setPwrState_same _ ?_ _ _
    exact hs

theorem State.budgetWritten_same {s₀ : State} (s : State) (hs : Same s₀ s) (k : Nat) :
    Same s₀ (State.budgetWritten s k) := by
  unfold State.budgetWritten
  refine pred_foldl ?_ ?_
  · intro x1 h1 a1
    refine pred_ite ?_ ?_
    · refine State.wake_same _ ?_ _
      exact h1
    · exact h1
  · exact hs

theorem State.checkAlert_same {s₀ : State} (s : State) (hs : Same s₀ s) (k : Nat) :
    Same s₀ (State.checkAlert s k) := by
  unfold State.checkAlert
  extract_lets -underBinder -merge -useContext +onlyGivenNames x1
  extract_lets -underBinder -merge -useContext +onlyGivenNames x2
  extract_lets -underBinder -merge -useContext +onlyGivenNames x3
  refine pred_ite ?_ ?_
  · extract_lets -underBinder -merge -useContext +onlyGivenNames x4
    extract_lets -underBinder -merge -useContext +onlyGivenNames x5
    have h5 : Same s₀ x5 := by
      unfold x5
      refine State.setRegF_same _ ?_ _ _ _ _
      exact hs
    refine pred_ite ?_ ?_
    · refine State.logNamed_same _ ?_ _ _ _
      exact h5
    · exact h5
  · exact hs

theorem State.dueClocks_same {s₀ : State} (s : State) (hs : Same s₀ s) :
    Same s₀ (State.dueClocks s) := by
  unfold State.dueClocks
  refine pred_foldl ?_ ?_
  · intro x1 h1 a1
    extract_lets -underBinder -merge -useContext +onlyGivenNames x2
    extract_lets -underBinder -merge -useContext +onlyGivenNames x3
    refine pred_ite ?_ ?_
    · refine pred_ite ?_ ?_
      · exact h1
      · refine State.setCore_same _ ?_ _ _
        exact h1
    · refine State.setCore_same _ ?_ _ _
      exact h1
  · exact hs

theorem State.railDown_same {s₀ : State} (s : State) (hs : Same s₀ s) (c : Core) :
    Same s₀ (State.railDown s c) := by
  unfold State.railDown
  exact Same.upd hs

theorem State.enterPower_same {s₀ : State} (s : State) (hs : Same s₀ s) (f : PwrFn) (st : Nat) :
    Same s₀ (State.enterPower s f st) := by
  unfold State.enterPower
  split
  · refine State.setPstate_same _ ?_ _ _
    refine pred_ite ?_ ?_
    · refine State.railDown_same _ ?_ _
      refine State.enterReset_same _ ?_ _ _
      exact hs
    · exact hs
  · refine State.setRegF_same _ ?_ _ _ _ _
    refine State.setRegF_same _ ?_ _ _ _ _
    exact hs
  · extract_lets -underBinder -merge -useContext +onlyGivenNames x4 x5
    have h5 : Same s₀ x5 := by
      unfold x5
      refine pred_ite ?_ ?_
      · refine State.setChan_same _ ?_ _ _
        refine State.enterReset_same _ ?_ _ _
        exact hs
      · exact hs
    refine State.setPwrState_same _ ?_ _ _
    exact h5
  · refine State.setPwrState_same _ ?_ _ _
    exact hs

theorem State.inputSample_same {s₀ : State} (s : State) (hs : Same s₀ s) (j : Nat) :
    Same s₀ (State.inputSample s j) := by
  unfold State.inputSample
  extract_lets -underBinder -merge -useContext +onlyGivenNames x1
  extract_lets -underBinder -merge -useContext +onlyGivenNames x2
  have h2 : Same s₀ x2 := by
    unfold x2
    exact Same.upd hs
  extract_lets -underBinder -merge -useContext +onlyGivenNames x3
  extract_lets -underBinder -merge -useContext +onlyGivenNames x4
  have h4 : Same s₀ x4 := by
    unfold x4
    refine pred_ite ?_ ?_
    · refine State.setRegF_same _ ?_ _ _ _ _
      exact h2
    · exact h2
  refine pred_ite ?_ ?_
  · extract_lets -underBinder -merge -useContext +onlyGivenNames x5
    refine pred_ite ?_ ?_
    · refine State.setRegF_same _ ?_ _ _ _ _
      exact h4
    · exact h4
  · exact h4

theorem State.recheckAlerts_same {s₀ : State} (s : State) (hs : Same s₀ s) (mask : Nat) :
    Same s₀ (State.recheckAlerts s mask) := by
  unfold State.recheckAlerts
  refine pred_foldl ?_ ?_
  · intro x1 h1 a1
    refine pred_ite ?_ ?_
    · refine State.checkAlert_same _ ?_ _
      exact h1
    · exact h1
  · exact hs

theorem execCoreThermalGate_same {s₀ : State} (c : Core) (s : State) (hs : Same s₀ s) :
    InOut (Same s₀) (execCoreThermalGate c s) := by
  unfold execCoreThermalGate
  extract_lets -underBinder -merge -useContext +onlyGivenNames x1
  split
  · refine InOut.next ?_
    exact hs
  · refine pred_ite ?_ ?_
    · refine InOut.next ?_
      refine State.ungate_same _ ?_ _
      refine State.setCore_same _ ?_ _ _
      exact hs
    · refine pred_ite ?_ ?_
      · refine InOut.next ?_
        refine State.setPstate_same _ ?_ _ _
        refine State.setCore_same _ ?_ _ _
        exact hs
      · refine InOut.next ?_
        exact hs

theorem execDroopEnd_same {s₀ : State} (c : Core) (s : State) (hs : Same s₀ s) :
    InOut (Same s₀) (execDroopEnd c s) := by
  unfold execDroopEnd
  extract_lets -underBinder -merge -useContext +onlyGivenNames x1
  refine pred_ite ?_ ?_
  · refine InOut.next ?_
    exact hs
  · extract_lets -underBinder -merge -useContext +onlyGivenNames x2
    extract_lets -underBinder -merge -useContext +onlyGivenNames x3
    have h3 : Same s₀ x3 := by
      unfold x3
      refine State.setCore_same _ ?_ _ _
      exact hs
    refine InOut.next ?_
    refine pred_ite ?_ ?_
    · refine State.setRegF_same _ ?_ _ _ _ _
      exact h3
    · exact h3

theorem execDroopResponse_same {s₀ : State} (c : Core) (s : State) (hs : Same s₀ s) :
    InOut (Same s₀) (execDroopResponse c s) := by
  unfold execDroopResponse
  extract_lets -underBinder -merge -useContext +onlyGivenNames x1
  refine pred_ite ?_ ?_
  · refine InOut.next ?_
    exact hs
  · refine InOut.next ?_
    refine State.inc_same _ ?_ _ _
    refine State.setCore_same _ ?_ _ _
    exact hs

theorem execHousekeepingRailDown_same {s₀ : State} (s : State) (hs : Same s₀ s) :
    InOut (Same s₀) (execHousekeepingRailDown s) := by
  unfold execHousekeepingRailDown
  refine InOut.next ?_
  exact Same.upd hs

theorem execIdleEntry_same {s₀ : State} (f : PwrFn) (s : State) (hs : Same s₀ s) :
    InOut (Same s₀) (execIdleEntry f s) := by
  unfold execIdleEntry
  refine InOut.next ?_
  refine pred_ite ?_ ?_
  · refine State.enterPower_same _ ?_ _ _
    exact hs
  · exact hs

theorem execInputTurnOn_same {s₀ : State} (s : State) (hs : Same s₀ s) :
    InOut (Same s₀) (execInputTurnOn s) := by
  unfold execInputTurnOn
  refine InOut.next ?_
  refine pred_ite ?_ ?_
  · exact hs
  · refine pred_ite ?_ ?_
    · exact Same.upd hs
    · exact Same.upd hs

theorem execPowerCapEval_same {s₀ : State} (p : BitVec 16) (s : State) (hs : Same s₀ s) :
    InOut (Same s₀) (execPowerCapEval p s) := by
  unfold execPowerCapEval
  extract_lets -underBinder -merge -useContext +onlyGivenNames x1
  extract_lets -underBinder -merge -useContext +onlyGivenNames x2
  extract_lets -underBinder -merge -useContext +onlyGivenNames x3
  have h3 : Same s₀ x3 := by
    unfold x3
    refine State.setRegF_same _ ?_ _ _ _ _
    refine State.setRegF_same _ ?_ _ _ _ _
    exact hs
  extract_lets -underBinder -merge -useContext +onlyGivenNames x4
  have h4 : Same s₀ x4 := by
    unfold x4
    refine State.setRegF_same _ ?_ _ _ _ _
    exact h3
  extract_lets -underBinder -merge -useContext +onlyGivenNames x5
  have h5 : Same s₀ x5 := by
    unfold x5
    refine State.setRegF_same _ ?_ _ _ _ _
    exact h4
  refine InOut.next ?_
  refine State.dueClocks_same _ ?_
  refine State.addEnergy_same _ ?_ _
  exact h5

theorem execPowerStateWake_same {s₀ : State} (f : PwrFn) (s : State) (hs : Same s₀ s) :
    InOut (Same s₀) (execPowerStateWake f s) := by
  unfold execPowerStateWake
  refine InOut.next ?_
  refine pred_ite ?_ ?_
  · refine State.wake_same _ ?_ _
    exact hs
  · exact hs

theorem execSensorUpdate_same {s₀ : State} (j : Fin 256) (v : BitVec 24) (s : State) (hs : Same s₀ s) :
    InOut (Same s₀) (execSensorUpdate j v s) := by
  unfold execSensorUpdate
  refine pred_ite ?_ ?_
  · refine InOut.next ?_
    exact hs
  · extract_lets -underBinder -merge -useContext +onlyGivenNames x1
    have h1 : Same s₀ x1 := by
      unfold x1
      refine pred_ite ?_ ?_
      · exact Same.upd hs
      · exact hs
    extract_lets -underBinder -merge -useContext +onlyGivenNames x2
    have h2 : Same s₀ x2 := by
      unfold x2
      refine State.inputSample_same _ ?_ _
      refine State.setReg_same _ ?_ _ _
      exact h1
    refine InOut.next ?_
    refine pred_foldl ?_ ?_
    · intro x3 h3 a3
      refine pred_ite ?_ ?_
      · refine State.checkAlert_same _ ?_ _
        exact h3
      · exact h3
    · exact h2

theorem execThermalEval_same {s₀ : State} (s : State) (hs : Same s₀ s) :
    InOut (Same s₀) (execThermalEval s) := by
  unfold execThermalEval
  extract_lets -underBinder -merge -useContext +onlyGivenNames x1
  have h1 : Same s₀ x1 := by
    unfold x1
    refine pred_foldl ?_ ?_
    · intro x2 h2 a2
      split
      · exact h2
      · extract_lets -underBinder -merge -useContext +onlyGivenNames x5
        refine pred_ite ?_ ?_
        · exact h2
        · refine State.setCore_same _ ?_ _ _
          exact h2
    · exact hs
  refine InOut.next ?_
  refine State.dueClocks_same _ ?_
  refine State.noteTherm_same _ ?_
  exact Same.upd h1

end Sys2Proof.Machine
end

