-- ==== Sys2Proof/Laws/SamePins.lean ====
section
/-! SUPPORT. Which of pins and the test port store nothing (`Same`), one lemma for each. -/

namespace Sys2Proof.Machine

open Sys2Proof

theorem State.answerIn_same {s₀ : State} (s : State) (hs : Same s₀ s) (lo : Nat) (hi : Nat) (status : Nat) (data : List Byte) :
    Same s₀ (State.answerIn s lo hi status data) := by
  unfold State.answerIn
  extract_lets -underBinder -merge -useContext +onlyGivenNames x1
  have h1 : Same s₀ x1 := by
    unfold x1
    refine In2.out ?_
    refine State.draw_same _ ?_
    exact hs
  exact Same.upd h1

theorem State.answer_same {s₀ : State} (s : State) (hs : Same s₀ s) (status : Nat) (data : List Byte) :
    Same s₀ (State.answer s status data) := by
  unfold State.answer
  refine State.answerIn_same _ ?_ _ _ _ _
  exact hs

theorem State.loadTap_same {s₀ : State} (s : State) (hs : Same s₀ s) (i : TapIns) (refused : Bool) :
    Same s₀ (State.loadTap s i refused) := by
  unfold State.loadTap
  refine pred_ite ?_ ?_
  · exact Same.upd hs
  · exact hs

theorem State.loadPins_same {s₀ : State} (s : State) (hs : Same s₀ s) (i : TapIns) :
    Same s₀ (State.loadPins s i) := by
  unfold State.loadPins
  refine pred_ite ?_ ?_
  · refine State.loadTap_same _ ?_ _ _
    exact hs
  · refine State.loadTap_same _ ?_ _ _
    exact hs

theorem State.mgmt_same {s₀ : State} (s : State) (hs : Same s₀ s) (code : Nat) (m : MgmtCmd) (ok : Bool) (legal : Bool) (run : State → State) (hrun : ∀ z1 : State, Same s₀ z1 → Same s₀ (run z1)) :
    Same s₀ (State.mgmt s code m ok legal run) := by
  unfold State.mgmt
  refine pred_ite ?_ ?_
  · exact hs
  · refine pred_ite ?_ ?_
    · exact hs
    · refine pred_ite ?_ ?_
      · refine State.answer_same _ ?_ _ _
        exact hs
      · refine pred_ite ?_ ?_
        · refine State.answer_same _ ?_ _ _
          exact hs
        · refine pred_ite ?_ ?_
          · refine State.answer_same _ ?_ _ _
            refine State.inc_same _ ?_ _ _
            exact hs
          · refine hrun _ ?_
            exact hs

theorem execBypass_same {s₀ : State} (code : Byte) (s : State) (hs : Same s₀ s) :
    InOut (Same s₀) (execBypass code s) := by
  unfold execBypass
  split
  · refine InOut.next ?_
    refine State.loadPins_same _ ?_ _
    exact hs
  · refine InOut.next ?_
    refine State.loadTap_same _ ?_ _ _
    exact hs
  · refine InOut.next ?_
    refine State.loadTap_same _ ?_ _ _
    exact hs
  · refine InOut.next ?_
    refine State.loadPins_same _ ?_ _
    exact hs
  · refine InOut.next ?_
    refine State.loadPins_same _ ?_ _
    exact hs
  · refine InOut.next ?_
    refine State.loadTap_same _ ?_ _ _
    exact hs

theorem execClamp_same {s₀ : State} (s : State) (hs : Same s₀ s) :
    InOut (Same s₀) (execClamp s) := by
  unfold execClamp
  refine InOut.next ?_
  refine State.loadPins_same _ ?_ _
  exact hs

theorem execClearAlert_same {s₀ : State} (m : MgmtCmd) (s : State) (hs : Same s₀ s) :
    InOut (Same s₀) (execClearAlert m s) := by
  unfold execClearAlert
  refine InOut.next ?_
  refine State.mgmt_same _ ?_ _ _ _ _ _ ?_
  · exact hs
  · intro x1 h1
    try beta_reduce
    refine State.answer_same _ ?_ _ _
    refine State.recheckAlerts_same _ ?_ _
    refine State.setReg_same _ ?_ _ _
    exact h1

theorem execDataRegisterScan_same {s₀ : State} (tdi : List Bool) (pins : BitVec 12) (s : State) (hs : Same s₀ s) :
    InOut (Same s₀) (execDataRegisterScan tdi pins s) := by
  unfold execDataRegisterScan
  refine pred_ite ?_ ?_
  · refine InOut.next ?_
    exact hs
  · split
    · extract_lets -underBinder -merge -useContext +onlyGivenNames x2
      refine InOut.next ?_
      exact Same.upd hs
    · extract_lets -underBinder -merge -useContext +onlyGivenNames x4
      refine InOut.next ?_
      exact Same.upd hs
    · refine InOut.next ?_
      exact Same.upd hs
    · extract_lets -underBinder -merge -useContext +onlyGivenNames x7
      refine InOut.next ?_
      exact Same.upd hs
    · extract_lets -underBinder -merge -useContext +onlyGivenNames x9
      refine InOut.next ?_
      exact Same.upd hs
    · extract_lets -underBinder -merge -useContext +onlyGivenNames x11
      refine InOut.next ?_
      exact Same.upd hs

theorem execExtest_same {s₀ : State} (s : State) (hs : Same s₀ s) :
    InOut (Same s₀) (execExtest s) := by
  unfold execExtest
  refine InOut.next ?_
  refine State.loadPins_same _ ?_ _
  exact hs

theorem execGetIdentity_same {s₀ : State} (m : MgmtCmd) (s : State) (hs : Same s₀ s) :
    InOut (Same s₀) (execGetIdentity m s) := by
  unfold execGetIdentity
  refine InOut.next ?_
  refine State.mgmt_same _ ?_ _ _ _ _ _ ?_
  · exact hs
  · intro x1 h1
    try beta_reduce
    refine State.answer_same _ ?_ _ _
    exact h1

theorem execGetState_same {s₀ : State} (m : MgmtCmd) (s : State) (hs : Same s₀ s) :
    InOut (Same s₀) (execGetState m s) := by
  unfold execGetState
  refine InOut.next ?_
  refine State.mgmt_same _ ?_ _ _ _ _ _ ?_
  · exact hs
  · intro x1 h1
    try beta_reduce
    refine State.answer_same _ ?_ _ _
    exact h1

theorem execHighz_same {s₀ : State} (s : State) (hs : Same s₀ s) :
    InOut (Same s₀) (execHighz s) := by
  unfold execHighz
  refine InOut.next ?_
  refine State.loadPins_same _ ?_ _
  exact hs

theorem execIdcode_same {s₀ : State} (s : State) (hs : Same s₀ s) :
    InOut (Same s₀) (execIdcode s) := by
  unfold execIdcode
  refine InOut.next ?_
  refine State.loadTap_same _ ?_ _ _
  exact hs

theorem execReadBreach_same {s₀ : State} (m : MgmtCmd) (s : State) (hs : Same s₀ s) :
    InOut (Same s₀) (execReadBreach m s) := by
  unfold execReadBreach
  refine InOut.next ?_
  refine State.mgmt_same _ ?_ _ _ _ _ _ ?_
  · exact hs
  · intro x1 h1
    try beta_reduce
    extract_lets -underBinder -merge -useContext +onlyGivenNames x2
    extract_lets -underBinder -merge -useContext +onlyGivenNames x3
    refine pred_ite ?_ ?_
    · refine State.answer_same _ ?_ _ _
      exact h1
    · split
      · refine State.answer_same _ ?_ _ _
        exact h1
      · refine State.answer_same _ ?_ _ _
        exact h1

theorem execReadReg_same {s₀ : State} (m : MgmtCmd) (s : State) (hs : Same s₀ s) :
    InOut (Same s₀) (execReadReg m s) := by
  unfold execReadReg
  extract_lets -underBinder -merge -useContext +onlyGivenNames x1
  refine InOut.next ?_
  refine State.mgmt_same _ ?_ _ _ _ _ _ ?_
  · exact hs
  · intro x2 h2
    try beta_reduce
    refine State.answer_same _ ?_ _ _
    exact h2

theorem execReadSensors_same {s₀ : State} (m : MgmtCmd) (s : State) (hs : Same s₀ s) :
    InOut (Same s₀) (execReadSensors m s) := by
  unfold execReadSensors
  extract_lets -underBinder -merge -useContext +onlyGivenNames x1
  extract_lets -underBinder -merge -useContext +onlyGivenNames x2
  refine InOut.next ?_
  refine State.mgmt_same _ ?_ _ _ _ _ _ ?_
  · exact hs
  · intro x3 h3
    try beta_reduce
    refine State.answer_same _ ?_ _ _
    exact h3

theorem execSamplePreload_same {s₀ : State} (s : State) (hs : Same s₀ s) :
    InOut (Same s₀) (execSamplePreload s) := by
  unfold execSamplePreload
  refine InOut.next ?_
  refine State.loadTap_same _ ?_ _ _
  exact hs

theorem execSetAlert_same {s₀ : State} (m : MgmtCmd) (s : State) (hs : Same s₀ s) :
    InOut (Same s₀) (execSetAlert m s) := by
  unfold execSetAlert
  extract_lets -underBinder -merge -useContext +onlyGivenNames x1
  extract_lets -underBinder -merge -useContext +onlyGivenNames x2
  refine InOut.next ?_
  refine State.mgmt_same _ ?_ _ _ _ _ _ ?_
  · exact hs
  · intro x3 h3
    try beta_reduce
    extract_lets -underBinder -merge -useContext +onlyGivenNames x4
    have h4 : Same s₀ x4 := by
      unfold x4
      refine State.setReg_same _ ?_ _ _
      exact h3
    refine State.answer_same _ ?_ _ _
    refine State.checkAlert_same _ ?_ _
    refine State.setReg_same _ ?_ _ _
    exact h4

theorem execSetCap_same {s₀ : State} (m : MgmtCmd) (s : State) (hs : Same s₀ s) :
    InOut (Same s₀) (execSetCap m s) := by
  unfold execSetCap
  refine InOut.next ?_
  refine State.mgmt_same _ ?_ _ _ _ _ _ ?_
  · exact hs
  · intro x1 h1
    try beta_reduce
    refine State.answer_same _ ?_ _ _
    refine State.setReg_same _ ?_ _ _
    exact h1

theorem execTapReset_same {s₀ : State} (s : State) (hs : Same s₀ s) :
    InOut (Same s₀) (execTapReset s) := by
  unfold execTapReset
  refine InOut.next ?_
  exact Same.upd hs

end Sys2Proof.Machine
end

