-- ==== Sys2Proof/Laws/SameFabric.lean ====
section
/-! SUPPORT. Which of the fabric and far memory store nothing (`Same`), one lemma for each. -/

namespace Sys2Proof.Machine

open Sys2Proof

theorem State.closeChan_same {s₀ : State} (s : State) (hs : Same s₀ s) (ch : Nat) :
    Same s₀ (State.closeChan s ch) := by
  unfold State.closeChan
  extract_lets -underBinder -merge -useContext +onlyGivenNames x1
  refine pred_ite ?_ ?_
  · exact hs
  · refine State.closeWindow_same _ ?_ _ _
    exact hs

theorem State.sendRead_same {s₀ : State} (s : State) (hs : Same s₀ s) (e : Nat) (node : Nat) (addr : Nat) (n : Nat) (use : ReadUse) :
    Same s₀ (State.sendRead s e node addr n use) := by
  unfold State.sendRead
  extract_lets -underBinder -merge -useContext +onlyGivenNames x1
  extract_lets -underBinder -merge -useContext +onlyGivenNames x2
  refine State.e2eSend_same _ ?_ _ _ _ _ _ _ _
  exact Same.upd hs

theorem State.copyPiece_same {s₀ : State} (s : State) (hs : Same s₀ s) (e : Nat) (a : Nat) (n : Nat) :
    Same s₀ (State.copyPiece s e a n) := by
  unfold State.copyPiece
  extract_lets -underBinder -merge -useContext +onlyGivenNames x1
  have h1 : ∀ x2 : State, Same s₀ x2 → ∀ x3 : Nat, ∀ x4 : Nat, Same s₀ (x1 x2 x3 x4) := by
    unfold x1
    intro x2 h2 x3 x4
    try beta_reduce
    split
    · refine State.sendMwr_same _ ?_ _ _ _ _ _ _
      exact h2
    · exact h2
  extract_lets -underBinder -merge -useContext +onlyGivenNames x7
  have h7 : Same s₀ x7 := by
    unfold x7
    refine State.readRange_same _ ?_ _ _
    exact hs
  refine pred_ite ?_ ?_
  · refine pred_foldl ?_ ?_
    · intro x8 h8 a8
      refine pred_ite ?_ ?_
      · exact h8
      · refine h1 _ ?_ _ _
        exact h8
    · exact h7
  · refine h1 _ ?_ _ _
    exact h7

theorem State.inSync_same {s₀ : State} (s : State) (hs : Same s₀ s) :
    Same s₀ (State.inSync s) := by
  unfold State.inSync
  extract_lets -underBinder -merge -useContext +onlyGivenNames x1
  have h1 : Same s₀ x1 := by
    unfold x1
    refine State.closeWindow_same _ ?_ _ _
    refine State.setRegF_same _ ?_ _ _ _ _
    refine State.setReg48_same _ ?_ _ _ _
    exact Same.upd hs
  refine pred_ite ?_ ?_
  · exact h1
  · refine State.closeWindow_same _ ?_ _ _
    exact h1

theorem State.openChan_same {s₀ : State} (s : State) (hs : Same s₀ s) (ch : Nat) :
    Same s₀ (State.openChan s ch) := by
  unfold State.openChan
  refine pred_ite ?_ ?_
  · exact hs
  · refine State.openWindow_same _ ?_ _ _ _
    exact hs

theorem State.pairBack_same {s₀ : State} (s : State) (hs : Same s₀ s) (data : List Byte) :
    Same s₀ (State.pairBack s data) := by
  unfold State.pairBack
  split
  · exact hs
  · extract_lets -underBinder -merge -useContext +onlyGivenNames x3
    extract_lets -underBinder -merge -useContext +onlyGivenNames x4
    extract_lets -underBinder -merge -useContext +onlyGivenNames x5
    extract_lets -underBinder -merge -useContext +onlyGivenNames x6
    refine pred_ite ?_ ?_
    · exact hs
    · refine State.loseTwin_same _ ?_ _
      exact hs

theorem State.queueRetire_same {s₀ : State} (s : State) (hs : Same s₀ s) (a : Nat) :
    Same s₀ (State.queueRetire s a) := by
  unfold State.queueRetire
  extract_lets -underBinder -merge -useContext +onlyGivenNames x1
  refine State.setChan_same _ ?_ _ _
  exact hs

theorem State.showLeft_same {s₀ : State} (s : State) (hs : Same s₀ s) (l : List (Half × Nat × Nat)) :
    Same s₀ (State.showLeft s l) := by
  unfold State.showLeft
  refine State.setReg48_same _ ?_ _ _ _
  exact hs

theorem State.startResync_same {s₀ : State} (s : State) (hs : Same s₀ s) :
    Same s₀ (State.startResync s) := by
  unfold State.startResync
  extract_lets -underBinder -merge -useContext +onlyGivenNames x1
  refine State.showLeft_same _ ?_ _
  refine State.setRegF_same _ ?_ _ _ _ _
  exact Same.upd hs

theorem State.twinPartner_same {s₀ : State} (s : State) (hs : Same s₀ s) (p : Nat) (node : Nat) :
    Same s₀ (State.twinPartner s p node) := by
  unfold State.twinPartner
  refine pred_ite ?_ ?_
  · exact hs
  · refine pred_ite ?_ ?_
    · refine State.portLost_same _ ?_ _
      exact hs
    · refine pred_ite ?_ ?_
      · refine State.startResync_same _ ?_
        exact hs
      · exact hs

theorem execLinkCtlHello_same {s₀ : State} (p : Port) (s : State) (hs : Same s₀ s) :
    InOut (Same s₀) (execLinkCtlHello p s) := by
  unfold execLinkCtlHello
  have h1 : InSome (Same s₀) (s.takeRx (↑p) 64) := by
    refine State.takeRx_same _ ?_ _ _
    exact hs
  generalize (s.takeRx (↑p) 64) = z1 at h1 ⊢
  split
  · refine InOut.next ?_
    exact hs
  · refine pred_ite ?_ ?_
    · refine InOut.next ?_
      exact hs
    · extract_lets -underBinder -merge -useContext +onlyGivenNames x5
      extract_lets -underBinder -merge -useContext +onlyGivenNames x6
      extract_lets -underBinder -merge -useContext +onlyGivenNames x7
      refine pred_ite ?_ ?_
      · refine InOut.next ?_
        refine State.twinPartner_same _ ?_ _ _
        refine State.linkUp_same _ ?_ _ _
        refine State.setRegF_same _ ?_ _ _ _ _
        exact (h1 _ rfl)
      · refine pred_ite ?_ ?_
        · refine InOut.next ?_
          refine State.twinPartner_same _ ?_ _ _
          refine State.sendCtl_same _ ?_ _ _
          refine State.linkUp_same _ ?_ _ _
          refine State.setRegF_same _ ?_ _ _ _ _
          exact (h1 _ rfl)
        · refine InOut.next ?_
          exact (h1 _ rfl)

theorem execMack_same {s₀ : State} (p : Port) (s : State) (hs : Same s₀ s) :
    InOut (Same s₀) (execMack p s) := by
  unfold execMack
  have h1 : InSome (Same s₀) (s.takeRx (↑p) 49) := by
    refine State.takeRx_same _ ?_ _ _
    exact hs
  generalize (s.takeRx (↑p) 49) = z1 at h1 ⊢
  split
  · refine InOut.next ?_
    exact hs
  · extract_lets -underBinder -merge -useContext +onlyGivenNames x5
    have h5 : In2 (Same s₀) x5 := by
      unfold x5
      refine State.e2eAccept_same _ ?_ _ _
      exact (h1 _ rfl)
    extract_lets -underBinder -merge -useContext +onlyGivenNames x6
    have h6 : Same s₀ x6 := by
      unfold x6
      exact h5.out
    extract_lets -underBinder -merge -useContext +onlyGivenNames x7
    extract_lets -underBinder -merge -useContext +onlyGivenNames x8
    refine pred_ite ?_ ?_
    · refine InOut.next ?_
      exact h6
    · refine pred_ite ?_ ?_
      · split
        · refine pred_ite ?_ ?_
          · extract_lets -underBinder -merge -useContext +onlyGivenNames x11
            have h11 : Same s₀ x11 := by
              unfold x11
              refine State.addLog_same _ ?_ _ _ _
              refine State.setCtl_same _ ?_ _
              exact h6
            extract_lets -underBinder -merge -useContext +onlyGivenNames x12
            have h12 : Same s₀ x12 := by
              unfold x12
              refine State.count_same _ ?_ _ _ _ _
              exact h11
            refine InOut.next ?_
            refine pred_ite ?_ ?_
            · refine State.inSync_same _ ?_
              exact h12
            · exact h12
          · refine InOut.next ?_
            refine State.refusePkt_same _ ?_ _ _ _ _
            exact h6
        · refine InOut.next ?_
          refine State.refusePkt_same _ ?_ _ _ _ _
          exact h6
      · extract_lets -underBinder -merge -useContext +onlyGivenNames x14
        split
        · refine InOut.next ?_
          refine State.count_same _ ?_ _ _ _ _
          refine State.setEngine_same _ ?_ _ _
          exact h6
        · refine InOut.next ?_
          refine State.refusePkt_same _ ?_ _ _ _ _
          exact h6

theorem execRead_same {s₀ : State} (p : Port) (s : State) (hs : Same s₀ s) :
    InOut (Same s₀) (execRead p s) := by
  unfold execRead
  have h1 : InSome (Same s₀) (s.takeRx (↑p) 17) := by
    refine State.takeRx_same _ ?_ _ _
    exact hs
  generalize (s.takeRx (↑p) 17) = z1 at h1 ⊢
  split
  · refine InOut.next ?_
    exact hs
  · extract_lets -underBinder -merge -useContext +onlyGivenNames x5
    extract_lets -underBinder -merge -useContext +onlyGivenNames x6
    extract_lets -underBinder -merge -useContext +onlyGivenNames x7
    have h7 : In2 (Same s₀) x7 := by
      unfold x7
      refine State.e2eAccept_same _ ?_ _ _
      exact (h1 _ rfl)
    extract_lets -underBinder -merge -useContext +onlyGivenNames x8
    have h8 : Same s₀ x8 := by
      unfold x8
      exact h7.out
    refine pred_ite ?_ ?_
    · refine InOut.next ?_
      exact hs
    · refine pred_ite ?_ ?_
      · refine InOut.next ?_
        exact h8
      · refine pred_ite ?_ ?_
        · refine InOut.next ?_
          refine State.refusePkt_same _ ?_ _ _ _ _
          exact h8
        · refine pred_ite ?_ ?_
          · extract_lets -underBinder -merge -useContext +onlyGivenNames x9
            refine InOut.next ?_
            refine State.e2eSend_same _ ?_ _ _ _ _ _ _ _
            refine State.readRange_same _ ?_ _ _
            exact h8
          · refine InOut.next ?_
            refine State.refusePkt_same _ ?_ _ _ _ _
            exact h8

theorem execResyncUnitCopy_same {s₀ : State} (e : Half) (s : State) (hs : Same s₀ s) :
    InOut (Same s₀) (execResyncUnitCopy e s) := by
  unfold execResyncUnitCopy
  split
  · refine InOut.next ?_
    exact hs
  · split
    · refine InOut.next ?_
      exact hs
    · extract_lets -underBinder -merge -useContext +onlyGivenNames x5
      extract_lets -underBinder -merge -useContext +onlyGivenNames x6
      refine pred_ite ?_ ?_
      · refine InOut.next ?_
        exact hs
      · extract_lets -underBinder -merge -useContext +onlyGivenNames x7
        have h7 : Same s₀ x7 := by
          unfold x7
          refine pred_foldl ?_ ?_
          · intro x8 h8 a8
            refine State.copyPiece_same _ ?_ _ _ _
            exact h8
          · exact hs
        extract_lets -underBinder -merge -useContext +onlyGivenNames x9
        extract_lets -underBinder -merge -useContext +onlyGivenNames x10
        have h10 : Same s₀ x10 := by
          unfold x10
          exact Same.upd h7
        refine InOut.next ?_
        refine State.showLeft_same _ ?_ _
        refine pred_ite ?_ ?_
        · refine State.setRegF_same _ ?_ _ _ _ _
          exact h10
        · exact h10

theorem execRowRetire_same {s₀ : State} (ch : Chan) (s : State) (hs : Same s₀ s) :
    InOut (Same s₀) (execRowRetire ch s) := by
  unfold execRowRetire
  extract_lets -underBinder -merge -useContext +onlyGivenNames x1
  split
  · refine InOut.next ?_
    exact hs
  · extract_lets -underBinder -merge -useContext +onlyGivenNames x5
    extract_lets -underBinder -merge -useContext +onlyGivenNames x6
    extract_lets -underBinder -merge -useContext +onlyGivenNames x7
    extract_lets -underBinder -merge -useContext +onlyGivenNames x8
    have h8 : Same s₀ x8 := by
      unfold x8
      refine State.setChan_same _ ?_ _ _
      exact hs
    extract_lets -underBinder -merge -useContext +onlyGivenNames x9
    refine pred_ite ?_ ?_
    · refine InOut.next ?_
      refine State.breachOpen_same _ ?_ _ _
      refine State.inc_same _ ?_ _ _
      exact h8
    · extract_lets -underBinder -merge -useContext +onlyGivenNames x10
      extract_lets -underBinder -merge -useContext +onlyGivenNames x11
      extract_lets -underBinder -merge -useContext +onlyGivenNames x12
      have h12 : Same s₀ x12 := by
        unfold x12
        refine State.setChan_same _ ?_ _ _
        exact h8
      extract_lets -underBinder -merge -useContext +onlyGivenNames x13
      have h13 : Same s₀ x13 := by
        unfold x13
        refine State.inc_same _ ?_ _ _
        refine State.setRegF_same _ ?_ _ _ _ _
        exact h12
      refine InOut.next ?_
      refine State.breachOpen_same _ ?_ _ _
      exact Same.upd h13

end Sys2Proof.Machine
end

