-- ==== Sys2Proof/Laws/SameFaults.lean ====
section
/-! SUPPORT. Which of faults and recovery store nothing (`Same`), one lemma for each. -/

namespace Sys2Proof.Machine

open Sys2Proof

theorem State.rerun_same {s₀ : State} (s : State) (hs : Same s₀ s) (e : Sched) :
    Same s₀ (State.rerun s e) := by
  unfold State.rerun
  split
  · exact hs
  · refine pred_ite ?_ ?_
    · refine State.replayPhase_same _ ?_ _
      exact hs
    · extract_lets -underBinder -merge -useContext +onlyGivenNames x3
      have h3 : In1 (Same s₀) x3 := by
        unfold x3
        refine State.poisonedPhase_same _ ?_ _ _
        exact hs
      refine pred_ite ?_ ?_
      · refine State.phaseEnded_same _ ?_ _
        exact h3.out
      · exact h3.out

theorem State.setRestoreStat_same {s₀ : State} (s : State) (hs : Same s₀ s) (n : Nat) :
    Same s₀ (State.setRestoreStat s n) := by
  unfold State.setRestoreStat
  refine State.setReg_same _ ?_ _ _
  exact hs

theorem State.restoreDone_same {s₀ : State} (s : State) (hs : Same s₀ s) (c : Nat) :
    Same s₀ (State.restoreDone s c) := by
  unfold State.restoreDone
  extract_lets -underBinder -merge -useContext +onlyGivenNames x1
  have h1 : Same s₀ x1 := by
    unfold x1
    refine State.setCtl_same _ ?_ _
    exact hs
  extract_lets -underBinder -merge -useContext +onlyGivenNames x2
  have h2 : Same s₀ x2 := by
    unfold x2
    refine State.setRestoreStat_same _ ?_ _
    exact h1
  extract_lets -underBinder -merge -useContext +onlyGivenNames x3
  have h3 : Same s₀ x3 := by
    unfold x3
    refine pred_ite ?_ ?_
    · exact h2
    · refine State.closeWindow_same _ ?_ _ _
      exact h2
  exact Same.upd h3

theorem State.restoreStart_same {s₀ : State} (s : State) (hs : Same s₀ s) :
    Same s₀ (State.restoreStart s) := by
  unfold State.restoreStart
  refine pred_ite ?_ ?_
  · refine State.setRestoreStat_same _ ?_ _
    exact hs
  · extract_lets -underBinder -merge -useContext +onlyGivenNames x1
    extract_lets -underBinder -merge -useContext +onlyGivenNames x2
    have h2 : Same s₀ x2 := by
      unfold x2
      exact Same.upd hs
    extract_lets -underBinder -merge -useContext +onlyGivenNames x3
    have h3 : Same s₀ x3 := by
      unfold x3
      refine State.setRestoreStat_same _ ?_ _
      exact Same.upd h2
    extract_lets -underBinder -merge -useContext +onlyGivenNames x4
    have h4 : Same s₀ x4 := by
      unfold x4
      refine State.openWindow_same _ ?_ _ _ _
      exact h3
    refine pred_foldl ?_ ?_
    · intro x5 h5 a5
      split
      · refine State.sendRead_same _ ?_ _ _ _ _ _
        exact h5
      · exact h5
    · exact h4

theorem execCoreFail_same {s₀ : State} (c : Core) (cause : CoreFailCause) (s : State) (hs : Same s₀ s) :
    InOut (Same s₀) (execCoreFail c cause s) := by
  unfold execCoreFail
  refine InOut.next ?_
  refine pred_ite ?_ ?_
  · refine State.coreFail_same _ ?_ _ _ _
    exact hs
  · exact hs

theorem execCoreWatchdog_same {s₀ : State} (c : Core) (s : State) (hs : Same s₀ s) :
    InOut (Same s₀) (execCoreWatchdog c s) := by
  unfold execCoreWatchdog
  refine InOut.next ?_
  refine pred_ite ?_ ?_
  · refine State.coreFail_same _ ?_ _ _ _
    exact hs
  · exact hs

theorem execDumpComplete_same {s₀ : State} (s : State) (hs : Same s₀ s) :
    InOut (Same s₀) (execDumpComplete s) := by
  unfold execDumpComplete
  refine InOut.next ?_
  refine pred_ite ?_ ?_
  · refine State.setMode_same _ ?_ _
    exact hs
  · exact hs

theorem execPolderLoss_same {s₀ : State} (why : PolderCause) (s : State) (hs : Same s₀ s) :
    InOut (Same s₀) (execPolderLoss why s) := by
  unfold execPolderLoss
  refine InOut.next ?_
  refine pred_ite ?_ ?_
  · refine State.polderLoss_same _ ?_ _ _ _ _
    exact hs
  · exact hs

theorem execRestoreStart_same {s₀ : State} (s : State) (hs : Same s₀ s) :
    InOut (Same s₀) (execRestoreStart s) := by
  unfold execRestoreStart
  refine InOut.next ?_
  refine State.restoreStart_same _ ?_
  exact hs

end Sys2Proof.Machine
end

