-- ==== Sys2Proof/Laws/SameLoader.lean ====
section
/-! SUPPORT. Which of the loader store nothing (`Same`), one lemma for each. -/

namespace Sys2Proof.Machine

open Sys2Proof

theorem State.drewRange_same {s₀ : State} (s : State) (hs : Same s₀ s) (a : Nat) (n : Nat) :
    Same s₀ (State.drewRange s a n) := by
  unfold State.drewRange
  refine pred_ite ?_ ?_
  · exact Same.upd hs
  · exact hs

theorem State.markSpares_same {s₀ : State} (s : State) (hs : Same s₀ s) (stages : List Stage) :
    Same s₀ (State.markSpares s stages) := by
  unfold State.markSpares
  refine pred_foldl ?_ ?_
  · intro x1 h1 a1
    refine pred_ite ?_ ?_
    · refine pred_foldl ?_ ?_
      · intro x2 h2 a2
        extract_lets -underBinder -merge -useContext +onlyGivenNames x3
        have h3 : Same s₀ x3 := by
          unfold x3
          refine State.setRegF_same _ ?_ _ _ _ _
          exact h2
        refine pred_ite ?_ ?_
        · exact h3
        · refine State.setPstate_same _ ?_ _ _
          exact h3
      · exact h1
    · exact h1
  · exact hs

theorem State.setLoadStat_same {s₀ : State} (s : State) (hs : Same s₀ s) (e : LoadErr) :
    Same s₀ (State.setLoadStat s e) := by
  unfold State.setLoadStat
  extract_lets -underBinder -merge -useContext +onlyGivenNames x1
  have h1 : Same s₀ x1 := by
    unfold x1
    refine State.setReg_same _ ?_ _ _
    exact hs
  refine State.setReg_same _ ?_ _ _
  exact h1

end Sys2Proof.Machine
end

