-- ==== Sys2Proof/Laws/SameRegAccess.lean ====
section
/-! SUPPORT. Which of register accesses store nothing (`Same`), one lemma for each. -/

namespace Sys2Proof.Machine

open Sys2Proof

theorem State.clearOvf_same {s₀ : State} (s : State) (hs : Same s₀ s) (b : Nat) (v : Nat) :
    Same s₀ (State.clearOvf s b v) := by
  unfold State.clearOvf
  refine pred_foldl ?_ ?_
  · intro x1 h1 a1
    refine pred_ite ?_ ?_
    · refine State.setRegF_same _ ?_ _ _ _ _
      exact h1
    · exact h1
  · exact hs

theorem State.evcWriteCtl_same {s₀ : State} (s : State) (hs : Same s₀ s) (b : Nat) (v : Nat) :
    Same s₀ (State.evcWriteCtl s b v) := by
  unfold State.evcWriteCtl
  extract_lets -underBinder -merge -useContext +onlyGivenNames x1
  have h1 : Same s₀ x1 := by
    unfold x1
    refine State.setReg_same _ ?_ _ _
    exact hs
  extract_lets -underBinder -merge -useContext +onlyGivenNames x2
  have h2 : Same s₀ x2 := by
    unfold x2
    refine pred_ite ?_ ?_
    · refine State.evcSnap_same _ ?_ _ _
      exact h1
    · exact h1
  refine pred_ite ?_ ?_
  · refine State.evcClear_same _ ?_ _
    exact h2
  · exact h2

theorem State.evcWriteSel_same {s₀ : State} (s : State) (hs : Same s₀ s) (b : Nat) (i : Nat) (v : Nat) :
    Same s₀ (State.evcWriteSel s b i v) := by
  unfold State.evcWriteSel
  extract_lets -underBinder -merge -useContext +onlyGivenNames x1
  extract_lets -underBinder -merge -useContext +onlyGivenNames x2
  refine State.setReg_same _ ?_ _ _
  exact hs

theorem State.writeEvc_same {s₀ : State} (s : State) (hs : Same s₀ s) (b : Nat) (o : Nat) (v : Word) :
    Same s₀ (State.writeEvc s b o v) := by
  unfold State.writeEvc
  refine pred_ite ?_ ?_
  · refine pred_ite ?_ ?_
    · refine State.evcWriteSel_same _ ?_ _ _ _
      exact hs
    · refine pred_ite ?_ ?_
      · refine State.evcWriteLo_same _ ?_ _ _ _
        exact hs
      · refine pred_ite ?_ ?_
        · refine State.evcWriteHi_same _ ?_ _ _ _
          exact hs
        · exact hs
  · refine pred_ite ?_ ?_
    · refine State.evcWriteCtl_same _ ?_ _ _
      exact hs
    · refine pred_ite ?_ ?_
      · refine State.clearOvf_same _ ?_ _ _
        exact hs
      · exact hs

theorem State.writeStarts_same {s₀ : State} (s : State) (hs : Same s₀ s) (a : Nat) (v : Word) :
    Same s₀ (State.writeStarts s a v) := by
  unfold State.writeStarts
  extract_lets -underBinder -merge -useContext +onlyGivenNames x1
  extract_lets -underBinder -merge -useContext +onlyGivenNames x2
  refine pred_ite ?_ ?_
  · extract_lets -underBinder -merge -useContext +onlyGivenNames x3
    have h3 : Same s₀ x3 := by
      unfold x3
      refine pred_ite ?_ ?_
      · refine State.evcBroadcast_same _ ?_ _
        exact hs
      · exact hs
    refine pred_ite ?_ ?_
    · refine State.evcBroadcast_same _ ?_ _
      exact h3
    · exact h3
  · refine pred_ite ?_ ?_
    · refine pred_ite ?_ ?_
      · refine State.restoreStart_same _ ?_
        exact hs
      · exact hs
    · refine pred_ite ?_ ?_
      · refine State.budgetWritten_same _ ?_ _
        exact hs
      · refine pred_ite ?_ ?_
        · refine State.checkAlert_same _ ?_ _
          exact hs
        · refine pred_ite ?_ ?_
          · refine State.recheckAlerts_same _ ?_ _
            exact hs
          · refine pred_ite ?_ ?_
            · exact hs
            · refine pred_ite ?_ ?_
              · refine State.recompReq_same _ ?_ _ _
                exact hs
              · refine pred_ite ?_ ?_
                · extract_lets -underBinder -merge -useContext +onlyGivenNames x4
                  extract_lets -underBinder -merge -useContext +onlyGivenNames x5
                  have h5 : Same s₀ x5 := by
                    unfold x5
                    refine pred_ite ?_ ?_
                    · refine State.fencePort_same _ ?_ _
                      exact hs
                    · exact hs
                  refine pred_ite ?_ ?_
                  · refine State.unfencePort_same _ ?_ _
                    exact h5
                  · exact h5
                · exact hs

theorem State.writeReg_same {s₀ : State} (s : State) (hs : Same s₀ s) (a : Nat) (v : Word) :
    Same s₀ (State.writeReg s a v) := by
  unfold State.writeReg
  split
  · refine State.unmapped_same _ ?_ _ _
    exact hs
  · split
    · refine State.writeEvc_same _ ?_ _ _ _
      exact hs
    · refine pred_ite ?_ ?_
      · exact hs
      · refine State.writeStarts_same _ ?_ _ _
        refine State.setReg_same _ ?_ _ _
        exact hs

theorem execRegisterWrite_same {s₀ : State} (_a : Accessor) (addr : BitVec 32) (v : Word) (s : State) (hs : Same s₀ s) :
    InOut (Same s₀) (execRegisterWrite _a addr v s) := by
  unfold execRegisterWrite
  refine InOut.next ?_
  refine State.writeReg_same _ ?_ _ _
  exact hs

end Sys2Proof.Machine
end

