-- ==== Sys2Proof/Laws/SameHostLink.lean ====
section
/-! SUPPORT. Which of the host lanes store nothing (`Same`), one lemma for each. -/

namespace Sys2Proof.Machine

open Sys2Proof

theorem State.hostAccept_same {s₀ : State} (s : State) (hs : Same s₀ s) (qid : Nat) (e : BitVec 16 × HostCmd) :
    Same s₀ (State.hostAccept s qid e) := by
  unfold State.hostAccept
  extract_lets -underBinder -merge -useContext +onlyGivenNames x1
  extract_lets -underBinder -merge -useContext +onlyGivenNames x2
  extract_lets -underBinder -merge -useContext +onlyGivenNames x3
  extract_lets -underBinder -merge -useContext +onlyGivenNames x4
  have h4 : Same s₀ x4 := by
    unfold x4
    refine State.setHostQ_same _ ?_ _ _
    exact hs
  extract_lets -underBinder -merge -useContext +onlyGivenNames x5
  have h5 : Same s₀ x5 := by
    unfold x5
    refine pred_foldl ?_ ?_
    · intro x6 h6 a6
      refine State.count_same _ ?_ _ _ _ _
      exact h6
    · exact h4
  refine State.flushBad_same _ _ _ ?_
  exact h5

theorem State.hostDuplicate_same {s₀ : State} (s : State) (hs : Same s₀ s) (l : Nat) (qid : Nat) (cmd : Nat) (h : HostCmd) :
    Same s₀ (State.hostDuplicate s l qid cmd h) := by
  unfold State.hostDuplicate
  extract_lets -underBinder -merge -useContext +onlyGivenNames x1
  have h1 : Same s₀ x1 := by
    unfold x1
    refine State.inc_same _ ?_ _ _
    exact hs
  extract_lets -underBinder -merge -useContext +onlyGivenNames x2
  refine pred_ite ?_ ?_
  · refine State.setHostQ_same _ ?_ _ _
    exact h1
  · split
    · refine State.hostSend_same _ ?_ _ _
      exact h1
    · exact h1

theorem State.hostViolate_same {s₀ : State} (s : State) (hs : Same s₀ s) (l : Nat) (code : Nat) (q : Pkt) (expected : Nat) :
    Same s₀ (State.hostViolate s l code q expected) := by
  unfold State.hostViolate
  extract_lets -underBinder -merge -useContext +onlyGivenNames x1
  extract_lets -underBinder -merge -useContext +onlyGivenNames x2
  extract_lets -underBinder -merge -useContext +onlyGivenNames x3
  extract_lets -underBinder -merge -useContext +onlyGivenNames x4
  have h4 : Same s₀ x4 := by
    unfold x4
    refine State.inc_same _ ?_ _ _
    exact hs
  extract_lets -underBinder -merge -useContext +onlyGivenNames x5
  have h5 : Same s₀ x5 := by
    unfold x5
    refine State.setReg_same _ ?_ _ _
    exact h4
  extract_lets -underBinder -merge -useContext +onlyGivenNames x6
  have h6 : Same s₀ x6 := by
    unfold x6
    refine State.addLog_same _ ?_ _ _ _
    exact h5
  refine pred_ite ?_ ?_
  · exact h6
  · refine State.hostSend_same _ ?_ _ _
    refine State.noteNak_same _ ?_ _ _
    exact h6

theorem State.hostCmd_same {s₀ : State} (s : State) (hs : Same s₀ s) (lane : Lane) (q : Pkt) :
    Same s₀ (State.hostCmd s lane q) := by
  unfold State.hostCmd
  extract_lets -underBinder -merge -useContext +onlyGivenNames x1
  extract_lets -underBinder -merge -useContext +onlyGivenNames x2
  extract_lets -underBinder -merge -useContext +onlyGivenNames x3
  extract_lets -underBinder -merge -useContext +onlyGivenNames x4
  extract_lets -underBinder -merge -useContext +onlyGivenNames x5
  extract_lets -underBinder -merge -useContext +onlyGivenNames x6
  refine pred_ite ?_ ?_
  · refine State.hostDuplicate_same _ ?_ _ _ _ _
    exact hs
  · refine pred_ite ?_ ?_
    · refine State.hostViolate_same _ ?_ _ _ _ _
      exact hs
    · refine pred_ite ?_ ?_
      · refine State.setHostQ_same _ ?_ _ _
        exact hs
      · refine pred_ite ?_ ?_
        · refine State.hostViolate_same _ ?_ _ _ _ _
          exact hs
        · refine pred_ite ?_ ?_
          · refine State.hostAccept_same _ ?_ _ _
            exact hs
          · refine State.setHostQ_same _ ?_ _ _
            exact hs

theorem State.hostPkt_same {s₀ : State} (s : State) (hs : Same s₀ s) (lane : Lane) (q : Pkt) (lenOk : Bool) :
    Same s₀ (State.hostPkt s lane q lenOk) := by
  unfold State.hostPkt
  extract_lets -underBinder -merge -useContext +onlyGivenNames x1
  extract_lets -underBinder -merge -useContext +onlyGivenNames x2
  extract_lets -underBinder -merge -useContext +onlyGivenNames x3
  refine pred_ite ?_ ?_
  · refine State.hostViolate_same _ ?_ _ _ _ _
    refine pred_ite ?_ ?_
    · refine State.dropRx_same _ ?_ _ _
      exact hs
    · exact hs
  · refine pred_ite ?_ ?_
    · refine State.hostViolate_same _ ?_ _ _ _ _
      exact hs
    · refine pred_ite ?_ ?_
      · extract_lets -underBinder -merge -useContext +onlyGivenNames x4
        have h4 : Same s₀ x4 := by
          unfold x4
          refine State.freeRx_same _ ?_ _ _
          refine State.setLink_same _ ?_ _ _
          exact hs
        refine State.hostCmd_same _ ?_ _ _
        exact h4
      · refine pred_ite ?_ ?_
        · exact hs
        · refine State.setLink_same _ ?_ _ _
          exact hs

theorem State.laneAttempt_same {s₀ : State} (s : State) (hs : Same s₀ s) (l : Nat) :
    Same s₀ (State.laneAttempt s l) := by
  unfold State.laneAttempt
  refine State.incF_same _ ?_ _ _ _
  refine State.setLinkState_same _ ?_ _ _
  exact hs

theorem State.laneLost_same {s₀ : State} (s : State) (hs : Same s₀ s) (l : Nat) :
    Same s₀ (State.laneLost s l) := by
  unfold State.laneLost
  extract_lets -underBinder -merge -useContext +onlyGivenNames x1
  have h1 : Same s₀ x1 := by
    unfold x1
    refine State.breachOpen_same _ ?_ _ _
    refine State.linkDown_same _ ?_ _
    exact hs
  refine State.laneAttempt_same _ ?_ _
  exact h1

theorem execEventDrop_same {s₀ : State} (s : State) (hs : Same s₀ s) :
    InOut (Same s₀) (execEventDrop s) := by
  unfold execEventDrop
  extract_lets -underBinder -merge -useContext +onlyGivenNames x1
  extract_lets -underBinder -merge -useContext +onlyGivenNames x2
  split
  · refine InOut.next ?_
    exact hs
  · refine InOut.next ?_
    refine State.inc_same _ ?_ _ _
    refine State.setLink_same _ ?_ _ _
    exact hs

theorem execGapTimeout_same {s₀ : State} (q : Fin 16) (s : State) (hs : Same s₀ s) :
    InOut (Same s₀) (execGapTimeout q s) := by
  unfold execGapTimeout
  extract_lets -underBinder -merge -useContext +onlyGivenNames x1
  refine pred_ite ?_ ?_
  · refine InOut.next ?_
    exact hs
  · refine InOut.next ?_
    refine pred_foldl ?_ ?_
    · intro x2 h2 a2
      refine State.hostViolate_same _ ?_ _ _ _ _
      exact h2
    · refine State.setHostQ_same _ ?_ _ _
      exact hs

theorem execHostFlitReceive_same {s₀ : State} (l : Lane) (bytes : List Byte) (fec : FecResult) (s : State) (hs : Same s₀ s) :
    InOut (Same s₀) (execHostFlitReceive l bytes fec s) := by
  unfold execHostFlitReceive
  refine pred_ite ?_ ?_
  · refine InOut.next ?_
    exact hs
  · extract_lets -underBinder -merge -useContext +onlyGivenNames x1
    have h1 : In22 (Same s₀) x1 := by
      unfold x1
      refine State.rxFlit_same _ ?_ _ _ _
      exact hs
    extract_lets -underBinder -merge -useContext +onlyGivenNames x2
    have h2 : Same s₀ x2 := by
      unfold x2
      exact h1.out
    extract_lets -underBinder -merge -useContext +onlyGivenNames x3
    have h3 : Same s₀ x3 := by
      unfold x3
      refine pred_ite ?_ ?_
      · exact h2
      · refine State.hostViolate_same _ ?_ _ _ _ _
        exact h2
    refine InOut.next ?_
    refine State.pump_same _ ?_ _
    refine pred_foldl ?_ ?_
    · intro x4 h4 a4
      refine State.hostPkt_same _ ?_ _ _ _
      exact h4
    · exact h3

theorem execHostLaneFail_same {s₀ : State} (l : Lane) (s : State) (hs : Same s₀ s) :
    InOut (Same s₀) (execHostLaneFail l s) := by
  unfold execHostLaneFail
  refine InOut.next ?_
  refine pred_ite ?_ ?_
  · refine State.laneLost_same _ ?_ _
    exact hs
  · exact hs

theorem execHostLaneSilence_same {s₀ : State} (l : Lane) (s : State) (hs : Same s₀ s) :
    InOut (Same s₀) (execHostLaneSilence l s) := by
  unfold execHostLaneSilence
  refine InOut.next ?_
  refine pred_ite ?_ ?_
  · refine State.laneLost_same _ ?_ _
    exact hs
  · exact hs

theorem execHostLaneTrain_same {s₀ : State} (l : Lane) (peer : LaneHello) (s : State) (hs : Same s₀ s) :
    InOut (Same s₀) (execHostLaneTrain l peer s) := by
  unfold execHostLaneTrain
  refine pred_ite ?_ ?_
  · refine InOut.next ?_
    exact hs
  · extract_lets -underBinder -merge -useContext +onlyGivenNames x1
    have h1 : Same s₀ x1 := by
      unfold x1
      refine pred_ite ?_ ?_
      · refine State.laneAttempt_same _ ?_ _
        exact hs
      · exact hs
    extract_lets -underBinder -merge -useContext +onlyGivenNames x2
    have h2 : Same s₀ x2 := by
      unfold x2
      refine State.clockIn_same _ ?_ _
      exact h1
    refine pred_ite ?_ ?_
    · refine InOut.next ?_
      exact h2
    · extract_lets -underBinder -merge -useContext +onlyGivenNames x3 x4
      have h4 : Same s₀ x4 := by
        unfold x4
        refine State.setLink_same _ ?_ _ _
        exact h2
      extract_lets -underBinder -merge -useContext +onlyGivenNames x5
      extract_lets -underBinder -merge -useContext +onlyGivenNames x6
      have h6 : Same s₀ x6 := by
        unfold x6
        refine State.linkSend_same _ ?_ _ _
        exact h4
      refine InOut.next ?_
      refine State.linkUp_same _ ?_ _ _
      exact h6

theorem execHostLaneTrainTimeout_same {s₀ : State} (l : Lane) (s : State) (hs : Same s₀ s) :
    InOut (Same s₀) (execHostLaneTrainTimeout l s) := by
  unfold execHostLaneTrainTimeout
  refine InOut.next ?_
  refine pred_ite ?_ ?_
  · refine State.laneAttempt_same _ ?_ _
    exact hs
  · exact hs

theorem execNhlCredit_same {s₀ : State} (l : Lane) (s : State) (hs : Same s₀ s) :
    InOut (Same s₀) (execNhlCredit l s) := by
  unfold execNhlCredit
  have h1 : InSome (Same s₀) (s.takeRx (16 + ↑l) 1) := by
    refine State.takeRx_same _ ?_ _ _
    exact hs
  generalize (s.takeRx (16 + ↑l) 1) = z1 at h1 ⊢
  split
  · refine InOut.next ?_
    exact hs
  · extract_lets -underBinder -merge -useContext +onlyGivenNames x5
    have h5 : In2 (Same s₀) x5 := by
      unfold x5
      refine State.takeCredits_same _ ?_ _ _
      exact (h1 _ rfl)
    refine InOut.next ?_
    refine pred_ite ?_ ?_
    · exact h5.out
    · refine State.hostViolate_same _ ?_ _ _ _ _
      exact h5.out

theorem execNhlNak_same {s₀ : State} (l : Lane) (s : State) (hs : Same s₀ s) :
    InOut (Same s₀) (execNhlNak l s) := by
  unfold execNhlNak
  have h1 : InSome (Same s₀) (s.takeRx (16 + ↑l) 2) := by
    refine State.takeRx_same _ ?_ _ _
    exact hs
  generalize (s.takeRx (16 + ↑l) 2) = z1 at h1 ⊢
  split
  · refine InOut.next ?_
    exact hs
  · refine InOut.next ?_
    exact (h1 _ rfl)

end Sys2Proof.Machine
end

