-- ==== Sys2Proof/Laws/SameHost.lean ====
section
/-! SUPPORT. Which of the host commands store nothing (`Same`), one lemma for each. -/

namespace Sys2Proof.Machine

open Sys2Proof

theorem State.answerResult_same {s₀ : State} (s : State) (hs : Same s₀ s) (h : HostCmd) (st : Nat) (size : Nat) (r : List Byte × State) (hr :  In2 (Same s₀) (r)) :
    Same s₀ (State.answerResult s h st size r) := by
  unfold State.answerResult
  refine pred_ite ?_ ?_
  · refine State.respond_same _ ?_ _ _ _ _ _
    exact hs
  · refine pred_ite ?_ ?_
    · refine State.respond_same _ ?_ _ _ _ _ _
      exact hs
    · refine State.respond_same _ ?_ _ _ _ _ _
      exact hr.out

theorem State.feedCheck_same {s₀ : State} (s : State) (hs : Same s₀ s) (h : HostCmd) (cmd : Nat) (go : Feed → State) (hgo : ∀ z1 : Feed, Same s₀ (go z1)) :
    Same s₀ (State.feedCheck s h cmd go) := by
  unfold State.feedCheck
  extract_lets -underBinder -merge -useContext +onlyGivenNames x1
  split
  · refine State.respond_same _ ?_ _ _ _ _ _
    exact hs
  · refine pred_ite ?_ ?_
    · refine State.respond_same _ ?_ _ _ _ _ _
      exact hs
    · split
      · refine State.respond_same _ ?_ _ _ _ _ _
        exact hs
      · refine hgo _

theorem State.runCmd_same {s₀ : State} (s : State) (hs : Same s₀ s) (h : HostCmd) (cmd : Nat) (bad : Option (Option Nat)) (ok : Bool) (act : State → State) (hact : ∀ z1 : State, Same s₀ z1 → Same s₀ (act z1)) :
    InOut (Same s₀) (State.runCmd s h cmd bad ok act) := by
  unfold State.runCmd
  refine pred_ite ?_ ?_
  · refine InOut.next ?_
    exact hs
  · split
    · refine InOut.next ?_
      refine State.badCommand_same _ ?_ _ _ _
      exact hs
    · refine InOut.next ?_
      refine State.badLen_same _ ?_ _ _
      exact hs
    · refine InOut.next ?_
      refine pred_ite ?_ ?_
      · refine hact _ ?_
        exact hs
      · refine State.conflict_same _ ?_ _ _
        exact hs

theorem State.hostRun_same {s₀ : State} (s : State) (hs : Same s₀ s) (h : HostCmd) (cmd : Nat) (act : State → State) (hact : ∀ z1 : State, Same s₀ z1 → Same s₀ (act z1)) :
    InOut (Same s₀) (State.hostRun s h cmd act) := by
  unfold State.hostRun
  refine State.runCmd_same _ ?_ _ _ _ _ _ ?_
  · exact hs
  · exact hact

theorem State.heldRun_same {s₀ : State} (s : State) (hs : Same s₀ s) (h : HostCmd) (cmd : Nat) (reach : Bool) (act : State → State) (hact : ∀ z1 : State, Same s₀ z1 → Same s₀ (act z1)) :
    InOut (Same s₀) (State.heldRun s h cmd reach act) := by
  unfold State.heldRun
  refine pred_ite ?_ ?_
  · refine InOut.next ?_
    exact hs
  · refine State.hostRun_same _ ?_ _ _ _ ?_
    · exact hs
    · exact hact

theorem State.hostBytes_same {s₀ : State} (s : State) (hs : Same s₀ s) (a : Nat) (n : Nat) :
    In2 (Same s₀) (State.hostBytes s a n) := by
  unfold State.hostBytes
  refine In2.mk ?_
  refine State.readRange_same _ ?_ _ _
  refine State.drewRange_same _ ?_ _ _
  exact hs

theorem State.keepWire_same {s₀ : State} (t : State) (ht : Same s₀ t) (s : State) (_hs : Same s₀ s) :
    Same s₀ (State.keepWire t s) := by
  unfold State.keepWire
  refine pred_foldl ?_ ?_
  · intro x1 h1 a1
    refine State.setLink_same _ ?_ _ _
    exact h1
  · exact ht

theorem State.ok_same {s₀ : State} (s : State) (hs : Same s₀ s) (h : HostCmd) (cmd : Nat) :
    Same s₀ (State.ok s h cmd) := by
  unfold State.ok
  refine State.respond_same _ ?_ _ _ _ _ _
  exact hs

theorem State.pairCheck_same {s₀ : State} (s : State) (hs : Same s₀ s) :
    Same s₀ (State.pairCheck s) := by
  unfold State.pairCheck
  split
  · exact hs
  · refine pred_ite ?_ ?_
    · exact hs
    · split
      · refine State.sendRead_same _ ?_ _ _ _ _ _
        exact hs
      · exact hs

theorem State.readRegs_same {s₀ : State} (s : State) (hs : Same s₀ s) (acc a n : Nat) :
    In2 (Same s₀) (s.readRegs acc a n) := by
  induction n generalizing s a with
  | zero => exact hs
  | succ n ih =>
    unfold State.readRegs
    exact ih _ (State.readReg_same _ hs _ _) _

theorem State.refuseRange_same {s₀ : State} (s : State) (hs : Same s₀ s) (h : HostCmd) (cmd : Nat) :
    Same s₀ (State.refuseRange s h cmd) := by
  unfold State.refuseRange
  refine State.respond_same _ ?_ _ _ _ _ _
  refine In2.out ?_
  refine State.draw_same _ ?_
  exact hs

theorem State.resultBytes_same {s₀ : State} (s : State) (hs : Same s₀ s) (x : Window) (k : Nat) (off : Nat) (n : Nat) :
    In2 (Same s₀) (State.resultBytes s x k off n) := by
  unfold State.resultBytes
  extract_lets -underBinder -merge -useContext +onlyGivenNames x1
  refine In2.mk ?_
  refine State.readRange_same _ ?_ _ _
  exact hs

theorem State.resultRead_same {s₀ : State} (s : State) (hs : Same s₀ s) (h : HostCmd) :
    Same s₀ (State.resultRead s h) := by
  unfold State.resultRead
  extract_lets -underBinder -merge -useContext +onlyGivenNames x1
  extract_lets -underBinder -merge -useContext +onlyGivenNames x2
  refine pred_ite ?_ ?_
  · refine State.answerResult_same _ ?_ _ _ _ _ ?_
    · exact hs
    · refine In2.mk ?_
      refine State.readRange_same _ ?_ _ _
      exact hs
  · split
    · refine State.respond_same _ ?_ _ _ _ _ _
      exact hs
    · refine State.answerResult_same _ ?_ _ _ _ _ ?_
      · exact hs
      · refine State.resultBytes_same _ ?_ _ _ _ _
        exact hs

theorem State.unbind_same {s₀ : State} (s : State) (hs : Same s₀ s) (stages : List Stage) :
    Same s₀ (State.unbind s stages) := by
  unfold State.unbind
  extract_lets -underBinder -merge -useContext +onlyGivenNames x1
  have h1 : Same s₀ x1 := by
    unfold x1
    refine pred_foldl ?_ ?_
    · intro x2 h2 a2
      refine State.sendCmd_same _ ?_ _ _
      exact h2
    · exact hs
  refine pred_foldl ?_ ?_
  · intro x3 h3 a3
    refine pred_ite ?_ ?_
    · extract_lets -underBinder -merge -useContext +onlyGivenNames x4
      have h4 : Same s₀ x4 := by
        unfold x4
        refine State.setRegF_same _ ?_ _ _ _ _
        exact h3
      refine pred_ite ?_ ?_
      · refine State.ungate_same _ ?_ _
        exact h4
      · exact h4
    · exact h3
  · exact h1

theorem State.unload_same {s₀ : State} (s : State) (hs : Same s₀ s) :
    Same s₀ (State.unload s) := by
  unfold State.unload
  extract_lets -underBinder -merge -useContext +onlyGivenNames x1
  extract_lets -underBinder -merge -useContext +onlyGivenNames x2
  extract_lets -underBinder -merge -useContext +onlyGivenNames x3
  extract_lets -underBinder -merge -useContext +onlyGivenNames x4
  extract_lets -underBinder -merge -useContext +onlyGivenNames x5
  have h5 : Same s₀ x5 := by
    unfold x5
    exact Same.upd hs
  extract_lets -underBinder -merge -useContext +onlyGivenNames x6
  have h6 : Same s₀ x6 := by
    unfold x6
    refine State.unbind_same _ ?_ _
    refine pred_foldl ?_ ?_
    · intro x7 h7 a7
      refine State.freeAlloc_same _ ?_ _
      exact h7
    · exact h5
  extract_lets -underBinder -merge -useContext +onlyGivenNames x8
  have h8 : Same s₀ x8 := by
    unfold x8
    exact Same.upd h6
  extract_lets -underBinder -merge -useContext +onlyGivenNames x9
  have h9 : Same s₀ x9 := by
    unfold x9
    refine pred_foldl ?_ ?_
    · intro x10 h10 a10
      refine State.setReg_same _ ?_ _ _
      exact h10
    · exact h8
  refine State.setMode_same _ ?_ _
  refine State.setWords_same _ ?_ _ _
  exact h9

theorem State.writeRegs_same {s₀ : State} (s : State) (hs : Same s₀ s) (a : Nat) (l : List Word) :
    Same s₀ (s.writeRegs a l) := by
  induction l generalizing s a with
  | nil => exact hs
  | cons v l ih =>
    unfold State.writeRegs
    exact ih _ (State.writeReg_same _ hs _ _) _

theorem execAllocCreate_same {s₀ : State} (h : HostCmd) (s : State) (hs : Same s₀ s) :
    InOut (Same s₀) (execAllocCreate h s) := by
  unfold execAllocCreate
  refine State.hostRun_same _ ?_ _ _ _ ?_
  · exact hs
  · intro x1 h1
    try beta_reduce
    split
    · refine pred_ite ?_ ?_
      · refine State.ok_same _ ?_ _ _
        refine State.setAlloc_same _ ?_ _ _
        exact h1
      · refine State.refuseRange_same _ ?_ _ _
        exact h1
    · refine State.refuseRange_same _ ?_ _ _
      exact h1

theorem execAllocFree_same {s₀ : State} (h : HostCmd) (s : State) (hs : Same s₀ s) :
    InOut (Same s₀) (execAllocFree h s) := by
  unfold execAllocFree
  refine State.hostRun_same _ ?_ _ _ _ ?_
  · exact hs
  · intro x1 h1
    try beta_reduce
    extract_lets -underBinder -merge -useContext +onlyGivenNames x2
    refine pred_ite ?_ ?_
    · refine State.respond_same _ ?_ _ _ _ _ _
      exact h1
    · refine pred_ite ?_ ?_
      · refine State.refuseRange_same _ ?_ _ _
        exact h1
      · refine State.ok_same _ ?_ _ _
        refine State.freeAlloc_same _ ?_ _
        exact h1

theorem execAttest_same {s₀ : State} (h : HostCmd) (s : State) (hs : Same s₀ s) :
    InOut (Same s₀) (execAttest h s) := by
  unfold execAttest
  refine State.hostRun_same _ ?_ _ _ _ ?_
  · exact hs
  · intro x1 h1
    try beta_reduce
    refine State.respond_same _ ?_ _ _ _ _ _
    refine In2.out ?_
    refine State.report_same _ ?_ _
    exact h1

theorem execDescCreate_same {s₀ : State} (h : HostCmd) (s : State) (hs : Same s₀ s) :
    InOut (Same s₀) (execDescCreate h s) := by
  unfold execDescCreate
  refine State.hostRun_same _ ?_ _ _ _ ?_
  · exact hs
  · intro x1 h1
    try beta_reduce
    extract_lets -underBinder -merge -useContext +onlyGivenNames x2
    have h2 : In1 (Same s₀) x2 := by
      unfold x2
      refine State.createDesc_same _ ?_ _ _ _ _
      exact h1
    split
    · refine State.respond_same _ ?_ _ _ _ _ _
      exact h2.out
    · refine State.respond_same _ ?_ _ _ _ _ _
      exact h2.out

theorem execDescDestroy_same {s₀ : State} (h : HostCmd) (s : State) (hs : Same s₀ s) :
    InOut (Same s₀) (execDescDestroy h s) := by
  unfold execDescDestroy
  refine State.hostRun_same _ ?_ _ _ _ ?_
  · exact hs
  · intro x1 h1
    try beta_reduce
    refine pred_ite ?_ ?_
    · refine State.respond_same _ ?_ _ _ _ _ _
      exact h1
    · refine State.ok_same _ ?_ _ _
      refine State.setDesc_same _ ?_ _ _
      exact h1

theorem execFeedClose_same {s₀ : State} (h : HostCmd) (s : State) (hs : Same s₀ s) :
    InOut (Same s₀) (execFeedClose h s) := by
  unfold execFeedClose
  refine State.hostRun_same _ ?_ _ _ _ ?_
  · exact hs
  · intro x1 h1
    try beta_reduce
    refine pred_ite ?_ ?_
    · refine State.respond_same _ ?_ _ _ _ _ _
      exact h1
    · refine State.ok_same _ ?_ _ _
      refine State.setFeed_same _ ?_ _ _
      exact h1

theorem execFeedCommit_same {s₀ : State} (h : HostCmd) (s : State) (hs : Same s₀ s) :
    InOut (Same s₀) (execFeedCommit h s) := by
  unfold execFeedCommit
  refine State.hostRun_same _ ?_ _ _ _ ?_
  · exact hs
  · intro x1 h1
    try beta_reduce
    refine State.feedCheck_same _ ?_ _ _ _ ?_
    · exact h1
    · intro x2
      try beta_reduce
      refine State.ok_same _ ?_ _ _
      refine State.setFeed_same _ ?_ _ _
      exact h1

theorem execFeedOpen_same {s₀ : State} (h : HostCmd) (s : State) (hs : Same s₀ s) :
    InOut (Same s₀) (execFeedOpen h s) := by
  unfold execFeedOpen
  refine State.hostRun_same _ ?_ _ _ _ ?_
  · exact hs
  · intro x1 h1
    try beta_reduce
    extract_lets -underBinder -merge -useContext +onlyGivenNames x2
    extract_lets -underBinder -merge -useContext +onlyGivenNames x3
    extract_lets -underBinder -merge -useContext +onlyGivenNames x4
    extract_lets -underBinder -merge -useContext +onlyGivenNames x5
    split
    · refine pred_ite ?_ ?_
      · refine State.refuseRange_same _ ?_ _ _
        exact h1
      · refine State.ok_same _ ?_ _ _
        refine State.setFeed_same _ ?_ _ _
        exact h1
    · refine State.respond_same _ ?_ _ _ _ _ _
      exact h1

theorem execHold_same {s₀ : State} (h : HostCmd) (s : State) (hs : Same s₀ s) :
    InOut (Same s₀) (execHold h s) := by
  unfold execHold
  refine pred_ite ?_ ?_
  · refine InOut.next ?_
    exact hs
  · refine State.hostRun_same _ ?_ _ _ _ ?_
    · exact hs
    · intro x1 h1
      try beta_reduce
      extract_lets -underBinder -merge -useContext +onlyGivenNames x2 x3
      have h3 : Same s₀ x3 := by
        unfold x3
        refine State.setRegF_same _ ?_ _ _ _ _
        exact Same.upd h1
      refine pred_ite ?_ ?_
      · refine State.enterHolding_same _ ?_ _
        exact h3
      · exact h3

theorem execMemRead_same {s₀ : State} (h : HostCmd) (s : State) (hs : Same s₀ s) :
    InOut (Same s₀) (execMemRead h s) := by
  unfold execMemRead
  refine State.heldRun_same _ ?_ _ _ _ _ ?_
  · exact hs
  · intro x1 h1
    try beta_reduce
    refine pred_ite ?_ ?_
    · extract_lets -underBinder -merge -useContext +onlyGivenNames x2
      have h2 : In2 (Same s₀) x2 := by
        unfold x2
        refine State.hostBytes_same _ ?_ _ _
        exact h1
      refine State.respond_same _ ?_ _ _ _ _ _
      exact h2.out
    · refine State.respond_same _ ?_ _ _ _ _ _
      exact h1

theorem execNop_same {s₀ : State} (h : HostCmd) (s : State) (hs : Same s₀ s) :
    InOut (Same s₀) (execNop h s) := by
  unfold execNop
  refine State.hostRun_same _ ?_ _ _ _ ?_
  · exact hs
  · intro x1 h1
    try beta_reduce
    refine State.ok_same _ ?_ _ _
    exact h1

theorem execRegRead_same {s₀ : State} (h : HostCmd) (s : State) (hs : Same s₀ s) :
    InOut (Same s₀) (execRegRead h s) := by
  unfold execRegRead
  refine State.hostRun_same _ ?_ _ _ _ ?_
  · exact hs
  · intro x1 h1
    try beta_reduce
    extract_lets -underBinder -merge -useContext +onlyGivenNames x2
    have h2 : In2 (Same s₀) x2 := by
      unfold x2
      refine State.readRegs_same _ ?_ _ _ _
      exact h1
    refine State.respond_same _ ?_ _ _ _ _ _
    exact h2.out

theorem execRegWrite_same {s₀ : State} (h : HostCmd) (s : State) (hs : Same s₀ s) :
    InOut (Same s₀) (execRegWrite h s) := by
  unfold execRegWrite
  refine State.hostRun_same _ ?_ _ _ _ ?_
  · exact hs
  · intro x1 h1
    try beta_reduce
    refine State.ok_same _ ?_ _ _
    refine State.writeRegs_same _ ?_ _ _
    exact h1

theorem execResultClose_same {s₀ : State} (h : HostCmd) (s : State) (hs : Same s₀ s) :
    InOut (Same s₀) (execResultClose h s) := by
  unfold execResultClose
  refine State.hostRun_same _ ?_ _ _ _ ?_
  · exact hs
  · intro x1 h1
    try beta_reduce
    refine pred_ite ?_ ?_
    · refine State.respond_same _ ?_ _ _ _ _ _
      exact h1
    · refine State.ok_same _ ?_ _ _
      refine State.setWindow_same _ ?_ _ _
      exact h1

theorem execResultOpen_same {s₀ : State} (h : HostCmd) (s : State) (hs : Same s₀ s) :
    InOut (Same s₀) (execResultOpen h s) := by
  unfold execResultOpen
  refine State.hostRun_same _ ?_ _ _ _ ?_
  · exact hs
  · intro x1 h1
    try beta_reduce
    extract_lets -underBinder -merge -useContext +onlyGivenNames x2
    extract_lets -underBinder -merge -useContext +onlyGivenNames x3
    extract_lets -underBinder -merge -useContext +onlyGivenNames x4
    extract_lets -underBinder -merge -useContext +onlyGivenNames x5
    split
    · refine pred_ite ?_ ?_
      · refine State.refuseRange_same _ ?_ _ _
        exact h1
      · extract_lets -underBinder -merge -useContext +onlyGivenNames x8
        refine State.respond_same _ ?_ _ _ _ _ _
        refine State.setWindow_same _ ?_ _ _
        exact h1
    · refine State.respond_same _ ?_ _ _ _ _ _
      exact h1

theorem execResultRead_same {s₀ : State} (h : HostCmd) (s : State) (hs : Same s₀ s) :
    InOut (Same s₀) (execResultRead h s) := by
  unfold execResultRead
  refine pred_ite ?_ ?_
  · refine InOut.next ?_
    exact hs
  · refine State.runCmd_same _ ?_ _ _ _ _ _ ?_
    · exact hs
    · intro x1 h1
      try beta_reduce
      refine State.resultRead_same _ ?_ _
      exact h1

theorem execResultRelease_same {s₀ : State} (h : HostCmd) (s : State) (hs : Same s₀ s) :
    InOut (Same s₀) (execResultRelease h s) := by
  unfold execResultRelease
  refine State.runCmd_same _ ?_ _ _ _ _ _ ?_
  · exact hs
  · intro x1 h1
    try beta_reduce
    extract_lets -underBinder -merge -useContext +onlyGivenNames x2
    refine pred_ite ?_ ?_
    · refine pred_ite ?_ ?_
      · refine State.ok_same _ ?_ _ _
        exact Same.upd h1
      · refine State.respond_same _ ?_ _ _ _ _ _
        exact h1
    · split
      · refine State.respond_same _ ?_ _ _ _ _ _
        exact h1
      · refine pred_ite ?_ ?_
        · extract_lets -underBinder -merge -useContext +onlyGivenNames x5
          refine State.ok_same _ ?_ _ _
          refine State.setWindow_same _ ?_ _ _
          exact h1
        · refine State.respond_same _ ?_ _ _ _ _ _
          exact h1

theorem execStatus_same {s₀ : State} (h : HostCmd) (s : State) (hs : Same s₀ s) :
    InOut (Same s₀) (execStatus h s) := by
  unfold execStatus
  refine State.hostRun_same _ ?_ _ _ _ ?_
  · exact hs
  · intro x1 h1
    try beta_reduce
    refine State.respond_same _ ?_ _ _ _ _ _
    exact h1

theorem execUnload_same {s₀ : State} (h : HostCmd) (s : State) (hs : Same s₀ s) :
    InOut (Same s₀) (execUnload h s) := by
  unfold execUnload
  refine State.hostRun_same _ ?_ _ _ _ ?_
  · exact hs
  · intro x1 h1
    try beta_reduce
    refine State.ok_same _ ?_ _ _
    refine State.unload_same _ ?_
    exact h1

end Sys2Proof.Machine
end

