-- ==== Sys2Proof/Laws/SameTick.lean ====
section
/-! SUPPORT. Which of the passing of time store nothing (`Same`), one lemma for each. -/

namespace Sys2Proof.Machine

open Sys2Proof

theorem State.tickPort_same {s₀ : State} (s : State) (hs : Same s₀ s) (p : Nat) :
    Same s₀ (State.tickPort s p) := by
  unfold State.tickPort
  extract_lets -underBinder -merge -useContext +onlyGivenNames x1
  extract_lets -underBinder -merge -useContext +onlyGivenNames x2
  refine pred_ite ?_ ?_
  · extract_lets -underBinder -merge -useContext +onlyGivenNames x3
    have h3 : Same s₀ x3 := by
      unfold x3
      refine pred_foldl ?_ ?_
      · intro x4 h4 a4
        refine State.count_same _ ?_ _ _ _ _
        exact h4
      · exact hs
    refine State.count_same _ ?_ _ _ _ _
    refine In2.out ?_
    refine State.draw_same _ ?_
    exact h3
  · exact hs

theorem State.tickEdge_same {s₀ : State} (s : State) (hs : Same s₀ s) (e : Nat) :
    Same s₀ (State.tickEdge s e) := by
  unfold State.tickEdge
  extract_lets -underBinder -merge -useContext +onlyGivenNames x1
  refine pred_foldl ?_ ?_
  · intro x2 h2 a2
    refine State.count_same _ ?_ _ _ _ _
    exact h2
  · refine State.count_same _ ?_ _ _ _ _
    exact hs

theorem State.tickDie_same {s₀ : State} (s : State) (hs : Same s₀ s) (d : Nat) :
    Same s₀ (State.tickDie s d) := by
  unfold State.tickDie
  extract_lets -underBinder -merge -useContext +onlyGivenNames x1
  refine State.count_same _ ?_ _ _ _ _
  refine State.count_same _ ?_ _ _ _ _
  exact hs

theorem State.tickCore_same {s₀ : State} (s : State) (hs : Same s₀ s) (c : Nat) :
    Same s₀ (State.tickCore s c) := by
  unfold State.tickCore
  extract_lets -underBinder -merge -useContext +onlyGivenNames x1
  extract_lets -underBinder -merge -useContext +onlyGivenNames x2
  extract_lets -underBinder -merge -useContext +onlyGivenNames x3
  extract_lets -underBinder -merge -useContext +onlyGivenNames x4
  extract_lets -underBinder -merge -useContext +onlyGivenNames x5
  extract_lets -underBinder -merge -useContext +onlyGivenNames x6
  have h6 : Same s₀ x6 := by
    unfold x6
    refine State.count_same _ ?_ _ _ _ _
    exact hs
  extract_lets -underBinder -merge -useContext +onlyGivenNames x7
  have h7 : Same s₀ x7 := by
    unfold x7
    refine State.count_same _ ?_ _ _ _ _
    exact h6
  extract_lets -underBinder -merge -useContext +onlyGivenNames x8
  have h8 : Same s₀ x8 := by
    unfold x8
    refine State.count_same _ ?_ _ _ _ _
    exact h7
  extract_lets -underBinder -merge -useContext +onlyGivenNames x9
  have h9 : Same s₀ x9 := by
    unfold x9
    refine State.count_same _ ?_ _ _ _ _
    exact h8
  extract_lets -underBinder -merge -useContext +onlyGivenNames x10
  have h10 : Same s₀ x10 := by
    unfold x10
    refine State.count_same _ ?_ _ _ _ _
    exact h9
  refine State.count_same _ ?_ _ _ _ _
  exact h10

theorem State.runClocks_same {s₀ : State} (s : State) (hs : Same s₀ s) :
    Same s₀ (State.runClocks s) := by
  unfold State.runClocks
  refine pred_foldl ?_ ?_
  · intro x1 h1 a1
    refine State.tickPort_same _ ?_ _
    exact h1
  · refine pred_foldl ?_ ?_
    · intro x2 h2 a2
      refine State.tickEdge_same _ ?_ _
      exact h2
    · refine pred_foldl ?_ ?_
      · intro x3 h3 a3
        refine State.tickDie_same _ ?_ _
        exact h3
      · refine pred_foldl ?_ ?_
        · intro x4 h4 a4
          refine State.tickCore_same _ ?_ _
          exact h4
        · exact hs

end Sys2Proof.Machine
end

