-- ==== Sys2Proof/Laws/Writes.lean ====
section
/-! SUPPORT. What a write of memory does: the bytes and their poison marks change as said, and beside them
only counters and the caches. -/

namespace Sys2Proof.Machine

open Sys2Proof

theorem countAccess_reports (s : State) (w : Bool) (a n : Nat) : Reports s (s.countAccess w a n) := by
  unfold State.countAccess
  split
  · exact Reports.foldl (fun s u => count_reports s _ _ _ _) _ s
  · exact count_reports s _ _ _ _

theorem countBypass_reports (s : State) (w : Writer) (a n : Nat) : Reports s (s.countBypass w a n) := by
  unfold State.countBypass
  split
  · exact Reports.refl s
  · split
    · split
      · exact Reports.foldl (fun s u => inc_reports s _ _) _ s
      · exact Reports.refl s
    · exact Reports.refl s

/-- Two states that differ at most in what reporting changes and in the dies. -/
def Snoops (s t : State) : Prop :=
  t = { s with regs := t.regs, islands := t.islands, links := t.links, log := t.log, evtSeq := t.evtSeq,
               thrFired := t.thrFired, dies := t.dies }

theorem Snoops.trans {s t u : State} (h : Snoops s t) (g : Snoops t u) : Snoops s u := by
  unfold Snoops at *
  rw [g, h]

theorem Reports.snoops {s t : State} (h : Reports s t) : Snoops s t := by
  unfold Snoops Reports at *
  rw [h]

theorem setDie_snoops (s : State) (d : Nat) (v : DieSt) : Snoops s (s.setDie d v) := rfl

theorem snoop_snoops (s : State) (d : Nat) (own : Bool) (a : Nat) (bytes : List Byte) :
    Snoops s (s.snoop d own a bytes) := by
  unfold State.snoop
  dsimp only
  split
  · exact (Reports.refl s).snoops
  · split
    · exact setDie_snoops s d _
    · exact (setDie_snoops s d _).trans ((inc_reports _ _ _).trans (count_reports _ _ _ _ _)).snoops

theorem Snoops.foldl {α : Type} {f : State → α → State} (h : ∀ s a, Snoops s (f s a)) (l : List α)
    (s : State) : Snoops s (l.foldl f s) := by
  induction l generalizing s with
  | nil => exact (Reports.refl s).snoops
  | cons a l ih => exact (h s a).trans (ih _)

/-- A write: the bytes, the marks, and what counting and the caches change. -/
theorem put_snoops (s : State) (w : Writer) (a : Nat) (bytes : List Byte) (bad : Bool) (h : bytes ≠ []) :
    Snoops { s with mem := Memory.write s.mem a bytes, poison := poisonAfter s.poison a bytes.length bad }
      (s.put w a bytes bad) := by
  unfold State.put
  rw [if_neg (by simpa using h)]
  extract_lets t u
  have h1 : Reports t u := (countAccess_reports t true a bytes.length).trans
    (countBypass_reports _ w a bytes.length)
  split
  · exact h1.snoops.trans (Snoops.foldl (fun s d => snoop_snoops s d _ a bytes) _ _)
  · exact h1.snoops

theorem Snoops.mem {s t : State} (h : Snoops s t) : t.mem = s.mem := by rw [h]
theorem Snoops.poison {s t : State} (h : Snoops s t) : t.poison = s.poison := by rw [h]
theorem Snoops.core {s t : State} (h : Snoops s t) (c : Nat) : t.core c = s.core c := by
  unfold State.core; rw [h]

@[simp] theorem State.put_mem (s : State) (w : Writer) (a : Nat) (bytes : List Byte) (bad : Bool) :
    (s.put w a bytes bad).mem = Memory.write s.mem a bytes := by
  by_cases h : bytes = []
  · subst h; rfl
  · exact (put_snoops s w a bytes bad h).mem

theorem State.put_poison (s : State) (w : Writer) (a : Nat) (bytes : List Byte) (bad : Bool) (h : bytes ≠ []) :
    (s.put w a bytes bad).poison = poisonAfter s.poison a bytes.length bad :=
  (put_snoops s w a bytes bad h).poison

@[simp] theorem State.core_put (s : State) (w : Writer) (a : Nat) (bytes : List Byte) (bad : Bool) (c : Nat) :
    (s.put w a bytes bad).core c = s.core c := by
  by_cases h : bytes = []
  · subst h; rfl
  · exact (put_snoops s w a bytes bad h).core c

end Sys2Proof.Machine
end

