-- ==== Sys2Proof/Tests/Slice0.lean ====
section
/-! SUPPORT. The model's own tests: commands that the checks of `Instr.wf` refuse, states and operands that
meet the hypotheses of each statement, and single steps whose results the spec states. -/

set_option Elab.async false

namespace Sys2Proof.Tests

open Sys2Proof Sys2Proof.Machine

/-! ### Small states -/

/-- The reset state, and the module in a state of R360. -/
def R : State := State.reset
def inMode (m : Nat) : State := R.setReg Reg.GLB_STATE (BitVec.ofNat 32 m)

/-- An island that has completed its resynchronization. -/
def on (i : Nat) (s : State) : State := s.setIsland i { Island.reset with inReset := false, ready := true }

/-- Core 0, with its clock running, and the dies on the way from the step controller to it. -/
def up (s : State) : State := (on 60 (on 54 (on 0 s))).setPstate 0 0

/-- A far-memory channel that serves. -/
def serves (ch : Nat) (s : State) : State := on (80 + ch) (s.setRegF (chanReg ch) 31 30 2)
def ready (ch : Nat) : State := serves ch R

/-- Core 0 runs and is as given. -/
def withCore (k : CoreSt) : State := up (R.setCore 0 k)

/-- A control packet of one word. -/
def word (n : Nat) : List CmdWord := [⟨BitVec.ofNat 128 n, true⟩]

/-- A core with a packet at the front of `CMDQ`. -/
def cmdCore (n : Nat) : State := withCore { CoreSt.reset with cmdq := word n }

/-- Core 0 in a segment of one packet with an opcode, at the start of near memory 0. -/
def streamCore (op : Nat) : State :=
  { withCore { CoreSt.reset with bind := some ⟨0, nearBase 0, 1, 0, 0⟩, seg := some ⟨0, 0, false, 0, Flags.clear⟩ } with
    mem := [(nearBase 0, BitVec.ofNat 8 op)] }

/-- A run of an opcode with nothing left to walk. -/
def run (op : Nat) : RunMop :=
  { id := 0, words := [BitVec.ofNat 128 op], fromCmdq := true, pkt := 0, descs := [], cvt := [], bandEn := false,
    mLen := 1, nLen := 1, kLen := 1, rowLenN := [], rowLenK := [], rowMap := none, segsLeft := 0,
    merged := [], groups := [], grp := [], toInit := [], toLoad := [], toPack := [], tail := [], drainQ := [],
    outBuf := [], reached := [], metaPoison := [], badUnits := [], dropped := [], auditMiss := [], auditBad := [],
    flags := Flags.clear }

/-- A host command of lane 0 and queue 0 with `CSEQ` 0. -/
def cmd (args : Nat) (payload : List Byte) : HostCmd := ⟨0, 0, 0, BitVec.ofNat 160 args, payload⟩

/-- The next state of an answer, or the reset state. -/
def after (o : Out) : State := match o with
  | .next t => t
  | _ => R

/-! ### Layouts -/

/-- R115's example of a BF16 tile: column 10 is granule 5 of 128 rows; row 7 reads granules 0 to 63. -/
theorem test_diagonal : columnPass 5 = List.range' 5 123 ++ List.range 5 ∧ rowPass 7 64 = List.range' 7 64 ∧
    granulePlace 9 7 63 = (70, 72) := by decide
/-- The NOP of R149 with its end mark (R144) has one more bit for the even count. -/
theorem test_carried : carried 128 0#128 true = 3 * 2 ^ 128 := by decide

/-! ### Ill-formed commands are refused -/

theorem test_wf_register : Instr.wf (.registerWrite 0 0x12#32 0) = false ∧
    Instr.wf (.registerRead 0 0x13#32) = false ∧ Instr.wf (.unmappedAccess 0x11#32 true) = false := by decide
theorem test_wf_bridge : Instr.wf (.bridgeTransfer 0 0 [0] 0) = false := by decide
theorem test_wf_fill : Instr.wf (.operandFill 0 0 0) = false ∧
    Instr.wf (.operandFill 0 0xFFFFFFFFFFFF#48 2) = false := by decide
theorem test_wf_near : Instr.wf (.nmemAccess 0 0 32 none .none) = false ∧
    Instr.wf (.nmemAccess 0 0 0 (some [0]) .none) = false ∧ Instr.wf (.nmemPatrolScrub 0 32 .none) = false := by
  decide
theorem test_wf_far : Instr.wf (.fmemAccess 16 none .none) = false ∧
    Instr.wf (.fmemAccess 0 (some ([0], false)) .none) = false ∧ Instr.wf (.fmemPatrolScrub 16 .none) = false ∧
    Instr.wf (.burstReconstruct 16) = false := by decide
theorem test_wf_cache : Instr.wf (.cacheFill 0 0 128) = false ∧
    Instr.wf (.cacheInvalidate 0 128 true) = false := by decide
theorem test_wf_arb : Instr.wf (.arbGrant 0 0x10000) = false ∧ Instr.wf (.arbBackoffExpire 0 16) = false ∧
    Instr.wf (.arbBackoffExpire 144 16) = true := by decide
theorem test_wf_flit : Instr.wf (.flitReceive 0 [] ⟨false, 0, 0⟩) = false ∧
    Instr.wf (.hostFlitReceive 0 [] ⟨false, 0, 0⟩) = false ∧ Instr.wf (.portTrain ⟨0, []⟩) = false := by decide
theorem test_wf_counter : Instr.wf (.evcCntHiWrite 0 8 0) = false ∧ Instr.wf (.evcCntLoWrite 53 8 0) = false ∧
    Instr.wf (.evcOvf 0 31) = false ∧ Instr.wf (.evcOvf 54 31) = true := by decide
theorem test_wf_host : Instr.wf (.memWrite (cmd 0 [0])) = false ∧ Instr.wf (.memWrite (cmd 0 [0, 0, 0, 0])) = true := by
  decide
theorem test_wf_management : Instr.wf (.setCap ⟨5, List.replicate 65536 0, 0⟩) = false := by decide +kernel

/-! ### The hypotheses of the statements can be met -/

theorem witness_StepKeepsInvariant : R.pending = [] ∧ R.breaches.length ≤ 131072 ∧
    (∃ t, step R = .next t) := ⟨rfl, by decide, _, rfl⟩

theorem witness_StepRunsTheFrontCommand : ({ R with pending := [.feedStall] } : State).pending = .feedStall :: [] := rfl

theorem witness_EmptyQueuePassesTime : R.pending = [] ∧ R.power = .good ∧
    ({ R with power := .off } : State).power ≠ .good := by decide

theorem witness_OtpOnlyGrows : ∃ t, step { R with pending := [.stepCommit] } = .next t := ⟨_, rfl⟩

theorem witness_CommandsLeaveAlone : mayStore .feedStall = false ∧ ∃ t, exec .feedStall R = .next t :=
  ⟨rfl, _, rfl⟩

theorem witness_RegisterWriteSetsFields :
    ((regRow 0x90).isSome = true ∧ evcPlace 0x90 = none ∧ R.winLocked 0x90 = false) ∧
    regRow 0x9000000 = none ∧
    (let s := R.setReg (Reg.CLV_TWIN_NODE 0) 5
     (regRow 0x7030870).isSome = true ∧ evcPlace 0x7030870 = none ∧ s.winLocked 0x7030870 = true) := by
  decide +kernel

theorem witness_UnmappedAccessCounts : regRow (0x9000000#32).toNat = none := by decide +kernel

theorem witness_RegisterReadReturns : (regRow 0x90).isSome = true ∧ audAt 0x90 = none ∧ R.latchOf 0 = none ∧
    (regRow 0x78).map RegRow.pair = some true ∧ (regRow 0x7C).map RegRow.pair = some false ∧ audAt 0x78 = none ∧
    audAt 0x7C = none := by decide +kernel

theorem witness_AuditPairIsCoherent : ∃ t u : State, exec (.prdAudRowsRead 0 0 0) R = .next t ∧
    u.latchOf (audKey 0 0) = t.latchOf (audKey 0 0) ∧
    (u.reg (Reg.PRD_AUD_MISS 0 0)).toNat = (R.reg (Reg.PRD_AUD_MISS 0 0)).toNat + 3 :=
  ⟨_, (after (exec (.prdAudRowsRead 0 0 0) R)).setReg (Reg.PRD_AUD_MISS 0 0) 3, rfl, by decide +kernel,
    by decide +kernel⟩

theorem witness_BridgesCarryAndFail : (R.bridge 0).failed = false ∧ crc32c [1] ≠ 0 ∧ (R.bridge 0).map = none ∧
    (let s := R.setBridge 0 { BridgeSt.reset with map := some [3] }
     (s.bridge 0).failed = false ∧ (s.bridge 0).map = some [3] ∧ (s.bridge 0).resend = [] ∧
       s.bridgeReady 0 = false ∧ (up s).bridgeReady 0 = true ∧ ((up s).bridge 0).resend = []) ∧
    (let s := (up R).setBridge 0 { BridgeSt.reset with map := some [], resend := [[1], [2]] }
     s.bridgeReady 0 = true ∧ (s.bridge 0).map = some [] ∧ (s.bridge 0).resend = [1] :: [[2]] ∧
       (s.bridge 0).resend.head? = some [1] ∧ ([1] : List Byte) ≠ [2]) ∧
    (let s := R.setBridge 0 { BridgeSt.reset with retryTimes := List.replicate 17 0 }
     (s.bridge 0).failed = false ∧
       16 < ((s.bridge 0).retryTimes.filter fun x => decide (s.now < x + 1000)).length) ∧
    ((R.setBridge 25 { BridgeSt.reset with failed := true }).bridge 25).failed = true := by decide +kernel

theorem witness_IslandsResetAndRun : ((up R).island 3).ready = false ∧ (up R).keptInReset 3 = false ∧
    ((R.island 351).ready = false ∧ R.keptInReset 351 = false) ∧
    (let s := withCore { CoreSt.reset with clkDue := some 40 }
     (s.core 0).clkDue = some 40 ∧ s.pstate 0 = 0 ∧ (s.core 0).droop = false ∧ (s.core 0).thermGated = false) := by
  decide +kernel

theorem witness_ControlPackets :
    ((cmdCore 0).TakesControl 0 (word 0) ∧ pktOp (word 0) = 0) ∧
    ((cmdCore 1).TakesControl 0 (word 1) ∧ pktOp (word 1) = 1) ∧
    ((cmdCore 3).TakesControl 0 (word 3) ∧ pktOp (word 3) = 3) ∧
    ((cmdCore 4).TakesControl 0 (word 4) ∧ pktOp (word 4) = 4) ∧
    (let s := withCore { CoreSt.reset with cmdq := word 2, bind := some ⟨0, 0, 0, 0, 0⟩ }
     s.TakesControl 0 (word 2) ∧ pktOp (word 2) = 2 ∧ ((s.popCmd 0 1).core 0).bind.isSome = true ∧
       pktF (word 2) 9 8 = 0) ∧
    (let s := withCore { CoreSt.reset with cmdq := word 2, bind := some ⟨1, 0, 0, 0, 0⟩ }
     s.TakesControl 0 (word 2) ∧ ((s.popCmd 0 1).core 0).bind = some ⟨1, 0, 0, 0, 0⟩) ∧
    (let s := { R with ctl := { Ctl.reset with islMsgs := [⟨60, 7, false⟩] } }
     (s.ctl.islMsgs.find? fun m => m.isl == 60) = some ⟨60, 7, false⟩ ∧ s.islandPath 60 = false ∧
       (up s).islandPath 60 = true) := by
  unfold State.TakesControl
  decide +kernel

theorem witness_RefusedPacketsHaveNoEffect :
    ((cmdCore 5).TakesControl 0 (word 5) ∧ 4 < pktOp (word 5) ∧ pktOp (word 5) < 0x10) ∧
    ((cmdCore 0x1A).TakesControl 0 (word 0x1A) ∧ 0x19 < pktOp (word 0x1A)) ∧
    ((cmdCore 2).TakesControl 0 (word 2) ∧ pktOp (word 2) = 2 ∧ ((cmdCore 2).core 0).bind = none) := by
  unfold State.TakesControl
  decide +kernel

/-- A core whose waiting packet has a verdict: its length source is poisoned. -/
def poisonedLength : State := withCore { CoreSt.reset with
  cmdq := word 0x10,
  verdict := some ⟨[0x10], (cmdCore 0x10).namedDescs 0 [0x10], some ((5, 0, 0), true), ⟨0, 0, 0, [], []⟩⟩ }

theorem witness_RefusedMacroOperations :
    (mopCode (.spmm ⟨0, [false]⟩) = some (0, 0x10, false) ∧ mopCode (.spmm ⟨0, [false, true]⟩) = some (0, 0x10, true) ∧
      (cmdCore 0x10).TakesMop 0 [0x10] 0xFFFF 1 ∧ mopOp [0x10] = 0x10 ∧ ((cmdCore 0x10).core 0).seg = none ∧
      (cmdCore 0x10).Arrives 0 false ∧ ((cmdCore 0x10).verdictOf 0 [0x10]).err = some ((1, 0, 0), false)) := by
  unfold State.TakesMop State.Arrives
  decide +kernel

theorem witness_RefusedMacroOperations_length :
    (poisonedLength.TakesMop 0 [0x10] 0xFFFF 1 ∧ poisonedLength.Arrives 0 false ∧
      (poisonedLength.verdictOf 0 [0x10]).err = some ((5, 0, 0), true)) := by
  unfold State.TakesMop State.Arrives
  decide +kernel

theorem witness_StreamPackets :
    (let s := { streamCore 0x10 with poison := [nearBase 0] }
     s.coreLinked 0 = true ∧ (s.core 0).cplq.length < 16 ∧ (s.core 0).cur = none ∧ (s.core 0).prev = none ∧
       s.nextMop 0 = some ([0x10, 0, 0, 0, 0], 0, 0, true) ∧ s.Arrives 0 true) ∧
    (let s := streamCore 0x1A
     noMop (mopOp [0x1A, 0, 0, 0, 0]) = true ∧ (s.core 0).seg.isSome = true ∧
       s.TakesMop 0 [0x1A, 0, 0, 0, 0] 0 0 ∧ (s.core 0).verdict = none ∧
       checkStatic (s.issueEnv 0) [0x1A, 0, 0, 0, 0] = some (4, 1, 0xF)) := by
  unfold State.TakesMop State.Arrives
  decide +kernel

/-- A 2 by 2 FP32 tensor in near memory, and the packet of a `COPY` of it to no lane. -/
def tensor : Desc :=
  { fmt := .fp32, blocked := false, rd := true, wr := true, cfmt := .dns, layout := .lin, blockAxis := 0,
    colAxis := 1, allocId := 0, base := nearBase 0, nnzCap := 0,
    dims := [⟨2, 2, 0, 0, 0⟩, ⟨2, 1, 0, 0, 0⟩], arrays := [], group := 0xFFFF, count := none }
def copyWords : List (BitVec 128) :=
  [0xFFFFFFFFFFFF00000000000000000017, 0x0FFFF000000000010000000200000002, 0x000000000000FFFF000000000000FFFF,
   0xFFFF, 0xFFFF]
def copyCore (k : CoreSt) : State :=
  (withCore { k with cmdq := (copyWords.take 4).map (⟨·, false⟩) ++ [⟨0xFFFF, true⟩] }).setDesc 0
    (some ⟨false, tensor⟩)

theorem witness_MacroOperationsStart :
    (copyCore CoreSt.reset).TakesMop 0 copyWords 0xFFFF 5 ∧ mopOp copyWords = 0x17 ∧
    (copyCore CoreSt.reset).Arrives 0 false ∧ ((copyCore CoreSt.reset).core 0).verdict = none ∧
    (copyCore CoreSt.reset).checkIssue 0 copyWords = .ok ⟨2, 2, 0, [], []⟩ ∧
    ((copyCore CoreSt.reset).verdictOf 0 copyWords).err = none ∧
    ((copyCore CoreSt.reset).verdictOf 0 copyWords).lens = ⟨2, 2, 0, [], []⟩ := by
  unfold State.TakesMop State.Arrives
  decide +kernel

theorem witness_MacroOperationsComplete :
    (let s := withCore { CoreSt.reset with prev := some (run 0x17) }
     s.coreRuns 0 = true ∧ (s.core 0).cplq.length < 16 ∧ s.mopDone 0 (run 0x17) = true ∧
       (s.core 0).prev = some (run 0x17)) ∧
    (let s := withCore { CoreSt.reset with cur := some (run 0x17) }
     s.mopDone 0 (run 0x17) = true ∧ (s.core 0).prev = none ∧ (s.core 0).cur = some (run 0x17)) ∧
    (let s := copyCore { CoreSt.reset with cur := some (run 0x17) }
     let v := s.verdictOf 0 copyWords
     let plan := s.planMop 0 copyWords v.lens 0xFFFF none false
     s.coreLinked 0 = true ∧ (s.core 0).cur = some (run 0x17) ∧ (s.core 0).prev = none ∧
       (run 0x17).walked = true ∧ (run 0x17).op ≠ 0x18 ∧ mopOp copyWords ≠ 0x18 ∧ s.Arrives 0 false ∧
       s.nextMop 0 = some (copyWords, 0xFFFF, 5, false) ∧ s.mayIssue 0 copyWords v = true ∧ v.err = none ∧
       apart (s.issueEnv 0) copyWords (run 0x17) = true ∧
       (allocGroup plan (plan.groups.headD []) (s.core 0).tiles).isSome = true) ∧
    { run 0x17 with groups := [[(0, 0)]] }.walked = false ∧
    (let b : Binding := ⟨0, 0, 0, 0, 0⟩
     let s := withCore { CoreSt.reset with bind := some b, seg := some ⟨0, 0, false, 0, Flags.clear⟩ }
     (s.core 0).bind = some b ∧ s.coreRuns 0 = true ∧ (s.core 0).cplq.length < 16 ∧ (s.core 0).cur = none ∧
       (s.core 0).prev = none ∧ b.count 0 ≤ 0) := by
  unfold State.Arrives
  decide +kernel

/-- A run with the tensor as operand A, as the one in progress of a core that runs. -/
def runA (op : Nat) : RunMop := { run op with descs := [(0, tensor)] }
def tile0 : Tile := ⟨.fp32, 0, 0, 0, true⟩

theorem witness_OperandFillHoldsTheBytes :
    let s := withCore { CoreSt.reset with cur := some (runA 0x17) }
    let l := s.fillList (runA 0x17) true (nearBase 0) 16
    let t := s.setIsland 54 Island.reset
    s.coreRuns 0 = true ∧ (s.core 0).cur = some (runA 0x17) ∧ l ≠ [] ∧ (runA 0x17).rowMap = none ∧
      (s.core 0).opbuf.length + l.length ≤ opBytes ∧ (runA 0x17).dA = some tensor ∧
      (nearBase 0, 64) ∈ tensor.reach ∧ (s.core 0).fills = [] ∧
      (s.coreLinked 0 && s.memPath (0 / 9) (nearBase 0) 16) = true ∧ t.coreRuns 0 = true ∧
      (t.core 0).cur = some (runA 0x17) ∧ (t.core 0).fills = [] ∧
      (t.coreLinked 0 && t.memPath (0 / 9) (nearBase 0) 16) = false ∧
      ((t.setCore 0 { t.core 0 with fills := [(nearBase 0, 16)] }).core 0).fills = [(nearBase 0, 16)] ∧
      ((s.setCore 0 { s.core 0 with fills := [(nearBase 0, 16)] }).core 0).fills = [(nearBase 0, 16)] := by
  decide +kernel

theorem witness_FeederPacks :
    (let m := { runA 0x10 with toLoad := [(0, 0)] }
     let s := withCore { CoreSt.reset with cur := some m }
     s.coreRuns 0 = true ∧ (s.core 0).cur = some m ∧ m.toLoad = [(0, 0)] ∧ (s.core 0).bankA.pw = none ∧
       s.feedReady 0 m = true) ∧
    (let m := { runA 0x10 with toPack := [(0, 0)] }
     let p : Packer := ⟨(0, 0), [], []⟩
     let s := withCore { CoreSt.reset with cur := some m, pack := some p }
     let t := withCore { CoreSt.reset with cur := some m }
     s.coreRuns 0 = true ∧ (s.core 0).cur = some m ∧ (s.core 0).pack = some p ∧ (s.core 0).wfq.length < 4 ∧
       (t.core 0).pack = none ∧ m.toPack = [(0, 0)] ∧ t.feedReady 0 m = true ∧ (t.core 0).wfq = []) ∧
    (let m := { runA 0x12 with segsLeft := 1 }
     let s := withCore { CoreSt.reset with cur := some m }
     s.coreRuns 0 = true ∧ (s.core 0).cur = some m ∧ m.nextSegment = some (0, 2, 4, tensor) ∧
       s.feedReady 0 m = true) ∧
    (let s := withCore CoreSt.reset
     s.coreRuns 0 = true ∧ (s.core 0).cur = none ∧ (s.core 0).prev = none ∧ (s.core 0).drq = [] ∧
       (s.core 0).drHeld = []) := by decide +kernel

theorem witness_WavefrontMakesLaneSums :
    (let s := withCore { CoreSt.reset with cur := some (runA 0x10), wfq := [Wavefront.zero] }
     s.coreRuns 0 = true ∧ (s.core 0).cur = some (runA 0x10) ∧ (s.core 0).wfq = [Wavefront.zero] ∧
       (s.core 0).sumq.length < 4) ∧
    (let s := withCore CoreSt.reset
     s.coreRuns 0 = true ∧ (s.core 0).wfq = [] ∧ (s.core 0).sumq = []) := by decide +kernel

theorem witness_TilesAreFilledAndDrained :
    (let m := { runA 0x10 with toInit := [0] }
     let s := withCore { CoreSt.reset with cur := some m, tiles := [(0, some tile0)] }
     s.coreLinked 0 = true ∧ (s.core 0).cur = some m ∧ m.toInit = [0] ∧ s.feedReady 0 m = true ∧
       SMap.get (fun _ => none) (s.core 0).tiles 0 = some tile0) ∧
    (let s := withCore { CoreSt.reset with cur := some (runA 0x10), tiles := [(0, some tile0)],
                                           sumq := [SumWord.zero] }
     s.coreRuns 0 = true ∧ (s.core 0).cur = some (runA 0x10) ∧ (s.core 0).sumq = [SumWord.zero] ∧ (s.core 0).tileReady SumWord.zero.tile = true) ∧
    (let m := { runA 0x10 with drainQ := [0] }
     let s := withCore { CoreSt.reset with prev := some m, tiles := [(0, some tile0)] }
     let t := withCore { CoreSt.reset with cur := some m, prev := some (runA 0x10), tiles := [(0, some tile0)] }
     s.drainReady 0 m = true ∧ t.drainReady 0 m = true ∧ s.outputWaits 0 m = false ∧ t.outputWaits 0 m = false ∧
     (s.core 0).drq = [] ∧ (s.core 0).drHeld = [] ∧
     (s.core 0).prev = some m ∧ m.drainQ = [0] ∧ (t.core 0).cur = some m ∧ (runA 0x10).drainQ = [] ∧
     (let w := { m with words := [0x10, 0, 0x1 * 2 ^ 48, 0, 0], descs := [(0, { tensor with base := 0 })] }
      let x := serves 0 ((withCore { CoreSt.reset with prev := some w, tiles := [(0, some tile0)] }).setIsland 0
        { Island.reset with step := 2, inReset := false, ready := true })
      (x.core 0).prev = some w ∧ x.drainReady 0 w = true ∧ x.outputWaits 0 w = true)) ∧
    (let q : DrqWord := ⟨0, [(nearBase 0, 1, false)]⟩
     let s := withCore { CoreSt.reset with drq := [q] }
     (s.core 0).drq ++ (s.core 0).drHeld = [q] ∧ (s.core 0).drainRun = none) := by
  decide +kernel

theorem witness_PredictorRuns :
    let q : PredReq := ⟨0, [0x18], [], 1, 1, 1, [], 0, 0⟩
    let s := (R.setDie 0 { DieSt.reset with predQ := [q] }).setIsland 54
      { Island.reset with inReset := false, ready := true }
    ((s.die 0).pred = none ∧ (s.die 0).predQ = [q] ∧ (s.island 54).ready = true) ∧
    (let t := R.setDie 0 { DieSt.reset with pred := some ⟨q, 0, true, 6⟩ }
     (t.die 0).pred = some ⟨q, 0, true, 6⟩) ∧
    (let u := R.setCore 53 { CoreSt.reset with auditQ := [(255, true)] }
     (u.core 53).auditQ = [(255, true)]) := by decide +kernel

theorem witness_MemoryWritesStoreTheirUnit : (ready (chanOf 0x2CFFFFFFFE0)).chanServes (chanOf 0x2CFFFFFFFE0) = true ∧
    0x2CFFFFFFFE0 < farSize ∧ (0x2CFFFFFFFE0#48).toNat / 32 * 32 = 0x2CFFFFFFFE0 ∧
    ((ready 0).chan 0).queue = [] ∧ R.chanServes 0 = false ∧ (R.chan 0).queue.length < 64 ∧
    (let q := List.replicate 64 (⟨0, none, .none⟩ : FarReq)
     let s := R.setChan 0 { ChanSt.reset with queue := q }
     s.chanServes 0 = false ∧ 64 ≤ (s.chan 0).queue.length ∧ (serves 0 s).chanServes 0 = true ∧
       ((serves 0 s).chan 0).queue ≠ []) ∧
    ((up R).nocRuns 0 = true ∧ ((up R).die 0).held = [] ∧ R.nocRuns 0 = false ∧
      (let s := (up R).setDie 0 { DieSt.reset with held := [⟨0, none, .none⟩] }
       s.nocRuns 0 = true ∧ (s.die 0).held ≠ [])) := by decide +kernel

theorem witness_MemoryReadsMarkBadUnits : (ready 0).chanServes (chanOf 0) = true ∧ 0 < farSize ∧
    ((ready 0).chan 0).queue = [] ∧ (up R).nocRuns 0 = true ∧ ((up R).die 0).held = [] ∧
    (up R).cacheSlot 0 0x7FFFFFC0 = none ∧
    (let l : CacheLine := ⟨0, List.replicate 256 0, false⟩
     let s := up ((R.setReg (Reg.NMEM_CFG 0) 1).setDie 0 { DieSt.reset with cache := [(0, some l)] })
     s.nocRuns 0 = true ∧ (s.die 0).held = [] ∧ s.cacheSlot 0 (0x80000000 - cacheBytes 1) = some 0 ∧ SMap.get (fun _ => none) (s.die 0).cache 0 = some l) := by
  decide +kernel

theorem witness_FarAddressMap : farSize - 1 < farSize := by decide

/-- Far memory of one cached, mirrored allocation of 1 MiB at 0; die 0 with a cache. -/
def mirrored : Alloc :=
  { near := false, die := 0, cache := true, mirror := true, zero := false, base := 0, size := 0x100000,
    mirrorOff := 0, byImage := false }
def withAlloc : State := (R.setAlloc 0 (some mirrored)).setReg (Reg.NMEM_CFG 0) 1

theorem witness_CacheFillsAndInvalidates :
    let l : CacheLine := ⟨0, List.replicate 256 0, false⟩
    let s := serves 0 (up withAlloc)
    let t := s.setDie 0 { DieSt.reset with cache := [(0, some l)] }
    let u := s.setDie 0 { DieSt.reset with cache := [(0, some { l with poison := true })] }
    (s.cacheSets 0 ≠ 0 ∧ s.cached 0 = true ∧ s.regF (Reg.NMEM_CACHE_WAYMASK 0 9) 15 0 ≠ 0 ∧
      s.cacheWay 0 0 = none ∧ s.nocRuns 0 = true ∧ s.memPath 0 0 256 = true ∧
      (∀ u ∈ unitsOf 0 256, s.poison.contains u = false) ∧ (up withAlloc).cacheWay 0 0 = none ∧
      (up withAlloc).memPath 0 0 256 = false) ∧
    (t.cacheWay 0 0 = some 0 ∧ SMap.get (fun _ => none) (t.die 0).cache 0 = some l) ∧
    (u.cacheWay 0 0 = some 0 ∧ SMap.get (fun _ => none) (u.die 0).cache 0 = some { l with poison := true }) := by
  decide +kernel

theorem witness_ArbitrationGrants : (R.arb 0).winner (arbSize 0) 0x8000 = some (15, false) ∧
    R.arbAccepts 335 = true ∧
    (R.setChan 191 { ChanSt.reset with queue := List.replicate 64 ⟨0, none, .none⟩ }).arbAccepts 335 = false ∧
    (let s := R.setArb 335 ((R.arb 335).setReq 21 ⟨256, 0, false⟩)
     ((s.arb 335).req 21).count ≠ 0 ∧ 21 < arbSize 335) := by decide +kernel

theorem witness_FarMemoryIsKept : (∀ i, i < 4 → R.chanState (4 * 47 + i) < 2 ∧ (R.chan (4 * 47 + i)).attempts = 0) ∧
    ((up R).island (60 + edgeOfChan 0)).ready = true ∧ (∀ i, i < 4 → R.keptInReset (80 + (4 * 47 + i)) = false) ∧ (ready 191).chanState 191 = 2 ∧
    (ready 191).chanActive 191 = true ∧ SMap.get (fun _ => 0) ((ready 191).chan 191).refreshDue 15 = 0 ∧
    R.chanActive 191 = false ∧ R.chanState 191 ≠ 1 ∧ (R.setRegF (chanReg 191) 31 30 1).chanState 191 = 1 := by
  decide +kernel

/-- A program with nothing in it. -/
def prog0 : Prog :=
  { addr := 0, len := 0, steps := 0, fuse := false, stages := [], schedule := [], chains := [], handles := [],
    allocIds := [], shardGroups := [], colls := [], ugroups := [], hasUpd := false, commit := 0, curves := [] }

/-- A module with the twin 5. -/
def paired (s : State) : State := s.setReg (Reg.CLV_TWIN_NODE 0) 5

theorem witness_BadRowsAndBursts :
    (let s := R.setChan 0 { ChanSt.reset with retireQ := [7] }
     (s.chan 0).retireQ = [7] ∧ s.regF (chanReg 0) 26 16 = 0 ∧
       ((s.setRegF (chanReg 0) 26 16 1).regF (chanReg 0) 26 16 ≠ 0)) ∧ R.poison.contains 0 = false ∧
    (let s := { paired withAlloc with poison := [0], prog := some prog0 }
     s.poison.contains 0 = true ∧ s.committedAt 0 = true ∧ s.alone = false ∧ s.twinAddr 0 = some 0 ∧
       0 ∈ s.rowAsk 0) := by
  decide +kernel


/-! Update groups -/

/-- An update group of 64 slots on engine 0, and a program with it and a shard group of two. -/
def ug (rule kind : Nat) : UGroup :=
  { group := 0, rule := rule, kind := kind, engines := 1, nesterov := false, biascorr := false, freeboard := 0,
    rnd := 0, sgroup := 0, curve := 0, wdesc := 0, b1 := 0, b2 := 0, eps := 0, lambda := 0, clip := 0,
    trustMax := 0, slots := 64, rowD := 4, maxRows := 4, bank0 := 0x10000, bank1 := 0x18000,
    recBase := 0x30000, park := 0x40000, mdset0 := 0x50000, mdset1 := 0x60000, mapBase := 0x70000 }
def prog1 (kind : Nat) : Prog :=
  { prog0 with hasUpd := true, ugroups := [ug 0 kind], shardGroups := [⟨0, 2, 0, false, [(0, 0), (6, 0)]⟩],
               colls := [⟨0, 0, 0, 0, 0, 0x78000⟩] }
/-- Step 1 has begun with the program, engine 0 is as given, and it reaches the group's memory. -/
def engineState (kind : Nat) (k : EngineSt) : State :=
  ((List.range 14).flatMap fun c => [c, 64 + c]).foldl (fun s c => serves c s)
    (up (({ withAlloc with prog := some (prog1 kind), ctl := { Ctl.reset with begun := 1, step := 1 } }).setEngine 0 k))

def norm0 (nonfin : Bool) : Norm := ⟨(0, 0), (0, 0), (0, 0), 3, 3, nonfin, false⟩
def withRun (kind : Nat) (r : GrpRun) : State := engineState kind { EngineSt.reset with groups := [(1, some r)] }

theorem witness_BadRowsAndBursts_copy :
    let s := { (engineState 0 EngineSt.reset).setDesc 0 (some ⟨true, tensor⟩) with poison := [nearBase 0] }
    s.poison.contains (nearBase 0) = true ∧ (s.committedAt (nearBase 0) && !s.alone) = false ∧
      s.copyAt (nearBase 0) = some (ug 0 0) := by decide +kernel

theorem witness_AdaptiveMomentsAndMomentum : (ug 0 0).rule = 0 ∧ (ug 1 0).rule = 1 := by decide

theorem witness_Pass1TakesGradients :
    (let c : Chunk := ⟨0, 1, 0, [0x3F800000], false⟩
     let s := engineState 0 { EngineSt.reset with inQ := [c] }
     (s.engine 0).inQ = [c] ∧ s.ugroup 0 = some (ug 0 0) ∧ (ug 0 0).kind ≠ 1 ∧ 0 ∈ enginesOf (ug 0 0).engines ∧
       c.off % 2048 = 0 ∧ ((ug 0 0).range 0).1 + c.off + 1 ≤ ((ug 0 0).range 0).2 ∧
       s.run? 0 0 1 = none ∧ (GrpRun.fresh 1).normSent = false ∧ 0 ∉ (GrpRun.fresh 1).covered ∧
       s.groupReach 0 (ug 0 0) = true ∧ s.curRec (ug 0 0) 0 = 0 ∧ (ug 0 0).rule ≠ 3 ∧
       s.poisonIn [((ug 0 0).recAt 0, 32)] = none ∧
       ({ s with poison := [0x30000] } : State).poisonIn [((ug 0 0).recAt 0, 32)] = some 0x30000) ∧
    (let c : Chunk := ⟨0, 1, 64, [0], false⟩
     ((ug 0 0).range 0).2 < ((ug 0 0).range 0).1 + c.off + c.vals.length) ∧
    (let c : Chunk := ⟨0, 1, 63, [0, 0, 0, 0], false⟩
     let s := engineState 1 { EngineSt.reset with inQ := [c] }
     (s.engine 0).inQ = [c] ∧ s.ugroup 0 = some (ug 0 1) ∧ s.groupReach 0 (ug 0 1) = true ∧
       s.poisonIn [((ug 0 1).recAt (s.curRec (ug 0 1) 0), 32)] = none ∧
       ((ug 0 1).range 0).1 ≤ c.off ∧ c.off < ((ug 0 1).range 0).2 ∧ s.rowsTaken (ug 0 1) 1 < (ug 0 1).maxRows) ∧
    (engineState 1 { EngineSt.reset with inQ := [⟨0, 1, 0, [], true⟩] } |>.engine 0).inQ = [⟨0, 1, 0, [], true⟩] := by
  decide +kernel

theorem witness_Pass2Starts :
    (let r := { GrpRun.fresh 1 with normSent := true }
     let s := engineState 0 { EngineSt.reset with groups := [(1, some r)], normQ := [(1, 0, norm0 false)] }
     s.engineRuns 0 = true ∧ (s.engine 0).normQ = [(1, 0, norm0 false)] ∧ s.ugroup 0 = some (ug 0 0) ∧ s.run? 0 0 1 = some r ∧
       (norm0 false).nonfin = false ∧ (norm0 false).tMin = (norm0 false).tMax ∧ (norm0 true).nonfin = true) ∧
    (let r := { GrpRun.fresh 1 with norm := some (norm0 false) }
     let s := withRun 0 r
     s.startable 0 0 = some r ∧ s.ugroup 0 = some (ug 0 0) ∧ r.norm = some (norm0 false) ∧
       s.groupReach 0 (ug 0 0) = true ∧
       s.poisonIn (s.passReads (ug 0 0) 0 1 r ++ (ug 0 0).parkRanges 0 r) = none ∧
       ({ s with poison := [0x40100] } : State).poisonIn
         (s.passReads (ug 0 0) 0 1 r ++ (ug 0 0).parkRanges 0 r) ≠ none) ∧
    (let r := { GrpRun.fresh 1 with normSent := true }
     let b : Rebuild := ⟨0, 0, 0, false, false, 0⟩
     let s := engineState 2 { EngineSt.reset with
       groups := [(1, some r)], normQ := [(1, 0, norm0 false)], rebuild := some b }
     s.engineRuns 0 = true ∧ s.ugroup 0 = some (ug 0 2) ∧ s.run? 0 0 1 = some r ∧ (norm0 false).ready = false ∧
       (s.engine 0).rebuild = some b ∧ b.group = (ug 0 2).group) := by
  decide +kernel

theorem witness_StepsCommitInOrder :
    (let s := { R with prog := some prog0, ctl := { Ctl.reset with begun := 1, step := 1 } }
     s.committable = true ∧ s.committed + 1 < 2 ^ 32 ∧ s.copiesTaken = true ∧
       (s.setCtl fun c => { c with collStep := 1 }).committable = true ∧
       (s.setCtl fun c => { c with collStep := 1 }).copiesTaken = true) ∧ R.committable = false ∧
    (let r := { GrpRun.fresh 1 with norm := some (norm0 false), pass2 := true }
     let s := withRun 0 r
     s.ugroup 0 = some (ug 0 0) ∧ s.engineRuns 0 = true ∧
       (([s.committed, s.committed + 1].filterMap (s.run? 0 0)).find? fun x => x.pass2 && !x.localDone) = some r ∧
       s.rowsCross (ug 0 0) = false ∧ s.allPassed (ug 0 0) 1 = true) ∧
    (let s := withRun 0 { GrpRun.fresh 1 with norm := some (norm0 false), pass2 := true, localDone := true }
     s.prog = some (prog1 0) ∧ (prog1 0).hasUpd = true ∧ s.ctl.record = none ∧ s.stepOver 1 = true ∧
       s.engineRuns 0 = true ∧ s.memPath 6 (prog1 0).commit 64 = true ∧
       s.groupsDone 1 = true ∧ s.allMirrored 1 = true ∧ s.ctl.failed = false) ∧
    (let s := { inMode 3 with ctl := { Ctl.reset with begun := 1, step := 1, failed := true } }
     s.ctl.failed = true ∧ s.mode = 3 ∧ s.committed < s.ctl.begun ∧ s.txFlows = []) := by
  decide +kernel

theorem witness_MasksAreRebuilt :
    (let b : Rebuild := ⟨0, 0, 0, false, false, 0⟩
     let s := (engineState 2 { EngineSt.reset with rebuild := some b }).setDesc 0
       (some ⟨true, { tensor with cfmt := .tnm 2 4 }⟩)
     (s.engine 0).rebuild = some b ∧ b.built = false ∧ s.regF (updReg Reg.UPD_CTL 0) 11 8 ≠ 0 ∧
       s.ugroup b.group = some (ug 0 2) ∧ s.descOf 0 = some { tensor with cfmt := .tnm 2 4 } ∧
       s.groupReach 0 (ug 0 2) = true ∧ s.memPath 6 b.base { tensor with cfmt := .tnm 2 4 }.bitmapBytes = true ∧
       (s.setRegF (updReg Reg.UPD_CTL 0) 11 8 0).regF (updReg Reg.UPD_CTL 0) 11 8 = 0) ∧
    (let b : Rebuild := ⟨0, 0, 0, true, false, 0⟩
     let s := engineState 2 { EngineSt.reset with rebuild := some b }
     (s.engine 0).rebuild = some b ∧ s.flowAcked 0 b.mark = true) ∧
    (let s := (engineState 2 EngineSt.reset).setDesc 0 (some ⟨true, tensor⟩)
     (s.engine 0).rebuild = none ∧ s.ugroup 1 = none ∧ s.ugroup 0 = some (ug 0 2) ∧ (ug 0 2).kind = 2 ∧
       at0 (enginesOf (ug 0 2).engines) 0 = 0 ∧ at0 (enginesOf (ug 0 2).engines) 0 ≠ 1 ∧
       s.descOf (ug 0 2).wdesc = some tensor ∧ s.inAlloc 0 tensor.bitmapBytes = some (0, mirrored) ∧
       mirrored.near = false ∧ s.inAlloc 0x200000 tensor.bitmapBytes = none ∧
       (s.setAlloc 1 (some { mirrored with near := true, base := nearBase 0 })).inAlloc (nearBase 0)
         tensor.bitmapBytes = some (1, { mirrored with near := true, base := nearBase 0 })) := by
  decide +kernel

/-! The fabric and the host lanes -/

/-- A fabric packet from node 6 with `OPS`, and a link that has received a packet. -/
def pkt (op vc ops : Nat) (payload : List Byte) : Pkt := ⟨fabHdr op vc payload.length 0 6 0 64 ops, payload⟩
def heard (l : Nat) (q : Pkt) (s : State) : State := s.setLink l { s.link l with rx := [q] }
/-- A link in a state of R318. -/
def link (l st : Nat) (k : LinkSt) : State := (R.setLink l k).setLinkState l st
/-- The packet of an opcode that a link has received, and the state without it. -/
def taken (s : State) (l op : Nat) : Pkt × State := (s.takeRx l op).getD (⟨0, []⟩, R)

theorem witness_PortsTrainAndFence :
    (R.linkState 0 = 0 ∧ (R.link 0).trainStep < 2 ∧ R.keptInReset 62 = false) ∧
    ((link 0 1 { LinkSt.reset with trainStep := 2 }).linkState 0 = 1 ∧
      (link 0 1 { LinkSt.reset with trainStep := 2 }).keptInReset 62 = false ∧
      aligned ((List.range 4).map fun j => markerWord j 9 6) = some (9, 6) ∧
      aligned ((List.range 4).map fun j => markerWord j (BitVec.ofNat 32 j) 6) = none) ∧
    ((link 15 1 LinkSt.reset).linkState 15 = 1) ∧
    (let s := heard 0 (pkt 0x40 3 0x60000 []) (link 0 1 { LinkSt.reset with trainStep := 3 })
     (s.takeRx 0 0x40).isSome = true ∧ (taken s 0 0x40).1.ops 0 0 = 0 ∧ (taken s 0 0x40).1.ops 3 2 = 6 ∧
       (taken s 0 0x40).2.linkState 0 = 1 ∧ ((taken s 0 0x40).2.link 0).trainStep = 3 ∧
       (taken s 0 0x40).2.isTwinPort 0 = false) ∧
    (let s := heard 0 (pkt 0x40 3 0 []) (link 0 2 LinkSt.reset)
     (s.takeRx 0 0x40).isSome = true ∧ (taken s 0 0x40).2.linkState 0 = 2 ∧ s.linkState 0 = 2) ∧
    ((link 0 3 LinkSt.reset).linkState 0 = 3 ∧ (link 0 3 LinkSt.reset).lanesUp 0 = false ∧
      (link 0 3 { LinkSt.reset with trainStep := 3 }).lanesUp 0 = true) ∧
    (let s := heard 0 (pkt 0x40 3 3 []) (link 0 2 LinkSt.reset)
     (s.takeRx 0 0x40).isSome = true ∧ (taken s 0 0x40).1.ops 0 0 = 3) := by decide +kernel

theorem witness_LanesAreSwapped :
    (let s := link 0 2 { LinkSt.reset with trainStep := 4 }
     s.linkState 0 = 2 ∧ s.lanesUp 0 = true ∧ (1 : Fin 5).val ≠ s.regF (portReg 0 0) 23 21 ∧ (s.link 0).deadLanes = [] ∧
       (s.link 0).swapping = none) ∧
    (let s := link 0 3 { LinkSt.reset with deadLanes := [1], swapping := some 1, trainStep := 4 }
     s.linkState 0 = 3 ∧ s.lanesUp 0 = true ∧ (s.link 0).deadLanes = [1] ∧ (2 : Fin 5).val ≠ s.regF (portReg 0 0) 23 21 ∧
       (s.link 0).swapping = some 1) ∧
    ((link 0 1 LinkSt.reset).linkState 0 = 1) ∧
    (let s := heard 0 (pkt 0x40 3 1 []) (link 0 2 LinkSt.reset)
     (s.takeRx 0 0x40).isSome = true ∧ (taken s 0 0x40).1.ops 0 0 = 1) ∧
    (let s := heard 0 (pkt 0x40 3 2 []) (link 0 2 { LinkSt.reset with txSwap := true })
     (s.takeRx 0 0x40).isSome = true ∧ (taken s 0 0x40).1.ops 0 0 = 2 ∧
       ((taken s 0 0x40).2.link 0).txSwap = true) := by decide +kernel

theorem witness_FlitsAndCredits :
    (let s := (List.range 5).foldl (fun s j => on (272 + j) s) (on 62 (link 0 2 { LinkSt.reset with trainStep := 4 }))
     s.linkState 0 = 2 ∧ s.lanesUp 0 = true ∧ s.portListens 0 = true ∧ R.portListens 0 = false) ∧
    (let s := link 0 2 { LinkSt.reset with owed := [1, 0, 0, 0] }
     s.linkState 0 = 2 ∧ (s.link 0).owed = [1, 0, 0, 0] ∧ (s.link 0).swapping = none ∧ (s.link 0).txSwap = false ∧
       (s.rxFlit 0 [] ⟨true, 0, 0⟩).2.1 = true ∧ s.portsMute 0 = false ∧
       (s.setReg Reg.GLB_STATE 5).portsMute 0 = true) ∧
    (let s := heard 0 (pkt 1 3 1 []) (link 0 2 LinkSt.reset)
     (s.takeRx 0 1).isSome = true) := by decide +kernel

theorem witness_FlowsAreAcknowledged :
    (let s := heard 0 (pkt 3 3 0 []) (link 0 2 LinkSt.reset)
     (s.takeRx 0 3).isSome = true) ∧
    (let s := R.setRxFlow (flowKey 6 1 2) { RxFlow.reset with unacked := 5 }
     (s.rxFlow (flowKey 6 1 2)).unacked ≠ 0) ∧
    (let s := R.setTxFlow (flowKey 6 1 2) { TxFlow.reset with unacked := [pkt 0x10 1 0 []], resends := 7 }
     (s.txFlow (flowKey 6 1 2)).unacked = [pkt 0x10 1 0 []] ∧ (s.txFlow (flowKey 6 1 2)).resends < 8 ∧
       s.now < (s.txFlow (flowKey 6 1 2)).sentAt + (s.reg (Reg.CLV_E2E_TMO 0)).toNat ∧
       (let u := { s with now := 2000000 }
        (u.txFlow (flowKey 6 1 2)).sentAt + (u.reg (Reg.CLV_E2E_TMO 0)).toNat ≤ u.now)) ∧
    (let s := R.setTxFlow (flowKey 6 1 2) { TxFlow.reset with unacked := [pkt 0x10 1 0 []], resends := 8 }
     8 ≤ (s.txFlow (flowKey 6 1 2)).resends ∧ (s.hasTwin && (6 : Nat) == s.twin) = false) ∧
    (let k : TxFlow := { TxFlow.reset with unacked := [pkt 0x30 2 0 []], resends := 8 }
     let s := { (paired R).setTxFlow (flowKey 5 2 0) k with now := 2000000 }
     let t := { (paired R).setTxFlow (flowKey 5 0 0) k with now := 2000000, reads := [⟨0, 5, 64, .restore 0, 0⟩] }
     (s.txFlow (flowKey 5 2 0)).unacked = [pkt 0x30 2 0 []] ∧ 8 ≤ (s.txFlow (flowKey 5 2 0)).resends ∧
       (s.txFlow (flowKey 5 2 0)).sentAt + (s.reg (Reg.CLV_E2E_TMO 0)).toNat ≤ s.now ∧
       (s.hasTwin && (5 : Nat) == s.twin) = true ∧ (t.txFlow (flowKey 5 0 0)).unacked = [pkt 0x30 2 0 []] ∧
       (t.hasTwin && (5 : Nat) == t.twin) = true ∧ t.restoresFrom 5 = true) ∧
    (let s := heard 0 (pkt 2 3 0x1003 []) (link 0 2 LinkSt.reset)
     (s.takeRx 0 2).isSome = true ∧ (taken s 0 2).1.ops 0 0 = 3 ∧ (taken s 0 2).1.ops 1 1 ≠ 0) := by
  decide +kernel

/-- A module whose fabric window 0 opens the first MiB of far memory, with every port up. -/
def opened : State := on 60 <| serves 0
  ((((R.setReg (Reg.CLV_WIN_SIZE_LO 0 0) 0x100000).setReg (Reg.CLV_WIN_SIZE_LO 1 0) 0x100000).setLinkState 0 2).setReg
    (Reg.CLV_NODE_ID 0) 0)

theorem witness_FabricReadsAndWrites :
    (let s := heard 0 (pkt 0x10 1 0xFFFFC [1, 2, 3, 4]) opened
     let x := taken s 0 0x10
     (s.takeRx 0 0x10).isSome = true ∧ (x.2.e2eAccept 0 x.1).1 = true ∧
       (x.2.e2eAccept 0 x.1).2.permitted 0 x.1.src 0xFFFFC 4 false = true ∧
       (serves (chanOf 0xFFFFC) x.2).memPath 6 0xFFFFC 4 = true ∧ x.2.memPath 6 0xFFFFC 4 = false) ∧
    (let s := heard 0 (pkt 0x10 1 0xFFFFD [1, 2, 3, 4]) opened
     let x := taken s 0 0x10
     (x.2.e2eAccept 0 x.1).2.permitted 0 x.1.src 0xFFFFD 4 false = false) ∧
    (let s := heard 0 (pkt 0x11 0 (4 * 2 ^ 48) []) opened
     let x := taken s 0 0x11
     (s.takeRx 0 0x11).isSome = true ∧ (x.2.e2eAccept 0 x.1).1 = true ∧ x.1.ops 7 6 = 4 ∧
       (x.2.e2eAccept 0 x.1).2.permitted 0 x.1.src 0 4 true = true ∧ s.badRange 0 4 = false ∧
       x.2.memPath 6 0 4 = true ∧ x.2.memPath 6 0x100 4 = false ∧
       (x.2.e2eAccept 0 x.1).2.permitted 0 x.1.src 0x100000 4 true = false) ∧
    (let r : ReadOut := ⟨9, 6, 4, .restore 0, 0⟩
     let s := heard 0 (pkt 0x12 3 (9 * 2 ^ 64) [1, 2, 3, 4]) { opened with reads := [r] }
     let x := taken s 0 0x12
     (s.takeRx 0 0x12).isSome = true ∧ (x.2.e2eAccept 0 x.1).1 = true ∧
       ((x.2.e2eAccept 0 x.1).2.reads.find? fun r => r.tag.toNat == x.1.ops 9 8 && r.node.toNat == x.1.src) =
         some r ∧ x.1.len = r.bytes ∧ r.use = .restore 0) := by decide +kernel

theorem witness_MirrorAndTwin :
    (let s := heard 0 (pkt 0x30 2 0xFFFFC [1, 2, 3, 4]) (((paired opened).setReg (Reg.CLV_TWIN_NODE 0) 6).setReg
       Reg.GLB_MIRROR_SIZE_LO 0x100000)
     let x := taken s 0 0x30
     (s.takeRx 0 0x30).isSome = true ∧ (x.2.e2eAccept 0 x.1).1 = true ∧ (x.2.e2eAccept 0 x.1).2.hasTwin = true ∧
       x.1.src = (x.2.e2eAccept 0 x.1).2.twin ∧
       x.1.ops 5 0 + x.1.len ≤ (x.2.e2eAccept 0 x.1).2.reg48 Reg.GLB_MIRROR_SIZE_LO Reg.GLB_MIRROR_SIZE_HI ∧
       s.memPath 6 (x.1.ops 5 0) x.1.len = false ∧
       (serves (chanOf 0xFFFFC) s).memPath 6 (x.1.ops 5 0) x.1.len = true) ∧
    (let s := heard 0 (pkt 0x31 2 (1 * 2 ^ 64) []) (opened.setEngine 0 { EngineSt.reset with pend := [(1, 0, 0)] })
     let x := taken s 0 0x31
     (s.takeRx 0 0x31).isSome = true ∧ (x.2.e2eAccept 0 x.1).1 = true ∧ x.1.ops 14 14 ≠ 1 ∧
       (((x.2.e2eAccept 0 x.1).2.engine 0).pend.find? fun y => y.1.toNat == x.1.ops 11 8 &&
         y.2.1 == x.1.ops 13 12) = some (1, 0, 0)) ∧
    (let s := heard 0 (pkt 0x31 2 (1 * 2 ^ 64 + 2 ^ 112) [])
       { opened with ctl := { Ctl.reset with record := some (1, 0, false) } }
     let x := taken s 0 0x31
     (x.2.e2eAccept 0 x.1).1 = true ∧ x.1.ops 14 14 = 1 ∧ x.1.ops 11 8 = 1 ∧
       (x.2.e2eAccept 0 x.1).2.ctl.record = some (1, 0, false) ∧
       (x.2.e2eAccept 0 x.1).2.regF Reg.FLT_STAT 31 31 = 0) ∧
    (let s := { opened with resync := some ⟨[(0, 0, 256)], []⟩ }
     s.resync = some ⟨[(0, 0, 256)], []⟩ ∧ (s.engineRuns 0 && s.memPath 6 0 256) = true) ∧
    (let s := { paired (R.setEngine 0 { EngineSt.reset with pend := [(1, 0, 0)] }) with now := 10000000 }
     s.hasTwin = true ∧ s.alone = false ∧ 0 + (s.reg (updReg Reg.UPD_TWIN_TMO 0)).toNat < s.now) ∧
    (let s := { (paired R).setRegF Reg.FLT_STAT 31 31 1 with
                  now := 10000000, reads := [⟨0, 5, 64, .pairCheck, 0⟩] }
     s.hasTwin = true ∧ s.alone = true ∧ 0 + (s.reg (updReg Reg.UPD_TWIN_TMO 0)).toNat < s.now) := by
  decide +kernel

/-- The tensor cut into two shards, of which this module holds the first. -/
def tensor2 : Desc := { tensor with dims := [⟨2, 2, 4, 2, 0⟩, ⟨2, 1, 2, 1, 0⟩] }
def ringState (kind : Nat) : State :=
  { (engineState kind EngineSt.reset).setDesc 0 (some ⟨true, tensor2⟩) with
      prog := some { prog1 kind with shardGroups := [⟨0, 2, 0, false, [(0, 0), (6, 1)]⟩] } }

theorem witness_CollectivesRun :
    (let s := heard 0 (pkt 0x20 1 (1 * 2 ^ 32) []) (ringState 0)
     let x := taken s 0 0x20
     let u := (x.2.e2eAccept 0 x.1).2
     s.engineRuns 0 = true ∧ (s.takeRx 0 0x20).isSome = true ∧ (x.2.e2eAccept 0 x.1).1 = true ∧ (u.ring (x.1.ops 1 0)).isSome = true ∧
       u.ring 1 = none ∧
       (u.ring 0).all (fun R => decide (R.coll.kind ≠ 2) && !u.outOfStep 1 (u.gatherDone R 1) &&
         R.chunkOk 0 true && R.chunkOk 1 false) = true) ∧
    (let s := heard 0 (pkt 0x21 1 (1 * 2 ^ 32 + 1 * 2 ^ 64) []) (ringState 0)
     let x := taken s 0 0x21
     (s.takeRx 0 0x21).isSome = true ∧ (x.2.e2eAccept 0 x.1).1 = true ∧ x.1.ops 7 4 = 1 ∧ x.1.ops 11 8 = 1 ∧
       1 ≠ (x.2.e2eAccept 0 x.1).2.committed) ∧
    (let s := heard 0 (pkt 0x22 1 (1 * 2 ^ 32) []) (ringState 0)
     let x := taken s 0 0x22
     let u := (x.2.e2eAccept 0 x.1).2
     (s.takeRx 0 0x22).isSome = true ∧ (u.ugroup (x.1.ops 1 0)).isSome = true ∧
       (u.sgroupOf (ug 0 0)).isSome = true ∧ u.outOfStep 1 false = false) ∧
    (let x : Staged := ⟨0, 1, 0, 0, 0x78000, 4, [], [], true⟩
     let s := { ringState 1 with staged := [x] }
     let t := { ringState 0 with staged := [x] }
     s.engineRuns 0 = true ∧ (s.staged.find? fun x => x.half == 0 && x.whole && s.contribReady x.step &&
         s.memPath 6 x.addr 1) = some x ∧
       (t.staged.find? fun x => x.half == 0 && x.whole && t.contribReady x.step && t.memPath 6 x.addr 1) = some x ∧
       (s.ring 0).map Ring.rows = some true ∧ (t.ring 0).map Ring.rows = some false ∧
       (List.range 4).all (fun i => !t.rd.anyBad (0x78000 + 4 * i) 4) = true) := by
  decide +kernel

theorem witness_HostLanesTrain :
    R.linkState 16 ≠ 2 ∧ hostAligned 0 (markerWord 0 5 0xFFFD) = true ∧ hostAligned 1 (markerWord 0 5 0xFFFD) = false ∧
    R.keptInReset 78 = false ∧ R.keptInReset 79 = false ∧ ((on 78 R).island 78).ready = true ∧ (link 17 2 LinkSt.reset).linkState 17 = 2 ∧ (link 17 1 LinkSt.reset).linkState 17 = 1 ∧
    ((link 16 2 LinkSt.reset).rxFlit 16 [] ⟨true, 0, 0⟩).2.1 = true ∧
    ((heard 16 ⟨nhlHdr 1 3 0 0 0 0 0 0, []⟩ (link 16 2 LinkSt.reset)).takeRx 16 1).isSome = true ∧
    ((heard 16 ⟨nhlHdr 2 3 0 0 0 0 0 0, []⟩ (link 16 2 LinkSt.reset)).takeRx 16 2).isSome = true := by
  decide +kernel

theorem witness_CommandsTakeTheirTurn :
    ((0#32 - (R.hostQ 0).expect).toNat = 0 ∧ (R.hostQ 0).held = [] ∧ (R.hostQ 0).accepted = []) ∧
    ((63#32 - (R.hostQ 0).expect).toNat < 64 ∧ 64 ≤ (64#32 - (R.hostQ 0).expect).toNat ∧
      (64#32 - (R.hostQ 0).expect).toNat < 2 ^ 32 - 64 ∧ 2 ^ 32 - 64 ≤ (0xFFFFFFC0#32 - (R.hostQ 0).expect).toNat) ∧
    (let s := R.setHostQ 0 { HostQ.reset with accepted := List.replicate 64 (0, cmd 0 []) }
     64 ≤ (s.hostQ 0).accepted.length + (s.hostQ 0).held.length) ∧
    (let s := { R.setHostQ 15 { HostQ.reset with held := [(0, cmd 0 [])] } with now := 1001 }
     (s.hostQ 15).held ≠ [] ∧ (s.hostQ 15).gapSince + (s.reg Reg.HLK_GAP_TMO).toNat < s.now) ∧
    (let p : Pkt := ⟨nhlHdr 0x12 2 0 0 0 0 0 0, []⟩
     let s := R.setLink 16 { LinkSt.reset with txq := [p] }
     ((s.link (16 + s.hostLane 0)).txq.find? fun p => p.vc == 2) = some p ∧
       (let t := R.setLink 17 { LinkSt.reset with txq := [p] }
        (t.link (16 + t.hostLane 0)).txq = [] ∧ ((t.link 17).txq.find? fun p => p.vc == 2) = some p)) := by
  decide +kernel

/-! Host commands -/

theorem witness_CommandsAreChecked :
    hostCode (.run (cmd 0 [])) = some (cmd 0 [], 0x32) ∧
    (let s := R.setHostQ 0 { HostQ.reset with accepted := [(0, cmd 1 []), (0x32, cmd 0 [])] }
     s.hostTurn (cmd 0 []) 0x32 = false ∧ s.ctl.holdWaiters.contains (cmd 0 []) = false) ∧
    ((inMode 1).hostTurn (cmd (2 ^ 32) []) 0x32 = true ∧ cmdBad 0x32 (cmd (2 ^ 32) []) = some (some 4)) ∧
    cmdBad 0x32 (cmd 0 [0, 0, 0, 0]) = some none ∧
    (cmdBad 0x32 (cmd 0 []) = none ∧ (inMode 1).legalNow (cmd 0 []) 0x32 = false) ∧
    (inMode 5).legalNow (cmd 63 []) 0x53 = false ∧ (inMode 5).legalNow (cmd 255 []) 0x53 = true := by
  decide +kernel

/-- The 32 bytes of an allocation of 4 KiB of far memory at 0 with ID 3 (R248), and the 256 of the descriptor
of a 2 by 8 FP32 tensor at the start of allocation 0 (R99). -/
def allocBytes : List Byte := leBytes 32 (3 + 4096 * 2 ^ 128)
def descBytes : List Byte :=
  leBytes 256 (0x600201 + 0x10 * 2 ^ 40 + (2 + 8 * 2 ^ 32) * 2 ^ 256 + (8 + 1 * 2 ^ 32) * 2 ^ 384 +
    (2 + 2 ^ 32) * 2 ^ 1536 + (8 + 2 ^ 32) * 2 ^ 1600 + 0xFFFF * 2 ^ 1920)
def near1 : Alloc := { mirrored with near := true, cache := false, mirror := false, base := nearBase 0 }

theorem witness_SimpleCommandsAnswer :
    R.Effective (cmd 0 []) 0 ∧ R.Effective (cmd 0 []) 1 ∧ R.Effective (cmd (64 * 2 ^ 32) []) 2 ∧
    (inMode 1).Effective (cmd (1 * 2 ^ 32) [1, 2, 3, 4]) 3 ∧
    ((inMode 1).Effective (cmd 0 allocBytes) 0x10 ∧
      (parseAlloc (leNat allocBytes) false).map Prod.fst = some 3 ∧
      (parseAlloc (leNat allocBytes) false).all (fun x => (inMode 1).allocOk x.1 x.2) = true) ∧
    ((inMode 1).Effective (cmd 7 []) 0x11 ∧ (inMode 1).alloc 7 = none ∧
      (withAlloc.alloc 0).isSome = true ∧ withAlloc.allocNamed 0 = false) ∧
    ((withAlloc.setReg Reg.GLB_STATE 1).Effective (cmd 0 descBytes) 0x12 ∧
      (withAlloc.checkDesc withAlloc.groups 0 (leNat descBytes)).toBool = true) ∧
    ((inMode 1).Effective (cmd 0 []) 0x13 ∧ ((R.setDesc 0 (some ⟨false, tensor⟩)).desc 0).isSome = true) ∧
    (inMode 1).Effective (cmd 0 (List.replicate 64 0)) 0x60 ∧
    ((inMode 1).hostTurn (cmd 0 [1, 2, 3, 4]) 0x61 = true ∧
      flashBad (cmd 0 []).args.toNat 256 = none ∧ flashBad (cmd 1 []).args.toNat 0 = none ∧
      flashBad (cmd 2 []).args.toNat 0 = none ∧ flashBad (cmd 3 []).args.toNat 0 = none ∧
      flashBad (cmd 4 []).args.toNat 516 = none ∧ flashBad (cmd 5 []).args.toNat 580 = none ∧
      flashBad (cmd (6 + 4 * 2 ^ 64) []).args.toNat 0 = none ∧ cmdLegal 0x61 1 = true ∧
      ({ inMode 1 with activated := [1] } : State).activated.contains 1 = true) := by
  unfold State.Effective
  decide +kernel

/-- A module that runs firmware and a configuration of version 9, with a key in slot 0. -/
def running : State :=
  let s := (((inMode 1).setReg Reg.SEC_SVN 0x90009).setRegF Reg.BOOT_STAT 8 7 3)
  { s with fwVerified := true, cfgVerified := true,
           otp := { s.otp with keys := [{ KeySlot.empty with programmed := true }, KeySlot.empty, KeySlot.empty, KeySlot.empty] } }

theorem witness_FlashSubcommands :
    (R.inWritable 0 0x100 256 = some (slotBase 0 0 + 0x100) ∧ R.inWritable 1 0xF0000 0x10000 = some 0x4100000) ∧
    (running.writableSlot 1 = some 0 ∧ running.otp.svn < 9 ∧ running.fwVerified = true ∧
      running.cfgVerified = true ∧ 9 ≤ running.regF Reg.SEC_SVN 6 0 ∧ 9 ≤ running.regF Reg.SEC_SVN 22 16 ∧
      (let s := { running with flash := (flashWriteBytes [] 0
                    (leBytes 4 0x5249444E ++ List.replicate 24 0 ++
                      leBytes 4 (crc32c (leBytes 4 0x5249444E ++ List.replicate 24 0)).toNat)) }
       s.dirSlot 0 = some 0 ∧ 9 ≤ s.slotSvn 0 0 ∧ s.dirSlot 1 = some 0 ∧ 9 ≤ s.slotSvn 1 0)) ∧
    (running.otp.keys.getD 1 KeySlot.empty).programmed = false ∧ hd [1, 0, 0, 0] 0 1 ≤ 3 ∧ hd [1, 0, 0, 0] 1 3 = 0 := by
  decide +kernel

theorem witness_HostReadsAndWritesMemory :
    let s := { withAlloc.setReg Reg.GLB_STATE 1 with poison := [] }
    let t := up (serves 0 s)
    (s.Effective (cmd 0 [1, 2, 3, 4]) 0x20 ∧ t.Effective (cmd 0 [1, 2, 3, 4]) 0x20 ∧ (s.inAlloc 0 4).isSome = true ∧
      s.memPath s.ctlDie 0 4 = false ∧ t.memPath t.ctlDie 0 4 = true ∧
      (t.inAlloc 0 4).isSome = true) ∧
    (t.Effective (cmd 0x100000 [1, 2, 3, 4]) 0x20 ∧ t.inAlloc 0x100000 4 = none) ∧
    (t.Effective (cmd (4 * 2 ^ 64) []) 0x21 ∧ t.badRange 0 4 = false) := by
  unfold State.Effective
  decide +kernel

/-- An image of one stage without packets (R213, R214), alone in an allocation that can be reached. -/
def image : List Byte :=
  leBytes 64 (0x58424943 + 1 * 2 ^ 32 + 1 * 2 ^ 80 + 5 * 2 ^ 96 + 224 * 2 ^ 128) ++
    [1, 2, 3, 4, 6].flatMap (fun t => leBytes 24 (t + (if t = 1 then 2 ^ 32 + 32 * 2 ^ 128 else 0) + 192 * 2 ^ 64)) ++
    List.replicate 40 0
def withImage : State := (List.range 6).foldl (fun s c => serves c s)
  (up { (inMode 1).setAlloc 0 (some { mirrored with size := 0x400, mirror := false }) with
          mem := Memory.write [] 0 image })

theorem witness_ProgramCommandsChangeTheState :
    ((inMode 2).Effective (cmd 0 []) 0x32 ∧ (inMode 2).runLimit 0 = 0 ∧
      (let s := (inMode 2).setReg Reg.GLB_STEP_NUM 5
       s.runLimit 5 = 5 ∧ 5 ≤ s.committed ∧ s.committed < s.runLimit 6)) ∧
    ((inMode 3).Effective (cmd 0 []) 0x33 ∧ (inMode 3).ctl.mustRun ≤ (inMode 3).committed ∧
      (let s := { inMode 3 with ctl := { Ctl.reset with begun := 1, mustRun := 1 } }
       s.committed < s.ctl.mustRun ∧ s.ctl.holdWaiters.contains (cmd 0 []) = false)) ∧
    (inMode 4).Effective (cmd 0 []) 0x31 ∧
    ((inMode 1).Effective (cmd 0 []) 0x30 ∧ (inMode 1).roomAt 0 = none ∧
      withImage.Effective (cmd 0 []) 0x30 ∧ withImage.roomAt 0 = some 0x400 ∧ withImage.loadReach 0 0x400 = true ∧
      (withImage.checkImage 0 0x400).toBool = true ∧
      (withImage.setIsland 60 Island.reset).Effective (cmd 0 []) 0x30 ∧
      (withImage.setIsland 60 Island.reset).loadReach 0 0x400 = false) ∧
    (inMode 6).Effective (cmd 0 []) 0x34 := by
  unfold State.Effective
  decide +kernel

/-- A feed from ring allocation 1, of two slots, to target allocation 0. -/
def feed0 : Feed := ⟨0, 1, 2, [(1, 1, true)]⟩
def withFeed : State :=
  (((withAlloc.setReg Reg.GLB_STATE 2).setAlloc 0 (some { near1 with size := 256 })).setAlloc 1
    (some { near1 with base := nearBase 0 + 0x1000, size := 512 })).setFeed 15 (some feed0)

theorem witness_FeedsTakeData :
    (let h := cmd (0 + 0 * 2 ^ 16 + 1 * 2 ^ 32 + 2 * 2 ^ 48) []
     withFeed.Effective h 0x40 ∧ (withFeed.alloc (harg h 3 2)).isSome = true ∧
       (withFeed.alloc (harg h 5 4)).isSome = true ∧ withFeed.feed 0 = none ∧ harg h 6 6 * 256 ≤ 512 ∧
       harg h 3 2 ≠ harg h 5 4) ∧
    (withFeed.Effective (cmd 15 []) 0x41 ∧ withFeed.feed 15 = some feed0) ∧
    (let h := cmd (15 + 2 * 2 ^ 32 + 252 * 2 ^ 64) [1, 2, 3, 4]
     withFeed.Effective h 0x42 ∧ harg h 7 4 = 2 ∧ (up withFeed).Effective h 0x42 ∧
       withFeed.hostReach (withFeed.slotAddr feed0 2 252) 4 = false ∧
       (up withFeed).hostReach (withFeed.slotAddr feed0 2 252) 4 = true ∧
       (up { withFeed with ctl := { Ctl.reset with sentMax := 2 } }).Effective h 0x42 ∧
       withFeed.ctl.sentMax < 2 ∧ feed0.busy 2 = none ∧ 252 + 4 ≤ withFeed.slotSize feed0 ∧
       withFeed.slotSize feed0 < 253 + 4 ∧ feed0.busy 3 = some 1) ∧
    (withFeed.Effective (cmd 15 []) 0x43 ∧ 0 ≤ withFeed.ctl.sentMax) := by
  unfold State.Effective
  decide +kernel

/-- A result window on 16 bytes of allocation 0 with two slots in allocation 1. -/
def win (l : List (Nat × ResState)) : Window := ⟨nearBase 0, 16, nearBase 0 + 0x1000, 1, 0, 2, 2, l, 0, false, []⟩
def withWin (l : List (Nat × ResState)) : State := withFeed.setWindow 63 (some (win l))

theorem witness_ResultsAreRead :
    (let h := cmd (0 + 0 * 2 ^ 16 + 240 * 2 ^ 32 + 16 * 2 ^ 80 + 1 * 2 ^ 112 + 2 * 2 ^ 128) []
     withFeed.Effective h 0x50 ∧ harg h 9 4 = 240 ∧ harg h 13 10 = 16 ∧ harg h 16 16 = 2 ∧ harg h 15 14 = 1 ∧
       (withFeed.alloc (harg h 3 2)).isSome = true ∧ withFeed.window 0 = none ∧ 240 + 16 ≤ 256 ∧ 2 * 16 ≤ 512 ∧
       reachOverlap withFeed.engineRanges [(nearBase 0 + 240, 16)] = false) ∧
    (let h := cmd (63 + 2 * 2 ^ 32 + 12 * 2 ^ 64 + 4 * 2 ^ 96) []
     (withWin [(2, .posted)]).Effective h 0x52 ∧ withFeed.Effective h 0x52 ∧ withFeed.window 63 = none ∧
       (win [(2, .posted)]).standing 2 = 0 ∧ (win [(2, .taken)]).standing 2 = 9 ∧ (win []).standing 1 = 0xA ∧
       12 + 4 ≤ (win []).size ∧ (win []).size < 13 + 4 ∧
       (withWin []).badRange (nearBase 0 + 0x1000 + 2 % 2 * 16 + 12) 4 = false ∧
       (withWin [(2, .posted)]).memPath 6 (nearBase 0 + 0x1000 + 2 % 2 * 16 + 12) 4 = false ∧
       (up (withWin [(2, .posted)])).Effective h 0x52 ∧ (withWin [(2, .posted)]).ctlDie = 6 ∧
       (up (withWin [(2, .posted)])).memPath 6 (nearBase 0 + 0x1000 + 2 % 2 * 16 + 12) 4 = true) ∧
    (let s := { inMode 6 with dumpWritten := true }
     s.Effective (cmd (255 + 0xFFFFFFFC * 2 ^ 64 + 4 * 2 ^ 96) []) 0x52 ∧ s.dumpStanding = 0 ∧
       0xFFFFFFFC + 4 ≤ dumpSize ∧ s.memPath s.ctlDie (s.dumpBase + 0xFFFFFFFC) 4 = false ∧
       (let t := on 60 (serves (chanOf (s.dumpBase + 0xFFFFFFFC)) s)
        t.dumpStanding = 0 ∧ t.memPath t.ctlDie (t.dumpBase + 0xFFFFFFFC) 4 = true)) := by
  unfold State.Effective
  decide +kernel

theorem witness_ResultsAreReleased :
    ((withWin [(2, .posted)]).Effective (cmd (63 + 2 * 2 ^ 32) []) 0x53 ∧
      (withWin [(2, .posted)]).window 63 = some (win [(2, .posted)]) ∧ (win [(2, .posted)]).standing 2 = 0 ∧
      (win [(2, .waiting)]).standing 2 = 9 ∧ (win [(2, .released)]).standing 2 = 0xA ∧
      (win [(4, .taken)]).standing 2 = 0xA ∧ (win []).standing 1 = 0xA) ∧
    ((withWin []).Effective (cmd 63 []) 0x51 ∧ ((withWin []).window 63).isSome = true ∧
      withFeed.window 63 = none ∧ withFeed.Effective (cmd (63 + 4 * 2 ^ 96) []) 0x52) := by
  unfold State.Effective
  decide +kernel

/-! Faults, the step controller and the counters -/

theorem witness_FailuresAreDeclared :
    (let s := { R.setCore 0 { CoreSt.reset with seg := some ⟨0, 0, false, 0, Flags.clear⟩ } with now := 20000 }
     (s.core 0).seg.isSome = true ∧ (s.core 0).failed = false ∧ (s.core 0).thermGated = false ∧
       ((s.setCore 0 { s.core 0 with thermGated := true }).core 0).thermGated = true ∧
       (s.core 0).progress + (s.reg Reg.FLT_CORE_WDOG).toNat ≤ s.now) ∧
    (let s := on 54 R
     s.coreFailed 0 .resync = true ∧ (s.core 0).retired = false ∧
       (s.openWindow 3 1 9).defers 3 0 = true) ∧
    ((inMode 4).polderLost (.dieResync 5) = true ∧ (inMode 4).lostPolders.contains 5 = false ∧
      ({ inMode 4 with lostPolders := [5] } : State).lostPolders.contains 5 = true) ∧
    (let r := R.mkBreach 60 { cls := 1, polder := 0, action := 1 }
     let s := { R with breachQ := [r] }
     s.defers r.cls.toNat r.polder.toNat = false ∧ (s.openWindow 3 1 9).defers r.cls.toNat r.polder.toNat = true) ∧
    (let x : Core × Sched := (0, ⟨0, 0, 0⟩)
     let s := { R with ctl := { Ctl.reset with replayWait := [x] } }
     let st : Stage := ⟨1, 0, 0, 0, 0, []⟩
     let t := { s with prog := some { prog0 with stages := [st] } }
     s.ctl.replayWait.find? s.takenOver = some x ∧ s.stage 0 = none ∧
       t.ctl.replayWait.find? t.takenOver = some x ∧ t.stage 0 = some st ∧ t.ctl.abandoned = false ∧
       t.ctl.stepReplay = false) := by
  decide +kernel

theorem witness_DumpAndRestore :
    ((inMode 5).mode = 5 ∧ (inMode 5).dumpWritten = false) ∧
    ({ inMode 5 with dumpWritten := true } : State).dumpWritten = true ∧
    ((paired (inMode 2)).mode = 2 ∧ (paired (inMode 2)).hasTwin = true) ∧ (inMode 2).hasTwin = false ∧
    (let s := { inMode 2 with prog := some prog0, restore := some ⟨0, [], false⟩ }
     s.mode = 2 ∧ (s.word (prog0.commit + 4)).toNat = 0) := by
  decide +kernel

theorem witness_StepControllerRuns :
    (let s := { inMode 3 with prog := some prog0 }
     let t := s.setFeed 15 (some feed0)
     s.mayBegin 1 = true ∧ s.missingFeeds 1 = [] ∧ s.feedsReach 1 = true ∧ s.ctl.feedWait = none ∧ t.mayBegin 1 = true ∧
     (let x := { withFeed.setReg Reg.GLB_STATE 3 with prog := some prog0 }
      x.mayBegin 1 = true ∧ x.missingFeeds 1 = [] ∧ x.feedsReach 1 = false ∧ (up x).feedsReach 1 = true) ∧
       (t.setFeed 15 (some { feed0 with held := [] })).missingFeeds 1 = [15]) ∧
    (let s := { ({ inMode 3 with ctl := { Ctl.reset with feedWait := some 0 } } : State).setFeed 15
                  (some { feed0 with held := [] }) with now := 1001 }
     s.ctl.feedWait = some 0 ∧ s.missingFeeds 1 = [15] ∧ 0 + 1000 < s.now ∧ s.ctl.feedStalled = false ∧ s.mode = 3) ∧
    (let i : Issued := ⟨⟨0, 0, 0⟩, 0, false⟩
     let s := { withCore { CoreSt.reset with cplq := [2, 0] } with ctl := { Ctl.reset with issued := [i] } }
     (s.core 0).cplq = 2 :: [0] ∧ s.corePath 0 = true ∧ R.corePath 0 = false ∧ fld (2#64).toNat 7 0 = 2 ∧
       fld (0#64).toNat 7 0 ≠ 2 ∧ s.ctl.issued.find? (fun i => i.core == 0) = some i ∧
       s.ctl.abandoned = false ∧ s.ctl.stepReplay = false) ∧
    (let s := (withWin [(2, .waiting)]).setReg Reg.GLB_STATE 3
     (s.window 63) = some (win [(2, .waiting)]) ∧ s.mode = 3 ∧ s.copyFree (win [(2, .waiting)]) 2 = false ∧
       (up (s.setReg Reg.GLB_STEP_NUM 1)).copyFree (win [(2, .waiting)]) 2 = true ∧
       (win [(3, .posted), (1, .waiting)]).slotFree 1 = false ∧ s.badRange (win []).src 16 = false ∧
       (win [(2, .waiting)]).waitSince + 1000 < ({ s with now := 1001 } : State).now) := by
  decide +kernel

theorem witness_SnapshotCopies :
    R.regF (Reg.EVC_SEL 0 7) 29 29 = 1 ∧ (R.setReg (Reg.EVC_SEL 0 7) 0).regF (Reg.EVC_SEL 0 7) 29 29 = 0 ∧
    bit (R.reg (Reg.EVC_CTL 0)).toNat 3 = false ∧
    bit ((R.setReg (Reg.EVC_CTL 0) 8).reg (Reg.EVC_CTL 0)).toNat 3 = true := by decide +kernel

theorem witness_CountersAreWrittenAndCleared :
    (31 < evcSize 61 ∧ 7 < evcSize 0) ∧
    (let s := { R with evcMsgs := [⟨61, true, false⟩] }
     (s.evcMsgs.find? fun m => m.block == 61) = some ⟨61, true, false⟩ ∧ s.blockPath 61 = false ∧
       ([54, 57, 60, 61].foldl (fun s i => on i s) s).blockPath 61 = true ∧ s.clockRuns 61 = true) ∧
    (let s := ((up R).setReg (Reg.EVC_SEL 0 0) 0x807F0001 |>.setReg (Reg.EVC_CNT_LO 0 0) 0xFFFFFFFF).setReg
       (Reg.EVC_CNT_HI 0 0) 0xFFFF
     s.regF (Reg.EVC_SEL 0 0) 9 0 = 1 ∧ s.regF (Reg.EVC_SEL 0 0) 22 16 = 0x7F ∧
       evcSource 1 = some (1, 0, 1) ∧ evcLegal 0 1 = true ∧ s.evcCounts 0 0 1 0x7F = true ∧
       s.evcCount 0 0 < 2 ^ 48 ∧ 2 ^ 48 ≤ s.evcCount 0 0 + 1) := by decide +kernel

/-! Start-up, power and pins -/

theorem witness_StartUpRuns :
    (R.mode = 0 ∧ R.power = .good ∧ R.dir = none ∧ R.flashPart.ok = true ∧
      ({ R with flashPart := { R.flashPart with page := 512 } } : State).flashPart.ok = false) ∧
    (let s := { R with flash := flashWriteBytes (flashWriteBytes (flashWriteBytes [] 0
                  (leBytes 4 0x5249444E ++ List.replicate 24 0 ++
                    leBytes 4 (crc32c (leBytes 4 0x5249444E ++ List.replicate 24 0)).toNat))
                  (slotBase 0 0 + 12) [0, 0, 0, 0]) (slotBase 0 1 + 12) [0, 0, 0, 0] }
     let x := (s.startLanes.showOtp.setRegF Reg.BOOT_STAT 31 28 1).setRegF Reg.BOOT_STAT 31 28 2
     s.dir = some 0 ∧ (x.findSlot 0 (x.flashLe 8 1)).1 = none) ∧
    (let s := (R.setIsland 54 { Island.reset with inReset := false, ready := true })
     s.functionUp (.dieNoc 0) = true) ∧
    (let s := { R with healthDirty := true }
     s.healthDirty = true ∧ s.health = none) := by decide +kernel

theorem witness_PowerComesAndGoes :
    ({ R with power := .off } : State).power = .off ∧ R.resetHeld = false ∧
    ({ R with power := .off, resetHeld := true, houseRail := false } : State).houseRail = false ∧
    ({ R with power := .softStart } : State).power = .softStart ∧
    R.power ≠ .off ∧ R.power = .good ∧ R.railsOff.contains .bus6v = false ∧
    R.railsOff.contains (.vcore 53) = false ∧ R.railsOff.contains (.lpddr 3) = false ∧
    R.lostPolders.contains 9 = false := by decide +kernel

/-- A core with a sensor at a temperature in sixteenths of a degree. -/
def hot (t : Nat) (k : CoreSt) : State := (withCore k).setReg (Reg.TEL_SENSOR 32) (BitVec.ofNat 32 (2 ^ 31 + t))

theorem witness_PowerControlAndSensors :
    ((withCore { CoreSt.reset with setClk := 20 }).island 0).inReset = false ∧
    (hot 1520 CoreSt.reset).coreTemp 0 = some 1520 ∧ (hot 1520 CoreSt.reset).actThrottle = 1520 ∧
    (let s := hot 1520 { CoreSt.reset with thermGated := true }
     s.coreTemp 0 = some 1520 ∧ (s.core 0).thermGated = true ∧ 1520 ≤ s.actThrottle) ∧
    (let s := hot 1680 { CoreSt.reset with thermClk := 20 }
     s.coreTemp 0 = some 1680 ∧ (s.core 0).thermGated = false ∧ s.pstate 0 = 0 ∧ (s.core 0).thermClk = 20 ∧
       s.actThrottle + 160 ≤ 1680) ∧
    ((withCore CoreSt.reset).pstate 0 = 0 ∧ ((withCore CoreSt.reset).core 0).droop = false) ∧
    (let s := { withCore { CoreSt.reset with droop := true } with now := 1 }
     (s.core 0).droop = true ∧ (s.core 0).droopAt + 1 ≤ s.now) ∧
    ((ready 0).setReg (Reg.PWR_LATBUDGET 2) 50).fnIdle (.chan 0) = true ∧
    ((ready 0).setReg (Reg.PWR_LATBUDGET 2) 50).fnState (.chan 0) <
      ((ready 0).setReg (Reg.PWR_LATBUDGET 2) 50).deepestOf (.chan 0) ∧
    (R.setPwrState 0 1).wakeable (.chan 0) = true ∧ (R.setPwrState 0 3).wakeable (.chan 0) = true ∧
    (let s := (R.setReg (Reg.TEL_ALERT_SEL 7) (0x80000000 + 199)).setReg (Reg.TEL_ALERT_VAL 7) 5
     sensorExists 199 = true ∧ s.lostPolders.contains (6 + sensorHalf 199) = false ∧
       s.regF (Reg.TEL_ALERT_SEL 7) 7 0 = 199 ∧ bit (s.reg (Reg.TEL_ALERT_SEL 7)).toNat 31 = true ∧
       sensorNum 199 (s.regF (Reg.TEL_ALERT_VAL 7) 23 0) ≤ sensorNum 199 5) := by decide +kernel

/-- A management command with the PEC that it must carry. -/
def mg (code : Nat) (p : List Byte) : MgmtCmd := ⟨BitVec.ofNat 8 code, p, (inMode 1).mgmtPec code p⟩

theorem witness_ManagementPortAnswers :
    ((inMode 1).power = .good ∧ (inMode 1).tap.hasPins = false ∧ (inMode 1).mode ≠ 0 ∧ (inMode 1).mgmtDue ≤ (inMode 1).now ∧
      ({ inMode 1 with mgmtDue := 20 } : State).now < 20) ∧ mgmtListed 0x55 = false ∧ (mg 1 []).code = 1 ∧
    (inMode 1).mgmtPec 1 [] ≠ 0xFF ∧ (mg 1 []).pec = (inMode 1).mgmtPec 1 (mg 1 []).payload ∧
    (marg (mg 2 [192, 64]) 0 1 = 192 ∧ marg (mg 2 [192, 64]) 1 1 = 64 ∧ 192 + 64 ≤ 256) ∧
    marg (mg 3 [0, 0, 0, 0, 64]) 4 1 = 64 ∧
    (let r := R.mkBreach 60 { cls := 1, polder := 0, action := 1 }
     let s := { (inMode 1).setReg Reg.FLT_LOG_HEAD 1 with breaches := [r] }
     marg (mg 4 [255, 255, 255, 255]) 0 4 = 0xFFFFFFFF ∧ (s.reg Reg.FLT_LOG_HEAD).toNat - 1 = 0 ∧
       s.breaches[(s.reg Reg.FLT_LOG_HEAD).toNat - 1 - 0]? = some r ∧
       ((inMode 1).reg Reg.FLT_LOG_HEAD).toNat = 0) ∧
    (mg 5 [1, 2]).payload.length = 2 ∧ (mg 6 []).payload.length = 0 ∧
    (let m := mg 7 (6 :: List.replicate 7 0 ++ [4, 0, 0, 0])
     12 ≤ m.payload.length ∧ flashBad (marg m 0 12) (m.payload.length - 12) = none ∧ fld (marg m 0 12) 7 0 = 6) ∧
    (inMode 1).inWritable 0 0 256 = some 0x10000 ∧
    (marg (mg 8 [7, 0, 1, 0, 0, 0]) 0 1 = 7 ∧ marg (mg 8 [7, 0, 1, 0, 0, 0]) 2 1 = 1) ∧
    (mg 9 [255]).payload.length = 1 := by decide +kernel

theorem witness_TestPortScans : R.power = .good ∧ (inMode 1).mode = 1 ∧ (inMode 6).mode = 6 ∧
    ¬(R.mode = 1 ∨ R.mode = 6) ∧ 4 < (0x05#8).toNat ∧ R.tap.ins = .idcode := by decide +kernel

/-! ### Single steps -/

/-- A command answers a next state that meets `p`. -/
def nx (c : Instr) (s : State) (p : State → Bool) : Bool :=
  match exec c s with
  | .next t => p t
  | _ => false

def memS : State := up (serves 0 (withAlloc.setReg Reg.GLB_STATE 1))

theorem test_mem_write_stores_its_bytes :
    nx (.memWrite (cmd 0 [1,2,3,4])) memS fun t =>  t.mem.byte 0 = 1 ∧ t.mem.byte 3 = 4 ∧ t.mem.byte 4 =
      0 ∧ t.allocs = memS.allocs := by decide +kernel

theorem test_run_enters_training :
    nx (.run (cmd 0 [])) (inMode 2) fun t =>  t.mode = 3 ∧ t.reg Reg.GLB_STEP_LIMIT = 0 ∧ t.committed =
      0 := by decide +kernel

theorem test_hold_between_steps_holds :
    nx (.hold (cmd 0 [])) (inMode 3) fun t =>  t.mode = 4 ∧ t.regF Reg.GLB_STATE 7 4 = 1 ∧
      t.ctl.holdWaiters = [] := by decide +kernel

theorem test_hold_in_a_step_waits :
    nx (.hold (cmd 0 [])) { inMode 3 with ctl := { Ctl.reset with begun := 1, mustRun := 1 } } fun t =>  t.mode = 3 ∧
      bit (t.reg Reg.GLB_STATE).toNat 3 ∧ t.ctl.holdWaiters = [cmd 0 []] := by decide +kernel

theorem test_module_reset_clears_the_module :
    nx (.moduleReset (cmd 0 [])) ((inMode 6).setLinkState 16 2) fun t =>  t.regs = [] ∧ t.mem = [] ∧
      (t.link 16).txq.map Pkt.opcode = [0x12] ∧ t.linkState 16 = 0 ∧ t.linkState 17 = 0 := by decide +kernel

theorem test_feed_open :
    nx (.feedOpen (cmd (0 + 0 * 2 ^ 16 + 1 * 2 ^ 32 + 2 * 2 ^ 48) [])) withFeed fun t =>  t.feed 0 =
      some ⟨0,1,2,[]⟩ ∧ t.feed 15 = withFeed.feed 15 := by decide +kernel

theorem test_feed_commit_closes_the_batch :
    nx (.feedCommit (cmd (15 + 2 * 2 ^ 32) [])) withFeed fun t =>  t.feed 15 = some (feed0.take 2 true)
      := by decide +kernel

theorem test_result_release_frees_the_slot :
    nx (.resultRelease (cmd (63 + 2 * 2 ^ 32) [])) (withWin [(2, .posted)]) fun t =>  match t.window 63
      with | some y => y.standing 2 = 10 ∧ y.slotFree 4 | none => false := by decide +kernel

theorem test_dump_complete_retires :
    nx .dumpComplete { inMode 5 with dumpWritten := true } fun t =>  t.mode = 6 := by decide +kernel

theorem test_restore_of_no_step :
    nx .restoreComplete { inMode 2 with prog := some prog0, restore := some ⟨0, [], false⟩ } fun t =>
      t.committed = 0 ∧ t.restored ∧ t.restore = none ∧ t.ctl.begun = 0 := by decide +kernel

theorem test_polder_loss_stops_training :
    nx (.polderLoss (.dieResync 5)) (inMode 3) fun t =>  t.mode = 5 ∧ t.ctl.holdWaiters = [] ∧
      t.lostPolders = [5] := by decide +kernel

theorem test_snap_copies_and_clears :
    nx (.snap 0) ((R.setReg (Reg.EVC_CTL 0) 8).setEvcCount 0 7 77) fun t =>  t.reg48 (Reg.EVC_SNAP_LO 0
      7) (Reg.EVC_SNAP_HI 0 7) = 77 ∧ t.evcCount 0 7 = 0 ∧ (t.evcAdd 0 7 5).evcCount 0 7 = 5 ∧ t.regF
      (Reg.EVC_SNAP_INFO 0) 31 30 = 1 ∧ t.regF (Reg.EVC_SNAP_INFO 0) 15 0 = 1 := by decide +kernel

theorem test_clear_zeroes_and_clears_ovf :
    nx (.clear 61) ((R.setEvcCount 61 31 77).setReg (Reg.EVC_SEL 61 31) 0xFFFFFFFF) fun t =>  t.evcCount
      61 31 = 0 ∧ t.reg (Reg.EVC_SEL 61 31) = 0xBFFFFFFF := by decide +kernel

theorem test_boot_without_a_directory_retires :
    nx .bootRomStart R fun t =>  t.mode = 6 ∧ t.regF Reg.BOOT_STAT 31 28 = 15 ∧ t.regF Reg.BOOT_STAT 27
      24 = 2 := by decide +kernel

theorem test_regulator_fail_loses_the_polder :
    nx (.regulatorFail (.vserdes 3)) R fun t =>  t.railsOff = [.vserdes 3] ∧ t.lostPolders = [9] := by
      decide +kernel

theorem test_power_cap_steps_down :
    nx (.powerCapEval 4000) (withCore { CoreSt.reset with setClk := 72 }) fun t =>  t.regF Reg.PWR_STAT
      15 0 = 3600 ∧ t.regF Reg.PWR_STAT 23 16 = 71 ∧ t.energy = 400000 ∧ (t.core 0).clkDue = if
      (R.setIsland 0 { Island.reset with inReset := false, ready := true } |>.island 0).inReset then
      none else (t.core 0).clkDue := by decide +kernel

theorem test_core_thermal_gate_ends :
    nx (.coreThermalGate 0) (hot 1520 { CoreSt.reset with thermGated := true }) fun t =>  (t.core
      0).thermGated = false ∧ t.pstate 0 = 0 := by decide +kernel

theorem test_droop_response :
    nx (.droopResponse 0) (withCore CoreSt.reset) fun t =>  (t.core 0).droop ∧ t.reg Reg.PWR_DROOP_CNT =
      1 := by decide +kernel

theorem test_sensor_update_alerts :
    nx (.sensorUpdate 199 5) ((R.setReg (Reg.TEL_ALERT_SEL 7) (0x80000000 + 199)).setReg
      (Reg.TEL_ALERT_VAL 7) 5) fun t =>  bit (t.reg Reg.TEL_ALERT_STAT).toNat 7 ∧ t.reg (Reg.TEL_SENSOR
      199) = 0x80000005 := by decide +kernel

theorem test_host_lane_trains :
    nx (.hostLaneTrain 0 ⟨(markerWord 0 7 0xFFFD), 0xFFFF⟩) R fun t =>  t.linkState 16 = 2 ∧ (t.link 16).heldMax = [0xFFFF,0,0,0] ∧
      (t.link 16).granted = [1024, 0, 0, 256] := by decide +kernel

theorem test_host_lane_fails :
    nx (.hostLaneFail 1) (link 17 2 LinkSt.reset) fun t =>  t.linkState 17 = 1 := by decide +kernel

theorem test_gap_timeout_drops_the_held :
    nx (.gapTimeout 15) ({ R.setHostQ 15 { HostQ.reset with held := [(0, cmd 0 [])] } with now := 1001
      }) fun t =>  (t.hostQ 15).held = [] := by decide +kernel

theorem test_event_drop_counts :
    nx (.eventDrop) (R.setLink 16 { LinkSt.reset with txq := [⟨nhlHdr 0x12 2 0 0 0 0 0 0, []⟩] }) fun t
      =>  (t.link (16 + R.hostLane 0)).txq = [] ∧ t.reg Reg.HLK_EVT_LOST_CNT = 1 := by decide +kernel

theorem test_no_row_gives_bits : decodeTableWord 32 0xDEADBEEF = none := by decide

end Sys2Proof.Tests
end

section
/-! SUPPORT. The audit counters of the predictor engines read as one coherent pair (R243). -/

namespace Sys2Proof.Machine

open Sys2Proof

/-! ### The audit counters stand in the table of a compute die's window -/

theorem RegRow.index_instance (r : RegRow) (i : Nat) (hs : 0 < r.stride) (hi : i < r.n) :
    r.index (r.off + r.stride * i) = some i := by
  simp [RegRow.index, Nat.mul_div_cancel_left i hs, hi]

/-- An instance of a row of the table is found, whichever row answers first. -/
theorem findRow_instance {rows : List RegRow} {r : RegRow} (hr : r ∈ rows) (i : Nat) (hs : 0 < r.stride)
    (hi : i < r.n) : ∃ q, findRow rows (r.off + r.stride * i) = some q :=
  Option.isSome_iff_exists.mp
    (List.find?_isSome.mpr ⟨r, hr, by rw [RegRow.index_instance r i hs hi]; rfl⟩)

/-- The die-common part of a compute die's window (R466). -/
theorem regRow_dieBase (d : Die) (off : Nat) (ha : off % 4 = 0) (hb : off < 0x00100000) :
    regRow (dieBase d + off) = findRow dieRows off := by
  have hd := d.isLt
  have haddr : dieBase d = 0x01000000 * (d.val + 1) := rfl
  have hoff : (dieBase d + off) % 0x01000000 = off := by omega
  have halign : ¬ (dieBase d + off) % 4 ≠ 0 := by omega
  have hglb : ¬ dieBase d + off < 0x01000000 := by omega
  have hdie : dieBase d + off < 0x07000000 := by omega
  simp only [regRow, if_neg halign, if_neg hglb, if_pos hdie, hoff, if_pos hb]

theorem regRow_PRD_AUD_ROWS (d : Die) (l : Fin 256) : ∃ r, regRow (Reg.PRD_AUD_ROWS d l) = some r := by
  have haddr : Reg.PRD_AUD_ROWS d l = dieBase d + (0x8800 + 4 * l.val) := Nat.add_assoc _ _ _
  rw [haddr, regRow_dieBase d _ (by omega) (by omega)]
  exact findRow_instance (r := ⟨0x8800, 256, 4, 0x0, 0x0, 0xFFFFFFFF, 0x0, false⟩)
    (by decide) l.val (by decide) l.isLt

theorem regRow_PRD_AUD_MISS (d : Die) (l : Fin 256) : ∃ r, regRow (Reg.PRD_AUD_MISS d l) = some r := by
  have haddr : Reg.PRD_AUD_MISS d l = dieBase d + (0x8C00 + 4 * l.val) := Nat.add_assoc _ _ _
  rw [haddr, regRow_dieBase d _ (by omega) (by omega)]
  exact findRow_instance (r := ⟨0x8C00, 256, 4, 0x0, 0x0, 0xFFFFFFFF, 0x0, false⟩)
    (by decide) l.val (by decide) l.isLt

/-- The rows lie below offset 0x8C00 and the misses from there, 256 words each (R242). -/
theorem audAt_dieBase (d : Die) (l : Fin 256) (miss : Bool) :
    audAt (dieBase d + ((if miss then 0x8C00 else 0x8800) + 4 * l.val)) = some (d.val, l.val, miss) := by
  have hd := d.isLt
  have hl := l.isLt
  have haddr : dieBase d = 0x01000000 * (d.val + 1) := rfl
  simp only [audAt, haddr, Option.ite_none_right_eq_some, Option.some.injEq, Prod.mk.injEq]
  cases miss with
  | false => simp only [Bool.false_eq_true, if_false, decide_eq_false_iff_not]; omega
  | true => simp only [if_true, decide_eq_true_eq]; omega

theorem PRD_AUD_MISS_ne_PRD_AUD_ROWS (d : Die) (l : Fin 256) :
    Reg.PRD_AUD_MISS d l ≠ Reg.PRD_AUD_ROWS d l := by
  simp only [Reg.PRD_AUD_MISS, Reg.PRD_AUD_ROWS]; omega

/-! ### What the two reads do -/

theorem State.readReg_PRD_AUD_ROWS (s : State) (acc : Nat) (d : Die) (l : Fin 256) :
    s.readReg acc (Reg.PRD_AUD_ROWS d l) = s.readAudRows d l := by
  obtain ⟨r, hr⟩ := regRow_PRD_AUD_ROWS d l
  refine State.readReg_audRows s acc _ d l r hr ?_
  rw [← audAt_dieBase d l false]
  exact congrArg audAt (Nat.add_assoc _ _ _)

theorem State.readReg_PRD_AUD_MISS (s : State) (acc : Nat) (d : Die) (l : Fin 256) :
    s.readReg acc (Reg.PRD_AUD_MISS d l) = s.readAudMiss d l := by
  obtain ⟨r, hr⟩ := regRow_PRD_AUD_MISS d l
  refine State.readReg_audMiss s acc _ d l r hr ?_
  rw [← audAt_dieBase d l true]
  exact congrArg audAt (Nat.add_assoc _ _ _)

/-- The read of the rows latches the misses as they are in that cycle. -/
theorem State.latchOf_readAudRows (s : State) (d l : Nat) :
    (s.readAudRows d l).2.latchOf (audKey d l) =
      some (Reg.PRD_AUD_MISS d l, s.reg (Reg.PRD_AUD_MISS d l)) := by
  rw [State.readAudRows_eq, State.latchOf_clearRc, State.latchOf_setLatch, if_pos rfl]

theorem State.reg_readAudRows_self (s : State) (d l : Nat) :
    (s.readAudRows d l).2.reg (Reg.PRD_AUD_ROWS d l) = 0 := by
  rw [State.readAudRows_eq, State.reg_clearRc_self]
  exact BitVec.and_zero

theorem State.reg_readAudRows_ne (s : State) (d l x : Nat) (h : x ≠ Reg.PRD_AUD_ROWS d l) :
    (s.readAudRows d l).2.reg x = s.reg x := by
  rw [State.readAudRows_eq, State.reg_clearRc_ne _ _ _ _ h, State.reg_setLatch]

section
variable (s : State) (d l x : Nat) (w : Word) (h : s.latchOf (audKey d l) = some (x, w))
include h

/-- The read of the latched misses subtracts them, so that those counted since remain. -/
theorem State.reg_readAudMiss_self :
    (s.readAudMiss d l).2.reg (Reg.PRD_AUD_MISS d l) =
      BitVec.ofNat 32 ((s.reg (Reg.PRD_AUD_MISS d l)).toNat - w.toNat) := by
  rw [State.readAudMiss_latched s d l x w h]
  exact State.reg_setReg_self _ _ _

theorem State.reg_readAudMiss_ne (y : Nat) (hy : y ≠ Reg.PRD_AUD_MISS d l) :
    (s.readAudMiss d l).2.reg y = s.reg y := by
  rw [State.readAudMiss_latched s d l x w h]
  exact State.reg_setReg_ne _ _ _ _ hy

/-- Misses counted after the latch remain in the counter. -/
theorem State.toNat_reg_readAudMiss_self (m : Nat)
    (hm : (s.reg (Reg.PRD_AUD_MISS d l)).toNat = w.toNat + m) :
    ((s.readAudMiss d l).2.reg (Reg.PRD_AUD_MISS d l)).toNat = m := by
  have hbound := (s.reg (Reg.PRD_AUD_MISS d l)).isLt
  rw [State.reg_readAudMiss_self s d l x w h, hm, Nat.add_sub_cancel_left, BitVec.toNat_ofNat]
  exact Nat.mod_eq_of_lt (by omega)

end

/-- Settles O11: the first read latches the misses beside clearing the rows; the second finds that latch. -/
theorem auditPairIsCoherent : Obligations.AuditPairIsCoherent := by
  unfold Obligations.AuditPairIsCoherent
  intro a d l s u m
  have hrows := s.readReg_PRD_AUD_ROWS a d l
  refine ⟨s.readTo a (Reg.PRD_AUD_ROWS d l), rfl, ?_, ?_, ?_, ?_, fun hlatch hm => ?_⟩
  · rw [State.readData_readTo, hrows, State.readAudRows_eq]
  · rw [State.reg_readTo, hrows, State.reg_readAudRows_self]
  · rw [State.reg_readTo, hrows, State.reg_readAudRows_ne _ _ _ _ (PRD_AUD_MISS_ne_PRD_AUD_ROWS d l)]
  · intro x hx
    rw [State.reg_readTo, hrows, State.reg_readAudRows_ne _ _ _ _ hx]
  · have hmiss := u.readReg_PRD_AUD_MISS a d l
    have hu : u.latchOf (audKey d l) = some (Reg.PRD_AUD_MISS d l, s.reg (Reg.PRD_AUD_MISS d l)) := by
      rw [hlatch, State.latchOf_readTo, hrows, State.latchOf_readAudRows]
    refine ⟨u.readTo a (Reg.PRD_AUD_MISS d l), rfl, ?_, ?_, fun x hx => ?_⟩
    · rw [State.readData_readTo, hmiss, State.readAudMiss_latched u d l _ _ hu]
    · rw [State.reg_readTo, hmiss, State.toNat_reg_readAudMiss_self u d l _ _ hu m hm]
    · rw [State.reg_readTo, hmiss, State.reg_readAudMiss_ne u d l _ _ hu x hx]

end Sys2Proof.Machine
end

section
/-! SUPPORT. The far-address map by granules and by stripes of one data row of every channel (R257). -/

namespace Sys2Proof.Machine

open Sys2Proof

/-- A channel-local data row holds eight granules. -/
theorem rowOf_eq_granule_div (a : Nat) : rowOf a = a / 256 / 192 / 8 := by
  have hlt : a % 256 < 256 := Nat.mod_lt a (by decide)
  calc rowOf a
    _ = (a % 256 + a / 256 / 192 * 256) / 256 / 8 := by rw [Nat.div_div_eq_div_mul, Nat.add_comm, rowOf]
    _ = a / 256 / 192 / 8 := by
      rw [Nat.add_mul_div_right _ _ (by decide), Nat.div_eq_of_lt hlt, Nat.zero_add]

/-- One data row of all 192 channels takes 384 KiB of addresses. -/
theorem rowOf_eq_div_stripe (a : Nat) : rowOf a = a / (384 * 1024) := by
  rw [rowOf_eq_granule_div, Nat.div_div_eq_div_mul, Nat.div_div_eq_div_mul]

theorem chanOf_eq_of_granule_eq {a b : Nat} (h : a / 256 = b / 256) : chanOf a = chanOf b := by
  rw [chanOf, chanOf, h]

theorem rowOf_eq_of_granule_eq {a b : Nat} (h : a / 256 = b / 256) : rowOf a = rowOf b := by
  rw [rowOf_eq_granule_div, rowOf_eq_granule_div, h]

/-- An aligned burst of 32 bytes does not leave its granule. -/
theorem granule_add_of_burst {a i : Nat} (ha : a % 32 = 0) (hi : i < 32) : (a + i) / 256 = a / 256 := by
  omega

/-- The channel-local data offset of an address of far memory lies in the channel's 15 GiB. -/
theorem channelOffset_lt {a : Nat} (ha : a < farSize) : a / 256 / 192 * 256 + a % 256 < 15 * 2 ^ 30 := by
  have hsize : farSize = 256 * 192 * (15 * 2 ^ 22) := rfl
  have hq : a / 256 / 192 < 15 * 2 ^ 22 := by
    rw [Nat.div_div_eq_div_mul]
    exact Nat.div_lt_of_lt_mul (hsize ▸ ha)
  omega

/-- Settles O25: the row is the quotient by the stripe, and a burst stays in its granule. -/
theorem farAddressMap : Obligations.FarAddressMap := by
  unfold Obligations.FarAddressMap
  intro a ha
  have hshift : a >>> 8 = a / 256 := Nat.shiftRight_eq_div_pow a 8
  have hmask : a &&& 0xFF = a % 256 := Nat.and_two_pow_sub_one_eq_mod a 8
  rw [hshift, hmask]
  refine ⟨rfl, ?_, channelOffset_lt ha, fun i halign hi => ?_, fun r => ?_⟩
  · exact (Nat.shiftRight_eq_div_pow _ 11).symm
  · have hgranule := granule_add_of_burst halign hi
    exact ⟨chanOf_eq_of_granule_eq hgranule, rowOf_eq_of_granule_eq hgranule⟩
  · rw [rowOf_eq_div_stripe]
    omega

end Sys2Proof.Machine
end

section
/-! SUPPORT. The new W, m and v of one slot under the rules AM (R291) and MO (R292). -/

namespace Sys2Proof.Machine

open Sys2Proof

/-- Weight w after the decoupled decay and a step of size η along d. -/
def decayedMove (u : UGroup) (c : Coefs) (w d : Word) : Word :=
  fsub (fmul w (fsub one32 (fmul c.eta u.lambda))) (fmul c.eta d)

/-- The direction of d is formed from the new moments, not from the old ones (R291). -/
theorem adam_of_moments (u : UGroup) (c : Coefs) {g m v m' v' : Word}
    (hm : m' = fadd (fmul u.b1 m) (fmul (fsub one32 u.b1) g))
    (hv : v' = fadd (fmul u.b2 v) (fmul (fmul (fsub one32 u.b2) g) g)) :
    adam u c g m v = (m', v', fdiv (fdiv m' c.bc1) (fadd (fsqrt (fdiv v' c.bc2)) u.eps)) := by
  rw [hm, hv]
  rfl

theorem updateSlot_of_rule_zero {u : UGroup} (h : u.rule = 0) (c : Coefs) (g w m v : Word) :
    updateSlot u c g w m v =
      (decayedMove u c w (adam u c g m v).2.2, (adam u c g m v).1, (adam u c g m v).2.1) := by
  rw [updateSlot, h]
  rfl

/-- MO keeps no second moment: v comes back as it was (R292). -/
theorem updateSlot_of_rule_one {u : UGroup} (h : u.rule = 1) (c : Coefs) (g w v : Word) {m m' : Word}
    (hm : m' = fadd (fmul u.b1 m) g) :
    updateSlot u c g w m v =
      (decayedMove u c w (if u.nesterov then fadd g (fmul u.b1 m') else m'), m', v) := by
  rw [updateSlot, h, hm]
  rfl

/-- Settles O30, one rule at a time: both rules move the weight by `decayedMove` and differ in d and the moments. -/
theorem adaptiveMomentsAndMomentum : Obligations.AdaptiveMomentsAndMomentum := by
  unfold Obligations.AdaptiveMomentsAndMomentum
  intro u c g w m v keep hkeep
  have hmove (d : Word) : decayedMove u c w d = fsub (fmul w keep) (fmul c.eta d) := by
    rw [hkeep, decayedMove]
  refine ⟨fun hrule m' v' d hm hv hd => ?adaptiveMoments, fun hrule m' d hm hd => ?momentum⟩
  case adaptiveMoments => rw [updateSlot_of_rule_zero hrule, adam_of_moments u c hm hv, ← hd, hmove]
  case momentum => rw [updateSlot_of_rule_one hrule c g w v hm, ← hd, hmove]

end Sys2Proof.Machine
end

section
/-! SUPPORT. The release of a result and the close of its window (R372, R373). -/

namespace Sys2Proof.Machine

open Sys2Proof

/-! ### What a response and the course of a command leave -/

@[simp] theorem State.window_answerHost (s : State) (h : HostCmd) (cmd status args : Nat) (data : List Byte)
    (i : Nat) : (s.answerHost h cmd status args data).window i = s.window i := by
  unfold State.answerHost
  rw [(hostSend_reports _ _ _).window, State.window_setHostQ]

@[simp] theorem State.window_flushBad (q n : Nat) (s : State) (i : Nat) :
    (State.flushBad q n s).window i = s.window i := by
  induction n generalizing s with
  | zero => rfl
  | succ n ih =>
    unfold State.flushBad
    split
    · rfl
    · split
      · rfl
      · rw [ih, State.window_answerHost]

@[simp] theorem State.window_respond (s : State) (h : HostCmd) (cmd status args : Nat) (data : List Byte)
    (i : Nat) : (s.respond h cmd status args data).window i = s.window i := by
  unfold State.respond
  rw [State.window_flushBad, State.window_answerHost]

@[simp] theorem State.mem_respond (s : State) (h : HostCmd) (cmd status args : Nat) (data : List Byte) :
    (s.respond h cmd status args data).mem = s.mem :=
  (State.respond_same s (Same.refl s) h cmd status args data).mem

/-- A command that has its effect meets no refusal on its course (R356, R358, R361). -/
theorem State.runCmd_of_effective {s : State} {h : HostCmd} {cmd : Nat} (heff : s.Effective h cmd)
    (act : State → State) : s.runCmd h cmd (cmdBad cmd h) (s.legalNow h cmd) act = .next (act s) := by
  obtain ⟨hturn, hfields, hlegal⟩ := heff
  simp [State.runCmd, hturn, hfields, hlegal]

/-- The legality of these two commands asks which window they name (R361). -/
theorem State.runCmd_winLegal_of_effective {s : State} {h : HostCmd} {cmd : Nat} (heff : s.Effective h cmd)
    (hcmd : cmd = 0x52 ∨ cmd = 0x53) (act : State → State) :
    s.runCmd h cmd (cmdBad cmd h) (s.winLegal h cmd) act = .next (act s) := by
  have hlegal : s.legalNow h cmd = s.winLegal h cmd := if_pos hcmd
  rw [← hlegal, State.runCmd_of_effective heff]

theorem State.hostRun_of_effective {s : State} {h : HostCmd} {cmd : Nat} (heff : s.Effective h cmd)
    (hcmd : ¬ (cmd = 0x52 ∨ cmd = 0x53)) (act : State → State) : s.hostRun h cmd act = .next (act s) := by
  have hlegal : s.legalNow h cmd = cmdLegal cmd s.mode := if_neg hcmd
  rw [State.hostRun, ← hlegal, State.runCmd_of_effective heff]

/-! ### Where a step stands in a window (R372) -/

/-- What a release of a result that stands so is answered with. -/
def ResState.releaseStatus : ResState → Nat
  | .posted => 0
  | .released => 0xA
  | .waiting | .taken => 9

theorem Window.standing_of_lt_first {x : Window} {k : Nat} (h : k < x.first) : x.standing k = 0xA :=
  if_pos h

theorem Window.standing_of_find {x : Window} {k j : Nat} {st : ResState} (hk : x.first ≤ k)
    (hfind : (x.results.find? fun r => r.1 == k) = some (j, st)) : x.standing k = st.releaseStatus := by
  rw [Window.standing, if_neg (Nat.not_lt.mpr hk), hfind]
  cases st <;> rfl

/-- Only a posted result stands with OK. -/
theorem Window.find_of_standing_zero {x : Window} {k : Nat} (h : x.standing k = 0) :
    x.first ≤ k ∧ (x.results.find? fun r => r.1 == k) = some (k, .posted) := by
  have hk : x.first ≤ k := Nat.le_of_not_lt fun hlt => by
    rw [Window.standing_of_lt_first hlt] at h
    exact absurd h (by decide)
  refine ⟨hk, ?_⟩
  cases hfind : x.results.find? fun r => r.1 == k with
  | none =>
    rw [Window.standing, if_neg (Nat.not_lt.mpr hk), hfind] at h
    simp only at h
    split at h <;> contradiction
  | some r =>
    obtain ⟨j, st⟩ := r
    have hj : j = k := by simpa using List.find?_some hfind
    rw [Window.standing_of_find hk hfind] at h
    cases st <;> simp_all [ResState.releaseStatus]

/-! ### The window in which the result of a step is released -/

/-- The window's results with that of step k released. -/
def Window.release (x : Window) (k : Nat) : Window :=
  { x with results := x.results.map fun r => if r.1 = k then (k, ResState.released) else r }

theorem Window.mem_release_results {x : Window} {k : Nat} {r : Nat × ResState} :
    r ∈ (x.release k).results ↔
      (r.1 ≠ k ∧ r ∈ x.results) ∨ (r = (k, .released) ∧ ∃ q ∈ x.results, q.1 = k) := by
  simp only [Window.release, List.mem_map]
  constructor
  · rintro ⟨q, hq, rfl⟩
    by_cases hqk : q.1 = k
    · exact .inr ⟨if_pos hqk, q, hq, hqk⟩
    · rw [if_neg hqk]
      exact .inl ⟨hqk, hq⟩
  · rintro (⟨hrk, hr⟩ | ⟨rfl, q, hq, hqk⟩)
    · exact ⟨r, hr, if_neg hrk⟩
    · exact ⟨q, hq, if_pos hqk⟩

theorem Window.mem_release_results_of_ne {x : Window} {k : Nat} {r : Nat × ResState} (hr : r.1 ≠ k) :
    r ∈ (x.release k).results ↔ r ∈ x.results := by
  have hne : r ≠ (k, .released) := fun heq => hr (congrArg Prod.fst heq)
  simp [Window.mem_release_results, hr, hne]

/-- The search for step k meets the released result where it met the posted one. -/
theorem Window.find_release {x : Window} {k : Nat} {r : Nat × ResState}
    (h : (x.results.find? fun r => r.1 == k) = some r) :
    ((x.release k).results.find? fun r => r.1 == k) = some (k, .released) := by
  have hsame : ((fun r : Nat × ResState => r.1 == k) ∘ fun r => if r.1 = k then (k, ResState.released) else r) =
      fun r => r.1 == k := by
    funext q
    simp only [Function.comp_apply]
    split <;> simp_all
  have hr : r.1 = k := by simpa using List.find?_some h
  rw [Window.release, List.find?_map, hsame, h, Option.map_some, if_pos hr]

theorem Window.standing_release {x : Window} {k : Nat} (h : x.standing k = 0) :
    (x.release k).standing k = 0xA := by
  obtain ⟨hk, hfind⟩ := Window.find_of_standing_zero h
  exact Window.standing_of_find (x := x.release k) hk (Window.find_release hfind)

/-- The release frees the slot, unless another step's result holds it. -/
theorem Window.slotFree_release {x : Window} {k j : Nat}
    (hothers : ∀ r ∈ x.results, r.1 ≠ k → r.1 % x.slots = k % x.slots → r.2 = .released)
    (hj : j % x.slots = k % x.slots) : (x.release k).slotFree j = true := by
  refine List.all_eq_true.mpr fun r hr => ?_
  have hreleased : r.1 % x.slots = k % x.slots → r.2 = .released := fun hslot => by
    rcases Window.mem_release_results.mp hr with ⟨hrk, hrx⟩ | ⟨rfl, -⟩
    · exact hothers r hrx hrk hslot
    · rfl
  have hslots : (x.release k).slots = x.slots := rfl
  rw [hslots, hj]
  by_cases hslot : r.1 % x.slots = k % x.slots
  · simp [hreleased hslot]
  · simp [hslot]

/-! ### What the commands of an open or closed window do -/

theorem exec_resultClose (h : HostCmd) (s : State) : exec (.resultClose h) s = execResultClose h s := rfl

theorem exec_resultRead (h : HostCmd) (s : State) : exec (.resultRead h) s = execResultRead h s := rfl

theorem exec_resultRelease (h : HostCmd) (s : State) : exec (.resultRelease h) s = execResultRelease h s := rfl

section
variable {h : HostCmd} {s : State} {x : Window}

theorem exec_resultRelease_of_posted (heff : s.Effective h 0x53) (hdump : harg h 1 0 ≠ 255)
    (hwin : s.window (harg h 1 0) = some x) (hst : x.standing (harg h 7 4) = 0) :
    exec (.resultRelease h) s =
      .next ((s.setWindow (harg h 1 0) (some (x.release (harg h 7 4)))).respond h 0x53 0 0 []) := by
  rw [exec_resultRelease, execResultRelease, State.runCmd_winLegal_of_effective heff (.inr rfl)]
  simp only [if_neg hdump, hwin, if_pos hst, State.ok, Window.release]

theorem exec_resultRelease_of_refused (heff : s.Effective h 0x53) (hdump : harg h 1 0 ≠ 255)
    (hwin : s.window (harg h 1 0) = some x) (hst : x.standing (harg h 7 4) ≠ 0) :
    exec (.resultRelease h) s = .next (s.respond h 0x53 (x.standing (harg h 7 4)) 0 []) := by
  rw [exec_resultRelease, execResultRelease, State.runCmd_winLegal_of_effective heff (.inr rfl)]
  simp only [if_neg hdump, hwin, if_neg hst]

theorem exec_resultClose_of_open (heff : s.Effective h 0x51) (hopen : (s.window (harg h 1 0)).isSome = true) :
    exec (.resultClose h) s = .next ((s.setWindow (harg h 1 0) none).respond h 0x51 0 0 []) := by
  have hsome : ¬ (s.window (harg h 1 0)).isNone = true := by
    simp [Option.isSome_iff_ne_none.mp hopen]
  rw [exec_resultClose, execResultClose, State.hostRun_of_effective heff (by decide)]
  simp only [if_neg hsome, State.ok]

/-- A read of a closed window reads no memory, so it never waits for some to be reached. -/
theorem exec_resultRead_of_closed (heff : s.Effective h 0x52) (hdump : harg h 1 0 ≠ 255)
    (hwin : s.window (harg h 1 0) = none) :
    exec (.resultRead h) s = .next (s.respond h 0x52 0xD 0 []) := by
  have hreach : s.resultReach h = true := by simp only [State.resultReach, if_neg hdump, hwin]
  have hread : s.resultRead h = s.respond h 0x52 0xD 0 [] := by
    simp only [State.resultRead, if_neg hdump, hwin]
  rw [exec_resultRead, execResultRead, hreach, Bool.not_true, Bool.and_false, if_neg Bool.false_ne_true,
    State.runCmd_winLegal_of_effective heff (.inl rfl), hread]

end

/-- Settles O50 (R372, R373): a release marks the step's result alone, a refused one answers with its standing, and
the closed window is found by no later read. -/
theorem resultsAreReleased : Obligations.ResultsAreReleased := by
  unfold Obligations.ResultsAreReleased
  rintro h s w k rfl hdump
  refine ⟨?release, ?close⟩
  case release =>
    rintro x heff rfl hwin
    have hrefused (hst : x.standing (harg h 7 4) ≠ 0) := exec_resultRelease_of_refused heff hdump hwin hst
    refine ⟨fun hst => ⟨_, x.release (harg h 7 4), rfl, exec_resultRelease_of_posted heff hdump hwin hst,
      ?_, fun i hi => ?_, ?_, Window.standing_release hst, fun r hr => Window.mem_release_results_of_ne hr,
      fun hothers j hj => Window.slotFree_release hothers hj⟩,
      fun hst => ?_, fun hst => ?_, fun hk st hfind => ?_, Window.standing_of_lt_first⟩
    · rw [State.window_respond, State.window_setWindow_self]
    · rw [State.window_respond, State.window_setWindow_ne _ _ _ _ hi]
    · rw [State.mem_respond, State.setWindow_mem]
    · rw [hrefused (by rw [hst]; decide), hst]
    · rw [hrefused (by rw [hst]; decide), hst]
    · rw [Window.standing_of_find hk hfind]
      cases st <;> rfl
  case close =>
    intro heff hopen
    refine ⟨_, exec_resultClose_of_open heff hopen, ?_, fun i hi => ?_, ?_, fun g u hwin hg hread => ?_⟩
    · rw [State.window_respond, State.window_setWindow_self]
    · rw [State.window_respond, State.window_setWindow_ne _ _ _ _ hi]
    · rw [State.mem_respond, State.setWindow_mem]
    · exact exec_resultRead_of_closed hread (by rw [hg]; exact hdump) (by rw [hg]; exact hwin)

end Sys2Proof.Machine
end

section
/-! SUPPORT. A snapshot of an event-counter block, counter by counter (R478). -/

namespace Sys2Proof.Machine

open Sys2Proof

/-! ### A change of registers alone -/

/-- State t is state s but for its registers. -/
def OnlyRegs (s t : State) : Prop := t = { s with regs := t.regs }

theorem OnlyRegs.refl (s : State) : OnlyRegs s s := rfl

theorem OnlyRegs.trans {s t u : State} (hst : OnlyRegs s t) (htu : OnlyRegs t u) : OnlyRegs s u :=
  Eq.trans htu (congrArg (fun x : State => { x with regs := u.regs }) hst)

theorem OnlyRegs.foldl {α : Type} {f : State → α → State} (h : ∀ s a, OnlyRegs s (f s a)) (l : List α)
    (s : State) : OnlyRegs s (l.foldl f s) := by
  induction l generalizing s with
  | nil => exact OnlyRegs.refl s
  | cons a l ih => exact (h s a).trans (ih (f s a))

theorem OnlyRegs.island {s t : State} (h : OnlyRegs s t) (i : Nat) : t.island i = s.island i :=
  (congrArg (State.island · i) h : t.island i = { s with regs := t.regs }.island i)

theorem onlyRegs_setReg (s : State) (a : Nat) (v : Word) : OnlyRegs s (s.setReg a v) := rfl

theorem onlyRegs_setReg48 (s : State) (lo hi v : Nat) : OnlyRegs s (s.setReg48 lo hi v) := rfl

/-! ### Register pairs -/

section
variable (s : State) {lo hi : Nat}

theorem State.reg48_lt : s.reg48 lo hi < 2 ^ 64 := by
  have hlo := (s.reg lo).isLt
  have hhi := (s.reg hi).isLt
  unfold State.reg48
  omega

theorem State.reg_setReg48_ne {a : Nat} (v : Nat) (hlo : a ≠ lo) (hhi : a ≠ hi) :
    (s.setReg48 lo hi v).reg a = s.reg a := by
  rw [State.setReg48, State.reg_setReg_ne _ _ _ _ hhi, State.reg_setReg_ne _ _ _ _ hlo]

theorem State.reg48_setReg48 {v : Nat} (hne : lo ≠ hi) (hv : v < 2 ^ 64) :
    (s.setReg48 lo hi v).reg48 lo hi = v := by
  rw [State.reg48, State.setReg48, State.reg_setReg_self, State.reg_setReg_ne _ _ _ _ hne,
    State.reg_setReg_self, BitVec.toNat_ofNat, BitVec.toNat_ofNat]
  omega

theorem State.reg48_setReg48_ne {lo' hi' : Nat} (v : Nat) (h : lo' ≠ lo ∧ lo' ≠ hi ∧ hi' ≠ lo ∧ hi' ≠ hi) :
    (s.setReg48 lo hi v).reg48 lo' hi' = s.reg48 lo' hi' := by
  obtain ⟨hll, hlh, hhl, hhh⟩ := h
  rw [State.reg48, State.reg_setReg48_ne _ _ hll hlh, State.reg_setReg48_ne _ _ hhl hhh, State.reg48]

end

section
variable {s t : State} {W : Set Nat} (h : Set.EqOn t.reg s.reg W)
include h

theorem State.regF_congr {a : Nat} (ha : a ∈ W) (hi lo : Nat) : t.regF a hi lo = s.regF a hi lo := by
  rw [State.regF, State.regF, h ha]

theorem State.reg48_congr {lo hi : Nat} (hlo : lo ∈ W) (hhi : hi ∈ W) : t.reg48 lo hi = s.reg48 lo hi := by
  rw [State.reg48, State.reg48, h hlo, h hhi]

/-- The same write keeps an agreement of two states, wherever it goes. -/
theorem State.eqOn_setReg48 (lo hi v : Nat) : Set.EqOn (t.setReg48 lo hi v).reg (s.setReg48 lo hi v).reg W := by
  intro a ha
  simp only [State.setReg48, State.reg_setReg, h ha]

end

/-! ### The words of one counter (R472) -/

/-- The addresses that counter i of block b occupies. -/
def Reg.counterWords (b i : Nat) : Set Nat :=
  Set.Ico (Reg.evcBase b + 0x20 * i) (Reg.evcBase b + 0x20 * (i + 1))

theorem Reg.add_mem_counterWords (b i : Nat) {o : Nat} (ho : o < 0x20) :
    Reg.evcBase b + 0x20 * i + o ∈ Reg.counterWords b i := by
  simp only [Reg.counterWords, Set.mem_Ico]
  omega

@[simp] theorem Reg.EVC_SEL_mem_counterWords (b i : Nat) : Reg.EVC_SEL b i ∈ Reg.counterWords b i :=
  Reg.add_mem_counterWords b i (o := 0) (by decide)
@[simp] theorem Reg.EVC_CNT_LO_mem_counterWords (b i : Nat) : Reg.EVC_CNT_LO b i ∈ Reg.counterWords b i :=
  Reg.add_mem_counterWords b i (by decide)
@[simp] theorem Reg.EVC_CNT_HI_mem_counterWords (b i : Nat) : Reg.EVC_CNT_HI b i ∈ Reg.counterWords b i :=
  Reg.add_mem_counterWords b i (by decide)
@[simp] theorem Reg.EVC_SNAP_LO_mem_counterWords (b i : Nat) : Reg.EVC_SNAP_LO b i ∈ Reg.counterWords b i :=
  Reg.add_mem_counterWords b i (by decide)
@[simp] theorem Reg.EVC_SNAP_HI_mem_counterWords (b i : Nat) : Reg.EVC_SNAP_HI b i ∈ Reg.counterWords b i :=
  Reg.add_mem_counterWords b i (by decide)

theorem Reg.not_mem_counterWords_of_ne {b i j a : Nat} (hij : i ≠ j) (ha : a ∈ Reg.counterWords b i) :
    a ∉ Reg.counterWords b j := by
  simp only [Reg.counterWords, Set.mem_Ico] at ha ⊢
  omega

/-- The registers of the block as a whole lie above its counters (R474, R475). -/
theorem Reg.add_not_mem_counterWords (b : Nat) {i o : Nat} (hi : i < 32) (ho : 0x400 ≤ o) :
    Reg.evcBase b + o ∉ Reg.counterWords b i := by
  simp only [Reg.counterWords, Set.mem_Ico]
  omega

theorem Reg.EVC_SNAP_STEP_ne_EVC_SNAP_INFO (b : Nat) : Reg.EVC_SNAP_STEP b ≠ Reg.EVC_SNAP_INFO b := by
  simp only [Reg.EVC_SNAP_STEP, Reg.EVC_SNAP_INFO]
  omega

theorem Reg.EVC_CNT_LO_ne_EVC_CNT_HI (b i : Nat) : Reg.EVC_CNT_LO b i ≠ Reg.EVC_CNT_HI b i := by
  simp [Reg.EVC_CNT_LO, Reg.EVC_CNT_HI]

theorem Reg.EVC_SNAP_LO_ne_EVC_SNAP_HI (b i : Nat) : Reg.EVC_SNAP_LO b i ≠ Reg.EVC_SNAP_HI b i := by
  simp [Reg.EVC_SNAP_LO, Reg.EVC_SNAP_HI]

/-! ### The count of one counter -/

section
variable (s : State) (b i : Nat)

theorem State.evcCount_setEvcCount {v : Nat} (hv : v < 2 ^ 64) : (s.setEvcCount b i v).evcCount b i = v :=
  s.reg48_setReg48 (Reg.EVC_CNT_LO_ne_EVC_CNT_HI b i) hv

/-- An increment that does not wrap is added (R477). -/
theorem State.evcCount_evcAdd {n : Nat} (hn : s.evcCount b i + n < 2 ^ 48) :
    (s.evcAdd b i n).evcCount b i = s.evcCount b i + n := by
  rw [State.evcAdd]
  simp only [if_pos hn, Nat.mod_eq_of_lt hn]
  exact s.evcCount_setEvcCount b i (by omega)

end

theorem State.evcCount_congr {s t : State} {b i : Nat} (h : Set.EqOn t.reg s.reg (Reg.counterWords b i)) :
    t.evcCount b i = s.evcCount b i :=
  State.reg48_congr h (Reg.EVC_CNT_LO_mem_counterWords b i) (Reg.EVC_CNT_HI_mem_counterWords b i)

/-! ### The part of one counter in a snapshot (R478) -/

/-- The counter's count is copied into its snapshot pair. -/
def State.copyCount (s : State) (b i : Nat) : State :=
  s.setReg48 (Reg.EVC_SNAP_LO b i) (Reg.EVC_SNAP_HI b i) (s.evcCount b i)

section
variable (s : State) (b i : Nat)

theorem State.snapPair_copyCount :
    (s.copyCount b i).reg48 (Reg.EVC_SNAP_LO b i) (Reg.EVC_SNAP_HI b i) = s.evcCount b i :=
  s.reg48_setReg48 (Reg.EVC_SNAP_LO_ne_EVC_SNAP_HI b i) s.reg48_lt

theorem State.evcCount_copyCount : (s.copyCount b i).evcCount b i = s.evcCount b i :=
  s.reg48_setReg48_ne _ (by simp [Reg.EVC_SNAP_LO, Reg.EVC_SNAP_HI, Reg.EVC_CNT_LO, Reg.EVC_CNT_HI])

theorem State.snapPair_setEvcCount (v : Nat) :
    (s.setEvcCount b i v).reg48 (Reg.EVC_SNAP_LO b i) (Reg.EVC_SNAP_HI b i) =
      s.reg48 (Reg.EVC_SNAP_LO b i) (Reg.EVC_SNAP_HI b i) :=
  s.reg48_setReg48_ne _ (by simp [Reg.EVC_SNAP_LO, Reg.EVC_SNAP_HI, Reg.EVC_CNT_LO, Reg.EVC_CNT_HI])

theorem State.snapOne_eq (clr : Bool) : s.snapOne b clr i =
    if s.regF (Reg.EVC_SEL b i) 29 29 = 1 then
      if clr then (s.copyCount b i).setEvcCount b i 0 else s.copyCount b i
    else s := rfl

theorem onlyRegs_snapOne (clr : Bool) : OnlyRegs s (s.snapOne b clr i) := by
  rw [State.snapOne_eq]
  split
  · split
    · exact (onlyRegs_setReg48 _ _ _ _).trans (onlyRegs_setReg48 _ _ _ _)
    · exact onlyRegs_setReg48 _ _ _ _
  · exact OnlyRegs.refl s

end

section
variable {s : State} {b i : Nat}

theorem State.snapPair_snapOne_of_enabled (clr : Bool) (h : s.regF (Reg.EVC_SEL b i) 29 29 = 1) :
    (s.snapOne b clr i).reg48 (Reg.EVC_SNAP_LO b i) (Reg.EVC_SNAP_HI b i) = s.evcCount b i := by
  rw [State.snapOne_eq, if_pos h]
  cases clr with
  | false => exact s.snapPair_copyCount b i
  | true => exact ((s.copyCount b i).snapPair_setEvcCount b i 0).trans (s.snapPair_copyCount b i)

theorem State.evcCount_snapOne_of_enabled (clr : Bool) (h : s.regF (Reg.EVC_SEL b i) 29 29 = 1) :
    (s.snapOne b clr i).evcCount b i = if clr then 0 else s.evcCount b i := by
  rw [State.snapOne_eq, if_pos h]
  cases clr with
  | false => exact s.evcCount_copyCount b i
  | true => exact (s.copyCount b i).evcCount_setEvcCount b i (by decide)

theorem State.snapOne_of_disabled (clr : Bool) (h : s.regF (Reg.EVC_SEL b i) 29 29 = 0) :
    s.snapOne b clr i = s := by
  rw [State.snapOne_eq, if_neg (by omega)]

theorem State.reg_snapOne_ne (clr : Bool) {a : Nat} (hslo : a ≠ Reg.EVC_SNAP_LO b i)
    (hshi : a ≠ Reg.EVC_SNAP_HI b i) (hclo : a ≠ Reg.EVC_CNT_LO b i) (hchi : a ≠ Reg.EVC_CNT_HI b i) :
    (s.snapOne b clr i).reg a = s.reg a := by
  rw [State.snapOne_eq]
  have hcopy : (s.copyCount b i).reg a = s.reg a := s.reg_setReg48_ne _ hslo hshi
  split
  · split
    · exact (State.reg_setReg48_ne _ _ hclo hchi).trans hcopy
    · exact hcopy
  · rfl

theorem State.reg_snapOne_of_not_mem (clr : Bool) {a : Nat} (ha : a ∉ Reg.counterWords b i) :
    (s.snapOne b clr i).reg a = s.reg a :=
  State.reg_snapOne_ne clr (ne_of_mem_of_not_mem (Reg.EVC_SNAP_LO_mem_counterWords b i) ha).symm
    (ne_of_mem_of_not_mem (Reg.EVC_SNAP_HI_mem_counterWords b i) ha).symm
    (ne_of_mem_of_not_mem (Reg.EVC_CNT_LO_mem_counterWords b i) ha).symm
    (ne_of_mem_of_not_mem (Reg.EVC_CNT_HI_mem_counterWords b i) ha).symm

/-- What becomes of a counter's words depends on those words alone. -/
theorem State.snapOne_congr {t : State} (clr : Bool) (h : Set.EqOn t.reg s.reg (Reg.counterWords b i)) :
    Set.EqOn (t.snapOne b clr i).reg (s.snapOne b clr i).reg (Reg.counterWords b i) := by
  have hcopy : Set.EqOn (t.copyCount b i).reg (s.copyCount b i).reg (Reg.counterWords b i) := by
    rw [State.copyCount, State.copyCount, State.evcCount_congr h]
    exact State.eqOn_setReg48 h _ _ _
  rw [State.snapOne_eq, State.snapOne_eq, State.regF_congr h (Reg.EVC_SEL_mem_counterWords b i)]
  split
  · split
    · exact State.eqOn_setReg48 hcopy _ _ _
    · exact hcopy
  · exact h

end

/-! ### The counters of a block in a snapshot -/

/-- The first n counters of a block take their part. -/
def State.snapFirst (s : State) (b : Nat) (clr : Bool) (n : Nat) : State :=
  (List.range n).foldl (fun s i => s.snapOne b clr i) s

section
variable (s : State) (b : Nat) (clr : Bool)

theorem State.snapFirst_succ (n : Nat) :
    s.snapFirst b clr (n + 1) = (s.snapFirst b clr n).snapOne b clr n := by
  simp only [State.snapFirst, List.range_succ, List.foldl_append, List.foldl_cons, List.foldl_nil]

theorem onlyRegs_snapFirst (n : Nat) : OnlyRegs s (s.snapFirst b clr n) :=
  OnlyRegs.foldl (fun s i => onlyRegs_snapOne s b i clr) _ s

/-- Each counter comes out as if it took part alone. -/
theorem State.eqOn_snapFirst {n i : Nat} : Set.EqOn (s.snapFirst b clr n).reg
    (if i < n then s.snapOne b clr i else s).reg (Reg.counterWords b i) := by
  induction n with
  | zero => exact Set.eqOn_refl _ _
  | succ n ih =>
    rw [State.snapFirst_succ]
    by_cases hi : i = n
    · subst hi
      rw [if_neg (Nat.lt_irrefl i)] at ih
      rw [if_pos (Nat.lt_succ_self i)]
      exact State.snapOne_congr clr ih
    · have hlt : i < n + 1 ↔ i < n := by omega
      simp only [hlt]
      exact fun a ha => (State.reg_snapOne_of_not_mem clr (Reg.not_mem_counterWords_of_ne hi ha)).trans (ih ha)

theorem State.reg_snapFirst_of_not_mem {n a : Nat} (ha : ∀ i, i < n → a ∉ Reg.counterWords b i) :
    (s.snapFirst b clr n).reg a = s.reg a :=
  State.reg_foldl _ a _ (fun _ i hi => State.reg_snapOne_of_not_mem clr (ha i (List.mem_range.mp hi))) s

/-- Beside the snapshot pairs and the counts no register changes. -/
theorem State.reg_snapFirst_ne {n a : Nat} (ha : ∀ i, i < n → a ≠ Reg.EVC_SNAP_LO b i ∧
    a ≠ Reg.EVC_SNAP_HI b i ∧ a ≠ Reg.EVC_CNT_LO b i ∧ a ≠ Reg.EVC_CNT_HI b i) :
    (s.snapFirst b clr n).reg a = s.reg a := by
  refine State.reg_foldl _ a _ (fun _ i hi => ?_) s
  obtain ⟨hslo, hshi, hclo, hchi⟩ := ha i (List.mem_range.mp hi)
  exact State.reg_snapOne_ne clr hslo hshi hclo hchi

end

/-! ### The snapshot of a block (R475, R478) -/

theorem bit_eq_decide_fld (n i : Nat) : bit n i = decide (fld n i i = 1) := by
  rw [bit, fld, Nat.testBit_eq_decide_div_mod_eq, Nat.add_sub_cancel_left, Nat.pow_one]

/-- The word of `EVC_SNAP_INFO`: the cause in bits 31:30, the number of snapshots in bits 15:0. -/
def snapInfo (cause n : Nat) : Word := BitVec.ofNat 32 (cause * 2 ^ 30 + n)

theorem fld_snapInfo_cause {cause n : Nat} (hc : cause < 4) (hn : n ≤ 0xFFFF) :
    fld (snapInfo cause n).toNat 31 30 = cause := by
  simp only [snapInfo, fld, BitVec.toNat_ofNat]
  omega

theorem fld_snapInfo_count (cause : Nat) {n : Nat} (hn : n ≤ 0xFFFF) :
    fld (snapInfo cause n).toNat 15 0 = n := by
  simp only [snapInfo, fld, BitVec.toNat_ofNat]
  omega

section
variable (s : State) (b cause : Nat)

/-- `SNAP_CLR` of a block (R474). -/
def State.snapClr : Bool := bit (s.reg (Reg.EVC_CTL b)).toNat 3

/-- The number that `EVC_SNAP_INFO` holds after one more snapshot. -/
def State.nextSnap : Nat := min (s.regF (Reg.EVC_SNAP_INFO b) 15 0 + 1) 0xFFFF

/-- A snapshot in terms of the state before it alone. -/
theorem State.evcSnap_eq : s.evcSnap b cause =
    ((s.snapFirst b (s.snapClr b) (evcSize b)).setReg (Reg.EVC_SNAP_STEP b) (s.island b).step).setReg
      (Reg.EVC_SNAP_INFO b) (snapInfo cause (s.nextSnap b)) := by
  have hinfo (clr : Bool) : (s.snapFirst b clr (evcSize b)).reg (Reg.EVC_SNAP_INFO b) =
      s.reg (Reg.EVC_SNAP_INFO b) :=
    s.reg_snapFirst_of_not_mem b clr fun i hi =>
      Reg.add_not_mem_counterWords b (Nat.lt_of_lt_of_le hi (evcSize_le b)) (by decide)
  have hclr : decide (s.regF (Reg.EVC_CTL b) 3 3 = 1) = s.snapClr b := (bit_eq_decide_fld _ 3).symm
  have hfold (clr : Bool) : (List.range (evcSize b)).foldl (fun s i => s.snapOne b clr i) s =
      s.snapFirst b clr (evcSize b) := rfl
  rw [State.evcSnap, hclr]
  simp only [hfold, State.nextSnap, State.regF, hinfo, (onlyRegs_snapFirst s b _ _).island, snapInfo]

theorem onlyRegs_evcSnap : OnlyRegs s (s.evcSnap b cause) := by
  rw [State.evcSnap_eq]
  exact ((onlyRegs_snapFirst s b _ _).trans (onlyRegs_setReg _ _ _)).trans (onlyRegs_setReg _ _ _)

@[simp] theorem State.reg_evcSnap_STEP : (s.evcSnap b cause).reg (Reg.EVC_SNAP_STEP b) = (s.island b).step := by
  rw [State.evcSnap_eq, State.reg_setReg_ne _ _ _ _ (Reg.EVC_SNAP_STEP_ne_EVC_SNAP_INFO b),
    State.reg_setReg_self]

@[simp] theorem State.reg_evcSnap_INFO :
    (s.evcSnap b cause).reg (Reg.EVC_SNAP_INFO b) = snapInfo cause (s.nextSnap b) := by
  rw [State.evcSnap_eq, State.reg_setReg_self]

theorem State.reg_evcSnap_ne {a : Nat} (hstep : a ≠ Reg.EVC_SNAP_STEP b) (hinfo : a ≠ Reg.EVC_SNAP_INFO b) :
    (s.evcSnap b cause).reg a = (s.snapFirst b (s.snapClr b) (evcSize b)).reg a := by
  rw [State.evcSnap_eq, State.reg_setReg_ne _ _ _ _ hinfo, State.reg_setReg_ne _ _ _ _ hstep]

/-- The words of a counter after a snapshot of its block are those after its own part. -/
theorem State.eqOn_evcSnap {i : Nat} (hi : i < evcSize b) :
    Set.EqOn (s.evcSnap b cause).reg (s.snapOne b (s.snapClr b) i).reg (Reg.counterWords b i) := by
  intro a ha
  have hi32 : i < 32 := Nat.lt_of_lt_of_le hi (evcSize_le b)
  have hstep : a ≠ Reg.EVC_SNAP_STEP b :=
    ne_of_mem_of_not_mem ha (Reg.add_not_mem_counterWords b hi32 (by decide))
  have hinfo : a ≠ Reg.EVC_SNAP_INFO b :=
    ne_of_mem_of_not_mem ha (Reg.add_not_mem_counterWords b hi32 (by decide))
  rw [State.reg_evcSnap_ne s b cause hstep hinfo, State.eqOn_snapFirst s b _ ha, if_pos hi]

end

theorem exec_snap (b : Block) (s : State) : exec (.snap b) s = .next (s.evcSnap b 1) := rfl

/-- Settles O54 (R478): a snapshot leaves every counter as its own part would, and beside the counters it writes
`EVC_SNAP_STEP` and `EVC_SNAP_INFO` alone. -/
theorem snapshotCopies : Obligations.SnapshotCopies := by
  unfold Obligations.SnapshotCopies
  intro b s
  have hnext : s.nextSnap b ≤ 0xFFFF := Nat.min_le_right _ _
  refine ⟨_, exec_snap b s, onlyRegs_evcSnap s b 1, fun i hi => ?counter, s.reg_evcSnap_STEP b 1, ?cause, ?number,
    fun a hstep hinfo ha => ?frame⟩
  case counter =>
    have hwords := s.eqOn_evcSnap b 1 hi
    have hcount := State.evcCount_congr hwords
    have hpair := State.reg48_congr hwords (Reg.EVC_SNAP_LO_mem_counterWords b i) (Reg.EVC_SNAP_HI_mem_counterWords b i)
    refine ⟨fun hen => ?enabled, fun hdis => ?disabled⟩
    case enabled =>
      rw [State.evcCount_snapOne_of_enabled _ hen] at hcount
      refine ⟨hpair.trans (State.snapPair_snapOne_of_enabled _ hen), fun hclr => ?kept, fun hclr => ?restarted⟩
      case kept => rw [hcount, State.snapClr, hclr, if_neg Bool.false_ne_true]
      case restarted =>
        have hzero : (s.evcSnap b 1).evcCount b i = 0 := by rw [hcount, State.snapClr, hclr, if_pos rfl]
        exact ⟨hzero, fun n hn => by rw [State.evcCount_evcAdd _ _ _ (by omega), hzero, Nat.zero_add]⟩
    case disabled =>
      rw [State.snapOne_of_disabled _ hdis] at hcount hpair
      exact ⟨hpair, hcount⟩
  case cause => rw [State.regF, State.reg_evcSnap_INFO, fld_snapInfo_cause (by decide) hnext]
  case number => rw [State.regF, State.reg_evcSnap_INFO, fld_snapInfo_count 1 hnext, State.nextSnap]
  case frame => rw [State.reg_evcSnap_ne s b 1 hstep hinfo, s.reg_snapFirst_ne b _ ha]

end Sys2Proof.Machine
end

section
/-! SUPPORT. What every command keeps, by the dispatch: the invariant, one-time-programmable memory, the queue and
the clock; and what the commands that store nothing leave as it was. -/

namespace Sys2Proof.Machine

open Sys2Proof

/-- Every command keeps what `Keeps` says, by its own lemma. -/
theorem exec_keeps {s₀ : State} (i : Instr) (s : State) (hs : Keeps s₀ s) : InOut (Keeps s₀) (exec i s) :=
  match i with
  | .registerWrite a addr v => execRegisterWrite_keeps a addr v s hs
  | .unmappedAccess addr write => execUnmappedAccess_keeps addr write s hs
  | .prdAudRowsRead a d l => execPrdAudRowsRead_keeps a d l s hs
  | .prdAudMissRead a d l => execPrdAudMissRead_keeps a d l s hs
  | .bridgeTransfer b dir data crc => execBridgeTransfer_keeps b dir data crc s hs
  | .bridgeFail b dir lostLock => execBridgeFail_keeps b dir lostLock s hs
  | .islandReset n => execIslandReset_keeps n s hs
  | .channelResync n => execChannelResync_keeps n s hs
  | .clockChange c => execClockChange_keeps c s hs
  | .stepBeginIssue => execStepBeginIssue_keeps s hs
  | .islandStepBegin n => execIslandStepBegin_keeps n s hs
  | .idleItem rd => execIdleItem_keeps rd s hs
  | .stepBegin c bad => execStepBegin_keeps c bad s hs
  | .mbBegin c bad => execMbBegin_keeps c bad s hs
  | .stageBind c bad => execStageBind_keeps c bad s hs
  | .stageUnbind c bad => execStageUnbind_keeps c bad s hs
  | .cmdqReservedOpcode c bad => execCmdqReservedOpcode_keeps c bad s hs
  | .spmm rd => execSpmm_keeps rd s hs
  | .sddmm rd => execSddmm_keeps rd s hs
  | .spgemm rd => execSpgemm_keeps rd s hs
  | .gather rd => execGather_keeps rd s hs
  | .scatterAdd rd => execScatterAdd_keeps rd s hs
  | .conv rd => execConv_keeps rd s hs
  | .normstat rd => execNormstat_keeps rd s hs
  | .copy rd => execCopy_keeps rd s hs
  | .predict rd => execPredict_keeps rd s hs
  | .elemwise rd => execElemwise_keeps rd s hs
  | .mopComplete c => execMopComplete_keeps c s hs
  | .mopEarlyStart rd => execMopEarlyStart_keeps rd s hs
  | .phaseDone c => execPhaseDone_keeps c s hs
  | .phaseDoneReceive rd => execPhaseDoneReceive_keeps rd s hs
  | .resultCopyResume w => execResultCopyResume_keeps w s hs
  | .operandFill c addr len => execOperandFill_keeps c addr len s hs
  | .stationaryLoad rd => execStationaryLoad_keeps rd s hs
  | .wavefrontEmit rd => execWavefrontEmit_keeps rd s hs
  | .mergeSegment rd => execMergeSegment_keeps rd s hs
  | .wavefront c bad => execWavefront_keeps c bad s hs
  | .tileInit c => execTileInit_keeps c s hs
  | .sumqAccumulate c bad => execSumqAccumulate_keeps c bad s hs
  | .tileDrain rd => execTileDrain_keeps rd s hs
  | .auditRowReport c => execAuditRowReport_keeps c s hs
  | .predictStart d => execPredictStart_keeps d s hs
  | .predictComplete d => execPredictComplete_keeps d s hs
  | .allocCreate h => execAllocCreate_keeps h s hs
  | .allocFree h => execAllocFree_keeps h s hs
  | .nmemAccess d req off wr err => execNmemAccess_keeps d req off wr err s hs
  | .nmemPatrolScrub d off err => execNmemPatrolScrub_keeps d off err s hs
  | .cacheFill d req addr => execCacheFill_keeps d req addr s hs
  | .cacheInvalidate d addr own => execCacheInvalidate_keeps d addr own s hs
  | .arbGrant p want => execArbGrant_keeps p want s hs
  | .arbBackoffExpire p req => execArbBackoffExpire_keeps p req s hs
  | .fmemTrain pkg fail => execFmemTrain_keeps pkg fail s hs
  | .fmemDriftCheck ch drift ok1 ok2 => execFmemDriftCheck_keeps ch drift ok1 ok2 s hs
  | .fmemRefresh ch bank busy => execFmemRefresh_keeps ch bank busy s hs
  | .fmemZqLatch ch => execFmemZqLatch_keeps ch s hs
  | .fmemAccess addr wr err => execFmemAccess_keeps addr wr err s hs
  | .fmemPatrolScrub addr err => execFmemPatrolScrub_keeps addr err s hs
  | .rowRetire ch => execRowRetire_keeps ch s hs
  | .burstReconstruct addr => execBurstReconstruct_keeps addr s hs
  | .updChunk e => execUpdChunk_keeps e s hs
  | .updRowRecord e => execUpdRowRecord_keeps e s hs
  | .normResult e => execNormResult_keeps e s hs
  | .pass2Start e g => execPass2Start_keeps e g s hs
  | .groupLocalDone e g => execGroupLocalDone_keeps e g s hs
  | .commitRecordWrite => execCommitRecordWrite_keeps s hs
  | .stepCommit => execStepCommit_keeps s hs
  | .stepResume => execStepResume_keeps s hs
  | .twinLost e => execTwinLost_keeps e s hs
  | .updRecompReq a e v => execUpdRecompReq_keeps a e v s hs
  | .recompRebuild e => execRecompRebuild_keeps e s hs
  | .recompReady e => execRecompReady_keeps e s hs
  | .portTrain x => execPortTrain_keeps x s hs
  | .portTrainTimeout p => execPortTrainTimeout_keeps p s hs
  | .laneFail p lane => execLaneFail_keeps p lane s hs
  | .laneSwapComplete p => execLaneSwapComplete_keeps p s hs
  | .linkSilence p => execLinkSilence_keeps p s hs
  | .flitReceive p bytes fec => execFlitReceive_keeps p bytes fec s hs
  | .retryTimeout l => execRetryTimeout_keeps l s hs
  | .creditReturn l => execCreditReturn_keeps l s hs
  | .credit p => execCredit_keeps p s hs
  | .nak p => execNak_keeps p s hs
  | .e2eAck p => execE2eAck_keeps p s hs
  | .e2eAckDue f => execE2eAckDue_keeps f s hs
  | .e2eTimeout f => execE2eTimeout_keeps f s hs
  | .write p => execWrite_keeps p s hs
  | .read p => execRead_keeps p s hs
  | .readResp p => execReadResp_keeps p s hs
  | .crs p => execCrs_keeps p s hs
  | .stagedPartialAdd e => execStagedPartialAdd_keeps e s hs
  | .cag p => execCag_keeps p s hs
  | .cscalar p => execCscalar_keeps p s hs
  | .mwr p => execMwr_keeps p s hs
  | .mack p => execMack_keeps p s hs
  | .linkCtlHello p => execLinkCtlHello_keeps p s hs
  | .resyncUnitCopy e => execResyncUnitCopy_keeps e s hs
  | .linkCtlSwapRequest p => execLinkCtlSwapRequest_keeps p s hs
  | .linkCtlSwapDone p => execLinkCtlSwapDone_keeps p s hs
  | .linkCtlFenceNotice p => execLinkCtlFenceNotice_keeps p s hs
  | .fence p => execFence_keeps p s hs
  | .unfence p => execUnfence_keeps p s hs
  | .hostLaneTrain l peer => execHostLaneTrain_keeps l peer s hs
  | .hostLaneSilence l => execHostLaneSilence_keeps l s hs
  | .hostFlitReceive l bytes fec => execHostFlitReceive_keeps l bytes fec s hs
  | .nhlCredit l => execNhlCredit_keeps l s hs
  | .nhlNak l => execNhlNak_keeps l s hs
  | .gapTimeout q => execGapTimeout_keeps q s hs
  | .nop h => execNop_keeps h s hs
  | .status h => execStatus_keeps h s hs
  | .regRead h => execRegRead_keeps h s hs
  | .regWrite h => execRegWrite_keeps h s hs
  | .descCreate h => execDescCreate_keeps h s hs
  | .descDestroy h => execDescDestroy_keeps h s hs
  | .memWrite h => execMemWrite_keeps h s hs
  | .memRead h => execMemRead_keeps h s hs
  | .load h => execLoad_keeps h s hs
  | .unload h => execUnload_keeps h s hs
  | .run h => execRun_keeps h s hs
  | .hold h => execHold_keeps h s hs
  | .moduleReset h => execModuleReset_keeps h s hs
  | .feedOpen h => execFeedOpen_keeps h s hs
  | .feedClose h => execFeedClose_keeps h s hs
  | .feedWrite h => execFeedWrite_keeps h s hs
  | .feedCommit h => execFeedCommit_keeps h s hs
  | .feedStall => execFeedStall_keeps s hs
  | .resultOpen h => execResultOpen_keeps h s hs
  | .resultClose h => execResultClose_keeps h s hs
  | .resultRead h => execResultRead_keeps h s hs
  | .resultRelease h => execResultRelease_keeps h s hs
  | .resultStall => execResultStall_keeps s hs
  | .attest h => execAttest_keeps h s hs
  | .flashWrite h => execFlashWrite_keeps h s hs
  | .flashErase h => execFlashErase_keeps h s hs
  | .activate h => execActivate_keeps h s hs
  | .advanceSvn h => execAdvanceSvn_keeps h s hs
  | .revoke h => execRevoke_keeps h s hs
  | .keyProgram h => execKeyProgram_keeps h s hs
  | .flashRead h => execFlashRead_keeps h s hs
  | .eventDrop => execEventDrop_keeps s hs
  | .coreWatchdog c => execCoreWatchdog_keeps c s hs
  | .coreFail c cause => execCoreFail_keeps c cause s hs
  | .replayIssue => execReplayIssue_keeps s hs
  | .queuedBreach => execQueuedBreach_keeps s hs
  | .polderLoss why => execPolderLoss_keeps why s hs
  | .dumpWrite => execDumpWrite_keeps s hs
  | .dumpComplete => execDumpComplete_keeps s hs
  | .restoreStart => execRestoreStart_keeps s hs
  | .restoreComplete => execRestoreComplete_keeps s hs
  | .evcCntHiWrite b n v => execEvcCntHiWrite_keeps b n v s hs
  | .evcCntLoWrite b n v => execEvcCntLoWrite_keeps b n v s hs
  | .clear b => execClear_keeps b s hs
  | .snap b => execSnap_keeps b s hs
  | .clearAll => execClearAll_keeps s hs
  | .snapAll => execSnapAll_keeps s hs
  | .evcBroadcastArrive b => execEvcBroadcastArrive_keeps b s hs
  | .evcOvf b n => execEvcOvf_keeps b n s hs
  | .bootRomStart => execBootRomStart_keeps s hs
  | .functionReady f => execFunctionReady_keeps f s hs
  | .healthAreaWrite => execHealthAreaWrite_keeps s hs
  | .inputTurnOn => execInputTurnOn_keeps s hs
  | .powerGood straps => execPowerGood_keeps straps s hs
  | .inputShutdown => execInputShutdown_keeps s hs
  | .overcurrentTrip => execOvercurrentTrip_keeps s hs
  | .thermalTrip => execThermalTrip_keeps s hs
  | .regulatorFail r => execRegulatorFail_keeps r s hs
  | .powerCapEval p => execPowerCapEval_keeps p s hs
  | .thermalEval => execThermalEval_keeps s hs
  | .coreThermalGate c => execCoreThermalGate_keeps c s hs
  | .droopResponse c => execDroopResponse_keeps c s hs
  | .droopEnd c => execDroopEnd_keeps c s hs
  | .idleEntry f => execIdleEntry_keeps f s hs
  | .powerStateWake f => execPowerStateWake_keeps f s hs
  | .sensorUpdate j v => execSensorUpdate_keeps j v s hs
  | .getState m => execGetState_keeps m s hs
  | .readSensors m => execReadSensors_keeps m s hs
  | .readReg m => execReadReg_keeps m s hs
  | .readBreach m => execReadBreach_keeps m s hs
  | .setCap m => execSetCap_keeps m s hs
  | .getIdentity m => execGetIdentity_keeps m s hs
  | .flash m => execFlash_keeps m s hs
  | .setAlert m => execSetAlert_keeps m s hs
  | .clearAlert m => execClearAlert_keeps m s hs
  | .modResetN => execModResetN_keeps s hs
  | .tapReset => execTapReset_keeps s hs
  | .extest => execExtest_keeps s hs
  | .samplePreload => execSamplePreload_keeps s hs
  | .idcode => execIdcode_keeps s hs
  | .clamp => execClamp_keeps s hs
  | .highz => execHighz_keeps s hs
  | .bypass code => execBypass_keeps code s hs
  | .hostLaneFail l => execHostLaneFail_keeps l s hs
  | .hostLaneTrainTimeout l => execHostLaneTrainTimeout_keeps l s hs
  | .spareLaneTrainTimeout p => execSpareLaneTrainTimeout_keeps p s hs
  | .refreshManagementRequest ch => execRefreshManagementRequest_keeps ch s hs
  | .housekeepingRailDown => execHousekeepingRailDown_keeps s hs
  | .dataRegisterScan tdi pins => execDataRegisterScan_keeps tdi pins s hs
  | .registerRead a addr => execRegisterRead_keeps a addr s hs

/-- The commands that `mayStore` leaves out store nothing, each by its own lemma. -/
theorem exec_same {s₀ : State} (i : Instr) (s : State) (hs : Same s₀ s) (hi : mayStore i = false) :
    InOut (Same s₀) (exec i s) :=
  match i, hi with
  | .registerWrite a addr v, _ => execRegisterWrite_same a addr v s hs
  | .unmappedAccess addr write, _ => execUnmappedAccess_same addr write s hs
  | .prdAudRowsRead a d l, _ => execPrdAudRowsRead_same a d l s hs
  | .prdAudMissRead a d l, _ => execPrdAudMissRead_same a d l s hs
  | .bridgeTransfer b dir data crc, _ => execBridgeTransfer_same b dir data crc s hs
  | .bridgeFail b dir lostLock, _ => execBridgeFail_same b dir lostLock s hs
  | .islandReset n, _ => execIslandReset_same n s hs
  | .channelResync n, _ => execChannelResync_same n s hs
  | .clockChange c, _ => execClockChange_same c s hs
  | .islandStepBegin n, _ => execIslandStepBegin_same n s hs
  | .idleItem rd, _ => execIdleItem_same rd s hs
  | .stepBegin c bad, _ => execStepBegin_same c bad s hs
  | .mbBegin c bad, _ => execMbBegin_same c bad s hs
  | .stageBind c bad, _ => execStageBind_same c bad s hs
  | .stageUnbind c bad, _ => execStageUnbind_same c bad s hs
  | .mopComplete c, _ => execMopComplete_same c s hs
  | .phaseDone c, _ => execPhaseDone_same c s hs
  | .operandFill c addr len, _ => execOperandFill_same c addr len s hs
  | .stationaryLoad rd, _ => execStationaryLoad_same rd s hs
  | .wavefrontEmit rd, _ => execWavefrontEmit_same rd s hs
  | .mergeSegment rd, _ => execMergeSegment_same rd s hs
  | .wavefront c bad, _ => execWavefront_same c bad s hs
  | .tileInit c, _ => execTileInit_same c s hs
  | .sumqAccumulate c bad, _ => execSumqAccumulate_same c bad s hs
  | .auditRowReport c, _ => execAuditRowReport_same c s hs
  | .predictStart d, _ => execPredictStart_same d s hs
  | .allocCreate h, _ => execAllocCreate_same h s hs
  | .allocFree h, _ => execAllocFree_same h s hs
  | .cacheFill d req addr, _ => execCacheFill_same d req addr s hs
  | .cacheInvalidate d addr own, _ => execCacheInvalidate_same d addr own s hs
  | .arbGrant p want, _ => execArbGrant_same p want s hs
  | .arbBackoffExpire p req, _ => execArbBackoffExpire_same p req s hs
  | .fmemDriftCheck ch drift ok1 ok2, _ => execFmemDriftCheck_same ch drift ok1 ok2 s hs
  | .fmemRefresh ch bank busy, _ => execFmemRefresh_same ch bank busy s hs
  | .fmemZqLatch ch, _ => execFmemZqLatch_same ch s hs
  | .rowRetire ch, _ => execRowRetire_same ch s hs
  | .normResult e, _ => execNormResult_same e s hs
  | .twinLost e, _ => execTwinLost_same e s hs
  | .updRecompReq a e v, _ => execUpdRecompReq_same a e v s hs
  | .recompReady e, _ => execRecompReady_same e s hs
  | .portTrain x, _ => execPortTrain_same x s hs
  | .portTrainTimeout p, _ => execPortTrainTimeout_same p s hs
  | .laneFail p lane, _ => execLaneFail_same p lane s hs
  | .laneSwapComplete p, _ => execLaneSwapComplete_same p s hs
  | .linkSilence p, _ => execLinkSilence_same p s hs
  | .flitReceive p bytes fec, _ => execFlitReceive_same p bytes fec s hs
  | .retryTimeout l, _ => execRetryTimeout_same l s hs
  | .creditReturn l, _ => execCreditReturn_same l s hs
  | .credit p, _ => execCredit_same p s hs
  | .nak p, _ => execNak_same p s hs
  | .e2eAck p, _ => execE2eAck_same p s hs
  | .e2eAckDue f, _ => execE2eAckDue_same f s hs
  | .e2eTimeout f, _ => execE2eTimeout_same f s hs
  | .read p, _ => execRead_same p s hs
  | .cscalar p, _ => execCscalar_same p s hs
  | .mack p, _ => execMack_same p s hs
  | .linkCtlHello p, _ => execLinkCtlHello_same p s hs
  | .resyncUnitCopy e, _ => execResyncUnitCopy_same e s hs
  | .linkCtlSwapRequest p, _ => execLinkCtlSwapRequest_same p s hs
  | .linkCtlSwapDone p, _ => execLinkCtlSwapDone_same p s hs
  | .linkCtlFenceNotice p, _ => execLinkCtlFenceNotice_same p s hs
  | .fence p, _ => execFence_same p s hs
  | .unfence p, _ => execUnfence_same p s hs
  | .hostLaneTrain l peer, _ => execHostLaneTrain_same l peer s hs
  | .hostLaneSilence l, _ => execHostLaneSilence_same l s hs
  | .hostFlitReceive l bytes fec, _ => execHostFlitReceive_same l bytes fec s hs
  | .nhlCredit l, _ => execNhlCredit_same l s hs
  | .nhlNak l, _ => execNhlNak_same l s hs
  | .gapTimeout q, _ => execGapTimeout_same q s hs
  | .nop h, _ => execNop_same h s hs
  | .status h, _ => execStatus_same h s hs
  | .regRead h, _ => execRegRead_same h s hs
  | .regWrite h, _ => execRegWrite_same h s hs
  | .descCreate h, _ => execDescCreate_same h s hs
  | .descDestroy h, _ => execDescDestroy_same h s hs
  | .memRead h, _ => execMemRead_same h s hs
  | .unload h, _ => execUnload_same h s hs
  | .hold h, _ => execHold_same h s hs
  | .feedOpen h, _ => execFeedOpen_same h s hs
  | .feedClose h, _ => execFeedClose_same h s hs
  | .feedCommit h, _ => execFeedCommit_same h s hs
  | .feedStall, _ => execFeedStall_same s hs
  | .resultOpen h, _ => execResultOpen_same h s hs
  | .resultClose h, _ => execResultClose_same h s hs
  | .resultRead h, _ => execResultRead_same h s hs
  | .resultRelease h, _ => execResultRelease_same h s hs
  | .resultStall, _ => execResultStall_same s hs
  | .attest h, _ => execAttest_same h s hs
  | .eventDrop, _ => execEventDrop_same s hs
  | .coreWatchdog c, _ => execCoreWatchdog_same c s hs
  | .coreFail c cause, _ => execCoreFail_same c cause s hs
  | .polderLoss why, _ => execPolderLoss_same why s hs
  | .dumpComplete, _ => execDumpComplete_same s hs
  | .restoreStart, _ => execRestoreStart_same s hs
  | .evcCntHiWrite b n v, _ => execEvcCntHiWrite_same b n v s hs
  | .evcCntLoWrite b n v, _ => execEvcCntLoWrite_same b n v s hs
  | .clear b, _ => execClear_same b s hs
  | .snap b, _ => execSnap_same b s hs
  | .clearAll, _ => execClearAll_same s hs
  | .snapAll, _ => execSnapAll_same s hs
  | .evcBroadcastArrive b, _ => execEvcBroadcastArrive_same b s hs
  | .evcOvf b n, _ => execEvcOvf_same b n s hs
  | .functionReady f, _ => execFunctionReady_same f s hs
  | .inputTurnOn, _ => execInputTurnOn_same s hs
  | .powerCapEval p, _ => execPowerCapEval_same p s hs
  | .thermalEval, _ => execThermalEval_same s hs
  | .coreThermalGate c, _ => execCoreThermalGate_same c s hs
  | .droopResponse c, _ => execDroopResponse_same c s hs
  | .droopEnd c, _ => execDroopEnd_same c s hs
  | .idleEntry f, _ => execIdleEntry_same f s hs
  | .powerStateWake f, _ => execPowerStateWake_same f s hs
  | .sensorUpdate j v, _ => execSensorUpdate_same j v s hs
  | .getState m, _ => execGetState_same m s hs
  | .readSensors m, _ => execReadSensors_same m s hs
  | .readReg m, _ => execReadReg_same m s hs
  | .readBreach m, _ => execReadBreach_same m s hs
  | .setCap m, _ => execSetCap_same m s hs
  | .getIdentity m, _ => execGetIdentity_same m s hs
  | .setAlert m, _ => execSetAlert_same m s hs
  | .clearAlert m, _ => execClearAlert_same m s hs
  | .tapReset, _ => execTapReset_same s hs
  | .extest, _ => execExtest_same s hs
  | .samplePreload, _ => execSamplePreload_same s hs
  | .idcode, _ => execIdcode_same s hs
  | .clamp, _ => execClamp_same s hs
  | .highz, _ => execHighz_same s hs
  | .bypass code, _ => execBypass_same code s hs
  | .hostLaneFail l, _ => execHostLaneFail_same l s hs
  | .hostLaneTrainTimeout l, _ => execHostLaneTrainTimeout_same l s hs
  | .spareLaneTrainTimeout p, _ => execSpareLaneTrainTimeout_same p s hs
  | .refreshManagementRequest ch, _ => execRefreshManagementRequest_same ch s hs
  | .housekeepingRailDown, _ => execHousekeepingRailDown_same s hs
  | .dataRegisterScan tdi pins, _ => execDataRegisterScan_same tdi pins s hs
  | .registerRead a addr, _ => execRegisterRead_same a addr s hs

theorem State.Inv.advance {s : State} (h : s.Inv) (n : Nat) : { s with now := n }.Inv :=
  ⟨{ h.canonical with }, h.ring⟩

/-- A command leaves the queue behind it and the clock alone. -/
theorem keeps_of_exec {i : Instr} {s t : State} (h : exec i s = .next t) : Keeps s t :=
  exec_keeps i s (Keeps.refl s) t h

theorem same_of_exec {i : Instr} {s t : State} (hi : mayStore i = false) (h : exec i s = .next t) : Same s t :=
  exec_same i s (Same.refl s) hi t h

/-- On an empty queue a step lets time pass. -/
theorem step_of_pending_nil {s : State} (h : s.pending = []) : step s = .next (tick s) := by
  rw [step, h]

/-- A step takes the command at the front of the queue. -/
theorem step_of_pending_cons {s : State} {i : Instr} {rest : List Instr} (h : s.pending = i :: rest) :
    step s = exec i { s with pending := rest } := by
  rw [step, h]

/-- Time passes: the clock moves on by one and the rest is kept. -/
theorem keeps_tick (s : State) : Keeps { s with now := s.now + 1 } (tick s) :=
  tick_keeps s (Keeps.refl _)

/-- What a step can do: time passes on an empty queue, or the command at the front takes its effect. -/
theorem step_cases {s t : State} (h : step s = .next t) :
    (s.pending = [] ∧ Keeps { s with now := s.now + 1 } t) ∨
    ∃ i rest, s.pending = i :: rest ∧ Keeps { s with pending := rest } t := by
  rcases hp : s.pending with _ | ⟨i, rest⟩
  · rw [step_of_pending_nil hp] at h
    cases h
    exact .inl ⟨rfl, hp ▸ keeps_tick s⟩
  · rw [step_of_pending_cons hp] at h
    exact .inr ⟨i, rest, rfl, keeps_of_exec h⟩

/-! ### Statements about every step and every command -/

/-- Settles O1: time that passes and every command keep the invariant. -/
theorem stepKeepsInvariant : Obligations.StepKeepsInvariant := by
  unfold Obligations.StepKeepsInvariant
  intro s t hs h
  obtain ⟨-, hk⟩ | ⟨i, rest, -, hk⟩ := step_cases h
  · exact hk.inv (hs.advance _)
  · exact hk.inv ⟨{ hs.canonical with }, hs.ring⟩

/-- Settles O5: neither time that passes nor a command takes anything back from one-time-programmable memory. -/
theorem otpOnlyGrows : Obligations.OtpOnlyGrows := by
  unfold Obligations.OtpOnlyGrows
  intro s t h
  obtain ⟨-, hk⟩ | ⟨i, rest, -, hk⟩ := step_cases h
  · exact hk.otp
  · exact hk.otp

/-- Settles O6: every command keeps the queue and the clock, and those outside `mayStore` store nothing. -/
theorem commandsLeaveAlone : Obligations.CommandsLeaveAlone := by
  unfold Obligations.CommandsLeaveAlone
  refine ⟨fun i s t h => ?_, fun i s t hi h => ?_⟩
  · have hk := keeps_of_exec h
    exact ⟨hk.pending, hk.now, hk.free⟩
  · have hsame := same_of_exec hi h
    exact ⟨fun a => by rw [hsame.mem], hsame.mem, hsame.poison, hsame.flash, hsame.otp⟩

/-- Settles O3: a step runs the command at the front of the queue. -/
theorem stepRunsTheFrontCommand : Obligations.StepRunsTheFrontCommand := by
  unfold Obligations.StepRunsTheFrontCommand
  exact fun i rest s h => step_of_pending_cons h

/-- Settles O4: on an empty queue the clock of the model moves on, and of a module without power nothing else. -/
theorem emptyQueuePassesTime : Obligations.EmptyQueuePassesTime := by
  unfold Obligations.EmptyQueuePassesTime
  intro s hp
  refine ⟨fun hoff => ?_, fun _ => ⟨tick s, step_of_pending_nil hp, ?_, (keeps_tick s).now⟩⟩
  · rw [step_of_pending_nil hp, tick, if_neg hoff]
  · exact (keeps_tick s).pending.trans hp

theorem State.Canonical.reset : State.reset.Canonical where
  regs := SMap.wf_nil _
  latch := SMap.wf_nil _
  readData := SMap.wf_nil _
  evcStage := SMap.wf_nil _
  mem := SMap.wf_nil _
  flash := SMap.wf_nil _
  islands := SMap.wf_nil _
  cores := SMap.wf_nil _
  dies := SMap.wf_nil _
  arbs := SMap.wf_nil _
  chans := SMap.wf_nil _
  bridges := SMap.wf_nil _
  engines := SMap.wf_nil _
  links := SMap.wf_nil _
  txFlows := SMap.wf_nil _
  rxFlows := SMap.wf_nil _
  hostQs := SMap.wf_nil _
  allocs := SMap.wf_nil _
  descs := SMap.wf_nil _
  feeds := SMap.wf_nil _
  windows := SMap.wf_nil _
  pwrStates := SMap.wf_nil _

/-- An empty part of the state reads as its default everywhere, also the registers. -/
theorem State.reg_reset (a : Nat) : State.reset.reg a = regReset a := rfl

/-- Settles O2: the parts of the reset state are empty, so that each reads as its default. -/
theorem resetState : Obligations.ResetState := by
  unfold Obligations.ResetState
  refine ⟨⟨rfl, ?mode, ?committed, State.reg_reset, fun _ => rfl, fun _ => rfl, rfl, rfl, fun _ => ⟨rfl, rfl⟩,
    ?breaches, ?unmapped⟩, State.Canonical.reset, Nat.zero_le _⟩
  case mode => decide
  case committed => decide
  case breaches => decide
  case unmapped => decide

end Sys2Proof.Machine
end

section
/-! SUPPORT. Which commands can fault: the five that present an address to memory. -/

namespace Sys2Proof.Machine

open Sys2Proof

/-- An answer that is a next state: no fault and no refusal. -/
def Nexts (o : Out) : Prop := ∃ t, o = .next t

theorem Nexts.next (s : State) : Nexts (.next s) := ⟨s, rfl⟩

theorem nexts_runCmd (s : State) (h : HostCmd) (cmd : Nat) (bad : Option (Option Nat)) (ok : Bool)
    (act : State → State) : Nexts (s.runCmd h cmd bad ok act) := by
  unfold State.runCmd
  split
  · exact .next _
  · split <;> exact .next _

theorem nexts_heldRun (s : State) (h : HostCmd) (cmd : Nat) (reach : Bool) (act : State → State) :
    Nexts (s.heldRun h cmd reach act) := pred_ite (.next s) (nexts_runCmd s h cmd _ _ act)

theorem nexts_hostRun (s : State) (h : HostCmd) (cmd : Nat) (act : State → State) :
    Nexts (s.hostRun h cmd act) := nexts_runCmd s h cmd _ _ act

theorem nexts_flashRun (s : State) (h : HostCmd) (mine : Nat → Bool) : Nexts (s.flashRun h mine) :=
  pred_ite (.next s) (nexts_runCmd s h ..)

/-- No command that presents no address faults: every branch of its meaning answers a next state. -/
theorem nexts_exec (i : Instr) (s : State) (hi : addrOf i = none) : Nexts (exec i s) := by
  cases i
  case fmemAccess | fmemPatrolScrub | cacheFill | cacheInvalidate | burstReconstruct =>
    exact absurd hi (Option.some_ne_none _)
  case registerWrite | prdAudRowsRead | prdAudMissRead | islandReset | idleItem | stepBegin | stageBind
      | stageUnbind | spmm | sddmm | spgemm | gather | scatterAdd | conv | normstat | copy | predict | elemwise
      | fmemTrain | updRecompReq | retryTimeout | fence | unfence | restoreStart | clear | snap | clearAll
      | snapAll | getState | readSensors | readReg | setCap | getIdentity | flash | setAlert | clearAlert
      | tapReset | extest | samplePreload | idcode | clamp | highz | housekeepingRailDown | registerRead
      | mbBegin | powerCapEval | thermalEval => exact .next _
  case allocCreate => show Nexts (execAllocCreate ..); unfold execAllocCreate; exact nexts_hostRun ..
  case allocFree => show Nexts (execAllocFree ..); unfold execAllocFree; exact nexts_hostRun ..
  case nop => show Nexts (execNop ..); unfold execNop; exact nexts_hostRun ..
  case status => show Nexts (execStatus ..); unfold execStatus; exact nexts_hostRun ..
  case regRead => show Nexts (execRegRead ..); unfold execRegRead; exact nexts_hostRun ..
  case regWrite => show Nexts (execRegWrite ..); unfold execRegWrite; exact nexts_hostRun ..
  case descCreate => show Nexts (execDescCreate ..); unfold execDescCreate; exact nexts_hostRun ..
  case descDestroy => show Nexts (execDescDestroy ..); unfold execDescDestroy; exact nexts_hostRun ..
  case memWrite => show Nexts (execMemWrite ..); unfold execMemWrite; exact nexts_heldRun ..
  case memRead => show Nexts (execMemRead ..); unfold execMemRead; exact nexts_heldRun ..
  case load => show Nexts (execLoad ..); unfold execLoad; exact nexts_heldRun ..
  case unload => show Nexts (execUnload ..); unfold execUnload; exact nexts_hostRun ..
  case run => show Nexts (execRun ..); unfold execRun; exact nexts_hostRun ..
  case hold => show Nexts (execHold ..); unfold execHold; exact pred_ite (.next _) (nexts_hostRun ..)
  case moduleReset => show Nexts (execModuleReset ..); unfold execModuleReset; exact nexts_hostRun ..
  case feedOpen => show Nexts (execFeedOpen ..); unfold execFeedOpen; exact nexts_hostRun ..
  case feedClose => show Nexts (execFeedClose ..); unfold execFeedClose; exact nexts_hostRun ..
  case feedWrite => show Nexts (execFeedWrite ..); unfold execFeedWrite; exact nexts_heldRun ..
  case feedCommit => show Nexts (execFeedCommit ..); unfold execFeedCommit; exact nexts_hostRun ..
  case resultOpen => show Nexts (execResultOpen ..); unfold execResultOpen; exact nexts_hostRun ..
  case resultClose => show Nexts (execResultClose ..); unfold execResultClose; exact nexts_hostRun ..
  case resultRead =>
    show Nexts (execResultRead ..); unfold execResultRead; exact pred_ite (.next _) (nexts_runCmd ..)
  case resultRelease => show Nexts (execResultRelease ..); unfold execResultRelease; exact nexts_runCmd ..
  case attest => show Nexts (execAttest ..); unfold execAttest; exact nexts_hostRun ..
  case flashWrite => show Nexts (execFlashWrite ..); unfold execFlashWrite; exact nexts_flashRun ..
  case flashErase => show Nexts (execFlashErase ..); unfold execFlashErase; exact nexts_flashRun ..
  case activate => show Nexts (execActivate ..); unfold execActivate; exact nexts_flashRun ..
  case advanceSvn => show Nexts (execAdvanceSvn ..); unfold execAdvanceSvn; exact nexts_flashRun ..
  case revoke => show Nexts (execRevoke ..); unfold execRevoke; exact nexts_flashRun ..
  case keyProgram => show Nexts (execKeyProgram ..); unfold execKeyProgram; exact nexts_flashRun ..
  case flashRead => show Nexts (execFlashRead ..); unfold execFlashRead; exact nexts_flashRun ..
  case unmappedAccess => show Nexts (execUnmappedAccess ..); unfold execUnmappedAccess; split <;> exact .next _
  case bridgeTransfer =>
    show Nexts (execBridgeTransfer ..); unfold execBridgeTransfer; extract_lets; (repeat' split) <;> exact .next _
  case bridgeFail =>
    show Nexts (execBridgeFail ..); unfold execBridgeFail; extract_lets; split <;> exact .next _
  case channelResync => show Nexts (execChannelResync ..); unfold execChannelResync; split <;> exact .next _
  case clockChange =>
    show Nexts (execClockChange ..); unfold execClockChange; extract_lets; (repeat' split) <;> exact .next _
  case stepBeginIssue =>
    show Nexts (execStepBeginIssue ..); unfold execStepBeginIssue; extract_lets; (repeat' split) <;> exact .next _
  case islandStepBegin =>
    show Nexts (execIslandStepBegin ..); unfold execIslandStepBegin; (repeat' split) <;> exact .next _
  case cmdqReservedOpcode =>
    show Nexts (execCmdqReservedOpcode ..); unfold execCmdqReservedOpcode; split <;> exact .next _
  case mopComplete =>
    show Nexts (execMopComplete ..); unfold execMopComplete; extract_lets; (repeat' split) <;> exact .next _
  case mopEarlyStart =>
    show Nexts (execMopEarlyStart ..); unfold execMopEarlyStart; (repeat' first | extract_lets | split) <;> exact .next _
  case phaseDone =>
    show Nexts (execPhaseDone ..); unfold execPhaseDone; extract_lets; (repeat' split) <;> exact .next _
  case phaseDoneReceive =>
    show Nexts (execPhaseDoneReceive ..); unfold execPhaseDoneReceive; (repeat' split) <;> exact .next _
  case resultCopyResume =>
    show Nexts (execResultCopyResume ..); unfold execResultCopyResume; split <;> exact .next _
  case operandFill =>
    show Nexts (execOperandFill ..); unfold execOperandFill; (repeat' first | extract_lets | split) <;> exact .next _
  case stationaryLoad =>
    show Nexts (execStationaryLoad ..); unfold execStationaryLoad; extract_lets; (repeat' split) <;> exact .next _
  case wavefrontEmit =>
    show Nexts (execWavefrontEmit ..); unfold execWavefrontEmit; extract_lets; (repeat' split) <;> exact .next _
  case mergeSegment =>
    show Nexts (execMergeSegment ..); unfold execMergeSegment; extract_lets; (repeat' split) <;> exact .next _
  case wavefront =>
    show Nexts (execWavefront ..); unfold execWavefront; extract_lets; (repeat' split) <;> exact .next _
  case tileInit =>
    show Nexts (execTileInit ..); unfold execTileInit; extract_lets; (repeat' split) <;> exact .next _
  case sumqAccumulate =>
    show Nexts (execSumqAccumulate ..); unfold execSumqAccumulate; extract_lets; (repeat' split) <;> exact .next _
  case tileDrain => show Nexts (execTileDrain ..); unfold execTileDrain; extract_lets; split <;> exact .next _
  case auditRowReport =>
    show Nexts (execAuditRowReport ..); unfold execAuditRowReport; extract_lets; (repeat' split) <;> exact .next _
  case predictStart =>
    show Nexts (execPredictStart ..); unfold execPredictStart; extract_lets; (repeat' split) <;> exact .next _
  case predictComplete =>
    show Nexts (execPredictComplete ..); unfold execPredictComplete; split <;> exact .next _
  case nmemAccess d req off wr err =>
    show Nexts (execNmemAccess d req off wr err s); unfold execNmemAccess; split <;> exact .next _
  case nmemPatrolScrub =>
    show Nexts (execNmemPatrolScrub ..); unfold execNmemPatrolScrub; split <;> exact .next _
  case arbGrant =>
    show Nexts (execArbGrant ..); unfold execArbGrant; extract_lets; (repeat' split) <;> exact .next _
  case arbBackoffExpire =>
    show Nexts (execArbBackoffExpire ..); unfold execArbBackoffExpire; extract_lets; split <;> exact .next _
  case fmemDriftCheck =>
    show Nexts (execFmemDriftCheck ..); unfold execFmemDriftCheck; (repeat' split) <;> exact .next _
  case fmemRefresh => show Nexts (execFmemRefresh ..); unfold execFmemRefresh; (repeat' split) <;> exact .next _
  case fmemZqLatch => show Nexts (execFmemZqLatch ..); unfold execFmemZqLatch; split <;> exact .next _
  case rowRetire =>
    show Nexts (execRowRetire ..); unfold execRowRetire; (repeat' first | extract_lets | split) <;> exact .next _
  case updChunk =>
    show Nexts (execUpdChunk ..); unfold execUpdChunk; (repeat' first | extract_lets | split) <;> exact .next _
  case updRowRecord =>
    show Nexts (execUpdRowRecord ..); unfold execUpdRowRecord; (repeat' first | extract_lets | split) <;> exact .next _
  case normResult =>
    show Nexts (execNormResult ..); unfold execNormResult; (repeat' first | extract_lets | split) <;> exact .next _
  case pass2Start =>
    show Nexts (execPass2Start ..); unfold execPass2Start; (repeat' first | extract_lets | split) <;> exact .next _
  case groupLocalDone =>
    show Nexts (execGroupLocalDone ..); unfold execGroupLocalDone; (repeat' first | extract_lets | split) <;> exact .next _
  case commitRecordWrite =>
    show Nexts (execCommitRecordWrite ..); unfold execCommitRecordWrite; extract_lets; (repeat' split) <;> exact .next _
  case stepCommit => show Nexts (execStepCommit ..); unfold execStepCommit; split <;> exact .next _
  case stepResume => show Nexts (execStepResume ..); unfold execStepResume; split <;> exact .next _
  case twinLost =>
    show Nexts (execTwinLost ..); unfold execTwinLost; extract_lets; (repeat' split) <;> exact .next _
  case recompRebuild =>
    show Nexts (execRecompRebuild ..); unfold execRecompRebuild; (repeat' split) <;> exact .next _
  case recompReady => show Nexts (execRecompReady ..); unfold execRecompReady; split <;> exact .next _
  case portTrain =>
    show Nexts (execPortTrain ..); unfold execPortTrain; extract_lets; (repeat' split) <;> exact .next _
  case portTrainTimeout =>
    show Nexts (execPortTrainTimeout ..); unfold execPortTrainTimeout; split <;> exact .next _
  case laneFail =>
    show Nexts (execLaneFail ..); unfold execLaneFail; extract_lets; (repeat' split) <;> exact .next _
  case laneSwapComplete =>
    show Nexts (execLaneSwapComplete ..); unfold execLaneSwapComplete; split <;> exact .next _
  case linkSilence => show Nexts (execLinkSilence ..); unfold execLinkSilence; split <;> exact .next _
  case flitReceive => show Nexts (execFlitReceive ..); unfold execFlitReceive; split <;> exact .next _
  case creditReturn =>
    show Nexts (execCreditReturn ..); unfold execCreditReturn; extract_lets; (repeat' split) <;> exact .next _
  case credit => show Nexts (execCredit ..); unfold execCredit; split <;> exact .next _
  case nak => show Nexts (execNak ..); unfold execNak; (repeat' first | extract_lets | split) <;> exact .next _
  case e2eAck =>
    show Nexts (execE2eAck ..); unfold execE2eAck; (repeat' first | extract_lets | split) <;> exact .next _
  case e2eAckDue => show Nexts (execE2eAckDue ..); unfold execE2eAckDue; extract_lets; split <;> exact .next _
  case e2eTimeout =>
    show Nexts (execE2eTimeout ..); unfold execE2eTimeout; extract_lets; (repeat' split) <;> exact .next _
  case write =>
    show Nexts (execWrite ..); unfold execWrite; (repeat' first | extract_lets | split) <;> exact .next _
  case read =>
    show Nexts (execRead ..); unfold execRead; (repeat' first | extract_lets | split) <;> exact .next _
  case readResp =>
    show Nexts (execReadResp ..); unfold execReadResp; (repeat' first | extract_lets | split) <;> exact .next _
  case crs => show Nexts (execCrs ..); unfold execCrs; (repeat' first | extract_lets | split) <;> exact .next _
  case stagedPartialAdd =>
    show Nexts (execStagedPartialAdd ..); unfold execStagedPartialAdd; (repeat' first | extract_lets | split) <;> exact .next _
  case cag => show Nexts (execCag ..); unfold execCag; (repeat' first | extract_lets | split) <;> exact .next _
  case cscalar =>
    show Nexts (execCscalar ..); unfold execCscalar; (repeat' first | extract_lets | split) <;> exact .next _
  case mwr => show Nexts (execMwr ..); unfold execMwr; (repeat' first | extract_lets | split) <;> exact .next _
  case mack =>
    show Nexts (execMack ..); unfold execMack; (repeat' first | extract_lets | split) <;> exact .next _
  case linkCtlHello =>
    show Nexts (execLinkCtlHello ..); unfold execLinkCtlHello; (repeat' first | extract_lets | split) <;> exact .next _
  case resyncUnitCopy =>
    show Nexts (execResyncUnitCopy ..); unfold execResyncUnitCopy; (repeat' first | extract_lets | split) <;> exact .next _
  case linkCtlSwapRequest =>
    show Nexts (execLinkCtlSwapRequest ..); unfold execLinkCtlSwapRequest; (repeat' split) <;> exact .next _
  case linkCtlSwapDone =>
    show Nexts (execLinkCtlSwapDone ..); unfold execLinkCtlSwapDone; (repeat' split) <;> exact .next _
  case linkCtlFenceNotice =>
    show Nexts (execLinkCtlFenceNotice ..); unfold execLinkCtlFenceNotice; split <;> exact .next _
  case hostLaneTrain =>
    show Nexts (execHostLaneTrain ..); unfold execHostLaneTrain; (repeat' split) <;> exact .next _
  case hostLaneSilence =>
    show Nexts (execHostLaneSilence ..); unfold execHostLaneSilence; split <;> exact .next _
  case hostFlitReceive =>
    show Nexts (execHostFlitReceive ..); unfold execHostFlitReceive; split <;> exact .next _
  case nhlCredit => show Nexts (execNhlCredit ..); unfold execNhlCredit; split <;> exact .next _
  case nhlNak => show Nexts (execNhlNak ..); unfold execNhlNak; split <;> exact .next _
  case gapTimeout =>
    show Nexts (execGapTimeout ..); unfold execGapTimeout; extract_lets; split <;> exact .next _
  case feedStall =>
    show Nexts (execFeedStall ..); unfold execFeedStall; extract_lets; (repeat' split) <;> exact .next _
  case resultStall =>
    show Nexts (execResultStall ..); unfold execResultStall; extract_lets; split <;> exact .next _
  case eventDrop => show Nexts (execEventDrop ..); unfold execEventDrop; extract_lets; split <;> exact .next _
  case coreWatchdog => show Nexts (execCoreWatchdog ..); unfold execCoreWatchdog; split <;> exact .next _
  case coreFail => show Nexts (execCoreFail ..); unfold execCoreFail; split <;> exact .next _
  case replayIssue =>
    show Nexts (execReplayIssue ..); unfold execReplayIssue; (repeat' first | extract_lets | split) <;> exact .next _
  case queuedBreach =>
    show Nexts (execQueuedBreach ..); unfold execQueuedBreach; (repeat' split) <;> exact .next _
  case polderLoss => show Nexts (execPolderLoss ..); unfold execPolderLoss; split <;> exact .next _
  case dumpWrite => show Nexts (execDumpWrite ..); unfold execDumpWrite; split <;> exact .next _
  case dumpComplete => show Nexts (execDumpComplete ..); unfold execDumpComplete; split <;> exact .next _
  case restoreComplete =>
    show Nexts (execRestoreComplete ..); unfold execRestoreComplete; (repeat' first | extract_lets | split) <;> exact .next _
  case evcCntHiWrite => show Nexts (execEvcCntHiWrite ..); unfold execEvcCntHiWrite; split <;> exact .next _
  case evcCntLoWrite => show Nexts (execEvcCntLoWrite ..); unfold execEvcCntLoWrite; split <;> exact .next _
  case evcBroadcastArrive =>
    show Nexts (execEvcBroadcastArrive ..); unfold execEvcBroadcastArrive; (repeat' split) <;> exact .next _
  case evcOvf => show Nexts (execEvcOvf ..); unfold execEvcOvf; extract_lets; (repeat' split) <;> exact .next _
  case bootRomStart =>
    show Nexts (execBootRomStart ..); unfold execBootRomStart; extract_lets; (repeat' split) <;> exact .next _
  case functionReady => show Nexts (execFunctionReady ..); unfold execFunctionReady; split <;> exact .next _
  case healthAreaWrite =>
    show Nexts (execHealthAreaWrite ..); unfold execHealthAreaWrite; split <;> exact .next _
  case inputTurnOn => show Nexts (execInputTurnOn ..); unfold execInputTurnOn; split <;> exact .next _
  case powerGood => show Nexts (execPowerGood ..); unfold execPowerGood; split <;> exact .next _
  case inputShutdown => show Nexts (execInputShutdown ..); unfold execInputShutdown; split <;> exact .next _
  case overcurrentTrip =>
    show Nexts (execOvercurrentTrip ..); unfold execOvercurrentTrip; split <;> exact .next _
  case thermalTrip => show Nexts (execThermalTrip ..); unfold execThermalTrip; split <;> exact .next _
  case regulatorFail =>
    show Nexts (execRegulatorFail ..); unfold execRegulatorFail; (repeat' split) <;> exact .next _
  case coreThermalGate =>
    show Nexts (execCoreThermalGate ..); unfold execCoreThermalGate; extract_lets; (repeat' split) <;> exact .next _
  case droopResponse =>
    show Nexts (execDroopResponse ..); unfold execDroopResponse; extract_lets; split <;> exact .next _
  case droopEnd => show Nexts (execDroopEnd ..); unfold execDroopEnd; extract_lets; split <;> exact .next _
  case idleEntry => show Nexts (execIdleEntry ..); unfold execIdleEntry; split <;> exact .next _
  case powerStateWake => show Nexts (execPowerStateWake ..); unfold execPowerStateWake; split <;> exact .next _
  case sensorUpdate => show Nexts (execSensorUpdate ..); unfold execSensorUpdate; split <;> exact .next _
  case readBreach => show Nexts (execReadBreach ..); unfold execReadBreach; split <;> exact .next _
  case modResetN => show Nexts (execModResetN ..); unfold execModResetN; split <;> exact .next _
  case bypass => show Nexts (execBypass ..); unfold execBypass; split <;> exact .next _
  case hostLaneFail => show Nexts (execHostLaneFail ..); unfold execHostLaneFail; split <;> exact .next _
  case hostLaneTrainTimeout =>
    show Nexts (execHostLaneTrainTimeout ..); unfold execHostLaneTrainTimeout; split <;> exact .next _
  case spareLaneTrainTimeout =>
    show Nexts (execSpareLaneTrainTimeout ..); unfold execSpareLaneTrainTimeout; split <;> exact .next _
  case refreshManagementRequest =>
    show Nexts (execRefreshManagementRequest ..); unfold execRefreshManagementRequest; split <;> exact .next _
  case dataRegisterScan =>
    show Nexts (execDataRegisterScan ..); unfold execDataRegisterScan; (repeat' split) <;> exact .next _

/-- A populated address lies in far memory or in the 2 GiB of one of six near memories (R244). -/
theorem populated_iff (a : Nat) : populated a = true ↔ a ≤ 0x02CFFFFFFFFF ∨
    ∃ d, d < 6 ∧ 0x100000000000 + d * 0x000100000000 ≤ a ∧
      a ≤ 0x100000000000 + d * 0x000100000000 + 0x7FFFFFFF := by
  have hsize : farSize = 0x02D000000000 := rfl
  simp only [populated, isNear, Bool.or_eq_true, Bool.and_eq_true, decide_eq_true_eq]
  constructor
  · rintro (hfar | ⟨⟨hbase, hdie⟩, hoff⟩)
    · exact .inl (by omega)
    · exact .inr ⟨(a - 0x100000000000) / 0x100000000, hdie, by omega, by omega⟩
  · rintro (hfar | ⟨d, hd, hlo, hhi⟩)
    · exact .inl (by omega)
    · exact .inr (by omega)

theorem farSize_le_of_not_populated {a : Nat} (h : populated a = false) : farSize ≤ a := by
  by_contra hlt
  rw [populated, decide_eq_true (Nat.lt_of_not_le hlt)] at h
  exact Bool.noConfusion h

/-- An access to a burst outside far memory faults with the base of the burst. -/
theorem faults_or_nexts_of_burst {addr : Addr} {i : Instr} {o : Out} {s : State}
    (hi : addrOf i = some addr.toNat) (ho : Nexts o)
    (he : exec i s = if farSize ≤ addr.toNat / 32 * 32 then .fault (.unpopulated (addr.toNat / 32 * 32)) else o) :
    Nexts (exec i s) ∨ ∃ a b : Nat, addrOf i = some a ∧ farSize ≤ b ∧ b ≤ a ∧ exec i s = .fault (.unpopulated b) := by
  rw [he]
  split
  · exact .inr ⟨_, _, hi, ‹_›, Nat.div_mul_le_self _ _, rfl⟩
  · exact .inl ho

/-- An access of a cache faults at an address that is not populated. -/
theorem faults_or_nexts_of_line {a : Nat} {i : Instr} {o : Out} {s : State} (hi : addrOf i = some a) (ho : Nexts o)
    (he : exec i s = if populated a = false then .fault (.unpopulated a) else o) :
    Nexts (exec i s) ∨ ∃ a b : Nat, addrOf i = some a ∧ farSize ≤ b ∧ b ≤ a ∧ exec i s = .fault (.unpopulated b) := by
  rw [he]
  split
  · exact .inr ⟨_, _, hi, farSize_le_of_not_populated ‹_›, Nat.le_refl _, rfl⟩
  · exact .inl ho

/-- Settles O7: the five commands that present an address fault on an unpopulated one alone, and no other does. -/
theorem onlyUnpopulatedAddressesFault : Obligations.OnlyUnpopulatedAddressesFault := by
  unfold Obligations.OnlyUnpopulatedAddressesFault
  refine ⟨fun i s => ?_, populated_iff, rfl, fun p j hp hj => ⟨?_, ?_⟩⟩
  · cases hi : addrOf i with
    | none => exact .inl (nexts_exec i s hi)
    | some a =>
      rw [← hi]
      cases i with
      | fmemAccess addr wr err => exact faults_or_nexts_of_burst rfl (pred_ite (.next _) (.next _)) rfl
      | fmemPatrolScrub addr err => exact faults_or_nexts_of_burst rfl (.next _) rfl
      | burstReconstruct addr =>
        refine faults_or_nexts_of_burst rfl ?_ rfl
        refine pred_ite (.next _) (pred_ite (.next _) ?_)
        split <;> exact .next _
      | cacheFill d req addr =>
        refine faults_or_nexts_of_line rfl (pred_ite (.next _) ?_) rfl
        (repeat' split) <;> exact .next _
      | cacheInvalidate d addr own =>
        refine faults_or_nexts_of_line rfl ?_ rfl
        (repeat' split) <;> exact .next _
      | _ => exact absurd hi.symm (Option.some_ne_none a)
  · simp only [edgeOfChan]
    split <;> omega
  · simp only [halfOfChan]
    split_ifs <;> omega

end Sys2Proof.Machine
end

section
/-! SUPPORT. Reads and writes of the control space: fields, latches and unmapped addresses (R8 to R11). -/

namespace Sys2Proof.Machine

open Sys2Proof

theorem exec_registerWrite (a : Accessor) (addr : BitVec 32) (v : Word) (s : State) :
    exec (.registerWrite a addr v) s = .next (s.writeReg addr.toNat v) := rfl

theorem exec_registerRead (a : Accessor) (addr : BitVec 32) (s : State) :
    exec (.registerRead a addr) s = .next (s.readTo a addr.toNat) := rfl

/-! ### Writes -/

/-- A written bit is the one of v in an RW field, 0 in a W1C field where v has a 1, and else the old one (R9). -/
theorem RegRow.getLsbD_written (r : RegRow) (old v : Word) {i : Nat} (hi : i < 32) :
    (r.written old v).getLsbD i =
      if r.rw.testBit i then v.getLsbD i else if r.w1c.testBit i && v.getLsbD i then false else old.getLsbD i := by
  simp only [RegRow.written, BitVec.getLsbD_or, BitVec.getLsbD_and, BitVec.getLsbD_not, BitVec.getLsbD_ofNat,
    decide_eq_true hi, Bool.true_and]
  cases r.rw.testBit i <;> cases r.w1c.testBit i <;> cases v.getLsbD i <;> simp

section
variable {s : State} {a : Nat}

theorem State.writeReg_unmapped (v : Word) (h : regRow a = none) : s.writeReg a v = s.unmapped a true := by
  rw [State.writeReg, h]

/-- A write of a register that is no event counter. -/
theorem State.writeReg_plain (v : Word) {r : RegRow} (hr : regRow a = some r) (he : evcPlace a = none) :
    s.writeReg a v =
      if s.winLocked a then s else (s.setReg a (r.written (s.reg a) v)).writeStarts a v := by
  rw [State.writeReg, hr]
  simp only [he]

end

/-- Settles O8: a write sets the register to the written word and starts what `writeStarts` says. -/
theorem registerWriteSetsFields : Obligations.RegisterWriteSetsFields := by
  unfold Obligations.RegisterWriteSetsFields
  refine ⟨fun a addr v s r hr he hl => ?_, fun a addr v s => ⟨fun h => ?_, fun he hl hr => ?_⟩⟩
  · refine ⟨s.setReg addr.toNat (r.written (s.reg addr.toNat) v), ?_, rfl, fun b hb => s.reg_setReg_ne _ _ _ hb,
      fun i hi => ?_⟩
    · rw [exec_registerWrite, State.writeReg_plain v hr he, hl, if_neg Bool.false_ne_true]
    · rw [State.reg_setReg_self, r.getLsbD_written _ _ hi]
  · rw [exec_registerWrite, State.writeReg_unmapped v h]
  · obtain ⟨r, hr⟩ := Option.isSome_iff_exists.mp hr
    rw [exec_registerWrite, State.writeReg_plain v hr he, if_pos hl]

/-! ### Unmapped addresses -/

/-- No window lies at or above `0x0900_0000` (R466). -/
theorem regRow_of_le {n : Nat} (h : 0x09000000 ≤ n) : regRow n = none := by
  have hglb : ¬ n < 0x01000000 := by omega
  have hdie : ¬ n < 0x07000000 := by omega
  have hedge : ¬ n < 0x09000000 := by omega
  simp only [regRow, if_neg hglb, if_neg hdie, if_neg hedge, ite_self]

theorem toNat_satAdd (w : Word) (n : Nat) : (satAdd w n).toNat = min (w.toNat + n) 0xFFFFFFFF := by
  simp only [satAdd, satWord, BitVec.toNat_ofNat]
  omega

theorem onlyRegs_inc (s : State) (a n : Nat) : OnlyRegs s (s.inc a n) := rfl

theorem onlyRegs_unmapped (s : State) (a : Nat) (w : Bool) : OnlyRegs s (s.unmapped a w) := rfl

section
variable (s : State) (a : Nat) (w : Bool)

theorem State.toNat_reg_unmapped_CNT : ((s.unmapped a w).reg Reg.GLB_UNMAPPED_CNT).toNat =
    min ((s.reg Reg.GLB_UNMAPPED_CNT).toNat + 1) 0xFFFFFFFF := by
  rw [State.unmapped, State.reg_setReg_ne _ _ _ _ (by decide), State.reg_inc_self, toNat_satAdd]

theorem State.reg_unmapped_ADDR : (s.unmapped a w).reg Reg.GLB_UNMAPPED_ADDR =
    BitVec.ofNat 32 (a % 2 ^ 32 / 4 * 4 + w.toNat) := State.reg_setReg_self _ _ _

theorem State.reg_unmapped_ne {b : Nat} (hc : b ≠ Reg.GLB_UNMAPPED_CNT) (ha : b ≠ Reg.GLB_UNMAPPED_ADDR) :
    (s.unmapped a w).reg b = s.reg b := by
  rw [State.unmapped, State.reg_setReg_ne _ _ _ _ ha, State.reg_inc_ne _ _ _ _ hc]

end

/-- Settles O9: an access to an unmapped address counts, keeps the address and reads as 0. -/
theorem unmappedAccessCounts : Obligations.UnmappedAccessCounts := by
  unfold Obligations.UnmappedAccessCounts
  refine ⟨fun n => regRow_of_le, fun addr write a s h => ?_⟩
  have hread := s.readReg_unmapped a addr.toNat h
  refine ⟨s.unmapped addr.toNat write, ?_, s.toNat_reg_unmapped_CNT _ _, ?_, fun b => s.reg_unmapped_ne _ _, rfl,
    s.readTo a addr.toNat, rfl, ?_, ?_, fun b => ?_⟩
  · show Host.Outcome.next (if (regRow addr.toNat).isNone then s.unmapped addr.toNat write else s) = _
    rw [h, Option.isNone_none, if_pos rfl]
  · rw [State.reg_unmapped_ADDR, Nat.mod_eq_of_lt addr.isLt]
  · rw [State.readData_readTo, hread]
  · rw [State.readTo, hread]
    rfl
  · rw [State.reg_readTo, hread]

/-! ### Reads -/

/-- The state after a read that no latch of the accessor answers: a low word is latched, the RC fields are
cleared. -/
def State.readCleared (s : State) (acc a : Nat) (r : RegRow) : State :=
  (if r.pair then s.setLatch acc (some (a, s.view (a + 4))) else s).clearRc a r.rc

section
variable (s : State) (acc a : Nat) (r : RegRow)

theorem State.reg_readCleared (b : Nat) : (s.readCleared acc a r).reg b = (s.clearRc a r.rc).reg b := by
  by_cases hb : b = a
  · subst hb
    rw [State.readCleared, State.reg_clearRc_self, State.reg_clearRc_self]
    split <;> rfl
  · rw [State.readCleared, State.reg_clearRc_ne _ _ _ _ hb, State.reg_clearRc_ne _ _ _ _ hb]
    split <;> rfl

theorem State.latchOf_readCleared (b : Nat) : (s.readCleared acc a r).latchOf b =
    if r.pair = true ∧ b = acc then some (a, s.view (a + 4)) else s.latchOf b := by
  rw [State.readCleared, State.latchOf_clearRc]
  cases r.pair with
  | false => rw [if_neg Bool.false_ne_true, if_neg (fun h => Bool.false_ne_true h.1)]
  | true => simp only [if_true, State.latchOf_setLatch, true_and]

theorem State.readCleared_frame : s.readCleared acc a r = { s with
    regs := (s.readCleared acc a r).regs, latch := (s.readCleared acc a r).latch,
    thrFired := (s.readCleared acc a r).thrFired } := by
  unfold State.readCleared State.clearRc
  split <;> split <;> rfl

end

section
variable {s : State} {acc a : Nat} {r : RegRow}

/-- A read of a register that is no audit counter, where no latch of the accessor answers. -/
theorem State.readReg_unlatched (hr : regRow a = some r) (haud : audAt a = none)
    (hl : ∀ lo hi, s.latchOf acc = some (lo, hi) → lo + 4 ≠ a) :
    s.readReg acc a = (s.view a, s.readCleared acc a r) := by
  rw [State.readReg_plain s acc a r hr haud, State.readPlain_eq s acc a r hl, State.readCleared]

/-- A read of the high word that the accessor has latched: the latched word, and no latch after it (R8). -/
theorem State.readReg_latched {lo : Nat} {hi : Word} (hr : regRow a = some r) (haud : audAt a = none)
    (hp : r.pair = false) (hl : s.latchOf acc = some (lo, hi)) (ha : lo + 4 = a) :
    s.readReg acc a = (hi, (s.setLatch acc none).clearRc a r.rc) := by
  rw [State.readReg_plain s acc a r hr haud, State.readPlain_latched s acc lo a hi r hp hl ha]

end

/-- Settles O10: a read gives the value or the latched high word, and clears and latches by its row alone. -/
theorem registerReadReturns : Obligations.RegisterReadReturns := by
  unfold Obligations.RegisterReadReturns
  refine ⟨fun a addr s r hr haud hl => ?_, fun a lo hi s t u r q hhi hr hp haud hl hq hqp hqaud ht hu => ?_⟩
  · have hread := State.readReg_unlatched hr haud hl
    refine ⟨s.readTo a addr.toNat, rfl, ?_, ?_, fun b hb => ?_, fun hp => ?_, fun hp => ?_, fun b hb => ?_, ?_⟩
    · rw [State.readData_readTo, hread]
    · rw [State.reg_readTo, hread, State.reg_readCleared, State.reg_clearRc_self]
    · rw [State.reg_readTo, hread, State.reg_readCleared, State.reg_clearRc_ne _ _ _ _ hb]
    · rw [State.latchOf_readTo, hread, State.latchOf_readCleared, if_pos ⟨hp, rfl⟩]
    · rw [State.latchOf_readTo, hread, State.latchOf_readCleared, hp, if_neg (fun h => Bool.false_ne_true h.1)]
    · rw [State.latchOf_readTo, hread, State.latchOf_readCleared, if_neg (fun h => hb h.2)]
    · rw [State.readTo, hread, State.readCleared_frame]
  · have hread := State.readReg_unlatched hr haud hl
    cases (exec_registerRead a lo s).symm.trans ht
    have hlatch : u.latchOf a = some (lo.toNat, s.view (lo.toNat + 4)) := by
      rw [hu, State.latchOf_readTo, hread, State.latchOf_readCleared, if_pos ⟨hp, rfl⟩]
    have hnext := State.readReg_latched hq hqaud hqp hlatch hhi.symm
    refine ⟨u.readTo a hi.toNat, rfl, ?_, ?_, ?_⟩
    · rw [State.readData_readTo, hread]
    · rw [State.readData_readTo, hnext, hhi]
    · rw [State.latchOf_readTo, hnext, State.latchOf_clearRc, State.latchOf_setLatch, if_pos rfl]

end Sys2Proof.Machine
end

section
/-! SUPPORT. The bridges between the dies (R16, R17). -/

namespace Sys2Proof.Machine

open Sys2Proof

theorem reports_countBridge (s : State) (d src b n : Nat) : Reports s (s.countBridge d src b n) := by
  unfold State.countBridge
  split
  · exact count_reports _ _ _ _ _
  · exact Reports.refl s

/-- A die of a bridge transfer by its direction: the sending and the receiving one. -/
def bridgeEnds (b : Fin 13) (dir : Fin 2) : Nat × Nat :=
  (if dir.val = 0 then (bridgeDies b).1 else (bridgeDies b).2,
   if dir.val = 0 then (bridgeDies b).2 else (bridgeDies b).1)

/-- A direction after a transfer that arrived whole. -/
def BridgeSt.deliver (k : BridgeSt) (map : List (BitVec 16)) (data : List Byte) : BridgeSt :=
  { k with spares := spareWires map data, replay := (data :: k.replay).take 32,
           resend := k.resend.drop 1, delivered := k.delivered + 1 }

/-- A direction after a transfer whose check failed. -/
def BridgeSt.discard (k : BridgeSt) (map : List (BitVec 16)) (data : List Byte) (now : Nat) : BridgeSt :=
  { k with spares := spareWires map data, resend := if k.resend.isEmpty then [data] else k.resend,
           retryTimes := now :: (k.retryTimes.filter fun t => decide (now < t + 1000)) }

section
variable {b : Fin 13} {dir : Fin 2} {data : List Byte} (crc : BitVec 32) {s : State} {key : Nat}
  {map : List (BitVec 16)} (hk : key = 2 * b.val + dir.val)
include hk

/-- A direction whose map is not applied, and a failed one, carry nothing. -/
theorem exec_bridgeTransfer_of_dead (h : (s.bridge key).failed = true ∨ (s.bridge key).map = none) :
    exec (.bridgeTransfer b dir data crc) s = .next s := by
  subst hk
  show execBridgeTransfer b dir data crc s = _
  cases hm : (s.bridge (2 * b.val + dir.val)).map with
  | none => simp only [execBridgeTransfer, hm]
  | some map =>
    rw [hm] at h
    simp only [execBridgeTransfer, hm, if_pos (h.resolve_right (Option.some_ne_none map))]

variable (hf : (s.bridge key).failed = false) (hm : (s.bridge key).map = some map)
include hf hm

/-- A transfer that cannot go on the bridge now waits, as long as there is room for 32. -/
theorem exec_bridgeTransfer_of_waits
    (hw : s.bridgeReady b = false ∨ ∃ x l, (s.bridge key).resend = x :: l ∧ x ≠ data) :
    exec (.bridgeTransfer b dir data crc) s = .next
      (if (s.bridge key).resend.length < 32 then
        s.setBridge key { s.bridge key with resend := (s.bridge key).resend ++ [data] } else s) := by
  subst hk
  have hwait : (!s.bridgeReady b || (!(s.bridge (2 * b.val + dir.val)).resend.isEmpty &&
      (s.bridge (2 * b.val + dir.val)).resend.head? != some data)) = true := by
    obtain hr | ⟨x, l, hxl, hx⟩ := hw
    · simp [hr]
    · simp [hxl, hx]
  show execBridgeTransfer b dir data crc s = _
  simp only [execBridgeTransfer, hm, hf, Bool.false_eq_true, if_false, if_pos hwait]

/-- A transfer that goes is delivered or discarded by its check (R17). -/
theorem exec_bridgeTransfer_of_goes (hr : s.bridgeReady b = true)
    (hq : (s.bridge key).resend = [] ∨ (s.bridge key).resend.head? = some data) :
    exec (.bridgeTransfer b dir data crc) s = .next
      (if crc32c data = crc then
        ((s.setBridge key ((s.bridge key).deliver map data)).countBridge (bridgeEnds b dir).1 0x181 b 16).countBridge
          (bridgeEnds b dir).2 0x182 b 16
      else
        ((s.setBridge key ((s.bridge key).discard map data s.now)).countBridge (bridgeEnds b dir).1 0x181 b
          16).countBridge (retryDie (bridgeEnds b dir).1 (bridgeEnds b dir).2) 0x183 b 1) := by
  subst hk
  have hgo : (!s.bridgeReady b || (!(s.bridge (2 * b.val + dir.val)).resend.isEmpty &&
      (s.bridge (2 * b.val + dir.val)).resend.head? != some data)) = false := by
    obtain hnil | hhead := hq
    · simp [hr, hnil]
    · simp [hr, hhead]
  show execBridgeTransfer b dir data crc s = _
  simp only [execBridgeTransfer, hm, hf, hgo, Bool.false_eq_true, if_false, BridgeSt.deliver, BridgeSt.discard]
  split <;> rfl

end

/-- Settles O12: what a direction does with a transfer, case by case. -/
theorem bridgesCarryAndFail : Obligations.BridgesCarryAndFail := by
  unfold Obligations.BridgesCarryAndFail
  refine ⟨fun b dir data crc s key map hk hf hm => ⟨fun hr hq => ?goes, fun hw => ?waits⟩,
    fun b dir lostLock data crc s key hk => ⟨fun hf hfail => ?fails, fun h => ?dead⟩⟩
  case waits => exact exec_bridgeTransfer_of_waits crc hk hf hm hw
  case dead => exact exec_bridgeTransfer_of_dead crc hk h
  case fails =>
    subst hk
    show execBridgeFail b dir lostLock s = _
    have hcond : (!(s.bridge (2 * b.val + dir.val)).failed && (lostLock || decide (16 < ((s.bridge
        (2 * b.val + dir.val)).retryTimes.filter fun t => decide (s.now < t + 1000)).length))) = true := by
      simpa [hf] using hfail
    simp only [execBridgeFail, if_pos hcond]
  case goes =>
    have hex := exec_bridgeTransfer_of_goes crc hk hf hm hr hq
    have hrep (k : BridgeSt) (d d' src' n' : Nat) := (reports_countBridge (s.setBridge key k) d 0x181 b 16).trans
      (reports_countBridge _ d' src' b n')
    by_cases hcrc : crc32c data = crc
    · rw [if_pos hcrc] at hex
      have hr := hrep ((s.bridge key).deliver map data) (bridgeEnds b dir).1 (bridgeEnds b dir).2 0x182 16
      refine ⟨_, hex, ?_⟩
      simp only [hr.bridge, hr.core, State.bridge_setBridge_self]
      exact ⟨hf, rfl, fun _ => ⟨rfl, rfl, rfl, rfl⟩, fun h => absurd hcrc h,
        fun j hj => s.bridge_setBridge_ne _ _ _ hj, fun _ => rfl⟩
    · rw [if_neg hcrc] at hex
      have hr := hrep ((s.bridge key).discard map data s.now) (bridgeEnds b dir).1
        (retryDie (bridgeEnds b dir).1 (bridgeEnds b dir).2) 0x183 1
      refine ⟨_, hex, ?_⟩
      simp only [hr.bridge, hr.core, State.bridge_setBridge_self]
      exact ⟨hf, rfl, fun h => absurd h hcrc, fun _ => ⟨rfl, rfl, by simp [BridgeSt.discard], rfl⟩,
        fun j hj => s.bridge_setBridge_ne _ _ _ hj, fun _ => rfl⟩

end Sys2Proof.Machine
end

section
/-! SUPPORT. What counting events and sending packets leave of the islands and of the links, beside what `Reports`
says: an island changes in its sequence number alone, and a link in what waits, goes out and is kept for a replay. -/

namespace Sys2Proof.Machine

open Sys2Proof

/-- Link b differs from a at most in its transmit side: what waits, the credits held, the flits sent and kept. -/
def LinkSt.SameRx (a b : LinkSt) : Prop :=
  b = { a with txNext := b.txNext, retryBuf := b.retryBuf, needRetry := b.needRetry, ackSent := b.ackSent,
               txq := b.txq, wire := b.wire, held := b.held }

theorem LinkSt.SameRx.refl (a : LinkSt) : a.SameRx a := rfl

theorem LinkSt.SameRx.trans {a b c : LinkSt} (h : a.SameRx b) (g : b.SameRx c) : a.SameRx c := by
  unfold LinkSt.SameRx at *
  rw [g, h]

theorem LinkSt.sameRx_emit (k : LinkSt) (ps : List Pkt) : k.SameRx (k.emit ps) := by
  unfold LinkSt.emit
  split <;> rfl

theorem LinkSt.sameRx_idle (k : LinkSt) : k.SameRx k.idle := by
  unfold LinkSt.idle
  split <;> rfl

/-- Every island changes at most in its sequence number. -/
def SeqOnly (s t : State) : Prop := ∀ i, t.island i = { s.island i with seq := (t.island i).seq }

theorem SeqOnly.refl (s : State) : SeqOnly s s := fun _ => rfl

theorem SeqOnly.trans {s t u : State} (h : SeqOnly s t) (g : SeqOnly t u) : SeqOnly s u := fun i => by
  rw [g i, h i]

/-- State t comes from s by writes of registers, events and packets to send. -/
structure Sends (s t : State) : Prop where
  reports : Reports s t
  seqOnly : SeqOnly s t
  link : ∀ l, (s.link l).SameRx (t.link l)

theorem Sends.refl (s : State) : Sends s s := ⟨Reports.refl s, SeqOnly.refl s, fun _ => rfl⟩

theorem Sends.trans {s t u : State} (h : Sends s t) (g : Sends t u) : Sends s u :=
  ⟨h.reports.trans g.reports, h.seqOnly.trans g.seqOnly, fun l => (h.link l).trans (g.link l)⟩

theorem Sends.foldl {α : Type} {f : State → α → State} (h : ∀ s a, Sends s (f s a)) (l : List α) (s : State) :
    Sends s (l.foldl f s) := by
  induction l generalizing s with
  | nil => exact Sends.refl s
  | cons a l ih => exact (h s a).trans (ih (f s a))

section
variable {s t : State} (h : Sends s t)
include h

theorem Sends.step (i : Nat) : (t.island i).step = (s.island i).step := by rw [h.seqOnly i]
theorem Sends.inReset (i : Nat) : (t.island i).inReset = (s.island i).inReset := by rw [h.seqOnly i]
theorem Sends.ready (i : Nat) : (t.island i).ready = (s.island i).ready := by rw [h.seqOnly i]
theorem Sends.trainStep (l : Nat) : (t.link l).trainStep = (s.link l).trainStep := by rw [h.link l]
theorem Sends.marker (l : Nat) : (t.link l).marker = (s.link l).marker := by rw [h.link l]
theorem Sends.rx (l : Nat) : (t.link l).rx = (s.link l).rx := by rw [h.link l]
theorem Sends.granted (l : Nat) : (t.link l).granted = (s.link l).granted := by rw [h.link l]
theorem Sends.heldMax (l : Nat) : (t.link l).heldMax = (s.link l).heldMax := by rw [h.link l]
theorem Sends.viol (l : Nat) : (t.link l).viol = (s.link l).viol := by rw [h.link l]
theorem Sends.swapping (l : Nat) : (t.link l).swapping = (s.link l).swapping := by rw [h.link l]

end

/-! ### The operations -/

section
variable (s : State)

theorem sends_setReg (a : Nat) (v : Word) : Sends s (s.setReg a v) :=
  ⟨setReg_reports s a v, fun _ => rfl, fun _ => rfl⟩

theorem sends_setRegF (a hi lo v : Nat) : Sends s (s.setRegF a hi lo v) := sends_setReg s a _

theorem sends_inc (a n : Nat) : Sends s (s.inc a n) := sends_setReg s a _

theorem sends_bumpSeq (i : Nat) : Sends s (s.bumpSeq i) := by
  refine ⟨setIsland_reports s i _, fun j => ?_, fun _ => rfl⟩
  by_cases hj : j = i
  · subst hj
    rw [State.bumpSeq, State.island_setIsland_self]
  · rw [State.bumpSeq, State.island_setIsland_ne _ _ _ _ hj]

theorem sends_addLogBy (i name arg : Nat) (cause : Option Cause) : Sends s (s.addLogBy i name arg cause) :=
  have h := sends_bumpSeq s i
  ⟨h.reports.trans (Reports.mk _ _ _ _ _ _ _), h.seqOnly, h.link⟩

theorem sends_addLog (i name arg : Nat) : Sends s (s.addLog i name arg) := sends_addLogBy s i name arg none

theorem sends_setLink {l : Nat} {v : LinkSt} (h : (s.link l).SameRx v) : Sends s (s.setLink l v) := by
  refine ⟨setLink_reports s l v, fun _ => rfl, fun j => ?_⟩
  by_cases hj : j = l
  · subst hj
    rw [State.link_setLink_self]
    exact h
  · rw [State.link_setLink_ne _ _ _ _ hj]
    exact .refl _

theorem sends_enqueue (l : Nat) (p : Pkt) : Sends s (s.enqueue l p) := sends_setLink s rfl

theorem sends_queueEvent (code : Nat) (p : List Byte) : Sends s (s.queueEvent code p) := by
  unfold State.queueEvent
  split
  · have h := sends_enqueue { s with evtSeq := s.evtSeq + 1 } (16 + s.hostLane 0)
      ⟨nhlHdr 0x12 2 32 0 0 code s.evtSeq.toNat 0, p⟩
    exact ⟨(Reports.mk s _ _ _ _ _ _).trans h.reports, h.seqOnly, h.link⟩
  · exact Sends.refl s

theorem sends_queueNamed (i name arg : Nat) : Sends s (s.queueNamed i name arg) := by
  unfold State.queueNamed
  split
  · exact (sends_addLog s i name arg).trans (sends_queueEvent _ _ _)
  · exact sends_addLog s i name arg

theorem sends_setEvcCount (b i v : Nat) : Sends s (s.setEvcCount b i v) :=
  (sends_setReg s _ _).trans (sends_setReg _ _ _)

theorem sends_evcAdd (b i n : Nat) : Sends s (s.evcAdd b i n) := by
  unfold State.evcAdd
  extract_lets c t sel u
  have ht : Sends s t := sends_setEvcCount s b i _
  have hu : Sends s u := ht.trans (sends_setRegF t _ _ _ _)
  split
  · exact ht
  · split
    · exact hu.trans (sends_queueNamed u _ _ _)
    · exact hu

theorem sends_countQ (b src inst n : Nat) : Sends s (s.countQ b src inst n) := by
  unfold State.countQ
  split
  · exact Sends.refl s
  · refine Sends.foldl (fun s i => ?_) _ s
    split
    · exact sends_evcAdd s b i n
    · exact Sends.refl s

theorem sends_countSent (l m n : Nat) : Sends s (s.countSent l m n) := by
  unfold State.countSent
  split <;> exact sends_countQ _ _ _ _ _

theorem sends_pumpOne (l : Nat) : Sends s (s.pumpOne l) := by
  unfold State.pumpOne
  extract_lets k st lets r k' k''
  split
  · exact Sends.refl s
  · have hk' : k.SameRx k' := LinkSt.SameRx.trans (b := { k with txq := _, held := _ }) rfl (LinkSt.sameRx_emit _ _)
    have hk'' : k.SameRx k'' := by
      unfold k''
      split
      · exact hk'.trans (LinkSt.sameRx_idle _)
      · exact hk'
    exact (sends_setLink s hk'').trans (sends_countSent _ _ _ _)

theorem sends_pumpLanes (n l : Nat) : Sends s (State.pumpLanes n l s) := by
  induction n generalizing l s with
  | zero => exact Sends.refl s
  | succ n ih =>
    unfold State.pumpLanes
    extract_lets t
    split
    · exact sends_pumpOne s l
    · exact (sends_pumpOne s l).trans (ih _ _)

theorem sends_pump (l : Nat) : Sends s (s.pump l) := by
  unfold State.pump
  split
  · exact sends_pumpOne s l
  · exact sends_pumpLanes s _ _

theorem sends_linkSend (l : Nat) (p : Pkt) : Sends s (s.linkSend l p) :=
  (sends_enqueue s l p).trans (sends_pump _ l)

theorem sends_hostSend (lane : Nat) (p : Pkt) : Sends s (s.hostSend lane p) := sends_linkSend s _ p

theorem sends_sendEvent (code : Nat) (p : List Byte) : Sends s (s.sendEvent code p) :=
  (sends_queueEvent s code p).trans (sends_pump _ _)

theorem sends_announceBy (i code arg : Nat) (args : List Nat) (cause : Option Cause) :
    Sends s (s.announceBy i code arg args cause) := (sends_addLogBy s i code arg cause).trans (sends_sendEvent _ _ _)

theorem sends_announce (i code arg : Nat) (args : List Nat) : Sends s (s.announce i code arg args) :=
  sends_announceBy s i code arg args none

theorem sends_logNamed (i name arg : Nat) : Sends s (s.logNamed i name arg) := by
  unfold State.logNamed
  split
  · exact (sends_queueNamed s i name arg).trans (sends_pump _ _)
  · exact sends_queueNamed s i name arg

theorem sends_count (b src inst n : Nat) : Sends s (s.count b src inst n) := by
  unfold State.count
  extract_lets t
  split
  · exact sends_countQ s b src inst n
  · exact (sends_countQ s b src inst n).trans (sends_pump _ _)

theorem sends_setMode (m : Nat) : Sends s (s.setMode m) := (sends_setRegF s _ _ _ _).trans (sends_announce _ _ _ _ _)

end

end Sys2Proof.Machine
end

section
/-! SUPPORT. Fields of numbers and of registers, bit by bit. -/

namespace Sys2Proof.Machine

open Sys2Proof

theorem testBit_fld (n hi lo i : Nat) : (fld n hi lo).testBit i = (decide (i < hi + 1 - lo) && n.testBit (lo + i)) := by
  rw [fld, Nat.testBit_mod_two_pow, Nat.testBit_div_two_pow, Nat.add_comm i lo]

/-- A number is its high part, the field and its low part. -/
theorem split_fld (n hi lo : Nat) : n = 2 ^ lo * (2 ^ (hi + 1 - lo) * (n / 2 ^ lo / 2 ^ (hi + 1 - lo)) + fld n hi lo) +
    n % 2 ^ lo := by
  rw [fld, Nat.div_add_mod, Nat.div_add_mod]

theorem setFld_eq (n hi lo v : Nat) : setFld n hi lo v =
    2 ^ lo * (2 ^ (hi + 1 - lo) * (n / 2 ^ lo / 2 ^ (hi + 1 - lo)) + v % 2 ^ (hi + 1 - lo)) + n % 2 ^ lo := by
  have h := split_fld n hi lo
  rw [Nat.mul_add] at h ⊢
  have hf : fld n hi lo * 2 ^ lo = 2 ^ lo * fld n hi lo := Nat.mul_comm _ _
  have hv : v % 2 ^ (hi + 1 - lo) * 2 ^ lo = 2 ^ lo * (v % 2 ^ (hi + 1 - lo)) := Nat.mul_comm _ _
  rw [setFld, hf, hv]
  omega

/-- The bits of a number in which a field was replaced. -/
theorem testBit_setFld {n hi lo v : Nat} (h : lo ≤ hi) (i : Nat) : (setFld n hi lo v).testBit i =
    if lo ≤ i ∧ i ≤ hi then v.testBit (i - lo) else n.testBit i := by
  have hlow : n % 2 ^ lo < 2 ^ lo := Nat.mod_lt _ (Nat.two_pow_pos lo)
  have hval : v % 2 ^ (hi + 1 - lo) < 2 ^ (hi + 1 - lo) := Nat.mod_lt _ (Nat.two_pow_pos _)
  rw [setFld_eq, Nat.testBit_two_pow_mul_add _ hlow]
  by_cases h1 : i < lo
  · rw [if_pos h1, if_neg (by omega), Nat.testBit_mod_two_pow, decide_eq_true h1, Bool.true_and]
  · rw [if_neg h1, Nat.testBit_two_pow_mul_add _ hval]
    by_cases h2 : i ≤ hi
    · rw [if_pos (by omega), if_pos ⟨by omega, h2⟩, Nat.testBit_mod_two_pow, decide_eq_true (by omega), Bool.true_and]
    · rw [if_neg (by omega), if_neg (by omega), Nat.testBit_div_two_pow, Nat.testBit_div_two_pow]
      congr 1
      omega

/-- A field that does not meet the replaced one is as before. -/
theorem fld_setFld_ne {n hi lo v hi' lo' : Nat} (h : lo ≤ hi) (hd : hi < lo' ∨ hi' < lo) :
    fld (setFld n hi lo v) hi' lo' = fld n hi' lo' := by
  refine Nat.eq_of_testBit_eq fun i => ?_
  rw [testBit_fld, testBit_fld, testBit_setFld h]
  by_cases hi : i < hi' + 1 - lo'
  · rw [if_neg (by omega)]
  · rw [decide_eq_false hi, Bool.false_and, Bool.false_and]

/-- A field of a word is not cut by the word's width. -/
theorem fld_toNat_ofNat {hi : Nat} (hhi : hi < 32) (n lo : Nat) : fld (BitVec.ofNat 32 n).toNat hi lo = fld n hi lo := by
  refine Nat.eq_of_testBit_eq fun i => ?_
  rw [testBit_fld, testBit_fld, BitVec.toNat_ofNat, Nat.testBit_mod_two_pow]
  by_cases hi : i < hi + 1 - lo
  · rw [decide_eq_true (show lo + i < 32 by omega), Bool.true_and]
  · rw [decide_eq_false hi, Bool.false_and, Bool.false_and]

theorem fld_lt (n hi lo : Nat) : fld n hi lo < 2 ^ (hi + 1 - lo) := Nat.mod_lt _ (Nat.two_pow_pos _)

section
variable (s : State) (a : Nat) {hi lo : Nat} (v : Nat)

theorem State.regF_setReg_self (w : Word) : (s.setReg a w).regF a hi lo = fld w.toNat hi lo := by
  rw [State.regF, State.reg_setReg_self]

theorem State.regF_setReg_ne (w : Word) {b : Nat} (h : b ≠ a) (hi lo : Nat) :
    (s.setReg a w).regF b hi lo = s.regF b hi lo := by
  rw [State.regF, State.reg_setReg_ne _ _ _ _ h, State.regF]

/-- A field that was written reads back, up to its width. -/
theorem State.regF_setRegF_self (hhi : hi < 32) : (s.setRegF a hi lo v).regF a hi lo = v % 2 ^ (hi + 1 - lo) := by
  rw [State.setRegF, State.regF_setReg_self, fld_toNat_ofNat hhi, fld_setFld]

/-- A field that does not meet the written one is as before. -/
theorem State.regF_setRegF_ne {hi' lo' : Nat} (hhi : hi' < 32) (h : lo ≤ hi) (hd : hi < lo' ∨ hi' < lo) :
    (s.setRegF a hi lo v).regF a hi' lo' = s.regF a hi' lo' := by
  rw [State.setRegF, State.regF_setReg_self, fld_toNat_ofNat hhi, fld_setFld_ne h hd, State.regF]

theorem State.regF_setRegF_of_ne {b : Nat} (h : b ≠ a) (hi' lo' : Nat) :
    (s.setRegF a hi lo v).regF b hi' lo' = s.regF b hi' lo' := s.regF_setReg_ne a _ h _ _

end

theorem State.regF_lt (s : State) (a hi lo : Nat) : s.regF a hi lo < 2 ^ (hi + 1 - lo) := fld_lt _ _ _

end Sys2Proof.Machine
end

section
/-! SUPPORT. Islands that enter and leave reset, and a stage core's change of clock (R25, R27, R148, R446). -/

namespace Sys2Proof.Machine

open Sys2Proof

/-- The same islands are in reset, and the same are ready. -/
def SameService (s t : State) : Prop :=
  ∀ i, (t.island i).inReset = (s.island i).inReset ∧ (t.island i).ready = (s.island i).ready

theorem SameService.refl (s : State) : SameService s s := fun _ => ⟨rfl, rfl⟩

theorem SameService.trans {s t u : State} (h : SameService s t) (g : SameService t u) : SameService s u :=
  fun i => ⟨(g i).1.trans (h i).1, (g i).2.trans (h i).2⟩

theorem SameService.foldl {α : Type} {f : State → α → State} (h : ∀ s a, SameService s (f s a)) (l : List α)
    (s : State) : SameService s (l.foldl f s) := by
  induction l generalizing s with
  | nil => exact SameService.refl s
  | cons a l ih => exact (h s a).trans (ih (f s a))

theorem Sends.sameService {s t : State} (h : Sends s t) : SameService s t := fun i => ⟨h.inReset i, h.ready i⟩

theorem sends_countResync (s : State) (i : Nat) : Sends s (s.countResync i) := by
  unfold State.countResync
  split
  · exact sends_setRegF s _ _ _ _
  · exact Sends.refl s

theorem sameService_settleIsland (s : State) (i : Nat) : SameService s (s.settleIsland i) := by
  unfold State.settleIsland
  extract_lets x own nbrs t
  split
  · exact SameService.refl s
  · have ht : SameService s t := (Sends.foldl (fun s _ => sends_countResync s i) _ s).sameService
    intro j
    by_cases hj : j = i
    · subst hj
      rw [State.island_setIsland_self]
      exact ⟨rfl, rfl⟩
    · rw [State.island_setIsland_ne _ _ _ _ hj]
      exact ht j

theorem sameService_releaseHeld (s : State) (c : Nat) : SameService s (s.releaseHeld c) := by
  unfold State.releaseHeld
  extract_lets k
  split <;> exact SameService.refl _

theorem sameService_releaseXfer (s : State) : SameService s s.releaseXfer := by
  unfold State.releaseXfer
  exact SameService.trans (t := { s with xfer := _ }) (SameService.refl s)
    (Sends.foldl (fun s x => sends_linkSend s _ _) _ _).sameService

/-- An island that comes back is ready and out of reset. -/
def Island.back (x : Island) : Island := { x with inReset := false, ready := true }

theorem State.island_foldl_back {is : List Nat} {i : Nat} (hi : i ∈ is) (s : State) :
    ((is.foldl (fun s i => s.setIsland i (s.island i).back) s).island i).ready = true ∧
      ((is.foldl (fun s i => s.setIsland i (s.island i).back) s).island i).inReset = false := by
  suffices h : ∀ s : State, (s.island i).back = s.island i ∨ i ∈ is →
      ((is.foldl (fun s i => s.setIsland i (s.island i).back) s).island i).back =
        (is.foldl (fun s i => s.setIsland i (s.island i).back) s).island i by
    rw [← h s (.inr hi)]
    exact ⟨rfl, rfl⟩
  clear hi s
  induction is with
  | nil => exact fun s h => h.resolve_right List.not_mem_nil
  | cons j is ih =>
    intro s h
    refine ih _ ?_
    by_cases hj : i = j
    · subst hj
      left
      rw [State.island_setIsland_self]
      rfl
    · rw [State.island_setIsland_ne _ _ _ _ hj]
      exact h.imp_right fun hm => (List.mem_cons.mp hm).resolve_left hj

theorem State.island_rejoin {is : List Nat} {i : Nat} (hi : i ∈ is) (s : State) :
    ((s.rejoin is).island i).ready = true ∧ ((s.rejoin is).island i).inReset = false := by
  have hback := State.island_foldl_back hi s
  unfold State.rejoin
  extract_lets t u
  have ht : t = is.foldl (fun s i => s.setIsland i (s.island i).back) s := rfl
  have hu : SameService t u := SameService.foldl sameService_settleIsland _ t
  have hend : SameService t ((List.range 54).foldl State.releaseHeld u).releaseMsgs.releaseXfer :=
    ((hu.trans (SameService.foldl sameService_releaseHeld _ u)).trans
      (SameService.trans (t := State.releaseMsgs _) (SameService.refl _) (SameService.refl _))).trans
      (sameService_releaseXfer _)
  rw [(hend i).1, (hend i).2, ht]
  exact hback

/-- An island that leaves reset is ready (R27). -/
theorem State.island_leaveReset (s : State) (i : Nat) :
    ((s.leaveReset i).island i).ready = true ∧ ((s.leaveReset i).island i).inReset = false := by
  unfold State.leaveReset
  split
  · exact State.island_rejoin (List.mem_singleton_self i) _
  · split
    · exact State.island_rejoin List.mem_cons_self _
    · exact State.island_rejoin (List.mem_singleton_self i) _

/-! ### Entering reset -/

/-- A neighbour's note does not reach an island that is in reset. -/
theorem State.island_noteReset_of_inReset (s : State) (j : Nat) {i : Nat} (h : (s.island i).inReset = true) :
    (s.noteReset j).island i = s.island i := by
  unfold State.noteReset
  induction neighbours j generalizing s with
  | nil => rfl
  | cons k ks ih =>
    rw [List.foldl_cons]
    extract_lets x
    by_cases hk : k < 62 ∧ x.inReset = false
    · rw [if_pos hk]
      have hne : i ≠ k := fun he => by
        subst he
        exact Bool.noConfusion (h.symm.trans hk.2)
      rw [ih _ (by rw [State.island_setIsland_ne _ _ _ _ hne]; exact h), State.island_setIsland_ne _ _ _ _ hne]
    · rw [if_neg hk]
      exact ih s h

theorem State.island_foldl_reset {is : List Nat} {i : Nat} (s : State)
    (h : s.island i = Island.reset ∨ i ∈ is) :
    (is.foldl (fun s j => (s.noteReset j).setIsland j Island.reset) s).island i = Island.reset := by
  induction is generalizing s with
  | nil => exact h.resolve_right List.not_mem_nil
  | cons j is ih =>
    refine ih _ ?_
    by_cases hj : i = j
    · exact .inl (by rw [hj, State.island_setIsland_self])
    · rw [State.island_setIsland_ne _ _ _ _ hj]
      refine h.imp (fun hr => ?_) fun hm => (List.mem_cons.mp hm).resolve_left hj
      rw [State.island_noteReset_of_inReset s j (by rw [hr]; rfl), hr]

theorem State.island_enterReset (s : State) (i : Nat) (off : Bool) : (s.enterReset i off).island i = Island.reset :=
  State.island_foldl_reset _ (.inr List.mem_cons_self)

theorem State.core_noteReset (s : State) (j c : Nat) : (s.noteReset j).core c = s.core c := by
  unfold State.noteReset
  induction neighbours j generalizing s with
  | nil => rfl
  | cons k ks ih =>
    rw [List.foldl_cons, ih]
    extract_lets x
    split <;> rfl

theorem State.core_foldl_reset (is : List Nat) (s : State) (c : Nat) :
    (is.foldl (fun s j => (s.noteReset j).setIsland j Island.reset) s).core c = s.core c := by
  induction is generalizing s with
  | nil => rfl
  | cons j is ih => rw [List.foldl_cons, ih, State.core_setIsland, State.core_noteReset]

theorem OnlyRegs.core {s t : State} (h : OnlyRegs s t) (c : Nat) : t.core c = s.core c :=
  (congrArg (State.core · c) h : t.core c = { s with regs := t.regs }.core c)

theorem State.core_resetEvc (s : State) (b c : Nat) : (s.resetEvc b).core c = s.core c :=
  (OnlyRegs.foldl (fun s a => onlyRegs_setReg s a (regReset a)) _ s).core c

/-- Of a stage core that enters reset only what a reset keeps is left (R27, R148). -/
theorem State.core_enterReset (s : State) {c : Nat} (hc : c < 54) :
    (s.enterReset c false).core c = ((s.dropMsgs c).resetCore c).core c := by
  have hfold (l : List Nat) (s : State) : (l.foldl (fun s a => s.setReg a (regReset a)) s).core c = s.core c :=
    (OnlyRegs.foldl (fun s a => onlyRegs_setReg s a (regReset a)) l s).core c
  have hnote (s : State) : s.noteTherm.core c = s.core c := State.core_setRegF s _ _ _ _ c
  simp only [State.enterReset, if_pos hc, if_pos (show c < 62 by omega), Bool.false_eq_true, if_false,
    State.core_foldl_reset, State.core_resetEvc, hfold, hnote]

theorem State.core_resetCore (s : State) (c : Nat) : (s.resetCore c).core c =
    { CoreSt.reset with held := (s.core c).held, nextId := (s.core c).nextId, setClk := (s.core c).setClk,
                        volt := (s.core c).volt, failed := (s.core c).failed, retired := (s.core c).retired } :=
  State.core_setCore_self _ _ _

theorem exec_clockChange {c : Core} {s : State} {f : Nat} (hdue : (s.core c).clkDue = some f) (hp : s.pstate c = 0)
    (hd : (s.core c).droop = false) (ht : (s.core c).thermGated = false) :
    exec (.clockChange c) s = .next ((s.setCore c ((s.core c).stepClock (c / 9) f)).setRegF
      (Reg.CORE_ISLAND_STAT c) 23 16 f) := by
  show execClockChange c s = _
  simp only [execClockChange, hdue, if_pos (And.intro hp (And.intro hd ht))]

/-- Settles O13: a reset empties an island, resynchronization brings it back, a due clock change takes effect. -/
theorem islandsResetAndRun : Obligations.IslandsResetAndRun := by
  unfold Obligations.IslandsResetAndRun
  refine ⟨fun i s => ⟨⟨s.enterReset i false, rfl, s.island_enterReset i false, fun hi => ?_⟩, fun hr hk => ?_⟩,
    fun c s f hdue hp hd ht => ?_⟩
  · rw [s.core_enterReset hi, State.core_resetCore]
    exact ⟨rfl, rfl, rfl, rfl, rfl, rfl, rfl, rfl, rfl, rfl, rfl⟩
  · refine ⟨s.leaveReset i, ?_, rfl, s.island_leaveReset i⟩
    show Host.Outcome.next (if (s.island i).ready || s.keptInReset i then s else s.leaveReset i) = _
    rw [hr, hk, Bool.false_or, if_neg Bool.false_ne_true]
  · refine ⟨_, exec_clockChange hdue hp hd ht, ?_, fun d hd => ?_, ?_, fun a ha => ?_, rfl⟩
    · rw [State.core_setRegF, State.core_setCore_self]
      rfl
    · rw [State.core_setRegF, State.core_setCore_ne _ _ _ _ hd]
    · exact State.regF_setRegF_self _ _ _ (by decide)
    · rw [State.reg_setRegF_ne _ _ _ _ _ _ ha, State.reg_setCore]

end Sys2Proof.Machine
end

section
/-! SUPPORT. The control packets of a stage core (R191 to R193), and step-begins (R31). -/

namespace Sys2Proof.Machine

open Sys2Proof

/-! ### Writes of one core -/

theorem SMap.erase_insert_erase {α : Type} (m : SMap α) (k : Nat) (v : α) :
    SMap.erase (SMap.insert (SMap.erase m k) k v) k = SMap.erase m k := by
  suffices h : ∀ l : SMap α, (∀ e ∈ l, e.1 ≠ k) → SMap.erase (SMap.insert l k v) k = l from
    h _ fun e he => by simpa using (List.mem_filter.mp he).2
  intro l
  induction l with
  | nil => simp [SMap.insert, SMap.erase]
  | cons e l ih =>
    intro hl
    have hrest : l.filter (fun e => e.1 != k) = l :=
      List.filter_eq_self.mpr fun x hx => by simpa using hl x (List.mem_cons_of_mem _ hx)
    have he : e.1 ≠ k := hl e List.mem_cons_self
    have htail := ih fun x hx => hl x (List.mem_cons_of_mem _ hx)
    simp only [SMap.erase] at htail ⊢
    simp only [SMap.insert]
    split
    · simp [he, hrest]
    · simp [he, htail]

/-- Of two writes of one key the later one stays. -/
theorem SMap.set_set {α : Type} [DecidableEq α] (d : Nat → α) (m : SMap α) (k : Nat) (v w : α) :
    SMap.set d (SMap.set d m k v) k w = SMap.set d m k w := by
  have herase : SMap.erase (SMap.set d m k v) k = SMap.erase m k := by
    unfold SMap.set
    split
    · simp [SMap.erase, List.filter_filter]
    · exact SMap.erase_insert_erase m k v
  rw [SMap.set, herase, SMap.set]

theorem State.setCore_setCore (s : State) (c : Nat) (v w : CoreSt) :
    (s.setCore c v).setCore c w = s.setCore c w := by
  simp only [State.setCore, SMap.set_set]

/-- A write of a core and one of a register come in either order. -/
theorem State.setReg_setCore (s : State) (c a : Nat) (v : CoreSt) (w : Word) :
    (s.setCore c v).setReg a w = (s.setReg a w).setCore c v := rfl

/-! ### The next control command -/

/-- The core once a packet of n words has left its `CMDQ`. -/
def CoreSt.pop (k : CoreSt) (n : Nat) : CoreSt := ({ k with cmdq := k.cmdq.drop n } : CoreSt).pull

theorem State.popCmd_eq (s : State) (c n : Nat) : s.popCmd c n = s.setCore c ((s.core c).pop n) := rfl

theorem State.core_popCmd_self (s : State) (c n : Nat) : (s.popCmd c n).core c = (s.core c).pop n :=
  State.core_setCore_self _ _ _

section
variable {s : State} {c : Core} {q : List CmdWord} (h : s.TakesControl c q)
include h

/-- What the sequencer does with the control packet that it takes. -/
theorem State.control_of_takes {p : Nat → Bool} (hp : p (pktOp q) = true) (bad : Bool)
    (f : State → List CmdWord → State) :
    s.control c bad p f = if bad then s.ctrlPoison c q else f (s.popCmd c q.length) q := by
  obtain ⟨hruns, hcur, hprev, hseg, hroom, hpkt⟩ := h
  have hgo : (s.coreRuns c && (s.core c).cur.isNone && (s.core c).prev.isNone && (s.core c).seg.isNone &&
      (s.core c).cplRoom) = true := by
    simp [hruns, hcur, hprev, hseg, CoreSt.cplRoom, hroom]
  simp only [State.control, if_pos hgo, hpkt, if_pos hp]

theorem exec_idleItem {l : List Bool} (ho : pktOp q = 0) : exec (.idleItem ⟨c, l⟩) s =
    .next (if l.any id then s.ctrlPoison c q else s.popCmd c q.length) := by
  show Host.Outcome.next (s.control c _ _ _) = _
  rw [State.control_of_takes h (by simp [ho])]
  rfl

theorem exec_stepBegin (bad : Bool) (ho : pktOp q = 1) : exec (.stepBegin c bad) s =
    .next (if bad then s.ctrlPoison c q else ((s.popCmd c q.length).islandStep c (BitVec.ofNat 32
      (pktF q 63 32))).addLogBy c evBeginReceived (pktF q 63 32) s.ctl.beginCause) := by
  show Host.Outcome.next (s.control c _ _ _) = _
  rw [State.control_of_takes h (by simp [ho])]
  rfl

theorem exec_stageBind (bad : Bool) (ho : pktOp q = 3) : exec (.stageBind c bad) s =
    .next (if bad then s.ctrlPoison c q else ((s.setReg (Reg.SEQ_STAGE c) (stageWord (pktF q 31 16))).setCore c
      { (s.core c).pop q.length with
        bind := some { stage := BitVec.ofNat 16 (pktF q 31 16), base := pktF q 79 32,
                       nfwd := pktF q 95 80, nbwd := pktF q 111 96, neval := pktF q 127 112 } })) := by
  show Host.Outcome.next (s.control c _ _ _) = _
  rw [State.control_of_takes h (by simp [ho]), State.popCmd_eq, State.core_setCore_self, State.setReg_setCore,
    State.setCore_setCore]

theorem exec_stageUnbind (bad : Bool) (ho : pktOp q = 4) : exec (.stageUnbind c bad) s =
    .next (if bad then s.ctrlPoison c q else
      (s.setReg (Reg.SEQ_STAGE c) 0).setCore c { (s.core c).pop q.length with bind := none }) := by
  show Host.Outcome.next (s.control c _ _ _) = _
  rw [State.control_of_takes h (by simp [ho]), State.popCmd_eq, State.core_setCore_self, State.setReg_setCore,
    State.setCore_setCore]

/-- The answer to a control packet that is refused (R193). -/
def State.refuseControl (s : State) (c : Nat) (n op id pkt : Nat) : State :=
  ((s.popCmd c n).writeCpl c (cplWord op 4 1 0xF id pkt Flags.clear)).noteRefusal c ctlErr op 0xFF

/-- The segment that `MB_BEGIN` begins. -/
def mbSegment (q : List CmdWord) : Segment :=
  { phase := pktF q 9 8, mb := BitVec.ofNat 32 (pktF q 63 32), replay := decide (pktF q 12 12 = 1), pkt := 0,
    flags := Flags.clear }

/-- The core once `MB_BEGIN` has begun a segment. -/
def CoreSt.mbBegun (k : CoreSt) (q : List CmdWord) (now : Nat) : CoreSt :=
  { k.pop q.length with seg := some (mbSegment q), progress := now }

theorem exec_mbBegin_bad (ho : pktOp q = 2) : exec (.mbBegin c true) s = .next (s.ctrlPoison c q) := by
  show Host.Outcome.next (s.control c _ _ _) = _
  rw [State.control_of_takes h (by simp [ho])]
  rfl

/-- `MB_BEGIN` with a stage and a phase begins the segment, and logs the input that a later stage takes. -/
theorem exec_mbBegin {b : Binding} (ho : pktOp q = 2) (hb : (s.core c).bind = some b) (hph : pktF q 9 8 ≠ 3) :
    exec (.mbBegin c false) s = .next (if pktF q 9 8 = 0 ∧ b.stage ≠ 0 then
      (s.setCore c ((s.core c).mbBegun q s.now)).addLogBy c evInput
        (phaseArg 0 (pktF q 63 32) (decide (pktF q 12 12 = 1)))
        ((s.setCore c ((s.core c).mbBegun q s.now)).phaseCause c (b.stage.toNat - 1) 0 (pktF q 63 32))
      else s.setCore c ((s.core c).mbBegun q s.now)) := by
  have hbind : ((s.popCmd c q.length).core c).bind = some b := by rw [State.core_popCmd_self]; exact hb
  show Host.Outcome.next (s.control c _ _ _) = _
  rw [State.control_of_takes h (by simp [ho]), if_neg Bool.false_ne_true]
  simp only [hbind, if_neg hph]
  have hpop : ((s.core c).pop q.length).bind = some b := hb
  rw [State.popCmd_eq, State.core_setCore_self, State.setCore_setCore]
  simp only [CoreSt.mbBegun, mbSegment, hpop]
  rfl

/-- `MB_BEGIN` without a stage, or with the reserved phase, is refused. -/
theorem exec_mbBegin_refused (ho : pktOp q = 2) (hb : ∀ b, (s.core c).bind = some b → pktF q 9 8 = 3) :
    exec (.mbBegin c false) s = .next (s.refuseControl c q.length 2 (pktF q 63 32)
      (match (s.core c).bind with
        | some b => b.stage.toNat
        | none => 0xFFFF)) := by
  have hbind : ((s.popCmd c q.length).core c).bind = (s.core c).bind := by rw [State.core_popCmd_self]; rfl
  show Host.Outcome.next (s.control c _ _ _) = _
  rw [State.control_of_takes h (by simp [ho]), if_neg Bool.false_ne_true]
  cases hs : (s.core c).bind with
  | none => simp only [hbind, hs, State.refuseControl]
  | some b => simp only [hbind, hs, if_pos (hb b hs), State.refuseControl]

theorem exec_cmdqReservedOpcode (bad : Bool) (ho : 4 < pktOp q ∧ (pktOp q < 0x10 ∨ 0x19 < pktOp q)) :
    exec (.cmdqReservedOpcode c bad) s = .next (if bad then s.ctrlPoison c q
      else s.refuseControl c q.length (pktOp q) (pktF q 47 32) 0xFFFF) := by
  have hseg : (s.core c).seg = none := by
    obtain ⟨-, -, -, hseg, -⟩ := h
    exact hseg
  show Host.Outcome.next (if (s.core c).seg.isSome then _ else s.control c _ _ _) = _
  rw [hseg, Option.isSome_none, if_neg Bool.false_ne_true, State.control_of_takes h (by simp [noMop, ho])]
  rfl

end

end Sys2Proof.Machine
end

section
/-! SUPPORT. Step-begins, and what the control packets leave (R31, R32, R192). -/

namespace Sys2Proof.Machine

open Sys2Proof

theorem State.island_addLogBy_self (s : State) (i name arg : Nat) (cause : Option Cause) :
    (s.addLogBy i name arg cause).island i = { s.island i with seq := min ((s.island i).seq + 1) 0xFFFFFF } :=
  State.island_setIsland_self s i _

theorem State.core_addLogBy (s : State) (i name arg : Nat) (cause : Option Cause) (c : Nat) :
    (s.addLogBy i name arg cause).core c = s.core c := rfl

theorem State.ctl_addLogBy (s : State) (i name arg : Nat) (cause : Option Cause) :
    (s.addLogBy i name arg cause).ctl = s.ctl := rfl

theorem State.log_addLogBy (s : State) (i name arg : Nat) (cause : Option Cause) :
    (s.addLogBy i name arg cause).log = s.log ++ [⟨s.stamp i, BitVec.ofNat 16 name, BitVec.ofNat 32 arg, cause⟩] := rfl

/-- A step-begin gives the island its step number and starts its sequence number again. -/
theorem State.island_islandStep_self (s : State) (i : Nat) (k : Word) :
    (s.islandStep i k).island i = { s.island i with step := k, seq := 0 } := by
  unfold State.islandStep
  extract_lets +onlyGivenNames t
  have ht : t.island i = s.island i := by
    unfold t
    split
    · exact (onlyRegs_evcSnap s i 2).island i
    · rfl
  rw [State.island_setIsland_self, ht]

theorem State.core_islandStep (s : State) (i c : Nat) (k : Word) : (s.islandStep i k).core c = s.core c := by
  unfold State.islandStep
  extract_lets +onlyGivenNames t
  have ht : t.core c = s.core c := by
    unfold t
    split
    · exact (onlyRegs_evcSnap s i 2).core c
    · rfl
  rw [State.core_setIsland, ht]

theorem OnlyRegs.ctl {s t : State} (h : OnlyRegs s t) : t.ctl = s.ctl := by rw [h]

theorem State.ctl_islandStep (s : State) (i : Nat) (k : Word) : (s.islandStep i k).ctl = s.ctl := by
  unfold State.islandStep
  extract_lets +onlyGivenNames t
  show t.ctl = s.ctl
  unfold t
  split
  · exact (onlyRegs_evcSnap s i 2).ctl
  · rfl

/-- The island after a step-begin and the event of its receipt (R32). -/
theorem State.island_stepReceived (s : State) (i : Nat) (k : Word) (name arg : Nat) (cause : Option Cause) :
    ((s.islandStep i k).addLogBy i name arg cause).island i = { s.island i with step := k, seq := 1 } := by
  rw [State.island_addLogBy_self, State.island_islandStep_self]
  rfl

theorem exec_islandStepBegin {i : Isl} {s : State} {m : IslMsg}
    (hm : (s.ctl.islMsgs.find? fun m => m.isl == i.val) = some m) : exec (.islandStepBegin i) s =
      .next (if s.islandPath i then
        (({ s with ctl := { s.ctl with islMsgs := s.ctl.islMsgs.erase m } }).islandStep i m.step).addLogBy i
          evBeginReceived m.step.toNat s.ctl.beginCause
      else s) := by
  show execIslandStepBegin i s = _
  simp only [execIslandStepBegin, hm]
  split <;> rfl

theorem State.eq_update_of_eq {s t : State} {cs : SMap CoreSt} {is : SMap Island} {l : List LogEvent}
    (h : t = { s with cores := cs, islands := is, log := l }) :
    t = { s with cores := t.cores, islands := t.islands, log := t.log } := by
  subst h
  rfl

/-- A logged write of a core touches the cores, the islands' counters and the log. -/
theorem State.addLogBy_setCore_eq (s : State) (c : Nat) (v : CoreSt) (i name arg : Nat) (cause : Option Cause) :
    (s.setCore c v).addLogBy i name arg cause =
      { s with
        cores := (s.setCore c v).cores
        islands := ((s.setCore c v).bumpSeq i).islands
        log := ((s.setCore c v).addLogBy i name arg cause).log } := by
  simp only [State.addLogBy, State.bumpSeq, State.setIsland, State.setCore]

/-- Settles O14: what each control packet does with its core, and a step-begin with its island. -/
theorem controlPackets : Obligations.ControlPackets := by
  unfold Obligations.ControlPackets
  refine ⟨fun c s q k h hk => ?_, fun c s q h ho => ?_, fun i s m hm => ⟨fun hpath => ?_, fun hpath => ?_⟩⟩
  · rw [State.core_popCmd_self] at hk
    subst hk
    refine ⟨fun l hl ho => ?nop, fun ho => exec_stageBind h false ho, fun ho => exec_stageUnbind h false ho,
      fun b ho hb hph => ⟨_, exec_mbBegin h ho hb hph, ?_⟩⟩
    case nop =>
      rw [exec_idleItem h ho, hl]
      rfl
    by_cases hin : pktF q 9 8 = 0 ∧ b.stage ≠ 0
    · rw [if_pos hin]
      rw [State.core_addLogBy, State.core_setCore_self]
      refine ⟨rfl, fun _ => ⟨_, State.log_addLogBy .., rfl⟩, fun h => absurd hin h,
        State.eq_update_of_eq (State.addLogBy_setCore_eq s c _ _ _ _ _), fun d hd => ?_⟩
      rw [State.core_addLogBy, State.core_setCore_ne s c _ d hd]
    · rw [if_neg hin]
      refine ⟨State.core_setCore_self _ _ _, fun h => absurd h hin, fun _ => ?_, rfl, fun d hd => ?_⟩
      · rw [State.core_setCore_self]
      · exact State.core_setCore_ne s c _ d hd
  · have hcore : (((s.popCmd c q.length).islandStep c (BitVec.ofNat 32 (pktF q 63 32))).addLogBy c evBeginReceived
        (pktF q 63 32) s.ctl.beginCause).core c = (s.core c).pop q.length := by
      rw [State.core_addLogBy, State.core_islandStep, State.core_popCmd_self]
    refine ⟨_, exec_stepBegin h false ho, ?_⟩
    rw [if_neg Bool.false_ne_true, State.island_stepReceived, hcore]
    obtain ⟨-, hcur, -⟩ := h
    exact ⟨rfl, rfl, rfl, hcur, rfl⟩
  · refine ⟨_, exec_islandStepBegin hm, ?_⟩
    rw [if_pos hpath, State.island_stepReceived]
    exact ⟨rfl, rfl, (State.ctl_addLogBy _ _ _ _ _).trans (State.ctl_islandStep _ _ _)⟩
  · rw [exec_islandStepBegin hm, hpath, if_neg Bool.false_ne_true]

end Sys2Proof.Machine
end

section
/-! SUPPORT. Issue of an operation, and the answer to a packet that is refused (R193, R199). -/

namespace Sys2Proof.Machine

open Sys2Proof

/-! ### The registers and the completion words of a core -/

/-- A core's own registers lie outside the counter blocks. -/
theorem evcPlace_coreBase {c o : Nat} (hc : c < 54) (ho : o < 0xF000) : evcPlace (coreBase c + o) = none := by
  have hdie : (coreBase c + o) / 0x01000000 = c / 9 + 1 := by unfold coreBase; omega
  have hoff : (coreBase c + o) % 0x01000000 = 0x00100000 * (c % 9 + 1) + o := by unfold coreBase; omega
  have hin : (0x00100000 * (c % 9 + 1) + o) % 0x00100000 = o := by omega
  simp only [evcPlace, hdie, hoff, hin]
  rw [if_neg (by omega), if_pos (by omega), if_pos ho]

theorem SEQ_REFUSE_CNT_ne_LAST (c : Nat) : Reg.SEQ_REFUSE_CNT c ≠ Reg.SEQ_LAST_REFUSE c := by
  unfold Reg.SEQ_REFUSE_CNT Reg.SEQ_LAST_REFUSE
  omega

section
variable (s : State) (c : Nat) (w : BitVec 64)

theorem State.writeCpl_eq : s.writeCpl c w =
    s.setCore c { s.core c with cplq := (s.core c).cplq ++ [w], progress := s.now } := rfl

theorem State.core_writeCpl_self :
    (s.writeCpl c w).core c = { s.core c with cplq := (s.core c).cplq ++ [w], progress := s.now } :=
  State.core_setCore_self _ _ _

theorem State.core_writeCpl_ne {d : Nat} (hd : d ≠ c) : (s.writeCpl c w).core d = s.core d :=
  State.core_setCore_ne _ _ _ _ hd

theorem State.reg_writeCpl (a : Nat) : (s.writeCpl c w).reg a = s.reg a := rfl

end

section
variable (s : State) (c : Core) (e : IssueErr) (op pkt : Nat)

theorem sends_noteRefusal : Sends s (s.noteRefusal c e op pkt) :=
  ((sends_inc s _ _).trans (sends_setReg _ _ _)).trans (sends_count _ _ _ _ _)

theorem State.reg_noteRefusal_count : ((s.noteRefusal c e op pkt).reg (Reg.SEQ_REFUSE_CNT c)).toNat =
    min ((s.reg (Reg.SEQ_REFUSE_CNT c)).toNat + 1) 0xFFFFFFFF := by
  have ha : evcPlace (Reg.SEQ_REFUSE_CNT c) = none := evcPlace_coreBase c.isLt (by decide)
  rw [State.noteRefusal, State.reg_count _ _ _ _ _ _ ha (by omega), State.reg_setReg_ne _ _ _ _ (SEQ_REFUSE_CNT_ne_LAST c), State.inc, State.reg_setReg_self, toNat_satAdd]

theorem State.reg_noteRefusal_last :
    (s.noteRefusal c e op pkt).reg (Reg.SEQ_LAST_REFUSE c) = refuseWord e op pkt := by
  have ha : evcPlace (Reg.SEQ_LAST_REFUSE c) = none := evcPlace_coreBase c.isLt (by decide)
  rw [State.noteRefusal, State.reg_count _ _ _ _ _ _ ha (by omega), State.reg_setReg_self]

end

/-- Reports after a write of one core leave what neither touches. -/
theorem Reports.frame_setCore {s t : State} {c : Nat} {v : CoreSt} (h : Reports (s.setCore c v) t) :
    t = { s with cores := t.cores, regs := t.regs, islands := t.islands, links := t.links, log := t.log,
                 evtSeq := t.evtSeq, thrFired := t.thrFired } := by
  have hcores : t.cores = (s.setCore c v).cores := by rw [h]
  rw [hcores]
  exact h

/-! ### A control packet that is refused -/

theorem State.refuseControl_eq (s : State) (c n op id pkt : Nat) : s.refuseControl c n op id pkt =
    ((s.popCmd c n).writeCpl c (cplWord op 4 1 0xF id pkt Flags.clear)).noteRefusal c ctlErr op 0xFF := rfl

section
variable {s : State} {c : Core} {q : List CmdWord} (h : s.TakesControl c q) (op id pkt : Nat)

theorem sends_refuseControl (n : Nat) :
    Sends ((s.popCmd c n).writeCpl c (cplWord op 4 1 0xF id pkt Flags.clear)) (s.refuseControl c n op id pkt) :=
  sends_noteRefusal _ c _ _ _

/-- The core once a control packet is refused. -/
theorem State.core_refuseControl (n : Nat) : (s.refuseControl c n op id pkt).core c =
    { (s.core c).pop n with
      cplq := (s.core c).cplq ++ [cplWord op 4 1 0xF id pkt Flags.clear], progress := s.now } := by
  rw [(sends_refuseControl op id pkt n).reports.core, State.core_writeCpl_self, State.core_popCmd_self]
  rfl

theorem State.core_refuseControl_ne (n : Nat) {d : Nat} (hd : d ≠ c.val) :
    (s.refuseControl c n op id pkt).core d = s.core d := by
  rw [(sends_refuseControl op id pkt n).reports.core, State.core_writeCpl_ne _ _ _ hd, State.popCmd_eq,
    State.core_setCore_ne _ _ _ _ hd]

theorem State.mem_refuseControl (n : Nat) : (s.refuseControl c n op id pkt).mem = s.mem :=
  (sends_refuseControl op id pkt n).reports.mem

theorem State.ctl_refuseControl (n : Nat) : (s.refuseControl c n op id pkt).ctl = s.ctl :=
  (sends_refuseControl op id pkt n).reports.ctl

theorem State.reg_refuseControl_count (n : Nat) :
    ((s.refuseControl c n op id pkt).reg (Reg.SEQ_REFUSE_CNT c)).toNat =
      min ((s.reg (Reg.SEQ_REFUSE_CNT c)).toNat + 1) 0xFFFFFFFF :=
  State.reg_noteRefusal_count _ c _ _ _

theorem State.reg_refuseControl_last (n : Nat) :
    (s.refuseControl c n op id pkt).reg (Reg.SEQ_LAST_REFUSE c) = refuseWord ctlErr op 0xFF :=
  State.reg_noteRefusal_last _ c _ _ _

end

/-! ### An operation -/

/-- The core whose sequencer has taken a packet: the segment's next one, or n words of `CMDQ`. -/
def CoreSt.take (k : CoreSt) (n : Nat) : CoreSt :=
  match k.seg with
  | some g => { k with seg := some { g with pkt := g.pkt + 1 } }
  | none => k.pop n

theorem State.takeMop_eq (s : State) (c n : Nat) : s.takeMop c n = s.setCore c ((s.core c).take n) := by
  cases hseg : (s.core c).seg with
  | some g => simp only [State.takeMop, CoreSt.take, hseg]
  | none => simp only [State.takeMop, CoreSt.take, hseg, State.popCmd_eq]

theorem State.taken_eq (s : State) (c : Core) (n : Nat) :
    s.taken c n = s.setCore c { (s.core c).take n with verdict := none } := by
  rw [State.taken, State.takeMop_eq, State.core_setCore_self, State.setCore_setCore]

section
variable (k : CoreSt) (n : Nat)

theorem CoreSt.take_cplq : (k.take n).cplq = k.cplq := by unfold CoreSt.take; split <;> rfl
theorem CoreSt.take_cur : (k.take n).cur = k.cur := by unfold CoreSt.take; split <;> rfl
theorem CoreSt.take_prev : (k.take n).prev = k.prev := by unfold CoreSt.take; split <;> rfl
theorem CoreSt.take_tiles : (k.take n).tiles = k.tiles := by unfold CoreSt.take; split <;> rfl
theorem CoreSt.take_acc : (k.take n).acc = k.acc := by unfold CoreSt.take; split <;> rfl

end

/-- An operation's command asks the sequencer for its own opcode. -/
theorem exec_of_mopCode {i : Instr} {c : Core} {o : Nat} {bad : Bool} (h : mopCode i = some (c, o, bad)) (s : State) :
    exec i s = .next (s.issue c (· == o) bad) := by
  unfold mopCode at h
  split at h <;> cases h <;> rfl

theorem exec_reservedOpcode_of_seg {s : State} {c : Core} (bad : Bool) (h : (s.core c).seg.isSome = true) :
    exec (.cmdqReservedOpcode c bad) s = .next (s.issue c noMop bad) := by
  show Host.Outcome.next (if _ then _ else _) = _
  rw [if_pos h]

/-- What the verdict on a packet that is taken makes of it: it is refused, or it starts. -/
def State.judge (s : State) (c : Nat) (ws : List (BitVec 128)) (pkt : Nat) (v : Verdict) : State :=
  match v.err with
  | some e => if e.2 then (s.refuseMop c ws pkt e.1).lenPoisoned c else s.refuseMop c ws pkt e.1
  | none => s.startMop c ws v.lens pkt

section
variable {s : State} {c : Core} {ws : List (BitVec 128)} {pkt n : Nat} {lost : Bool} (p : Nat → Bool)
  (hp : p (mopOp ws) = true) (bad : Bool)
include hp

/-- What an idle core does with the next packet. -/
theorem State.issue_idle (hlink : s.coreLinked c = true) (hroom : (s.core c).cplq.length < 16)
    (hcur : (s.core c).cur = none) (hprev : (s.core c).prev = none)
    (hnext : s.nextMop c = some (ws, pkt, n, lost)) : s.issue c p bad =
      if bad && (s.core c).seg.isNone then s.ctrlPoison c ((s.core c).cmdq.take n)
      else if !lost && !s.mayIssue c ws (s.verdictOf c ws) then s
      else if lost then (s.taken c n).segFlags c { Flags.clear with poison := true }
      else (s.taken c n).judge c ws pkt (s.verdictOf c ws) := by
  have hgo : (s.coreLinked c && (s.core c).cplRoom && (s.core c).cur.isNone && (s.core c).prev.isNone) = true := by
    simp [hlink, CoreSt.cplRoom, hroom, hcur, hprev]
  unfold State.issue
  dsimp only
  rw [if_pos hgo, hnext]
  dsimp only
  rw [if_neg (by simp [hp])]
  rfl

/-- A packet that arrives poisoned outside a segment is one from `CMDQ`, and is discarded. -/
theorem State.issue_discards (h : s.TakesMop c ws pkt n) (hseg : (s.core c).seg = none) :
    s.issue c p true = s.ctrlPoison c ((s.core c).cmdq.take n) := by
  obtain ⟨hlink, hroom, hcur, hprev, hnext, -⟩ := h
  rw [State.issue_idle p hp true hlink hroom hcur hprev hnext, hseg]
  rfl

omit hp in
theorem State.Arrives.not_discarded {bad : Bool} (ha : s.Arrives c bad) :
    ¬(bad && (s.core c).seg.isNone) = true := by
  rcases ha with rfl | hseg
  · exact Bool.false_ne_true
  · simp [← Option.not_isSome, hseg]

/-- A packet of the stage's stream that arrives poisoned poisons its segment (log entry 34). -/
theorem State.issue_lost (hlink : s.coreLinked c = true) (hroom : (s.core c).cplq.length < 16)
    (hcur : (s.core c).cur = none) (hprev : (s.core c).prev = none)
    (hnext : s.nextMop c = some (ws, pkt, n, true)) (ha : s.Arrives c bad) :
    s.issue c p bad = (s.taken c n).segFlags c { Flags.clear with poison := true } := by
  rw [State.issue_idle p hp bad hlink hroom hcur hprev hnext, if_neg ha.not_discarded]
  rfl

variable (h : s.TakesMop c ws pkt n) (ha : s.Arrives c bad)
include h ha

/-- The verdict on a packet that is taken decides between its refusal and its start. -/
theorem State.issue_of_takes : s.issue c p bad = (s.taken c n).judge c ws pkt (s.verdictOf c ws) := by
  obtain ⟨hlink, hroom, hcur, hprev, hnext, hmay⟩ := h
  rw [State.issue_idle p hp bad hlink hroom hcur hprev hnext, if_neg ha.not_discarded, hmay]
  rfl

theorem State.issue_refuses {e : IssueErr} {b : Bool} (he : (s.verdictOf c ws).err = some (e, b)) :
    s.issue c p bad = if b then ((s.taken c n).refuseMop c ws pkt e).lenPoisoned c
      else (s.taken c n).refuseMop c ws pkt e := by
  rw [State.issue_of_takes p hp bad h ha, State.judge, he]

theorem State.issue_starts (he : (s.verdictOf c ws).err = none) :
    s.issue c p bad = (s.taken c n).startMop c ws (s.verdictOf c ws).lens pkt := by
  rw [State.issue_of_takes p hp bad h ha, State.judge, he]

end

section
variable (s : State) (c : Core) (n : Nat) (ws : List (BitVec 128)) (pkt : Nat) (e : IssueErr)

/-- The completion word of an operation that is refused. -/
def refusalWord (ws : List (BitVec 128)) (pkt : Nat) (e : IssueErr) : BitVec 64 :=
  cplWord (mopOp ws) e.1 e.2.1 e.2.2 (mopId ws) pkt Flags.clear

theorem sends_refuseMop : Sends (s.writeCpl c (refusalWord ws pkt e)) (s.refuseMop c ws pkt e) :=
  (sends_noteRefusal _ c _ _ _).trans (sends_logNamed _ _ _ _)

theorem State.refuseMop_log : ∃ ev, (s.refuseMop c ws pkt e).log =
      ((s.writeCpl c (refusalWord ws pkt e)).noteRefusal c e (mopOp ws) pkt).log ++ [ev] ∧
    ev.name = 0x0201 ∧ ev.arg = BitVec.ofNat 32 (mopId ws) := ⟨_, rfl, rfl, rfl⟩

theorem State.reg_refuseMop_count : ((s.refuseMop c ws pkt e).reg (Reg.SEQ_REFUSE_CNT c)).toNat =
    min ((s.reg (Reg.SEQ_REFUSE_CNT c)).toNat + 1) 0xFFFFFFFF := by
  have ha : evcPlace (Reg.SEQ_REFUSE_CNT c) = none := evcPlace_coreBase c.isLt (by decide)
  rw [State.refuseMop, State.reg_logNamed _ _ _ _ _ ha, State.reg_noteRefusal_count, State.reg_writeCpl]

theorem State.reg_refuseMop_last :
    (s.refuseMop c ws pkt e).reg (Reg.SEQ_LAST_REFUSE c) = refuseWord e (mopOp ws) pkt := by
  have ha : evcPlace (Reg.SEQ_LAST_REFUSE c) = none := evcPlace_coreBase c.isLt (by decide)
  rw [State.refuseMop, State.reg_logNamed _ _ _ _ _ ha, State.reg_noteRefusal_last]

/-- What the refusal of an operation leaves, and what it says. -/
structure Refused (t : State) : Prop where
  core : t.core c = { (s.core c).take n with
    verdict := none, cplq := (s.core c).cplq ++ [refusalWord ws pkt e], progress := s.now }
  others : ∀ d, d ≠ c.val → t.core d = s.core d
  count : (t.reg (Reg.SEQ_REFUSE_CNT c)).toNat = min ((s.reg (Reg.SEQ_REFUSE_CNT c)).toNat + 1) 0xFFFFFFFF
  last : t.reg (Reg.SEQ_LAST_REFUSE c) = refuseWord e (mopOp ws) pkt
  log : ∃ l ev, t.log = l ++ [ev] ∧ ev.name = 0x0201 ∧ ev.arg = BitVec.ofNat 32 (mopId ws)
  frame : t = { s with cores := t.cores, regs := t.regs, islands := t.islands, links := t.links, log := t.log,
                       evtSeq := t.evtSeq, thrFired := t.thrFired }

theorem Refused.cplq {t : State} {s : State} {c : Core} {n : Nat} {ws : List (BitVec 128)} {pkt : Nat} {e : IssueErr}
    (h : Refused s c n ws pkt e t) : (t.core c).cplq = (s.core c).cplq ++ [refusalWord ws pkt e] := by rw [h.core]

theorem Refused.mem {t : State} {s : State} {c : Core} {n : Nat} {ws : List (BitVec 128)} {pkt : Nat} {e : IssueErr}
    (h : Refused s c n ws pkt e t) : t.mem = s.mem := by rw [h.frame]

theorem refused_refuseMop : Refused s c n ws pkt e ((s.taken c n).refuseMop c ws pkt e) := by
  have hs := sends_refuseMop (s.taken c n) c ws pkt e
  rw [State.taken_eq] at hs ⊢
  refine ⟨?_, fun d hd => ?_, ?_, State.reg_refuseMop_last _ c ws pkt e, ?_, ?_⟩
  · rw [hs.reports.core, State.core_writeCpl_self, State.core_setCore_self, CoreSt.take_cplq]
    rfl
  · rw [hs.reports.core, State.core_writeCpl_ne _ _ _ hd, State.core_setCore_ne _ _ _ _ hd]
  · rw [State.reg_refuseMop_count, State.reg_setCore]
  · exact ⟨_, State.refuseMop_log _ c ws pkt e⟩
  · have hr := hs.reports
    rw [State.writeCpl_eq, State.setCore_setCore] at hr
    exact hr.frame_setCore

end

/-- Settles O15: what a packet that is refused or discarded leaves. -/
theorem refusedPacketsHaveNoEffect : Obligations.RefusedPacketsHaveNoEffect := by
  unfold Obligations.RefusedPacketsHaveNoEffect
  refine ⟨fun c s q h => ⟨fun ho => ?reserved, fun ho hb => ?begin⟩, fun c s q h => ?bad, ?cmdq, ?lost, ?refused,
    fun c bad s ws pkt n ho hseg h hv hcs => ?static⟩
  case reserved =>
    obtain ⟨-, hcur, -, hseg, -⟩ := id h
    refine ⟨_, exec_cmdqReservedOpcode h false ho, ?_⟩
    rw [if_neg Bool.false_ne_true, State.core_refuseControl]
    exact ⟨rfl, hseg, hcur, rfl, State.reg_refuseControl_count .., State.reg_refuseControl_last ..,
      fun d hd => State.core_refuseControl_ne _ _ _ _ hd, State.mem_refuseControl .., State.ctl_refuseControl ..⟩
  case begin =>
    obtain ⟨-, hcur, -, hseg, -⟩ := id h
    refine ⟨_, exec_mbBegin_refused h ho hb, ?_⟩
    rw [State.core_refuseControl]
    exact ⟨rfl, State.reg_refuseControl_count .., State.reg_refuseControl_last .., hseg, hcur,
      fun d hd => State.core_refuseControl_ne _ _ _ _ hd, State.mem_refuseControl .., State.ctl_refuseControl ..⟩
  case bad =>
    exact ⟨fun l hl ho => by rw [exec_idleItem h ho, if_pos hl],
      fun ho => by rw [exec_stepBegin h true ho, if_pos rfl], exec_mbBegin_bad h,
      fun ho => by rw [exec_stageBind h true ho, if_pos rfl], fun ho => by rw [exec_stageUnbind h true ho, if_pos rfl],
      fun ho => by rw [exec_cmdqReservedOpcode h true ho, if_pos rfl]⟩
  case cmdq =>
    intro i c s ws pkt n hi h hseg
    rw [exec_of_mopCode hi, State.issue_discards (· == mopOp ws) (beq_self_eq_true _) h hseg]
  case lost =>
    intro i c bad s ws pkt n hi hlink hroom hcur hprev hnext ha
    rw [exec_of_mopCode hi, State.issue_lost (· == mopOp ws) (beq_self_eq_true _) bad hlink hroom hcur hprev hnext ha]
  case refused =>
    intro i c bad s ws pkt n e hi h ha
    obtain ⟨p, hp, hexec⟩ : ∃ p : Nat → Bool, p (mopOp ws) = true ∧ exec i s = .next (s.issue c p bad) := by
      rcases hi with hi | ⟨rfl, ho, hseg⟩
      · exact ⟨(· == mopOp ws), beq_self_eq_true _, exec_of_mopCode hi s⟩
      · exact ⟨_, ho, exec_reservedOpcode_of_seg bad hseg⟩
    refine ⟨fun he => ?_, fun he => ?_⟩
    · rw [hexec, State.issue_refuses p hp bad h ha he, if_pos rfl]
    · obtain ⟨-, -, hcur, hprev, -⟩ := id h
      have hr := refused_refuseMop s c n ws pkt e
      rw [hexec, State.issue_refuses p hp bad h ha he, if_neg Bool.false_ne_true]
      refine ⟨_, rfl, hr.cplq, hr.count, hr.last, hr.log, ?_, ?_, ?_, ?_, hr.others, hr.frame⟩ <;> rw [hr.core]
      · exact (CoreSt.take_cur _ _).trans hcur
      · exact (CoreSt.take_prev _ _).trans hprev
      · exact CoreSt.take_tiles _ _
      · exact CoreSt.take_acc _ _
  case static =>
    have he : (s.verdictOf c ws).err = some (ctlErr, false) := by
      simp [State.verdictOf, hv, State.checkIssue, hcs, ctlErr]
    obtain ⟨-, -, hcur, -⟩ := id h
    have hr := refused_refuseMop s c n ws pkt ctlErr
    rw [exec_reservedOpcode_of_seg bad hseg, State.issue_refuses noMop ho bad h (.inr hseg) he,
      if_neg Bool.false_ne_true]
    refine ⟨_, rfl, hr.cplq, hr.count, hr.last, hr.log, ?_, ?_, hr.mem⟩ <;> rw [hr.core]
    · exact (CoreSt.take_cur _ _).trans hcur
    · exact CoreSt.take_tiles _ _

end Sys2Proof.Machine
end

section
/-! SUPPORT. What a core's feeder changes on its own: the run in progress, the tiles' owners and the queues that it
fills ahead, and counts and events. Nothing of another core, of a die or of memory. -/

namespace Sys2Proof.Machine

open Sys2Proof

/-- Run n is run m further on: its packet, descriptors and lengths, what it has read and drained are the same. -/
def RunMop.Further (m n : RunMop) : Prop :=
  n = { m with groups := n.groups, grp := n.grp, toInit := n.toInit, toLoad := n.toLoad, toPack := n.toPack,
               tail := n.tail, drainQ := n.drainQ, metaPoison := n.metaPoison }

theorem RunMop.Further.refl (m : RunMop) : m.Further m := rfl

theorem RunMop.Further.trans {a b c : RunMop} (h : a.Further b) (g : b.Further c) : a.Further c := by
  unfold RunMop.Further at *
  rw [g, h]

/-- Core k' is core k but for the run in progress, the tiles' owners and the queues that are filled ahead. -/
def CoreSt.Ahead (k k' : CoreSt) : Prop :=
  k' = { k with cur := k'.cur, tiles := k'.tiles, aq := k'.aq, bq := k'.bq, ixq := k'.ixq }

theorem CoreSt.Ahead.trans {a b c : CoreSt} (h : a.Ahead b) (g : b.Ahead c) : a.Ahead c := by
  unfold CoreSt.Ahead at *
  rw [g, h]

/-- State t comes from s by work of core c's feeder. -/
structure Feeds (c : Nat) (s t : State) : Prop where
  core : (s.core c).Ahead (t.core c)
  others : ∀ d, d ≠ c → t.core d = s.core d
  die : ∀ d, t.die d = s.die d
  mem : t.mem = s.mem
  poison : t.poison = s.poison
  run : ∀ m, (s.core c).cur = some m → ∃ n, (t.core c).cur = some n ∧ m.Further n

namespace Feeds

variable {c : Nat} {s t u : State}

theorem of_reports (h : Reports s t) : Feeds c s t := by
  refine ⟨?_, fun d _ => h.core d, h.die, h.mem, h.poison, fun m hm => ⟨m, by rw [h.core c, hm], .refl m⟩⟩
  rw [h.core c]
  rfl

theorem refl (s : State) : Feeds c s s := of_reports (.refl s)

theorem trans (h : Feeds c s t) (g : Feeds c t u) : Feeds c s u where
  core := h.core.trans g.core
  others d hd := (g.others d hd).trans (h.others d hd)
  die d := (g.die d).trans (h.die d)
  mem := g.mem.trans h.mem
  poison := g.poison.trans h.poison
  run m hm := by
    obtain ⟨n, hn, hmn⟩ := h.run m hm
    obtain ⟨o, ho, hno⟩ := g.run n hn
    exact ⟨o, ho, hmn.trans hno⟩

theorem foldl {α : Type} {f : State → α → State} (h : ∀ s a, Feeds c s (f s a)) (l : List α) (s : State) :
    Feeds c s (l.foldl f s) := by
  induction l generalizing s with
  | nil => exact refl s
  | cons a l ih => exact (h s a).trans (ih (f s a))

theorem setCore {v : CoreSt} (h : (s.core c).Ahead v)
    (hrun : ∀ m, (s.core c).cur = some m → ∃ n, v.cur = some n ∧ m.Further n) : Feeds c s (s.setCore c v) := by
  refine ⟨?_, fun d hd => State.core_setCore_ne s c v d hd, fun _ => rfl, rfl, rfl, ?_⟩ <;>
    rw [State.core_setCore_self]
  · exact h
  · exact hrun

/-- The run in progress moves on. -/
theorem setRun {m n : RunMop} (hm : (s.core c).cur = some m) (h : m.Further n) :
    Feeds c s (s.setCore c { s.core c with cur := some n }) :=
  setCore rfl fun m' hm' => ⟨n, rfl, by rw [hm] at hm'; cases hm'; exact h⟩

section
variable (h : Feeds c s t)
include h

theorem cplq : (t.core c).cplq = (s.core c).cplq := by rw [h.core]
theorem prev : (t.core c).prev = (s.core c).prev := by rw [h.core]
theorem wfq : (t.core c).wfq = (s.core c).wfq := by rw [h.core]
theorem acc : (t.core c).acc = (s.core c).acc := by rw [h.core]
theorem actB : (t.core c).actB = (s.core c).actB := by rw [h.core]
theorem bankA : (t.core c).bankA = (s.core c).bankA := by rw [h.core]
theorem bankB : (t.core c).bankB = (s.core c).bankB := by rw [h.core]
theorem bLast : (t.core c).bLast = (s.core c).bLast := by rw [h.core]

end

end Feeds

/-! ### The operations of the feeder -/

theorem metaDrop_reports (s : State) (c role tag : Nat) (q : Drop) : Reports s (s.metaDrop c role tag q) :=
  (((incThr_reports s _ _ _ _ _ _).trans (setReg_reports _ _ _)).trans (setReg_reports _ _ _)).trans
    (count_reports _ _ _ _ _)

theorem countReadsOnce_reports (s : State) (c role tag : Nat) (l : List RowRead) (seen : List DropKey) :
    Reports s (s.countReadsOnce c role tag l seen) :=
  (Reports.foldl (fun s q => metaDrop_reports s c role tag q) _ s).trans (inc_reports _ _ _)

theorem countReads_reports (s : State) (c role tag : Nat) (l : List RowRead) :
    Reports s (s.countReads c role tag l) := countReadsOnce_reports s c role tag l []

theorem countIsect_reports (s : State) (c out zc : Nat) : Reports s (s.countIsect c out zc) :=
  (((inc_reports s _ _).trans (count_reports _ _ _ _ _)).trans (inc_reports _ _ _)).trans (count_reports _ _ _ _ _)

theorem underrun_reports (s : State) (c q : Nat) : Reports s (s.underrun c q) :=
  (setRegF_reports s _ _ _ _).trans (count_reports _ _ _ _ _)

theorem cooExcess_reports (s : State) (c : Nat) (d : Desc) : Reports s (s.cooExcess c d) := by
  unfold State.cooExcess
  extract_lets
  split
  · exact metaDrop_reports s _ _ _ _
  · exact Reports.refl s

section
variable (s : State) (c : Nat)

theorem poisonPair_feeds (slot x y : Nat) : Feeds c s (s.poisonPair c slot x y) := by
  unfold State.poisonPair
  extract_lets k
  split
  · exact .refl s
  · rename_i m hm
    extract_lets n t
    have ht : Feeds c s t := by
      refine .setRun hm ?_
      unfold n
      split <;> rfl
    split
    · exact ht.trans (.of_reports (setRegF_reports _ _ _ _ _))
    · exact ht

theorem readPair_feeds (m : RunMop) (slot x y : Nat) : Feeds c s (s.readPair c m slot x y) := by
  unfold State.readPair
  split
  · exact .refl s
  · extract_lets rows t
    have ht : Feeds c s t := .of_reports (.foldl (fun s q => metaDrop_reports s _ _ _ q) _ s)
    split
    · exact ht.trans (poisonPair_feeds t c _ _ _)
    · exact ht

theorem readUnvisited_feeds (m : RunMop) (slot x y w : Nat) : Feeds c s (s.readUnvisited c m slot x y w) := by
  unfold State.readUnvisited
  extract_lets t occ rows cut
  have ht : Feeds c s t := by
    unfold t
    split
    · exact poisonPair_feeds s c _ _ _
    · exact .refl s
  split
  · exact ht
  · exact ht.trans (.of_reports ((countReads_reports _ _ _ _ _).trans (countIsect_reports _ _ _ _)))

theorem beginGroup_feeds (m : RunMop) (g : List GroupPair) (tiles : SMap (Option Tile))
    (hm : ∀ m', (s.core c).cur = some m' → m'.Further m) : Feeds c s (s.beginGroup c m g tiles) := by
  unfold State.beginGroup
  extract_lets vis norm n k t u v skip
  have ht : Feeds c s t := .setCore rfl fun m' hm' => ⟨n, rfl, (hm m' hm').trans rfl⟩
  have hu : Feeds c t u := .foldl (fun s p => readPair_feeds s c _ _ _ _) _ _
  have hv : Feeds c u v := .foldl (fun s p => .foldl (fun s w => by
    split
    · exact .refl s
    · exact readUnvisited_feeds s c _ _ _ _ _) _ _) _ _
  exact ((ht.trans hu).trans hv).trans (.of_reports ((((inc_reports _ _ _).trans (count_reports _ _ _ _ _)).trans
    (count_reports _ _ _ _ _)).trans (count_reports _ _ _ _ _)))

theorem RunMop.further_finishTail (k : CoreSt) (m : RunMop) : m.Further (m.finishTail k) := by
  unfold RunMop.finishTail
  split <;> rfl

theorem RunMop.further_shiftGroup (k : CoreSt) (m : RunMop) : m.Further (m.shiftGroup k) := by
  unfold RunMop.shiftGroup
  split <;> rfl

theorem advance_feeds : Feeds c s (s.advance c) := by
  unfold State.advance
  extract_lets k
  split
  · exact .refl s
  · rename_i m hm
    extract_lets n t
    have hmn : m.Further n :=
      ((RunMop.further_finishTail k m).trans (RunMop.further_shiftGroup k _)).trans (RunMop.further_finishTail k _)
    have ht : Feeds c s t := .setRun hm hmn
    have hrun : (t.core c).cur = some n := by rw [State.core_setCore_self]
    split
    · split
      · exact ht
      · split
        · exact ht
        · refine ht.trans (beginGroup_feeds t c n _ _ fun m' hm' => ?_)
          rw [hrun] at hm'
          cases hm'
          exact .refl _
    · exact ht

theorem prefetch_feeds : Feeds c s (s.prefetch c) := by
  unfold State.prefetch
  extract_lets k
  split
  · exact .refl s
  · split
    · exact .refl s
    · exact .setCore rfl fun m hm => ⟨m, hm, .refl m⟩

end

end Sys2Proof.Machine
end

section
/-! SUPPORT. The start of an operation (R200). -/

namespace Sys2Proof.Machine

open Sys2Proof

/-! ### Writes of memory and the dies -/

/-- Die b differs from a at most in the lines of its cache. -/
def DieSt.SameButCache (a b : DieSt) : Prop := b = { a with cache := b.cache }

theorem DieSt.SameButCache.refl (a : DieSt) : a.SameButCache a := rfl

theorem DieSt.SameButCache.trans {a b c : DieSt} (h : a.SameButCache b) (g : b.SameButCache c) :
    a.SameButCache c := by
  unfold DieSt.SameButCache at *
  rw [g, h]

/-- Every die changes at most in the lines of its cache. -/
def CacheOnly (s t : State) : Prop := ∀ d, (s.die d).SameButCache (t.die d)

theorem CacheOnly.of_die {s t : State} (h : ∀ d, t.die d = s.die d) : CacheOnly s t := fun d => by
  rw [h d]
  exact .refl _

theorem CacheOnly.trans {s t u : State} (h : CacheOnly s t) (g : CacheOnly t u) : CacheOnly s u :=
  fun d => (h d).trans (g d)

theorem CacheOnly.foldl {α : Type} {f : State → α → State} (h : ∀ s a, CacheOnly s (f s a)) (l : List α)
    (s : State) : CacheOnly s (l.foldl f s) := by
  induction l generalizing s with
  | nil => exact .of_die fun _ => rfl
  | cons a l ih => exact (h s a).trans (ih (f s a))

theorem cacheOnly_setDie {s : State} {d : Nat} {v : DieSt} (h : (s.die d).SameButCache v) :
    CacheOnly s (s.setDie d v) := fun e => by
  by_cases he : e = d
  · subst he
    rw [State.die_setDie_self]
    exact h
  · rw [State.die_setDie_ne s d v e he]
    exact .refl _

theorem snoop_cacheOnly (s : State) (d : Nat) (own : Bool) (a : Nat) (bytes : List Byte) :
    CacheOnly s (s.snoop d own a bytes) := by
  unfold State.snoop
  extract_lets t hit n upd
  split
  · exact .of_die fun _ => rfl
  · split
    · exact cacheOnly_setDie rfl
    · exact (cacheOnly_setDie (s := s) (v := { t with cache := t.cache.filter fun e => !hit e }) rfl).trans
        (.of_die ((inc_reports _ _ _).trans (count_reports _ _ _ _ _)).die)

theorem put_cacheOnly (s : State) (w : Writer) (a : Nat) (bytes : List Byte) (bad : Bool) :
    CacheOnly s (s.put w a bytes bad) := by
  unfold State.put
  split
  · exact .of_die fun _ => rfl
  · extract_lets t u
    have hu : CacheOnly s u :=
      .of_die ((countAccess_reports t true a bytes.length).trans (countBypass_reports _ w a bytes.length)).die
    split
    · exact hu.trans (.foldl (fun s d => snoop_cacheOnly s d _ a bytes) _ u)
    · exact hu

/-! ### The start -/

/-- State t has the cores, and the requests of the predictor engines, of state s. -/
structure SameCores (s t : State) : Prop where
  core : ∀ d, t.core d = s.core d
  predQ : ∀ d, (t.die d).predQ = (s.die d).predQ

namespace SameCores

variable {s t u : State}

theorem refl (s : State) : SameCores s s := ⟨fun _ => rfl, fun _ => rfl⟩

theorem of_reports (h : Reports s t) : SameCores s t := ⟨h.core, fun d => by rw [h.die]⟩

theorem trans (h : SameCores s t) (g : SameCores t u) : SameCores s u :=
  ⟨fun d => (g.core d).trans (h.core d), fun d => (g.predQ d).trans (h.predQ d)⟩

theorem foldl {α : Type} {f : State → α → State} (h : ∀ s a, SameCores s (f s a)) (l : List α) (s : State) :
    SameCores s (l.foldl f s) := by
  induction l generalizing s with
  | nil => exact .refl s
  | cons a l ih => exact (h s a).trans (ih (f s a))

theorem put (s : State) (w : Writer) (a : Nat) (bytes : List Byte) (bad : Bool) :
    SameCores s (s.put w a bytes bad) :=
  ⟨State.core_put s w a bytes bad, fun d => by rw [put_cacheOnly s w a bytes bad d]⟩

end SameCores

theorem readMap_reports (s : State) (c : Nat) (ws : List (BitVec 128)) : Reports s (s.readMap c ws).2.2 := by
  unfold State.readMap
  split
  · exact .refl s
  · split
    · exact .refl s
    · extract_lets
      split
      · exact .refl s
      · show Reports s ((s.inc (Reg.PRD_MAP_BAD_CNT (c / 9)) 1).logNamed c 0x0202 0)
        exact (inc_reports s _ _).trans (logNamed_reports _ _ _ _)

/-- What the start of an operation leaves in its core. -/
structure Started (s : State) (c : Nat) (ws : List (BitVec 128)) (l : Lens) (pkt : Nat) (t : State) : Prop where
  run : ∃ m, (t.core c).cur = some m ∧ m.words = ws ∧ m.pkt = pkt ∧ m.mLen = l.m ∧ m.nLen = l.n ∧ m.kLen = l.k
  cplq : (t.core c).cplq = (s.core c).cplq
  others : ∀ d, d ≠ c → t.core d = s.core d
  predQ : (t.die (c / 9)).predQ = (s.die (c / 9)).predQ

theorem Started.trans_feeds {s t u : State} {c : Nat} {ws : List (BitVec 128)} {l : Lens} {pkt : Nat}
    (h : Started s c ws l pkt t) (g : Feeds c t u) : Started s c ws l pkt u := by
  obtain ⟨m, hm, hws, hpkt, hM, hN, hK⟩ := h.run
  obtain ⟨n, hn, hmn⟩ := g.run m hm
  refine ⟨⟨n, hn, ?_⟩, g.cplq.trans h.cplq, fun d hd => (g.others d hd).trans (h.others d hd), ?_⟩
  · rw [hmn]
    exact ⟨hws, hpkt, hM, hN, hK⟩
  · rw [g.die]
    exact h.predQ

/-- An operation that starts runs with its words and lengths; a `PREDICT` joins the requests of its die. -/
theorem started_startMop (s : State) (c : Core) (ws : List (BitVec 128)) (l : Lens) (pkt : Nat) :
    (mopOp ws ≠ 0x18 → Started s c ws l pkt (s.startMop c ws l pkt)) ∧
    (mopOp ws = 0x18 → ∃ (t : State) (q : PredReq), Started s c ws l pkt t ∧ q.core = c ∧ q.words = ws ∧
      s.startMop c ws l pkt = t.setDie (c / 9) { t.die (c / 9) with predQ := (t.die (c / 9)).predQ ++ [q] }) := by
  unfold State.startMop
  extract_lets v outs t
  have ht : SameCores s t := .foldl (fun s d => by
    split
    · exact .put s _ _ _ _
    · exact .refl s) _ s
  have hmap := SameCores.of_reports (readMap_reports t c ws)
  generalize t.readMap c ws = r at hmap ⊢
  obtain ⟨map, mapBad, u⟩ := r
  dsimp -zeta only
  extract_lets m u' k x y p
  have hu : SameCores s u' := (ht.trans hmap).trans (by
    unfold u'
    split
    · exact .of_reports (cooExcess_reports _ _ _)
    · exact .refl u)
  have hrep : Reports x y := (inc_reports _ _ _).trans (count_reports _ _ _ _ _)
  have hcore : y.core c = { k with
      cur := some m, nextId := k.nextId + 1, verdict := none, fills := [],
      waitPredict := decide (mopOp ws = 0x18), opbuf := [], opPoison := [] } := by
    rw [hrep.core, State.core_setCore_self]
  have hy : Started s c ws l pkt y := by
    refine ⟨⟨m, by rw [hcore], rfl, rfl, rfl, rfl, rfl⟩, ?_, fun d hd => ?_, ?_⟩
    · rw [hcore, ← hu.core c]
    · rw [hrep.core, State.core_setCore_ne _ _ _ _ hd, hu.core]
    · have hx : x.die (c / 9) = u'.die (c / 9) := State.die_setCore u' c _ _
      rw [hrep.die, hx, hu.predQ]
  clear_value y
  clear hcore hrep hu
  clear_value m
  refine ⟨fun ho => ?_, fun ho => ?_⟩
  · rw [if_neg ho]
    exact (hy.trans_feeds (advance_feeds y c)).trans_feeds (prefetch_feeds _ c)
  · rw [if_pos ho, dif_pos c.isLt]
    exact ⟨y, _, hy, rfl, rfl, rfl⟩

/-- Settles O16: a packet that passes every check starts its operation. -/
theorem macroOperationsStart : Obligations.MacroOperationsStart := by
  unfold Obligations.MacroOperationsStart
  refine ⟨fun c bad s ws pkt n l h ha he hl hlo hhi => ?_, fun c s ws hv => ?_⟩
  · subst hl
    have hexec {i : Instr} {o : Nat} (hi : mopCode i = some (c, o, bad.any id)) (ho : mopOp ws = o) :
        exec i s = .next ((s.taken c n).startMop c ws (s.verdictOf c ws).lens pkt) := by
      rw [exec_of_mopCode hi, State.issue_starts (· == o) (by simp [ho]) _ h ha he]
    have hcore : (s.taken c n).core c = { (s.core c).take n with verdict := none } := by
      rw [State.taken_eq, State.core_setCore_self]
    have hdie : (s.taken c n).die = s.die := by rw [State.taken_eq]; rfl
    obtain ⟨hother, hpredict⟩ := started_startMop (s.taken c n) c ws (s.verdictOf c ws).lens pkt
    obtain ⟨u, hu, hcores⟩ : ∃ u, Started (s.taken c n) c ws (s.verdictOf c ws).lens pkt u ∧
        ((s.taken c n).startMop c ws (s.verdictOf c ws).lens pkt).core = u.core := by
      by_cases ho : mopOp ws = 0x18
      · obtain ⟨u, q, hu, -, -, heq⟩ := hpredict ho
        exact ⟨u, hu, by rw [heq]; rfl⟩
      · exact ⟨_, hother ho, rfl⟩
    refine ⟨_, rfl, hexec rfl, hexec rfl, hexec rfl, hexec rfl, hexec rfl, hexec rfl, hexec rfl, hexec rfl, hexec rfl,
      hexec rfl, ?_, ?_, fun d hd => ?_, fun ho => ?_⟩
    · rw [hcores]
      exact hu.run
    · rw [hcores, hu.cplq, hcore]
      exact CoreSt.take_cplq _ _
    · rw [hcores, hu.others d hd, State.taken_eq, State.core_setCore_ne _ _ _ _ hd]
    · obtain ⟨u, q, hu, hqc, hqw, heq⟩ := hpredict ho
      refine ⟨q, ?_, hqc, hqw⟩
      rw [heq, State.die_setDie_self, hu.predQ, hdie]
  · have hfresh : s.verdictOf c ws = (match s.checkIssue c ws with
        | .error e => ⟨ws, s.namedDescs c ws, some e, ⟨0, 0, 0, [], []⟩⟩
        | .ok l => ⟨ws, s.namedDescs c ws, none, l⟩ : Verdict) := by
      unfold State.verdictOf
      cases hs : (s.core c).verdict with
      | none => rfl
      | some v => exact if_neg (hv v hs)
    rw [hfresh]
    cases hc : s.checkIssue c ws with
    | error e => simp
    | ok l => simp

end Sys2Proof.Machine
end

section
/-! SUPPORT. The end of a run, the early start of the next one, and the end of a segment (R192, R201, R202). -/

namespace Sys2Proof.Machine

open Sys2Proof

/-- A segment that takes over the flags of a run. -/
def Segment.addFlags (g : Segment) (f : Flags) : Segment := { g with flags := g.flags.or f }

theorem State.segFlags_setCore (s : State) (c : Nat) (k : CoreSt) (f : Flags) :
    (s.setCore c k).segFlags c f = s.setCore c { k with seg := k.seg.map (Segment.addFlags · f) } := by
  cases hseg : k.seg with
  | some g => simp only [State.segFlags, State.core_setCore_self, hseg, State.setCore_setCore, Option.map_some,
      Segment.addFlags]
  | none =>
    have hk : k = { k with seg := none } := by rw [← hseg]
    simp only [State.segFlags, State.core_setCore_self, hseg, Option.map_none]
    rw [← hk]

/-- State t comes from s by writes of registers and cores. -/
def RegsAndCores (s t : State) : Prop := t = { s with cores := t.cores, regs := t.regs }

theorem RegsAndCores.trans {s t u : State} (h : RegsAndCores s t) (g : RegsAndCores t u) : RegsAndCores s u := by
  unfold RegsAndCores at *
  rw [g, h]

theorem regsAndCores_inc (s : State) (a n : Nat) : RegsAndCores s (s.inc a n) := rfl

theorem regsAndCores_setCore (s : State) (c : Nat) (k : CoreSt) : RegsAndCores s (s.setCore c k) := rfl

/-- The core whose run m has ended. -/
def CoreSt.completed (k : CoreSt) (m : RunMop) (now : Nat) : CoreSt :=
  { k with
    cplq := k.cplq ++ [cplWord m.op 0 0 0xF (mopId m.words) m.pkt m.flags]
    progress := now
    seg := if m.fromCmdq then k.seg else k.seg.map (Segment.addFlags · m.flags) }

/-- A run that completes writes its word, is counted, and adds its flags to those of its segment. -/
theorem State.completeMop_setCore (s : State) (c : Nat) (k : CoreSt) (m : RunMop) :
    (s.setCore c k).completeMop c m = (s.inc (Reg.SEQ_MOP_CNT c) 1).setCore c (k.completed m s.now) := by
  unfold State.completeMop
  rw [State.writeCpl_eq, State.core_setCore_self, State.setCore_setCore, State.setCore_now]
  dsimp only
  rw [State.inc, State.reg_setCore, State.setReg_setCore, State.segFlags_setCore]
  unfold CoreSt.completed State.inc
  cases m.fromCmdq with
  | true => rw [if_pos rfl, if_pos rfl]
  | false => rw [if_neg Bool.false_ne_true, if_neg Bool.false_ne_true]

section
variable (s : State) (c : Nat) (k : CoreSt) (m : RunMop)

theorem State.core_completeMop : ((s.setCore c k).completeMop c m).core c = k.completed m s.now := by
  rw [State.completeMop_setCore, State.core_setCore_self]

theorem State.reg_completeMop : ((s.setCore c k).completeMop c m).reg (Reg.SEQ_MOP_CNT c) =
    satAdd (s.reg (Reg.SEQ_MOP_CNT c)) 1 := by
  rw [State.completeMop_setCore, State.reg_setCore, State.inc, State.reg_setReg_self]

theorem regsAndCores_completeMop : RegsAndCores s ((s.setCore c k).completeMop c m) := by
  rw [State.completeMop_setCore]
  exact (regsAndCores_inc s _ 1).trans (regsAndCores_setCore _ c _)

end

theorem exec_mopComplete (c : Core) (s : State) (m : RunMop) (hrun : s.coreRuns c = true)
    (hroom : (s.core c).cplq.length < 16) (hdone : s.mopDone c m = true) :
    ((s.core c).prev = some m →
      exec (.mopComplete c) s = .next ((s.setCore c { s.core c with prev := none }).completeMop c m)) ∧
    ((s.core c).prev = none → (s.core c).cur = some m →
      exec (.mopComplete c) s = .next ((s.setCore c { s.core c with cur := none }).completeMop c m)) := by
  have hgo : (s.coreRuns c && (s.core c).cplRoom) = true := by simp [hrun, CoreSt.cplRoom, hroom]
  refine ⟨fun hp => ?_, fun hp hc => ?_⟩ <;> show execMopComplete c s = _ <;> unfold execMopComplete <;> dsimp only <;>
    rw [if_pos hgo]
  · rw [hp]
    dsimp only
    rw [if_pos hdone]
  · rw [hp, hc]
    dsimp only
    rw [if_pos hdone]

theorem exec_mopEarlyStart {c : Core} {bad : List Bool} {s : State} {m : RunMop} {ws : List (BitVec 128)} {pkt n : Nat}
    (hlink : s.coreLinked c = true) (hcur : (s.core c).cur = some m) (hprev : (s.core c).prev = none)
    (hnext : s.nextMop c = some (ws, pkt, n, false)) (ha : s.Arrives c (bad.any id))
    (hmay : s.mayIssue c ws (s.verdictOf c ws) = true) :
    exec (.mopEarlyStart ⟨c, bad⟩) s = .next
      (if (m.walked && m.op != 0x18 && mopOp ws != 0x18 && (s.verdictOf c ws).err.isNone &&
          apart (s.issueEnv c) ws m &&
          (allocGroup (s.planMop c ws (s.verdictOf c ws).lens pkt none false)
            ((s.planMop c ws (s.verdictOf c ws).lens pkt none false).groups.headD []) (s.core c).tiles).isSome) = true
        then ((s.setCore c { s.core c with cur := none, prev := some m }).takeMop c n).startMop c ws
          (s.verdictOf c ws).lens pkt
        else s.setCore c { s.core c with verdict := some (s.verdictOf c ws) }) := by
  have hgo : (s.coreLinked c && !(readBad ⟨c, bad⟩ && (s.core c).seg.isNone)) = true := by
    rw [hlink, readBad, Bool.not_eq_true _ |>.mp ha.not_discarded]
    rfl
  show execMopEarlyStart ⟨c, bad⟩ s = _
  unfold execMopEarlyStart
  dsimp only
  rw [hcur, hprev, hnext]
  dsimp only
  rw [if_pos hgo, if_neg (by simp [hmay]), apply_ite Host.Outcome.next]

/-- The core whose segment has ended (R192). -/
def CoreSt.phaseEnded (k : CoreSt) (g : Segment) (b : Binding) (now : Nat) : CoreSt :=
  { k with
    seg := none
    cplq := k.cplq ++ [cplWord 2 0 0 0xF g.mb.toNat b.stage.toNat g.flags]
    progress := now }

theorem exec_phaseDone {c : Core} {s : State} {g : Segment} {b : Binding} (hseg : (s.core c).seg = some g)
    (hbind : (s.core c).bind = some b) (hrun : s.coreRuns c = true) (hroom : (s.core c).cplq.length < 16)
    (hcur : (s.core c).cur = none) (hprev : (s.core c).prev = none) (hpkt : b.count g.phase ≤ g.pkt) :
    ∃ cause, exec (.phaseDone c) s = .next (((s.setCore c ((s.core c).phaseEnded g b s.now)).count c 0x105 0 1).addLogBy
      c evPhaseDone (phaseArg g.phase g.mb.toNat g.replay) cause) := by
  have hgo : (s.coreRuns c && (s.core c).cplRoom && (s.core c).cur.isNone && (s.core c).prev.isNone &&
      decide (b.count g.phase ≤ g.pkt)) = true := by
    simp [hrun, CoreSt.cplRoom, hroom, hcur, hprev, hpkt]
  refine ⟨if g.phase = 1 then ((s.setCore c ((s.core c).phaseEnded g b s.now)).count c 0x105 0 1).phaseCause c
    (b.stage.toNat + 1) 1 g.mb.toNat else none, ?_⟩
  show execPhaseDone c s = _
  unfold execPhaseDone
  dsimp only
  rw [hseg, hbind]
  dsimp only
  rw [if_pos hgo, State.core_writeCpl_self, State.writeCpl_eq, State.setCore_setCore]
  rfl

/-- Settles O17: the end of a run, the early start of the next, and the end of a segment. -/
theorem macroOperationsComplete : Obligations.MacroOperationsComplete := by
  unfold Obligations.MacroOperationsComplete
  refine ⟨fun c s m hrun hroom hdone => ?_, ?_, fun c s g b hseg hbind hrun hroom hcur hprev hpkt => ?_⟩
  · obtain ⟨hold, hnew⟩ := exec_mopComplete c s m hrun hroom hdone
    refine ⟨fun hp => ⟨_, hold hp, ?_⟩, fun hp hc => ⟨_, hnew hp hc, ?_⟩⟩ <;> rw [State.core_completeMop]
    · exact ⟨rfl, rfl, rfl, State.reg_completeMop .., regsAndCores_completeMop ..⟩
    · exact ⟨rfl, rfl, State.reg_completeMop .., regsAndCores_completeMop ..⟩
  · intro c bad s m ws pkt n v plan hlink hcur hprev hnext ha hv hmay hplan
    subst hv
    subst hplan
    rw [exec_mopEarlyStart hlink hcur hprev hnext ha hmay]
    refine ⟨fun hw hm ho he hap hslot => ?_, fun hno => ?_⟩
    · rw [if_pos]
      rw [hw, he, hap, hslot]
      simp [hm, ho]
    · rw [if_neg]
      rcases hno with h | h | h
      · simp [h]
      · simp [← Option.not_isSome, h]
      · simp [h]
  · obtain ⟨cause, hexec⟩ := exec_phaseDone hseg hbind hrun hroom hcur hprev hpkt
    refine ⟨_, hexec, ?_⟩
    have hr := (count_reports (s.setCore c ((s.core c).phaseEnded g b s.now)) c 0x105 0 1).trans
      (sends_addLogBy _ c evPhaseDone (phaseArg g.phase g.mb.toNat g.replay) cause).reports
    refine ⟨?_, ⟨_, _, State.log_addLogBy .., rfl, rfl⟩, fun d hd => ?_, ?_, ?_⟩
    · rw [hr.core, State.core_setCore_self]
      rfl
    · rw [hr.core, State.core_setCore_ne _ _ _ _ hd]
    · rw [hr.mem, State.setCore_mem]
    · rw [hr.ctl, State.setCore_ctl]

end Sys2Proof.Machine
end

section
/-! SUPPORT. Fills of the operand buffer (R73, R127). -/

namespace Sys2Proof.Machine

open Sys2Proof

/-! ### The bytes that a fill reads -/

theorem State.mem_fillList {s : State} {m : RunMop} {inA : Bool} {a len j : Nat} (h : j ∈ s.fillList m inA a len) :
    a ≤ j ∧ j < a + len := by
  have hall : j ∈ List.range' a len := by
    unfold State.fillList at h
    dsimp only at h
    split at h
    · split at h
      · exact List.mem_of_mem_filter h
      · exact h
    · exact h
  simpa using List.mem_range'_1.mp hall

theorem State.length_fillList {s : State} {m : RunMop} {inA : Bool} {a len : Nat} (h : inA = false ∨ m.rowMap = none) :
    (s.fillList m inA a len).length = len := by
  have hall : s.fillList m inA a len = List.range' a len := by
    unfold State.fillList
    dsimp only
    split
    · rename_i hd hp
      rcases h with h | h
      · simp [h]
      · simp [h] at hp
    · rfl
  rw [hall, List.length_range']

theorem get_fillBytes (s : State) (l : List Nat) (m : SMap (Option Byte)) (j : Nat) :
    SMap.get (fun _ => none) (fillBytes s l m) j =
      if j ∈ l then some (s.mem.byte j) else SMap.get (fun _ => none) m j := by
  unfold fillBytes
  induction l generalizing m with
  | nil => rfl
  | cons a l ih =>
    rw [List.foldl_cons, ih]
    by_cases hl : j ∈ l
    · rw [if_pos hl, if_pos (List.mem_cons_of_mem a hl)]
    · by_cases ha : j = a
      · subst ha
        rw [if_neg hl, if_pos List.mem_cons_self, SMap.get_set_self]
      · rw [if_neg hl, if_neg (by simp [ha, hl]), SMap.get_set_ne _ _ _ ha]

theorem makeRoom_of_le {n : Nat} {m : SMap (Option Byte)} (h : m.length + n ≤ opBytes) : makeRoom n m = m := by
  unfold makeRoom
  rw [Nat.sub_eq_zero_of_le h, List.drop_zero]

/-! ### The fill -/

/-- Whether a fill lies inside one array of an operand. -/
def Desc.holdsRange (d : Desc) (a len : Nat) : Bool := d.reach.any fun r => decide (r.1 ≤ a ∧ a + len ≤ r.1 + r.2)

theorem Desc.holdsRange_iff (d : Desc) (a len : Nat) :
    d.holdsRange a len = true ↔ ∃ r ∈ d.reach, r.1 ≤ a ∧ a + len ≤ r.1 + r.2 := by
  simp [Desc.holdsRange]

/-- Whether a fill lies inside one array of an operand that may be absent. -/
def inOperand (d : Option Desc) (a len : Nat) : Bool :=
  match d with
  | some d => d.holdsRange a len
  | none => false

theorem inOperand_iff (o : Option Desc) (a len : Nat) :
    inOperand o a len = true ↔ ∃ d, o = some d ∧ ∃ r ∈ d.reach, r.1 ≤ a ∧ a + len ≤ r.1 + r.2 := by
  cases o with
  | none => simp [inOperand]
  | some d => simp [inOperand, Desc.holdsRange_iff]

/-- The core once a fill of the bytes at l is in its operand buffer. -/
def CoreSt.filled (k : CoreSt) (s : State) (l : List Nat) : CoreSt :=
  { k with
    opbuf := fillBytes s l (makeRoom l.length k.opbuf)
    opPoison := (((l.map poisonUnit).dedup).filter s.poison.contains).foldl insertSorted k.opPoison
    progress := s.now }

theorem readUnit_reports (s : State) (u : Nat) : Reports s (s.readUnit u) := by
  unfold State.readUnit
  extract_lets t
  have ht : Reports s t := countAccess_reports s false u 1
  split
  · exact ht
  · split
    · exact ht.trans ((((setReg_reports _ _ _).trans (setReg_reports _ _ _)).trans (inc_reports _ _ _)).trans
        (count_reports _ _ _ _ _))
    · exact ht.trans (inc_reports _ _ _)

theorem fillBytes_congr {s t : State} (h : t.mem = s.mem) (l : List Nat) (m : SMap (Option Byte)) :
    fillBytes t l m = fillBytes s l m := by
  unfold fillBytes
  rw [h]

/-- A fill changes its core's operand buffer, and counts. -/
theorem State.fillNow_eq (s : State) (c : Nat) (m : RunMop) (a len : Nat) :
    ∃ u, Reports s u ∧ s.fillNow c m a len = (u.setCore c ((s.core c).filled s
        (s.fillList m (inOperand m.dA a len) a len))).count c 0x049 0
      (cdiv (s.fillList m (inOperand m.dA a len) a len).length 64) := by
  unfold State.fillNow
  extract_lets inA l units bad u k v
  have hinA : inA = inOperand m.dA a len := by
    unfold inA inOperand Desc.holdsRange
    rfl
  rw [← hinA]
  have hu : Reports s u := .foldl (fun s a => readUnit_reports s a) units s
  refine ⟨u, hu, ?_⟩
  have hv : v = u.setCore c ((s.core c).filled s l) := by
    unfold v k
    rw [hu.core, fillBytes_congr hu.mem, hu.now]
    rfl
  rw [hv]

section
variable (s : State) (c : Nat) (m : RunMop) (a len : Nat)

theorem State.core_fillNow : (s.fillNow c m a len).core c =
    (s.core c).filled s (s.fillList m (inOperand m.dA a len) a len) := by
  obtain ⟨u, -, h⟩ := s.fillNow_eq c m a len
  rw [h, (count_reports _ _ _ _ _).core, State.core_setCore_self]

theorem State.core_fillNow_ne {d : Nat} (hd : d ≠ c) : (s.fillNow c m a len).core d = s.core d := by
  obtain ⟨u, hu, h⟩ := s.fillNow_eq c m a len
  rw [h, (count_reports _ _ _ _ _).core, State.core_setCore_ne _ _ _ _ hd, hu.core]

theorem State.mem_fillNow : (s.fillNow c m a len).mem = s.mem := by
  obtain ⟨u, hu, h⟩ := s.fillNow_eq c m a len
  rw [h, (count_reports _ _ _ _ _).mem, State.setCore_mem, hu.mem]

theorem State.poison_fillNow : (s.fillNow c m a len).poison = s.poison := by
  obtain ⟨u, hu, h⟩ := s.fillNow_eq c m a len
  rw [h, (count_reports _ _ _ _ _).poison, State.setCore_poison, hu.poison]

end

/-- A fill that lies inside an operand joins those that wait, and is served with them. -/
theorem exec_operandFill {c : Core} {addr : Addr} {len : Nat} {s : State} {m : RunMop} {l : List Nat}
    (hrun : s.coreRuns c = true) (hm : (s.core c).cur = some m)
    (hin : inOperand m.dA addr.toNat len = true ∨ inOperand m.dB addr.toNat len = true ∨
      m.op = 0x11 ∧ inOperand (m.desc (mopAux m.words)) addr.toNat len = true)
    (hl : l = s.fillList m (inOperand m.dA addr.toNat len) addr.toNat len) (hne : l ≠ []) (hfit : l.length ≤ opBytes) :
    exec (.operandFill c addr len) s =
      .next (State.serveFills c m ((s.core c).fills ++ [(addr.toNat, len)]) s) := by
  subst hl
  show execOperandFill c addr len s = _
  unfold execOperandFill
  dsimp only
  rw [hm]
  refine if_pos ?_
  have hor : (inOperand m.dA addr.toNat len || inOperand m.dB addr.toNat len ||
      inOperand (if m.op = 0x11 then m.desc (mopAux m.words) else none) addr.toNat len) = true := by
    rcases hin with h | h | ⟨ho, h⟩
    · rw [h, Bool.true_or, Bool.true_or]
    · rw [h, Bool.or_true, Bool.true_or]
    · rw [if_pos ho, h, Bool.or_true]
  have hall : (s.coreRuns c && !(s.fillList m (inOperand m.dA addr.toNat len) addr.toNat len).isEmpty &&
      decide ((s.fillList m (inOperand m.dA addr.toNat len) addr.toNat len).length ≤ opBytes) &&
      (inOperand m.dA addr.toNat len || inOperand m.dB addr.toNat len ||
        inOperand (if m.op = 0x11 then m.desc (mopAux m.words) else none) addr.toNat len)) = true := by
    rw [hrun, hor, decide_eq_true hfit]
    simpa using hne
  exact hall

theorem State.serveFills_waits (s : State) (c : Nat) (m : RunMop) (x : Nat × Nat) (q : List (Nat × Nat))
    (h : (s.coreLinked c && s.memPath (c / 9) x.1 x.2) = false) :
    State.serveFills c m (x :: q) s = s.setCore c { s.core c with fills := x :: q } := by
  rw [State.serveFills, if_neg (by simp [h])]

theorem State.serveFills_serves (s : State) (c : Nat) (m : RunMop) (x : Nat × Nat) (q : List (Nat × Nat))
    (h : (s.coreLinked c && s.memPath (c / 9) x.1 x.2) = true) :
    State.serveFills c m (x :: q) s = State.serveFills c m q (s.fillNow c m x.1 x.2) := by
  rw [State.serveFills, if_pos h]

/-- Settles O18: a fill of the operand buffer holds the bytes that memory holds. -/
theorem operandFillHoldsTheBytes : Obligations.OperandFillHoldsTheBytes := by
  unfold Obligations.OperandFillHoldsTheBytes
  intro c addr len s m d r inA l hrun hm hd hr hlo hhi hA hl hne hfit
  have hinA : inA = inOperand m.dA addr.toNat len := by
    rw [Bool.eq_iff_iff, inOperand_iff]
    exact hA
  subst hinA
  have hheld : inOperand (some d) addr.toNat len = true := (inOperand_iff _ _ _).mpr ⟨d, rfl, r, hr, hlo, hhi⟩
  have hexec := exec_operandFill (c := c) (addr := addr) hrun hm (by
    rcases hd with h | h | ⟨ho, h⟩
    · exact .inl (h ▸ hheld)
    · exact .inr (.inl (h ▸ hheld))
    · exact .inr (.inr ⟨ho, h ▸ hheld⟩)) hl hne hfit
  rw [hexec]
  refine ⟨fun j hj => State.mem_fillList (hl ▸ hj), fun h => hl ▸ State.length_fillList h, fun x q hq hw => ?_,
    fun hq hw => ?_, fun x q hq hw => ?_, fun hq hw => ?_⟩
  · rw [hq, List.cons_append, State.serveFills_waits s c m x _ hw]
  · rw [hq, List.nil_append, State.serveFills_waits s c m _ _ hw]
  · rw [hq, List.cons_append, State.serveFills_serves s c m x _ hw]
  · rw [hq, List.nil_append, State.serveFills_serves s c m _ _ hw, State.serveFills, State.core_fillNow, ← hl]
    refine ⟨_, rfl, ?_, fun j hj => ?_, fun hroom j hj => ?_, fun e he => ?_, ?_, ?_⟩
    · rw [State.core_setCore_self, ← hq]
      rfl
    · rw [State.core_setCore_self]
      exact (get_fillBytes s l _ j).trans (if_pos hj)
    · rw [State.core_setCore_self]
      refine ((get_fillBytes s l _ j).trans (if_neg hj)).trans ?_
      rw [makeRoom_of_le hroom]
    · rw [State.core_setCore_ne _ _ _ _ he, State.core_fillNow_ne _ _ _ _ _ he]
    · rw [State.setCore_mem, State.mem_fillNow]
    · rw [State.setCore_poison, State.poison_fillNow]

end Sys2Proof.Machine
end

section
/-! SUPPORT. The feeder's own steps: the stationary register, the packer and the merge unit (R128 to R140). -/

namespace Sys2Proof.Machine

open Sys2Proof

/-! ### The merge unit's order -/

theorem perm_insertPair (p : Nat × Nat) (l : List (Nat × Nat)) : (insertPair p l).Perm (p :: l) := by
  induction l with
  | nil => exact .refl _
  | cons q l ih =>
    unfold insertPair
    split
    · exact .refl _
    · exact (ih.cons q).trans (.swap p q l)

theorem pairwise_insertPair {p : Nat × Nat} {l : List (Nat × Nat)} (h : l.Pairwise fun p q => p.1 ≤ q.1) :
    (insertPair p l).Pairwise fun p q => p.1 ≤ q.1 := by
  induction l with
  | nil => exact List.pairwise_singleton _ _
  | cons q l ih =>
    obtain ⟨hq, hl⟩ := List.pairwise_cons.mp h
    unfold insertPair
    split
    · rename_i hlt
      refine List.pairwise_cons.mpr ⟨fun x hx => ?_, h⟩
      rcases List.mem_cons.mp hx with rfl | hx
      · omega
      · have := hq x hx
        omega
    · rename_i hge
      refine List.pairwise_cons.mpr ⟨fun x hx => ?_, ih hl⟩
      rcases List.mem_cons.mp ((perm_insertPair p l).mem_iff.mp hx) with rfl | hx
      · omega
      · exact hq x hx

/-- A pair goes behind those of its own index. -/
theorem filter_insertPair {p : Nat × Nat} {l : List (Nat × Nat)} (h : l.Pairwise fun p q => p.1 ≤ q.1) (x : Nat) :
    (insertPair p l).filter (fun q => q.1 == x) = l.filter (fun q => q.1 == x) ++ [p].filter fun q => q.1 == x := by
  induction l with
  | nil => rfl
  | cons q l ih =>
    obtain ⟨hq, hl⟩ := List.pairwise_cons.mp h
    unfold insertPair
    split
    · rename_i hlt
      by_cases hp : p.1 = x
      · have hnone : (q :: l).filter (fun q => q.1 == x) = [] := by
          rw [List.filter_eq_nil_iff]
          intro r hr
          rcases List.mem_cons.mp hr with rfl | hr
          · simp only [beq_iff_eq]
            omega
          · have := hq r hr
            simp only [beq_iff_eq]
            omega
        rw [List.filter_cons_of_pos (by simp [hp]), hnone]
        simp [hp]
      · rw [List.filter_cons_of_neg (by simp [hp])]
        simp [hp]
    · have hcons (r : List (Nat × Nat)) : (q :: r).filter (fun q => q.1 == x) =
          [q].filter (fun q => q.1 == x) ++ r.filter fun q => q.1 == x := List.filter_append [q] r
      rw [hcons (insertPair p l), hcons l, ih hl, List.append_assoc]

/-- The merged list holds the pairs, sorted by index, those of one index in their order of arrival. -/
theorem sortPairs_spec (l : List (Nat × Nat)) : (sortPairs l).Perm l ∧ (sortPairs l).Pairwise (fun p q => p.1 ≤ q.1) ∧
    ∀ x, (sortPairs l).filter (fun p => p.1 == x) = l.filter fun p => p.1 == x := by
  suffices h : ∀ acc : List (Nat × Nat), acc.Pairwise (fun p q => p.1 ≤ q.1) →
      (l.foldl (fun l p => insertPair p l) acc).Perm (acc ++ l) ∧
      (l.foldl (fun l p => insertPair p l) acc).Pairwise (fun p q => p.1 ≤ q.1) ∧
      ∀ x, (l.foldl (fun l p => insertPair p l) acc).filter (fun p => p.1 == x) =
        acc.filter (fun p => p.1 == x) ++ l.filter fun p => p.1 == x from h [] .nil
  induction l with
  | nil => exact fun acc h => ⟨by simp, h, by simp⟩
  | cons a l ih =>
    intro acc h
    obtain ⟨hperm, hsorted, hfilter⟩ := ih (insertPair a acc) (pairwise_insertPair h)
    refine ⟨hperm.trans (((perm_insertPair a acc).append_right l).trans ?_), hsorted, fun x => ?_⟩
    · exact List.perm_middle.symm
    · rw [List.foldl_cons, hfilter, filter_insertPair h, List.append_assoc, ← List.filter_append]
      rfl

/-! ### What a step leaves of the run -/

theorem qPoison_reports (s : State) (c q : Nat) : Reports s (s.qPoison c q) :=
  ((setRegF_reports s _ _ _ _).trans (inc_reports _ _ _)).trans (count_reports _ _ _ _ _)

theorem poisonWords_reports (s : State) (c q n : Nat) (bad : List Bool) : Reports s (s.poisonWords c q n bad) :=
  .foldl (fun s _ => qPoison_reports s c q) _ s

/-- Run n is run m with more tiles marked as poisoned. -/
def RunMop.Marked (m n : RunMop) : Prop := n = { m with metaPoison := n.metaPoison }

theorem RunMop.Marked.further {m n : RunMop} (h : m.Marked n) : m.Further n := by
  unfold RunMop.Marked RunMop.Further at *
  rw [h]

theorem State.cur_poisonPair {s : State} {c : Nat} {m : RunMop} (slot x y : Nat) (hm : (s.core c).cur = some m) :
    ∃ n, ((s.poisonPair c slot x y).core c).cur = some n ∧ m.Marked n := by
  unfold State.poisonPair
  extract_lets k
  split
  · rename_i hnone
    exact absurd (hm.symm.trans hnone) (Option.some_ne_none m)
  · rename_i m' hm'
    obtain rfl : m = m' := Option.some.inj (hm.symm.trans hm')
    extract_lets n t
    have ht : (t.core c).cur = some n := by rw [State.core_setCore_self]
    refine ⟨n, ?_, ?_⟩
    · split
      · rw [(setRegF_reports t _ _ _ _).core, ht]
      · exact ht
    · unfold n
      split <;> rfl

theorem State.cur_prefetch (s : State) (c : Nat) : ((s.prefetch c).core c).cur = (s.core c).cur := by
  unfold State.prefetch
  extract_lets k
  split
  · rfl
  · rename_i m hm
    split
    · rfl
    · rw [State.core_setCore_self]

theorem State.idleRead_of_runs {s : State} {c : Nat} (h : s.coreRuns c = true) (q : Nat) :
    s.idleRead c q = s.underrun c q := if_pos h

/-! ### The stationary register -/

/-- The core once the B values of a (tile, window) are in the register that no wavefront uses. -/
def CoreSt.loaded (k : CoreSt) (m : RunMop) (pw : Nat × Nat) (rows : List RowWord) : CoreSt :=
  if k.loadsB then
    { k with cur := some m, bq := [], bLast := rows.getLast? <|> k.bLast, bankB := ⟨some pw, stationaryVals rows⟩ }
  else
    { k with cur := some m, bq := [], bLast := rows.getLast? <|> k.bLast, bankA := ⟨some pw, stationaryVals rows⟩ }

section
variable (k : CoreSt) (m : RunMop) (pw : Nat × Nat) (rows : List RowWord)

theorem CoreSt.loaded_cur : (k.loaded m pw rows).cur = some m := by unfold CoreSt.loaded; split <;> rfl
theorem CoreSt.loaded_bLast : (k.loaded m pw rows).bLast = (rows.getLast? <|> k.bLast) := by
  unfold CoreSt.loaded; split <;> rfl
theorem CoreSt.loaded_actB : (k.loaded m pw rows).actB = k.actB := by unfold CoreSt.loaded; split <;> rfl
theorem CoreSt.loaded_acc : (k.loaded m pw rows).acc = k.acc := by unfold CoreSt.loaded; split <;> rfl
theorem CoreSt.loaded_bankB : (k.loaded m pw rows).bankB =
    if k.loadsB then ⟨some pw, stationaryVals rows⟩ else k.bankB := by
  unfold CoreSt.loaded; split <;> rfl
theorem CoreSt.loaded_bankA : (k.loaded m pw rows).bankA =
    if k.loadsB then k.bankA else ⟨some pw, stationaryVals rows⟩ := by
  unfold CoreSt.loaded; split <;> rfl

end

/-- The run whose next (tile, window) has been loaded. -/
def RunMop.loaded (m : RunMop) (pw : Nat × Nat) (rest : List (Nat × Nat)) : RunMop :=
  { m with toLoad := rest, toPack := m.toPack ++ [pw] }

theorem exec_stationaryLoad {c : Core} {bad : List Bool} {s : State} {m : RunMop} {pw : Nat × Nat}
    {rest : List (Nat × Nat)} {rows : List RowWord} (hrun : s.coreRuns c = true) (hm : (s.core c).cur = some m)
    (hload : m.toLoad = pw :: rest) (hready : s.feedReady c m = true)
    (hfree : (s.core c).bankA.pw = none ∨ (s.core c).bankB.pw = none)
    (hrows : rows = s.throughQueue c m false (s.core c).bq (s.bNext c m) bad) :
    ∃ (u : State) (x y : Nat), Reports (s.setCore c ((s.core c).loaded (m.loaded pw rest) pw rows)) u ∧
      exec (.stationaryLoad ⟨c, bad⟩) s = .next
        ((if rows.any fun p => p.read.metaBad then u.poisonPair c pw.1 x y else u).prefetch c) := by
  subst hrows
  obtain ⟨slot, w⟩ := pw
  have hgo : (!s.coreRuns c || ((s.core c).active.pw.isSome && (s.core c).idleBank.pw.isSome) ||
      !s.feedReady c m) = false := by
    rw [hrun, hready, CoreSt.active, CoreSt.idleBank]
    cases (s.core c).actB <;> rcases hfree with h | h <;> simp [h]
  show ∃ u x y, _ ∧ execStationaryLoad ⟨c, bad⟩ s = _
  unfold execStationaryLoad
  dsimp -zeta only
  extract_lets +onlyGivenNames k
  have hk : k.cur = some m := hm
  rw [hk]
  dsimp -zeta only
  rw [hload]
  dsimp -zeta only
  have hgo' : ¬(!s.coreRuns c || (k.active.pw.isSome && k.idleBank.pw.isSome) || !s.feedReady c m) = true := by
    rw [Bool.not_eq_true]
    exact hgo
  rw [if_neg hgo']
  generalize m.pairOf slot = xy
  obtain ⟨x, y⟩ := xy
  dsimp -zeta only
  extract_lets rows bank toB n k' k'' t u v
  have hk'' : k'' = (s.core c).loaded (m.loaded (slot, w) rest) (slot, w) rows := rfl
  refine ⟨v, x, y, ?_, rfl⟩
  rw [← hk'']
  exact (poisonWords_reports t c 3 _ bad).trans (countReads_reports u c 1 _ _)

theorem feederPacks_loads (c : Core) (bad : List Bool) (s : State) (m : RunMop) (slot w : Nat)
    (rest : List (Nat × Nat)) (rows : List RowWord) (hrun : s.coreRuns c = true) (hm : (s.core c).cur = some m)
    (hload : m.toLoad = (slot, w) :: rest) (hready : s.feedReady c m = true)
    (hfree : (s.core c).bankA.pw = none ∨ (s.core c).bankB.pw = none)
    (hrows : rows = s.throughQueue c m false (s.core c).bq (s.bNext c m) bad) :
    ∃ (t : State) (k : RunMop), exec (.stationaryLoad ⟨c, bad⟩) s = .next t ∧
       (t.core c).cur = some k ∧ k.toLoad = rest ∧ k.toPack = m.toPack ++ [(slot, w)] ∧
       (t.core c).bankB =
         (if (s.core c).loadsB then ⟨some (slot, w), stationaryVals rows⟩ else (s.core c).bankB) ∧
       (t.core c).bankA =
         (if (s.core c).loadsB then (s.core c).bankA else ⟨some (slot, w), stationaryVals rows⟩) ∧
       (t.core c).bLast = (rows.getLast? <|> (s.core c).bLast) ∧
       (t.core c).actB = (s.core c).actB ∧ (t.core c).acc = (s.core c).acc ∧
       (∀ e, e ≠ c.val → t.core e = s.core e) ∧ t.mem = s.mem := by
  obtain ⟨u, x, y, hu, hexec⟩ := exec_stationaryLoad (bad := bad) hrun hm hload hready hfree hrows
  have hcore : u.core c = (s.core c).loaded (m.loaded (slot, w) rest) (slot, w) rows := by
    rw [hu.core, State.core_setCore_self]
  have hcur : (u.core c).cur = some (m.loaded (slot, w) rest) := by rw [hcore, CoreSt.loaded_cur]
  generalize hv : (if rows.any fun p => p.read.metaBad then u.poisonPair c slot x y else u) = v at hexec
  obtain ⟨hf, k, hk, hmk⟩ : Feeds c u v ∧ ∃ k, (v.core c).cur = some k ∧ (m.loaded (slot, w) rest).Marked k := by
    subst hv
    split
    · exact ⟨poisonPair_feeds u c _ _ _, State.cur_poisonPair _ _ _ hcur⟩
    · exact ⟨.refl u, _, hcur, rfl⟩
  have hp := hf.trans (prefetch_feeds v c)
  refine ⟨_, k, hexec, (State.cur_prefetch v c).trans hk, ?_, ?_, ?_, ?_, ?_, ?_, ?_, fun e he => ?_, ?_⟩
  · rw [hmk]; rfl
  · rw [hmk]; rfl
  · rw [hp.bankB, hcore, CoreSt.loaded_bankB]
  · rw [hp.bankA, hcore, CoreSt.loaded_bankA]
  · rw [hp.bLast, hcore, CoreSt.loaded_bLast]
  · rw [hp.actB, hcore, CoreSt.loaded_actB]
  · rw [hp.acc, hcore, CoreSt.loaded_acc]
  · rw [hp.others e he, hu.core, State.core_setCore_ne _ _ _ _ he]
  · rw [hp.mem, hu.mem, State.setCore_mem]

/-! ### The packer -/

/-- The packer writes one wavefront of the (tile, window) that it packs. -/
theorem emitWave_spec (s : State) (c : Nat) (m : RunMop) (p : Packer) : ∃ w : Wavefront,
    ((s.emitWave c m p).core c).wfq = (s.core c).wfq ++ [w] ∧ w.tile = p.pw.1 ∧ w.win = p.pw.2 ∧
    (w.lanes, w.slots) = ((packNext m.slots m.bandOf p).1, (packNext m.slots m.bandOf p).2.1) ∧
    ∀ e, e ≠ c → (s.emitWave c m p).core e = s.core e := by
  unfold State.emitWave
  generalize packNext m.slots m.bandOf p = r
  obtain ⟨rows, slots, band, fall, split⟩ := r
  generalize m.pairOf p.pw.1 = xy
  obtain ⟨x, y⟩ := xy
  dsimp -zeta only
  extract_lets w pending lastW norm idle wf k n t u v
  have hu : Reports t u := by
    unfold u
    split
    · exact inc_reports t _ _
    · exact .refl t
  have hr := (hu.trans ((setRegF_reports u _ _ _ _).trans (setRegF_reports _ _ _ _ _))).trans
    (count_reports v c 0x043 0 band.toNat)
  refine ⟨wf, ?_, rfl, rfl, rfl, fun e he => ?_⟩
  · rw [hr.core, State.core_setCore_self]
  · rw [hr.core, State.core_setCore_ne _ _ _ _ he]

/-- The packer takes the next (tile, window) of `toPack`. -/
theorem takePack_spec {s : State} {c : Nat} {m : RunMop} {slot w : Nat} {rest : List (Nat × Nat)} (bad : List Bool)
    (hm : (s.core c).cur = some m) (hpack : m.toPack = (slot, w) :: rest) : ∃ (p : Packer) (u : State),
    s.takePack c m bad = some (p, u) ∧ p.pw = (slot, w) ∧ (u.core c).wfq = (s.core c).wfq ∧
    (∀ e, e ≠ c → u.core e = s.core e) ∧ ∃ n, (u.core c).cur = some n ∧ m.Marked n := by
  unfold State.takePack
  rw [hpack]
  generalize m.pairOf slot = xy
  obtain ⟨x, y⟩ := xy
  dsimp -zeta only
  extract_lets occ k rows cut t u v z t'
  have hz : Reports t z := ((poisonWords_reports t c 2 _ bad).trans (countReads_reports u c 0 _ _)).trans
    (countIsect_reports v c _ _)
  have hcur : (z.core c).cur = some m := by
    rw [hz.core, State.core_setCore_self]
    exact hm
  obtain ⟨hf, n, hn, hmn⟩ : Feeds c z t' ∧ ∃ n, (t'.core c).cur = some n ∧ m.Marked n := by
    unfold t'
    split
    · exact ⟨poisonPair_feeds z c _ _ _, State.cur_poisonPair _ _ _ hcur⟩
    · exact ⟨.refl z, m, hcur, rfl⟩
  refine ⟨_, t', rfl, rfl, ?_, fun e he => ?_, n, hn, hmn⟩
  · rw [hf.wfq, hz.core, State.core_setCore_self]
  · rw [hf.others e he, hz.core, State.core_setCore_ne _ _ _ _ he]

/-- A wavefront of a (tile, window), and the work behind it: nothing else joins `WFQ`. -/
theorem emitted (s : State) (c : Nat) (m : RunMop) (p : Packer) : ∃ w : Wavefront,
    ((((s.emitWave c m p).advance c).prefetch c).core c).wfq = (s.core c).wfq ++ [w] ∧ w.tile = p.pw.1 ∧
    w.win = p.pw.2 ∧
    (w.lanes, w.slots) = ((packNext m.slots m.bandOf p).1, (packNext m.slots m.bandOf p).2.1) ∧
    ∀ e, e ≠ c → (((s.emitWave c m p).advance c).prefetch c).core e = s.core e := by
  obtain ⟨w, hwfq, htile, hwin, hlanes, hothers⟩ := emitWave_spec s c m p
  have hf := (advance_feeds (s.emitWave c m p) c).trans (prefetch_feeds _ c)
  refine ⟨w, ?_, htile, hwin, hlanes, fun e he => ?_⟩
  · rw [hf.wfq, hwfq]
  · rw [hf.others e he, hothers e he]

section
variable {c : Core} {bad : List Bool} {s : State} {m : RunMop} (hrun : s.coreRuns c = true)
  (hm : (s.core c).cur = some m) (hroom : (s.core c).wfq.length < 4)
include hrun hm hroom

theorem exec_wavefrontEmit_packs {p : Packer} (hp : (s.core c).pack = some p) : exec (.wavefrontEmit ⟨c, bad⟩) s =
    .next (((s.emitWave c m p).advance c).prefetch c) := by
  show execWavefrontEmit ⟨c, bad⟩ s = _
  unfold execWavefrontEmit
  dsimp only
  rw [hm]
  dsimp only
  rw [if_neg (by simp [hrun, hroom]), hp]

theorem exec_wavefrontEmit_takes {p : Packer} {u : State} (hp : (s.core c).pack = none)
    (hready : s.feedReady c m = true) (htake : s.takePack c m bad = some (p, u)) : exec (.wavefrontEmit ⟨c, bad⟩) s =
    .next (((u.emitWave c ((u.core c).cur.getD m) p).advance c).prefetch c) := by
  show execWavefrontEmit ⟨c, bad⟩ s = _
  unfold execWavefrontEmit
  dsimp only
  rw [hm]
  dsimp only
  rw [if_neg (by simp [hrun, hroom]), hp]
  dsimp only
  rw [if_neg (by simp [hready]), htake]

end

/-! ### The merge unit -/

/-- The core whose merge unit has taken an index segment. -/
def CoreSt.merged (k : CoreSt) (n : RunMop) (last : Option IndexWord) : CoreSt :=
  { k with cur := some n, ixq := [], ixLast := last }

theorem exec_mergeSegment {c : Core} {bad : List Bool} {s : State} {m : RunMop} {d : Desc} {lo n esz : Nat}
    {seg : List Nat × List (Nat × Nat) × List Drop} (hrun : s.coreRuns c = true) (hm : (s.core c).cur = some m)
    (hnext : m.nextSegment = some (lo, n, esz, d)) (hready : s.feedReady c m = true)
    (hseg : seg = ((s.coreRd c).withWords (s.segmentWords c m bad)).segment d lo n esz) :
    ∃ (u : State) (k : RunMop) (last : Option IndexWord), Reports (s.setCore c ((s.core c).merged k last)) u ∧
      k.segsLeft = m.segsLeft - 1 ∧ k.merged = m.merged ++ sortPairs seg.2.1 ∧
      exec (.mergeSegment ⟨c, bad⟩) s = .next ((u.advance c).prefetch c) := by
  subst hseg
  show ∃ u k last, _ ∧ _ ∧ _ ∧ execMergeSegment ⟨c, bad⟩ s = _
  unfold execMergeSegment
  dsimp -zeta only
  extract_lets +onlyGivenNames k
  have hk : k.cur = some m := hm
  rw [hk]
  dsimp -zeta only
  rw [if_neg (by simp [hrun, hready]), hnext]
  dsimp -zeta only
  extract_lets +onlyGivenNames words
  generalize ((s.coreRd c).withWords words).segment d lo n esz = seg
  obtain ⟨lost, pairs, drops⟩ := seg
  dsimp -zeta only
  extract_lets own dup m' t u v x y
  refine ⟨y, m', s.ixEnd c m' <|> k.ixLast, ?_, rfl, rfl, rfl⟩
  have hv : Reports t v := (poisonWords_reports t c 4 _ bad).trans
    (.foldl (fun s q => metaDrop_reports s c 0 m'.tagA q) drops u)
  have hx : Reports v x := by
    unfold x
    split
    · exact .refl v
    · exact inc_reports v _ _
  exact (hv.trans hx).trans ((inc_reports x _ _).trans (count_reports _ _ _ _ _))

/-! ### The statement -/

/-- Settles O19: the stationary register, the packer, the merge unit, and their empty queues. -/
theorem feederPacks : Obligations.FeederPacks := by
  unfold Obligations.FeederPacks
  refine ⟨feederPacks_loads, fun c bad s m hrun hm hroom => ⟨fun p hp => ?packs, fun slot w rest hp htop hready => ?takes⟩,
    fun c bad s m d lo n esz seg hrun hm hnext hready hseg => ?merge, fun c bad s hrun hm => ?idle⟩
  case packs =>
    obtain ⟨w, hwfq, htile, hwin, hlanes, hothers⟩ := emitted s c m p
    exact ⟨_, w, exec_wavefrontEmit_packs hrun hm hroom hp, rfl, hwfq, htile, hwin, hlanes, hothers⟩
  case takes =>
    obtain ⟨p, u, htake, hpw, hu, hothers, n, hn, hmn⟩ := takePack_spec bad hm htop
    obtain ⟨w', hwfq, htile, hwin, hlanes, hothers'⟩ := emitted u c n p
    have hexec := exec_wavefrontEmit_takes (bad := bad) hrun hm hroom hp hready htake
    rw [hn, Option.getD_some] at hexec
    rw [hpw] at htile hwin
    have hpacks : packNext n.slots n.bandOf p = packNext m.slots m.bandOf p := by rw [hmn]; rfl
    rw [hpacks] at hlanes
    exact ⟨_, u, p, w', hexec, htake, hpw, hwfq.trans (by rw [hu]), htile, hwin, hlanes,
      fun e he => (hothers' e he).trans (hothers e he)⟩
  case merge =>
    obtain ⟨u, k, last, hu, hsegs, hmerged, hexec⟩ := exec_mergeSegment (bad := bad) hrun hm hnext hready hseg
    obtain ⟨hperm, hsorted, hstable⟩ := sortPairs_spec seg.2.1
    refine ⟨u, k, sortPairs seg.2.1, hexec, ?_, hsegs, hmerged, hperm, hsorted, hstable, ?_, fun e he => ?_⟩
    · rw [hu.core, State.core_setCore_self]; rfl
    · rw [hu.core, State.core_setCore_self]; rfl
    · rw [hu.core, State.core_setCore_ne _ _ _ _ he]
  case idle =>
    refine ⟨?_, ?_, ?_, fun hp hq hh => ?_⟩
    · show execStationaryLoad ⟨c, bad⟩ s = _
      simp only [execStationaryLoad, hm, State.idleRead_of_runs hrun]
    · show execWavefrontEmit ⟨c, bad⟩ s = _
      simp only [execWavefrontEmit, hm, State.idleRead_of_runs hrun]
    · show execMergeSegment ⟨c, bad⟩ s = _
      simp only [execMergeSegment, hm, State.idleRead_of_runs hrun]
    · have hcross : s.crossDrq c [] bad = s := rfl
      have hdue : (s.core c).drainRun = none := by simp only [CoreSt.drainRun, hp, hm]
      show execTileDrain ⟨c, bad⟩ s = _
      simp [execTileDrain, hq, hh, hcross, hdue, State.idleRead_of_runs hrun]

end Sys2Proof.Machine
end

section
/-! SUPPORT. A wavefront in the PE rows and its word of lane sums (R155, R158). -/

namespace Sys2Proof.Machine

open Sys2Proof

theorem mem_waveSums {m : RunMop} {b : StatBank} {w : Wavefront} {l j : Nat} {r : Word × Nat × Nat × Bool × Bool} :
    (l, j, r) ∈ waveSums m b w ↔ l < w.lanes.length ∧ j < 128 ∧ laneResult m b w l j = some r := by
  unfold waveSums
  simp only [List.mem_flatMap, List.mem_filterMap, List.mem_range, Option.map_eq_some_iff, Prod.mk.injEq]
  constructor
  · rintro ⟨l', hl, j', hj, r', hr, rfl, rfl, rfl⟩
    exact ⟨hl, hj, hr⟩
  · rintro ⟨hl, hj, hr⟩
    exact ⟨l, hl, j, hj, r, hr, rfl, rfl, rfl⟩

/-- The sum of a lane and column in the word of a wavefront. -/
theorem sumWord_at (m : RunMop) (b : StatBank) (w : Wavefront) (bad : Bool) (l j : Nat) :
    (sumWord m b w bad).at l j = if l < w.lanes.length ∧ j < 128 then
      (match laneResult m b w l j with
        | some r => r.1
        | none => 0) else 0 := by
  have hsums : (sumWord m b w bad).sums = (waveSums m b w).map fun o => (o.1, o.2.1, o.2.2.1) := rfl
  unfold SumWord.at
  split
  · rename_i q hq
    have hkey := List.find?_some hq
    have hmem := List.mem_of_find?_eq_some hq
    rw [hsums, List.mem_map] at hmem
    obtain ⟨⟨l', j', r⟩, hr, rfl⟩ := hmem
    simp only [Bool.and_eq_true, beq_iff_eq] at hkey
    obtain ⟨rfl, rfl⟩ := hkey
    obtain ⟨hl, hj, hres⟩ := mem_waveSums.mp hr
    rw [if_pos ⟨hl, hj⟩, hres]
  · rename_i hnone
    split
    · rename_i hin
      cases hres : laneResult m b w l j with
      | none => rfl
      | some r =>
        have hmem : (l, j, r.1) ∈ (sumWord m b w bad).sums := by
          rw [hsums]
          exact List.mem_map.mpr ⟨(l, j, r), mem_waveSums.mpr ⟨hin.1, hin.2, hres⟩, rfl⟩
        exact absurd (List.find?_eq_none.mp hnone _ hmem) (by simp)
    · rfl

theorem foldl_add_two_pow (n : Nat) : (List.range n).foldl (fun a l => a + 2 ^ l) 0 = 2 ^ n - 1 := by
  induction n with
  | zero => rfl
  | succ n ih =>
    rw [List.range_succ, List.foldl_append, ih, List.foldl_cons, List.foldl_nil, pow_succ]
    have : 0 < 2 ^ n := Nat.two_pow_pos n
    omega

/-- A word with bad parity poisons every lane of its sums (R147). -/
theorem sumWord_poison (m : RunMop) (b : StatBank) (w : Wavefront) {l : Nat} (hl : l < w.lanes.length) (h8 : l < 8) :
    (sumWord m b w true).poison.getLsbD l = true := by
  have hall : (sumWord m b w true).poison = BitVec.ofNat 8 ((List.range w.lanes.length).foldl (fun a l => a + 2 ^ l) 0) := by
    unfold sumWord
    simp only [Bool.true_or, if_true]
  rw [hall, foldl_add_two_pow, BitVec.getLsbD_ofNat, Nat.testBit_two_pow_sub_one]
  simp [hl, h8]

theorem countAcc_reports (s : State) (c sat nf : Nat) : Reports s (s.countAcc c sat nf) :=
  (((incThr_reports s _ _ _ _ _ _).trans (count_reports _ _ _ _ _)).trans (inc_reports _ _ _)).trans
    (count_reports _ _ _ _ _)

/-- The core that turns to its other stationary register, when the last wavefront of a window has passed. -/
def CoreSt.turn (k : CoreSt) (last : Bool) : CoreSt :=
  if last then
    (if k.actB then { k with bankB := StatBank.empty, actB := false }
     else { k with bankA := StatBank.empty, actB := true })
  else k

/-- The core once a wavefront has passed its PE rows. -/
def CoreSt.passed (k : CoreSt) (m : RunMop) (w : Wavefront) (bad : Bool) : CoreSt :=
  ({ k with sumq := k.sumq ++ [sumWord m k.active w bad] } : CoreSt).turn (w.winLast && m.op != 0x16)

section
variable (k : CoreSt) (last : Bool)

theorem CoreSt.turn_wfq : (k.turn last).wfq = k.wfq := by
  unfold CoreSt.turn
  split
  · split <;> rfl
  · rfl

theorem CoreSt.turn_wfLast : (k.turn last).wfLast = k.wfLast := by
  unfold CoreSt.turn
  split
  · split <;> rfl
  · rfl

theorem CoreSt.turn_sumq : (k.turn last).sumq = k.sumq := by
  unfold CoreSt.turn
  split
  · split <;> rfl
  · rfl

end

section
variable (k : CoreSt) (m : RunMop) (w : Wavefront) (bad : Bool)

theorem CoreSt.passed_wfq : (k.passed m w bad).wfq = k.wfq := CoreSt.turn_wfq _ _
theorem CoreSt.passed_wfLast : (k.passed m w bad).wfLast = k.wfLast := CoreSt.turn_wfLast _ _
theorem CoreSt.passed_sumq : (k.passed m w bad).sumq = k.sumq ++ [sumWord m k.active w bad] := CoreSt.turn_sumq _ _

end

theorem passWave_reports {s : State} {c : Nat} {m : RunMop} (hm : (s.core c).cur = some m) (w : Wavefront) (bad : Bool) :
    Reports (s.setCore c ((s.core c).passed m w bad)) (s.passWave c w bad) := by
  unfold State.passWave
  extract_lets +onlyGivenNames k
  split
  · rename_i hnone
    exact absurd (hm.symm.trans hnone) (Option.some_ne_none m)
  · rename_i m' hm'
    obtain rfl : m = m' := Option.some.inj (hm.symm.trans hm')
    extract_lets outs sat nf k' k''
    have hk'' : k'' = (s.core c).passed m w bad := rfl
    rw [← hk'']
    exact countAcc_reports _ _ _ _

/-- The core whose PE rows take the front of `WFQ`. -/
def CoreSt.popWave (k : CoreSt) (w : Wavefront) (rest : List Wavefront) (now : Nat) : CoreSt :=
  { k with wfq := rest, wfLast := some w, progress := now }

theorem exec_wavefront {c : Core} {bad : Bool} {s : State} {w : Wavefront} {rest : List Wavefront}
    (hrun : s.coreRuns c = true) (hq : (s.core c).wfq = w :: rest) (hroom : (s.core c).sumq.length < 4) :
    ∃ u, Reports (s.setCore c ((s.core c).popWave w rest s.now)) u ∧
      exec (.wavefront c bad) s = .next (u.passWave c w bad) := by
  show ∃ u, _ ∧ execWavefront c bad s = _
  unfold execWavefront
  extract_lets +onlyGivenNames k
  have hk : k.wfq = w :: rest := hq
  have hgo : ¬(!s.coreRuns c || decide (4 ≤ k.sumq.length)) = true := by
    have : k.sumq.length < 4 := hroom
    simp [hrun, this]
  rw [if_neg hgo, hk]
  dsimp -zeta only
  extract_lets t u v
  refine ⟨v, ?_, rfl⟩
  have hu : Reports t u := by
    unfold u
    split
    · exact qPoison_reports t c 5
    · exact .refl t
  exact hu.trans (((count_reports u _ _ _ _).trans (count_reports _ _ _ _ _)).trans (count_reports _ _ _ _ _))

/-- Settles O20: a wavefront leaves `WFQ` and makes its word of lane sums; an empty queue gives the last word again. -/
theorem wavefrontMakesLaneSums : Obligations.WavefrontMakesLaneSums := by
  unfold Obligations.WavefrontMakesLaneSums
  refine ⟨fun c bad s m w rest hrun hm hq hroom => ?_, fun c bad s hrun => ⟨fun hq hroom => ?_, fun hq => ?_⟩⟩
  · obtain ⟨u, hu, hexec⟩ := exec_wavefront (bad := bad) hrun hq hroom
    have hcore : u.core c = (s.core c).popWave w rest s.now := by rw [hu.core, State.core_setCore_self]
    have hcur : (u.core c).cur = some m := by rw [hcore]; exact hm
    have hr := passWave_reports hcur w bad
    have ht : (u.passWave c w bad).core c = ((s.core c).popWave w rest s.now).passed m w bad := by
      rw [hr.core, State.core_setCore_self, hcore]
    refine ⟨_, sumWord m (s.core c).active w bad, hexec, ?_, ?_, ?_, rfl, rfl, rfl, rfl, sumWord_at m _ w bad, ?_,
      fun e he => ?_⟩
    · rw [ht, CoreSt.passed_wfq]; rfl
    · rw [ht, CoreSt.passed_wfLast]; rfl
    · rw [ht, CoreSt.passed_sumq]; rfl
    · rintro rfl l hl h8
      exact sumWord_poison m _ w hl h8
    · rw [hr.core, State.core_setCore_ne _ _ _ _ he, hu.core, State.core_setCore_ne _ _ _ _ he]
  · show execWavefront c bad s = _
    simp [execWavefront, hrun, hroom, hq]
  · refine ⟨_, ?_, rfl⟩
    show execSumqAccumulate c bad s = _
    simp only [execSumqAccumulate, hrun, hq, Bool.true_eq_false, if_false]

end Sys2Proof.Machine
end

section
/-! SUPPORT. The subclasses of a row's drops: there are four (R91, R92). -/

namespace Sys2Proof.Machine

open Sys2Proof

/-- Every drop names one of the four subclasses. -/
def Known (l : List Drop) : Prop := ∀ q ∈ l, q.sub < 4

theorem Known.nil : Known [] := fun _ h => absurd h List.not_mem_nil

theorem Known.append {l k : List Drop} (hl : Known l) (hk : Known k) : Known (l ++ k) := fun q h =>
  (List.mem_append.mp h).elim (hl q) (hk q)

theorem Known.cons {q : Drop} {l : List Drop} (hq : q.sub < 4) (hl : Known l) : Known (q :: l) := fun x h =>
  (List.mem_cons.mp h).elim (fun e => e ▸ hq) (hl x)

theorem Known.filter {l : List Drop} (h : Known l) (p : Drop → Bool) : Known (l.filter p) := fun q hq =>
  h q (List.mem_of_mem_filter hq)

section
variable {a : RowRead} (h : Known a.drops)
include h

theorem known_push (row col : Nat) (x : SlotRead) (block : Nat) : Known (a.push row col x block).drops := by
  show Known (if x.spillDrop then _ else _)
  split
  · exact h.append (.cons (show 1 < 4 by decide) .nil)
  · exact h

theorem known_drop {sub : Nat} (hs : sub < 4) (n row : Nat) (col : Option Nat) :
    Known (a.drop sub n row col).drops := by
  unfold RowRead.drop
  split
  · exact h
  · exact h.append (.cons hs .nil)

theorem known_slotsRow (r : Rd) (d : Desc) (row : Nat) (l : List (Nat × Nat)) : Known (r.slotsRow d row l a).drops :=
  pred_foldl (P := fun a : RowRead => Known a.drops) (fun _ ha _ => known_push ha _ _ _ _) h

theorem known_maskRow (r : Rd) (d : Desc) (n m i g q : Nat) : Known (r.maskRow d n m i g q a).drops := by
  unfold Rd.maskRow
  split
  · exact h
  · refine pred_foldl (P := fun a : RowRead => Known a.drops) (fun a ha p => ?_) h
    dsimp only
    split
    · exact known_drop ha (by decide) _ _ _
    · split
      · exact known_drop ha (by decide) _ _ _
      · exact known_push ha _ _ _ _

end

section
variable (r : Rd) (d : Desc)

theorem known_dnsRow (trans : Bool) (i : Nat) : Known (r.dnsRow d trans i).drops :=
  pred_foldl (P := fun a : RowRead => Known a.drops) (fun _ ha _ => known_push ha _ _ _ _) .nil

theorem known_bmpRow (i : Nat) : Known (r.bmpRow d i).drops := by
  unfold Rd.bmpRow
  extract_lets c lo hi a0 cols
  split
  · exact .nil
  · split
    · exact known_drop .nil (by decide) _ _ _
    · refine pred_foldl (P := fun a : RowRead => Known a.drops) (fun a ha p => ?_) .nil
      extract_lets k
      split
      · exact known_drop ha (by decide) _ _ _
      · split
        · exact known_drop ha (by decide) _ _ _
        · exact known_push ha _ _ _ _

theorem known_nmRow (tnm : Bool) (n m i : Nat) : Known (r.nmRow d tnm n m i).drops :=
  pred_foldl (P := fun a : RowRead => Known a.drops) (fun _ ha _ =>
    pred_foldl (P := fun a : RowRead => Known a.drops) (fun _ ha _ => known_maskRow ha r d n m _ _ _) ha) .nil

theorem known_indexRun (row bound unit n e : Nat) (last : Option Nat) :
    Known (r.indexRun d row bound unit n e last).2 := by
  induction n generalizing e last with
  | zero => exact .nil
  | succ n ih =>
    unfold Rd.indexRun
    extract_lets a ix x y
    split
    · exact ih _ _
    · split
      · exact .cons (show 0 < 4 by decide) (ih _ _)
      · split
        · exact .cons (show 1 < 4 by decide) (ih _ _)
        · refine pred_ite (P := fun x : List (Nat × Nat) × List Drop => Known x.2) ?_ ?_
          · exact .cons (show 3 < 4 by decide) (ih _ _)
          · exact ih _ _

theorem known_ptrRun (i bound unit : Nat) : Known (r.ptrRun d i bound unit).2.1 := by
  unfold Rd.ptrRun
  extract_lets p lo hi n x extra
  split
  · exact .nil
  · split
    · exact .cons (show 3 < 4 by decide) .nil
    · refine (known_indexRun r d _ _ _ _ _ _).append ?_
      split
      · exact .nil
      · exact .cons (show 1 < 4 by decide) .nil

theorem known_cooRun (n e : Nat) (last : Option (Nat × Nat)) : ∀ q ∈ (r.cooRun d n e last).2, q.2.sub < 4 := by
  induction n generalizing e last with
  | zero => exact fun _ h => absurd h List.not_mem_nil
  | succ n ih =>
    have hcons {p : Option Nat × Drop} {l : List (Option Nat × Drop)} (hp : p.2.sub < 4) (hl : ∀ q ∈ l, q.2.sub < 4) :
        ∀ q ∈ p :: l, q.2.sub < 4 := fun q hq => (List.mem_cons.mp hq).elim (fun e => e ▸ hp) (hl q)
    unfold Rd.cooRun
    extract_lets a i j row inRow bad x
    split
    · exact ih _ _
    · split
      · exact hcons (show 0 < 4 by decide) (ih _ _)
      · split
        · exact hcons (show 1 < 4 by decide) (ih _ _)
        · split
          · exact hcons (show 0 < 4 by decide) (ih _ _)
          · split
            · exact hcons (show 1 < 4 by decide) (ih _ _)
            · refine pred_ite
                (P := fun x : List (Nat × Nat × Nat) × List (Option Nat × Drop) => ∀ q ∈ x.2, q.2.sub < 4) ?_ ?_
              · exact hcons (show 3 < 4 by decide) (ih _ _)
              · exact ih _ _

theorem known_cooRow (i : Nat) : Known (r.cooRow d i).drops := by
  unfold Rd.cooRow
  extract_lets n x here
  split
  · exact .nil
  · refine known_slotsRow (a := ⟨[], _, [], _⟩) (fun q hq => ?_) r d i _
    obtain ⟨p, hp, rfl⟩ := List.mem_map.mp hq
    exact known_cooRun r d _ _ _ p (List.mem_of_mem_filter hp)

/-- The rows of a view that is not transposed. -/
theorem known_row (i : Nat) : Known (r.row d false i).drops := by
  unfold Rd.row
  split
  · exact known_dnsRow r d false i
  · exact known_bmpRow r d i
  · exact known_nmRow r d false _ _ i
  · exact known_nmRow r d true _ _ i
  · exact known_slotsRow (a := ⟨[], _, [], _⟩) (known_ptrRun r d _ _ _) r d _ _
  · exact known_cooRow r d i
  · exact known_slotsRow (a := ⟨[], _, [], _⟩) (known_ptrRun r d _ _ _) r d _ _
  · exact .nil

end

theorem known_srcInit (s : State) (c : Nat) (d : Desc) (kind : TileKind) (i n0 : Nat) (cols : List Nat) :
    Known (s.srcInit c d kind i n0 cols).read.drops := by
  unfold State.srcInit
  extract_lets r row vs mine mine'
  have hrow : Known row.drops := known_row r d i
  have hmine : Known mine'.drops := by
    unfold mine'
    split
    · exact (hrow.filter _).filter _
    · exact hrow.filter _
  refine hmine.append ?_
  split
  · exact hrow.filter _
  · exact .nil

theorem known_cooInit (s : State) (c : Nat) (m : RunMop) (d : Desc) (i : Nat) (cols : List Nat) :
    Known (s.cooInit c m d i cols).read.drops :=
  pred_foldl (P := fun a : RowRead => Known a.drops) (fun _ ha _ =>
    pred_foldl (P := fun a : RowRead => Known a.drops) (fun _ ha _ => known_push ha _ _ _ _) ha) .nil

/-- The initial values of a tile drop in the known subclasses alone. -/
theorem known_initRow (s : State) (c : Nat) (m : RunMop) (kind : TileKind) (i n0 : Nat) :
    Known (s.initRow c m kind i n0).read.drops := by
  unfold State.initRow
  extract_lets cols
  split
  · split
    · exact .nil
    · split
      · exact known_cooInit s c m _ i cols
      · exact known_srcInit s c _ kind i n0 cols
  · split
    · exact .nil
    · split
      · split <;> exact .nil
      · exact .nil

theorem known_onceEach {l : List Drop} (h : Known l) (seen : List DropKey) : Known (onceEach l seen) := by
  induction l generalizing seen with
  | nil => exact .nil
  | cons q l ih =>
    have hq : q.sub < 4 := h q List.mem_cons_self
    have hl : Known l := fun x hx => h x (List.mem_cons_of_mem q hx)
    unfold onceEach
    split
    · exact .cons hq (ih hl _)
    · split
      · exact ih hl _
      · exact .cons hq (ih hl _)

end Sys2Proof.Machine
end

section
/-! SUPPORT. The registers of a core's tile flags, and what leaves them alone (R165, R166). -/

namespace Sys2Proof.Machine

open Sys2Proof

/-- The registers of a core's saturation and poison flags (R166). -/
def TileReg (a : Nat) : Prop := a < 0x07000000 ∧ 0x7008 ≤ a % 0x00100000 ∧ a % 0x00100000 < 0x7018

theorem TileReg.evcPlace {a : Nat} (h : TileReg a) : evcPlace a = none := by
  obtain ⟨hlt, hlo, hhi⟩ := h
  have hin : a % 0x01000000 % 0x00100000 = a % 0x00100000 := Nat.mod_mod_of_dvd a (by decide)
  simp only [Machine.evcPlace, hin]
  by_cases h0 : a / 0x01000000 = 0
  · rw [if_pos h0]
  · rw [if_neg h0]
    by_cases hc : 0x00100000 ≤ a % 0x01000000
    · rw [if_pos (by omega), if_pos (by omega)]
    · rw [if_neg (by omega), if_pos (by omega)]

theorem tileReg_sat {c i : Nat} (hc : c < 54) (hi : i < 2) : TileReg (Reg.ACC_SAT_TILE c i) := by
  unfold TileReg Reg.ACC_SAT_TILE coreBase
  omega

theorem tileReg_poison {c i : Nat} (hc : c < 54) (hi : i < 2) : TileReg (Reg.ACC_POISON_TILE c i) := by
  unfold TileReg Reg.ACC_POISON_TILE coreBase
  omega

/-- Another register of a core. -/
theorem TileReg.ne_core {a : Nat} (h : TileReg a) (c : Nat) {o : Nat} (ho : o < 0x7008 ∨ 0x7018 ≤ o) (hlt : o < 0x10000) :
    a ≠ coreBase c + o := by
  obtain ⟨-, hlo, hhi⟩ := h
  unfold coreBase
  omega

theorem TileReg.ne_edge {a : Nat} (h : TileReg a) (e o : Nat) : a ≠ edgeBase e + o := by
  obtain ⟨hlt, -⟩ := h
  unfold edgeBase
  omega

/-! ### Counting -/

section
variable {a : Nat} (ha : TileReg a)
include ha

/-- A block number beyond the last one counts in places that no core has. -/
theorem TileReg.reg_evcAdd (s : State) {b : Nat} (hb : 62 ≤ b) (i n : Nat) : (s.evcAdd b i n).reg a = s.reg a := by
  have hne (o : Nat) : a ≠ Reg.evcBase b + o := by
    rw [Reg.evcBase, if_neg (by omega), if_neg (by omega), Nat.add_assoc]
    exact ha.ne_edge _ _
  have hlo : a ≠ Reg.EVC_CNT_LO b i := by rw [Reg.EVC_CNT_LO, Nat.add_assoc]; exact hne _
  have hhi : a ≠ Reg.EVC_CNT_HI b i := by rw [Reg.EVC_CNT_HI, Nat.add_assoc]; exact hne _
  have hset (v : Nat) : (s.setEvcCount b i v).reg a = s.reg a := by
    rw [State.setEvcCount, State.setReg48, State.reg_setReg_ne _ _ _ _ hhi, State.reg_setReg_ne _ _ _ _ hlo]
  have hsel : a ≠ Reg.EVC_SEL b i := hne _
  unfold State.evcAdd
  extract_lets c t sel u
  have hu : u.reg a = s.reg a := by rw [State.reg_setRegF_ne _ _ _ _ _ _ hsel, hset]
  split
  · exact hset _
  · split
    · rw [State.reg_queueNamed, hu]
    · exact hu

theorem TileReg.reg_count (s : State) (b src inst n : Nat) : (s.count b src inst n).reg a = s.reg a := by
  rcases Nat.lt_or_ge b 62 with hb | hb
  · exact State.reg_count s b src inst n a ha.evcPlace hb
  have hq : (s.countQ b src inst n).reg a = s.reg a := by
    unfold State.countQ
    split
    · rfl
    · refine State.reg_foldl _ a _ (fun s i _ => ?_) s
      split
      · exact ha.reg_evcAdd s hb i n
      · rfl
  unfold State.count
  extract_lets t
  split
  · exact hq
  · have hlane := t.hostLane_le 0 (by decide)
    rw [State.reg_pump _ _ _ ha.evcPlace (by omega), hq]

theorem TileReg.reg_countAccess (s : State) (w : Bool) (x n : Nat) : (s.countAccess w x n).reg a = s.reg a := by
  unfold State.countAccess
  split
  · exact State.reg_foldl _ a _ (fun s u _ => ha.reg_count s _ _ _ _) s
  · exact ha.reg_count s _ _ _ _

theorem TileReg.reg_readUnit (s : State) (u : Nat) : (s.readUnit u).reg a = s.reg a := by
  have hlo (e : Nat) : a ≠ Reg.FMEM_ERR_LAST_LO e := ha.ne_edge _ _
  have hhi (e : Nat) : a ≠ Reg.FMEM_ERR_LAST_HI e := ha.ne_edge _ _
  have hue (e : Nat) : a ≠ Reg.FMEM_UE_CNT e := ha.ne_edge _ _
  have hnear (d : Nat) : a ≠ Reg.NMEM_UE_CNT d := by
    obtain ⟨-, hl, hh⟩ := ha
    unfold Reg.NMEM_UE_CNT dieBase
    omega
  unfold State.readUnit
  extract_lets t
  have ht : t.reg a = s.reg a := ha.reg_countAccess s _ _ _
  split
  · exact ht
  · split
    · rw [State.noteBurst, ha.reg_count, State.reg_inc_ne _ _ _ _ (hue _), State.reg_setReg_ne _ _ _ _ (hhi _),
        State.reg_setReg_ne _ _ _ _ (hlo _), ht]
    · rw [State.reg_inc_ne _ _ _ _ (hnear _), ht]

theorem TileReg.reg_feedElems (s : State) (c : Nat) (l : List (Desc × List Nat)) :
    (s.feedElems c l).reg a = s.reg a := State.reg_foldl _ a _ (fun s u _ => ha.reg_readUnit s u) s

theorem TileReg.reg_metaDrop (s : State) (c role tag : Nat) {q : Drop} (hq : q.sub < 4) :
    (s.metaDrop c role tag q).reg a = s.reg a := by
  have hcnt : a ≠ Reg.FDR_MDROP_NEG_CNT c + 4 * q.sub := by
    rw [Reg.FDR_MDROP_NEG_CNT, Nat.add_assoc]
    exact ha.ne_core c (by omega) (by omega)
  have hlast : a ≠ Reg.FDR_MDROP_LAST c := ha.ne_core c (by decide) (by decide)
  have hrow : a ≠ Reg.FDR_MDROP_ROW c := ha.ne_core c (by decide) (by decide)
  rw [State.metaDrop, ha.reg_count, State.reg_setReg_ne _ _ _ _ hrow, State.reg_setReg_ne _ _ _ _ hlast,
    State.reg_incThr_ne _ _ _ _ _ _ _ _ ha.evcPlace hcnt]

theorem TileReg.reg_countReadsOnce (s : State) (c role tag : Nat) {l : List RowRead} (seen : List DropKey)
    (hl : ∀ r ∈ l, Known r.drops) : (s.countReadsOnce c role tag l seen).reg a = s.reg a := by
  have hrsv : a ≠ Reg.FDR_VAL_RSV_CNT c := ha.ne_core c (by decide) (by decide)
  have hknown : Known (l.flatMap RowRead.drops) := fun q hq => by
    obtain ⟨r, hr, hqr⟩ := List.mem_flatMap.mp hq
    exact hl r hr q hqr
  rw [State.countReadsOnce, State.reg_inc_ne _ _ _ _ hrsv]
  exact State.reg_foldl _ a _ (fun s q hq => ha.reg_metaDrop s c role tag (known_onceEach hknown seen q hq)) s

theorem TileReg.reg_countAcc (s : State) (c sat nf : Nat) : (s.countAcc c sat nf).reg a = s.reg a := by
  have hsat : a ≠ Reg.ACC_SAT_CNT c := ha.ne_core c (by decide) (by decide)
  have hnf : a ≠ Reg.ACC_NONFIN_CNT c := ha.ne_core c (by decide) (by decide)
  rw [State.countAcc, ha.reg_count, State.reg_inc_ne _ _ _ _ hnf, ha.reg_count,
    State.reg_incThr_ne _ _ _ _ _ _ _ _ ha.evcPlace hsat]

end

end Sys2Proof.Machine
end

section
/-! SUPPORT. Tiles: their flags, their initial values, the sums that they take and their drain (R165, R166, R174). -/

namespace Sys2Proof.Machine

open Sys2Proof

theorem mem_insertSorted {l : List Nat} {k j : Nat} : j ∈ insertSorted l k ↔ j = k ∨ j ∈ l := by
  induction l with
  | nil => simp [insertSorted]
  | cons x l ih =>
    unfold insertSorted
    split
    · simp
    · split
      · rename_i h
        subst h
        simp
      · rw [List.mem_cons, ih, List.mem_cons, or_left_comm]

/-! ### The flags of one slot -/

/-- What a step leaves of the flags of a slot of core c, and what it does not touch. -/
structure FlagsOnly (c : Nat) (s t : State) : Prop where
  core : t.core c = { s.core c with tileNonfin := (t.core c).tileNonfin, tileEmpty := (t.core c).tileEmpty }
  others : ∀ d, d ≠ c → t.core d = s.core d
  mem : t.mem = s.mem

namespace FlagsOnly

variable {c : Nat} {s t u : State}

theorem of_reports (h : Reports s t) : FlagsOnly c s t := ⟨by rw [h.core], fun d _ => h.core d, h.mem⟩

theorem refl (s : State) : FlagsOnly c s s := of_reports (.refl s)

theorem trans (h : FlagsOnly c s t) (g : FlagsOnly c t u) : FlagsOnly c s u :=
  ⟨by rw [g.core, h.core], fun d hd => (g.others d hd).trans (h.others d hd), g.mem.trans h.mem⟩

theorem setCore {v : CoreSt} (h : v = { s.core c with tileNonfin := v.tileNonfin, tileEmpty := v.tileEmpty }) :
    FlagsOnly c s (s.setCore c v) :=
  ⟨by rw [State.core_setCore_self]; exact h, fun d hd => State.core_setCore_ne _ _ _ _ hd, rfl⟩

end FlagsOnly

section
variable (s : State) (c slot : Nat)

theorem clearFlags_flagsOnly : FlagsOnly c s (s.clearFlags c slot) := by
  unfold State.clearFlags
  extract_lets b t k
  exact (FlagsOnly.of_reports ((setRegF_reports s _ _ _ _).trans (setRegF_reports _ _ _ _ _))).trans (.setCore rfl)

theorem State.tileNonfin_clearFlags :
    ((s.clearFlags c slot).core c).tileNonfin = (s.core c).tileNonfin.filter (· != slot) := by
  rw [State.clearFlags, State.core_setCore_self, State.core_setRegF, State.core_setRegF]

theorem State.tileEmpty_clearFlags :
    ((s.clearFlags c slot).core c).tileEmpty = (s.core c).tileEmpty.filter (· != slot) := by
  rw [State.clearFlags, State.core_setCore_self, State.core_setRegF, State.core_setRegF]

theorem State.regF_clearFlags (a hi lo : Nat) : (s.clearFlags c slot).regF a hi lo =
    ((s.setRegF (Reg.ACC_SAT_TILE c (slot / 32)) (slot % 32) (slot % 32) 0).setRegF
      (Reg.ACC_POISON_TILE c (slot / 32)) (slot % 32) (slot % 32) 0).regF a hi lo := by
  rw [State.clearFlags, State.regF, State.reg_setCore, ← State.regF]

end

/-- A bit that is written says nothing of another one. -/
theorem State.regF_setBit_ne (s : State) {a b i j v : Nat} (hj : j < 32) (h : b ≠ a ∨ j ≠ i) :
    (s.setRegF a i i v).regF b j j = s.regF b j j := by
  by_cases hab : b = a
  · subst hab
    have hji : j ≠ i := h.resolve_left fun hne => hne rfl
    exact State.regF_setRegF_ne s b v hj (Nat.le_refl i) (by omega)
  · exact State.regF_setRegF_of_ne s a v hab j j

theorem State.regF_setBit_self (s : State) (a : Nat) {i : Nat} (hi : i < 32) (v : Bool) :
    (s.setRegF a i i v.toNat).regF a i i = v.toNat := by
  have hw : i + 1 - i = 1 := by omega
  rw [State.regF_setRegF_self s a _ hi, hw]
  cases v <;> rfl

section
variable (s : State) (c slot : Nat)

theorem State.sat_clearFlags_self :
    (s.clearFlags c slot).regF (Reg.ACC_SAT_TILE c (slot / 32)) (slot % 32) (slot % 32) = 0 := by
  rw [State.regF_clearFlags, State.regF_setBit_ne _ (Nat.mod_lt _ (by decide))]
  · exact State.regF_setBit_self s _ (Nat.mod_lt _ (by decide)) false
  · left
    unfold Reg.ACC_SAT_TILE Reg.ACC_POISON_TILE
    omega

theorem State.poison_clearFlags_self :
    (s.clearFlags c slot).regF (Reg.ACC_POISON_TILE c (slot / 32)) (slot % 32) (slot % 32) = 0 := by
  rw [State.regF_clearFlags]
  exact State.regF_setBit_self _ _ (Nat.mod_lt _ (by decide)) false

/-- The second slot of a tile has flags of its own. -/
theorem State.sat_clearFlags_next :
    (s.clearFlags c (slot + 1)).regF (Reg.ACC_SAT_TILE c (slot / 32)) (slot % 32) (slot % 32) =
      s.regF (Reg.ACC_SAT_TILE c (slot / 32)) (slot % 32) (slot % 32) := by
  have h32 : slot % 32 < 32 := Nat.mod_lt _ (by decide)
  rw [State.regF_clearFlags, State.regF_setBit_ne _ h32, State.regF_setBit_ne _ h32] <;>
    unfold Reg.ACC_SAT_TILE <;> (try unfold Reg.ACC_POISON_TILE) <;> omega

theorem State.poison_clearFlags_next :
    (s.clearFlags c (slot + 1)).regF (Reg.ACC_POISON_TILE c (slot / 32)) (slot % 32) (slot % 32) =
      s.regF (Reg.ACC_POISON_TILE c (slot / 32)) (slot % 32) (slot % 32) := by
  have h32 : slot % 32 < 32 := Nat.mod_lt _ (by decide)
  rw [State.regF_clearFlags, State.regF_setBit_ne _ h32, State.regF_setBit_ne _ h32] <;>
    unfold Reg.ACC_POISON_TILE <;> (try unfold Reg.ACC_SAT_TILE) <;> omega

end

section
variable (s : State) (c slot : Nat) (sat poison nonfin : Bool)

/-- The flags of a slot in the registers, and what then joins the non-finite ones of the core. -/
theorem State.flagTile_eq : ∃ t, Reports s t ∧
    s.flagTile c slot sat poison nonfin = (if nonfin then
      t.setCore c { t.core c with tileNonfin := insertSorted (t.core c).tileNonfin slot } else t) ∧
    (s.regF (Reg.ACC_SAT_TILE c (slot / 32)) (slot % 32) (slot % 32) = 0 →
      t.regF (Reg.ACC_SAT_TILE c (slot / 32)) (slot % 32) (slot % 32) = sat.toNat) ∧
    (s.regF (Reg.ACC_POISON_TILE c (slot / 32)) (slot % 32) (slot % 32) = 0 →
      t.regF (Reg.ACC_POISON_TILE c (slot / 32)) (slot % 32) (slot % 32) = poison.toNat) := by
  have h32 : slot % 32 < 32 := Nat.mod_lt _ (by decide)
  have hne : Reg.ACC_SAT_TILE c (slot / 32) ≠ Reg.ACC_POISON_TILE c (slot / 32) := by
    unfold Reg.ACC_SAT_TILE Reg.ACC_POISON_TILE
    omega
  unfold State.flagTile
  extract_lets +onlyGivenNames b t u
  obtain ⟨ht, hts, htp⟩ : Reports s t ∧
      (s.regF (Reg.ACC_SAT_TILE c (slot / 32)) b b = 0 → t.regF (Reg.ACC_SAT_TILE c (slot / 32)) b b = sat.toNat) ∧
      t.regF (Reg.ACC_POISON_TILE c (slot / 32)) b b = s.regF (Reg.ACC_POISON_TILE c (slot / 32)) b b := by
    unfold t
    cases sat with
    | false => exact ⟨.refl s, id, rfl⟩
    | true =>
      exact ⟨setRegF_reports s _ _ _ _, fun _ => State.regF_setBit_self s _ h32 true,
        State.regF_setBit_ne s h32 (.inl hne.symm)⟩
  obtain ⟨hu, hus, hup⟩ : Reports t u ∧
      u.regF (Reg.ACC_SAT_TILE c (slot / 32)) b b = t.regF (Reg.ACC_SAT_TILE c (slot / 32)) b b ∧
      (t.regF (Reg.ACC_POISON_TILE c (slot / 32)) b b = 0 →
        u.regF (Reg.ACC_POISON_TILE c (slot / 32)) b b = poison.toNat) := by
    unfold u
    cases poison with
    | false => exact ⟨.refl t, rfl, id⟩
    | true =>
      exact ⟨setRegF_reports t _ _ _ _, State.regF_setBit_ne t h32 (.inl hne),
        fun _ => State.regF_setBit_self t _ h32 true⟩
  exact ⟨u, ht.trans hu, rfl, fun h => hus.trans (hts h), fun h => hup (htp.trans h)⟩

theorem flagTile_flagsOnly : FlagsOnly c s (s.flagTile c slot sat poison nonfin) := by
  obtain ⟨t, ht, heq, -⟩ := s.flagTile_eq c slot sat poison nonfin
  rw [heq]
  split
  · exact (FlagsOnly.of_reports ht).trans (.setCore rfl)
  · exact .of_reports ht

theorem State.tileNonfin_flagTile : ((s.flagTile c slot sat poison nonfin).core c).tileNonfin =
    if nonfin then insertSorted (s.core c).tileNonfin slot else (s.core c).tileNonfin := by
  obtain ⟨t, ht, heq, -⟩ := s.flagTile_eq c slot sat poison nonfin
  rw [heq]
  split
  · rw [State.core_setCore_self, ht.core]
  · rw [ht.core]

theorem State.tileEmpty_flagTile : ((s.flagTile c slot sat poison nonfin).core c).tileEmpty = (s.core c).tileEmpty := by
  obtain ⟨t, ht, heq, -⟩ := s.flagTile_eq c slot sat poison nonfin
  rw [heq]
  split
  · rw [State.core_setCore_self, ht.core]
  · rw [ht.core]

theorem State.sat_flagTile (h0 : s.regF (Reg.ACC_SAT_TILE c (slot / 32)) (slot % 32) (slot % 32) = 0) :
    (s.flagTile c slot sat poison nonfin).regF (Reg.ACC_SAT_TILE c (slot / 32)) (slot % 32) (slot % 32) =
      sat.toNat := by
  obtain ⟨t, ht, heq, hsat, -⟩ := s.flagTile_eq c slot sat poison nonfin
  rw [heq, ← hsat h0]
  split
  · rw [State.regF, State.reg_setCore, State.regF]
  · rfl

theorem State.poison_flagTile (h0 : s.regF (Reg.ACC_POISON_TILE c (slot / 32)) (slot % 32) (slot % 32) = 0) :
    (s.flagTile c slot sat poison nonfin).regF (Reg.ACC_POISON_TILE c (slot / 32)) (slot % 32) (slot % 32) =
      poison.toNat := by
  obtain ⟨t, ht, heq, -, hpoison⟩ := s.flagTile_eq c slot sat poison nonfin
  rw [heq, ← hpoison h0]
  split
  · rw [State.regF, State.reg_setCore, State.regF]
  · rfl

end

/-! ### The start of a tile -/

theorem feedElems_reports (s : State) (c : Nat) (l : List (Desc × List Nat)) : Reports s (s.feedElems c l) :=
  .foldl (fun s u => readUnit_reports s u) _ s

/-- The core whose tile in a slot has its initial values (R165). -/
def CoreSt.tileBegun (k : CoreSt) (m : RunMop) (slot : Nat) (rest : List Nat) (x : Tile) (got : List (Nat × InitRow)) :
    CoreSt :=
  { k with
    cur := some { m with
      toInit := rest
      dropped := (m.dropped ++ ((got.map fun g => g.2.read).flatMap RowRead.drops).filterMap Drop.key).dedup }
    acc := initAcc x k.acc slot got
    tiles := SMap.set (fun _ => none) k.tiles slot (some { x with init := true }) }

/-- What the start of a tile says of it. -/
structure TileBegun (c : Nat) (slot : Nat) (sat bad nonfin : Bool) (v u : State) : Prop where
  flags : FlagsOnly c v u
  sat : u.regF (Reg.ACC_SAT_TILE c (slot / 32)) (slot % 32) (slot % 32) = sat.toNat
  poison : u.regF (Reg.ACC_POISON_TILE c (slot / 32)) (slot % 32) (slot % 32) = bad.toNat
  nonfin : slot ∈ (u.core c).tileNonfin ↔ nonfin = true
  empty : slot ∉ (u.core c).tileEmpty

theorem TileBegun.trans_reports {c slot : Nat} {sat bad nonfin : Bool} {v t u : State}
    (h : TileBegun c slot sat bad nonfin v t) (hr : Reports t u)
    (hreg : ∀ a, TileReg a → u.reg a = t.reg a) (hc : c < 54) (hslot : slot < 64) :
    TileBegun c slot sat bad nonfin v u := by
  refine ⟨h.flags.trans (.of_reports hr), ?_, ?_, ?_, ?_⟩
  · rw [State.regF, hreg _ (tileReg_sat hc (by omega)), ← State.regF, h.sat]
  · rw [State.regF, hreg _ (tileReg_poison hc (by omega)), ← State.regF, h.poison]
  · rw [hr.core]
    exact h.nonfin
  · rw [hr.core]
    exact h.empty

/-- The flags of a slot start clear but for what its initial values set. -/
theorem tileBegun_flagTile (v : State) (c slot : Nat) (two sat bad nonfin : Bool) : TileBegun c slot sat bad nonfin v
    ((if two then (v.clearFlags c slot).clearFlags c (slot + 1) else v.clearFlags c slot).flagTile c slot sat bad
      nonfin) := by
  obtain ⟨t, ht⟩ : ∃ t, t = if two then (v.clearFlags c slot).clearFlags c (slot + 1) else v.clearFlags c slot :=
    ⟨_, rfl⟩
  rw [← ht]
  obtain ⟨hf, hsat, hpoison, hnf, hempty⟩ : FlagsOnly c v t ∧
      t.regF (Reg.ACC_SAT_TILE c (slot / 32)) (slot % 32) (slot % 32) = 0 ∧
      t.regF (Reg.ACC_POISON_TILE c (slot / 32)) (slot % 32) (slot % 32) = 0 ∧
      slot ∉ (t.core c).tileNonfin ∧ slot ∉ (t.core c).tileEmpty := by
    subst ht
    cases two with
    | false =>
      rw [if_neg Bool.false_ne_true, State.tileNonfin_clearFlags, State.tileEmpty_clearFlags]
      exact ⟨clearFlags_flagsOnly v c slot, State.sat_clearFlags_self v c slot, State.poison_clearFlags_self v c slot,
        by simp, by simp⟩
    | true =>
      rw [if_pos rfl, State.tileNonfin_clearFlags, State.tileEmpty_clearFlags, State.tileNonfin_clearFlags,
        State.tileEmpty_clearFlags, State.sat_clearFlags_next, State.poison_clearFlags_next]
      exact ⟨(clearFlags_flagsOnly v c slot).trans (clearFlags_flagsOnly _ c (slot + 1)),
        State.sat_clearFlags_self v c slot, State.poison_clearFlags_self v c slot, by simp, by simp⟩
  refine ⟨hf.trans (flagTile_flagsOnly t c slot _ _ _), State.sat_flagTile t c slot _ _ _ hsat,
    State.poison_flagTile t c slot _ _ _ hpoison, ?_, ?_⟩
  · rw [State.tileNonfin_flagTile]
    cases nonfin with
    | true => simp [mem_insertSorted]
    | false => simp [hnf]
  · rw [State.tileEmpty_flagTile]
    exact hempty

theorem exec_tileInit {c : Core} {s : State} {m : RunMop} {slot : Nat} {rest : List Nat} {x : Tile}
    (hlink : s.coreLinked c = true) (hm : (s.core c).cur = some m) (hinit : m.toInit = slot :: rest)
    (hready : s.feedReady c m = true) (hslot : slot < 64)
    (hx : SMap.get (fun _ => none) (s.core c).tiles slot = some x) : ∃ u,
    exec (.tileInit c) s = .next (u.advance c) ∧
    TileBegun c slot (decide (0 < ((s.initRows c m x).map fun g => g.2.sat).sum))
      (((s.initRows c m x).any fun g => g.2.bad) || m.metaPoison.contains (x.x, x.y))
      (decide (0 < ((s.initRows c m x).map fun g => g.2.nf).sum))
      (s.setCore c ((s.core c).tileBegun m slot rest x (s.initRows c m x))) u := by
  have hgo : ¬(s.coreLinked c && s.feedReady c m) = false := by simp [hlink, hready]
  show ∃ u, execTileInit c s = _ ∧ _
  unfold execTileInit
  extract_lets +onlyGivenNames k
  split
  · rename_i hnone
    exact absurd (hm.symm.trans hnone) (Option.some_ne_none m)
  rename_i m' hm'
  obtain rfl : m = m' := Option.some.inj (hm.symm.trans hm')
  rw [hinit]
  dsimp -zeta only
  have hx' : SMap.get (fun _ => none) k.tiles slot = some x := hx
  rw [hx']
  dsimp -zeta only
  rw [if_neg hgo]
  extract_lets +onlyGivenNames rows got sat nf bad tiles reads keys v v1 v2 t t1 t2 t3
  refine ⟨t3, rfl, ?_⟩
  have hv : v = s.setCore c ((s.core c).tileBegun m slot rest x got) := rfl
  have hknown : ∀ r ∈ reads, Known r.drops := fun r hr => by
    obtain ⟨g, hg, rfl⟩ := List.mem_map.mp hr
    obtain ⟨i, -, rfl⟩ := List.mem_map.mp hg
    exact known_initRow s c m x.kind i _
  have hflag := tileBegun_flagTile v c slot x.two (decide (0 < sat)) bad (decide (0 < nf))
  rw [← hv]
  have ht : TileBegun c slot (decide (0 < sat)) bad (decide (0 < nf)) v t :=
    hflag.trans_reports (countAcc_reports _ c sat nf) (fun a ha => ha.reg_countAcc _ _ _ _) c.isLt hslot
  have ht1 : TileBegun c slot (decide (0 < sat)) bad (decide (0 < nf)) v t1 := ht.trans_reports
    (feedElems_reports t c _) (fun a ha => ha.reg_feedElems _ _ _) c.isLt hslot
  have ht2 := ht1.trans_reports (countReadsOnce_reports t1 c 0 m.tagA reads m.dropped)
    (fun a ha => ha.reg_countReadsOnce _ _ _ _ _ hknown) c.isLt hslot
  exact ht2.trans_reports ((count_reports t2 c 0x080 0 1).trans (count_reports _ c 0x081 0 _))
    (fun a ha => by rw [ha.reg_count, ha.reg_count]) c.isLt hslot

/-! ### Sums and the drain -/

/-- The core whose tile has taken a word of lane sums. -/
def CoreSt.addSums (k : CoreSt) (m : RunMop) (x : Tile) (w : SumWord) : CoreSt :=
  { k with cur := some (m.mark x w), acc := (accumulate x k.acc w).1 }

theorem addSums_flagsOnly {s : State} {c : Nat} {m : RunMop} {w : SumWord} {x : Tile} (bad : Bool)
    (hm : (s.core c).cur = some m) (hx : SMap.get (fun _ => none) (s.core c).tiles w.tile = some x) :
    FlagsOnly c (s.setCore c ((s.core c).addSums m x w)) (s.addSums c w bad) := by
  unfold State.addSums
  extract_lets +onlyGivenNames k
  split
  · rename_i m' x' hm' hx'
    obtain rfl : m = m' := Option.some.inj (hm.symm.trans hm')
    obtain rfl : x = x' := Option.some.inj (hx.symm.trans hx')
    extract_lets +onlyGivenNames r t u
    exact (flagTile_flagsOnly t c w.tile _ _ _).trans (.of_reports (countAcc_reports u c _ _))
  · rename_i hno
    exact absurd hx (hno m x hm)

/-- The core that takes the front of `SUMQ`. -/
def CoreSt.popSum (k : CoreSt) (w : SumWord) (rest : List SumWord) : CoreSt :=
  { k with sumq := rest, sumLast := some w }

theorem exec_sumqAccumulate {c : Core} {bad : Bool} {s : State} {w : SumWord} {rest : List SumWord}
    (hrun : s.coreRuns c = true) (hq : (s.core c).sumq = w :: rest) (hready : (s.core c).tileReady w.tile = true) :
    ∃ u : State, Reports (s.setCore c ((s.core c).popSum w rest)) u ∧
      exec (.sumqAccumulate c bad) s = .next (((u.addSums c w bad).advance c).prefetch c) := by
  show ∃ u, _ ∧ execSumqAccumulate c bad s = _
  unfold execSumqAccumulate
  extract_lets +onlyGivenNames k
  have hk : k.sumq = w :: rest := hq
  have hready' : k.tileReady w.tile = true := hready
  rw [if_neg (by simp [hrun]), hk]
  dsimp -zeta only
  rw [if_pos hready']
  extract_lets +onlyGivenNames t u
  refine ⟨u, ?_, rfl⟩
  unfold u
  split
  · exact qPoison_reports t c 6
  · exact .refl t

theorem State.core_commitStage (s : State) (w : Writer) (badUnits : List Nat) (st : Staging) (c : Nat) :
    (s.commitStage w badUnits st).1.core c = s.core c := by
  unfold State.commitStage
  refine pred_foldl (P := fun t : State => t.core c = s.core c) (fun t ht r => ?_) rfl
  dsimp only
  split
  · rw [State.core_put, ht]
  · exact (State.core_put t w r.1 r.2 _ c).trans ht

theorem State.drHeld_setCore {s t : State} {c : Nat} {v : CoreSt} (ht : t.core c = s.core c)
    (hv : v.drHeld = (t.core c).drHeld) : ((t.setCore c v).core c).drHeld = (s.core c).drHeld := by
  rw [State.core_setCore_self, hv, ht]

theorem State.drHeld_commitRun (s : State) (c : Nat) (ws : List DrqWord) (bad : Bool) (r : Nat) :
    ((s.commitRun c ws bad r).core c).drHeld = (s.core c).drHeld := by
  have hstage (l : List Nat) (st : Staging) := State.core_commitStage s (.die (c / 9)) l st c
  unfold State.commitRun
  dsimp only
  split
  · split
    · exact State.drHeld_setCore (hstage _ _) rfl
    · split
      · exact State.drHeld_setCore (hstage _ _) rfl
      · rfl
  · exact State.drHeld_setCore (hstage _ _) rfl
  · rfl

/-- What of the words that cross stays behind `DRQ` waits there. -/
theorem State.drHeld_crossDrq (s : State) (c : Nat) {ws : List DrqWord} (hws : ws ≠ []) (bad : List Bool) :
    ((s.crossDrq c ws bad).core c).drHeld = (ws.drop (ws.takeWhile (s.drqReady c)).length).drop 32 := by
  unfold State.crossDrq
  rw [if_neg (by simpa using hws)]
  extract_lets +onlyGivenNames go rest marked t src u any v
  have hu : (u.core c).drHeld = rest.drop 32 := by rw [State.core_setCore_self]
  have hv : (v.core c).drHeld = rest.drop 32 :=
    pred_foldl (P := fun t : State => (t.core c).drHeld = rest.drop 32)
      (fun t ht r => (State.drHeld_commitRun t c _ _ r).trans ht) hu
  split
  · rw [State.core_setReg, hv]
  · exact hv

theorem exec_tileDrain_next {c : Core} {bad : List Bool} {s : State} (hq : (s.core c).drq = [])
    (hh : (s.core c).drHeld = []) {m : RunMop} {prev : Bool} (hrun : (s.core c).drainRun = some (m, prev))
    (hm : m.drainQ ≠ []) : exec (.tileDrain ⟨c, bad⟩) s = .next (s.drainNext c bad) := by
  have hcross : s.crossDrq c [] bad = s := rfl
  show execTileDrain ⟨c, bad⟩ s = _
  simp [execTileDrain, hq, hh, hcross, hrun, hm]

theorem State.drainNext_of_run {c : Nat} {bad : List Bool} {s : State} {m : RunMop} {prev : Bool} {slot : Nat}
    {rest : List Nat} {x : Tile} (hrun : (s.core c).drainRun = some (m, prev)) (hm : m.drainQ = slot :: rest)
    (hx : SMap.get (fun _ => none) (s.core c).tiles slot = some x) (hready : s.drainReady c m = true) :
    s.drainNext c bad = if s.outputWaits c m then s else s.drainTile c m prev slot x bad := by
  unfold State.drainNext
  dsimp only
  rw [hrun]
  dsimp only
  rw [hm]
  dsimp only
  rw [hx]
  dsimp only
  rw [hready]
  cases s.outputWaits c m <;> rfl

theorem drainRun_of_prev {k : CoreSt} {m : RunMop} (hp : k.prev = some m) (hm : m.drainQ ≠ []) :
    k.drainRun = some (m, true) := by
  simp [CoreSt.drainRun, hp, hm]

theorem drainRun_of_cur {k : CoreSt} {m : RunMop} (hm : k.cur = some m)
    (hp : k.prev = none ∨ ∃ p, k.prev = some p ∧ p.drainQ = []) : k.drainRun = some (m, false) := by
  rcases hp with hp | ⟨p, hp, hd⟩
  · simp [CoreSt.drainRun, hp, hm]
  · simp [CoreSt.drainRun, hp, hd, hm]

/-- Settles O21: how a tile starts, takes lane sums and drains. -/
theorem tilesAreFilledAndDrained : Obligations.TilesAreFilledAndDrained := by
  unfold Obligations.TilesAreFilledAndDrained
  refine ⟨?init, ?sums, ?drain, ?cross⟩
  case init =>
    intro c s m slot rest x got hlink hm hinit hready hslot hx hgot
    subst hgot
    obtain ⟨u, hexec, hu⟩ := exec_tileInit hlink hm hinit hready hslot hx
    have hcore := hu.flags.core
    rw [State.core_setCore_self] at hcore
    have htiles : (u.core c).tiles =
        SMap.set (fun _ => none) (s.core c).tiles slot (some { x with init := true }) := by
      rw [hcore]
      rfl
    refine ⟨u, { m with
      toInit := rest
      dropped := (m.dropped ++ (((s.initRows c m x).map fun g => g.2.read).flatMap RowRead.drops).filterMap
        Drop.key).dedup }, hexec, ?_, rfl, rfl, ?_, fun j hj => ?_, ?_, hu.sat, hu.poison, ?_, hu.empty,
      fun e he => ?_, ?_⟩
    · rw [hcore]; rfl
    · rw [htiles, SMap.get_set_self]
    · rw [htiles, SMap.get_set_ne _ _ _ hj]
    · rw [hcore]; rfl
    · rw [hu.nonfin, decide_eq_true_eq]
    · rw [hu.flags.others e he, State.core_setCore_ne _ _ _ _ he]
    · rw [hu.flags.mem, State.setCore_mem]
  case sums =>
    intro c bad s m w rest x hrun hm hq hready hx
    obtain ⟨u, hu, hexec⟩ := exec_sumqAccumulate (bad := bad) hrun hq hready
    have hpop : u.core c = (s.core c).popSum w rest := by rw [hu.core, State.core_setCore_self]
    have hf := addSums_flagsOnly (s := u) (c := c) bad (by rw [hpop]; exact hm) (by rw [hpop]; exact hx)
    have hcore := hf.core
    rw [State.core_setCore_self, hpop] at hcore
    refine ⟨_, hexec, ?_, ?_, ?_, ?_, ?_, fun e he => ?_⟩
    case refine_6 => rw [hf.others e he, State.core_setCore_ne _ _ _ _ he, hu.core, State.core_setCore_ne _ _ _ _ he]
    all_goals
      rw [hcore]
      rfl
  case drain =>
    intro c bad s m slot rest x hq hh hm hready hx
    have hne : m.drainQ ≠ [] := by simp [hm]
    refine ⟨fun hw => ⟨fun hp => ?_, fun hc hp => ?_⟩, fun hw hp => ?_⟩
    · have hrun := drainRun_of_prev hp hne
      rw [exec_tileDrain_next hq hh hrun hne, State.drainNext_of_run hrun hm hx hready, hw, if_neg Bool.false_ne_true]
    · have hrun := drainRun_of_cur hc hp
      rw [exec_tileDrain_next hq hh hrun hne, State.drainNext_of_run hrun hm hx hready, hw, if_neg Bool.false_ne_true]
    · have hrun := drainRun_of_prev hp hne
      rw [exec_tileDrain_next hq hh hrun hne, State.drainNext_of_run hrun hm hx hready, hw, if_pos rfl]
  case cross =>
    intro c bad s ws hws hne hno
    subst hws
    show execTileDrain ⟨c, bad⟩ s = _
    unfold execTileDrain
    extract_lets +onlyGivenNames c' k waiting t due
    have hheld : (t.core c').drHeld = _ := State.drHeld_crossDrq s c' hne bad
    rcases hno with hnone | hlong
    · have hdue : due = false := by
        unfold due
        rw [show k.drainRun = none from hnone]
      have hwait : waiting.isEmpty = false := List.isEmpty_eq_false_iff.mpr hne
      rw [hdue, hwait, if_neg Bool.false_ne_true, if_neg Bool.false_ne_true, ite_self]
    · have hrest : (t.core c').drHeld.isEmpty = false := by
        rw [hheld, List.isEmpty_eq_false_iff, ← List.length_pos_iff, List.length_drop]
        exact Nat.sub_pos_of_lt hlong
      rw [hrest, if_pos (by rfl)]

end Sys2Proof.Machine
end

section
/-! SUPPORT. What breach records, lost polders and the responses to the host leave alone (R356, R383, R386). -/

namespace Sys2Proof.Machine

open Sys2Proof

/-- State t comes from s by breach records, lost polders, reports and responses to the host. -/
def Declares (s t : State) : Prop :=
  t = { s with
    regs := t.regs, islands := t.islands, links := t.links, log := t.log, evtSeq := t.evtSeq, thrFired := t.thrFired,
    breaches := t.breaches, breachQ := t.breachQ, recWindows := t.recWindows, freeCtr := t.freeCtr, fatal := t.fatal,
    lostPolders := t.lostPolders, standby := t.standby, ctl := t.ctl, hostQs := t.hostQs, engines := t.engines,
    staged := t.staged, norms := t.norms, windows := t.windows }

namespace Declares

theorem refl (s : State) : Declares s s := rfl

theorem trans {s t u : State} (h : Declares s t) (g : Declares t u) : Declares s u := by
  unfold Declares at *
  rw [g, h]

theorem of_reports {s t : State} (h : Reports s t) : Declares s t := by
  unfold Declares Reports at *
  rw [h]

theorem foldl {α : Type} {f : State → α → State} (h : ∀ s a, Declares s (f s a)) (l : List α) (s : State) :
    Declares s (l.foldl f s) := by
  induction l generalizing s with
  | nil => exact refl s
  | cons a l ih => exact (h s a).trans (ih (f s a))

section
variable {s t : State} (h : Declares s t)
include h

theorem mem : t.mem = s.mem := by rw [h]
theorem poison : t.poison = s.poison := by rw [h]
theorem flash : t.flash = s.flash := by rw [h]
theorem otp : t.otp = s.otp := by rw [h]
theorem reads : t.reads = s.reads := by rw [h]
theorem prog : t.prog = s.prog := by rw [h]
theorem cfg : t.cfg = s.cfg := by rw [h]
theorem power : t.power = s.power := by rw [h]
theorem rails : t.rails = s.rails := by rw [h]
theorem railsOff : t.railsOff = s.railsOff := by rw [h]
theorem pwrStates : t.pwrStates = s.pwrStates := by rw [h]
theorem now : t.now = s.now := by rw [h]
theorem tap : t.tap = s.tap := by rw [h]
theorem core (c : Nat) : t.core c = s.core c := by unfold State.core; rw [h]
theorem die (d : Nat) : t.die d = s.die d := by unfold State.die; rw [h]
theorem arb (p : Nat) : t.arb p = s.arb p := by unfold State.arb; rw [h]
theorem chan (c : Nat) : t.chan c = s.chan c := by unfold State.chan; rw [h]
theorem bridge (b : Nat) : t.bridge b = s.bridge b := by unfold State.bridge; rw [h]
theorem rxFlow (f : Nat) : t.rxFlow f = s.rxFlow f := by unfold State.rxFlow; rw [h]
theorem txFlow (f : Nat) : t.txFlow f = s.txFlow f := by unfold State.txFlow; rw [h]
theorem alloc (a : Nat) : t.alloc a = s.alloc a := by unfold State.alloc; rw [h]
theorem desc (d : Nat) : t.desc d = s.desc d := by unfold State.desc; rw [h]
theorem feed (f : Nat) : t.feed f = s.feed f := by unfold State.feed; rw [h]

end

section
variable (s : State)

theorem ctl (c : Ctl) : Declares s { s with ctl := c } := rfl
theorem breaches (l : List Breach) : Declares s { s with breaches := l } := rfl
theorem breachQ (l : List Breach) : Declares s { s with breachQ := l } := rfl
theorem fatal (b : Option Breach) : Declares s { s with fatal := b } := rfl
theorem lostPolders (l : List Nat) : Declares s { s with lostPolders := l } := rfl
theorem standby (b : Bool) : Declares s { s with standby := b } := rfl
theorem runs (l : List Staged) (k : List NormRun) : Declares s { s with staged := l, norms := k } := rfl

end

end Declares

/-! ### The operations -/

section
variable (s : State)

theorem draw_declares : Declares s s.draw.2 := rfl

theorem setHostQ_declares (q : Nat) (v : HostQ) : Declares s (s.setHostQ q v) := rfl

theorem setEngine_declares (e : Nat) (v : EngineSt) : Declares s (s.setEngine e v) := rfl

theorem setWindow_declares (w : Nat) (v : Option Window) : Declares s (s.setWindow w v) := rfl

theorem setCtl_declares (f : Ctl → Ctl) : Declares s (s.setCtl f) := rfl

theorem openWindow_declares (cls polder obj : Nat) : Declares s (s.openWindow cls polder obj) := rfl

theorem breach_declares (i : Nat) (b : BreachInfo) : Declares s (s.breach i b) := by
  unfold State.breach
  extract_lets +onlyGivenNames r t u v w w' x
  have hu : Declares s u := (Declares.of_reports (setIsland_reports s i _)).trans (.breaches t _)
  have hw : Declares u w := .of_reports ((inc_reports u _ _).trans (((inc_reports _ _ _).trans
    (count_reports v 60 0x344 0 1)).trans (count_reports _ 61 0x344 0 1)))
  have hx : Declares w x := by
    unfold x
    split
    · exact (Declares.breachQ w _).trans (.of_reports (setRegF_reports w' _ _ _ _))
    · exact .refl w
  exact ((hu.trans hw).trans hx).trans (.of_reports (sendEvent_reports x 5 r.bytes))

theorem breachOpen_declares (i : Nat) (b : BreachInfo) : Declares s (s.breachOpen i b) :=
  (draw_declares s).trans (breach_declares _ _ _)

theorem answerHost_declares (h : HostCmd) (cmd status args : Nat) (data : List Byte) :
    Declares s (s.answerHost h cmd status args data) :=
  (setHostQ_declares s _ _).trans (.of_reports (hostSend_reports _ _ _))

theorem flushBad_declares (q n : Nat) : Declares s (State.flushBad q n s) := by
  induction n generalizing s with
  | zero => exact .refl s
  | succ n ih =>
    unfold State.flushBad
    split
    · exact .refl s
    · split
      · exact .refl s
      · exact (answerHost_declares s _ _ _ _ _).trans (ih _)

theorem respond_declares (h : HostCmd) (cmd status args : Nat) (data : List Byte) :
    Declares s (s.respond h cmd status args data) :=
  (answerHost_declares s h cmd status args data).trans (flushBad_declares _ _ _)

theorem answerHolds_declares (status detail : Nat) : Declares s (s.answerHolds status detail) :=
  ((Declares.ctl s { s.ctl with holdWaiters := [] }).trans
    (.foldl (fun s h => respond_declares s h cmdHOLD status detail []) s.ctl.holdWaiters _)).trans
    (.of_reports (setRegF_reports _ _ _ _ _))

theorem abandonSteps_declares : Declares s s.abandonSteps := rfl

theorem dropEngines_declares : Declares s s.dropEngines := by
  unfold State.dropEngines
  extract_lets c t u staged norms
  have ht : Declares s t := .foldl (fun s e => by
    extract_lets k v
    refine Declares.trans (t := v) ?_ (setEngine_declares v _ _)
    unfold v
    split
    · exact .of_reports ((setRegF_reports _ _ _ _ _).trans (setRegF_reports _ _ _ _ _))
    · exact .refl s) _ s
  have hu : Declares t u := .of_reports (.foldl (fun s h => setReg_reports s _ _) _ t)
  exact (ht.trans hu).trans (.runs u _ _)

theorem forgetResults_declares (above : Nat) : Declares s (s.forgetResults above) := .foldl (fun s w => by
  split
  · exact setWindow_declares s _ _
  · exact .refl s) _ s

theorem giveUp_declares : Declares s s.giveUp :=
  (((abandonSteps_declares s).trans (dropEngines_declares _)).trans (forgetResults_declares _ _)).trans (.ctl _ _)

theorem enterHolding_declares (cause : Nat) : Declares s (s.enterHolding cause) :=
  ((Declares.ctl s { s.ctl with feedWait := none, mustRun := s.committed }).trans
    (.of_reports ((setRegF_reports _ _ _ _ _).trans (setMode_reports _ _)))).trans (answerHolds_declares _ _ _)

theorem pairLoss_declares (i : Nat) (cause : Option Cause) (polder obj addr : Nat) :
    Declares s (s.pairLoss i cause polder obj addr) := by
  unfold State.pairLoss
  extract_lets t u
  have hu : Declares s u := (breachOpen_declares s i _).trans
    (.of_reports ((setRegF_reports t _ _ _ _).trans (announce_reports _ _ _ _ _)))
  split
  · exact (hu.trans (giveUp_declares u)).trans (enterHolding_declares _ _)
  · exact hu

theorem standbyTakes_declares : Declares s s.standbyTakes :=
  (Declares.standby s true).trans (abandonSteps_declares _)

theorem polderLoss_declares (i polder obj : Nat) (detail : Option Nat) :
    Declares s (s.polderLoss i polder obj detail) := by
  unfold State.polderLoss
  split
  · exact .refl s
  extract_lets takes t i' u b v w
  have ht : Declares s t := by
    unfold t
    split
    · exact standbyTakes_declares s
    · exact .refl s
  have hu : Declares t u := by
    unfold u
    split
    · exact pairLoss_declares t _ _ _ _ _
    · exact .refl t
  have hv : Declares u v := by
    unfold v
    split
    · exact breach_declares u _ _
    · exact breachOpen_declares u _ _
  have hw : Declares s w := ((ht.trans hu).trans hv).trans (.lostPolders v _)
  split
  · exact ((hw.trans (.fatal w _)).trans
      (.of_reports (setMode_reports _ 5))).trans (answerHolds_declares _ _ _)
  · exact hw

end

end Sys2Proof.Machine
end

section
/-! SUPPORT. The predictor's completion, and the units of memory (R224, R252, R263, R264). -/

namespace Sys2Proof.Machine

open Sys2Proof

/-! ### The predictor -/

theorem exec_predictComplete {d : Die} {s : State} {p : PredRun} (hp : (s.die d).pred = some p) :
    exec (.predictComplete d) s = .next (if s.predReady d p then s.predFinish d p else s) := by
  show execPredictComplete d s = _
  unfold execPredictComplete
  rw [hp]

/-- A `PREDICT` without operands, for a refutation. -/
def emptyPredict : PredRun := ⟨⟨0, [0x18], [], 1, 1, 1, [], 0, 0⟩, 0, true, 6⟩

/-- The reset state with a `PREDICT` on die 0, whose NoC is in reset. -/
def predictInReset : State := State.reset.setDie 0 { DieSt.reset with pred := some emptyPredict }

/-- Refutes O22: a `PREDICT` of a die whose NoC is in reset does not complete (R27); the engine keeps it. -/
theorem not_predictorRuns : ¬ Obligations.PredictorRuns := by
  unfold Obligations.PredictorRuns
  rintro ⟨h, -⟩
  obtain ⟨-, hdone⟩ := h 0 predictInReset
  have hp : (predictInReset.die (0 : Die)).pred = some emptyPredict := by
    rw [predictInReset, Fin.val_zero, State.die_setDie_self]
  have hwait : predictInReset.predReady (0 : Die) emptyPredict = false := by decide
  obtain ⟨t, hexec, -, hnone, -⟩ := hdone emptyPredict hp
  rw [exec_predictComplete hp, hwait, if_neg Bool.false_ne_true] at hexec
  obtain rfl : predictInReset = t := Host.Outcome.next.inj hexec
  exact Option.some_ne_none _ (hp.symm.trans hnone)

/-! ### Writes of a unit -/

theorem mem_poisonAfter_clean {p : List Nat} {a n u : Nat} :
    u ∈ poisonAfter p a n false ↔ u ∈ p ∧ ¬(a ≤ u ∧ u + unitSize u ≤ a + n) := by
  simp only [poisonAfter, Bool.false_eq_true, if_false, List.mem_filter]
  refine and_congr_right fun _ => ?_
  simp only [Bool.not_eq_true', Bool.and_eq_false_imp, decide_eq_true_eq, decide_eq_false_iff_not, not_and]

theorem mem_foldl_insertSorted {l p : List Nat} {u : Nat} : u ∈ l.foldl insertSorted p ↔ u ∈ l ∨ u ∈ p := by
  induction l generalizing p with
  | nil => simp
  | cons a l ih =>
    rw [List.foldl_cons, ih, mem_insertSorted, List.mem_cons]
    tauto

/-- A write within one far unit lies in that unit. -/
theorem unitsOf_far {a n : Nat} (ha : a < farSize) (hu : a % 32 = 0) (hn : 0 < n) (h32 : n ≤ 32) :
    unitsOf a n = [a] := by
  have hsize : unitSize a = 32 := if_pos ha
  have hcount : (a + n - 1) / 32 - a / 32 + 1 = 1 := by omega
  have hbase : 32 * (a / 32 + 0) = a := by omega
  simp only [unitsOf, if_neg (Nat.pos_iff_ne_zero.mp hn), hsize, hcount, List.range_one, List.map_cons, List.map_nil,
    hbase]

theorem le_unitSize (u : Nat) : 32 ≤ unitSize u := by
  unfold unitSize
  split <;> decide

theorem unitSize_near {u : Nat} (h : farSize ≤ u) : unitSize u = 64 := if_neg (Nat.not_lt.mpr h)

/-- The marks after a write of at most one unit at its base. -/
theorem poison_put_unit (s : State) (w : Writer) {a n : Nat} (bytes : List Byte) (bad : Bool)
    (hn : bytes.length ≤ n) (hunit : n = unitSize a) (hbase : bad = true → a < farSize ∧ a % 32 = 0) :
    (bad = true → bytes ≠ [] → a ∈ (s.put w a bytes bad).poison) ∧
    (bad = false → n ≤ bytes.length → a ∉ (s.put w a bytes bad).poison) ∧
    (∀ u, u ≠ a → (u ∈ (s.put w a bytes bad).poison ↔ u ∈ s.poison)) := by
  have hpos : 32 ≤ unitSize a := le_unitSize a
  have hgrow (u : Nat) (hu : a ≤ u) : unitSize a ≤ unitSize u := by
    unfold unitSize
    split
    · split <;> decide
    · rw [if_neg (by omega)]
  rcases eq_or_ne bytes [] with rfl | hne
  · refine ⟨fun _ h => absurd rfl h, fun _ h => ?_, fun u _ => Iff.rfl⟩
    simp only [List.length_nil] at h
    omega
  rw [State.put_poison s w a bytes bad hne]
  cases bad with
  | true =>
    obtain ⟨hfar, halign⟩ := hbase rfl
    have h32 : unitSize a = 32 := if_pos hfar
    have hunits : unitsOf a bytes.length = [a] :=
      unitsOf_far hfar halign (List.length_pos_iff.mpr hne) (by omega)
    have hmem (u : Nat) : u ∈ poisonAfter s.poison a bytes.length true ↔ u = a ∨ u ∈ s.poison := by
      rw [poisonAfter, if_pos rfl, hunits, mem_foldl_insertSorted, List.mem_singleton]
    exact ⟨fun _ _ => (hmem a).mpr (.inl rfl), fun h => absurd h (by decide),
      fun u hu => (hmem u).trans (or_iff_right hu)⟩
  | false =>
    refine ⟨fun h => absurd h (by decide), fun _ hfull h => ?_, fun u hu => ?_⟩
    · exact (mem_poisonAfter_clean.mp h).2 ⟨Nat.le_refl a, by omega⟩
    · refine mem_poisonAfter_clean.trans (and_iff_left fun hin => ?_)
      obtain ⟨hlo, hhi⟩ := hin
      have := hgrow u hlo
      omega

/-- The bytes after a write of the front of a list. -/
theorem byte_put_take (s : State) (w : Writer) (a n : Nat) (bytes : List Byte) (bad : Bool) :
    (∀ i, i < (bytes.take n).length → some ((s.put w a (bytes.take n) bad).mem.byte (a + i)) = bytes[i]?) ∧
    (∀ j, j < a ∨ a + (bytes.take n).length ≤ j → (s.put w a (bytes.take n) bad).mem.byte j = s.mem.byte j) := by
  refine ⟨fun i hi => ?_, fun j hj => ?_⟩
  · rw [State.put_mem, Memory.byte_write_in _ _ _ _ hi, List.getElem_take, ← List.getElem?_eq_getElem]
  · rw [State.put_mem, Memory.byte_write_out _ _ _ _ hj]

/-! ### The requests that wait -/

theorem exec_nmemAccess_of_empty {d : Die} (req : Fin 16) {off : BitVec 31} {wr : Option (List Byte)} {err : EccErr}
    {s : State} (hrun : s.nocRuns d = true) (hheld : (s.die d).held = []) :
    exec (.nmemAccess d req off wr err) s = .next (s.serveNear d ⟨off.toNat, wr, err⟩) := by
  have hserve : s.serveDie d = s := by simp [State.serveDie, hheld]
  show execNmemAccess d req off wr err s = _
  rw [execNmemAccess, if_pos hrun, hserve]

theorem exec_fmemAccess_of_empty {addr : Addr} {wr : Option (List Byte × Bool)} {err : EccErr} {s : State} {a : Nat}
    (ha : a = addr.toNat / 32 * 32) (hfar : a < farSize) (hserves : s.chanServes (chanOf a) = true)
    (hq : (s.chan (chanOf a)).queue = []) :
    exec (.fmemAccess addr wr err) s = .next (s.serveReq ⟨a, wr, err⟩) := by
  subst ha
  have hserve : s.serveChan (chanOf (addr.toNat / 32 * 32)) = s := by simp [State.serveChan, hq]
  show execFmemAccess addr wr err s = _
  rw [execFmemAccess]
  rw [if_neg (by omega), if_pos hserves, hserve]

/-- Settles O23: what a write of a unit stores, and what happens to those that wait. -/
theorem memoryWritesStoreTheirUnit : Obligations.MemoryWritesStoreTheirUnit := by
  unfold Obligations.MemoryWritesStoreTheirUnit
  refine ⟨fun d req off bytes err s a ha hrun hheld => ?near, fun addr bytes bad err s a ha hfar hserves hq => ?far,
    fun addr wr err s a k ha hfar hk => ⟨fun hserves hq => ?_, fun hserves => ?_⟩,
    fun d req off wr err s => ⟨fun hrun hheld => ?_, fun hrun => ?_⟩⟩
  case near =>
    have hnear : unitSize a = 64 := unitSize_near (by subst ha; unfold farSize nearBase; omega)
    obtain ⟨hin, hout⟩ := byte_put_take s (.die d) a 64 bytes false
    obtain ⟨-, hclean, hothers⟩ := poison_put_unit s (.die d) (a := a) (n := 64) (bytes.take 64) false
      (List.length_take_le _ _) hnear.symm (fun h => absurd h (by decide))
    refine ⟨s.put (.die d) a (bytes.take 64) false, ?_, hin, hout, fun h => hclean rfl ?_, hothers⟩
    · rw [exec_nmemAccess_of_empty req hrun hheld, State.serveNear, ha]
    · rw [List.length_take]
      omega
  case far =>
    have hsize : unitSize a = 32 := if_pos hfar
    have halign : a % 32 = 0 := by omega
    obtain ⟨hin, hout⟩ := byte_put_take s .other a 32 bytes bad
    obtain ⟨hbad, hclean, hothers⟩ := poison_put_unit s .other (a := a) (n := 32) (bytes.take 32) bad
      (List.length_take_le _ _) hsize.symm (fun _ => ⟨hfar, halign⟩)
    refine ⟨s.put .other a (bytes.take 32) bad, ?_, hin, hout, fun hb hne => hbad hb ?_, fun hb h => hclean hb ?_, hothers⟩
    · rw [exec_fmemAccess_of_empty ha hfar hserves hq, State.serveReq]
    · simpa using hne
    · rw [List.length_take]
      omega
  · subst ha hk
    show execFmemAccess addr wr err s = _
    rw [execFmemAccess]
    rw [if_neg (by omega), if_pos hserves, State.serveChan]
    rw [if_neg (by simp [hq, hserves])]
  · subst ha hk
    show execFmemAccess addr wr err s = _
    rw [execFmemAccess]
    rw [if_neg (by omega), if_neg (by simp [hserves])]
  · show execNmemAccess d req off wr err s = _
    rw [execNmemAccess, if_pos hrun, State.serveDie]
    dsimp only
    rw [if_neg (by simp [hheld, hrun])]
  · show execNmemAccess d req off wr err s = _
    rw [execNmemAccess, if_neg (by simp [hrun])]

/-! ### Reads of a unit -/

theorem noteUe_same (s : State) (d off : Nat) : Same s (s.noteUe d off) := State.noteUe_same s (.refl s) d off

/-- The cache of a die stays when an uncorrectable line is noted. -/
theorem cache_noteUe (s : State) (d off : Nat) : ((s.noteUe d off).die d).cache = (s.die d).cache := by
  unfold State.noteUe
  extract_lets t l0 l1 u
  have hu : (u.die d).cache = (s.die d).cache := by rw [State.die_setDie_self]
  split
  · rw [(polderLoss_declares u _ _ _ _).die, hu]
  · exact hu

theorem evcPlace_dieBase {d o : Nat} (hd : d < 6) (ho : o < 0xC0000) : evcPlace (dieBase d + o) = none := by
  have hw : (dieBase d + o) / 0x01000000 = d + 1 := by unfold dieBase; omega
  have hoff : (dieBase d + o) % 0x01000000 = o := by unfold dieBase; omega
  simp only [evcPlace, hw, hoff]
  rw [if_neg (by omega), if_neg (by omega), if_pos ho]

theorem State.cacheSlot_congr {s t : State} {d : Nat} (h : t.reg (Reg.NMEM_CFG d) = s.reg (Reg.NMEM_CFG d)) (off : Nat) :
    t.cacheSlot d off = s.cacheSlot d off := by
  unfold State.cacheSlot State.regF
  rw [h]

/-- What a read of a near line leaves: memory, and the mark of the line or of the cache line that holds it. -/
structure ReadLine (s : State) (d off : Nat) (err : EccErr) (t : State) : Prop where
  mem : t.mem = s.mem
  line : s.cacheSlot d off = none → t.poison =
    if err = .double then insertSorted s.poison (nearBase d + off / 64 * 64) else s.poison
  cached : ∀ k l, s.cacheSlot d off = some k → SMap.get (fun _ => none) (s.die d).cache k = some l →
    t.poison = s.poison ∧
      SMap.get (fun _ => none) (t.die d).cache k = some { l with poison := l.poison || err == .double }

/-- Counting before the read does not tell. -/
theorem ReadLine.of_reports {s u t : State} {d off : Nat} {err : EccErr} (h : Reports s u)
    (hreg : u.reg (Reg.NMEM_CFG d) = s.reg (Reg.NMEM_CFG d)) (g : ReadLine u d off err t) : ReadLine s d off err t := by
  have hslot := State.cacheSlot_congr hreg off
  refine ⟨g.mem.trans h.mem, fun hs => ?_, fun k l hs hl => ?_⟩
  · rw [g.line (hslot.trans hs), h.poison]
  · obtain ⟨hp, hc⟩ := g.cached k l (hslot.trans hs) (by rw [h.die]; exact hl)
    exact ⟨hp.trans h.poison, hc⟩

theorem poisonLine_readLine (s : State) (d off : Nat) : ReadLine s d off .double (s.poisonLine d off) := by
  unfold State.poisonLine
  split
  · rename_i k hk
    extract_lets t l'
    refine ⟨rfl, fun hs => absurd (hk.symm.trans hs) (Option.some_ne_none k), fun k' l hs hl => ⟨rfl, ?_⟩⟩
    obtain rfl : k = k' := Option.some.inj (hk.symm.trans hs)
    have hl' : l' = some { l with poison := true } := by
      unfold l' t
      rw [hl, Option.map_some]
    rw [State.die_setDie_self, SMap.get_set_self, hl', beq_self_eq_true, Bool.or_true]
  · rename_i hk
    exact ⟨rfl, fun _ => by rw [if_pos rfl], fun k l hs => absurd (hk.symm.trans hs).symm (Option.some_ne_none k)⟩

theorem ReadLine.of_plain {s t : State} {d off : Nat} {err : EccErr} (he : err ≠ .double) (h : Reports s t) :
    ReadLine s d off err t := by
  refine ⟨h.mem, fun _ => by rw [if_neg he, h.poison], fun k l _ hl => ⟨h.poison, ?_⟩⟩
  rw [h.die, hl, beq_false_of_ne he, Bool.or_false]

/-- A read without a double-bit error counts, and does nothing else. -/
theorem readLine_plain (s : State) (d off : Nat) {err : EccErr} (he : err ≠ .double) :
    Reports s (s.readLine d off err) := by
  unfold State.readLine
  simp only [if_neg he]
  split <;> split
  · exact ((inc_reports s _ _).trans (count_reports _ _ _ _ _)).trans (inc_reports _ _ _)
  · exact (inc_reports s _ _).trans (count_reports _ _ _ _ _)
  · exact inc_reports s _ _
  · exact .refl s

theorem readLine_double (s : State) (d off : Nat) :
    s.readLine d off .double = ((s.poisonLine d off).inc (Reg.NMEM_UE_CNT d) 1).noteUe d off := by
  unfold State.readLine
  simp only [reduceCtorEq, if_false, if_true]

theorem readLine_spec (s : State) (d off : Nat) (err : EccErr) : ReadLine s d off err (s.readLine d off err) := by
  by_cases he : err = .double
  · subst he
    rw [readLine_double]
    have hp := poisonLine_readLine s d off
    generalize s.poisonLine d off = v at hp
    have hsame := noteUe_same (v.inc (Reg.NMEM_UE_CNT d) 1) d off
    have hinc := inc_reports v (Reg.NMEM_UE_CNT d) 1
    refine ⟨(hsame.mem.trans hinc.mem).trans hp.mem,
      fun hs => (hsame.poison.trans hinc.poison).trans (hp.line hs), fun k l hs hl => ?_⟩
    obtain ⟨hpoison, hc⟩ := hp.cached k l hs hl
    refine ⟨(hsame.poison.trans hinc.poison).trans hpoison, ?_⟩
    rw [cache_noteUe, hinc.die]
    exact hc
  · exact .of_plain he (readLine_plain s d off he)

theorem serveNear_readLine (s : State) {d : Nat} (hd : d < 6) {off : Nat} (hoff : off < 2 ^ 31) (err : EccErr) :
    ReadLine s d off err (s.serveNear d ⟨off, none, err⟩) := by
  have hnear : ¬nearBase d + off / 64 * 64 < farSize := by unfold farSize nearBase; omega
  have hdie : 54 + (nearBase d + off / 64 * 64 - 0x100000000000) / 0x100000000 < 62 := by unfold nearBase; omega
  refine .of_reports (countAccess_reports s false _ 64) ?_ (readLine_spec _ d off err)
  rw [State.countAccess, if_neg hnear]
  exact State.reg_count _ _ _ _ _ _ (evcPlace_dieBase hd (by decide)) hdie

/-- The marks after a read of a burst. -/
def burstMarks (err : EccErr) (p : List Nat) (a : Nat) : List Nat :=
  if err = .double ∨ err = .addrMismatch then insertSorted p a else p

/-- A read of a far burst, or its patrol scrub, marks the burst when it is bad, and changes nothing else of what
memory holds. -/
theorem readBurst_same (s : State) (a : Nat) (err : EccErr) :
    Same { s with poison := burstMarks err s.poison a } (s.readBurst a err) := by
  have hnote {s₀ : State} (u : State) (hu : Same s₀ u) : Same s₀ (if u.poison.contains a then u.noteBurst a 2 else u) := by
    split
    · exact State.noteBurst_same u hu a 2
    · exact hu
  have hbad {s₀ : State} (u : State) (hu : Same s₀ u) (e : Nat) : Same s₀ (if u.committedAt a then
      (if u.alone then
        (if u.regF Reg.FLT_STAT 29 29 = 1 then u
         else u.pairLoss e none (polderOfHalf (halfOfChan (chanOf a))) (chanOf a) a)
       else u.openChan (chanOf a))
      else u) := by
    split
    · split
      · split
        · exact hu
        · exact State.pairLoss_same u hu _ _ _ _ _
      · exact State.openChan_same u hu _
    · exact hu
  have hplain : ∀ e, ¬(e = EccErr.double ∨ e = .addrMismatch) → { s with poison := burstMarks e s.poison a } = s := by
    intro e he
    rw [burstMarks, if_neg he]
  unfold State.readBurst
  extract_lets +onlyGivenNames ch e
  split
  · rw [hplain _ (by decide)]
    extract_lets +onlyGivenNames s1 k n s2 thr s3
    have h1 : Same s s1 := State.count_same _ (State.inc_same s (.refl s) _ _) _ _ _ _
    have h2 : Same s s2 := State.setChan_same s1 h1 _ _
    refine hnote s3 ?_
    unfold s3
    split
    · exact State.queueRetire_same s2 h2 a
    · exact h2
  · rw [hplain _ (by decide)]
    exact hnote s (.refl s)
  · rename_i hs hn
    have hmark : burstMarks err s.poison a = insertSorted s.poison a :=
      if_pos (by cases err <;> simp_all)
    rw [hmark]
    extract_lets +onlyGivenNames s1 s2
    exact hbad s2 (State.queueRetire_same s1 (State.noteBurst_same _ (.refl _) a _) a) _

/-- Settles O24: what a read of a line and of a burst leaves, and what it marks. -/
theorem memoryReadsMarkBadUnits : Obligations.MemoryReadsMarkBadUnits := by
  unfold Obligations.MemoryReadsMarkBadUnits
  refine ⟨fun d req off err s a ha hrun hheld => ?near, fun addr err s a ha hfar hserves hq => ?far⟩
  case near =>
    subst ha
    have ht := serveNear_readLine s d.isLt off.isLt err
    have hu := readLine_spec s d off.toNat err
    refine ⟨_, s.readLine d off.toNat err, exec_nmemAccess_of_empty req hrun hheld, ?_, ht.mem, hu.mem,
      fun hs => ⟨ht.line hs, hu.line hs⟩, fun k l hs hl => ?_⟩
    · show execNmemPatrolScrub d off err s = _
      rw [execNmemPatrolScrub, if_pos hrun]
    · obtain ⟨htp, htc⟩ := ht.cached k l hs hl
      obtain ⟨hup, huc⟩ := hu.cached k l hs hl
      exact ⟨htp, hup, htc, huc⟩
  case far =>
    have hcount := countAccess_reports s false a 32
    have ht := readBurst_same (s.countAccess false a 32) a err
    have hu := readBurst_same s a err
    refine ⟨_, s.readBurst a err, exec_fmemAccess_of_empty ha hfar hserves hq, ?_, ht.mem.trans hcount.mem, hu.mem,
      ?_, hu.poison⟩
    · subst ha
      show execFmemPatrolScrub addr err s = _
      rw [execFmemPatrolScrub]
      rw [if_neg (by omega), if_pos hserves]
    · rw [← hcount.poison]
      exact ht.poison

end Sys2Proof.Machine
end

section
/-! SUPPORT. Arbitration points, the test access port and the management port (R267, R462, R490 to R493). -/

namespace Sys2Proof.Machine

open Sys2Proof

/-! ### Arbitration -/

theorem Arb.req_setReq_self (a : Arb) (i : Nat) (r : ArbReq) : (a.setReq i r).req i = r := SMap.get_set_self _ _ i r

/-- The rotating order picks one of the requesters it is given. -/
theorem mem_of_rotate {n last w : Nat} {l : List Nat} (h : rotate n last l = some w) : w ∈ l :=
  List.contains_iff_mem.mp (List.find?_some h)

/-- A grant goes to a requester that presents. -/
theorem Arb.winner_presenting {a : Arb} {n w : Nat} {want : BitVec 22} {capped : Bool}
    (h : a.winner n want = some (w, capped)) : w ∈ a.presenting n want := by
  unfold Arb.winner at h
  extract_lets pr at h
  split at h
  · rename_i i hi
    obtain ⟨rfl, -⟩ := Prod.mk.inj (Option.some.inj h)
    exact List.mem_of_mem_filter (mem_of_rotate hi)
  · obtain ⟨i, hi, hw⟩ := Option.map_eq_some_iff.mp h
    obtain ⟨rfl, -⟩ := Prod.mk.inj hw
    exact mem_of_rotate hi

theorem Arb.grant_req (a : Arb) (n : Nat) (want : BitVec 22) (w : Nat) (capped : Bool) :
    (a.grant n want w capped).req w = ArbReq.reset := by
  unfold Arb.grant
  extract_lets losers b
  exact Arb.req_setReq_self b w ArbReq.reset

theorem countArb_reports (s : State) (p : Nat) (losers : List Nat) (w : Nat) (capped : Bool) :
    Reports s (s.countArb p losers w capped) := by
  unfold State.countArb
  split
  · extract_lets d t
    have ht : Reports s t := .foldl (fun s i => count_reports s _ _ i _) losers s
    split
    · exact ht.trans ((inc_reports _ _ _).trans (count_reports _ _ _ _ _))
    · exact ht
  · extract_lets e t
    have ht : Reports s t := .foldl (fun s i => count_reports s _ _ i _) losers s
    split
    · exact ht.trans (inc_reports _ _ _)
    · exact ht

theorem exec_arbGrant_of_winner {p : ArbPoint} {want : BitVec 22} {s : State} {w : Nat} {capped : Bool}
    (hacc : s.arbAccepts p = true) (hw : (s.arb p).winner (arbSize p) want = some (w, capped)) :
    exec (.arbGrant p want) s = .next ((s.setArb p ((s.arb p).grant (arbSize p) want w capped)).countArb p
      (((s.arb p).presenting (arbSize p) want).filter (· != w)) w capped) := by
  show execArbGrant p want s = _
  rw [execArbGrant, hacc]
  simp only [Bool.not_true, Bool.false_eq_true, if_false, hw]

/-- Settles O27: a grant, a point that accepts none, and the end of a backoff. -/
theorem arbitrationGrants : Obligations.ArbitrationGrants := by
  unfold Obligations.ArbitrationGrants
  intro p s
  refine ⟨fun hacc want => ?_, fun want w capped hacc hw => ?_, fun req hcount hreq => ?_⟩
  · show execArbGrant p want s = _
    rw [execArbGrant, hacc]
    rfl
  · have hr := countArb_reports (s.setArb p ((s.arb p).grant (arbSize p) want w capped)) p
      (((s.arb p).presenting (arbSize p) want).filter (· != w)) w capped
    refine ⟨_, exec_arbGrant_of_winner hacc hw, Arb.winner_presenting hw, ?_, ?_, ?_, fun q hq => ?_, hr.mem⟩
    · rw [hr.arb, State.arb_setArb_self]
    · rw [hr.arb, State.arb_setArb_self, Arb.grant_req]
    · rw [hr.arb, State.arb_setArb_self]
      rfl
    · rw [hr.arb, State.arb_setArb_ne _ _ _ _ hq]
  · show execArbBackoffExpire p req s = _
    rw [execArbBackoffExpire]
    exact if_neg (by omega)

/-! ### The test access port -/

theorem loadTap_of_power {s : State} (hp : s.power = .good) (i : TapIns) (r : Bool) :
    s.loadTap i r = { s with tap := { s.tap with ins := i, refused := r, tdo := s.tap.irCapture } } := if_pos hp

/-- A code above the listed ones is `BYPASS`. -/
theorem execBypass_unlisted {code : Byte} (h : 4 < code.toNat) (s : State) :
    execBypass code s = .next (s.loadTap .bypass false) := by
  obtain ⟨n, hn⟩ : ∃ n, code.toNat = n + 5 := ⟨code.toNat - 5, by omega⟩
  unfold execBypass
  simp only [hn]

theorem execDataRegisterScan_boundary {s : State} (hp : s.power = .good) (h : s.tap.ins = .extest ∨ s.tap.ins = .sample)
    (tdi : List Bool) (pins : BitVec 12) :
    execDataRegisterScan tdi pins s = .next { s with tap := { s.tap with
      tdo := (shiftBits (s.boundaryCapture pins) tdi).1,
      boundary := bits12 (shiftBits (s.boundaryCapture pins) tdi).2 } } := by
  unfold execDataRegisterScan
  rw [if_neg (not_not.mpr hp)]
  rcases h with h | h <;> simp only [h]

theorem execDataRegisterScan_idcode {s : State} (hp : s.power = .good) (h : s.tap.ins = .idcode)
    (tdi : List Bool) (pins : BitVec 12) :
    execDataRegisterScan tdi pins s =
      .next { s with tap := { s.tap with tdo := (shiftBits (bitsOf s.idWord 32) tdi).1 } } := by
  unfold execDataRegisterScan
  rw [if_neg (not_not.mpr hp)]
  simp only [h]

theorem execDataRegisterScan_bypass {s : State} (hp : s.power = .good)
    (h : s.tap.ins = .clamp ∨ s.tap.ins = .highz ∨ s.tap.ins = .bypass) (tdi : List Bool) (pins : BitVec 12) :
    execDataRegisterScan tdi pins s = .next { s with tap := { s.tap with
      tdo := (shiftBits [false] tdi).1, bypassBit := (shiftBits [false] tdi).2.headD false } } := by
  unfold execDataRegisterScan
  rw [if_neg (not_not.mpr hp)]
  rcases h with h | h | h <;> simp only [h]

/-- Settles O60: what loads an instruction, and what a scan shifts. -/
theorem testPortScans : Obligations.TestPortScans := by
  unfold Obligations.TestPortScans
  refine fun s => ⟨rfl, fun hp => ⟨fun load hload => ⟨fun hm => ?_, fun hm => ?_, ?_, ?_, fun code hcode => ?_⟩,
    fun tdi pins => ?_⟩⟩
  · have hpins (i : TapIns) : s.loadPins i = load i false := by
      rw [State.loadPins, if_pos hm, loadTap_of_power hp, hload]
    exact ⟨congrArg _ (hpins _), congrArg _ (hpins _), congrArg _ (hpins _)⟩
  · have hpins (i : TapIns) : s.loadPins i = load .bypass true := by
      rw [State.loadPins, if_neg hm, loadTap_of_power hp, hload]
    exact ⟨congrArg _ (hpins _), congrArg _ (hpins _), congrArg _ (hpins _)⟩
  · exact congrArg _ ((loadTap_of_power hp _ _).trans (hload _ _).symm)
  · exact congrArg _ ((loadTap_of_power hp _ _).trans (hload _ _).symm)
  · exact (execBypass_unlisted hcode s).trans (congrArg _ ((loadTap_of_power hp _ _).trans (hload _ _).symm))
  · have hexec : exec (.dataRegisterScan tdi pins) s = execDataRegisterScan tdi pins s := rfl
    rw [hexec]
    cases hi : s.tap.ins with
    | extest | sample =>
      exact ⟨_, execDataRegisterScan_boundary hp (by simp [hi]) tdi pins, rfl, hi, fun _ => ⟨rfl, rfl⟩, by simp, by simp⟩
    | idcode =>
      exact ⟨_, execDataRegisterScan_idcode hp hi tdi pins, rfl, hi, by simp, fun _ => ⟨rfl, rfl⟩, by simp⟩
    | clamp | highz | bypass =>
      exact ⟨_, execDataRegisterScan_bypass hp (by simp [hi]) tdi pins, rfl, hi, by simp, by simp, fun _ => ⟨rfl, rfl⟩⟩

/-! ### The management port -/

section
variable {s : State} {m : MgmtCmd} {code : Nat} {ok legal : Bool} {run : State → State}

theorem mgmt_running (h : s.now < s.mgmtDue) : s.mgmt code m ok legal run = s := if_pos (.inr (.inr h))

variable (hp : s.power = .good) (ht : s.tap.hasPins = false) (hdue : s.mgmtDue ≤ s.now)
include hp ht hdue

/-- A command that arrives is looked at. -/
theorem mgmt_received : s.mgmt code m ok legal run =
    if m.code.toNat ≠ code ∧ mgmtListed m.code = true then s
    else if m.pec ≠ s.mgmtPec m.code.toNat m.payload then s.answer 0x21 []
    else if m.code.toNat ≠ code ∨ ok = false then s.answer 0xB []
    else if legal = false then (s.inc Reg.GLB_STATE_CONFLICT_CNT 1).answer 8 []
    else run s := by
  refine if_neg ?_
  rintro (h | h | h)
  · exact h hp
  · exact Bool.false_ne_true (ht.symm.trans h)
  · omega

theorem mgmt_badPec (hc : m.code.toNat = code ∨ mgmtListed m.code = false)
    (hpec : m.pec ≠ s.mgmtPec m.code.toNat m.payload) : s.mgmt code m ok legal run = s.answer 0x21 [] := by
  rw [mgmt_received hp ht hdue, if_neg, if_pos hpec]
  rintro ⟨hne, hl⟩
  rcases hc with hc | hc
  · exact hne hc
  · exact Bool.false_ne_true (hc.symm.trans hl)

theorem mgmt_unlisted (hl : mgmtListed m.code = false) (hne : m.code.toNat ≠ code)
    (hpec : m.pec = s.mgmtPec m.code.toNat m.payload) : s.mgmt code m ok legal run = s.answer 0xB [] := by
  rw [mgmt_received hp ht hdue, if_neg (by simp [hl]), if_neg (not_not.mpr hpec), if_pos (.inl hne)]

/-- A command whose byte and PEC are its row's. -/
theorem mgmt_whole (hc : m.code.toNat = code) (hpec : m.pec = s.mgmtPec code m.payload) :
    s.mgmt code m ok legal run = if ok = false then s.answer 0xB []
      else if legal = false then (s.inc Reg.GLB_STATE_CONFLICT_CNT 1).answer 8 [] else run s := by
  subst hc
  rw [mgmt_received hp ht hdue, if_neg fun h => h.1 rfl, if_neg (not_not.mpr hpec)]
  simp only [ne_eq, not_true_eq_false, false_or]

/-- A well-formed command that is legal runs. -/
theorem mgmt_runs (hc : m.code.toNat = code) (hpec : m.pec = s.mgmtPec code m.payload) (hok : ok = true)
    (hlegal : legal = true) : s.mgmt code m ok legal run = run s := by
  rw [mgmt_whole hp ht hdue hc hpec, hok, hlegal]
  rfl

end

theorem checkAlert_reports (s : State) (k : Nat) : Reports s (s.checkAlert k) := by
  unfold State.checkAlert
  extract_lets sel j w was t
  have ht : Reports s t := setRegF_reports s _ _ _ _
  refine pred_ite (P := Reports s) ?_ (.refl s)
  refine pred_ite (P := Reports s) (ht.trans (logNamed_reports _ _ _ _)) ht

/-- Checking an alert changes no register but the status. -/
theorem reg_checkAlert (s : State) (k : Nat) {a : Nat} (he : evcPlace a = none) (ha : a ≠ Reg.TEL_ALERT_STAT) :
    (s.checkAlert k).reg a = s.reg a := by
  unfold State.checkAlert
  extract_lets sel j w was t
  have ht : t.reg a = s.reg a := State.reg_setRegF_ne s _ _ _ _ a ha
  refine pred_ite (P := fun u : State => u.reg a = s.reg a) ?_ rfl
  exact pred_ite (P := fun u : State => u.reg a = s.reg a) ((State.reg_logNamed _ _ _ _ _ he).trans ht) ht

theorem evcPlace_global {a : Nat} (h : a < 0x01000000) : evcPlace a = none := by
  unfold evcPlace
  simp only [Nat.div_eq_of_lt h]
  rfl

theorem answer_due (s : State) (st : Nat) (data : List Byte) :
    s.now + 20 ≤ (s.answer st data).mgmtDue ∧ (s.answer st data).mgmtDue ≤ s.now + 1000 := by
  have hd : (s.answer st data).mgmtDue = s.now + 20 + s.draw.1.toNat % 981 := rfl
  omega

theorem State.reg_answer (s : State) (st : Nat) (data : List Byte) (a : Nat) : (s.answer st data).reg a = s.reg a := rfl

theorem State.answer_mem (s : State) (st : Nat) (data : List Byte) : (s.answer st data).mem = s.mem := rfl

theorem State.answer_mgmtRsp (s : State) (st : Nat) (data : List Byte) :
    (s.answer st data).mgmtRsp = (BitVec.ofNat 8 st, data) := rfl

theorem flashOp_read (s : State) {args : Nat} {payload : List Byte} (h : fld args 7 0 = 6) :
    s.flashOp args payload = ((0, 0, flashBytes s.flash (fld args 63 32) (fld args 79 64)), s) := by
  unfold State.flashOp
  simp only [h]

theorem flashOp_write {s : State} {args a : Nat} {payload : List Byte} (h : fld args 7 0 = 0)
    (ha : s.inWritable (fld args 15 8) (fld args 63 32) payload.length = some a) :
    s.flashOp args payload = ((0, 0, []), s.flashProgram a payload) := by
  unfold State.flashOp
  simp only [h, State.flWrite, ha]

/-- `SET_ALERT` leaves the select and the threshold of the alert; its answer comes within the bounds of R462. -/
theorem setAlert_spec (s : State) {k : Nat} (hk : k ≤ 7) (sel val : Word) {t : State}
    (h : t = (((s.setReg (Reg.TEL_ALERT_SEL k) sel).setReg (Reg.TEL_ALERT_VAL k) val).checkAlert k).answer 0 []) :
    t.reg (Reg.TEL_ALERT_SEL k) = sel ∧ t.reg (Reg.TEL_ALERT_VAL k) = val ∧ t.mem = s.mem ∧ t.mgmtRsp = (0, []) ∧
      s.now + 20 ≤ t.mgmtDue ∧ t.mgmtDue ≤ s.now + 1000 := by
  have hsel : Reg.TEL_ALERT_SEL k < 0x01000000 ∧ Reg.TEL_ALERT_SEL k ≠ Reg.TEL_ALERT_STAT ∧
      Reg.TEL_ALERT_SEL k ≠ Reg.TEL_ALERT_VAL k := by
    unfold Reg.TEL_ALERT_SEL Reg.TEL_ALERT_STAT Reg.TEL_ALERT_VAL
    omega
  have hval : Reg.TEL_ALERT_VAL k < 0x01000000 ∧ Reg.TEL_ALERT_VAL k ≠ Reg.TEL_ALERT_STAT := by
    unfold Reg.TEL_ALERT_STAT Reg.TEL_ALERT_VAL
    omega
  have hu := checkAlert_reports ((s.setReg (Reg.TEL_ALERT_SEL k) sel).setReg (Reg.TEL_ALERT_VAL k) val) k
  have hregs (a : Nat) (he : a < 0x01000000) (ha : a ≠ Reg.TEL_ALERT_STAT) :=
    reg_checkAlert ((s.setReg (Reg.TEL_ALERT_SEL k) sel).setReg (Reg.TEL_ALERT_VAL k) val) k (evcPlace_global he) ha
  generalize ((s.setReg (Reg.TEL_ALERT_SEL k) sel).setReg (Reg.TEL_ALERT_VAL k) val).checkAlert k = u at h hu hregs
  have hdue := answer_due u 0 []
  rw [hu.now, State.setReg_now, State.setReg_now] at hdue
  rw [h, State.reg_answer, State.reg_answer, State.answer_mem, State.answer_mgmtRsp, hregs _ hsel.1 hsel.2.1,
    hregs _ hval.1 hval.2, State.reg_setReg_ne _ _ _ _ hsel.2.2, State.reg_setReg_self, State.reg_setReg_self, hu.mem]
  exact ⟨rfl, rfl, rfl, rfl, hdue⟩

/-- Settles O59: what the port answers, and what a read transaction carries. -/
theorem managementPortAnswers : Obligations.ManagementPortAnswers := by
  unfold Obligations.ManagementPortAnswers
  intro m s hp ht
  refine ⟨fun hrun => ⟨fun _ _ _ _ => mgmt_running hrun, ?_⟩, fun hdue st data l hrsp hl => ?_, fun hdue =>
    ⟨fun _ _ _ _ => mgmt_badPec hp ht hdue, fun code legal run hc hpec => ⟨?_, ?_⟩,
      fun _ _ _ _ hl hne hpec => mgmt_unlisted hp ht hdue hl hne hpec,
      fun hc hpec hlen => ?_, fun j n hc hpec hj hn hlen h1 h64 h256 => ?_, fun a n hc hpec ha hn hlen h1 h64 hmode => ?_,
      fun idx hc hpec hlen hmode hidx => ?_, fun hc hpec hlen hmode => ?_, fun hc hpec hlen => ?_,
      fun args r lo hi hc hpec hlen hargs hbad hmode hr htime => ?_, fun k hc hpec hlen hk hk7 hen hmode => ?_,
      fun hc hpec hlen hmode => ?_⟩⟩
  · unfold State.mgmtRead
    rw [if_pos hrun]
    rfl
  · unfold State.mgmtRead
    rw [if_neg (Nat.not_lt.mpr hdue), hrsp, hl]
  · rw [mgmt_whole hp ht hdue hc hpec]
    rfl
  · rw [mgmt_whole hp ht hdue hc hpec]
    rfl
  · exact congrArg _ (mgmt_runs hp ht hdue (congrArg BitVec.toNat hc) hpec (decide_eq_true hlen) rfl)
  · subst hj hn
    exact congrArg _ (mgmt_runs hp ht hdue (congrArg BitVec.toNat hc) hpec (decide_eq_true ⟨hlen, h1, h64, h256⟩) rfl)
  · subst ha hn
    exact congrArg _ (mgmt_runs hp ht hdue (congrArg BitVec.toNat hc) hpec (decide_eq_true ⟨hlen, h1, h64⟩)
      (decide_eq_true hmode))
  · have hrun : exec (.readBreach m) s = .next (if (s.reg Reg.FLT_LOG_HEAD).toNat ≤ idx then s.answer 0xD []
        else match s.breaches[(s.reg Reg.FLT_LOG_HEAD).toNat - 1 - idx]? with
          | some b => s.answer 0 b.bytes
          | none => s.answer 0xD []) := by
      subst hidx
      exact congrArg _ (mgmt_runs hp ht hdue (congrArg BitVec.toNat hc) hpec (decide_eq_true hlen) (decide_eq_true hmode))
    rw [hrun]
    exact ⟨fun h => by rw [if_pos h], fun h b hb => by rw [if_neg (Nat.not_le.mpr h), hb]⟩
  · exact congrArg _ (mgmt_runs hp ht hdue (congrArg BitVec.toNat hc) hpec (decide_eq_true hlen) (decide_eq_true hmode))
  · exact congrArg _ (mgmt_runs hp ht hdue (congrArg BitVec.toNat hc) hpec (decide_eq_true hlen) rfl)
  · have hop : fld args 7 0 = args % 256 := by simp [fld]
    have hrun : exec (.flash m) s = .next (r.2.answerIn lo hi r.1.1 r.1.2.2) := by
      rw [hop] at htime
      obtain ⟨rfl, rfl⟩ := Prod.mk.inj htime
      subst hr hargs
      refine congrArg _ (mgmt_runs hp ht hdue (congrArg BitVec.toNat hc) hpec ?_ (decide_eq_true hmode))
      rw [decide_eq_true hlen, hbad]
      rfl
    refine ⟨hrun, fun h6 => ?_, fun a h0 ha => ?_⟩
    · rw [hrun, hr, flashOp_read s h6]
    · rw [hrun, hr, flashOp_write h0 (by rwa [List.length_drop])]
  · subst hk
    have hrun : exec (.setAlert m) s = .next ((((s.setReg (Reg.TEL_ALERT_SEL (marg m 0 1))
        (BitVec.ofNat 32 (marg m 2 1 * 2 ^ 31 + marg m 1 1))).setReg (Reg.TEL_ALERT_VAL (marg m 0 1))
          (BitVec.ofNat 32 (marg m 3 3))).checkAlert (marg m 0 1)).answer 0 []) :=
      congrArg _ (mgmt_runs hp ht hdue (congrArg BitVec.toNat hc) hpec (decide_eq_true ⟨hlen, hk7, hen⟩)
        (decide_eq_true hmode))
    exact ⟨_, hrun, setAlert_spec s hk7 _ _ rfl⟩
  · exact congrArg _ (mgmt_runs hp ht hdue (congrArg BitVec.toNat hc) hpec (decide_eq_true hlen) (decide_eq_true hmode))

end Sys2Proof.Machine
end

section
/-! SUPPORT. What a response to the host leaves, and the course of a host command (R356 to R358, R361, R362). -/

namespace Sys2Proof.Machine

open Sys2Proof

/-! ### Responses -/

/-- State t comes from s by responses and events for the host: only what the lanes and their queues hold has changed,
and of the registers only event counters. -/
structure Answers (s t : State) : Prop where
  rest : t = { s with
    regs := t.regs, islands := t.islands, links := t.links, log := t.log, evtSeq := t.evtSeq, thrFired := t.thrFired,
    hostQs := t.hostQs }
  reg : ∀ a, evcPlace a = none → t.reg a = s.reg a

namespace Answers

theorem refl (s : State) : Answers s s := ⟨rfl, fun _ _ => rfl⟩

theorem trans {s t u : State} (h : Answers s t) (g : Answers t u) : Answers s u := by
  refine ⟨?_, fun a ha => (g.reg a ha).trans (h.reg a ha)⟩
  rw [g.rest, h.rest]

theorem of_reports {s t : State} (h : Reports s t) (hreg : ∀ a, evcPlace a = none → t.reg a = s.reg a) : Answers s t := by
  refine ⟨?_, hreg⟩
  unfold Reports at h
  rw [h]

theorem setHostQ (s : State) (q : Nat) (v : HostQ) : Answers s (s.setHostQ q v) := ⟨rfl, fun _ _ => rfl⟩

theorem hostSend (s : State) (lane : Lane) (p : Pkt) : Answers s (s.hostSend lane p) :=
  of_reports (hostSend_reports s lane p) fun a ha => State.reg_hostSend s lane p a ha (by omega)

theorem sendEvent (s : State) (code : Nat) (p : List Byte) : Answers s (s.sendEvent code p) :=
  of_reports (sendEvent_reports s code p) fun a ha => State.reg_sendEvent s code p a ha

theorem addLog (s : State) (i name arg : Nat) : Answers s (s.addLog i name arg) :=
  of_reports (addLog_reports s i name arg) fun a _ => State.reg_addLog s i name arg a

theorem count (s : State) {b : Nat} (hb : b < 62) (src inst n : Nat) : Answers s (s.count b src inst n) :=
  of_reports (count_reports s b src inst n) fun a ha => State.reg_count s b src inst n a ha hb

theorem answerHost (s : State) (h : HostCmd) (cmd status args : Nat) (data : List Byte) :
    Answers s (s.answerHost h cmd status args data) := (setHostQ s _ _).trans (hostSend _ h.lane _)

theorem flushBad (q n : Nat) (s : State) : Answers s (State.flushBad q n s) := by
  induction n generalizing s with
  | zero => exact .refl s
  | succ n ih =>
    unfold State.flushBad
    split
    · exact .refl s
    · split
      · exact .refl s
      · exact (answerHost s _ _ _ _ _).trans (ih _)

theorem respond (s : State) (h : HostCmd) (cmd status args : Nat) (data : List Byte) :
    Answers s (s.respond h cmd status args data) := (answerHost s h cmd status args data).trans (flushBad _ _ _)

section
variable {s t : State} (h : Answers s t)
include h

theorem mem : t.mem = s.mem := by rw [h.rest]
theorem poison : t.poison = s.poison := by rw [h.rest]
theorem flash : t.flash = s.flash := by rw [h.rest]
theorem otp : t.otp = s.otp := by rw [h.rest]
theorem allocs : t.allocs = s.allocs := by rw [h.rest]
theorem descs : t.descs = s.descs := by rw [h.rest]
theorem feeds : t.feeds = s.feeds := by rw [h.rest]
theorem windows : t.windows = s.windows := by rw [h.rest]
theorem prog : t.prog = s.prog := by rw [h.rest]
theorem ctl : t.ctl = s.ctl := by rw [h.rest]
theorem restored : t.restored = s.restored := by rw [h.rest]
theorem feed (f : Nat) : t.feed f = s.feed f := by unfold State.feed; rw [h.feeds]
theorem window (w : Nat) : t.window w = s.window w := by unfold State.window; rw [h.windows]

theorem regF {a : Nat} (ha : evcPlace a = none) (hi lo : Nat) : t.regF a hi lo = s.regF a hi lo := by
  unfold State.regF
  rw [h.reg a ha]

theorem mode : t.mode = s.mode := h.regF (by decide) _ _

end

end Answers

/-! ### The course of a command -/

/-- A host command waits as it stands, or takes the course of R356. -/
theorem exec_hostCode {c : Instr} {h : HostCmd} {cmd : Nat} (hc : hostCode c = some (h, cmd)) {s : State}
    (hw : s.ctl.holdWaiters.contains h = false) :
    (∃ act, exec c s = s.runCmd h cmd (cmdBad cmd h) (s.legalNow h cmd) act) ∨
      cmdBad cmd h = none ∧ s.legalNow h cmd = true ∧ exec c s = .next s := by
  have hheld (cmd : Nat) (hcmd : ¬(cmd = 0x52 ∨ cmd = 0x53)) (reach : Bool) (act : State → State) :
      (∃ act', s.heldRun h cmd reach act = s.runCmd h cmd (cmdBad cmd h) (s.legalNow h cmd) act') ∨
        cmdBad cmd h = none ∧ s.legalNow h cmd = true ∧ s.heldRun h cmd reach act = .next s := by
    rw [State.legalNow, if_neg hcmd, State.heldRun]
    split
    · rename_i hstop
      simp only [Bool.and_eq_true, Option.isNone_iff_eq_none] at hstop
      exact .inr ⟨hstop.1.1, hstop.1.2, rfl⟩
    · exact .inl ⟨act, rfl⟩
  have hhost {o : Out} (cmd : Nat) (hcmd : ¬(cmd = 0x52 ∨ cmd = 0x53)) (ho : ∃ act, o = s.hostRun h cmd act) :
      (∃ act', o = s.runCmd h cmd (cmdBad cmd h) (s.legalNow h cmd) act') ∨
        cmdBad cmd h = none ∧ s.legalNow h cmd = true ∧ o = .next s := by
    obtain ⟨act, rfl⟩ := ho
    rw [State.legalNow, if_neg hcmd, State.hostRun]
    exact .inl ⟨act, rfl⟩
  unfold hostCode at hc
  split at hc
  case h_25 => cases hc
  all_goals obtain ⟨rfl, rfl⟩ := Prod.mk.inj (Option.some.inj hc)
  case h_9 | h_10 | h_11 | h_18 => exact hheld _ (by decide) _ _
  case h_14 g =>
    have hexec : exec (.hold g) s = execHold g s := rfl
    rw [hexec, execHold, if_neg (Bool.eq_false_iff.mp hw)]
    exact hhost _ (by decide) ⟨_, rfl⟩
  case h_22 g =>
    have hexec : exec (.resultRead g) s = execResultRead g s := rfl
    have hlegal : s.legalNow g 0x52 = s.winLegal g 0x52 := if_pos (.inl rfl)
    rw [hexec, execResultRead, hlegal]
    split
    · rename_i hstop
      simp only [Bool.and_eq_true, Option.isNone_iff_eq_none] at hstop
      exact .inr ⟨hstop.1.1, hstop.1.2, rfl⟩
    · exact .inl ⟨_, rfl⟩
  case h_23 g =>
    have hexec : exec (.resultRelease g) s = execResultRelease g s := rfl
    have hlegal : s.legalNow g 0x53 = s.winLegal g 0x53 := if_pos (.inr rfl)
    rw [hexec, execResultRelease, hlegal]
    exact .inl ⟨_, rfl⟩
  all_goals
    refine hhost _ (by decide) ?_
    unfold exec
    exact ⟨_, rfl⟩

theorem runCmd_not_turn {s : State} {h : HostCmd} {cmd : Nat} (ht : s.hostTurn h cmd = false)
    (bad : Option (Option Nat)) (ok : Bool) (act : State → State) : s.runCmd h cmd bad ok act = .next s := by
  unfold State.runCmd
  rw [ht]
  rfl

theorem runCmd_turn {s : State} {h : HostCmd} {cmd : Nat} (ht : s.hostTurn h cmd = true)
    (bad : Option (Option Nat)) (ok : Bool) (act : State → State) : s.runCmd h cmd bad ok act = match bad with
      | some (some off) => .next (s.badCommand h cmd off)
      | some none => .next (s.badLen h cmd)
      | none => .next (if ok then act s else s.conflict h cmd) := by
  unfold State.runCmd
  rw [ht]
  rfl

/-! ### A refusal for the state -/

/-- A command that the state refuses is answered and counted, and that is all. -/
theorem conflict_answers (s : State) (h : HostCmd) (cmd : Nat) :
    Answers (s.inc Reg.GLB_STATE_CONFLICT_CNT 1) (s.conflict h cmd) := by
  unfold State.conflict
  extract_lets +onlyGivenNames i p t u
  have ht : Answers (s.inc Reg.GLB_STATE_CONFLICT_CNT 1) t := .count _ (by omega) _ _ _
  have hu : Answers t u := (Answers.addLog t _ _ _).trans (.sendEvent _ _ _)
  exact (ht.trans hu).trans (.respond u h cmd 8 _ [])

/-- Settles O44: the checks of a host command, in their order. -/
theorem commandsAreChecked : Obligations.CommandsAreChecked := by
  unfold Obligations.CommandsAreChecked
  intro c h cmd s hc hw
  refine ⟨fun ht => ?_, fun ht => ⟨fun off hb => ?_, fun hb => ?_, fun hb hl => ?_⟩⟩
  · rcases exec_hostCode hc hw with ⟨act, hrun⟩ | ⟨-, -, hrun⟩
    · rw [hrun, runCmd_not_turn ht]
    · exact hrun
  · rcases exec_hostCode hc hw with ⟨act, hrun⟩ | ⟨hnone, -, -⟩
    · rw [hrun, runCmd_turn ht, hb]
    · cases hb.symm.trans hnone
  · rcases exec_hostCode hc hw with ⟨act, hrun⟩ | ⟨hnone, -, -⟩
    · rw [hrun, runCmd_turn ht, hb]
    · cases hb.symm.trans hnone
  · have hans := conflict_answers s h cmd
    refine ⟨?_, ?_, hans.mem, hans.allocs, hans.descs, hans.feeds, hans.windows, hans.prog, ?_⟩
    · rcases exec_hostCode hc hw with ⟨act, hrun⟩ | ⟨-, hlegal, -⟩
      · rw [hrun, runCmd_turn ht, hb, hl]
        rfl
      · cases hl.symm.trans hlegal
    · rw [hans.mode, State.mode, State.mode, State.regF, State.reg_inc_ne _ _ _ _ (by decide), ← State.regF]
    · rw [hans.reg _ (by decide), State.reg_inc_self, toNat_satAdd]

end Sys2Proof.Machine
end

section
/-! SUPPORT. The host's memory commands, feeds and result windows (R358, R366, R367, R369 to R374). -/

namespace Sys2Proof.Machine

open Sys2Proof

/-! ### Bytes read for the host -/

theorem Memory.bytes_eq_map (m : Memory) (a n : Nat) :
    Memory.bytes m a n = (List.range n).map fun i => Memory.byte m (a + i) := by
  induction n generalizing a with
  | zero => rfl
  | succ n ih =>
    rw [Memory.bytes, ih, List.range_succ_eq_map, List.map_cons, List.map_map, Nat.add_zero]
    congr 1
    refine List.map_congr_left fun i _ => ?_
    rw [Function.comp_apply, Nat.succ_eq_add_one, Nat.add_assoc, Nat.add_comm 1 i]

/-- An address lies in its unit. -/
theorem poisonUnit_le (a : Nat) : poisonUnit a ≤ a ∧ a < poisonUnit a + unitSize (poisonUnit a) := by
  unfold poisonUnit unitSize farSize
  split <;> split <;> omega

/-- A range without a poisoned unit holds no poisoned byte. -/
theorem bad_of_badRange {s : State} {a n i : Nat} (h : s.badRange a n = false) (hi : i < n) :
    s.rd.bad (a + i) = false := by
  rw [← Bool.not_eq_true]
  intro hbad
  have hmem : poisonUnit (a + i) ∈ s.poison := List.contains_iff_mem.mp hbad
  obtain ⟨hlo, hhi⟩ := poisonUnit_le (a + i)
  unfold State.badRange State.poisonIn at h
  rw [← Bool.not_eq_true, List.find?_isSome] at h
  refine h ⟨_, hmem, ?_⟩
  simp only [List.any_cons, List.any_nil, Bool.or_false, overlap, decide_eq_true_eq]
  omega

/-- What the host reads of a range without poison is memory. -/
theorem openAt_list_of_clean {s : State} {a n : Nat} (key : Nat) (h : s.badRange a n = false) :
    (s.openAt key).list a n = Memory.bytes s.mem a n := by
  rw [Memory.bytes_eq_map, Rd.list]
  refine List.map_congr_left fun i hi => ?_
  show (if s.rd.bad (a + i) then _ else Memory.byte s.mem (a + i)) = _
  rw [bad_of_badRange h (List.mem_range.mp hi), if_neg Bool.false_ne_true]

theorem Reports.windows {s t : State} (h : Reports s t) : t.windows = s.windows := by rw [h]

theorem readRange_reports (s : State) (a n : Nat) : Reports s (s.readRange a n) :=
  .foldl (fun s u => readUnit_reports s u) _ s

/-- A write, also of no byte: memory and the marks, and what counting and the caches change. -/
theorem put_writes (s : State) (w : Writer) (a : Nat) (bytes : List Byte) (bad : Bool) :
    ∃ p, Snoops { s with mem := Memory.write s.mem a bytes, poison := p } (s.put w a bytes bad) := by
  rcases eq_or_ne bytes [] with rfl | hne
  · exact ⟨s.poison, rfl⟩
  · exact ⟨_, put_snoops s w a bytes bad hne⟩

theorem State.put_allocs (s : State) (w : Writer) (a : Nat) (bytes : List Byte) (bad : Bool) :
    (s.put w a bytes bad).allocs = s.allocs := by
  obtain ⟨p, hp⟩ := put_writes s w a bytes bad
  rw [hp]

theorem State.put_flash (s : State) (w : Writer) (a : Nat) (bytes : List Byte) (bad : Bool) :
    (s.put w a bytes bad).flash = s.flash := by
  obtain ⟨p, hp⟩ := put_writes s w a bytes bad
  rw [hp]

/-! ### Commands that are held while memory cannot be reached -/

section
variable {s : State} {h : HostCmd} {cmd : Nat}

theorem legal_of_effective (heff : s.Effective h cmd) (hcmd : ¬(cmd = 0x52 ∨ cmd = 0x53)) :
    cmdLegal cmd s.mode = true := by
  obtain ⟨-, -, hlegal⟩ := heff
  rwa [State.legalNow, if_neg hcmd] at hlegal

theorem heldRun_waits (heff : s.Effective h cmd) (hcmd : ¬(cmd = 0x52 ∨ cmd = 0x53)) (act : State → State) :
    s.heldRun h cmd false act = .next s := by
  have hlegal := legal_of_effective heff hcmd
  obtain ⟨-, hbad, -⟩ := heff
  rw [State.heldRun, hbad, hlegal]
  rfl

theorem heldRun_of_effective (heff : s.Effective h cmd) (hcmd : ¬(cmd = 0x52 ∨ cmd = 0x53)) (act : State → State) :
    s.heldRun h cmd true act = .next (act s) := by
  rw [State.heldRun, Bool.not_true, Bool.and_false, if_neg Bool.false_ne_true, State.hostRun_of_effective heff hcmd]

end

/-- Settles O46: what the host's reads and writes of memory do. -/
theorem hostReadsAndWritesMemory : Obligations.HostReadsAndWritesMemory := by
  unfold Obligations.HostReadsAndWritesMemory
  intro h s a n ha
  subst ha
  have hreach {m : Nat} (hsome : (s.inAlloc (harg h 5 0) m).isSome = true) :
      s.hostReach (harg h 5 0) m = s.memPath s.ctlDie (harg h 5 0) m := by
    rw [State.hostReach, Option.isNone_eq_false_iff.mpr hsome, Bool.false_or]
  have hnone {m : Nat} (hn : s.inAlloc (harg h 5 0) m = none) : s.hostReach (harg h 5 0) m = true := by
    rw [State.hostReach, hn]
    rfl
  refine ⟨fun heff hn => ?_, fun heff hn => ?_⟩
  · subst hn
    have hexec : exec (.memWrite h) s = execMemWrite h s := rfl
    rw [hexec, execMemWrite]
    refine ⟨fun hsome hpath => ?_, fun hpath hsome => ?_, fun hno => ?_⟩
    · rw [hreach hsome, hpath, heldRun_waits heff (by decide)]
    · rw [hreach hsome, hpath, heldRun_of_effective heff (by decide), if_pos hsome]
      have hans := Answers.respond (s.put .other (harg h 5 0) h.payload false) h 0x20 0 0 []
      refine ⟨_, rfl, fun j hj => ?_, fun i hi => ?_, ?_, ?_⟩
      · rw [State.ok, hans.mem, State.put_mem, Memory.byte_write_out _ _ _ _ hj]
      · rw [State.ok, hans.mem, State.put_mem, Memory.byte_write_in _ _ _ _ hi]
      · rw [State.ok, hans.allocs, State.put_allocs]
      · rw [State.ok, hans.flash, State.put_flash]
    · rw [hnone hno, heldRun_of_effective heff (by decide), if_neg (by simp [hno])]
  · subst hn
    have hexec : exec (.memRead h) s = execMemRead h s := rfl
    rw [hexec, execMemRead]
    refine ⟨fun hsome hpath => ?_, fun hpath hsome hclean => ?_, fun hno => ?_⟩
    · rw [hreach hsome, hpath, heldRun_waits heff (by decide)]
    · rw [hreach hsome, hpath, heldRun_of_effective heff (by decide), if_pos hsome]
      have hr := readRange_reports s (harg h 5 0) (harg h 9 8)
      refine ⟨s.readRange (harg h 5 0) (harg h 9 8), ?_, hr.mem, hr.poison⟩
      have hbytes : s.hostBytes (harg h 5 0) (harg h 9 8) =
          (Memory.bytes s.mem (harg h 5 0) (harg h 9 8), s.readRange (harg h 5 0) (harg h 9 8)) := by
        rw [State.hostBytes, State.openRd, openAt_list_of_clean _ hclean, State.drewRange, hclean,
          if_neg Bool.false_ne_true]
      rw [hbytes]
    · rw [hnone hno, heldRun_of_effective heff (by decide), if_neg (by simp [hno])]

/-! ### Feeds -/

section
variable {s : State} {h : HostCmd} {cmd : Nat} {x : Feed}

theorem feedCheck_past (go : Feed → State) (hx : s.feed (harg h 1 0) = some x) (hk : harg h 7 4 ≤ s.ctl.sentMax) :
    s.feedCheck h cmd go = s.respond h cmd 0x10 s.committed [] := by
  unfold State.feedCheck
  simp only [hx, if_pos hk]

theorem feedCheck_busy (go : Feed → State) (hx : s.feed (harg h 1 0) = some x) (hk : s.ctl.sentMax < harg h 7 4)
    {j : Nat} (hj : x.busy (harg h 7 4) = some j) : s.feedCheck h cmd go = s.respond h cmd 0xF j [] := by
  unfold State.feedCheck
  simp only [hx, if_neg (Nat.not_le.mpr hk), hj]

theorem feedCheck_free (go : Feed → State) (hx : s.feed (harg h 1 0) = some x) (hk : s.ctl.sentMax < harg h 7 4)
    (hj : x.busy (harg h 7 4) = none) : s.feedCheck h cmd go = go x := by
  unfold State.feedCheck
  simp only [hx, if_neg (Nat.not_le.mpr hk), hj]

end

/-- Settles O48: feeds are opened and closed, written and committed. -/
theorem feedsTakeData : Obligations.FeedsTakeData := by
  unfold Obligations.FeedsTakeData
  intro h s f k hf
  subst hf
  refine ⟨fun x y heff hx hy hfree hsize hne => ?_, fun heff hopen => ?_, fun x hk hx => ?_⟩
  · have hexec : exec (.feedOpen h) s = execFeedOpen h s := rfl
    rw [hexec, execFeedOpen, State.hostRun_of_effective heff (by decide)]
    simp only [hx, hy, hfree]
    rw [if_neg (by omega)]
    have hans := Answers.respond (s.setFeed (harg h 1 0) (some ⟨BitVec.ofNat 16 (harg h 3 2),
      BitVec.ofNat 16 (harg h 5 4), harg h 6 6, []⟩)) h 0x40 0 0 []
    refine ⟨_, rfl, ?_, fun i hi => ?_, hans.mem⟩
    · exact (hans.feed _).trans (State.feed_setFeed_self _ _ _)
    · exact (hans.feed i).trans (State.feed_setFeed_ne _ _ _ _ hi)
  · have hexec : exec (.feedClose h) s = execFeedClose h s := rfl
    rw [hexec, execFeedClose, State.hostRun_of_effective heff (by decide)]
    rw [if_neg (by simpa using Option.isSome_iff_ne_none.mp hopen)]
    have hans := Answers.respond (s.setFeed (harg h 1 0) none) h 0x41 0 0 []
    refine ⟨_, rfl, ?_, fun i hi => ?_, hans.mem⟩
    · exact (hans.feed _).trans (State.feed_setFeed_self _ _ _)
    · exact (hans.feed i).trans (State.feed_setFeed_ne _ _ _ _ hi)
  · subst hk
    refine ⟨fun a n off heff hoff hn ha => ?_, fun heff => ?_⟩
    · subst hoff hn ha
      have hexec : exec (.feedWrite h) s = execFeedWrite h s := rfl
      rw [hexec, execFeedWrite, hx]
      dsimp only
      refine ⟨fun hreach => ?_, fun hreach hpast => ?_, fun hreach hk => ⟨fun hfree hroom => ?_, fun j hj => ?_,
        fun hfree hroom => ?_⟩⟩
      · rw [hreach, heldRun_waits heff (by decide)]
      · rw [hreach, heldRun_of_effective heff (by decide), feedCheck_past _ hx hpast]
      · rw [hreach, heldRun_of_effective heff (by decide), feedCheck_free _ hx hk hfree,
          if_neg (Nat.not_lt.mpr hroom)]
        have hans := Answers.respond ((s.put .other (s.slotAddr x (harg h 7 4) (harg h 13 8)) h.payload false).setFeed
          (harg h 1 0) (some (x.take (harg h 7 4) false))) h 0x42 0 0 []
        have hmem := hans.mem.trans (State.put_mem s .other (s.slotAddr x (harg h 7 4) (harg h 13 8)) h.payload false)
        refine ⟨_, rfl, (hans.feed _).trans (State.feed_setFeed_self _ _ _), hmem, fun j hj => ?_⟩
        rw [State.ok, hmem, Memory.byte_write_out _ _ _ _ hj]
      · rw [hreach, heldRun_of_effective heff (by decide), feedCheck_busy _ hx hk hj]
      · rw [hreach, heldRun_of_effective heff (by decide), feedCheck_free _ hx hk hfree, if_pos hroom]
    · have hexec : exec (.feedCommit h) s = execFeedCommit h s := rfl
      rw [hexec, execFeedCommit, State.hostRun_of_effective heff (by decide)]
      refine ⟨fun hpast => ?_, fun hk hfree => ?_⟩
      · rw [feedCheck_past _ hx hpast]
      · rw [feedCheck_free _ hx hk hfree]
        have hans := Answers.respond (s.setFeed (harg h 1 0) (some (x.take (harg h 7 4) true))) h 0x43 0 0 []
        exact ⟨_, rfl, (hans.feed _).trans (State.feed_setFeed_self _ _ _), hans.mem⟩

/-! ### Result windows -/

/-- A `RESULT_READ` that its memory allows reads. -/
theorem exec_resultRead_of_effective {s : State} {h : HostCmd} (heff : s.Effective h 0x52) :
    exec (.resultRead h) s = .next (if s.resultReach h then s.resultRead h else s) := by
  have hrun := State.runCmd_winLegal_of_effective heff (.inl rfl) fun s => s.resultRead h
  have hlegal : s.legalNow h 0x52 = s.winLegal h 0x52 := if_pos (.inl rfl)
  obtain ⟨-, hbad, hleg⟩ := heff
  have hexec : exec (.resultRead h) s = execResultRead h s := rfl
  rw [hexec, execResultRead, hrun, hbad, ← hlegal, hleg]
  cases s.resultReach h <;> rfl

theorem resultReach_window {s : State} {h : HostCmd} {x : Window} (hw : harg h 1 0 ≠ 255)
    (hx : s.window (harg h 1 0) = some x) : s.resultReach h =
      (decide (x.standing (harg h 7 4) ≠ 0 ∨ x.size < harg h 11 8 + harg h 13 12) ||
        s.memPath s.ctlDie (x.buf + harg h 7 4 % x.slots * x.size + harg h 11 8) (harg h 13 12)) := by
  unfold State.resultReach
  rw [if_neg hw, hx]

theorem resultRead_window {s : State} {h : HostCmd} {x : Window} (hw : harg h 1 0 ≠ 255)
    (hx : s.window (harg h 1 0) = some x) : s.resultRead h =
      s.answerResult h (x.standing (harg h 7 4)) x.size (s.resultBytes x (harg h 7 4) (harg h 11 8) (harg h 13 12)) := by
  unfold State.resultRead
  rw [if_neg hw, hx]

/-- Settles O49: result windows are opened, and results and the dump are read. -/
theorem resultsAreRead : Obligations.ResultsAreRead := by
  unfold Obligations.ResultsAreRead
  intro h s w k hw
  subst hw
  refine ⟨fun x y off size heff hoff hsize hx hy hfree hsrc hbuf hover => ?opened, fun heff hk hne => ⟨fun hno => ?_,
    fun x off n hx hoff hn => ⟨fun hst => ?_, fun hst hbeyond => ?_, fun a key hst hin ha hkey => ?_⟩⟩,
    fun heff hdump hst hin => ?dump⟩
  case opened =>
    subst hoff hsize
    have hexec : exec (.resultOpen h) s = execResultOpen h s := rfl
    rw [hexec, execResultOpen, State.hostRun_of_effective heff (by decide)]
    simp only [hx, hy, hfree]
    rw [if_neg (by simp only [hover, Bool.false_eq_true, or_false]; omega)]
    refine ⟨_, _, rfl, (State.window_respond _ _ _ _ _ _ _).trans (State.window_setWindow_self _ _ _), rfl, rfl, rfl, rfl,
      rfl, fun i hi => ?_, State.mem_respond _ _ _ _ _ _⟩
    rw [State.window_respond, State.window_setWindow_ne _ _ _ _ hi]
  · rw [exec_resultRead_of_effective heff, State.resultReach, if_neg hne, hno, State.resultRead, if_neg hne, hno]
    rfl
  · rw [exec_resultRead_of_effective heff, resultReach_window hne hx, resultRead_window hne hx, ← hk, decide_eq_true (.inl hst),
      Bool.true_or, if_pos rfl, State.answerResult, if_pos hst]
  · subst hoff hn
    rw [exec_resultRead_of_effective heff, resultReach_window hne hx, resultRead_window hne hx, ← hk,
      decide_eq_true (.inr hbeyond), Bool.true_or, if_pos rfl, State.answerResult, if_neg (not_not.mpr hst),
      if_pos hbeyond]
  · subst hoff hn ha hkey
    rw [exec_resultRead_of_effective heff, resultReach_window hne hx, resultRead_window hne hx, ← hk,
      decide_eq_false (by omega), Bool.false_or]
    refine ⟨fun hpath => by rw [hpath, if_neg Bool.false_ne_true], fun hpath => ?_⟩
    rw [hpath, if_pos rfl, State.answerResult, if_neg (not_not.mpr hst), if_neg (by omega)]
    have hr := readRange_reports s (x.buf + k % x.slots * x.size + harg h 11 8) (harg h 13 12)
    exact ⟨_, rfl, hr.mem, hr.poison, hr.windows, hr.freeCtr, fun hclean => openAt_list_of_clean _ hclean⟩
  case dump =>
    have hreach : s.resultReach h = s.memPath s.ctlDie (s.dumpBase + harg h 11 8) (harg h 13 12) := by
      unfold State.resultReach
      rw [if_pos hdump, decide_eq_false (by omega), Bool.false_or]
    rw [exec_resultRead_of_effective heff, hreach]
    refine ⟨fun hpath => by rw [hpath, if_neg Bool.false_ne_true], fun hpath => ?_⟩
    have hr := readRange_reports s (s.dumpBase + harg h 11 8) (harg h 13 12)
    refine ⟨s.readRange (s.dumpBase + harg h 11 8) (harg h 13 12), ?_, hr.mem, hr.poison, hr.dumpKey⟩
    rw [hpath, if_pos rfl, State.resultRead, if_pos hdump, State.answerResult, if_neg (not_not.mpr hst),
      if_neg (Nat.not_lt.mpr hin)]

end Sys2Proof.Machine
end

section
/-! SUPPORT. The shared caches, page retirement and the rebuilding of bursts (R253 to R255, R265, R396). -/

namespace Sys2Proof.Machine

open Sys2Proof

/-! ### The way of a fill -/

/-- A field of a mask that is not empty has its bits in one of its halves. -/
theorem fld_halves_ne_zero {mask lo n : Nat} (h : fld mask (lo + 2 ^ (n + 1) - 1) lo ≠ 0) :
    fld mask (lo + 2 ^ n - 1) lo ≠ 0 ∨ fld mask (lo + 2 * 2 ^ n - 1) (lo + 2 ^ n) ≠ 0 := by
  have hpos : 0 < 2 ^ n := Nat.two_pow_pos n
  have hpow : 2 ^ (n + 1) = 2 ^ n + 2 ^ n := by rw [Nat.pow_succ, Nat.mul_two]
  have e1 : lo + 2 ^ (n + 1) - 1 + 1 - lo = 2 ^ n + 2 ^ n := by omega
  have e2 : lo + 2 ^ n - 1 + 1 - lo = 2 ^ n := by omega
  have e3 : lo + 2 * 2 ^ n - 1 + 1 - (lo + 2 ^ n) = 2 ^ n := by omega
  unfold fld at *
  rw [e1, Nat.pow_add] at h
  rw [e2, e3, Nat.pow_add 2 lo, ← Nat.div_div_eq_div_mul]
  generalize mask / 2 ^ lo = x at *
  by_contra hc
  push Not at hc
  rw [Nat.mod_mul, hc.1, hc.2] at h
  simp at h

/-- The tree points to an allowed way of its part of the set. -/
theorem plruVictim_spec (bits mask : Nat) (n node lo : Nat) (h : fld mask (lo + 2 ^ n - 1) lo ≠ 0) :
    lo ≤ plruVictim bits mask n node lo ∧ plruVictim bits mask n node lo < lo + 2 ^ n ∧
      bit mask (plruVictim bits mask n node lo) = true := by
  induction n generalizing node lo with
  | zero =>
    refine ⟨Nat.le_refl _, by simp [plruVictim], ?_⟩
    rw [plruVictim, bit_eq_decide_fld, decide_eq_true_eq]
    have hlt := fld_lt mask lo lo
    simp only [Nat.pow_zero, Nat.add_sub_cancel] at h
    simp only [Nat.add_sub_cancel_left, Nat.pow_one] at hlt
    omega
  | succ n ih =>
    have hpow : 2 ^ (n + 1) = 2 ^ n + 2 ^ n := by rw [Nat.pow_succ, Nat.mul_two]
    have hor := fld_halves_ne_zero h
    rw [plruVictim]
    split
    · rename_i hc
      have hright : fld mask (lo + 2 ^ n + 2 ^ n - 1) (lo + 2 ^ n) ≠ 0 := by
        have e : lo + 2 ^ n + 2 ^ n - 1 = lo + 2 * 2 ^ n - 1 := by omega
        rw [e]
        rcases hc with ⟨-, hr⟩ | hl
        · exact hr
        · exact hor.resolve_left fun hleft => by simp [hleft] at hl
      obtain ⟨h1, h2, h3⟩ := ih (2 * node + 1) (lo + 2 ^ n) hright
      exact ⟨by omega, by omega, h3⟩
    · rename_i hc
      have hleft : fld mask (lo + 2 ^ n - 1) lo ≠ 0 := fun h0 => hc (.inr (by simp [h0]))
      obtain ⟨h1, h2, h3⟩ := ih (2 * node) lo hleft
      exact ⟨h1, by omega, h3⟩

/-- A fill takes a way that the mask allows. -/
theorem fillWay_spec (s : State) (d set mask : Nat) (hmask : fld mask 15 0 ≠ 0) :
    s.fillWay d set mask < 16 ∧ bit mask (s.fillWay d set mask) = true := by
  unfold State.fillWay
  split
  · rename_i w hw
    have hsome := List.find?_some hw
    rw [Bool.and_eq_true] at hsome
    exact ⟨List.mem_range.mp (List.mem_of_find?_eq_some hw), hsome.1⟩
  · obtain ⟨-, hlt, hbit⟩ := plruVictim_spec (s.plruBits d set).toNat mask 4 1 0 hmask
    exact ⟨by omega, hbit⟩

/-! ### The ways of a cache -/

section
variable (s : State) (d set way : Nat)

theorem cache_setWay_self (l : Option CacheLine) :
    SMap.get (fun _ => none) ((s.setWay d set way l).die d).cache (16 * set + way) = l := by
  unfold State.setWay
  rw [State.die_setDie_self]
  exact SMap.get_set_self _ _ _ l

theorem cache_setWay_ne (l : Option CacheLine) {j : Nat} (h : j ≠ 16 * set + way) :
    SMap.get (fun _ => none) ((s.setWay d set way l).die d).cache j = SMap.get (fun _ => none) (s.die d).cache j := by
  unfold State.setWay
  rw [State.die_setDie_self]
  exact SMap.get_set_ne _ _ l h

theorem cache_touchWay : ((s.touchWay d set way).die d).cache = (s.die d).cache := by
  unfold State.touchWay
  rw [State.die_setDie_self]

end

/-- A line without poison is installed in a way that the mask allows. -/
theorem fillLine_spec (s : State) (d req line : Nat) (hmask : s.regF (Reg.NMEM_CACHE_WAYMASK d req) 15 0 ≠ 0)
    (hclean : ∀ u ∈ unitsOf (256 * line) 256, s.poison.contains u = false) :
    ∃ w, w < 16 ∧ bit (s.regF (Reg.NMEM_CACHE_WAYMASK d req) 15 0) w = true ∧
      SMap.get (fun _ => none) ((s.fillLine d req line).die d).cache (16 * (line % s.cacheSets d) + w) =
        some ⟨line, Memory.bytes s.mem (256 * line) 256, false⟩ ∧
      ∀ j, j ≠ 16 * (line % s.cacheSets d) + w →
        SMap.get (fun _ => none) ((s.fillLine d req line).die d).cache j = SMap.get (fun _ => none) (s.die d).cache j := by
  unfold State.fillLine
  extract_lets +onlyGivenNames set mask t w u
  have hmask' : fld mask 15 0 ≠ 0 := by
    have hlt : mask < 65536 := fld_lt _ 15 0
    have hm : fld mask 15 0 = mask := by
      unfold fld
      omega
    rw [hm]
    exact hmask
  have ht : Reports s t := (readRange_reports s _ _).trans (count_reports _ _ _ _ _)
  obtain ⟨hw, hbit⟩ := fillWay_spec t d set mask hmask'
  have hcold : ¬(mask = 0 ∨ (unitsOf (256 * line) 256).any t.poison.contains = true) := by
    rw [ht.poison]
    rintro (h0 | hany)
    · exact hmask h0
    · obtain ⟨u, hu, hp⟩ := List.any_eq_true.mp hany
      exact Bool.false_ne_true ((hclean u hu).symm.trans hp)
  rw [if_neg hcold]
  have hu : u = t.setWay d set w (some ⟨line, Memory.bytes t.mem (256 * line) 256, false⟩) := rfl
  refine ⟨w, hw, hbit, ?_, fun j hj => ?_⟩
  · rw [(count_reports _ _ _ _ _).die, cache_touchWay, hu, cache_setWay_self, ht.mem]
  · rw [(count_reports _ _ _ _ _).die, cache_touchWay, hu, cache_setWay_ne _ _ _ _ _ hj, ht.die]

/-! ### The commands of the caches -/

theorem populated_of_far {a : Nat} (h : a < farSize) : populated a = true := by
  rw [populated, decide_eq_true h, Bool.true_or]

section
variable {d : Die} {req : Fin 10} {addr : Addr} {s : State} (hfar : addr.toNat < farSize) (hsets : s.cacheSets d ≠ 0)
  (hcached : s.cached addr.toNat = true) (hrun : s.nocRuns d = true)
include hfar hsets hcached hrun

/-- A cached address of far memory, in a cache whose NoC runs, is served. -/
theorem cacheFill_served : populated addr.toNat ≠ false ∧
    ¬(farSize ≤ addr.toNat ∨ s.cacheSets d = 0 ∨ s.cached addr.toNat = false ∨ s.nocRuns d = false) := by
  refine ⟨by rw [populated_of_far hfar]; decide, ?_⟩
  rw [hcached, hrun]
  simp only [Bool.true_eq_false, or_false]
  omega

theorem exec_cacheFill_miss (hw : s.cacheWay d (addr.toNat / 256) = none) : exec (.cacheFill d req addr) s =
    .next (if s.memPath d (256 * (addr.toNat / 256)) 256 then s.fillLine d req (addr.toNat / 256) else s) := by
  obtain ⟨hpop, hgo⟩ := cacheFill_served hfar hsets hcached hrun
  have hexec : exec (.cacheFill d req addr) s = execCacheFill d req addr s := rfl
  rw [hexec]
  unfold execCacheFill
  extract_lets a line sets set ready
  rw [if_neg hpop, if_neg hgo, hw]

theorem exec_cacheFill_present {w : Nat} {l : CacheLine} (hw : s.cacheWay d (addr.toNat / 256) = some w)
    (hl : SMap.get (fun _ => none) (s.die d).cache (16 * (addr.toNat / 256 % s.cacheSets d) + w) = some l) :
    exec (.cacheFill d req addr) s =
      if l.poison && !s.memPath d (256 * (addr.toNat / 256)) 256 then .next s
      else if l.poison then .next (((s.setWay d (addr.toNat / 256 % s.cacheSets d) w none).inc
        (Reg.NMEM_UE_CNT d) 1).fillLine d req (addr.toNat / 256))
      else .next ((s.touchWay d (addr.toNat / 256 % s.cacheSets d) w).count (54 + d) 0x200 req 1) := by
  obtain ⟨hpop, hgo⟩ := cacheFill_served hfar hsets hcached hrun
  have hexec : exec (.cacheFill d req addr) s = execCacheFill d req addr s := rfl
  rw [hexec]
  unfold execCacheFill
  extract_lets a line sets set ready
  rw [if_neg hpop, if_neg hgo]
  simp only [line, a, set, sets, hw, hl]
  rfl

end

theorem exec_cacheInvalidate {d : Die} {addr : Addr} {own : Bool} {s : State} {w : Nat} (hfar : addr.toNat < farSize)
    (hw : s.cacheWay d (addr.toNat / 256) = some w) : exec (.cacheInvalidate d addr own) s =
      if own then .next (s.setWay d (addr.toNat / 256 % s.cacheSets d) w
        (some ⟨addr.toNat / 256, Memory.bytes s.mem (256 * (addr.toNat / 256)) 256, false⟩))
      else .next (((s.setWay d (addr.toNat / 256 % s.cacheSets d) w none).inc (Reg.NMEM_INVAL_CNT d) 1).count
        (54 + d) 0x203 0 1) := by
  have hexec : exec (.cacheInvalidate d addr own) s = execCacheInvalidate d addr own s := rfl
  rw [hexec]
  unfold execCacheInvalidate
  extract_lets a line set
  rw [if_neg (by simp [a, populated_of_far hfar])]
  simp only [line, a, hw]
  rfl

/-- Settles O26: fills, hits and invalidations of the shared caches. -/
theorem cacheFillsAndInvalidates : Obligations.CacheFillsAndInvalidates := by
  unfold Obligations.CacheFillsAndInvalidates
  refine ⟨fun d req addr s line set mask hfar hline hsets hcached hset hmask hrun => ?_,
    fun d addr s line set w hfar hline hset hw => ?_⟩
  · subst hline hset hmask
    refine ⟨fun hmiss hpath => ?_, fun hmiss hmask hpath hclean => ?_, fun w l hhit hl => ⟨fun hp => ?_, fun hp hpath => ?_⟩⟩
    · rw [exec_cacheFill_miss hfar hsets hcached hrun hmiss, hpath, if_neg Bool.false_ne_true]
    · obtain ⟨w, hw, hbit, hline, hothers⟩ := fillLine_spec s d req (addr.toNat / 256) hmask hclean
      rw [exec_cacheFill_miss hfar hsets hcached hrun hmiss, hpath]
      exact ⟨_, w, rfl, hw, hbit, hline, hothers⟩
    · rw [exec_cacheFill_present hfar hsets hcached hrun hhit hl, hp]
      rfl
    · rw [exec_cacheFill_present hfar hsets hcached hrun hhit hl, hp, hpath]
      rfl
  · subst hline hset
    refine ⟨exec_cacheInvalidate hfar hw, _, exec_cacheInvalidate hfar hw, ?_⟩
    have hr := (inc_reports (s.setWay d (addr.toNat / 256 % s.cacheSets d) w none) (Reg.NMEM_INVAL_CNT d) 1).trans
      (count_reports _ (54 + d) 0x203 0 1)
    have hplace : evcPlace (Reg.NMEM_INVAL_CNT d) = none := evcPlace_dieBase d.isLt (by decide)
    refine ⟨?_, ?_, hr.mem⟩
    · rw [hr.die, cache_setWay_self]
    · rw [State.reg_count _ _ _ _ _ _ hplace (by omega), State.reg_inc_self]
      rfl

/-! ### Page retirement and bursts that are rebuilt -/

theorem State.reg_withBreaches (s : State) (l : List Breach) (a : Nat) :
    ({ s with breaches := l } : State).reg a = s.reg a := rfl

theorem State.reg_withBreachQ (s : State) (l : List Breach) (a : Nat) :
    ({ s with breachQ := l } : State).reg a = s.reg a := rfl

/-- The registers that a breach record changes are event counters and three of the fault block's. -/
theorem reg_breach (s : State) (i : Nat) (b : BreachInfo) {a : Nat} (he : evcPlace a = none)
    (hhead : a ≠ Reg.FLT_LOG_HEAD) (hcnt : a ≠ Reg.FLT_BREACH_CNT) (hstat : a ≠ Reg.FLT_STAT) :
    (s.breach i b).reg a = s.reg a := by
  unfold State.breach
  extract_lets +onlyGivenNames r t u v w w' x
  have hv : v.reg a = s.reg a := by
    have ht : t.reg a = s.reg a := State.reg_setIsland s i _ a
    have hu : u.reg a = t.reg a := State.reg_withBreaches t _ a
    unfold v
    rw [State.reg_inc_ne _ _ _ _ hcnt, State.reg_inc_ne _ _ _ _ hhead, hu, ht]
  have hw : w.reg a = v.reg a := by
    unfold w
    rw [State.reg_count _ _ _ _ _ _ he (by decide), State.reg_count _ _ _ _ _ _ he (by decide)]
  have hq : w'.reg a = w.reg a := State.reg_withBreachQ w _ a
  have hx : x.reg a = w.reg a := by
    unfold x
    split
    · rw [State.reg_setRegF_ne _ _ _ _ _ _ hstat, hq]
    · rfl
  rw [State.reg_sendEvent _ _ _ _ he, hx, hw, hv]

theorem reg_breachOpen (s : State) (i : Nat) (b : BreachInfo) {a : Nat} (he : evcPlace a = none)
    (hhead : a ≠ Reg.FLT_LOG_HEAD) (hcnt : a ≠ Reg.FLT_BREACH_CNT) (hstat : a ≠ Reg.FLT_STAT) :
    (s.breachOpen i b).reg a = s.reg a := reg_breach s.draw.2 i _ he hhead hcnt hstat

/-- A granule of the row of an address lies in its channel and its row (R257). -/
theorem granule_of_row {c r i : Nat} (hc : c < 192) (hi : i < 8) :
    rowOf ((r * 8 + i) * 192 * 256 + c * 256) = r ∧ chanOf ((r * 8 + i) * 192 * 256 + c * 256) = c := by
  unfold rowOf chanOf
  have hdiv : ((r * 8 + i) * 192 * 256 + c * 256) / 256 = (r * 8 + i) * 192 + c := by omega
  have hmod : ((r * 8 + i) * 192 * 256 + c * 256) % 256 = 0 := by omega
  rw [hdiv, hmod]
  omega

/-- What is asked of the twin for a burst are granules of its row that the twin holds. -/
theorem mem_rowAsk {s : State} {a g : Nat} (h : g ∈ s.rowAsk a) :
    rowOf g = rowOf a ∧ chanOf g = chanOf a ∧ (s.twinAddr g).isSome = true := by
  unfold State.rowAsk at h
  obtain ⟨hmem, -⟩ := List.mem_filter.mp h
  obtain ⟨hmap, hsome⟩ := List.mem_filter.mp hmem
  obtain ⟨i, hi, rfl⟩ := List.mem_map.mp hmap
  obtain ⟨hrow, hchan⟩ := granule_of_row (c := chanOf a) (r := rowOf a)
    (Nat.mod_lt _ (by decide)) (List.mem_range.mp hi)
  exact ⟨hrow, hchan, hsome⟩

/-- The state of a channel whose row is retired. -/
def ChanSt.dropRow (k : ChanSt) (row : Nat) (rest : List Nat) : ChanSt :=
  { k with retireQ := rest, ceRow := SMap.set (fun _ => 0) k.ceRow row 0 }

theorem ChanSt.ceRow_dropRow (k : ChanSt) (row : Nat) (rest : List Nat) :
    SMap.get (fun _ => 0) (k.dropRow row rest).ceRow row = 0 := SMap.get_set_self _ _ _ 0

/-- The breach record of a row of a channel. -/
def rowBreach (ch row cls action : Nat) : BreachInfo :=
  { cls := cls, polder := polderOfHalf (halfOfChan ch), action := action, obj := ch,
    addr := (row * 8 * 192 + ch) * 256 }

section
variable {ch : Chan} {s : State} {row : Nat} {rest : List Nat}

theorem exec_rowRetire_full (hq : (s.chan ch).retireQ = row :: rest) (h0 : s.regF (chanReg ch) 26 16 = 0) :
    exec (.rowRetire ch) s = .next (((s.setChan ch ((s.chan ch).dropRow row rest)).inc
      (Reg.FMEM_RETIRE_FULL_CNT (edgeOfChan ch)) 1).breachOpen (60 + edgeOfChan ch) (rowBreach ch row 8 0)) := by
  have hexec : exec (.rowRetire ch) s = execRowRetire ch s := rfl
  rw [hexec]
  unfold execRowRetire
  simp only [hq]
  exact if_pos h0

theorem exec_rowRetire_spare (hq : (s.chan ch).retireQ = row :: rest) (h0 : s.regF (chanReg ch) 26 16 ≠ 0) :
    ∃ t : State, Reports ((s.setChan ch ((s.chan ch).dropRow row rest)).setChan ch
        { (s.chan ch).dropRow row rest with
          remap := (((s.chan ch).remap.filter fun x => x.1 != row) ++ [(row, (s.chan ch).spareUsed)]),
          spareUsed := (s.chan ch).spareUsed + 1 }) t ∧
      exec (.rowRetire ch) s =
        .next (({ t with healthDirty := true } : State).breachOpen (60 + edgeOfChan ch) (rowBreach ch row 7 7)) := by
  have hexec : exec (.rowRetire ch) s = execRowRetire ch s := rfl
  rw [hexec]
  unfold execRowRetire
  simp only [hq]
  refine ⟨_, ?_, if_neg h0⟩
  rw [State.chan_setChan_self]
  exact (setRegF_reports _ _ _ _ _).trans (inc_reports _ _ _)

end

/-- Settles O29: rows that are retired, and bursts that are rebuilt. -/
theorem badRowsAndBursts : Obligations.BadRowsAndBursts := by
  unfold Obligations.BadRowsAndBursts
  refine ⟨fun ch s row rest hq => ?_, fun addr s a ha hfar => ?_⟩
  · by_cases h0 : s.regF (chanReg ch) 26 16 = 0
    · have hinc := inc_reports (s.setChan ch ((s.chan ch).dropRow row rest)) (Reg.FMEM_RETIRE_FULL_CNT (edgeOfChan ch)) 1
      have hd := breachOpen_declares ((s.setChan ch ((s.chan ch).dropRow row rest)).inc
        (Reg.FMEM_RETIRE_FULL_CNT (edgeOfChan ch)) 1) (60 + edgeOfChan ch) (rowBreach ch row 8 0)
      have hchan := (hd.chan ch).trans ((hinc.chan ch).trans (State.chan_setChan_self _ _ _))
      refine ⟨_, exec_rowRetire_full hq h0, by rw [hchan]; rfl, by rw [hchan, ChanSt.ceRow_dropRow],
        hd.mem.trans hinc.mem, fun h => absurd h0 h, fun _ => ⟨?_, by rw [hchan]; rfl, by rw [hchan]; rfl⟩⟩
      have he : edgeOfChan ch < 2 := Nat.div_lt_of_lt_mul ch.isLt
      have hcnt : evcPlace (Reg.FMEM_RETIRE_FULL_CNT (edgeOfChan ch)) = none ∧
          Reg.FMEM_RETIRE_FULL_CNT (edgeOfChan ch) ≠ Reg.FLT_LOG_HEAD ∧
          Reg.FMEM_RETIRE_FULL_CNT (edgeOfChan ch) ≠ Reg.FLT_BREACH_CNT ∧
          Reg.FMEM_RETIRE_FULL_CNT (edgeOfChan ch) ≠ Reg.FLT_STAT := by
        generalize edgeOfChan ch = e at he
        interval_cases e <;> decide
      obtain ⟨hp, hhead, hbreach, hstat⟩ := hcnt
      rw [reg_breachOpen _ _ _ hp hhead hbreach hstat, State.reg_inc_self, State.reg_setChan]
    · obtain ⟨t, ht, hexec⟩ := exec_rowRetire_spare hq h0
      have hd := breachOpen_declares ({ t with healthDirty := true } : State) (60 + edgeOfChan ch) (rowBreach ch row 7 7)
      have hchan := (hd.chan ch).trans ((ht.chan ch).trans (State.chan_setChan_self _ _ _))
      refine ⟨_, hexec, by rw [hchan]; rfl, ?_, hd.mem.trans ht.mem, fun _ => ⟨?_, ?_⟩, fun h => absurd h h0⟩
      · rw [hchan]
        exact ChanSt.ceRow_dropRow (s.chan ch) row rest
      · rw [hchan]
        exact List.mem_append_right _ (List.mem_singleton_self _)
      · rw [hchan]
  · have hexec : exec (.burstReconstruct addr) s = execBurstReconstruct addr s := rfl
    rw [hexec]
    unfold execBurstReconstruct
    extract_lets +onlyGivenNames b
    obtain rfl : a = b := ha
    rw [if_neg (Nat.not_le.mpr hfar)]
    refine ⟨fun hclean => ?_, fun hbad hcom halone => ⟨fun g hg => mem_rowAsk hg, ?_⟩, fun hbad hcom u hu => ?_⟩
    · rw [hclean]
      rfl
    · rw [hbad, hcom, halone]
      rfl
    · rw [hbad, hcom, hu]
      rfl

end Sys2Proof.Machine
end

section
/-! SUPPORT. Far-memory training and upkeep (R259 to R262). -/

namespace Sys2Proof.Machine

open Sys2Proof

/-! ### Registers that no event counter and no island status lies on -/

/-- A register whose place in its block lies below the event counters'. -/
def LowPlace (a : Nat) : Prop := ∀ b o, 54 ≤ b → o < 0x1000 → a ≠ Reg.evcBase b + o

theorem lowPlace_iff_offset {a : Nat} (h : a % 0x01000000 < 0xC0000) : LowPlace a := by
  rintro b o hb ho rfl
  unfold Reg.evcBase dieBase edgeBase at h
  split at h
  · omega
  · split at h <;> omega

section
variable {a : Nat} (ha : LowPlace a)
include ha

theorem LowPlace.reg_evcAdd (s : State) {b i : Nat} (hb : 54 ≤ b) (hi : i < 32) (n : Nat) :
    (s.evcAdd b i n).reg a = s.reg a := by
  have hsel : a ≠ Reg.EVC_SEL b i := ha b _ hb (by omega)
  have hlo : a ≠ Reg.EVC_CNT_LO b i := fun h => ha b (0x20 * i + 4) hb (by omega) (by rw [h, Reg.EVC_CNT_LO, Nat.add_assoc])
  have hhi : a ≠ Reg.EVC_CNT_HI b i := fun h => ha b (0x20 * i + 8) hb (by omega) (by rw [h, Reg.EVC_CNT_HI, Nat.add_assoc])
  have hcount (v : Nat) : (s.setEvcCount b i v).reg a = s.reg a := State.reg_setReg48_ne s v hlo hhi
  unfold State.evcAdd
  extract_lets c t sel u
  have hu : u.reg a = s.reg a := (State.reg_setRegF_ne t _ _ _ _ a hsel).trans (hcount _)
  split
  · exact hcount _
  · split
    · rw [State.reg_queueNamed, hu]
    · exact hu

theorem LowPlace.reg_countQ (s : State) {b : Nat} (hb : 54 ≤ b) (src inst n : Nat) :
    (s.countQ b src inst n).reg a = s.reg a := by
  unfold State.countQ
  split
  · rfl
  · refine State.reg_foldl _ a _ (fun s i hi => ?_) s
    have hsize := evcSize_le b
    have hlt := List.mem_range.mp hi
    split
    · exact ha.reg_evcAdd s hb (by omega) n
    · rfl

theorem LowPlace.reg_pumpOne (s : State) (l : Nat) : (s.pumpOne l).reg a = s.reg a := by
  unfold State.pumpOne
  extract_lets +onlyGivenNames k st lets r k' k''
  split
  · rfl
  · unfold State.countSent
    split
    · exact (ha.reg_countQ _ (by omega) _ _ _).trans (State.reg_setLink s l _ a)
    · exact (ha.reg_countQ _ (by omega) _ _ _).trans (State.reg_setLink s l _ a)

theorem LowPlace.reg_pumpLanes (n l : Nat) (s : State) : (State.pumpLanes n l s).reg a = s.reg a := by
  induction n generalizing l s with
  | zero => rfl
  | succ n ih =>
    unfold State.pumpLanes
    extract_lets t
    split
    · exact ha.reg_pumpOne s l
    · exact (ih _ _).trans (ha.reg_pumpOne s l)

theorem LowPlace.reg_linkSend (s : State) (l : Nat) (p : Pkt) : (s.linkSend l p).reg a = s.reg a := by
  have hq : (s.enqueue l p).reg a = s.reg a := rfl
  rw [← hq]
  unfold State.linkSend State.pump
  split
  · exact ha.reg_pumpOne _ l
  · exact ha.reg_pumpLanes _ l _

end

theorem chanReg_offset {c : Nat} (_hc : c < 192) : chanReg c % 0x01000000 = 0x10000 + 4 * (c % 96) := by
  unfold chanReg Reg.FMEM_CHAN_STAT edgeBase
  omega

theorem lowPlace_chanReg {c : Nat} (hc : c < 192) : LowPlace (chanReg c) :=
  lowPlace_iff_offset (by rw [chanReg_offset hc]; omega)

theorem chanReg_inj {c d : Nat} (h : chanReg c = chanReg d) : c = d := by
  unfold chanReg Reg.FMEM_CHAN_STAT edgeBase at h
  omega

theorem chanReg_ne_blockStat {c b : Nat} (hc : c < 192) : chanReg c ≠ blockStat b := by
  intro h
  have hoff := chanReg_offset hc
  rw [h] at hoff
  unfold blockStat Reg.CORE_ISLAND_STAT Reg.DIE_TEL_ISLAND_STAT Reg.EDGE_TEL_ISLAND_STAT coreBase dieBase
    edgeBase at hoff
  split at hoff
  · omega
  · split at hoff <;> omega

/-! ### The return of an island -/

/-- State t comes from s by the return of islands: those that were ready stay so, and of what far memory and its
channels hold nothing changes. -/
structure Rejoins (s t : State) : Prop where
  rest : t = { s with
    regs := t.regs, islands := t.islands, links := t.links, log := t.log, evtSeq := t.evtSeq, thrFired := t.thrFired,
    cores := t.cores, ctl := t.ctl, evcMsgs := t.evcMsgs, xfer := t.xfer }
  ready : ∀ i, (s.island i).ready = true → (t.island i).ready = true
  chanReg : ∀ c, c < 192 → t.reg (chanReg c) = s.reg (chanReg c)

namespace Rejoins

theorem refl (s : State) : Rejoins s s := ⟨rfl, fun _ h => h, fun _ _ => rfl⟩

theorem trans {s t u : State} (h : Rejoins s t) (g : Rejoins t u) : Rejoins s u := by
  refine ⟨?_, fun i hi => g.ready i (h.ready i hi), fun c hc => (g.chanReg c hc).trans (h.chanReg c hc)⟩
  rw [g.rest, h.rest]

theorem foldl {α : Type} {f : State → α → State} (h : ∀ s a, Rejoins s (f s a)) (l : List α) (s : State) :
    Rejoins s (l.foldl f s) := by
  induction l generalizing s with
  | nil => exact refl s
  | cons a l ih => exact (h s a).trans (ih (f s a))

theorem of_sends {s t : State} (h : Sends s t) (hreg : ∀ c, c < 192 → t.reg (Machine.chanReg c) = s.reg (Machine.chanReg c)) :
    Rejoins s t := by
  refine ⟨?_, fun i hi => (h.ready i).trans hi, hreg⟩
  have hr := h.reports
  unfold Reports at hr
  rw [hr]

theorem setIsland (s : State) (i : Nat) (x : Island) (hx : (s.island i).ready = true → x.ready = true) :
    Rejoins s (s.setIsland i x) := by
  refine ⟨rfl, fun j hj => ?_, fun _ _ => rfl⟩
  rcases eq_or_ne j i with rfl | hne
  · rw [State.island_setIsland_self]
    exact hx hj
  · rw [State.island_setIsland_ne _ _ _ _ hne]
    exact hj

theorem settleIsland (s : State) (i : Nat) : Rejoins s (s.settleIsland i) := by
  unfold State.settleIsland
  extract_lets x own nbrs t
  have ht : Rejoins s t := by
    refine foldl (fun s _ => of_sends (sends_countResync s i) fun c hc => ?_) _ s
    unfold State.countResync islandStat
    split
    · rename_i a h
      obtain rfl : blockStat i = a := by
        split at h
        · exact Option.some.inj h
        · cases h
      exact State.reg_setRegF_ne _ _ _ _ _ _ (chanReg_ne_blockStat hc)
    · rfl
  split
  · exact refl s
  · have hready : (t.island i).ready = x.ready :=
      ((Sends.foldl (fun s _ => sends_countResync s i) _ s).sameService i).2
    exact ht.trans (setIsland t i _ fun h => hready.symm.trans h)

theorem releaseHeld (s : State) (c : Nat) : Rejoins s (s.releaseHeld c) := by
  unfold State.releaseHeld
  extract_lets k
  split
  · exact refl s
  · exact ⟨rfl, fun _ h => h, fun _ _ => rfl⟩

theorem releaseMsgs (s : State) : Rejoins s s.releaseMsgs := ⟨rfl, fun _ h => h, fun _ _ => rfl⟩

theorem setXfer (s : State) (l : List HeldPkt) : Rejoins s { s with xfer := l } := ⟨rfl, fun _ h => h, fun _ _ => rfl⟩

theorem releaseXfer (s : State) : Rejoins s s.releaseXfer := by
  unfold State.releaseXfer
  exact (setXfer s _).trans (foldl (fun s x => of_sends (sends_linkSend s _ _)
    fun c hc => (lowPlace_chanReg hc).reg_linkSend s _ _) _ _)

theorem rejoin (s : State) (is : List Nat) : Rejoins s (s.rejoin is) := by
  unfold State.rejoin
  extract_lets t u
  have ht : Rejoins s t := foldl (fun s i => setIsland s i _ fun _ => rfl) is s
  have hu : Rejoins t u := foldl settleIsland _ t
  exact ((ht.trans hu).trans (foldl releaseHeld _ u)).trans ((releaseMsgs _).trans (releaseXfer _))

section
variable {s t : State} (h : Rejoins s t)
include h

theorem mem : t.mem = s.mem := by rw [h.rest]
theorem poison : t.poison = s.poison := by rw [h.rest]
theorem railsOff : t.railsOff = s.railsOff := by rw [h.rest]
theorem pwrStates : t.pwrStates = s.pwrStates := by rw [h.rest]
theorem chan (c : Nat) : t.chan c = s.chan c := by unfold State.chan; rw [h.rest]

theorem chanState {c : Nat} (hc : c < 192) : t.chanState c = s.chanState c := by
  unfold State.chanState State.regF
  rw [h.chanReg c hc]

end

end Rejoins

/-! ### Zeros in a channel -/

theorem SMap.get_filter {α : Type} (d : Nat → α) (m : SMap α) (q : Nat → Bool) (k : Nat) :
    SMap.get d (m.filter fun e => q e.1) k = if q k then SMap.get d m k else d k := by
  have hfind : SMap.find (m.filter fun e => q e.1) k = if q k then SMap.find m k else none := by
    induction m with
    | nil => simp [SMap.find]
    | cons e m ih =>
      obtain ⟨j, v⟩ := e
      by_cases hj : j = k
      · subst hj
        cases hq : q j <;> simp [SMap.find, hq, ih]
      · cases hq : q j <;> simp [SMap.find, hq, hj, ih]
  unfold SMap.get
  rw [hfind]
  split <;> rfl

/-- The byte lies in a channel's far memory. -/
abbrev inChan (ch a : Nat) : Prop := a < farSize ∧ chanOf a = ch

theorem byte_zeroChan (s : State) (ch a : Nat) :
    (s.zeroChan ch).mem.byte a = if inChan ch a then 0 else s.mem.byte a := by
  have h := SMap.get_filter memDefault s.mem (fun j => !(decide (j < farSize) && chanOf j == ch)) a
  unfold Memory.byte State.zeroChan
  refine h.trans ?_
  by_cases hin : a < farSize ∧ chanOf a = ch
  · simp [hin.1, hin.2, memDefault]
  · rw [if_neg hin, if_pos]
    by_cases hfar : a < farSize
    · have hne : chanOf a ≠ ch := fun h => hin ⟨hfar, h⟩
      simp [hne]
    · simp [hfar]

theorem mem_poison_zeroChan {s : State} {ch a : Nat} :
    a ∈ (s.zeroChan ch).poison ↔ a ∈ s.poison ∧ ¬inChan ch a := by
  unfold State.zeroChan
  rw [List.mem_filter]
  refine and_congr_right fun _ => ?_
  rw [Bool.not_eq_true', ← Bool.not_eq_true, Bool.and_eq_true, decide_eq_true_eq, beq_iff_eq]

theorem island_zeroChan (s : State) (ch i : Nat) : (s.zeroChan ch).island i = s.island i := rfl

theorem chanState_zeroChan (s : State) (ch c : Nat) : (s.zeroChan ch).chanState c = s.chanState c := rfl

theorem chan_zeroChan (s : State) (ch c : Nat) : (s.zeroChan ch).chan c = s.chan c := rfl

theorem railsOff_zeroChan (s : State) (ch : Nat) : (s.zeroChan ch).railsOff = s.railsOff := rfl

/-! ### An attempt to train a channel -/

/-- The state of a channel after an attempt. -/
def ChanSt.tried (k : ChanSt) (fails : Bool) : ChanSt :=
  { k with attempts := k.attempts + 1, trainDone := if fails then 0 else 9 }

/-- State t comes from s by the first attempt of a channel. -/
structure Tried (s : State) (ch : Nat) (fails : Bool) (t : State) : Prop where
  chan : t.chan ch = (s.chan ch).tried fails
  chans : ∀ c, c ≠ ch → t.chan c = s.chan c
  state : t.chanState ch = if fails then 1 else 2
  states : ∀ c, c < 192 → c ≠ ch → t.chanState c = s.chanState c
  back : fails = false → (t.island (80 + ch)).ready = true
  ready : ∀ i, (s.island i).ready = true → (t.island i).ready = true
  railsOff : t.railsOff = s.railsOff
  byte : ∀ a, t.mem.byte a = if inChan ch a ∧ fails = false then 0 else s.mem.byte a
  poison : ∀ a, a ∈ t.poison ↔ a ∈ s.poison ∧ ¬(inChan ch a ∧ fails = false)

theorem chanState_setRegF_self (s : State) (ch v : Nat) (hv : v < 4) :
    (s.setRegF (chanReg ch) 31 30 v).chanState ch = v := by
  rw [State.chanState, State.regF_setRegF_self _ _ _ (by decide)]
  exact Nat.mod_eq_of_lt hv

theorem chanState_setRegF_ne (s : State) {c ch : Nat} (h : c ≠ ch) (v : Nat) :
    (s.setRegF (chanReg ch) 31 30 v).chanState c = s.chanState c := by
  rw [State.chanState, State.regF_setRegF_of_ne _ _ _ fun he => h (chanReg_inj he), State.chanState]

theorem trainChan_spec {s : State} {ch : Nat} (hch : ch < 192) (hstate : s.chanState ch < 2)
    (hedge : (s.island (60 + edgeOfChan ch)).ready = true) (hkept : s.keptInReset (80 + ch) = false)
    (hfirst : (s.chan ch).attempts = 0) (fails : Bool) : Tried s ch fails (s.trainChan ch fails) := by
  have hgo : ¬(2 ≤ s.chanState ch ∨ (s.island (60 + edgeOfChan ch)).ready = false ∨ s.keptInReset (80 + ch) = true) := by
    rw [hedge, hkept]
    simp only [Bool.true_eq_false, Bool.false_eq_true, or_false]
    omega
  unfold State.trainChan
  extract_lets k t
  rw [if_neg hgo]
  cases fails with
  | true =>
    rw [if_pos rfl, if_pos hfirst]
    have ht : t = s.setChan ch ((s.chan ch).tried true) := rfl
    have hr := setRegF_reports t (chanReg ch) 31 30 1
    refine ⟨?_, fun c hc => ?_, chanState_setRegF_self _ _ _ (by decide), fun c _ hc => ?_, fun h => absurd h (by decide),
      fun i hi => ?_, hr.railsOff, fun a => ?_, fun a => ?_⟩
    · rw [hr.chan, ht, State.chan_setChan_self]
    · rw [hr.chan, ht, State.chan_setChan_ne _ _ _ _ hc]
    · rw [chanState_setRegF_ne _ hc]
      rfl
    · rw [State.island_setRegF, ht, State.island_setChan]
      exact hi
    · rw [if_neg (by simp), hr.mem]
      rfl
    · rw [hr.poison]
      simp [ht]
  | false =>
    have hk : ({ k with attempts := k.attempts + 1, trainDone := 9 } : ChanSt) = (s.chan ch).tried false := rfl
    rw [if_neg Bool.false_ne_true, hk]
    have hr := setRegF_reports (s.setChan ch ((s.chan ch).tried false)) (chanReg ch) 31 30 2
    have hj := Rejoins.rejoin (((s.setChan ch ((s.chan ch).tried false)).setRegF (chanReg ch) 31 30 2).zeroChan ch) [80 + ch]
    have hback := State.island_rejoin (List.mem_singleton_self (80 + ch))
      (((s.setChan ch ((s.chan ch).tried false)).setRegF (chanReg ch) 31 30 2).zeroChan ch)
    refine ⟨((hj.chan ch).trans (chan_zeroChan _ _ _)).trans ((hr.chan ch).trans (State.chan_setChan_self _ _ _)),
      fun c hc => ((hj.chan c).trans (chan_zeroChan _ _ _)).trans ((hr.chan c).trans (State.chan_setChan_ne _ _ _ _ hc)), ?_, fun c hlt hc => ?_,
      fun _ => hback.1, fun i hi => hj.ready i ?_, ?_, fun a => ?_, fun a => ?_⟩
    · refine (hj.chanState hch).trans ((chanState_zeroChan _ _ _).trans ?_)
      rw [chanState_setRegF_self _ _ _ (by decide)]
      rfl
    · refine (hj.chanState hlt).trans ((chanState_zeroChan _ _ _).trans ?_)
      rw [chanState_setRegF_ne _ hc]
      rfl
    · rw [island_zeroChan, State.island_setRegF, State.island_setChan]
      exact hi
    · rw [hj.railsOff, railsOff_zeroChan, hr.railsOff, State.setChan_railsOff]
    · refine (congrArg (fun m => Memory.byte m a) hj.mem).trans ((byte_zeroChan _ ch a).trans ?_)
      rw [hr.mem]
      simp only [and_true, State.setChan_mem]
    · rw [hj.poison, mem_poison_zeroChan, hr.poison]
      simp only [and_true, State.setChan_poison]

/-! ### The training of a package -/

/-- State t comes from s by the first attempts of the first n channels of a package. -/
structure PkgTried (s : State) (pkg : Nat) (fail : BitVec 4) (n : Nat) (t : State) : Prop where
  tried : ∀ i, i < n → t.chanState (4 * pkg + i) = (if fail.getLsbD i then 1 else 2) ∧
    (t.chan (4 * pkg + i)).attempts = 1 ∧ (fail.getLsbD i = false → (t.island (80 + (4 * pkg + i))).ready = true)
  others : ∀ c, c < 192 → (∀ i, i < n → c ≠ 4 * pkg + i) → t.chanState c = s.chanState c
  chans : ∀ c, (∀ i, i < n → c ≠ 4 * pkg + i) → t.chan c = s.chan c
  ready : ∀ i, (s.island i).ready = true → (t.island i).ready = true
  railsOff : t.railsOff = s.railsOff
  zero : ∀ a i, i < n → inChan (4 * pkg + i) a → fail.getLsbD i = false → t.mem.byte a = 0 ∧ a ∉ t.poison
  same : ∀ a, (∀ i, i < n → inChan (4 * pkg + i) a → fail.getLsbD i = true) →
    t.mem.byte a = s.mem.byte a ∧ (a ∈ t.poison ↔ a ∈ s.poison)

/-- What keeps a memory PHY in reset are rails that are off. -/
theorem keptInReset_of_railsOff {s t : State} {i : Nat} (hi : 54 ≤ i) (h : t.railsOff = s.railsOff) :
    t.keptInReset i = s.keptInReset i := by
  unfold State.keptInReset
  rw [h, decide_eq_false (Nat.not_lt.mpr hi), Bool.false_and, Bool.false_and]

theorem PkgTried.next {s t u : State} {pkg n : Nat} {fail : BitVec 4} (h : PkgTried s pkg fail n t)
    (hfirst : (s.chan (4 * pkg + n)).attempts = 0) (g : Tried t (4 * pkg + n) (fail.getLsbD n) u) (hp : pkg < 48)
    (hn : n < 4) : PkgTried s pkg fail (n + 1) u := by
  have hbelow {i : Nat} (hi : i < n) : 4 * pkg + i ≠ 4 * pkg + n := by omega
  have hnew {c : Nat} (hc : ∀ i, i < n + 1 → c ≠ 4 * pkg + i) : c ≠ 4 * pkg + n ∧ ∀ i, i < n → c ≠ 4 * pkg + i :=
    ⟨hc n (Nat.lt_succ_self n), fun i hi => hc i (Nat.lt_succ_of_lt hi)⟩
  refine ⟨fun i hi => ?_, fun c hlt hc => ?_, fun c hc => ?_, fun i hi => g.ready i (h.ready i hi),
    g.railsOff.trans h.railsOff, fun a i hi hin hok => ?_, fun a ha => ?_⟩
  · rcases Nat.lt_succ_iff_lt_or_eq.mp hi with hlt | rfl
    · obtain ⟨hstate, hatt, hready⟩ := h.tried i hlt
      rw [g.states _ (by omega) (hbelow hlt), g.chans _ (hbelow hlt)]
      exact ⟨hstate, hatt, fun hok => g.ready _ (hready hok)⟩
    · refine ⟨g.state, ?_, g.back⟩
      rw [g.chan, h.chans _ fun j hj => (hbelow hj).symm]
      exact congrArg (· + 1) hfirst
  · obtain ⟨hne, hlow⟩ := hnew hc
    rw [g.states _ hlt hne, h.others _ hlt hlow]
  · obtain ⟨hne, hlow⟩ := hnew hc
    rw [g.chans _ hne, h.chans _ hlow]
  · rw [g.byte, g.poison]
    rcases Nat.lt_succ_iff_lt_or_eq.mp hi with hlt | rfl
    · have hnot : ¬(inChan (4 * pkg + n) a ∧ fail.getLsbD n = false) := fun hx =>
        hbelow hlt (hin.2.symm.trans hx.1.2)
      obtain ⟨hb, hpois⟩ := h.zero a i hlt hin hok
      rw [if_neg hnot]
      exact ⟨hb, fun hx => hpois hx.1⟩
    · rw [if_pos ⟨hin, hok⟩]
      exact ⟨rfl, fun hx => hx.2 ⟨hin, hok⟩⟩
  · have hnot : ¬(inChan (4 * pkg + n) a ∧ fail.getLsbD n = false) := fun hx =>
      Bool.false_ne_true (hx.2.symm.trans (ha n (Nat.lt_succ_self n) hx.1))
    obtain ⟨hb, hpois⟩ := h.same a fun i hi => ha i (Nat.lt_succ_of_lt hi)
    rw [g.byte, g.poison, if_neg hnot]
    exact ⟨hb, (and_iff_left hnot).trans hpois⟩

theorem trainPackage_spec {s : State} {pkg : Nat} (hp : pkg < 48) (fail : BitVec 4)
    (hnew : ∀ i, i < 4 → s.chanState (4 * pkg + i) < 2 ∧ (s.chan (4 * pkg + i)).attempts = 0)
    (hedge : (s.island (60 + edgeOfChan (4 * pkg))).ready = true)
    (hkept : ∀ i, i < 4 → s.keptInReset (80 + (4 * pkg + i)) = false) (n : Nat) (hn : n ≤ 4) :
    PkgTried s pkg fail n ((List.range n).foldl (fun s i => s.trainChan (4 * pkg + i) (fail.getLsbD i)) s) := by
  induction n with
  | zero =>
    exact ⟨fun i hi => absurd hi (Nat.not_lt_zero i), fun _ _ _ => rfl, fun _ _ => rfl, fun _ h => h, rfl,
      fun _ i hi => absurd hi (Nat.not_lt_zero i), fun _ _ => ⟨rfl, Iff.rfl⟩⟩
  | succ n ih =>
    have ht := ih (by omega)
    rw [List.range_succ, List.foldl_append, List.foldl_cons, List.foldl_nil]
    generalize (List.range n).foldl (fun s i => s.trainChan (4 * pkg + i) (fail.getLsbD i)) s = t at ht
    have hlater : ∀ i, i < n → 4 * pkg + n ≠ 4 * pkg + i := fun i hi => by omega
    obtain ⟨hstate, hatt⟩ := hnew n (by omega)
    have hsameEdge : edgeOfChan (4 * pkg + n) = edgeOfChan (4 * pkg) := by
      unfold edgeOfChan
      omega
    refine ht.next hatt (trainChan_spec (by omega) ?_ ?_ ?_ ?_ _) hp (by omega)
    · rwa [ht.others _ (by omega) hlater]
    · rw [hsameEdge]
      exact ht.ready _ hedge
    · rw [keptInReset_of_railsOff (by omega) ht.railsOff]
      exact hkept n (by omega)
    · rwa [ht.chans _ hlater]

/-! ### Upkeep -/

theorem chan_issueRefresh (s : State) (ch n : Nat) :
    (s.issueRefresh ch n).chan ch = { s.chan ch with refreshes := (s.chan ch).refreshes + n } ∧
      (s.issueRefresh ch n).mem = s.mem := by
  unfold State.issueRefresh
  have hr := count_reports (s.setChan ch { s.chan ch with refreshes := (s.chan ch).refreshes + n })
    (60 + edgeOfChan ch) 0x284 (ch % 96) n
  exact ⟨(hr.chan ch).trans (State.chan_setChan_self _ _ _), hr.mem⟩

/-- A channel that is out of self-refresh does not train. -/
theorem chanState_of_active {s : State} {ch : Nat} (h : s.chanActive ch = true) : s.chanState ch = 2 := by
  unfold State.chanActive at h
  simp only [Bool.and_eq_true, decide_eq_true_eq] at h
  exact h.1.1

/-- Settles O28: the training of a package, and what keeps a channel. -/
theorem farMemoryIsKept : Obligations.FarMemoryIsKept := by
  unfold Obligations.FarMemoryIsKept
  refine ⟨fun pkg fail s hnew hedge hkept => ?_, fun ch s hready drift ok1 ok2 => ?_, fun ch s hact => ?_,
    fun ch bank busy s => ⟨fun htrain => ?_, fun hact hne => ?_, fun hact => ?_⟩⟩
  · have h := trainPackage_spec pkg.isLt fail hnew hedge hkept 4 (Nat.le_refl 4)
    have hfour {a : Nat} (hfar : a < farSize) (hpkg : chanOf a / 4 = pkg) : inChan (4 * pkg + chanOf a % 4) a :=
      ⟨hfar, by omega⟩
    refine ⟨_, rfl, h.tried, fun c hc => h.chans c fun i hi => by omega, fun a hfar hpkg hok => ?_, fun a ha => ?_⟩
    · exact h.zero a _ (Nat.mod_lt _ (by decide)) (hfour hfar hpkg) hok
    · refine h.same a fun i hi hin => ?_
      obtain ⟨hfar, hchan⟩ := hin
      have hmod : chanOf a % 4 = i := by omega
      rcases ha with ha | ha | ha
      · omega
      · exact absurd (by omega) ha
      · rwa [hmod] at ha
  · have hexec : exec (.fmemDriftCheck ch drift ok1 ok2) s = execFmemDriftCheck ch drift ok1 ok2 s := rfl
    rw [hexec, execFmemDriftCheck]
    refine ⟨fun h => if_pos (.inr h), fun h => ?_⟩
    rw [if_neg (by omega)]
    cases ok1 <;> cases ok2 <;> rfl
  · have hstate := chanState_of_active hact
    refine ⟨fun bank busy due hdue => ?_, ?_, ?_⟩
    · have hexec : exec (.fmemRefresh ch bank busy) s = execFmemRefresh ch bank busy s := rfl
      rw [hexec]
      unfold execFmemRefresh
      extract_lets +onlyGivenNames k n' n q
      obtain ⟨hchan, hmem⟩ := chan_issueRefresh (s.setChan ch { k with refreshDue := q }) ch n
      rw [State.chan_setChan_self] at hchan
      rw [if_neg (by omega), hact]
      refine ⟨_, rfl, ?_, ?_, hmem.trans rfl⟩
      · rw [hchan]
        refine (SMap.get_set_self _ _ _ _).trans ?_
        have hn' : n' = due + 1 := by rw [hdue]
        have hn : n = if busy then due + 1 - 8 else due + 1 := by rw [hdue]
        rw [hn, hn']
        cases busy
        · exact Nat.sub_self _
        · show due + 1 - (due + 1 - 8) = min (due + 1) 8
          omega
      · rw [hchan, hdue]
    · have hexec : exec (.fmemZqLatch ch) s = execFmemZqLatch ch s := rfl
      rw [hexec, execFmemZqLatch, if_pos hact]
    · have hexec : exec (.refreshManagementRequest ch) s = execRefreshManagementRequest ch s := rfl
      rw [hexec, execRefreshManagementRequest, if_pos hact]
  · have hexec : exec (.fmemRefresh ch bank busy) s = execFmemRefresh ch bank busy s := rfl
    rw [hexec, execFmemRefresh, if_pos htrain]
    refine ⟨_, rfl, ?_, ?_, rfl⟩ <;> rw [State.chan_setChan_self]
  · have hexec : exec (.fmemRefresh ch bank busy) s = execFmemRefresh ch bank busy s := rfl
    rw [hexec, execFmemRefresh, if_neg hne, hact]
    rfl
  · have hz : exec (.fmemZqLatch ch) s = execFmemZqLatch ch s := rfl
    have hm : exec (.refreshManagementRequest ch) s = execRefreshManagementRequest ch s := rfl
    rw [hz, hm, execFmemZqLatch, execRefreshManagementRequest, hact]
    exact ⟨rfl, rfl⟩

end Sys2Proof.Machine
end

section
/-! SUPPORT. Writes, clears and overflows of event counters (R472, R474, R477, R479). -/

namespace Sys2Proof.Machine

open Sys2Proof

/-! ### The addresses of event counters -/

/-- The blocks' counters lie apart. -/
theorem evcBase_add_inj {b c x y : Nat} (hb : b < 62) (hc : c < 62) (hx : x < 0x1000) (hy : y < 0x1000)
    (h : Reg.evcBase b + x = Reg.evcBase c + y) : b = c ∧ x = y := by
  unfold Reg.evcBase coreBase dieBase edgeBase at h
  split at h
  · split at h
    · omega
    · split at h <;> omega
  · split at h
    · split at h
      · omega
      · split at h <;> omega
    · split at h
      · omega
      · split at h <;> omega

/-- The words of two counters of any blocks lie apart. -/
theorem not_mem_counterWords {b c i j a : Nat} (hb : b < 62) (hc : c < 62) (hi : i < 32) (hj : j < 32)
    (hne : ¬(b = c ∧ i = j)) (ha : a ∈ Reg.counterWords b i) : a ∉ Reg.counterWords c j := by
  simp only [Reg.counterWords, Set.mem_Ico] at ha ⊢
  rintro ⟨hlo, hhi⟩
  obtain ⟨hbc, hoff⟩ := evcBase_add_inj (x := a - Reg.evcBase b) (y := a - Reg.evcBase c) hb hc (by omega) (by omega)
    (by omega)
  subst hbc
  exact hne ⟨rfl, by omega⟩

/-! ### Clearing the counters of a block -/

/-- The part of one counter in `CLEAR`. -/
def State.clearOne (s : State) (b i : Nat) : State := (s.setEvcCount b i 0).setRegF (Reg.EVC_SEL b i) 30 30 0

/-- The parts of the first n counters. -/
def State.clearFirst (s : State) (b n : Nat) : State := (List.range n).foldl (fun s i => s.clearOne b i) s

section
variable (s : State) (b : Nat)

theorem onlyRegs_clearOne (i : Nat) : OnlyRegs s (s.clearOne b i) :=
  (onlyRegs_setReg48 s _ _ _).trans (onlyRegs_setReg _ _ _)

theorem onlyRegs_clearFirst (n : Nat) : OnlyRegs s (s.clearFirst b n) :=
  OnlyRegs.foldl (fun s i => onlyRegs_clearOne s b i) _ s

theorem State.clearFirst_succ (n : Nat) : s.clearFirst b (n + 1) = (s.clearFirst b n).clearOne b n := by
  rw [State.clearFirst, List.range_succ, List.foldl_append]
  rfl

theorem EVC_CNT_LO_ne_SEL (i : Nat) : Reg.EVC_SEL b i ≠ Reg.EVC_CNT_LO b i ∧ Reg.EVC_SEL b i ≠ Reg.EVC_CNT_HI b i := by
  unfold Reg.EVC_SEL Reg.EVC_CNT_LO Reg.EVC_CNT_HI
  omega

theorem evcCount_setRegF_sel (i hi lo v : Nat) : (s.setRegF (Reg.EVC_SEL b i) hi lo v).evcCount b i = s.evcCount b i := by
  obtain ⟨hlo, hhi⟩ := EVC_CNT_LO_ne_SEL b i
  rw [State.evcCount, State.evcCount, State.reg48, State.reg_setRegF_ne _ _ _ _ _ _ hlo.symm,
    State.reg_setRegF_ne _ _ _ _ _ _ hhi.symm, State.reg48]

theorem evcCount_clearOne (i : Nat) : (s.clearOne b i).evcCount b i = 0 := by
  rw [State.clearOne, evcCount_setRegF_sel, State.evcCount_setEvcCount _ _ _ (by decide)]

/-- The select of a cleared counter: bit 30 is clear, and the others are as before. -/
theorem sel_clearOne (i : Nat) {j : Nat} (hj : j < 32) : ((s.clearOne b i).reg (Reg.EVC_SEL b i)).getLsbD j =
    if j = 30 then false else (s.reg (Reg.EVC_SEL b i)).getLsbD j := by
  obtain ⟨hlo, hhi⟩ := EVC_CNT_LO_ne_SEL b i
  have hsel : (s.setEvcCount b i 0).reg (Reg.EVC_SEL b i) = s.reg (Reg.EVC_SEL b i) := State.reg_setReg48_ne s 0 hlo hhi
  rw [State.clearOne, State.setRegF, State.reg_setReg_self, hsel, BitVec.getLsbD_ofNat, decide_eq_true hj, Bool.true_and,
    testBit_setFld (Nat.le_refl 30)]
  by_cases h : j = 30
  · rw [if_pos h, if_pos (by omega), Nat.zero_testBit]
  · rw [if_neg h, if_neg (by omega)]
    rfl

variable {s b}

theorem reg_clearOne_of_not_mem {i a : Nat} (ha : a ∉ Reg.counterWords b i) : (s.clearOne b i).reg a = s.reg a := by
  have hne {c : Nat} (hc : c ∈ Reg.counterWords b i) : a ≠ c := fun h => ha (h ▸ hc)
  rw [State.clearOne, State.reg_setRegF_ne _ _ _ _ _ _ (hne (Reg.EVC_SEL_mem_counterWords b i)), State.setEvcCount,
    State.reg_setReg48_ne _ _ (hne (Reg.EVC_CNT_LO_mem_counterWords b i)) (hne (Reg.EVC_CNT_HI_mem_counterWords b i))]

/-- The part of a counter depends on its own words alone. -/
theorem clearOne_congr {t : State} {i : Nat} (h : Set.EqOn t.reg s.reg (Reg.counterWords b i)) :
    Set.EqOn (t.clearOne b i).reg (s.clearOne b i).reg (Reg.counterWords b i) := by
  have hcnt : Set.EqOn (t.setEvcCount b i 0).reg (s.setEvcCount b i 0).reg (Reg.counterWords b i) :=
    State.eqOn_setReg48 h _ _ _
  intro a ha
  simp only [State.clearOne, State.setRegF, State.reg_setReg, hcnt ha, hcnt (Reg.EVC_SEL_mem_counterWords b i)]

/-- Each counter comes out as if it alone were cleared. -/
theorem eqOn_clearFirst {n i : Nat} : Set.EqOn (s.clearFirst b n).reg
    (if i < n then s.clearOne b i else s).reg (Reg.counterWords b i) := by
  induction n with
  | zero => exact Set.eqOn_refl _ _
  | succ n ih =>
    rw [State.clearFirst_succ]
    by_cases hi : i = n
    · subst hi
      rw [if_neg (Nat.lt_irrefl i)] at ih
      rw [if_pos (Nat.lt_succ_self i)]
      exact clearOne_congr ih
    · have hlt : i < n + 1 ↔ i < n := by omega
      simp only [hlt]
      exact fun a ha => (reg_clearOne_of_not_mem (Reg.not_mem_counterWords_of_ne hi ha)).trans (ih ha)

end

/-! ### What counting packets to the host leaves of a counter that counts something else -/

/-- State t comes from s by counts of source 0x343: a counter that is set stays so, and one of another source keeps
its count. -/
structure CountsPackets (b i : Nat) (s t : State) : Prop where
  ovf : bit (s.reg (Reg.EVC_SEL b i)).toNat 30 = true → bit (t.reg (Reg.EVC_SEL b i)).toNat 30 = true
  src : t.regF (Reg.EVC_SEL b i) 9 0 = s.regF (Reg.EVC_SEL b i) 9 0
  count : s.regF (Reg.EVC_SEL b i) 9 0 ≠ 0x343 → t.evcCount b i = s.evcCount b i

namespace CountsPackets

variable {b i : Nat}

theorem refl (s : State) : CountsPackets b i s s := ⟨id, rfl, fun _ => rfl⟩

theorem trans {s t u : State} (h : CountsPackets b i s t) (g : CountsPackets b i t u) : CountsPackets b i s u :=
  ⟨fun ho => g.ovf (h.ovf ho), g.src.trans h.src,
    fun hs => (g.count (by rw [h.src]; exact hs)).trans (h.count hs)⟩

theorem foldl {α : Type} {f : State → α → State} {l : List α} (h : ∀ s, ∀ a ∈ l, CountsPackets b i s (f s a)) (s : State) :
    CountsPackets b i s (l.foldl f s) := by
  induction l generalizing s with
  | nil => exact refl s
  | cons a l ih =>
    exact (h s a List.mem_cons_self).trans (ih (fun s c hc => h s c (List.mem_cons_of_mem _ hc)) (f s a))

theorem of_words {s t : State} (h : Set.EqOn t.reg s.reg (Reg.counterWords b i)) : CountsPackets b i s t :=
  ⟨fun ho => by rw [h (Reg.EVC_SEL_mem_counterWords b i)]; exact ho,
    State.regF_congr h (Reg.EVC_SEL_mem_counterWords b i) 9 0, fun _ => State.evcCount_congr h⟩

end CountsPackets

/-- The source that a counter counts is that of its select. -/
theorem src_of_evcCounts {s : State} {b i src inst : Nat} (h : s.evcCounts b i src inst = true) :
    s.regF (Reg.EVC_SEL b i) 9 0 = src := by
  unfold State.evcCounts at h
  split at h
  · cases h
  · rename_i w hw
    have hreg : s.reg (Reg.EVC_SEL b i) = w := by
      rw [State.reg, SMap.get, hw]
      rfl
    simp only [Bool.and_eq_true, decide_eq_true_eq] at h
    rw [State.regF, hreg]
    exact h.1.2

/-- An increment changes the words of its own counter alone. -/
theorem reg_evcAdd_of_not_mem {s : State} {b i n a : Nat} (ha : a ∉ Reg.counterWords b i) :
    (s.evcAdd b i n).reg a = s.reg a := by
  have hne {c : Nat} (hc : c ∈ Reg.counterWords b i) : a ≠ c := fun h => ha (h ▸ hc)
  have hcount (v : Nat) : (s.setEvcCount b i v).reg a = s.reg a :=
    State.reg_setReg48_ne _ _ (hne (Reg.EVC_CNT_LO_mem_counterWords b i)) (hne (Reg.EVC_CNT_HI_mem_counterWords b i))
  unfold State.evcAdd
  extract_lets c t sel u
  have hu : u.reg a = s.reg a :=
    (State.reg_setRegF_ne t _ _ _ _ a (hne (Reg.EVC_SEL_mem_counterWords b i))).trans (hcount _)
  split
  · exact hcount _
  · split
    · rw [State.reg_queueNamed, hu]
    · exact hu

/-- The select of a counter after an increment: as before, or with `OVF` set. -/
theorem sel_evcAdd (s : State) (b i n : Nat) : (s.evcAdd b i n).reg (Reg.EVC_SEL b i) = if s.evcCount b i + n < 2 ^ 48
    then s.reg (Reg.EVC_SEL b i) else BitVec.ofNat 32 (setFld (s.reg (Reg.EVC_SEL b i)).toNat 30 30 1) := by
  obtain ⟨hlo, hhi⟩ := EVC_CNT_LO_ne_SEL b i
  unfold State.evcAdd
  extract_lets c t sel u
  have ht : t.reg (Reg.EVC_SEL b i) = s.reg (Reg.EVC_SEL b i) := State.reg_setReg48_ne s _ hlo hhi
  have hu : u.reg (Reg.EVC_SEL b i) = BitVec.ofNat 32 (setFld (s.reg (Reg.EVC_SEL b i)).toNat 30 30 1) := by
    rw [← ht]
    exact State.reg_setReg_self t _ _
  split
  · exact ht
  · split
    · rw [State.reg_queueNamed, hu]
    · exact hu

/-- An increment that wraps. -/
theorem evcCount_evcAdd_wraps (s : State) (b i n : Nat) (h : ¬s.evcCount b i + n < 2 ^ 48) :
    (s.evcAdd b i n).evcCount b i = (s.evcCount b i + n) % 2 ^ 48 := by
  unfold State.evcAdd
  extract_lets c t sel u
  have hu : u.evcCount b i = (s.evcCount b i + n) % 2 ^ 48 :=
    (evcCount_setRegF_sel t b i _ _ _).trans (State.evcCount_setEvcCount s b i (by omega))
  rw [if_neg h]
  split
  · rw [State.evcCount, State.reg48, State.reg_queueNamed, State.reg_queueNamed]
    exact hu
  · exact hu

theorem bit_setFld_30 (w : Word) (i : Nat) (hi : i < 32) :
    bit (BitVec.ofNat 32 (setFld w.toNat 30 30 1)).toNat i = (decide (i = 30) || bit w.toNat i) := by
  rw [bit, BitVec.toNat_ofNat, Nat.testBit_mod_two_pow, decide_eq_true hi, Bool.true_and, testBit_setFld (Nat.le_refl 30)]
  by_cases h : i = 30
  · subst h
    rfl
  · rw [if_neg (by omega), decide_eq_false h, Bool.false_or]
    rfl

namespace CountsPackets

variable {b i : Nat} (hb : b < 62) (hi : i < 32)
include hb hi

theorem evcAdd {s : State} {c j inst : Nat} (hc : c < 62) (hj : j < 32) (hcounts : s.evcCounts c j 0x343 inst = true)
    (n : Nat) : CountsPackets b i s (s.evcAdd c j n) := by
  by_cases hsame : b = c ∧ i = j
  · obtain ⟨rfl, rfl⟩ := hsame
    have hsrc := src_of_evcCounts hcounts
    refine ⟨fun ho => ?_, ?_, fun h => absurd hsrc h⟩
    · rw [sel_evcAdd]
      split
      · exact ho
      · rw [bit_setFld_30 _ _ (by decide)]
        rfl
    · rw [State.regF, sel_evcAdd]
      split
      · rfl
      · rw [fld_toNat_ofNat (by decide), fld_setFld_ne (Nat.le_refl 30) (by decide), State.regF]
  · exact of_words fun a ha => reg_evcAdd_of_not_mem (not_mem_counterWords hb hc hi hj hsame ha)

theorem countQ (s : State) {c : Nat} (hc : c < 62) (inst n : Nat) : CountsPackets b i s (s.countQ c 0x343 inst n) := by
  unfold State.countQ
  split
  · exact refl s
  · refine foldl (fun s j hj => ?_) s
    have hsize := evcSize_le c
    have hlt := List.mem_range.mp hj
    split
    · rename_i hcounts
      exact evcAdd hb hi hc (by omega) hcounts n
    · exact refl s

theorem pumpOne (s : State) {l : Nat} (hlo : 16 ≤ l) (hhi : l < 18) : CountsPackets b i s (s.pumpOne l) := by
  unfold State.pumpOne
  extract_lets +onlyGivenNames k st lets r k' k''
  split
  · exact refl s
  · rw [State.countSent, if_neg (Nat.not_lt.mpr hlo)]
    exact trans (of_words fun a _ => State.reg_setLink s l _ a) (countQ hb hi _ (by omega) _ _)

theorem pumpLanes (n : Nat) {l : Nat} (s : State) (hlo : 16 ≤ l) (hhi : l < 18) :
    CountsPackets b i s (State.pumpLanes n l s) := by
  induction n generalizing l s with
  | zero => exact refl s
  | succ n ih =>
    unfold State.pumpLanes
    extract_lets t
    split
    · exact pumpOne hb hi s hlo hhi
    · exact trans (pumpOne hb hi s hlo hhi) (ih t (by omega) (by omega))

theorem pump (s : State) {l : Nat} (hlo : 16 ≤ l) (hhi : l < 18) : CountsPackets b i s (s.pump l) := by
  unfold State.pump
  rw [if_neg (Nat.not_lt.mpr hlo)]
  exact pumpLanes hb hi _ s hlo hhi

end CountsPackets

/-- An increment that wraps sets `OVF`; the event that it sends leaves the count of another source alone. -/
theorem evcOver_spec (s : State) {b i : Nat} (hb : b < 62) (hi : i < 32) {n : Nat}
    (hwraps : ¬s.evcCount b i + n < 2 ^ 48) :
    bit ((s.evcOver b i n).reg (Reg.EVC_SEL b i)).toNat 30 = true ∧
      (s.regF (Reg.EVC_SEL b i) 9 0 ≠ 0x343 →
        (s.evcOver b i n).evcCount b i = (s.evcCount b i + n) % 2 ^ 48) := by
  unfold State.evcOver
  extract_lets t
  have hdraw : s.draw.2.evcCount b i = s.evcCount b i := rfl
  have hsel : t.reg (Reg.EVC_SEL b i) = BitVec.ofNat 32 (setFld (s.reg (Reg.EVC_SEL b i)).toNat 30 30 1) := by
    unfold t
    rw [sel_evcAdd, hdraw, if_neg hwraps, State.reg_draw]
  have hcount : t.evcCount b i = (s.evcCount b i + n) % 2 ^ 48 := by
    unfold t
    rw [evcCount_evcAdd_wraps _ _ _ _ (by rwa [hdraw]), hdraw]
  have hovf : bit (t.reg (Reg.EVC_SEL b i)).toNat 30 = true := by
    rw [hsel, bit_setFld_30 _ _ (by decide)]
    rfl
  have hsrc : t.regF (Reg.EVC_SEL b i) 9 0 = s.regF (Reg.EVC_SEL b i) 9 0 := by
    rw [State.regF, hsel, fld_toNat_ofNat (by decide), fld_setFld_ne (Nat.le_refl 30) (by decide), State.regF]
  split
  · exact ⟨hovf, fun _ => hcount⟩
  · have hlane := t.hostLane_le 0 (by decide)
    have hp : CountsPackets b i t (t.pump (16 + t.hostLane 0)) := .pump hb hi t (by omega) (by omega)
    exact ⟨hp.ovf hovf, fun h => (hp.count (by rw [hsrc]; exact h)).trans hcount⟩

theorem evcOver_mem (s : State) (b i n : Nat) : (s.evcOver b i n).mem = s.mem := by
  have ht : Reports s.draw.2 (s.draw.2.evcAdd b i n) := evcAdd_reports _ _ _ _
  unfold State.evcOver
  extract_lets t
  split
  · exact ht.mem
  · exact (pump_reports t _).mem.trans ht.mem

/-- Settles O55: writes, clears, broadcasts and overflows of event counters. -/
theorem countersAreWrittenAndCleared : Obligations.CountersAreWrittenAndCleared := by
  unfold Obligations.CountersAreWrittenAndCleared
  intro b s
  refine ⟨fun i v hi => ?_, ⟨s.evcClear b, rfl, onlyRegs_clearFirst s b _, fun i hi => ⟨?_, fun j hj => ?_⟩⟩, rfl, rfl,
    fun m hm => ⟨fun hpath hclk => ?_, fun hstop => ?_⟩,
    fun i src inst n most hsrc hinst hsource hi hlegal hcounts hn hlt hmost => ?_⟩
  · refine ⟨s.evcWriteHi b i v, congrArg _ (if_pos hi), rfl, fun w u hu => ⟨u.evcWriteLo b i w, congrArg _ (if_pos hi), ?_,
      fun a hlo hhi => State.reg_setReg48_ne _ _ hlo hhi, rfl⟩⟩
    have hstage : SMap.get (fun _ => 0) u.evcStage (Reg.EVC_CNT_HI b i) = v := hu.trans (SMap.get_set_self _ _ _ v)
    have hw := w.isLt
    rw [State.evcWriteLo, hstage, State.evcCount_setEvcCount _ _ _ (by omega)]
  · have h := State.evcCount_congr (eqOn_clearFirst (s := s) (b := b) (n := evcSize b) (i := i))
    rw [if_pos hi] at h
    exact h.trans (evcCount_clearOne s b i)
  · have h := eqOn_clearFirst (s := s) (b := b) (n := evcSize b) (i := i) (Reg.EVC_SEL_mem_counterWords b i)
    rw [if_pos hi] at h
    exact (congrArg (BitVec.getLsbD · j) h).trans (sel_clearOne s b i hj)
  · have hexec : exec (.evcBroadcastArrive b) s = execEvcBroadcastArrive b s := rfl
    rw [hexec, execEvcBroadcastArrive, hm]
    dsimp only
    rw [hpath, hclk]
    rfl
  · have hexec : exec (.evcBroadcastArrive b) s = execEvcBroadcastArrive b s := rfl
    rw [hexec, execEvcBroadcastArrive, hm]
    dsimp only
    rw [if_neg]
    rw [Bool.and_eq_true]
    rintro ⟨hpath, hclk⟩
    rcases hstop with h | h
    · exact Bool.false_ne_true (h.symm.trans hpath)
    · exact Bool.false_ne_true (h.symm.trans hclk)
  · subst hsrc hinst
    have hover : exec (.evcOvf b i) s = .next (s.evcOver b i (2 ^ 48 - s.evcCount b i +
        s.draw.1.toNat % (most - (2 ^ 48 - s.evcCount b i) + 1))) := by
      have hexec : exec (.evcOvf b i) s = execEvcOvf b i s := rfl
      rw [hexec, execEvcOvf, hsource]
      dsimp only
      rw [if_pos]
      simp only [hlegal, hcounts, hi, hn, decide_true, Bool.true_and, decide_eq_true_eq]
      omega
    have hmod := Nat.mod_lt s.draw.1.toNat (Nat.succ_pos (most - (2 ^ 48 - s.evcCount b i)))
    obtain ⟨hovf, hcount⟩ := evcOver_spec s b.isLt i.isLt (n := 2 ^ 48 - s.evcCount b i +
        s.draw.1.toNat % (most - (2 ^ 48 - s.evcCount b i) + 1)) (by omega)
    refine ⟨_, hover, hovf, fun hne => ?_, evcOver_mem _ _ _ _⟩
    rw [hcount hne]
    rw [Nat.succ_eq_add_one] at hmod
    omega

end Sys2Proof.Machine
end

section
/-! SUPPORT. The state after a reset of the module, and what the entry into reset of islands and a lost polder leave
alone (R27, R365, R401, R441, R442, R444). -/

namespace Sys2Proof.Machine

open Sys2Proof

/-! ### Registers that show the fuses -/

/-- The registers that show one-time-programmable memory (R441, R442). -/
def ShowsOtp (a : Nat) : Prop := a = Reg.SEC_STAT ∨ ∃ j, j < 33 ∧ a = Reg.SEC_ID_PUB j

theorem not_showsOtp {a : Nat} (hstat : a ≠ Reg.SEC_STAT) (hpub : ∀ j, j < 33 → a ≠ Reg.SEC_ID_PUB j) : ¬ShowsOtp a := by
  rintro (h | ⟨j, hj, h⟩)
  · exact hstat h
  · exact hpub j hj h

theorem reg_setWords_ne (s : State) (a : Nat) (bytes : List Byte) {b : Nat}
    (h : ∀ j, j < bytes.length / 4 → b ≠ a + 4 * j) : (s.setWords a bytes).reg b = s.reg b :=
  State.reg_foldl _ b _ (fun _ j hj => State.reg_setReg_ne _ _ _ _ (h j (List.mem_range.mp hj))) s

theorem onlyRegs_setWords (s : State) (a : Nat) (bytes : List Byte) : OnlyRegs s (s.setWords a bytes) :=
  OnlyRegs.foldl (fun s _ => onlyRegs_setReg s _ _) _ s

theorem onlyRegs_setRegF (s : State) (a hi lo v : Nat) : OnlyRegs s (s.setRegF a hi lo v) := onlyRegs_setReg s _ _

theorem onlyRegs_showOtp (s : State) : OnlyRegs s s.showOtp := by
  unfold State.showOtp
  extract_lets mask t u v
  have hv : OnlyRegs s v := ((onlyRegs_setRegF s _ _ _ _).trans (onlyRegs_setRegF t _ _ _ _)).trans
    (onlyRegs_setRegF u _ _ _ _)
  split
  · exact hv.trans ((onlyRegs_setRegF v _ _ _ _).trans (onlyRegs_setWords _ _ _))
  · exact hv

theorem length_leBytes (n v : Nat) : (leBytes n v).length = n := by
  induction n generalizing v with
  | zero => rfl
  | succ n ih => rw [leBytes, List.length_cons, ih]

theorem length_beBytes (n v : Nat) : (beBytes n v).length = n := by
  rw [beBytes, List.length_reverse, length_leBytes]

theorem pub_words {n x y : Nat} (h : n < (beBytes 66 x ++ beBytes 66 y).length / 4) : n < 33 := by
  rw [List.length_append, length_beBytes, length_beBytes] at h
  omega

/-- The other registers are as before. -/
theorem reg_showOtp_ne (s : State) {a : Nat} (ha : ¬ShowsOtp a) : s.showOtp.reg a = s.reg a := by
  have hstat : a ≠ Reg.SEC_STAT := fun h => ha (.inl h)
  unfold State.showOtp
  extract_lets mask t u v
  have hv : v.reg a = s.reg a := by
    rw [State.reg_setRegF_ne _ _ _ _ _ _ hstat, State.reg_setRegF_ne _ _ _ _ _ _ hstat,
      State.reg_setRegF_ne _ _ _ _ _ _ hstat]
  split
  · rw [reg_setWords_ne, State.reg_setRegF_ne _ _ _ _ _ _ hstat, hv]
    intro j hj he
    refine ha (.inr ⟨j, pub_words hj, he.trans ?_⟩)
    unfold Reg.SEC_ID_PUB
    omega
  · exact hv

/-- `SEC_STAT` shows the minimum security version and whether there is an identity key. -/
theorem regF_showOtp (s : State) : s.showOtp.regF Reg.SEC_STAT 22 16 = s.otp.svn % 128 ∧
    (s.regF Reg.SEC_STAT 31 31 = 0 → s.showOtp.regF Reg.SEC_STAT 31 31 = s.otp.ident.isSome.toNat) := by
  unfold State.showOtp
  extract_lets mask t u v
  have hne (hi lo hi' lo' v : Nat) (w : State) (h : lo ≤ hi) (hd : hi < lo' ∨ hi' < lo) (hb : hi' < 32) :
      (w.setRegF Reg.SEC_STAT hi lo v).regF Reg.SEC_STAT hi' lo' = w.regF Reg.SEC_STAT hi' lo' :=
    State.regF_setRegF_ne _ _ _ hb h hd
  have hsvn : v.regF Reg.SEC_STAT 22 16 = s.otp.svn % 128 := by
    rw [hne _ _ _ _ _ _ (by decide) (by decide) (by decide), hne _ _ _ _ _ _ (by decide) (by decide) (by decide)]
    exact State.regF_setRegF_self _ _ _ (by decide)
  have hid : v.regF Reg.SEC_STAT 31 31 = s.regF Reg.SEC_STAT 31 31 := by
    rw [hne _ _ _ _ _ _ (by decide) (by decide) (by decide), hne _ _ _ _ _ _ (by decide) (by decide) (by decide),
      hne _ _ _ _ _ _ (by decide) (by decide) (by decide)]
  have hwords (w : State) (x y hi lo : Nat) :
      (w.setWords (Reg.SEC_ID_PUB 0) (beBytes 66 x ++ beBytes 66 y)).regF Reg.SEC_STAT hi lo = w.regF Reg.SEC_STAT hi lo := by
    rw [State.regF, reg_setWords_ne, State.regF]
    intro j hj he
    unfold Reg.SEC_STAT Reg.SEC_ID_PUB at he
    omega
  split
  · rename_i k x y hi
    have hi' : s.otp.ident = some (k, x, y) := hi
    refine ⟨?_, fun _ => ?_⟩
    · rw [hwords, hne _ _ _ _ _ _ (by decide) (by decide) (by decide), hsvn]
    · rw [hwords, State.regF_setRegF_self _ _ _ (by decide), hi']
      rfl
  · rename_i hi
    have hi' : s.otp.ident = none := hi
    exact ⟨hsvn, fun h0 => by rw [hid, h0, hi']; rfl⟩

/-! ### The reset of the module -/

/-- What outlives a reset of the module, with reset values elsewhere. -/
def State.outlives (s : State) : State :=
  { State.reset with
    flash := s.flash, flashPart := s.flashPart, otp := s.otp,
    rails := railOrder.filter fun r => !s.railsOff.contains r, resetHeld := s.resetHeld, thermLatch := s.thermLatch,
    houseRail := s.houseRail, straps := s.straps, tap := s.tap, railsOff := s.railsOff, now := s.now,
    freeCtr := s.freeCtr, pending := s.pending }

theorem cleared_onlyRegs (s : State) : OnlyRegs s.outlives s.cleared := onlyRegs_showOtp s.outlives

theorem reg_outlives (s : State) (a : Nat) : s.outlives.reg a = regReset a := rfl

/-- After a reset every register reads its reset value but those that show the fuses. -/
theorem reg_cleared (s : State) {a : Nat} (ha : ¬ShowsOtp a) : s.cleared.reg a = regReset a :=
  (reg_showOtp_ne s.outlives ha).trans (reg_outlives s a)

theorem regF_cleared (s : State) : s.cleared.regF Reg.SEC_STAT 22 16 = s.otp.svn % 128 ∧
    s.cleared.regF Reg.SEC_STAT 31 31 = s.otp.ident.isSome.toNat := by
  obtain ⟨hsvn, hid⟩ := regF_showOtp s.outlives
  refine ⟨hsvn, hid ?_⟩
  rw [State.regF, reg_outlives]
  decide

/-- The host lanes of a state are untrained. -/
def LanesDown (s : State) : Prop := s.linkState 16 = 0 ∧ s.linkState 17 = 0

theorem linkState_congr {s t : State} {l : Nat} (hl : 16 ≤ l)
    (h : t.reg (Reg.HLK_LANE_STAT (l - 16)) = s.reg (Reg.HLK_LANE_STAT (l - 16))) : t.linkState l = s.linkState l := by
  rw [State.linkState, State.linkState, if_neg (Nat.not_lt.mpr hl), if_neg (Nat.not_lt.mpr hl), State.regF, h, State.regF]

theorem LanesDown.congr {s t : State} (h : LanesDown s) (hreg : ∀ e, e < 2 → t.reg (Reg.HLK_LANE_STAT e) =
    s.reg (Reg.HLK_LANE_STAT e)) : LanesDown t :=
  ⟨(linkState_congr (by decide) (hreg 0 (by decide))).trans h.1, (linkState_congr (by decide) (hreg 1 (by decide))).trans h.2⟩

/-- Nothing goes out on lanes that are untrained. -/
theorem pump_of_down {s : State} (h : LanesDown s) {l : Nat} (hlo : 16 ≤ l) (hhi : l < 18) : s.pump l = s := by
  have hone : s.pumpOne l = s := by
    have hst : s.linkState l = 0 := by
      obtain rfl | rfl : l = 16 ∨ l = 17 := by omega
      · exact h.1
      · exact h.2
    unfold State.pumpOne
    extract_lets +onlyGivenNames k st
    refine if_pos ?_
    rw [decide_eq_true hst, Bool.or_true]
  unfold State.pump
  rw [if_neg (Nat.not_lt.mpr hlo)]
  unfold State.pumpLanes
  simp only [hone, true_or, if_true]

theorem sendEvent_of_down {s : State} (h : LanesDown s) (code : Nat) (p : List Byte) :
    s.sendEvent code p = s.queueEvent code p := by
  have hq : LanesDown (s.queueEvent code p) := h.congr fun e _ => State.reg_queueEvent s code p _
  unfold State.sendEvent
  have hlane := s.hostLane_le 0 (by decide)
  exact pump_of_down hq (by omega) (by omega)

/-- A change of state with untrained lanes is logged, and its event waits. -/
theorem setMode_of_down {s : State} (h : LanesDown s) (m : Nat) : s.setMode m =
    ((s.setRegF Reg.GLB_STATE 2 0 m).addLog (s.setRegF Reg.GLB_STATE 2 0 m).ctlIsl 1 m).queueEvent 1
      (eventPayload ((s.setRegF Reg.GLB_STATE 2 0 m).stamp (s.setRegF Reg.GLB_STATE 2 0 m).ctlIsl)
        [m, (s.setRegF Reg.GLB_STATE 2 0 m).regF Reg.GLB_STATE 7 4]) := by
  have hset : LanesDown (s.setRegF Reg.GLB_STATE 2 0 m) := h.congr fun e he =>
    State.reg_setRegF_ne _ _ _ _ _ _ (by unfold Reg.HLK_LANE_STAT edgeBase Reg.GLB_STATE; omega)
  have hlog : LanesDown ((s.setRegF Reg.GLB_STATE 2 0 m).addLog (s.setRegF Reg.GLB_STATE 2 0 m).ctlIsl 1 m) :=
    hset.congr fun e _ => State.reg_addLog _ _ _ _ _
  unfold State.setMode State.announce State.announceBy
  exact sendEvent_of_down hlog _ _

theorem lanesDown_cleared (s : State) : LanesDown s.cleared := by
  have hlane (e : Nat) (he : e < 2) : s.cleared.linkState (16 + e) = 0 := by
    have hreg : s.cleared.reg (Reg.HLK_LANE_STAT e) = regReset (Reg.HLK_LANE_STAT e) := by
      refine reg_cleared s (not_showsOtp ?_ fun j _ => ?_)
      · unfold Reg.HLK_LANE_STAT edgeBase Reg.SEC_STAT
        omega
      · unfold Reg.HLK_LANE_STAT edgeBase Reg.SEC_ID_PUB
        omega
    rw [State.linkState, if_neg (by omega), Nat.add_sub_cancel_left, State.regF, hreg]
    interval_cases e <;> decide
  exact ⟨hlane 0 (by decide), hlane 1 (by decide)⟩

theorem log_queueEvent (s : State) (code : Nat) (p : List Byte) : (s.queueEvent code p).log = s.log := by
  unfold State.queueEvent
  split <;> rfl

/-- The state of `BOOTING` after a reset (R360, R365). -/
theorem setMode_cleared (s : State) {t : State} (ht : LanesDown t) (hregs : t.regs = s.cleared.regs) (hlog : t.log = []) :
    (t.setMode 0).mode = 0 ∧ (∀ a, ¬ShowsOtp a → (t.setMode 0).reg a = regReset a) ∧
      (t.setMode 0).regF Reg.SEC_STAT 22 16 = s.otp.svn % 128 ∧
      (t.setMode 0).regF Reg.SEC_STAT 31 31 = s.otp.ident.isSome.toNat ∧
      (t.setMode 0).log.map LogEvent.name = [1] := by
  have hreg (a : Nat) : (t.setMode 0).reg a = (t.setRegF Reg.GLB_STATE 2 0 0).reg a := by
    rw [setMode_of_down ht, State.reg_queueEvent, State.reg_addLog]
  have hsame (a : Nat) : t.reg a = s.cleared.reg a := by rw [State.reg, hregs, State.reg]
  have hstate : (t.setMode 0).reg Reg.GLB_STATE = regReset Reg.GLB_STATE := by
    have hc : s.cleared.reg Reg.GLB_STATE = regReset Reg.GLB_STATE :=
      reg_cleared s (not_showsOtp (by decide) fun j hj => by unfold Reg.GLB_STATE Reg.SEC_ID_PUB; omega)
    rw [hreg, State.setRegF, State.reg_setReg_self, hsame, hc]
    decide
  have hsec (hi lo : Nat) : (t.setMode 0).regF Reg.SEC_STAT hi lo = s.cleared.regF Reg.SEC_STAT hi lo := by
    rw [State.regF, hreg, State.reg_setRegF_ne _ _ _ _ _ _ (by decide), hsame, State.regF]
  obtain ⟨hsvn, hid⟩ := regF_cleared s
  refine ⟨?_, fun a ha => ?_, (hsec _ _).trans hsvn, (hsec _ _).trans hid, ?_⟩
  · rw [State.mode, State.regF, hstate]
    decide
  · by_cases h : a = Reg.GLB_STATE
    · rw [h]
      exact hstate
    · rw [hreg, State.reg_setRegF_ne _ _ _ _ _ _ h, hsame]
      exact reg_cleared s ha
  · rw [setMode_of_down ht, log_queueEvent, State.addLog, State.addLogBy]
    show (t.log ++ _).map LogEvent.name = [1]
    rw [hlog]
    rfl

end Sys2Proof.Machine
end

section
/-! SUPPORT. What the entry into reset of an island leaves alone, and that a lost polder takes no island out of reset
(R27, R401). -/

namespace Sys2Proof.Machine

open Sys2Proof

/-! ### The entry into reset -/

/-- State t comes from s by what the entry into reset of islands cuts. -/
def Cuts (s t : State) : Prop :=
  t = { s with
    regs := t.regs, cores := t.cores, dies := t.dies, bridges := t.bridges, engines := t.engines, links := t.links,
    xfer := t.xfer, ctl := t.ctl, evcMsgs := t.evcMsgs, evcStage := t.evcStage, freeCtr := t.freeCtr }

namespace Cuts

theorem refl (s : State) : Cuts s s := rfl

theorem trans {s t u : State} (h : Cuts s t) (g : Cuts t u) : Cuts s u := by
  unfold Cuts at *
  rw [g, h]

theorem foldl {α : Type} {f : State → α → State} (h : ∀ s a, Cuts s (f s a)) (l : List α) (s : State) :
    Cuts s (l.foldl f s) := by
  induction l generalizing s with
  | nil => exact refl s
  | cons a l ih => exact (h s a).trans (ih (f s a))

section
variable {s t : State} (h : Cuts s t)
include h

theorem island (i : Nat) : t.island i = s.island i := by unfold State.island; rw [h]
theorem railsOff : t.railsOff = s.railsOff := by rw [h]
theorem lostPolders : t.lostPolders = s.lostPolders := by rw [h]

end

section
variable (s : State)

theorem setReg (a : Nat) (v : Word) : Cuts s (s.setReg a v) := rfl
theorem setCore (c : Nat) (v : CoreSt) : Cuts s (s.setCore c v) := rfl
theorem setDie (d : Nat) (v : DieSt) : Cuts s (s.setDie d v) := rfl
theorem setBridge (b : Nat) (v : BridgeSt) : Cuts s (s.setBridge b v) := rfl
theorem setEngine (e : Nat) (v : EngineSt) : Cuts s (s.setEngine e v) := rfl
theorem setLink (l : Nat) (v : LinkSt) : Cuts s (s.setLink l v) := rfl
theorem draw : Cuts s s.draw.2 := rfl
theorem msgs (c : Ctl) (l : List EvcMsg) : Cuts s { s with ctl := c, evcMsgs := l } := rfl
theorem xfer (l : List HeldPkt) : Cuts s { s with xfer := l } := rfl
theorem evcStage (m : SMap Word) : Cuts s { s with evcStage := m } := rfl

theorem dropWords (i n : Nat) : Cuts s (s.dropWords i n) := by
  unfold State.dropWords
  repeat' split
  all_goals exact setReg s _ _

theorem dropMsgs (i : Nat) : Cuts s (s.dropMsgs i) := (msgs s _ _).trans (dropWords _ _ _)

theorem resetCore (c : Nat) : Cuts s (s.resetCore c) := (dropWords s _ _).trans (setCore _ _ _)

theorem noteTherm : Cuts s s.noteTherm := setReg s _ _

theorem cutCore (c : Nat) : Cuts s (s.cutCore c) := (dropWords s _ _).trans (setCore _ _ _)

theorem cutBridges (d : Nat) : Cuts s (s.cutBridges d) := foldl (fun s k => setBridge s k _) _ s

theorem resetEdge (e : Nat) : Cuts s (s.resetEdge e) := by
  unfold State.resetEdge
  extract_lets ls t u
  have ht : Cuts s t := by
    unfold t
    split
    · exact (draw s).trans (dropWords _ _ _)
    · exact refl s
  have hu : Cuts t u := foldl (fun s h => setEngine s h _) _ t
  exact (ht.trans hu).trans ((xfer u _).trans (foldl (fun s l => setLink s l _) _ _))

theorem resetEvc (b : Nat) : Cuts s (s.resetEvc b) := by
  unfold State.resetEvc
  extract_lets addrs t
  exact (foldl (fun s a => setReg s a _) addrs s).trans (evcStage t _)

end

end Cuts

/-- What an island's entry into reset cuts comes before its islands stop. -/
theorem enterReset_split (s : State) (i : Nat) : ∃ (u : State) (is : List Nat), Cuts s u ∧
    s.enterReset i false = is.foldl (fun s j => (s.noteReset j).setIsland j Island.reset) u := by
  unfold State.enterReset
  extract_lets +onlyGivenNames t d v w x y u
  have hx : Cuts t x := by
    unfold x
    split
    · exact (Cuts.resetCore t i).trans (Cuts.noteTherm _)
    split
    · exact ((Cuts.foldl (fun s c => Cuts.cutCore s _) _ t).trans (Cuts.setDie v _ _)).trans (Cuts.cutBridges _ _)
    split
    · exact (Cuts.resetEdge t _).trans (Cuts.cutBridges _ _)
    · exact Cuts.refl t
  have hy : Cuts x y := by
    unfold y
    split
    · exact Cuts.foldl (fun s a => Cuts.setReg s a _) _ x
    · exact Cuts.refl x
  have hu : Cuts y u := by
    unfold u
    rw [if_neg Bool.false_ne_true]
    split
    · exact Cuts.resetEvc y i
    · exact Cuts.refl y
  exact ⟨u, _, (((Cuts.dropMsgs s i).trans hx).trans hy).trans hu, rfl⟩

/-- State t differs from s in its islands alone. -/
def OnlyIslands (s t : State) : Prop := t = { s with islands := t.islands }

namespace OnlyIslands

theorem refl (s : State) : OnlyIslands s s := rfl

theorem trans {s t u : State} (h : OnlyIslands s t) (g : OnlyIslands t u) : OnlyIslands s u := by
  unfold OnlyIslands at *
  rw [g, h]

theorem foldl {α : Type} {f : State → α → State} (h : ∀ s a, OnlyIslands s (f s a)) (l : List α) (s : State) :
    OnlyIslands s (l.foldl f s) := by
  induction l generalizing s with
  | nil => exact refl s
  | cons a l ih => exact (h s a).trans (ih (f s a))

theorem setIsland (s : State) (i : Nat) (v : Island) : OnlyIslands s (s.setIsland i v) := rfl

theorem noteReset (s : State) (i : Nat) : OnlyIslands s (s.noteReset i) := foldl (fun s j => by
  extract_lets x
  split
  · exact setIsland s _ _
  · exact refl s) _ s

theorem railsOff {s t : State} (h : OnlyIslands s t) : t.railsOff = s.railsOff := by rw [h]
theorem lostPolders {s t : State} (h : OnlyIslands s t) : t.lostPolders = s.lostPolders := by rw [h]

end OnlyIslands

/-- The islands of a list enter reset, and every island that was there stays in reset. -/
theorem enterResets_spec (is : List Nat) (s : State) :
    (is.foldl (fun s i => s.enterReset i false) s).railsOff = s.railsOff ∧
    (is.foldl (fun s i => s.enterReset i false) s).lostPolders = s.lostPolders ∧
    ∀ i, s.island i = Island.reset ∨ i ∈ is → (is.foldl (fun s i => s.enterReset i false) s).island i = Island.reset := by
  induction is generalizing s with
  | nil => exact ⟨rfl, rfl, fun i h => h.resolve_right List.not_mem_nil⟩
  | cons j is ih =>
    obtain ⟨u, js, hu, he⟩ := enterReset_split s j
    have hrest : OnlyIslands u (s.enterReset j false) := by
      rw [he]
      exact OnlyIslands.foldl (fun s k => (OnlyIslands.noteReset s k).trans (OnlyIslands.setIsland _ _ _)) js u
    obtain ⟨hrails, hpolders, hislands⟩ := ih (s.enterReset j false)
    refine ⟨hrails.trans (hrest.railsOff.trans hu.railsOff), hpolders.trans (hrest.lostPolders.trans hu.lostPolders),
      fun i hi => hislands i ?_⟩
    by_cases hj : i = j
    · exact .inl (hj ▸ s.island_enterReset j false)
    · refine hi.imp (fun hr => ?_) fun hm => (List.mem_cons.mp hm).resolve_left hj
      rw [he]
      exact State.island_foldl_reset u (.inl ((hu.island i).trans hr))

/-! ### A lost polder -/

/-- No island leaves reset or enters it, and no polder is lost. -/
structure Stays (s t : State) : Prop where
  inReset : ∀ i, (t.island i).inReset = (s.island i).inReset
  lostPolders : t.lostPolders = s.lostPolders

namespace Stays

theorem refl (s : State) : Stays s s := ⟨fun _ => rfl, rfl⟩

theorem trans {s t u : State} (h : Stays s t) (g : Stays t u) : Stays s u :=
  ⟨fun i => (g.inReset i).trans (h.inReset i), g.lostPolders.trans h.lostPolders⟩

theorem foldl {α : Type} {f : State → α → State} (h : ∀ s a, Stays s (f s a)) (l : List α) (s : State) :
    Stays s (l.foldl f s) := by
  induction l generalizing s with
  | nil => exact refl s
  | cons a l ih => exact (h s a).trans (ih (f s a))

theorem of_sends {s t : State} (h : Sends s t) : Stays s t := ⟨h.inReset, by rw [h.reports]⟩

section
variable (s : State)

theorem setCtl (c : Ctl) : Stays s { s with ctl := c } := ⟨fun _ => rfl, rfl⟩
theorem breaches (l : List Breach) : Stays s { s with breaches := l } := ⟨fun _ => rfl, rfl⟩
theorem breachQ (l : List Breach) : Stays s { s with breachQ := l } := ⟨fun _ => rfl, rfl⟩
theorem fatal (b : Option Breach) : Stays s { s with fatal := b } := ⟨fun _ => rfl, rfl⟩
theorem standby (b : Bool) : Stays s { s with standby := b } := ⟨fun _ => rfl, rfl⟩
theorem runs (l : List Staged) (k : List NormRun) : Stays s { s with staged := l, norms := k } := ⟨fun _ => rfl, rfl⟩
theorem draw : Stays s s.draw.2 := ⟨fun _ => rfl, rfl⟩
theorem setEngine (e : Nat) (v : EngineSt) : Stays s (s.setEngine e v) := ⟨fun _ => rfl, rfl⟩
theorem setWindow (w : Nat) (v : Option Window) : Stays s (s.setWindow w v) := ⟨fun _ => rfl, rfl⟩
theorem setHostQ (q : Nat) (v : HostQ) : Stays s (s.setHostQ q v) := ⟨fun _ => rfl, rfl⟩

theorem breach (i : Nat) (b : BreachInfo) : Stays s (s.breach i b) := by
  unfold State.breach
  extract_lets +onlyGivenNames r t u v w w' x
  have hu : Stays s u := (of_sends (sends_bumpSeq s i)).trans (breaches t _)
  have hw : Stays u w := of_sends ((sends_inc u _ _).trans (((sends_inc _ _ _).trans
    (sends_count v 60 0x344 0 1)).trans (sends_count _ 61 0x344 0 1)))
  have hx : Stays w x := by
    unfold x
    split
    · exact (breachQ w _).trans (of_sends (sends_setRegF w' _ _ _ _))
    · exact refl w
  exact ((hu.trans hw).trans hx).trans (of_sends (sends_sendEvent x 5 r.bytes))

theorem breachOpen (i : Nat) (b : BreachInfo) : Stays s (s.breachOpen i b) := (draw s).trans (breach _ _ _)

theorem answerHost (h : HostCmd) (cmd status args : Nat) (data : List Byte) :
    Stays s (s.answerHost h cmd status args data) := (setHostQ s _ _).trans (of_sends (sends_hostSend _ _ _))

theorem flushBad (q n : Nat) : Stays s (State.flushBad q n s) := by
  induction n generalizing s with
  | zero => exact refl s
  | succ n ih =>
    unfold State.flushBad
    split
    · exact refl s
    split
    · exact refl s
    · exact (answerHost s _ _ _ _ _).trans (ih _)

theorem respond (h : HostCmd) (cmd status args : Nat) (data : List Byte) :
    Stays s (s.respond h cmd status args data) := (answerHost s h cmd status args data).trans (flushBad _ _ _)

theorem answerHolds (status detail : Nat) : Stays s (s.answerHolds status detail) :=
  ((setCtl s { s.ctl with holdWaiters := [] }).trans
    (foldl (fun s h => respond s h cmdHOLD status detail []) s.ctl.holdWaiters _)).trans (of_sends (sends_setRegF _ _ _ _ _))

theorem abandonSteps : Stays s s.abandonSteps := setCtl s _

theorem dropEngines : Stays s s.dropEngines := by
  unfold State.dropEngines
  extract_lets c t u staged norms
  have ht : Stays s t := foldl (fun s e => by
    extract_lets k v
    refine Stays.trans (t := v) ?_ (setEngine v _ _)
    unfold v
    split
    · exact of_sends ((sends_setRegF _ _ _ _ _).trans (sends_setRegF _ _ _ _ _))
    · exact refl s) _ s
  have hu : Stays t u := foldl (fun s h => of_sends (sends_setReg s _ _)) _ t
  exact (ht.trans hu).trans (runs u _ _)

theorem forgetResults (above : Nat) : Stays s (s.forgetResults above) := foldl (fun s w => by
  split
  · exact setWindow s _ _
  · exact refl s) _ s

theorem giveUp : Stays s s.giveUp :=
  (((abandonSteps s).trans (dropEngines _)).trans (forgetResults _ _)).trans (setCtl _ _)

theorem enterHolding (cause : Nat) : Stays s (s.enterHolding cause) :=
  ((setCtl s { s.ctl with feedWait := none, mustRun := s.committed }).trans
    (of_sends ((sends_setRegF _ _ _ _ _).trans (sends_setMode _ _)))).trans (answerHolds _ _ _)

theorem pairLoss (i : Nat) (cause : Option Cause) (polder obj addr : Nat) :
    Stays s (s.pairLoss i cause polder obj addr) := by
  unfold State.pairLoss
  extract_lets t u
  have hu : Stays s u := (breachOpen s i _).trans
    (of_sends ((sends_setRegF t _ _ _ _).trans (sends_announce _ _ _ _ _)))
  split
  · exact (hu.trans (giveUp u)).trans (enterHolding _ _)
  · exact hu

theorem standbyTakes : Stays s s.standbyTakes := (standby s true).trans (abandonSteps _)

end

end Stays

/-- The loss of a polder that is not lost adds it to those that are, and takes no island out of reset (R401). -/
theorem polderLoss_spec (s : State) (i polder obj : Nat) (detail : Option Nat) (hp : s.lostPolders.contains polder = false) :
    (s.polderLoss i polder obj detail).lostPolders = insertSorted s.lostPolders polder ∧
      ∀ j, ((s.polderLoss i polder obj detail).island j).inReset = (s.island j).inReset := by
  unfold State.polderLoss
  rw [if_neg (by rw [hp]; decide)]
  extract_lets takes t i' u b v w
  have ht : Stays s t := by
    unfold t
    split
    · exact Stays.standbyTakes s
    · exact Stays.refl s
  have hu : Stays t u := by
    unfold u
    split
    · exact Stays.pairLoss t _ _ _ _ _
    · exact Stays.refl t
  have hv : Stays u v := by
    unfold v
    split
    · exact Stays.breach u _ _
    · exact Stays.breachOpen u _ _
  have hsv := (ht.trans hu).trans hv
  have hw : w.lostPolders = insertSorted s.lostPolders polder := congrArg (insertSorted · polder) hsv.lostPolders
  have hend (x : State) (hx : Stays w x) : x.lostPolders = insertSorted s.lostPolders polder ∧
      ∀ j, (x.island j).inReset = (s.island j).inReset :=
    ⟨hx.lostPolders.trans hw, fun j => (hx.inReset j).trans (hsv.inReset j)⟩
  split
  · exact hend _ (((Stays.fatal w _).trans (Stays.of_sends (sends_setMode _ 5))).trans (Stays.answerHolds _ _ _))
  · exact hend _ (Stays.refl w)

end Sys2Proof.Machine
end

section
/-! Power input, power good, shutdowns, trips and failed regulators (R441 to R448, R456, R483, R488). -/

namespace Sys2Proof.Machine

open Sys2Proof

theorem bootAnew_spec (s : State) : s.bootAnew.mode = 0 ∧ (∀ a, ¬ShowsOtp a → s.bootAnew.reg a = regReset a) ∧
    s.bootAnew.regF Reg.SEC_STAT 22 16 = s.otp.svn % 128 ∧
    s.bootAnew.regF Reg.SEC_STAT 31 31 = s.otp.ident.isSome.toNat ∧ s.bootAnew.log.map LogEvent.name = [1] :=
  setMode_cleared s (lanesDown_cleared s) rfl (by rw [cleared_onlyRegs s]; rfl)

/-- The parts of a state that power good and a shutdown give their reset values, or keep. -/
theorem cleared_parts (s : State) : s.cleared.power = .good ∧ s.cleared.mem = [] ∧ s.cleared.flash = s.flash ∧
    s.cleared.otp = s.otp ∧ s.cleared.straps = s.straps ∧ s.cleared.pending = s.pending ∧
    s.cleared.thermLatch = s.thermLatch := by
  have h := cleared_onlyRegs s
  refine ⟨?_, ?_, ?_, ?_, ?_, ?_, ?_⟩ <;> rw [h] <;> rfl

theorem bootAnew_parts (s : State) : s.bootAnew.power = .good ∧ s.bootAnew.mem = [] ∧ s.bootAnew.flash = s.flash ∧
    s.bootAnew.otp = s.otp ∧ s.bootAnew.straps = s.straps ∧ s.bootAnew.pending = s.pending := by
  have h : Reports s.cleared s.bootAnew := setMode_reports s.cleared 0
  obtain ⟨hpower, hmem, hflash, hotp, hstraps, hpending, -⟩ := cleared_parts s
  exact ⟨h.power.trans hpower, h.mem.trans hmem, h.flash.trans hflash, h.otp.trans hotp,
    (by rw [h] : s.bootAnew.straps = s.cleared.straps).trans hstraps,
    (by rw [h] : s.bootAnew.pending = s.cleared.pending).trans hpending⟩

/-- The rail is gone and its islands have entered reset (R27, R444). -/
def State.losesRail (s : State) (r : Rail) : State :=
  (railIslands r).foldl (fun s i => s.enterReset i false)
    { s with railsOff := s.railsOff ++ [r], rails := s.rails.filter (· != r) }

theorem losesRail_spec (s : State) (r : Rail) : (s.losesRail r).railsOff = s.railsOff ++ [r] ∧
    (s.losesRail r).lostPolders = s.lostPolders ∧ (s.losesRail r).mem = s.mem ∧
    ∀ i ∈ railIslands r, ((s.losesRail r).island i).inReset = true := by
  obtain ⟨hrails, hpolders, hislands⟩ := enterResets_spec (railIslands r)
    { s with railsOff := s.railsOff ++ [r], rails := s.rails.filter (· != r) }
  refine ⟨hrails, hpolders, ?_, fun i hi => ?_⟩
  · refine Same.mem (List.foldlRecOn (railIslands r) _ (motive := Same s) (Same.upd (Same.refl s)) fun t ht i _ => ?_)
    exact State.enterReset_same t ht i false
  · rw [State.losesRail, hislands i (.inr hi)]
    rfl

theorem keptInReset_of_mem {s : State} {r : Rail} {i : Nat} (hr : r ∈ s.railsOff) (hi : i ∈ railIslands r) :
    s.keptInReset i = true := by
  rw [State.keptInReset, Bool.or_eq_true]
  exact .inr (List.any_eq_true.mpr ⟨r, hr, List.contains_iff_mem.mpr hi⟩)

/-- A rail that feeds more than one stage core is lost with its polder (R401, R444). -/
theorem losesRail_polderLoss (s : State) (r : Rail) (i p obj : Nat) (hp : s.lostPolders.contains p = false) {t : State}
    (ht : t = (s.losesRail r).polderLoss i p obj none) : t.railsOff = s.railsOff ++ [r] ∧
      t.lostPolders = insertSorted s.lostPolders p ∧ t.mem = s.mem ∧
      ∀ i ∈ railIslands r, (t.island i).inReset = true ∧ t.keptInReset i = true := by
  obtain ⟨hrails, hpolders, hmem, hislands⟩ := losesRail_spec s r
  have hd := polderLoss_declares (s.losesRail r) i p obj none
  obtain ⟨hlost, hreset⟩ := polderLoss_spec (s.losesRail r) i p obj none (by rw [hpolders, hp])
  rw [hpolders] at hlost
  subst ht
  have hoff := hd.railsOff.trans hrails
  refine ⟨hoff, hlost, hd.mem.trans hmem, fun j hj => ⟨(hreset j).trans (hislands j hj), keptInReset_of_mem ?_ hj⟩⟩
  rw [hoff]
  exact List.mem_append_right _ (List.mem_singleton_self r)

theorem execRegulatorFail_of_good {s : State} {r : Rail} (hgood : s.power = .good) (hr : s.railsOff.contains r = false) :
    ¬(s.power = .off ∨ (s.power = .softStart ∧ r ≠ .bus6v) ∨ s.railsOff.contains r = true) := by
  rw [hgood, hr]
  rintro (h | ⟨h, -⟩ | h) <;> cases h

theorem exec_regulatorFail_polder {s : State} {r : Rail} {p : Nat} (hgood : s.power = .good)
    (hr : s.railsOff.contains r = false)
    (hmem : (r, p) ∈ (List.finRange 6).map (fun d => (Rail.vnoc d, d.val)) ++
      (List.finRange 6).map (fun d => (Rail.vsram d, d.val)) ++
      (List.finRange 4).map (fun h => (Rail.vedge h, 6 + h.val)) ++
      (List.finRange 4).map (fun h => (Rail.vserdes h, 6 + h.val)) ++
      (List.finRange 4).map (fun h => (Rail.lpddr h, 6 + h.val))) :
    ∃ i obj, exec (.regulatorFail r) s = .next ((s.losesRail r).polderLoss i p obj none) := by
  have hfail := execRegulatorFail_of_good hgood hr
  have hexec : exec (.regulatorFail r) s = execRegulatorFail r s := rfl
  rw [hexec]
  unfold execRegulatorFail
  rw [if_neg hfail]
  simp only [List.mem_append, List.mem_map, Prod.mk.injEq] at hmem
  obtain (((⟨d, -, rfl, rfl⟩ | ⟨d, -, rfl, rfl⟩) | ⟨h, -, rfl, rfl⟩) | ⟨h, -, rfl, rfl⟩) | ⟨h, -, rfl, rfl⟩ := hmem
  · exact ⟨_, _, rfl⟩
  · exact ⟨_, _, rfl⟩
  · exact ⟨_, _, rfl⟩
  · exact ⟨_, _, rfl⟩
  · exact ⟨_, _, rfl⟩

/-- Settles O57: power good gives every part its reset value but what outlives it (`cleared_parts`), and a failed
regulator is the entry into reset of its islands (`losesRail_spec`) with the loss of its polder. -/
theorem powerComesAndGoes : Obligations.PowerComesAndGoes := by
  unfold Obligations.PowerComesAndGoes
  intro s
  refine ⟨fun hoff => ⟨fun h => ?_, fun hheld hrail => ?_⟩, fun straps hsoft => ?_, fun hon => ?_, rfl, fun hon hbus => ?_,
    fun hgood => ⟨fun c hc => ?_, fun r p hr hmem hp => ?_⟩⟩
  · have hno : ¬(s.resetHeld && !s.houseRail) = true := by
      obtain h | h := h <;> rw [h] <;> simp
    show Host.Outcome.next (if s.power ≠ .off then s else if s.resetHeld && !s.houseRail then _ else _) = _
    rw [if_neg (not_not.mpr hoff), if_neg hno]
  · show Host.Outcome.next (if s.power ≠ .off then s else if s.resetHeld && !s.houseRail then _ else _) = _
    rw [if_neg (not_not.mpr hoff), hheld, hrail]
    rfl
  · obtain ⟨u, hu⟩ : ∃ u : State, u = { s with straps := straps } := ⟨_, rfl⟩
    obtain ⟨hks, hkf, hko, hkp⟩ : u.straps = straps ∧ u.flash = s.flash ∧ u.otp = s.otp ∧ u.pending = s.pending := by
      rw [hu]
      exact ⟨rfl, rfl, rfl, rfl⟩
    obtain ⟨hpower, hm, hflash, hotp, hstraps, hpending⟩ := bootAnew_parts u
    obtain ⟨hmode, hreg, hsvn, -, hlog⟩ := bootAnew_spec u
    rw [hks] at hstraps
    rw [hkf] at hflash
    rw [hko] at hotp hsvn
    rw [hkp] at hpending
    refine ⟨u.bootAnew, ?_, hpower, hstraps, hmode, fun a hstat hpub => hreg a (not_showsOtp hstat hpub), hsvn, hm, hflash,
      hotp, hpending, hlog⟩
    have hexec : exec (.powerGood straps) s = execPowerGood straps s := rfl
    rw [hexec, execPowerGood, if_pos hsoft, hu]
  · have hif (t : State) : (if s.power = .off then s else t) = t := if_neg hon
    obtain ⟨-, hm, hflash, hotp, -, -, htherm⟩ := cleared_parts s
    refine ⟨s.powerOff, ?_, ?_, rfl, fun a hstat hpub => reg_cleared s (not_showsOtp hstat hpub), hm, hflash, hotp,
      htherm, ?_, ?_⟩
    · have hexec : exec .inputShutdown s = execInputShutdown s := rfl
      rw [hexec, execInputShutdown, hif]
    · have hexec : exec .overcurrentTrip s = execOvercurrentTrip s := rfl
      rw [hexec, execOvercurrentTrip, hif]
    · have hexec : exec .thermalTrip s = execThermalTrip s := rfl
      rw [hexec, execThermalTrip, hif]
    · have hexec : exec .modResetN s = execModResetN s := rfl
      rw [hexec, execModResetN, hif]
  · have hexec : exec (.regulatorFail .bus6v) s = execRegulatorFail .bus6v s := rfl
    refine ⟨s.powerOff, ?_, rfl, (cleared_parts s).2.2.1⟩
    rw [hexec]
    unfold execRegulatorFail
    refine if_neg ?_
    rintro (h | ⟨-, h⟩ | h)
    · exact hon h
    · exact h rfl
    · rw [hbus] at h
      cases h
  · obtain ⟨hrails, -, hmem, hislands⟩ := losesRail_spec s (.vcore c)
    have hexec : exec (.regulatorFail (.vcore c)) s = execRegulatorFail (.vcore c) s := rfl
    refine ⟨s.losesRail (.vcore c), ?_, hislands c.val (List.mem_singleton_self _), hrails, hmem⟩
    rw [hexec]
    unfold execRegulatorFail
    exact if_neg (execRegulatorFail_of_good hgood hc)
  · obtain ⟨i, obj, hexec⟩ := exec_regulatorFail_polder hgood hr hmem
    exact ⟨_, hexec, losesRail_polderLoss s r i p obj hp rfl⟩

end Sys2Proof.Machine
end

section
/-! Power control, power states and sensors (R446, R449 to R459, R463 to R465, R483). -/

namespace Sys2Proof.Machine

open Sys2Proof

/-! ### Stage cores one after another -/

/-- State t differs from s in its stage cores alone. -/
def OnlyCores (s t : State) : Prop := t = { s with cores := t.cores }

namespace OnlyCores

theorem refl (s : State) : OnlyCores s s := rfl

theorem trans {s t u : State} (h : OnlyCores s t) (g : OnlyCores t u) : OnlyCores s u := by
  unfold OnlyCores at *
  rw [g, h]

theorem setCore (s : State) (c : Nat) (k : CoreSt) : OnlyCores s (s.setCore c k) := rfl

section
variable {s t : State} (h : OnlyCores s t)
include h

theorem reg (a : Nat) : t.reg a = s.reg a := by unfold State.reg; rw [h]
theorem regF (a hi lo : Nat) : t.regF a hi lo = s.regF a hi lo := by rw [State.regF, h.reg, State.regF]
theorem island (i : Nat) : t.island i = s.island i := by unfold State.island; rw [h]
theorem lostPolders : t.lostPolders = s.lostPolders := by rw [h]
theorem energy : t.energy = s.energy := by rw [h]
theorem actThrottle : t.actThrottle = s.actThrottle := by rw [h]
theorem mem : t.mem = s.mem := by rw [h]

theorem throttle : t.throttle = s.throttle := by rw [State.throttle, h.regF, State.throttle]

theorem coreTemp (c : Nat) : t.coreTemp c = s.coreTemp c := by
  unfold State.coreTemp State.viewSensor
  rw [h.reg, h.lostPolders]

theorem coreClock {c : Nat} (hc : (t.core c).thermClk = (s.core c).thermClk) : t.coreClock c = s.coreClock c := by
  unfold State.coreClock State.fmax
  rw [h.regF, h.regF, hc]

end

end OnlyCores

/-- A change that gives core c what v says of it reaches every core of a list once, as the cores do not depend on one
another. -/
theorem cores_foldl {g : State → Nat → State} {v : State → Nat → CoreSt} (hg : ∀ s c, OnlyCores s (g s c))
    (hself : ∀ s c, (g s c).core c = v s c) (hne : ∀ s c d, d ≠ c → (g s c).core d = s.core d)
    (hv : ∀ s t c, OnlyCores s t → t.core c = s.core c → v t c = v s c) (cs : List Nat) (hcs : cs.Nodup) (s : State) :
    OnlyCores s (cs.foldl g s) ∧ ∀ c, (cs.foldl g s).core c = if c ∈ cs then v s c else s.core c := by
  induction cs generalizing s with
  | nil => exact ⟨OnlyCores.refl s, fun c => by rw [if_neg List.not_mem_nil]; rfl⟩
  | cons d ds ih =>
    obtain ⟨hd, hds⟩ := List.nodup_cons.mp hcs
    obtain ⟨honly, hcores⟩ := ih hds (g s d)
    refine ⟨(hg s d).trans honly, fun c => ?_⟩
    rw [List.foldl_cons, hcores]
    by_cases hc : c = d
    · rw [hc, if_neg hd, hself, if_pos List.mem_cons_self]
    · have hmem : c ∈ d :: ds ↔ c ∈ ds := by rw [List.mem_cons, or_iff_right hc]
      simp only [hmem, hne s d c hc, hv s (g s d) c (hg s d) (hne s d c hc)]

theorem OnlyRegs.mem {s t : State} (h : OnlyRegs s t) : t.mem = s.mem := by rw [h]

theorem OnlyRegs.actThrottle {s t : State} (h : OnlyRegs s t) : t.actThrottle = s.actThrottle := by rw [h]

/-! ### Clock steps that fall due -/

/-- Core c with the clock step that falls due for it, if any. -/
def State.withDue (s : State) (c : Nat) : CoreSt :=
  if (s.island c).inReset ∨ s.coreClock c = (s.core c).setClk then
    if (s.core c).clkDue = none then s.core c else { s.core c with clkDue := none }
  else (s.core c).stepDue (c / 9) (s.coreClock c)

theorem CoreSt.stepDue_spec (k : CoreSt) (d f : Nat) : (k.stepDue d f).clkDue = some f ∧
    (k.stepDue d f).volt = (if k.setClk < f then fusedMilliVolt d f else k.volt) ∧
    (k.stepDue d f).thermClk = k.thermClk := by
  unfold CoreSt.stepDue
  extract_lets k'
  have hk : k'.setClk = k.setClk := rfl
  rw [hk]
  by_cases h : k.setClk < f
  · rw [if_pos h, if_pos h]
    exact ⟨rfl, rfl, rfl⟩
  · rw [if_neg h, if_neg h]
    exact ⟨rfl, rfl, rfl⟩

theorem thermClk_withDue (s : State) (c : Nat) : (s.withDue c).thermClk = (s.core c).thermClk := by
  unfold State.withDue
  split
  · split <;> rfl
  · exact (CoreSt.stepDue_spec _ _ _).2.2

theorem dueClocks_cores (s : State) : OnlyCores s s.dueClocks ∧
    ∀ c, s.dueClocks.core c = if c ∈ List.range 54 then s.withDue c else s.core c := by
  unfold State.dueClocks
  refine cores_foldl (v := State.withDue) (fun s c => ?_) (fun s c => ?_) (fun s c d hd => ?_) (fun s t c h hc => ?_) _
    List.nodup_range s
  · dsimp only
    split
    · exact pred_ite (P := OnlyCores s) (OnlyCores.refl s) (OnlyCores.setCore s _ _)
    · exact OnlyCores.setCore s _ _
  · unfold State.withDue
    dsimp only
    split
    · split
      · rfl
      · rw [State.core_setCore_self]
    · rw [State.core_setCore_self]
  · dsimp only
    split
    · split
      · rfl
      · rw [State.core_setCore_ne _ _ _ _ hd]
    · rw [State.core_setCore_ne _ _ _ _ hd]
  · unfold State.withDue
    rw [h.island, hc, h.coreClock (by rw [hc])]

theorem dueClocks_coreClock (s : State) {c : Nat} (hc : c < 54) : s.dueClocks.coreClock c = s.coreClock c := by
  obtain ⟨honly, hcores⟩ := dueClocks_cores s
  refine honly.coreClock ?_
  rw [hcores, if_pos (List.mem_range.mpr hc), thermClk_withDue]

theorem thermClk_dueClocks (s : State) (c : Nat) : (s.dueClocks.core c).thermClk = (s.core c).thermClk := by
  rw [(dueClocks_cores s).2]
  split
  · exact thermClk_withDue s c
  · rfl

/-! ### The evaluations -/

theorem addEnergy_parts (s : State) (p : Nat) : (s.addEnergy p).reg Reg.PWR_STAT = s.reg Reg.PWR_STAT ∧
    (∀ c, (s.addEnergy p).core c = s.core c) ∧ (∀ i, (s.addEnergy p).island i = s.island i) ∧
    (s.addEnergy p).energy = s.energy + 100 * p ∧ (s.addEnergy p).mem = s.mem := by
  refine ⟨?_, fun c => rfl, fun i => rfl, rfl, rfl⟩
  rw [State.addEnergy, State.setReg48, State.reg_setReg_ne _ _ _ _ (by decide), State.reg_setReg_ne _ _ _ _ (by decide)]
  rfl

theorem exec_powerCapEval (p : BitVec 16) (s : State) : ∃ t : State, exec (.powerCapEval p) s = .next t ∧
    t.regF Reg.PWR_STAT 15 0 = s.powerLimit % 65536 ∧
    t.regF Reg.PWR_STAT 23 16 = capAfter (s.regF Reg.PWR_STAT 23 16) p.toNat s.powerLimit
      (s.regF Reg.PWR_CAP_HYST 15 0) s.fmax % 256 ∧
    t.energy = s.energy + 100 * p.toNat ∧ t.mem = s.mem ∧
    (∀ c : Core, (s.island c).inReset = false → t.coreClock c ≠ (s.core c).setClk →
      (t.core c).clkDue = some (t.coreClock c) ∧
      (t.core c).volt = if (s.core c).setClk < t.coreClock c then fusedMilliVolt (c / 9) (t.coreClock c)
        else (s.core c).volt) := by
  have hexec : exec (.powerCapEval p) s = execPowerCapEval p s := rfl
  rw [hexec]
  unfold execPowerCapEval
  extract_lets l cap t u v
  obtain ⟨hreg, hcore, hisland, henergy, hmem⟩ := addEnergy_parts v p.toNat
  have hv : OnlyRegs s v := (((onlyRegs_setRegF s _ _ _ _).trans (onlyRegs_setRegF _ _ _ _ _)).trans
    (onlyRegs_setRegF t _ _ _ _)).trans (onlyRegs_setRegF u _ _ _ _)
  generalize v.addEnergy p.toNat = w at *
  have hregF (hi lo : Nat) (hd : hi < 28) : w.regF Reg.PWR_STAT hi lo = t.regF Reg.PWR_STAT hi lo := by
    rw [State.regF, hreg, ← State.regF]
    exact (State.regF_setRegF_ne _ _ _ (by omega) (by decide) (.inr hd)).trans
      (State.regF_setRegF_ne _ _ _ (by omega) (by decide) (.inr (by omega)))
  obtain ⟨honly, hcores⟩ := dueClocks_cores w
  refine ⟨w.dueClocks, rfl, ?_, ?_, honly.energy.trans (henergy.trans (by rw [hv])),
    honly.mem.trans (hmem.trans (by rw [hv])), fun c hr hne => ?_⟩
  · rw [honly.regF, hregF _ _ (by decide)]
    exact State.regF_setRegF_self _ _ _ (by decide)
  · rw [honly.regF, hregF _ _ (by decide)]
    exact (State.regF_setRegF_ne _ _ _ (by decide) (by decide) (.inl (by decide))).trans
      (State.regF_setRegF_self _ _ _ (by decide))
  · rw [dueClocks_coreClock w c.isLt] at hne ⊢
    rw [hcores, if_pos (List.mem_range.mpr c.isLt), State.withDue, hisland, hv.island, hcore, hv.core, hr,
      if_neg (by rintro (h | h); exacts [Bool.noConfusion h, hne h])]
    obtain ⟨hdue, hvolt, -⟩ := (s.core c).stepDue_spec (c / 9) (w.coreClock c)
    exact ⟨hdue, hvolt⟩

/-- Core c with its thermal clock after an evaluation. -/
def State.withTherm (s : State) (c : Nat) : CoreSt :=
  match s.coreTemp c with
  | none => s.core c
  | some t =>
    if (s.island c).inReset then s.core c
    else { s.core c with thermClk := thermAfter (s.core c).thermClk t s.throttle }

theorem thermEval_cores (s : State) {t : State} (ht : t = (List.range 54).foldl (fun s c =>
      match s.coreTemp c with
      | none => s
      | some t =>
        if (s.island c).inReset then s
        else s.setCore c { s.core c with thermClk := thermAfter (s.core c).thermClk t s.throttle }) s) :
    OnlyCores s t ∧ ∀ c, t.core c = if c ∈ List.range 54 then s.withTherm c else s.core c := by
  subst ht
  refine cores_foldl (v := State.withTherm) (fun s c => ?_) (fun s c => ?_) (fun s c d hd => ?_) (fun s t c h hc => ?_) _
    List.nodup_range s
  · split
    · exact OnlyCores.refl s
    · exact pred_ite (P := OnlyCores s) (OnlyCores.refl s) (OnlyCores.setCore s _ _)
  · unfold State.withTherm
    split
    · rfl
    · split
      · rfl
      · rw [State.core_setCore_self]
  · split
    · rfl
    · split
      · rfl
      · rw [State.core_setCore_ne _ _ _ _ hd]
  · unfold State.withTherm
    rw [h.coreTemp, h.island, hc, h.throttle]

theorem thermClk_withTherm {s : State} {c : Nat} {temp : Int} (ht : s.coreTemp c = some temp)
    (hr : (s.island c).inReset = false) : (s.withTherm c).thermClk = thermAfter (s.core c).thermClk temp s.throttle := by
  unfold State.withTherm
  simp only [ht, hr, Bool.false_eq_true, if_false]

/-- The status shows whether a core's thermal clock is below the highest. -/
theorem noteTherm_spec (s : State) : s.noteTherm.regF Reg.PWR_STAT 29 29 = 1 ↔ ∃ c, c < 54 ∧ (s.core c).thermClk < 72 := by
  rw [State.noteTherm, State.regF_setRegF_self _ _ _ (by decide)]
  by_cases h : (List.range 54).any (fun c => decide ((s.core c).thermClk < 72)) = true
  · rw [if_pos h]
    obtain ⟨c, hc, hlt⟩ := List.any_eq_true.mp h
    exact ⟨fun _ => ⟨c, List.mem_range.mp hc, of_decide_eq_true hlt⟩, fun _ => rfl⟩
  · rw [if_neg h]
    refine ⟨fun h0 => absurd h0 (by decide), fun ⟨c, hc, hlt⟩ => absurd ?_ h⟩
    exact List.any_eq_true.mpr ⟨c, List.mem_range.mpr hc, decide_eq_true hlt⟩

/-- A written threshold acts from here on. -/
def State.actNow (s : State) : State := { s with actThrottle := s.throttle }

theorem actNow_core (s : State) (c : Nat) : s.actNow.core c = s.core c := rfl

theorem actNow_mem (s : State) : s.actNow.mem = s.mem := rfl

theorem actNow_actThrottle (s : State) : s.actNow.actThrottle = s.throttle := rfl

theorem exec_thermalEval (s : State) : ∃ t : State, exec .thermalEval s = .next t ∧ t.mem = s.mem ∧
    t.actThrottle = s.throttle ∧ (t.regF Reg.PWR_STAT 29 29 = 1 ↔ ∃ c, c < 54 ∧ (t.core c).thermClk < 72) ∧
    ∀ (c : Core) temp, s.coreTemp c = some temp → (s.island c).inReset = false →
      (t.core c).thermClk = thermAfter (s.core c).thermClk temp s.throttle := by
  have hexec : exec .thermalEval s = execThermalEval s := rfl
  rw [hexec]
  unfold execThermalEval
  extract_lets u
  obtain ⟨honly, hcores⟩ := thermEval_cores s (t := u) rfl
  have hnote : OnlyRegs u.actNow u.actNow.noteTherm := onlyRegs_setRegF _ _ _ _ _
  obtain ⟨hdue, -⟩ := dueClocks_cores u.actNow.noteTherm
  have hclk (c : Nat) : (u.actNow.noteTherm.dueClocks.core c).thermClk = (u.core c).thermClk := by
    rw [thermClk_dueClocks, hnote.core, actNow_core]
  refine ⟨u.actNow.noteTherm.dueClocks, rfl, ?_, ?_, ?_, fun c temp ht hr => ?_⟩
  · rw [hdue.mem, hnote.mem, actNow_mem, honly.mem]
  · rw [hdue.actThrottle, hnote.actThrottle, actNow_actThrottle, honly.throttle]
  · rw [hdue.regF, noteTherm_spec]
    simp only [hclk, actNow_core]
  · rw [hclk, hcores, if_pos (List.mem_range.mpr c.isLt), thermClk_withTherm ht hr]

theorem pstate_setPstate (s : State) (c : Nat) {p : Nat} (hp : p < 4) : (s.setPstate c p).pstate c = p := by
  rw [State.pstate, State.setPstate, State.regF_setRegF_ne _ _ _ (by decide) (by decide) (.inr (by decide)),
    State.regF_setRegF_self _ _ _ (by decide)]
  exact Nat.mod_eq_of_lt hp

theorem core_setPstate (s : State) (c p d : Nat) : (s.setPstate c p).core d = s.core d := by
  rw [State.setPstate, State.core_setRegF, State.core_setRegF]

theorem exec_coreThermalGate {c : Core} {s : State} {temp : Int} (ht : s.coreTemp c = some temp) :
    ((s.core c).thermGated = true → temp ≤ s.actThrottle → ∃ t : State,
      exec (.coreThermalGate c) s = .next t ∧ (t.core c).thermGated = false ∧ t.pstate c = 0) ∧
    ((s.core c).thermGated = false → s.pstate c = 0 → (s.core c).thermClk = 20 →
      s.actThrottle + 160 ≤ temp → ∃ t : State, exec (.coreThermalGate c) s = .next t ∧
        (t.core c).thermGated = true ∧ t.pstate c = 1) := by
  have hexec : exec (.coreThermalGate c) s = execCoreThermalGate c s := rfl
  rw [hexec]
  unfold execCoreThermalGate
  simp only [ht]
  refine ⟨fun hg hle => ⟨_, if_pos ⟨hg, hle⟩, ?_, ?_⟩, fun hg hp hclk hle =>
    ⟨_, (if_neg (by rw [hg]; rintro ⟨h, -⟩; cases h)).trans (if_pos ⟨hg, hp, hclk, hle⟩), ?_, ?_⟩⟩
  · rw [State.ungate, core_setPstate, State.core_setCore_self, State.core_setCore_self]
    rfl
  · exact pstate_setPstate _ c (by decide)
  · rw [core_setPstate, State.core_setCore_self]
  · exact pstate_setPstate _ c (by decide)

theorem exec_droopResponse {c : Core} {s : State} (hd : (s.core c).droop = false) (hp : s.pstate c = 0) :
    ∃ t : State, exec (.droopResponse c) s = .next t ∧ (t.core c).droop = true ∧ (t.core c).droopAt = s.now ∧
      (t.reg Reg.PWR_DROOP_CNT).toNat = min ((s.reg Reg.PWR_DROOP_CNT).toNat + 1) 0xFFFFFFFF ∧
      ∀ a, a ≠ Reg.PWR_DROOP_CNT → t.reg a = s.reg a := by
  have hexec : exec (.droopResponse c) s = execDroopResponse c s := rfl
  rw [hexec]
  unfold execDroopResponse
  refine ⟨_, if_neg (by rw [hd, hp]; rintro (h | h); exacts [Bool.noConfusion h, h rfl]), ?_, ?_, ?_, fun a ha => ?_⟩
  · rw [State.inc, State.core_setReg, State.core_setCore_self]
  · rw [State.inc, State.core_setReg, State.core_setCore_self]
  · rw [State.inc, State.reg_setReg_self, toNat_satAdd, State.reg_setCore]
  · rw [State.inc, State.reg_setReg_ne _ _ _ _ ha, State.reg_setCore]

theorem exec_droopEnd {c : Core} {s : State} (hd : (s.core c).droop = true) (hnow : (s.core c).droopAt + 1 ≤ s.now) :
    ∃ t : State, exec (.droopEnd c) s = .next t ∧ (t.core c).droop = false ∧ (t.core c).clkDue = none ∧
      (t.core c).setClk = (s.core c).clkDue.getD (s.core c).setClk ∧
      (t.core c).volt = fusedMilliVolt (c / 9) (t.core c).setClk ∧ t.mem = s.mem := by
  have hexec : exec (.droopEnd c) s = execDroopEnd c s := rfl
  rw [hexec]
  unfold execDroopEnd
  extract_lets k f t
  have hcore : t.core c = ({ k with droop := false } : CoreSt).stepClock (c / 9) f := State.core_setCore_self s _ _
  have hmem : t.mem = s.mem := rfl
  have hend (u : State) (hu : OnlyRegs t u) : (u.core c).droop = false ∧ (u.core c).clkDue = none ∧
      (u.core c).setClk = f ∧ (u.core c).volt = fusedMilliVolt (c / 9) (u.core c).setClk ∧ u.mem = s.mem := by
    rw [hu.core, hcore, hu.mem, hmem]
    exact ⟨rfl, rfl, rfl, rfl, rfl⟩
  refine ⟨_, if_neg (by rintro (h | h); exacts [Bool.noConfusion (hd.symm.trans h), Nat.not_lt.mpr hnow h]), hend _ ?_⟩
  exact pred_ite (P := OnlyRegs t) (onlyRegs_setRegF t _ _ _ _) (OnlyRegs.refl t)

/-! ### Power states -/

theorem enterPower_mem (s : State) (f : PwrFn) (st : Nat) : (s.enterPower f st).mem = s.mem :=
  (State.enterPower_same s (Same.refl s) f st).mem

theorem wake_mem (s : State) (f : PwrFn) : (s.wake f).mem = s.mem := (State.wake_same s (Same.refl s) f).mem

theorem pwrState_setPwrState (s : State) (k v : Nat) : (s.setPwrState k v).pwrState k = v := by
  rw [State.pwrState, State.setPwrState, SMap.get_set_self]

/-- A channel that wakes: one whose PHY was off trains its last steps again (R458). -/
theorem wake_chan (s : State) (ch : Chan) : (s.wake (.chan ch)).fnState (.chan ch) = 0 ∧
    (s.pwrState ch ≠ 3 → (s.wake (.chan ch)).regs = s.regs ∧ (s.wake (.chan ch)).chans = s.chans) ∧
    (s.pwrState ch = 3 → ((s.wake (.chan ch)).chan ch).trainDone = 9 ∧
      ((s.wake (.chan ch)).island (80 + ch)).ready = true) := by
  refine ⟨pwrState_setPwrState _ _ _, fun h => ?_, fun h => ?_⟩
  · unfold State.wake
    dsimp only
    rw [if_neg h]
    exact ⟨rfl, rfl⟩
  · unfold State.wake
    dsimp only
    rw [if_pos h]
    have hchan (t : State) (v : ChanSt) : ((t.setChan ch v).setPwrState ch 0).chan ch = v := State.chan_setChan_self t ch v
    have hisl (t : State) (v : ChanSt) (i : Nat) : ((t.setChan ch v).setPwrState ch 0).island i = t.island i := rfl
    rw [hchan, hisl]
    exact ⟨rfl, (s.island_leaveReset (80 + ch)).1⟩

/-! ### Sensors -/

/-- The alert of k is enabled on a valid sensor whose value has reached the threshold (R465). -/
def State.alertHits (s : State) (k : Nat) : Bool :=
  bit (s.reg (Reg.TEL_ALERT_SEL k)).toNat 31 &&
    bit (s.viewSensor (fld (s.reg (Reg.TEL_ALERT_SEL k)).toNat 7 0)).toNat 31 &&
    decide (sensorNum (fld (s.reg (Reg.TEL_ALERT_SEL k)).toNat 7 0) (s.regF (Reg.TEL_ALERT_VAL k) 23 0) ≤
      sensorNum (fld (s.reg (Reg.TEL_ALERT_SEL k)).toNat 7 0)
        (fld (s.viewSensor (fld (s.reg (Reg.TEL_ALERT_SEL k)).toNat 7 0)).toNat 23 0))

theorem bit_setRegF_one (s : State) (a : Nat) {k i : Nat} (hi : i < 32) :
    bit ((s.setRegF a k k 1).reg a).toNat i = (decide (i = k) || bit (s.reg a).toNat i) := by
  rw [State.setRegF, State.reg_setReg_self, bit, BitVec.toNat_ofNat, Nat.testBit_mod_two_pow, decide_eq_true hi,
    Bool.true_and, testBit_setFld (Nat.le_refl k)]
  by_cases h : i = k
  · rw [if_pos ⟨h.ge, h.le⟩, h, Nat.sub_self, decide_eq_true rfl]
    rfl
  · rw [if_neg (by omega), decide_eq_false h, Bool.false_or]
    rfl

/-- Checking an alert sets its bit where it hits, and clears none. -/
theorem bit_checkAlert (s : State) {k i : Nat} (hi : i < 32) : bit ((s.checkAlert k).reg Reg.TEL_ALERT_STAT).toNat i =
    (s.alertHits k && decide (i = k) || bit (s.reg Reg.TEL_ALERT_STAT).toNat i) := by
  have hset := bit_setRegF_one s Reg.TEL_ALERT_STAT (k := k) hi
  have hunf : s.checkAlert k = if s.alertHits k then
      (if s.regF Reg.TEL_ALERT_STAT k k = 0 then (s.setRegF Reg.TEL_ALERT_STAT k k 1).logNamed
        (s.setRegF Reg.TEL_ALERT_STAT k k 1).ctlIsl 0x0105 k else s.setRegF Reg.TEL_ALERT_STAT k k 1) else s := rfl
  rw [hunf]
  cases s.alertHits k with
  | false => rw [if_neg Bool.false_ne_true, Bool.false_and, Bool.false_or]
  | true =>
    rw [if_pos rfl, Bool.true_and, ← hset]
    split
    · rw [State.reg_logNamed _ _ _ _ _ (evcPlace_global (by decide))]
    · rfl

/-- The alerts of a list that watch sensor j are checked. -/
def State.checkAlerts (s : State) (j : Nat) (ks : List Nat) : State :=
  ks.foldl (fun s k => if s.regF (Reg.TEL_ALERT_SEL k) 7 0 = j then s.checkAlert k else s) s

/-- Checking alerts sets the bit of each that hits, and changes no register but the status. -/
theorem checkAlerts_spec (j : Nat) (ks : List Nat) (s : State) : Reports s (s.checkAlerts j ks) ∧
    (∀ a, a < 0x01000000 → a ≠ Reg.TEL_ALERT_STAT → (s.checkAlerts j ks).reg a = s.reg a) ∧
    (∀ i, i < 32 → bit (s.reg Reg.TEL_ALERT_STAT).toNat i = true →
      bit ((s.checkAlerts j ks).reg Reg.TEL_ALERT_STAT).toNat i = true) ∧
    ∀ k, k < 8 → k ∈ ks → s.regF (Reg.TEL_ALERT_SEL k) 7 0 = j → s.alertHits k = true →
      bit ((s.checkAlerts j ks).reg Reg.TEL_ALERT_STAT).toNat k = true := by
  induction ks generalizing s with
  | nil => exact ⟨Reports.refl s, fun _ _ _ => rfl, fun _ _ h => h, fun _ _ h => absurd h List.not_mem_nil⟩
  | cons m ks ih =>
    obtain ⟨t, ht⟩ : ∃ t, t = if s.regF (Reg.TEL_ALERT_SEL m) 7 0 = j then s.checkAlert m else s := ⟨_, rfl⟩
    have hstep : s.checkAlerts j (m :: ks) = t.checkAlerts j ks := by rw [ht]; rfl
    have hrep : Reports s t := by
      rw [ht]
      exact pred_ite (P := Reports s) (checkAlert_reports s m) (Reports.refl s)
    have hreg (a : Nat) (ha : a < 0x01000000) (hne : a ≠ Reg.TEL_ALERT_STAT) : t.reg a = s.reg a := by
      rw [ht]
      exact pred_ite (P := fun u : State => u.reg a = s.reg a) (reg_checkAlert s m (evcPlace_global ha) hne) rfl
    have hbit (i : Nat) (hi : i < 32) (h : bit (s.reg Reg.TEL_ALERT_STAT).toNat i = true) :
        bit (t.reg Reg.TEL_ALERT_STAT).toNat i = true := by
      rw [ht]
      refine pred_ite (P := fun u : State => bit (u.reg Reg.TEL_ALERT_STAT).toNat i = true) ?_ h
      rw [bit_checkAlert s hi, h, Bool.or_true]
    obtain ⟨hrep', hreg', hbit', hhit'⟩ := ih t
    rw [hstep]
    refine ⟨hrep.trans hrep', fun a ha hne => (hreg' a ha hne).trans (hreg a ha hne),
      fun i hi h => hbit' i hi (hbit i hi h), fun k hk hmem hsel hhit => ?_⟩
    by_cases hm : k = m
    · refine hbit' k (by omega) ?_
      rw [ht, ← hm, if_pos hsel, bit_checkAlert s (by omega), hhit, decide_eq_true rfl, Bool.and_true, Bool.true_or]
    · have hsel' : t.reg (Reg.TEL_ALERT_SEL k) = s.reg (Reg.TEL_ALERT_SEL k) :=
        hreg _ (by unfold Reg.TEL_ALERT_SEL; omega) (by unfold Reg.TEL_ALERT_SEL Reg.TEL_ALERT_STAT; omega)
      have hval' : t.reg (Reg.TEL_ALERT_VAL k) = s.reg (Reg.TEL_ALERT_VAL k) :=
        hreg _ (by unfold Reg.TEL_ALERT_VAL; omega) (by unfold Reg.TEL_ALERT_VAL Reg.TEL_ALERT_STAT; omega)
      have hlt : fld (s.reg (Reg.TEL_ALERT_SEL k)).toNat 7 0 < 256 := fld_lt _ 7 0
      have hview : t.viewSensor (fld (s.reg (Reg.TEL_ALERT_SEL k)).toNat 7 0) =
          s.viewSensor (fld (s.reg (Reg.TEL_ALERT_SEL k)).toNat 7 0) := by
        unfold State.viewSensor
        rw [hreg _ (by unfold Reg.TEL_SENSOR; omega) (by unfold Reg.TEL_SENSOR Reg.TEL_ALERT_STAT; omega),
          hrep.lostPolders]
      refine hhit' k hk ((List.mem_cons.mp hmem).resolve_left hm) ?_ ?_
      · rw [State.regF, hsel']
        exact hsel
      · rw [State.alertHits, hsel', hview, State.regF, hval']
        exact hhit

theorem inputSample_spec (s : State) (j : Nat) : (s.inputSample j).mem = s.mem ∧
    (s.inputSample j).lostPolders = s.lostPolders ∧ (s.inputSample j).houseRail = s.houseRail ∧
    ∀ a, a ≠ Reg.PWR_STAT → a ≠ Reg.PWR_PEAK → (s.inputSample j).reg a = s.reg a := by
  unfold State.inputSample
  extract_lets at' t v u p
  have ht : t.mem = s.mem ∧ t.lostPolders = s.lostPolders ∧ t.houseRail = s.houseRail ∧ ∀ a, t.reg a = s.reg a :=
    ⟨rfl, rfl, rfl, fun _ => rfl⟩
  have hu : OnlyRegs t u := pred_ite (P := OnlyRegs t) (onlyRegs_setRegF t _ _ _ _) (OnlyRegs.refl t)
  have hureg (a : Nat) (ha : a ≠ Reg.PWR_STAT) : u.reg a = t.reg a :=
    pred_ite (P := fun u : State => u.reg a = t.reg a) (State.reg_setRegF_ne _ _ _ _ _ _ ha) rfl
  obtain ⟨hmem, hlost, hrail, hreg⟩ := ht
  have hend (w : State) (hw : OnlyRegs u w) (hwr : ∀ a, a ≠ Reg.PWR_PEAK → w.reg a = u.reg a) : w.mem = s.mem ∧
      w.lostPolders = s.lostPolders ∧ w.houseRail = s.houseRail ∧
      ∀ a, a ≠ Reg.PWR_STAT → a ≠ Reg.PWR_PEAK → w.reg a = s.reg a := by
    have h := hu.trans hw
    refine ⟨h.mem.trans hmem, (by rw [h] : w.lostPolders = t.lostPolders).trans hlost,
      (by rw [h] : w.houseRail = t.houseRail).trans hrail, fun a hs hp => ?_⟩
    rw [hwr a hp, hureg a hs, hreg]
  split
  · split
    · exact hend _ (onlyRegs_setRegF u _ _ _ _) fun a ha => State.reg_setRegF_ne _ _ _ _ _ _ ha
    · exact hend u (OnlyRegs.refl u) fun _ _ => rfl
  · exact hend u (OnlyRegs.refl u) fun _ _ => rfl

/-- A valid sample as `TEL_SENSOR` holds it. -/
theorem sample_bits (v : BitVec 24) : bit (BitVec.ofNat 32 (2 ^ 31 + v.toNat)).toNat 31 = true ∧
    fld (BitVec.ofNat 32 (2 ^ 31 + v.toNat)).toNat 23 0 = v.toNat := by
  have hv := v.isLt
  have hn : (BitVec.ofNat 32 (2 ^ 31 + v.toNat)).toNat = 2 ^ 31 + v.toNat := by
    rw [BitVec.toNat_ofNat]
    omega
  rw [hn]
  constructor
  · rw [bit, Nat.testBit_eq_decide_div_mod_eq]
    exact decide_eq_true (by omega)
  · unfold fld
    omega

/-- The sensor's new value, before the alerts on it. -/
def State.sampled (s : State) (j : Nat) (v : BitVec 24) : State :=
  ((if j = 0 ∧ 40000 ≤ v.toNat then { s with houseRail := true } else s).setReg (Reg.TEL_SENSOR j)
    (BitVec.ofNat 32 (2 ^ 31 + v.toNat))).inputSample j

theorem sampled_spec (s : State) (j : Nat) (v : BitVec 24) : (s.sampled j v).mem = s.mem ∧
    (s.sampled j v).lostPolders = s.lostPolders ∧
    (s.sampled j v).houseRail = (s.houseRail || decide (j = 0 ∧ 40000 ≤ v.toNat)) ∧
    (s.sampled j v).reg (Reg.TEL_SENSOR j) = BitVec.ofNat 32 (2 ^ 31 + v.toNat) ∧
    ∀ a, a ≠ Reg.PWR_STAT → a ≠ Reg.PWR_PEAK → a ≠ Reg.TEL_SENSOR j → (s.sampled j v).reg a = s.reg a := by
  obtain ⟨t, ht⟩ : ∃ t : State, t = if j = 0 ∧ 40000 ≤ v.toNat then { s with houseRail := true } else s := ⟨_, rfl⟩
  have hrail : t.houseRail = (s.houseRail || decide (j = 0 ∧ 40000 ≤ v.toNat)) := by
    rw [ht]
    by_cases h : j = 0 ∧ 40000 ≤ v.toNat
    · rw [if_pos h, decide_eq_true h, Bool.or_true]
    · rw [if_neg h, decide_eq_false h, Bool.or_false]
  obtain ⟨hmem, hlost, hreg⟩ : t.mem = s.mem ∧ t.lostPolders = s.lostPolders ∧ ∀ a, t.reg a = s.reg a := by
    rw [ht]
    split
    · exact ⟨rfl, rfl, fun _ => rfl⟩
    · exact ⟨rfl, rfl, fun _ => rfl⟩
  unfold State.sampled
  rw [← ht]
  obtain ⟨hm, hl, hh, hr⟩ := inputSample_spec (t.setReg (Reg.TEL_SENSOR j) (BitVec.ofNat 32 (2 ^ 31 + v.toNat))) j
  refine ⟨hm.trans hmem, hl.trans hlost, hh.trans hrail, ?_, fun a hs hp hne => ?_⟩
  · rw [hr _ (by unfold Reg.TEL_SENSOR Reg.PWR_STAT; omega) (by unfold Reg.TEL_SENSOR Reg.PWR_PEAK; omega),
      State.reg_setReg_self]
  · rw [hr a hs hp, State.reg_setReg_ne _ _ _ _ hne, hreg]

theorem exec_sensorUpdate {j : Fin 256} {v : BitVec 24} {s : State} (hj : sensorExists j = true)
    (hp : s.lostPolders.contains (6 + sensorHalf j) = false) :
    ∃ t : State, exec (.sensorUpdate j v) s = .next t ∧
      t.reg (Reg.TEL_SENSOR j) = BitVec.ofNat 32 (2 ^ 31 + v.toNat) ∧ t.mem = s.mem ∧
      t.houseRail = (s.houseRail || decide (j.val = 0 ∧ 40000 ≤ v.toNat)) ∧
      (∀ k, k < 8 → s.regF (Reg.TEL_ALERT_SEL k) 7 0 = j.val →
        bit (s.reg (Reg.TEL_ALERT_SEL k)).toNat 31 = true →
        sensorNum j (s.regF (Reg.TEL_ALERT_VAL k) 23 0) ≤ sensorNum j v.toNat →
        bit (t.reg Reg.TEL_ALERT_STAT).toNat k = true) := by
  have hexec : exec (.sensorUpdate j v) s = .next ((s.sampled j v).checkAlerts j (List.range 8)) := by
    have hexec : exec (.sensorUpdate j v) s = execSensorUpdate j v s := rfl
    rw [hexec]
    unfold execSensorUpdate
    rw [if_neg (by rw [hj, hp]; decide)]
    rfl
  obtain ⟨hmem, hlost, hrail, hsensor, hreg⟩ := sampled_spec s j v
  obtain ⟨hrep, hkeep, -, hhit⟩ := checkAlerts_spec j (List.range 8) (s.sampled j v)
  have hjlt := j.isLt
  refine ⟨_, hexec, ?_, hrep.mem.trans hmem, (by rw [hrep] : _ = (s.sampled j v).houseRail).trans hrail,
    fun k hk hsel hon hle => ?_⟩
  · rw [hkeep _ (by unfold Reg.TEL_SENSOR; omega) (by unfold Reg.TEL_SENSOR Reg.TEL_ALERT_STAT; omega), hsensor]
  · have hselreg : (s.sampled j v).reg (Reg.TEL_ALERT_SEL k) = s.reg (Reg.TEL_ALERT_SEL k) :=
      hreg _ (by unfold Reg.TEL_ALERT_SEL Reg.PWR_STAT; omega) (by unfold Reg.TEL_ALERT_SEL Reg.PWR_PEAK; omega)
        (by unfold Reg.TEL_ALERT_SEL Reg.TEL_SENSOR; omega)
    have hvalreg : (s.sampled j v).reg (Reg.TEL_ALERT_VAL k) = s.reg (Reg.TEL_ALERT_VAL k) :=
      hreg _ (by unfold Reg.TEL_ALERT_VAL Reg.PWR_STAT; omega) (by unfold Reg.TEL_ALERT_VAL Reg.PWR_PEAK; omega)
        (by unfold Reg.TEL_ALERT_VAL Reg.TEL_SENSOR; omega)
    have hview : (s.sampled j v).viewSensor j = BitVec.ofNat 32 (2 ^ 31 + v.toNat) := by
      unfold State.viewSensor
      rw [hlost, hp, if_neg Bool.false_ne_true, hsensor]
    obtain ⟨hbit, hfld⟩ := sample_bits v
    have hj' : fld (s.reg (Reg.TEL_ALERT_SEL k)).toNat 7 0 = j.val := hsel
    refine hhit k hk (List.mem_range.mpr hk) ?_ ?_
    · rw [State.regF, hselreg, hj']
    · rw [State.alertHits, hselreg, hj', hview, hbit, hfld, hon, State.regF, hvalreg, ← State.regF]
      exact decide_eq_true hle

/-- Settles O58: each command by its own lemma; the evaluations go over the stage cores one after another
(`cores_foldl`), the alerts over the eight places (`checkAlerts_spec`). -/
theorem powerControlAndSensors : Obligations.PowerControlAndSensors := by
  unfold Obligations.PowerControlAndSensors
  refine ⟨fun s => ⟨fun p => exec_powerCapEval p s, exec_thermalEval s, fun c temp ht => exec_coreThermalGate ht,
    fun c hd hp => exec_droopResponse hd hp, fun c hd hnow => exec_droopEnd hd hnow⟩,
    fun s => ⟨fun f hidle hlt => ⟨?_, enterPower_mem s f _⟩, fun f hw => ⟨?_, wake_mem s f⟩, fun ch hw => ?_,
      fun j v hj hp => exec_sensorUpdate hj hp⟩⟩
  · have hexec : exec (.idleEntry f) s = execIdleEntry f s := rfl
    rw [hexec, execIdleEntry, hidle, decide_eq_true hlt, if_pos (by decide)]
  · have hexec : exec (.powerStateWake f) s = execPowerStateWake f s := rfl
    rw [hexec, execPowerStateWake, if_pos hw]
  · have hexec : exec (.powerStateWake (.chan ch)) s = execPowerStateWake (.chan ch) s := rfl
    rw [hexec, execPowerStateWake, if_pos hw]
    exact ⟨_, rfl, wake_chan s ch⟩

end Sys2Proof.Machine
end

section
/-! SUPPORT. The registers of ports and host lanes, and what the return of an island leaves of them (R27, R345, R381). -/

namespace Sys2Proof.Machine

open Sys2Proof

/-- A register of a port or of a host lane by its place in its edge die's block. -/
def LinkReg (a : Nat) : Prop := 0x07000000 ≤ a ∧ 0x30000 ≤ a % 0x01000000 ∧ a % 0x01000000 < 0xC0000

theorem linkReg_lane {l : Nat} (o : Nat) (ho : o < 0x1000) : LinkReg (Reg.HLK_LANE_STAT l + o) := by
  unfold LinkReg Reg.HLK_LANE_STAT edgeBase
  omega

theorem linkReg_port {p : Nat} (o : Nat) (ho : o < 0x1000) : LinkReg (portReg p o) := by
  unfold LinkReg portReg Reg.CLV_PORT_STAT edgeBase
  omega

theorem blockStat_offset (b : Nat) : blockStat b % 0x01000000 < 0x30000 ∨ 0xC0000 ≤ blockStat b % 0x01000000 := by
  unfold blockStat Reg.CORE_ISLAND_STAT Reg.DIE_TEL_ISLAND_STAT Reg.EDGE_TEL_ISLAND_STAT coreBase dieBase edgeBase
  split
  · omega
  · split <;> omega

theorem reg_releaseHeld (s : State) (c a : Nat) : (s.releaseHeld c).reg a = s.reg a := by
  unfold State.releaseHeld
  exact pred_ite (P := fun u : State => u.reg a = s.reg a) rfl (State.reg_setCore s _ _ _)

theorem reg_releaseMsgs (s : State) (a : Nat) : s.releaseMsgs.reg a = s.reg a := rfl

section
variable {a : Nat} (ha : LinkReg a)
include ha

theorem LinkReg.lowPlace : LowPlace a := lowPlace_iff_offset ha.2.2

theorem LinkReg.evcPlace : evcPlace a = none := by
  obtain ⟨hlo, -, hhi⟩ := ha
  unfold Machine.evcPlace
  extract_lets w off
  have hw : 7 ≤ w := by
    unfold w
    omega
  rw [if_neg (by omega), if_neg (by omega), if_pos hhi]

theorem LinkReg.ne_global {b : Nat} (hb : b < 0x07000000) : a ≠ b := by
  obtain ⟨hlo, -, -⟩ := ha
  omega

theorem LinkReg.ne_blockStat (b : Nat) : a ≠ blockStat b := by
  obtain ⟨-, hlo, hhi⟩ := ha
  have hstat := blockStat_offset b
  rintro rfl
  omega

theorem LinkReg.reg_settleIsland (s : State) (i : Nat) : (s.settleIsland i).reg a = s.reg a := by
  unfold State.settleIsland
  extract_lets x own nbrs t
  have ht : t.reg a = s.reg a := State.reg_foldl _ a _ (fun s _ _ => by
    unfold State.countResync islandStat
    split
    · rename_i b h
      obtain rfl : blockStat i = b := by
        split at h
        · exact Option.some.inj h
        · cases h
      exact State.reg_setRegF_ne _ _ _ _ _ _ (ha.ne_blockStat i)
    · rfl) s
  exact pred_ite (P := fun u : State => u.reg a = s.reg a) rfl ht

theorem LinkReg.reg_releaseXfer (s : State) : s.releaseXfer.reg a = s.reg a := by
  unfold State.releaseXfer
  exact State.reg_foldl _ a _ (fun s x _ => ha.lowPlace.reg_linkSend s _ _) _

theorem LinkReg.reg_rejoin (s : State) (is : List Nat) : (s.rejoin is).reg a = s.reg a := by
  unfold State.rejoin
  extract_lets t u
  have ht : t.reg a = s.reg a := State.reg_foldl _ a _ (fun s _ _ => State.reg_setIsland s _ _ _) s
  have hu : u.reg a = t.reg a := State.reg_foldl _ a _ (fun s i _ => ha.reg_settleIsland s i) t
  have hv : ((List.range 54).foldl State.releaseHeld u).reg a = u.reg a :=
    State.reg_foldl _ a _ (fun s c _ => reg_releaseHeld s c a) u
  rw [ha.reg_releaseXfer, reg_releaseMsgs, hv, hu, ht]

/-- The return of an island of a link leaves the registers of links alone. -/
theorem LinkReg.reg_clockIn (s : State) {i : Nat} (hi : 54 ≤ i) : (s.clockIn i).reg a = s.reg a := by
  unfold State.clockIn
  refine pred_ite (P := fun u : State => u.reg a = s.reg a) rfl ?_
  unfold State.leaveReset
  rw [if_neg (Nat.not_lt.mpr hi)]
  exact pred_ite (P := fun u : State => u.reg a = s.reg a) (ha.reg_rejoin s _) (ha.reg_rejoin s _)

theorem LinkReg.reg_pump (s : State) (l : Nat) : (s.pump l).reg a = s.reg a := by
  unfold State.pump
  split
  · exact ha.lowPlace.reg_pumpOne s l
  · exact ha.lowPlace.reg_pumpLanes _ l s

theorem LinkReg.reg_breachOpen (s : State) (i : Nat) (b : BreachInfo) : (s.breachOpen i b).reg a = s.reg a :=
  Machine.reg_breachOpen s i b ha.evcPlace (ha.ne_global (by decide)) (ha.ne_global (by decide)) (ha.ne_global (by decide))

end

theorem ready_clockIn (s : State) (i : Nat) : ((s.clockIn i).island i).ready = true := by
  unfold State.clockIn
  by_cases h : (s.island i).ready = true
  · rw [if_pos h]
    exact h
  · rw [if_neg h]
    exact (s.island_leaveReset i).1

/-! ### The state of a link -/

/-- The register that shows a link's state. -/
def linkStat (l : Nat) : Nat := if l < 16 then portReg l 0 else Reg.HLK_LANE_STAT (l - 16)

theorem linkReg_linkStat (l : Nat) : LinkReg (linkStat l) := by
  unfold linkStat
  split
  · exact linkReg_port 0 (by decide)
  · exact linkReg_lane 0 (by decide)

theorem linkState_eq (s : State) (l : Nat) : s.linkState l = s.regF (linkStat l) 31 30 := by
  unfold State.linkState linkStat
  split <;> rfl

theorem setLinkState_eq (s : State) (l v : Nat) : s.setLinkState l v = s.setRegF (linkStat l) 31 30 v := by
  unfold State.setLinkState linkStat
  split <;> rfl

theorem linkState_of_reg {s t : State} {l : Nat} (h : t.reg (linkStat l) = s.reg (linkStat l)) :
    t.linkState l = s.linkState l := by
  rw [linkState_eq, State.regF, h, ← State.regF, linkState_eq]

theorem linkState_setLinkState (s : State) (l : Nat) {v : Nat} (hv : v < 4) : (s.setLinkState l v).linkState l = v := by
  rw [linkState_eq, setLinkState_eq, State.regF_setRegF_self _ _ _ (by decide)]
  exact Nat.mod_eq_of_lt hv

theorem linkStat_inj {l k : Nat} (hl : l < 18) (hk : k < 18) (h : linkStat l = linkStat k) : l = k := by
  unfold linkStat portReg Reg.CLV_PORT_STAT Reg.HLK_LANE_STAT edgeBase at h
  split at h <;> split at h <;> omega

end Sys2Proof.Machine
end

section
/-! The host lanes (R348, R350, R353, R378). -/

namespace Sys2Proof.Machine

open Sys2Proof

/-! ### Attempts and losses -/

theorem linkStat_lane (l : Lane) : linkStat (16 + l) = Reg.HLK_LANE_STAT l := by
  rw [linkStat, if_neg (by omega), Nat.add_sub_cancel_left]

/-- An attempt at training is counted, and nothing else of the registers changes (R318, R350). -/
theorem laneAttempt_spec (s : State) (l : Lane) : OnlyRegs s (s.laneAttempt l) ∧ (s.laneAttempt l).linkState (16 + l) = 1 ∧
    (s.laneAttempt l).regF (Reg.HLK_LANE_STAT l) 7 0 = min (s.regF (Reg.HLK_LANE_STAT l) 7 0 + 1) 255 ∧
    ∀ a, a ≠ Reg.HLK_LANE_STAT l → (s.laneAttempt l).reg a = s.reg a := by
  have hset := setLinkState_eq s (16 + l) 1
  rw [linkStat_lane] at hset
  unfold State.laneAttempt State.incF
  rw [hset]
  have hlow : (s.setRegF (Reg.HLK_LANE_STAT l) 31 30 1).regF (Reg.HLK_LANE_STAT l) 7 0 = s.regF (Reg.HLK_LANE_STAT l) 7 0 :=
    State.regF_setRegF_ne _ _ _ (by decide) (by decide) (.inr (by decide))
  refine ⟨(onlyRegs_setRegF s _ _ _ _).trans (onlyRegs_setRegF _ _ _ _ _), ?_, ?_, fun a ha => ?_⟩
  · rw [linkState_eq, linkStat_lane, State.regF_setRegF_ne _ _ _ (by decide) (by decide) (.inl (by decide)),
      State.regF_setRegF_self _ _ _ (by decide)]
    rfl
  · rw [State.regF_setRegF_self _ _ _ (by decide), hlow]
    have hle : min (s.regF (Reg.HLK_LANE_STAT l) 7 0 + 1) (2 ^ (7 + 1 - 0) - 1) < 2 ^ (7 + 1 - 0) := by omega
    exact Nat.mod_eq_of_lt hle
  · rw [State.reg_setRegF_ne _ _ _ _ _ _ ha, State.reg_setRegF_ne _ _ _ _ _ _ ha]

theorem laneLost_spec (s : State) (l : Lane) : (s.laneLost l).linkState (16 + l) = 1 ∧ (s.laneLost l).mem = s.mem :=
  ⟨(laneAttempt_spec _ l).2.1, (State.laneLost_same s (Same.refl s) l).mem⟩

/-! ### Coming up -/

theorem sends_adoptQueue (s : State) (l : Nat) : Sends s (s.adoptQueue l) := by
  unfold State.adoptQueue
  extract_lets o goes
  refine pred_ite (P := Sends s) (Sends.refl s) ?_
  have hne : o ≠ l := by
    unfold o
    omega
  have hfst : Sends s (s.setLink l { s.link l with txq := ((s.link o).txq.filter goes).foldl joinTurn (s.link l).txq }) :=
    sends_setLink s rfl
  refine hfst.trans (sends_setLink _ ?_)
  rw [State.link_setLink_ne _ _ _ _ hne]
  rfl

theorem reg_adoptQueue (s : State) (l a : Nat) : (s.adoptQueue l).reg a = s.reg a := by
  unfold State.adoptQueue
  extract_lets o goes
  exact pred_ite (P := fun u : State => u.reg a = s.reg a) rfl rfl

/-- A link with the credits that its partner's hello grants. -/
def LinkSt.helloed (k : LinkSt) (own credits : List Nat) : LinkSt :=
  { k with held := credits, heldMax := credits, granted := own, owed := [0, 0, 0, 0], helloSeen := true, trainStep := 4 }

/-- A link that comes up with its partner's credits (R314, R353). -/
theorem linkUp_spec (s : State) (l : Nat) (credits : List Nat) : (s.linkUp l credits).linkState l = 2 ∧
    ((s.linkUp l credits).link l).marker = (s.link l).marker ∧ ((s.linkUp l credits).link l).heldMax = credits ∧
    ((s.linkUp l credits).link l).granted = ownCredits l ∧
    (∀ i, ((s.linkUp l credits).island i).ready = (s.island i).ready) ∧ (s.linkUp l credits).mem = s.mem := by
  obtain ⟨t, ht⟩ : ∃ t, t = s.setLink l ((s.link l).helloed (ownCredits l) credits) := ⟨_, rfl⟩
  have hup : s.linkUp l credits = ((t.setLinkState l 2).adoptQueue l).pump l := by rw [ht]; rfl
  have hlink : t.link l = (s.link l).helloed (ownCredits l) credits := by rw [ht, State.link_setLink_self]
  have hisl (i : Nat) : t.island i = s.island i := by rw [ht, State.island_setLink]
  have hmem : t.mem = s.mem := by rw [ht, State.setLink_mem]
  have hset : Sends t (t.setLinkState l 2) := by
    rw [setLinkState_eq]
    exact sends_setRegF t _ _ _ _
  have hs := (hset.trans (sends_adoptQueue _ l)).trans (sends_pump _ l)
  rw [hup]
  refine ⟨?_, ?_, ?_, ?_, fun i => ?_, ?_⟩
  · rw [linkState_of_reg ((linkReg_linkStat l).reg_pump _ l), linkState_of_reg (reg_adoptQueue _ l _),
      linkState_setLinkState _ _ (by decide)]
  · rw [hs.marker, hlink]
    rfl
  · rw [hs.heldMax, hlink]
    rfl
  · rw [hs.granted, hlink]
    rfl
  · rw [hs.ready, hisl]
  · rw [hs.reports.mem, hmem]

/-- A lane whose training has begun, its receivers running. -/
def State.laneBegun (s : State) (l : Lane) : State :=
  (if s.linkState (16 + l) = 0 then s.laneAttempt l else s).clockIn (78 + l)

theorem laneBegun_spec {s : State} {l : Lane} (h : s.linkState (16 + l) ≠ 2) :
    (s.laneBegun l).linkState (16 + l) ≠ 2 ∧ ((s.laneBegun l).island (78 + l)).ready = true ∧
      (s.laneBegun l).mem = s.mem := by
  obtain ⟨honly, hstate, -⟩ := laneAttempt_spec s l
  refine ⟨?_, ready_clockIn _ _, ?_⟩
  · unfold State.laneBegun
    rw [linkState_of_reg ((linkReg_linkStat _).reg_clockIn _ (by omega))]
    split
    · rw [hstate]
      decide
    · exact h
  · unfold State.laneBegun
    refine (State.clockIn_same _ (Same.refl _) _).mem.trans ?_
    exact pred_ite (P := fun u : State => u.mem = s.mem) honly.mem rfl

theorem markerId_of_aligned {l : Nat} {mark : BitVec 5140} (h : hostAligned l mark = true) :
    BitVec.ofNat 16 (markerId mark) = (0xFFFD : BitVec 16) := by
  obtain ⟨-, hid⟩ := (Bool.and_eq_true _ _).mp h
  rw [of_decide_eq_true hid]
  rfl

/-- The hello of a lane: the credits that the module grants. -/
def State.laneHello (s : State) (l : Lane) (mark : BitVec 5140) : State :=
  (s.setLink (16 + l) { s.link (16 + l) with
    marker := some (markerCount mark, BitVec.ofNat 16 (markerId mark)) }).linkSend (16 + l)
    ⟨nhlHdr 0x40 3 0 0 0 0 0 ((ownCredits (16 + l)).zipIdx.foldl (fun n c => n + c.1 * 2 ^ (16 * c.2)) 0), []⟩

theorem laneHello_spec (s : State) (l : Lane) (mark : BitVec 5140) :
    ((s.laneHello l mark).link (16 + l)).marker = some (markerCount mark, BitVec.ofNat 16 (markerId mark)) ∧
    (∀ i, ((s.laneHello l mark).island i).ready = (s.island i).ready) ∧ (s.laneHello l mark).mem = s.mem := by
  unfold State.laneHello
  refine ⟨?_, fun i => ?_, ?_⟩
  · rw [(sends_linkSend _ _ _).marker, State.link_setLink_self]
  · rw [(sends_linkSend _ _ _).ready, State.island_setLink]
  · rw [(sends_linkSend _ _ _).reports.mem, State.setLink_mem]

theorem exec_hostLaneTrain {l : Lane} {s : State} (mark : BitVec 5140) (credits : BitVec 64)
    (h : s.linkState (16 + l) ≠ 2) (hk : s.keptInReset (78 + l) = false) :
    exec (.hostLaneTrain l ⟨mark, credits⟩) s =
      if hostAligned l mark = false then .next (s.laneBegun l)
      else .next (((s.laneBegun l).laneHello l mark).linkUp (16 + l)
        ((List.range 4).map fun v => fld credits.toNat (16 * v + 15) (16 * v))) := by
  have hexec : exec (.hostLaneTrain l ⟨mark, credits⟩) s = execHostLaneTrain l ⟨mark, credits⟩ s := rfl
  rw [hexec]
  unfold execHostLaneTrain
  rw [if_neg (by rw [hk]; rintro (h2 | h2); exacts [h h2, Bool.noConfusion h2])]
  rfl

/-- Settles O42: an attempt changes its lane's status alone (`laneAttempt_spec`), and a lane comes up with the credits
of its partner's hello (`linkUp_spec`). -/
theorem hostLanesTrain : Obligations.HostLanesTrain := by
  unfold Obligations.HostLanesTrain
  intro l s
  refine ⟨fun mark credits h hk ha => ?_, fun mark credits h hk ha => ?_, fun h => ?_, fun h => ?_,
    fun bytes fec r hr h => ⟨fun hready hok => ?_, fun hready => ?_⟩, fun q t hq => ?_, fun q t hq => ?_⟩
  · obtain ⟨hstate, hready, -⟩ := laneBegun_spec h
    exact ⟨_, (exec_hostLaneTrain mark credits h hk).trans (if_pos ha), hstate, hready⟩
  · obtain ⟨-, hready, hmem⟩ := laneBegun_spec h
    obtain ⟨hmark, hready', hmem'⟩ := laneHello_spec (s.laneBegun l) l mark
    obtain ⟨hstate, hmark', hmax, hown, hready'', hmem''⟩ := linkUp_spec ((s.laneBegun l).laneHello l mark) (16 + l)
      ((List.range 4).map fun v => fld credits.toNat (16 * v + 15) (16 * v))
    refine ⟨_, (exec_hostLaneTrain mark credits h hk).trans (if_neg (by rw [ha]; decide)), hstate, ?_, ?_, hmax, ?_, ?_⟩
    · rw [hready'', hready', hready]
    · rw [hmark', hmark, markerId_of_aligned ha]
    · rw [hown]
      exact if_neg (by omega)
    · rw [hmem'', hmem', hmem]
  · have hsilence : exec (.hostLaneSilence l) s = execHostLaneSilence l s := rfl
    have hfail : exec (.hostLaneFail l) s = execHostLaneFail l s := rfl
    rw [hsilence, hfail, execHostLaneSilence, execHostLaneFail, if_pos h]
    exact ⟨_, rfl, rfl, laneLost_spec s l⟩
  · have hexec : exec (.hostLaneTrainTimeout l) s = execHostLaneTrainTimeout l s := rfl
    rw [hexec, execHostLaneTrainTimeout, if_pos h]
    exact ⟨_, rfl, (laneAttempt_spec s l).2⟩
  · have hexec : exec (.hostFlitReceive l bytes fec) s = execHostFlitReceive l bytes fec s := rfl
    rw [hexec]
    unfold execHostFlitReceive
    rw [if_neg (by rw [h, hready]; rintro (h2 | h2); exacts [h2 rfl, Bool.noConfusion h2]), ← hr]
    dsimp only
    rw [if_pos hok]
  · have hexec : exec (.hostFlitReceive l bytes fec) s = execHostFlitReceive l bytes fec s := rfl
    rw [hexec]
    unfold execHostFlitReceive
    exact if_pos (.inr hready)
  · have hexec : exec (.nhlCredit l) s = execNhlCredit l s := rfl
    rw [hexec]
    unfold execNhlCredit
    simp only [hq]
  · have hexec : exec (.nhlNak l) s = execNhlNak l s := rfl
    rw [hexec]
    unfold execNhlNak
    simp only [hq]

end Sys2Proof.Machine
end

section
/-! SUPPORT. What the work of the engines and of the links on memory leaves alone: allocations, descriptors, the program,
feeds and windows. -/

namespace Sys2Proof.Machine

open Sys2Proof

/-- State t comes from s by reads and writes of memory, packets to send, and what the controller and the cores hold. -/
def Works (s t : State) : Prop :=
  t = { s with
    regs := t.regs, islands := t.islands, links := t.links, log := t.log, evtSeq := t.evtSeq, thrFired := t.thrFired,
    dies := t.dies, mem := t.mem, poison := t.poison, freeCtr := t.freeCtr, ctl := t.ctl, xfer := t.xfer,
    txFlows := t.txFlows, reads := t.reads, nextTag := t.nextTag, cores := t.cores }

namespace Works

theorem refl (s : State) : Works s s := rfl

theorem trans {s t u : State} (h : Works s t) (g : Works t u) : Works s u := by
  unfold Works at *
  rw [g, h]

theorem foldl {α : Type} {f : State → α → State} (h : ∀ s a, Works s (f s a)) (l : List α) (s : State) :
    Works s (l.foldl f s) := by
  induction l generalizing s with
  | nil => exact refl s
  | cons a l ih => exact (h s a).trans (ih (f s a))

/-- A fold that stages what it will write. -/
theorem foldl_fst {α β : Type} {f : State × β → α → State × β} (h : ∀ p a, Works p.1 (f p a).1) (l : List α)
    (p : State × β) : Works p.1 (l.foldl f p).1 := by
  induction l generalizing p with
  | nil => exact refl p.1
  | cons a l ih => exact (h p a).trans (ih (f p a))

theorem of_reports {s t : State} (h : Reports s t) : Works s t := by
  unfold Works Reports at *
  rw [h]

theorem of_snoops {s t : State} (h : Snoops s t) : Works s t := by
  unfold Works Snoops at *
  rw [h]

section
variable {s t : State} (h : Works s t)
include h

theorem allocs : t.allocs = s.allocs := by rw [h]
theorem descs : t.descs = s.descs := by rw [h]
theorem windows : t.windows = s.windows := by rw [h]
theorem feeds : t.feeds = s.feeds := by rw [h]
theorem prog : t.prog = s.prog := by rw [h]
theorem restored : t.restored = s.restored := by rw [h]

end

section
variable (s : State)

theorem stored (m : Memory) (p : List Nat) : Works s { s with mem := m, poison := p } := rfl
theorem poison (p : List Nat) : Works s { s with poison := p } := rfl
theorem ctl (c : Ctl) : Works s { s with ctl := c } := rfl
theorem freeCtr (n : Nat) : Works s { s with freeCtr := n } := rfl
theorem xfer (l : List HeldPkt) : Works s { s with xfer := l } := rfl
theorem reads (n : BitVec 16) (l : List ReadOut) : Works s { s with nextTag := n, reads := l } := rfl
theorem setTxFlow (k : Nat) (f : TxFlow) : Works s (s.setTxFlow k f) := rfl
theorem setReg (a : Nat) (v : Word) : Works s (s.setReg a v) := rfl
theorem setCore (c : Nat) (k : CoreSt) : Works s (s.setCore c k) := rfl

theorem put (w : Writer) (a : Nat) (bytes : List Byte) (bad : Bool) : Works s (s.put w a bytes bad) := by
  obtain ⟨p, hp⟩ := put_writes s w a bytes bad
  exact (stored s _ p).trans (of_snoops hp)

theorem commitStage (w : Writer) (bad : List Nat) (st : Staging) : Works s (s.commitStage w bad st).1 := by
  unfold State.commitStage
  extract_lets isBad bu t
  refine foldl (fun s r => ?_) _ s
  extract_lets u v
  exact pred_ite (P := Works s) (put s w _ _ _) ((put s w _ _ _).trans (poison v _))

theorem readRange (a n : Nat) : Works s (s.readRange a n) := of_reports (readRange_reports s a n)

theorem readRanges (l : List (Nat × Nat)) : Works s (s.readRanges l) := by
  unfold State.readRanges
  exact foldl (fun s r => readRange s r.1 r.2) l s

theorem drew (u : UGroup) (n : Nat) : Works s (s.drew u n) := pred_ite (P := Works s) (freeCtr s _) (refl s)

theorem copyBlockAt (d : Desc) (u : UGroup) (e j limit k : Nat) (st : Staging) :
    Works s (s.copyBlockAt d u e j limit k st).1 := (drew s u _).trans (setReg _ _ _)

theorem copySlot (d : Desc) (u : UGroup) (e j limit k : Nat) (st : Staging) :
    Works s (s.copySlot d u e j limit k st).1 := (drew s u _).trans (setReg _ _ _)

theorem copyOut (u : UGroup) (j limit : Nat) (want mine : Nat → Bool) : Works s (s.copyOut u j limit want mine) := by
  unfold State.copyOut
  split
  · exact refl s
  · extract_lets r
    have hr : Works s r.1 := foldl_fst (fun p k => by
      split
      · split
        · exact copyBlockAt p.1 _ _ _ _ _ _ _
        · exact refl p.1
      · split
        · exact copySlot p.1 _ _ _ _ _ _ _
        · exact refl p.1) _ (s, [])
    exact hr.trans (commitStage r.1 _ _ _)

theorem copyMasks (u : UGroup) (gen lo n : Nat) : Works s (s.copyMasks u gen lo n) := by
  unfold State.copyMasks
  split
  · exact put s _ _ _ _
  · exact refl s

theorem rewriteGroup (u : UGroup) (limit : Nat) : Works s (s.rewriteGroup u limit) := by
  unfold State.rewriteGroup
  extract_lets j t v
  have hv : Works t v := by
    unfold v
    split
    · exact copyMasks t _ _ _ _
    · exact refl t
  exact ((readRanges s _).trans hv).trans (copyOut v _ _ _ _ _)

theorem rewriteAll : Works s s.rewriteAll := by
  unfold State.rewriteAll
  split
  · exact foldl (fun s u => rewriteGroup s u _) _ s
  · exact refl s

theorem scatter (R : Ring) (r j : Nat) (payload : List Byte) : Works s (s.scatter R r j payload) := by
  unfold State.scatter
  split
  · exact refl s
  · exact commitStage s _ _ _

theorem workColl (half idx : Nat) : Works s (s.workColl half idx) := setReg s _ _

theorem restColl (idx : Nat) : Works s (s.restColl idx) :=
  foldl (fun s _ => pred_ite (P := Works s) (setReg s _ _) (refl s)) _ s

theorem countChunk (half : Nat) : Works s (s.countChunk half) := (setReg s _ _).trans (of_reports (count_reports _ _ _ _ _))

theorem sendFrom (e l : Nat) (p : Pkt) : Works s (s.sendFrom e l p) :=
  pred_ite (P := Works s) (of_reports (linkSend_reports s l p)) (xfer s _)

theorem transmit (mirror : Bool) (e : Nat) (q : Pkt) : Works s (s.transmit mirror e q) := by
  unfold State.transmit
  split
  · split
    · exact (pred_ite (P := Works s) (of_reports (count_reports s _ _ _ _)) (refl s)).trans (sendFrom _ _ _ _)
    · exact refl s
  · unfold State.sendRouted
    split
    · exact sendFrom s _ _ _
    · exact refl s

theorem e2eSend (e peer vc flow opcode ops : Nat) (payload : List Byte) :
    Works s (s.e2eSend e peer vc flow opcode ops payload) :=
  pred_ite (P := Works s) ((setTxFlow s _ _).trans (transmit _ _ _ _)) (setTxFlow s _ _)

theorem sendColl (half op : Nat) (R : Ring) (step chunk : Nat) (payload : List Byte) :
    Works s (s.sendColl half op R step chunk payload) := by
  unfold State.sendColl
  exact ((pred_ite (P := Works s) (ctl s _) (refl s)).trans (workColl _ _ _)).trans (e2eSend _ _ _ _ _ _ _ _)

theorem gatherChunk (half : Nat) (R : Ring) (step r j : Nat) (payload : List Byte) (own : Bool) :
    Works s (s.gatherChunk half R step r j payload own) := by
  unfold State.gatherChunk
  extract_lets +onlyGivenNames c t k u v w
  have hu : Works t u := pred_ite (P := Works t) (refl t) (ctl t _)
  have hw : Works v w := pred_ite (P := Works v) (restColl v _) (refl v)
  have hsw := (((scatter s R r j payload).trans hu).trans (workColl u half R.idx)).trans hw
  refine pred_ite (P := Works s) hsw ((hsw.trans ?_).trans (sendColl _ _ _ _ _ _ _))
  exact pred_ite (P := Works w) (refl w) (countChunk w half)

theorem readElems (l : List (Desc × List Nat)) : Works s (s.readElems l) :=
  foldl (fun s u => of_reports (readUnit_reports s u)) _ s

theorem gatherRead (d : Desc) (lo count : Nat) : Works s (s.gatherRead d lo count) := by
  unfold State.gatherRead
  refine pred_ite (P := Works s) (readElems s _) ?_
  exact pred_ite (P := Works s) (refl s) (readRange s _ _)

theorem startGather (R : Ring) (step : Nat) : Works s (s.startGather R step) := by
  unfold State.startGather
  dsimp only
  split
  · exact refl s
  · rename_i d _
    refine pred_ite (P := Works s) (foldl (fun s j => ?_) _ s) (refl s)
    exact (gatherRead s d _ _).trans (gatherChunk _ _ R step _ _ _ _)

theorem regather : Works s s.regather := by
  unfold State.regather
  split
  · exact refl s
  · refine foldl (fun s i => ?_) _ s
    split
    · exact pred_ite (P := Works s) (startGather s _ _) (refl s)
    · exact refl s

theorem sendRead (e node addr n : Nat) (use : ReadUse) : Works s (s.sendRead e node addr n use) :=
  (reads s _ _).trans (e2eSend _ _ _ _ _ _ _ _)

theorem pairCheck : Works s s.pairCheck := by
  unfold State.pairCheck
  split
  · exact refl s
  · refine pred_ite (P := Works s) (refl s) ?_
    split
    · exact sendRead s _ _ _ _ _
    · exact refl s

end

end Works

end Sys2Proof.Machine
end

section
/-! The states of a program (R360, R363 to R365, R431, R441, R442). -/

namespace Sys2Proof.Machine

open Sys2Proof

/-! ### The state of the module -/

/-- The state that a change of state shows. -/
theorem mode_setMode (s : State) {m : Nat} (hm : m < 8) : (s.setMode m).mode = m := by
  have h : (s.setMode m).reg Reg.GLB_STATE = (s.setRegF Reg.GLB_STATE 2 0 m).reg Reg.GLB_STATE := by
    unfold State.setMode State.announce State.announceBy
    rw [State.reg_sendEvent _ _ _ _ (by decide)]
    exact State.reg_addLog _ _ _ _ _
  rw [State.mode, State.regF, h, ← State.regF, State.regF_setRegF_self _ _ _ (by decide)]
  exact Nat.mod_eq_of_lt hm

/-- The state's other fields are as before. -/
theorem regF_setMode (s : State) (m : Nat) {hi lo : Nat} (hhi : hi < 32) (hlo : 2 < lo) :
    (s.setMode m).regF Reg.GLB_STATE hi lo = s.regF Reg.GLB_STATE hi lo := by
  have h : (s.setMode m).reg Reg.GLB_STATE = (s.setRegF Reg.GLB_STATE 2 0 m).reg Reg.GLB_STATE := by
    unfold State.setMode State.announce State.announceBy
    rw [State.reg_sendEvent _ _ _ _ (by decide)]
    exact State.reg_addLog _ _ _ _ _
  rw [State.regF, h, ← State.regF, State.regF_setRegF_ne _ _ _ hhi (by decide) (.inl hlo)]

/-- Every module HOLD that waits is answered, and none waits any more. -/
theorem answerHolds_spec (s : State) (status detail : Nat) : (s.answerHolds status detail).ctl.holdWaiters = [] ∧
    (∀ a, evcPlace a = none → a ≠ Reg.GLB_STATE → (s.answerHolds status detail).reg a = s.reg a) ∧
    ∀ hi lo, hi < 32 → hi < 3 ∨ 3 < lo →
      (s.answerHolds status detail).regF Reg.GLB_STATE hi lo = s.regF Reg.GLB_STATE hi lo := by
  unfold State.answerHolds
  extract_lets l k t
  obtain ⟨u, hu⟩ : ∃ u, u = l.foldl (fun s h => s.respond h cmdHOLD status detail []) t := ⟨_, rfl⟩
  have ha : Answers t u := by
    rw [hu]
    exact List.foldlRecOn l _ (motive := Answers t) (Answers.refl t) fun v hv h _ => hv.trans (Answers.respond v h _ _ _ _)
  have htreg (a : Nat) : t.reg a = s.reg a := rfl
  rw [← hu]
  refine ⟨?_, fun a he hne => ?_, fun hi lo hhi hd => ?_⟩
  · have hc : (u.setRegF Reg.GLB_STATE 3 3 0).ctl = u.ctl := rfl
    rw [hc, ha.ctl]
  · rw [State.reg_setRegF_ne _ _ _ _ _ _ hne, ha.reg a he, htreg]
  · rw [State.regF_setRegF_ne _ _ _ hhi (by decide) (by omega), ha.regF (by decide), State.regF, htreg, State.regF]

/-- The state of a module that holds (R364). -/
theorem enterHolding_spec (s : State) {cause : Nat} (hc : cause < 16) : (s.enterHolding cause).mode = 4 ∧
    (s.enterHolding cause).regF Reg.GLB_STATE 7 4 = cause ∧ (s.enterHolding cause).ctl.holdWaiters = [] ∧
    (s.enterHolding cause).mem = s.mem := by
  obtain ⟨t, ht⟩ : ∃ t : State, t = { s with ctl := { s.ctl with feedWait := none, mustRun := s.committed } } := ⟨_, rfl⟩
  have he : s.enterHolding cause = ((t.setRegF Reg.GLB_STATE 7 4 cause).setMode 4).answerHolds 0 0 := by rw [ht]; rfl
  obtain ⟨hwait, -, hfields⟩ := answerHolds_spec ((t.setRegF Reg.GLB_STATE 7 4 cause).setMode 4) 0 0
  rw [← he] at hwait hfields
  refine ⟨?_, ?_, hwait, (enterHolding_declares s cause).mem⟩
  · rw [State.mode, hfields 2 0 (by decide) (.inl (by decide)), ← State.mode, mode_setMode _ (by decide)]
  · rw [hfields 7 4 (by decide) (.inr (by decide)), regF_setMode _ _ (by decide) (by decide),
      State.regF_setRegF_self _ _ _ (by decide)]
    exact Nat.mod_eq_of_lt hc

/-! ### RUN -/

/-- The limit is set, and the loss of the pair is forgotten. -/
def State.limited (s : State) (limit : Nat) : State :=
  (s.setReg Reg.GLB_STEP_LIMIT (BitVec.ofNat 32 limit)).setRegF Reg.FLT_STAT 29 29 0

theorem limited_onlyRegs (s : State) (limit : Nat) : OnlyRegs s (s.limited limit) :=
  (onlyRegs_setReg s _ _).trans (onlyRegs_setRegF _ _ _ _ _)

theorem reg_limited (s : State) (limit : Nat) : (s.limited limit).reg Reg.GLB_STEP_LIMIT = BitVec.ofNat 32 limit ∧
    ∀ a, a ≠ Reg.GLB_STEP_LIMIT → a ≠ Reg.FLT_STAT → (s.limited limit).reg a = s.reg a := by
  unfold State.limited
  refine ⟨?_, fun a hl hf => ?_⟩
  · rw [State.reg_setRegF_ne _ _ _ _ _ _ (by decide), State.reg_setReg_self]
  · rw [State.reg_setRegF_ne _ _ _ _ _ _ hf, State.reg_setReg_ne _ _ _ _ hl]

/-- The state in which a `RUN` is answered. -/
def State.ran (s : State) (limit : Nat) : State :=
  let again := decide (s.mode = 4) || s.restored
  let s := s.limited limit
  let s := if again then s.rewriteAll else s
  let s := if s.restored then { s.regather with restored := false } else s
  s.pairCheck.setMode 3

theorem exec_run {h : HostCmd} {s : State} (heff : s.Effective h 0x32) : exec (.run h) s =
    .next (if s.runLimit (harg h 3 0) ≠ 0 ∧ s.runLimit (harg h 3 0) ≤ s.committed then
      s.respond h 0x32 0x10 s.committed [] else (s.ran (s.runLimit (harg h 3 0))).ok h 0x32) := by
  have hexec : exec (.run h) s = execRun h s := rfl
  rw [hexec]
  unfold execRun
  rw [State.hostRun_of_effective heff (by decide)]
  rfl

theorem ran_books (s : State) (limit : Nat) : (s.ran limit).restored = false ∧ (s.ran limit).allocs = s.allocs ∧
    (s.ran limit).windows = s.windows := by
  unfold State.ran
  extract_lets again t u g v
  have ht : OnlyRegs s t := limited_onlyRegs s limit
  have hu : Works t u := pred_ite (P := Works t) (Works.rewriteAll t) (Works.refl t)
  obtain ⟨hr, ha, hw⟩ : v.restored = false ∧ v.allocs = u.allocs ∧ v.windows = u.windows := by
    unfold v
    by_cases hr : u.restored = true
    · rw [if_pos hr]
      exact ⟨rfl, (Works.regather u).allocs, (Works.regather u).windows⟩
    · rw [if_neg hr]
      exact ⟨Bool.eq_false_iff.mpr hr, rfl, rfl⟩
  have hend : Works v (v.pairCheck.setMode 3) := (Works.pairCheck v).trans (Works.of_reports (setMode_reports _ 3))
  refine ⟨hend.restored.trans hr, hend.allocs.trans (ha.trans (hu.allocs.trans ?_)),
    hend.windows.trans (hw.trans (hu.windows.trans ?_))⟩
  · rw [ht]
  · rw [ht]

/-- A program that runs for the first time, on a module without a twin: the limit is set, and nothing is written again. -/
theorem ran_first (s : State) (limit : Nat) (hmode : s.mode = 2) (hr : s.restored = false) (htwin : s.hasTwin = false) :
    (s.ran limit).reg Reg.GLB_STEP_LIMIT = BitVec.ofNat 32 limit ∧ (s.ran limit).committed = s.committed := by
  obtain ⟨hlimit, hreg⟩ := reg_limited s limit
  have honly := limited_onlyRegs s limit
  unfold State.ran
  rw [hmode, hr]
  generalize s.limited limit = t at *
  have htr : t.restored = false := by rw [honly, hr]
  have htt : t.hasTwin = false := by
    rw [← htwin, State.hasTwin, hreg _ (by decide) (by decide), State.hasTwin]
  have hpair : t.pairCheck = t := by
    unfold State.pairCheck
    rw [htt]
    cases t.prog with
    | none => rfl
    | some p => exact if_pos (by rw [Bool.not_false, Bool.true_or])
  have hagain : (if (decide (2 = 4) || false) = true then t.rewriteAll else t) = t := if_neg (by decide)
  dsimp only
  rw [hagain, if_neg (by rw [htr]; decide), hpair]
  constructor
  · rw [State.reg_setMode_ne _ _ _ (by decide) (by decide), hlimit]
  · rw [State.committed, State.reg_setMode_ne _ _ _ (by decide) (by decide), hreg _ (by decide) (by decide), State.committed]

/-! ### UNLOAD -/

theorem freeAlloc_feeds (s : State) (id : Nat) : (s.freeAlloc id).feeds = s.feeds ∧ (s.freeAlloc id).windows = s.windows := by
  unfold State.freeAlloc
  split
  · exact ⟨rfl, rfl⟩
  · exact pred_ite (P := fun t : State => t.feeds = s.feeds ∧ t.windows = s.windows) ⟨rfl, rfl⟩ ⟨rfl, rfl⟩

theorem freeAllocs_feeds (ids : List Nat) (s : State) :
    (ids.foldl State.freeAlloc s).feeds = s.feeds ∧ (ids.foldl State.freeAlloc s).windows = s.windows :=
  List.foldlRecOn ids _ (motive := fun t : State => t.feeds = s.feeds ∧ t.windows = s.windows) ⟨rfl, rfl⟩
    fun t ht id _ => ⟨(freeAlloc_feeds t id).1.trans ht.1, (freeAlloc_feeds t id).2.trans ht.2⟩

theorem ungate_works (s : State) (c : Nat) : Works s (s.ungate c) :=
  (Works.setCore s _ _).trans ((Works.setReg _ _ _).trans (Works.setReg _ _ _))

theorem sendCmd_works (s : State) (c : Nat) (w : CmdWord) : Works s (s.sendCmd c w) := by
  unfold State.sendCmd
  refine Works.trans (t := s.sendCore c [w]) ?_ (Works.ctl _ _)
  exact pred_ite (P := Works s) (Works.setCore s _ _) (Works.setCore s _ _)

theorem unbind_works (s : State) (stages : List Stage) : Works s (s.unbind stages) := by
  unfold State.unbind
  extract_lets t
  have ht : Works s t := Works.foldl (fun s st => sendCmd_works s _ _) _ s
  refine ht.trans (Works.foldl (fun s c => ?_) _ t)
  refine pred_ite (P := Works s) ?_ (Works.refl s)
  exact (Works.setReg s _ _).trans (pred_ite (P := Works _) (ungate_works _ _) (Works.refl _))

theorem unload_spec (s : State) : s.unload.mode = 1 ∧ s.unload.prog = none ∧ s.unload.feeds = [] ∧ s.unload.windows = [] ∧
    s.unload.mem = s.mem := by
  have hmem := (State.unload_same s (Same.refl s)).mem
  revert hmem
  unfold State.unload
  extract_lets gone descs own stages t u v w
  intro hmem
  obtain ⟨hfeeds, hwindows⟩ := freeAllocs_feeds own t
  have hu : Works (own.foldl State.freeAlloc t) u := unbind_works _ stages
  have hw : Works v w := Works.foldl (fun s c => Works.setReg s _ _) _ v
  have hwords (x : State) (a : Nat) (l : List Byte) : Works x (x.setWords a l) :=
    Works.foldl (fun s _ => Works.setReg s _ _) _ x
  have hend : Works v ((w.setWords (Reg.SEC_IMG_MEAS 0) (List.replicate 64 0)).setMode 1) :=
    (hw.trans (hwords w _ _)).trans (Works.of_reports (setMode_reports _ 1))
  exact ⟨mode_setMode _ (by decide), hend.prog, hend.feeds.trans (hu.feeds.trans hfeeds),
    hend.windows.trans (hu.windows.trans hwindows), hmem⟩

/-! ### HOLD -/

/-- The command waits for the module to hold, which `GLB_STATE` shows (R364). -/
def State.holdAsked (s : State) (h : HostCmd) : State :=
  ({ s with ctl := { s.ctl with holdWaiters := s.ctl.holdWaiters ++ [h] } }).setRegF Reg.GLB_STATE 3 3 1

theorem exec_hold {h : HostCmd} {s : State} (heff : s.Effective h 0x33) (hw : s.ctl.holdWaiters.contains h = false) :
    exec (.hold h) s = .next (if s.ctl.mustRun ≤ s.committed then (s.holdAsked h).enterHolding 1 else s.holdAsked h) := by
  have hexec : exec (.hold h) s = execHold h s := rfl
  have hmust : (s.holdAsked h).ctl.mustRun = s.ctl.mustRun := rfl
  have hcom : (s.holdAsked h).committed = s.committed := by
    unfold State.holdAsked State.committed
    rw [State.reg_setRegF_ne _ _ _ _ _ _ (by decide)]
    rfl
  rw [hexec]
  unfold execHold
  rw [hw, if_neg Bool.false_ne_true, State.hostRun_of_effective heff (by decide), ← hmust, ← hcom]
  rfl

theorem holdAsked_spec (s : State) (h : HostCmd) : (s.holdAsked h).mode = s.mode ∧
    bit ((s.holdAsked h).reg Reg.GLB_STATE).toNat 3 = true ∧
    (s.holdAsked h).ctl.holdWaiters = s.ctl.holdWaiters ++ [h] ∧ (s.holdAsked h).mem = s.mem := by
  unfold State.holdAsked
  refine ⟨?_, ?_, rfl, rfl⟩
  · rw [State.mode, State.regF_setRegF_ne _ _ _ (by decide) (by decide) (.inr (by decide))]
    rfl
  · rw [bit_setRegF_one _ _ (by decide)]
    rfl

/-! ### LOAD -/

section
variable {h : HostCmd} {s : State} (heff : s.Effective h 0x30)
include heff

theorem exec_load_none (hroom : s.roomAt (harg h 5 0) = none) : exec (.load h) s = .next (s.respond h 0x30 0xC 0 []) := by
  have hexec : exec (.load h) s = execLoad h s := rfl
  rw [hexec]
  unfold execLoad
  simp only [hroom]
  refine (heldRun_of_effective heff (by decide) _).trans ?_
  simp only [hroom]

theorem exec_load_waits {room : Nat} (hroom : s.roomAt (harg h 5 0) = some room)
    (hreach : s.loadReach (harg h 5 0) room = false) : exec (.load h) s = .next s := by
  have hexec : exec (.load h) s = execLoad h s := rfl
  rw [hexec]
  unfold execLoad
  simp only [hroom, hreach]
  exact heldRun_waits heff (by decide) _

theorem exec_load {room : Nat} (hroom : s.roomAt (harg h 5 0) = some room)
    (hreach : s.loadReach (harg h 5 0) room = true) : exec (.load h) s =
      .next ((s.loadAt (harg h 5 0) room).2.respond h 0x30 (s.loadAt (harg h 5 0) room).1
        ((s.loadAt (harg h 5 0) room).2.reg Reg.GLB_LOAD_STAT).toNat []) := by
  have hexec : exec (.load h) s = execLoad h s := rfl
  rw [hexec]
  unfold execLoad
  simp only [hroom, hreach]
  refine (heldRun_of_effective heff (by decide) _).trans ?_
  simp only [hroom]

end

/-- A program that the loader takes is loaded. -/
theorem loadAt_mode {s u : State} {a room : Nat} {p : Prog} {l : List Nat}
    (hok : s.checkImage a room = .ok (p, l, u)) :
    (s.loadAt a room).2.mode = 2 := by
  unfold State.loadAt
  rw [hok]
  exact mode_setMode _ (by decide)

/-! ### MODULE_RESET -/

theorem opcode_event (seq code : Nat) (payload : List Byte) :
    Pkt.opcode ⟨nhlHdr 0x12 2 32 0 0 code seq 0, payload⟩ = 0x12 := by
  unfold Pkt.opcode Pkt.fld Machine.fld nhlHdr
  simp only [BitVec.toNat_ofNat]
  omega

/-- An event joins the queue of a lane, if any; what a link has sent stays as it is. -/
theorem link_queueEvent (s : State) (code : Nat) (payload : List Byte) (l : Nat) :
    ((s.queueEvent code payload).link l).wire = (s.link l).wire ∧
      ∀ p ∈ ((s.queueEvent code payload).link l).txq, p ∈ (s.link l).txq ∨ p.opcode = 0x12 := by
  unfold State.queueEvent
  split
  · unfold State.enqueue
    by_cases hl : l = 16 + s.hostLane 0
    · rw [hl, State.link_setLink_self]
      refine ⟨rfl, fun p hp => ?_⟩
      refine (List.mem_append.mp hp).imp id fun hp => ?_
      rw [List.mem_singleton.mp hp]
      exact opcode_event _ _ _
    · rw [State.link_setLink_ne _ _ _ _ hl]
      exact ⟨rfl, fun p hp => .inl hp⟩
  · exact ⟨rfl, fun p hp => .inl hp⟩

theorem link_cleared (s : State) (l : Nat) : s.cleared.link l = LinkSt.reset := by
  rw [State.link, cleared_onlyRegs s]
  rfl

/-- What outlives a reset, and what the host lanes have sent. -/
theorem keepWire_spec (t s : State) : t.keepWire s = { t with links := (t.keepWire s).links } ∧
    ∀ l : Lane, (t.keepWire s).link (16 + l) = { t.link (16 + l) with wire := (s.link (16 + l)).wire } := by
  have hk : t.keepWire s = (t.setLink 16 { t.link 16 with wire := (s.link 16).wire }).setLink 17
      { (t.setLink 16 { t.link 16 with wire := (s.link 16).wire }).link 17 with wire := (s.link 17).wire } := rfl
  refine ⟨by rw [hk]; rfl, Fin.forall_fin_two.mpr ⟨?_, ?_⟩⟩
  · rw [hk]
    exact (State.link_setLink_ne _ _ _ _ (by decide)).trans (State.link_setLink_self _ _ _)
  · rw [hk]
    refine (State.link_setLink_self _ _ _).trans ?_
    rw [State.link_setLink_ne _ _ _ _ (by decide)]
    rfl

theorem exec_moduleReset {h : HostCmd} {s : State} (heff : s.Effective h 0x34) : exec (.moduleReset h) s =
    .next (((s.ok h 0x34).cleared.keepWire (s.ok h 0x34)).setMode 0) := by
  have hexec : exec (.moduleReset h) s = execModuleReset h s := rfl
  rw [hexec]
  exact State.hostRun_of_effective heff (by decide) _

/-- The state after a reset of the module with what its lanes have sent (R365). -/
def State.afterReset (s : State) : State := (s.cleared.keepWire s).setMode 0

theorem afterReset_spec (s : State) : s.afterReset.mode = 0 ∧ (∀ a, ¬ShowsOtp a → s.afterReset.reg a = regReset a) ∧
    s.afterReset.regF Reg.SEC_STAT 22 16 = s.otp.svn % 128 ∧
    s.afterReset.regF Reg.SEC_STAT 31 31 = s.otp.ident.isSome.toNat := by
  obtain ⟨hkeep, -⟩ := keepWire_spec s.cleared s
  have hregs : (s.cleared.keepWire s).regs = s.cleared.regs := by rw [hkeep]
  have hlog : (s.cleared.keepWire s).log = [] := by
    rw [hkeep]
    exact (by rw [cleared_onlyRegs s]; rfl : s.cleared.log = [])
  have hdown : LanesDown (s.cleared.keepWire s) :=
    (lanesDown_cleared s).congr fun e _ => by rw [State.reg, hregs, State.reg]
  obtain ⟨hmode, hreg, hsvn, hid, -⟩ := setMode_cleared s hdown hregs hlog
  exact ⟨hmode, hreg, hsvn, hid⟩

theorem afterReset_parts (s : State) : s.afterReset.mem = [] ∧ s.afterReset.prog = none ∧ s.afterReset.allocs = [] ∧
    s.afterReset.descs = [] ∧ s.afterReset.flash = s.flash ∧ s.afterReset.otp = s.otp := by
  obtain ⟨hkeep, -⟩ := keepWire_spec s.cleared s
  have hrep : Reports (s.cleared.keepWire s) s.afterReset := setMode_reports _ 0
  have honly := cleared_onlyRegs s
  refine ⟨?_, ?_, ?_, ?_, ?_, ?_⟩ <;> rw [hrep] <;> dsimp only <;> rw [hkeep] <;> dsimp only <;> rw [honly] <;> rfl

theorem regReset_lane (l : Lane) : fld (regReset (Reg.HLK_LANE_STAT l)).toNat 31 30 = 0 := by
  revert l
  decide

/-- The lanes after a reset: untrained, with what they have sent, and the event of the change of state may wait. -/
theorem afterReset_lanes (s : State) (l : Lane) : s.afterReset.linkState (16 + l) = 0 ∧
    (s.afterReset.link (16 + l)).wire = (s.link (16 + l)).wire ∧
    ∀ p ∈ (s.afterReset.link (16 + l)).txq, p.opcode = 0x12 := by
  obtain ⟨hkeep, hlinks⟩ := keepWire_spec s.cleared s
  obtain ⟨-, hreg, -⟩ := afterReset_spec s
  have hdown : LanesDown (s.cleared.keepWire s) :=
    (lanesDown_cleared s).congr fun e _ => by rw [State.reg, hkeep, State.reg]
  have hlink := hlinks l
  rw [link_cleared] at hlink
  refine ⟨?_, ?_⟩
  · rw [linkState_eq, linkStat_lane, State.regF, hreg]
    · exact regReset_lane l
    · refine not_showsOtp ?_ fun j hj => ?_
      · unfold Reg.HLK_LANE_STAT edgeBase Reg.SEC_STAT
        omega
      · unfold Reg.HLK_LANE_STAT edgeBase Reg.SEC_ID_PUB
        omega
  · unfold State.afterReset
    rw [setMode_of_down hdown]
    generalize s.cleared.keepWire s = t at *
    have ht : ((t.setRegF Reg.GLB_STATE 2 0 0).addLog (t.setRegF Reg.GLB_STATE 2 0 0).ctlIsl 1 0).link (16 + l) =
        t.link (16 + l) := rfl
    obtain ⟨hwire, htxq⟩ := link_queueEvent ((t.setRegF Reg.GLB_STATE 2 0 0).addLog (t.setRegF Reg.GLB_STATE 2 0 0).ctlIsl 1 0)
      1 (eventPayload ((t.setRegF Reg.GLB_STATE 2 0 0).stamp (t.setRegF Reg.GLB_STATE 2 0 0).ctlIsl)
        [0, (t.setRegF Reg.GLB_STATE 2 0 0).regF Reg.GLB_STATE 7 4]) (16 + l)
    rw [ht, hlink] at hwire htxq
    refine ⟨hwire, fun p hp => (htxq p hp).resolve_left fun h => ?_⟩
    exact List.not_mem_nil h

/-- Settles O47: each command through the state in which it is answered (`State.ran`, `State.holdAsked`,
`State.unload`, `State.loadAt`, `State.afterReset`). -/
theorem programCommandsChangeTheState : Obligations.ProgramCommandsChangeTheState := by
  unfold Obligations.ProgramCommandsChangeTheState
  intro h s
  refine ⟨fun limit heff hlimit => ⟨fun hok => ?_, fun hne hle => ?_⟩, fun heff hw => ⟨fun hlt => ?_, fun hle => ?_⟩,
    fun heff => ?_, fun a heff ha => ⟨fun hroom => ?_, fun room hroom => ⟨fun hreach => ?_, fun hreach => ?_,
      fun p l u hreach hok => ?_⟩⟩, fun heff => ?_⟩
  · have hanswer := Answers.respond (s.ran limit) h 0x32 0 0 []
    obtain ⟨hrestored, hallocs, hwindows⟩ := ran_books s limit
    refine ⟨(s.ran limit).ok h 0x32, ?_, hanswer.mode.trans (mode_setMode _ (by decide)), hanswer.restored.trans hrestored,
      hanswer.allocs.trans hallocs, hanswer.windows.trans hwindows, fun hmode hr htwin => ?_⟩
    · rw [exec_run heff, ← hlimit, if_neg fun ⟨hne, hle⟩ => hok.elim hne (Nat.not_lt.mpr hle)]
    · obtain ⟨hreg, hcom⟩ := ran_first s limit hmode hr htwin
      refine ⟨(hanswer.reg _ (by decide)).trans hreg, ?_⟩
      rw [State.committed, State.ok, hanswer.reg _ (by decide), ← State.committed, hcom]
  · rw [exec_run heff, ← hlimit, if_pos ⟨hne, hle⟩]
  · rw [exec_hold heff hw, if_neg (Nat.not_le.mpr hlt)]
    exact ⟨_, rfl, holdAsked_spec s h⟩
  · rw [exec_hold heff hw, if_pos hle]
    obtain ⟨hmode, hcause, hwait, hmem⟩ := enterHolding_spec (s.holdAsked h) (cause := 1) (by decide)
    exact ⟨_, rfl, hmode, hcause, hwait, hmem.trans (holdAsked_spec s h).2.2.2⟩
  · have hexec : exec (.unload h) s = execUnload h s := rfl
    rw [hexec, execUnload, State.hostRun_of_effective heff (by decide)]
    have hanswer := Answers.respond s.unload h 0x31 0 0 []
    obtain ⟨hmode, hprog, hfeeds, hwindows, hmem⟩ := unload_spec s
    exact ⟨_, rfl, hanswer.mode.trans hmode, hanswer.prog.trans hprog, hanswer.feeds.trans hfeeds,
      hanswer.windows.trans hwindows, hanswer.mem.trans hmem⟩
  · subst ha
    exact exec_load_none heff hroom
  · subst ha
    exact exec_load_waits heff hroom hreach
  · subst ha
    exact exec_load heff hroom hreach
  · subst ha
    exact ⟨_, exec_load heff hroom hreach, (Answers.respond _ h 0x30 _ _ _).mode.trans (loadAt_mode hok)⟩
  · have hanswer := Answers.respond s h 0x34 0 0 []
    obtain ⟨hmode, hreg, hsvn, hid⟩ := afterReset_spec (s.ok h 0x34)
    obtain ⟨hmem, hprog, hallocs, hdescs, hflash, hotp⟩ := afterReset_parts (s.ok h 0x34)
    have hotp' : (s.ok h 0x34).otp = s.otp := hanswer.otp
    rw [hotp'] at hsvn hid
    exact ⟨(s.ok h 0x34).afterReset, exec_moduleReset heff, hmode, fun a hstat hpub => hreg a (not_showsOtp hstat hpub), hsvn,
      hid, hmem, hprog, hallocs, hdescs, hflash.trans hanswer.flash, hotp.trans hotp', afterReset_lanes (s.ok h 0x34)⟩

end Sys2Proof.Machine
end

section
/-! Start-up (R419, R421, R423, R426, R430, R431, R433). -/

namespace Sys2Proof.Machine

open Sys2Proof

/-! ### Failures of start-up -/

/-- A start-up that fails: `RETIRED` in phase 15 with its cause (R419). -/
theorem bootFail_spec (s : State) {cause : Nat} (hc : cause < 16) : (s.bootFail cause).mode = 6 ∧
    (s.bootFail cause).regF Reg.BOOT_STAT 31 28 = 15 ∧ (s.bootFail cause).regF Reg.BOOT_STAT 27 24 = cause ∧
    (s.bootFail cause).flash = s.flash ∧ (s.bootFail cause).otp = s.otp := by
  obtain ⟨t, ht⟩ : ∃ t, t = (s.setRegF Reg.BOOT_STAT 27 24 cause).setRegF Reg.BOOT_STAT 31 28 15 := ⟨_, rfl⟩
  have hfail : s.bootFail cause = t.setMode 6 := by rw [ht]; rfl
  have honly : OnlyRegs s t := by
    rw [ht]
    exact (onlyRegs_setRegF s _ _ _ _).trans (onlyRegs_setRegF _ _ _ _ _)
  have hrep : Reports t (t.setMode 6) := setMode_reports t 6
  have hreg (hi lo : Nat) : (t.setMode 6).regF Reg.BOOT_STAT hi lo = t.regF Reg.BOOT_STAT hi lo := by
    rw [State.regF, State.reg_setMode_ne _ _ _ (by decide) (by decide), State.regF]
  rw [hfail]
  refine ⟨mode_setMode t (by decide), ?_, ?_, ?_, ?_⟩
  · rw [hreg, ht, State.regF_setRegF_self _ _ _ (by decide)]
    rfl
  · rw [hreg, ht, State.regF_setRegF_ne _ _ _ (by decide) (by decide) (.inr (by decide)),
      State.regF_setRegF_self _ _ _ (by decide)]
    exact Nat.mod_eq_of_lt hc
  · rw [hrep.flash, honly]
  · rw [hrep.otp, honly]

theorem startLanes_onlyRegs (s : State) : OnlyRegs s s.startLanes := by
  unfold State.startLanes
  refine OnlyRegs.foldl (fun s l => ?_) _ s
  exact pred_ite (P := OnlyRegs s) ((onlyRegs_setRegF s _ _ _ _).trans (onlyRegs_setRegF _ _ _ _ _)) (OnlyRegs.refl s)

/-- The state in which the boot ROM reads the directory. -/
def State.bootBegun (s : State) : State := s.startLanes.showOtp.setRegF Reg.BOOT_STAT 31 28 1

theorem bootBegun_onlyRegs (s : State) : OnlyRegs s s.bootBegun :=
  ((startLanes_onlyRegs s).trans (onlyRegs_showOtp _)).trans (onlyRegs_setRegF _ _ _ _ _)

theorem bootBegun_parts (s : State) : s.bootBegun.flash = s.flash ∧ s.bootBegun.otp = s.otp ∧
    s.bootBegun.flashPart = s.flashPart ∧ s.bootBegun.dir = s.dir := by
  have h := bootBegun_onlyRegs s
  have hflash : s.bootBegun.flash = s.flash := by rw [h]
  refine ⟨hflash, by rw [h], by rw [h], ?_⟩
  unfold State.dir State.dirValid State.flashLe
  rw [hflash]

/-- What the boot ROM makes of the flash device and of its directory. -/
def State.bootFound (t : State) : Out :=
  if !t.flashPart.ok then .next (t.bootFail 1) else
  match t.dir with
  | none => .next (t.bootFail 2)
  | some a =>
    let s := t.setRegF Reg.BOOT_STAT 31 28 2
    match s.findSlot 0 (s.flashLe (a + 8) 1) with
    | (none, s) => .next (s.bootFail 3)
    | (some fw, s) => .next (s.bootRest a fw)

theorem exec_bootRomStart {s : State} (hmode : s.mode = 0) (hpower : s.power = .good) :
    exec .bootRomStart s = s.bootBegun.bootFound := by
  have hexec : exec .bootRomStart s = execBootRomStart s := rfl
  rw [hexec]
  unfold execBootRomStart
  rw [if_neg fun h => h.elim (· hmode) (· hpower)]
  rfl

section
variable (t : State)

/-- A flash device that misses a requirement (R421). -/
theorem bootFound_badPart (hpart : t.flashPart.ok = false) : t.bootFound = .next (t.bootFail 1) := by
  unfold State.bootFound
  rw [hpart]
  rfl

/-- Without a valid directory (R423). -/
theorem bootFound_noDir (hpart : t.flashPart.ok = true) (hdir : t.dir = none) : t.bootFound = .next (t.bootFail 2) := by
  unfold State.bootFound
  simp only [hpart, hdir, Bool.not_true, Bool.false_eq_true, if_false]

section
variable {a : Nat} (hpart : t.flashPart.ok = true) (hdir : t.dir = some a) {x u : State}
  (hx : x = t.setRegF Reg.BOOT_STAT 31 28 2)
include hpart hdir hx

/-- Neither firmware slot passes (R423, R426). -/
theorem bootFound_noSlot (hslot : x.findSlot 0 (x.flashLe (a + 8) 1) = (none, u)) :
    t.bootFound = .next (u.bootFail 3) := by
  unfold State.bootFound
  simp only [hpart, hdir, Bool.not_true, Bool.false_eq_true, if_false, ← hx, hslot]

/-- Start-up goes on with the slot found. -/
theorem bootFound_slot {fw : Nat} (hslot : x.findSlot 0 (x.flashLe (a + 8) 1) = (some fw, u)) :
    t.bootFound = .next (u.bootRest a fw) := by
  unfold State.bootFound
  simp only [hpart, hdir, Bool.not_true, Bool.false_eq_true, if_false, ← hx, hslot]

end

end

/-! ### The identity key -/

theorem otp_drawBig (s : State) : s.drawBig.2.otp = s.otp := rfl

/-- Each of n writes that does not read back leaves no identity key (R433). -/
theorem tryIdent_none (n : Nat) (s : State) (hi : s.otp.ident = none) (hn : n ≤ s.otp.badWrites) :
    (State.tryIdent n s).otp.ident = none := by
  induction n generalizing s with
  | zero => exact hi
  | succ n ih =>
    unfold State.tryIdent
    rw [if_neg (by omega)]
    exact ih _ hi (by dsimp only; omega)

theorem bootRest_noIdentity {u : State} (hi : u.otp.ident = none) (hn : 3 ≤ u.otp.badWrites) (a fw : Nat) :
    (u.bootRest a fw).mode = 6 ∧ (u.bootRest a fw).regF Reg.BOOT_STAT 31 28 = 15 ∧
      (u.bootRest a fw).regF Reg.BOOT_STAT 27 24 = 5 := by
  have hfail : ∃ t : State, u.bootRest a fw = t.bootFail 5 := by
    unfold State.bootRest
    extract_lets r v w
    have hv : v.otp = u.otp := rfl
    have hgen : v.genIdentity.otp.ident = none := by
      unfold State.genIdentity
      rw [hv, hi]
      exact tryIdent_none 3 v (by rw [hv, hi]) (by rw [hv]; exact hn)
    have hw : w.otp.ident.isNone = true := by
      have hotp : w.otp = v.genIdentity.otp := by
        unfold w
        rw [onlyRegs_showOtp v.genIdentity]
      rw [hotp, hgen]
      rfl
    exact ⟨w, by rw [if_pos hw]⟩
  obtain ⟨t, ht⟩ := hfail
  rw [ht]
  obtain ⟨hmode, hphase, hcause, -⟩ := bootFail_spec t (cause := 5) (by decide)
  exact ⟨hmode, hphase, hcause⟩

/-! ### Flash -/

/-- Bytes put into flash read back, and every other byte is as before. -/
theorem flashWriteBytes_spec (bytes : List Byte) (m : Memory) (a : Nat) :
    (∀ i, (h : i < bytes.length) → SMap.get flashDefault (flashWriteBytes m a bytes) (a + i) = bytes[i]) ∧
    ∀ j, j < a ∨ a + bytes.length ≤ j →
      SMap.get flashDefault (flashWriteBytes m a bytes) j = SMap.get flashDefault m j := by
  induction bytes generalizing m a with
  | nil => exact ⟨fun i h => absurd h (Nat.not_lt_zero i), fun j _ => rfl⟩
  | cons b bs ih =>
    obtain ⟨hin, hout⟩ := ih (SMap.set flashDefault m a b) (a + 1)
    unfold flashWriteBytes
    refine ⟨fun i h => ?_, fun j hj => ?_⟩
    · cases i with
      | zero =>
        have hb := hout a (.inl (Nat.lt_succ_self a))
        rw [SMap.get_set_self] at hb
        exact hb
      | succ i =>
        rw [← Nat.add_assoc, Nat.add_right_comm]
        exact hin i (Nat.lt_of_succ_lt_succ h)
    · rw [List.length_cons] at hj
      rw [hout j (by omega), SMap.get_set_ne _ _ _ (by omega)]

/-- A copy of the health area is written. -/
def State.healthWritten (s : State) (a : Nat) (bytes : List Byte) : State :=
  { s.flashPut a bytes with healthDirty := false, healthGen := s.healthGen + 1 }

theorem healthWritten_parts (s : State) (a : Nat) (bytes : List Byte) : (s.healthWritten a bytes).healthDirty = false ∧
    (s.healthWritten a bytes).healthGen = s.healthGen + 1 ∧ (s.healthWritten a bytes).mem = s.mem ∧
    (s.healthWritten a bytes).otp = s.otp ∧ (s.healthWritten a bytes).flash = flashWriteBytes s.flash a bytes :=
  ⟨rfl, rfl, rfl, rfl, rfl⟩

/-- The copy of the health area that is not in use (R430). -/
theorem exec_healthAreaWrite {s : State} {a : Nat} (hd : s.healthDirty = true)
    (ha : a = if s.health = some 0x4210000 then 0x4410000 else 0x4210000) :
    exec .healthAreaWrite s = .next (s.healthWritten a (s.healthBytes (s.healthGen + 1))) := by
  have hexec : exec .healthAreaWrite s = execHealthAreaWrite s := rfl
  rw [hexec]
  unfold execHealthAreaWrite
  rw [if_pos hd, ha]
  split
  · rename_i h
    rw [if_pos h]
    rfl
  · rename_i h
    rw [if_neg h]
    rfl

theorem readyBit_lt (f : ReadyFn) : (readyBit f).2 < 32 := by
  cases f with
  | core c =>
    unfold readyBit
    dsimp only
    split <;> dsimp only <;> omega
  | package p =>
    unfold readyBit
    dsimp only
    split <;> dsimp only <;> omega
  | dieNoc | edgeLogic | bridge | updEngine | collEngine | hostLane | port =>
    unfold readyBit
    dsimp only
    omega

/-- Settles O56: what stops start-up ends it in `bootFail` (`bootFail_spec`), and the health area's bytes go into flash
as they are (`flashWriteBytes_spec`). -/
theorem startUpRuns : Obligations.StartUpRuns := by
  unfold Obligations.StartUpRuns
  intro s
  refine ⟨fun hmode hpower => ⟨fun hpart => ?_, fun hpart hdir => ?_, fun a x hpart hdir hx => ⟨fun u hslot => ?_,
    fun fw u hslot => ⟨?_, fun hi hn => bootRest_noIdentity hi hn a fw⟩⟩⟩, fun f hup => ?_, fun a bytes hd hb ha => ?_⟩
  · obtain ⟨hflash, hotp, hp, -⟩ := bootBegun_parts s
    obtain ⟨hm, hphase, hcause, hf, ho⟩ := bootFail_spec s.bootBegun (cause := 1) (by decide)
    exact ⟨_, (exec_bootRomStart hmode hpower).trans (bootFound_badPart _ (by rw [hp, hpart])), hm, hphase, hcause,
      hf.trans hflash, ho.trans hotp⟩
  · obtain ⟨hflash, hotp, hp, hdir'⟩ := bootBegun_parts s
    obtain ⟨hm, hphase, hcause, hf, ho⟩ := bootFail_spec s.bootBegun (cause := 2) (by decide)
    exact ⟨_, (exec_bootRomStart hmode hpower).trans (bootFound_noDir _ (by rw [hp, hpart]) (hdir'.trans hdir)), hm,
      hphase, hcause, hf.trans hflash, ho.trans hotp⟩
  · obtain ⟨-, -, hp, hdir'⟩ := bootBegun_parts s
    obtain ⟨hm, hphase, hcause, -⟩ := bootFail_spec u (cause := 3) (by decide)
    exact ⟨_, (exec_bootRomStart hmode hpower).trans
      (bootFound_noSlot _ (by rw [hp, hpart]) (hdir'.trans hdir) hx hslot), hm, hphase, hcause⟩
  · obtain ⟨-, -, hp, hdir'⟩ := bootBegun_parts s
    exact (exec_bootRomStart hmode hpower).trans (bootFound_slot _ (by rw [hp, hpart]) (hdir'.trans hdir) hx hslot)
  · have hexec : exec (.functionReady f) s = execFunctionReady f s := rfl
    rw [hexec, execFunctionReady, if_pos hup]
    refine ⟨_, rfl, ?_, fun a ha => State.reg_setRegF_ne _ _ _ _ _ _ ha, onlyRegs_setRegF s _ _ _ _⟩
    rw [bit_setRegF_one _ _ (readyBit_lt f), decide_eq_true rfl, Bool.true_or]
  · obtain ⟨hdirty, hgen, hmem, hotp, hflash⟩ := healthWritten_parts s a (s.healthBytes (s.healthGen + 1))
    obtain ⟨hin, hout⟩ := flashWriteBytes_spec (s.healthBytes (s.healthGen + 1)) s.flash a
    rw [← hflash] at hin hout
    subst hb
    exact ⟨_, exec_healthAreaWrite hd ha, hdirty, hgen, hmem, hotp, hin, hout⟩

end Sys2Proof.Machine
end

section
/-! The step controller (R31, R34, R193, R363, R367, R368, R370, R371). -/

namespace Sys2Proof.Machine

open Sys2Proof

/-! ### Global registers and accesses to memory -/

/-- A register of the global block. -/
def GlobalReg (a : Nat) : Prop := a < 0xC0000

section
variable {a : Nat} (ha : GlobalReg a)
include ha

theorem GlobalReg.lt : a < 0x01000000 := Nat.lt_trans ha (by decide)

theorem GlobalReg.evcPlace : evcPlace a = none := evcPlace_global ha.lt

theorem GlobalReg.lowPlace : LowPlace a :=
  lowPlace_iff_offset (by rw [Nat.mod_eq_of_lt ha.lt]; exact ha)

theorem GlobalReg.ne_die (d o : Nat) : a ≠ dieBase d + o := by
  have h := ha.lt
  unfold dieBase
  omega

theorem GlobalReg.ne_edge (e o : Nat) : a ≠ edgeBase e + o := by
  have h := ha.lt
  unfold edgeBase
  omega

theorem GlobalReg.reg_count (s : State) {b : Nat} (hb : 54 ≤ b) (src inst n : Nat) :
    (s.count b src inst n).reg a = s.reg a := by
  have hq : (s.countQ b src inst n).reg a = s.reg a := ha.lowPlace.reg_countQ s hb _ _ _
  unfold State.count
  extract_lets t
  refine pred_ite (P := fun u : State => u.reg a = s.reg a) hq ?_
  have hlane := t.hostLane_le 0 (by decide)
  rw [State.reg_pump _ _ _ ha.evcPlace (by omega), hq]

theorem GlobalReg.reg_countAccess (s : State) (w : Bool) (x n : Nat) : (s.countAccess w x n).reg a = s.reg a := by
  unfold State.countAccess
  split
  · exact State.reg_foldl _ a _ (fun s u _ => ha.reg_count s (by omega) _ _ _) s
  · exact ha.reg_count s (by omega) _ _ _

theorem GlobalReg.reg_readUnit (s : State) (u : Nat) : (s.readUnit u).reg a = s.reg a := by
  have hlo (e : Nat) : a ≠ Reg.FMEM_ERR_LAST_LO e := ha.ne_edge _ _
  have hhi (e : Nat) : a ≠ Reg.FMEM_ERR_LAST_HI e := ha.ne_edge _ _
  have hue (e : Nat) : a ≠ Reg.FMEM_UE_CNT e := ha.ne_edge _ _
  have hnear (d : Nat) : a ≠ Reg.NMEM_UE_CNT d := ha.ne_die _ _
  unfold State.readUnit
  extract_lets t
  have ht : t.reg a = s.reg a := ha.reg_countAccess s _ _ _
  split
  · exact ht
  · split
    · rw [State.noteBurst, ha.reg_count _ (by omega), State.reg_inc_ne _ _ _ _ (hue _),
        State.reg_setReg_ne _ _ _ _ (hhi _), State.reg_setReg_ne _ _ _ _ (hlo _), ht]
    · rw [State.reg_inc_ne _ _ _ _ (hnear _), ht]

theorem GlobalReg.reg_readRange (s : State) (x n : Nat) : (s.readRange x n).reg a = s.reg a :=
  State.reg_foldl _ a _ (fun s u _ => ha.reg_readUnit s u) s

theorem GlobalReg.reg_countBypass (s : State) (w : Writer) (x n : Nat) : (s.countBypass w x n).reg a = s.reg a := by
  unfold State.countBypass
  split
  · rfl
  · split
    · split
      · exact State.reg_foldl _ a _ (fun s u _ => State.reg_inc_ne _ _ _ _ (ha.ne_edge _ _)) s
      · rfl
    · rfl

theorem GlobalReg.reg_snoop (s : State) (d : Nat) (own : Bool) (x : Nat) (bytes : List Byte) :
    (s.snoop d own x bytes).reg a = s.reg a := by
  have hinval : a ≠ Reg.NMEM_INVAL_CNT d := ha.ne_die _ _
  unfold State.snoop
  extract_lets t hit n upd
  split
  · rfl
  · split
    · exact State.reg_setDie s _ _ _
    · rw [ha.reg_count _ (by omega), State.reg_inc_ne _ _ _ _ hinval, State.reg_setDie]

/-- A write to memory changes no global register. -/
theorem GlobalReg.reg_put (s : State) (w : Writer) (x : Nat) (bytes : List Byte) (bad : Bool) :
    (s.put w x bytes bad).reg a = s.reg a := by
  unfold State.put
  split
  · rfl
  · extract_lets t u
    have hu : u.reg a = s.reg a := (ha.reg_countBypass _ _ _ _).trans (ha.reg_countAccess t _ _ _)
    split
    · exact (State.reg_foldl _ a _ (fun s d _ => ha.reg_snoop s d _ _ _) u).trans hu
    · exact hu

theorem GlobalReg.reg_copyMem (s : State) (src dst n : Nat) : (s.copyMem src dst n).reg a = s.reg a := by
  unfold State.copyMem
  extract_lets bad t
  exact (ha.reg_put _ _ _ _ _).trans (ha.reg_readRange s _ _)

end

/-! ### The start of a step -/

section
variable {s : State} {k : Nat} (hk : k = s.ctl.begun + 1) (hprog : s.prog.isSome = true) (hmay : s.mayBegin k = true)
include hk hprog hmay

/-- What stands in the way of a step's start by the controller's own state does not stand there. -/
theorem exec_stepBeginIssue : exec .stepBeginIssue s =
    if !(s.missingFeeds k).isEmpty then
      .next (if s.ctl.feedWait.isSome then s else s.setCtl fun c => { c with feedWait := some s.now })
    else if !s.feedsReach k then .next s
    else .next ((s.copyFeeds k).beginStep k) := by
  have hmay' := hmay
  simp only [State.mayBegin, State.scheduleDone, Bool.and_eq_true, Bool.not_eq_true', decide_eq_true_eq] at hmay
  obtain ⟨⟨⟨⟨⟨⟨-, ⟨⟨-, hreplay⟩, -⟩⟩, -⟩, -⟩, hcoll⟩, -⟩, -⟩ := hmay
  have hexec : exec .stepBeginIssue s = execStepBeginIssue s := rfl
  have hnone : s.prog.isNone = false := by rw [← Option.not_isSome, hprog]; rfl
  rw [hexec]
  unfold execStepBeginIssue
  rw [← hk, hreplay, if_neg (by rw [Bool.false_and]; decide), if_neg (Nat.not_lt.mpr hcoll), hnone, hmay',
    if_neg (by decide)]

end

/-! ### Completion words -/

theorem setCtl_setCtl (s : State) (f g : Ctl → Ctl) : (s.setCtl f).setCtl g = s.setCtl fun c => g (f c) := rfl

theorem ctl_setCtl (s : State) (f : Ctl → Ctl) : (s.setCtl f).ctl = f s.ctl := rfl

theorem exec_phaseDoneReceive {s : State} {c : Core} {w : BitVec 64} {rest : List (BitVec 64)} {l : List Bool}
    (hq : (s.core c).cplq = w :: rest) (hpath : s.corePath c = true) : exec (.phaseDoneReceive ⟨c, l⟩) s =
      if l.any id = true then .next ((s.setCore c { s.core c with cplq := rest }).cplPoison c)
      else .next (if fld w.toNat 7 0 = 2 then
        ((s.setCore c { s.core c with cplq := rest }).setCtl fun x => { x with seen := (c, w) :: x.seen }).phaseDone c w
        else (s.setCore c { s.core c with cplq := rest }).setCtl fun x => { x with seen := (c, w) :: x.seen }) := by
  have hexec : exec (.phaseDoneReceive ⟨c, l⟩) s = execPhaseDoneReceive ⟨c, l⟩ s := rfl
  rw [hexec]
  unfold execPhaseDoneReceive
  simp only [hq, hpath, if_true]
  rfl

/-- The `PHASE_DONE` of a core on which a phase is under way (R193). -/
theorem phaseDone_issued {s : State} {c : Core} {w : BitVec 64} {i : Issued}
    (hi : s.ctl.issued.find? (fun i => i.core == c) = some i) (ha : s.ctl.abandoned = false)
    (hr : s.ctl.stepReplay = false) : s.phaseDone c w = (((s.setCtl
      fun x => { x with lastCmd := SMap.set (fun _ => []) x.lastCmd c [],
                        lenPoison := x.lenPoison.erase c.val,
                        issued := x.issued.erase i }).phaseResult i.entry c
          (fld w.toNat 17 17 = 1) (s.ctl.lenPoison.contains c.val)).afterPhase) := by
  unfold State.phaseDone
  simp only [ctl_setCtl, setCtl_setCtl, hi, ha, hr, Bool.or_self, Bool.false_eq_true, if_false]

/-! ### Result copies -/

theorem window_setWindow_self (s : State) (w : Nat) (v : Option Window) : (s.setWindow w v).window w = v :=
  SMap.get_set_self _ _ w v

/-- A copy of a range without poison is taken (R370, R371). -/
theorem takeCopy_spec {s : State} (w k : Nat) {x : Window} (hclean : s.badRange x.src x.size = false) :
    (s.takeCopy w k x).mem = (s.copyMem x.src (x.buf + k % x.slots * x.size) x.size).mem ∧
    (∃ y, (s.takeCopy w k x).window w = some y ∧ (k, ResState.taken) ∈ y.results) ∧
    ∀ a, GlobalReg a → (s.takeCopy w k x).reg a = s.reg a := by
  obtain ⟨t, ht⟩ : ∃ t, t = s.copyMem x.src (x.buf + k % x.slots * x.size) x.size := ⟨_, rfl⟩
  have hreg (a : Nat) (ha : GlobalReg a) : t.reg a = s.reg a := by rw [ht, ha.reg_copyMem]
  have htake : s.takeCopy w k x = { t.setWindow w (some { x.mark k .taken with
      keys := (k, t.freeCtr) :: x.keys.filter fun e => e.1 != k }) with freeCtr := t.freeCtr + 2 ^ 48 } := by
    unfold State.takeCopy
    rw [hclean, if_neg Bool.false_ne_true, if_neg Bool.false_ne_true, ht]
  have hwin (v : Option Window) (n : Nat) : State.window { t.setWindow w v with freeCtr := n } w = v :=
    window_setWindow_self t w v
  rw [htake, ← ht]
  refine ⟨rfl, ⟨_, hwin _ _, ?_⟩, hreg⟩
  exact List.mem_cons_self

theorem window_announce (s : State) (i code arg : Nat) (args : List Nat) (w : Nat) :
    (s.announce i code arg args).window w = s.window w := by
  unfold State.window
  rw [(announce_reports s i code arg args).windows]

/-- A result that is posted. -/
theorem postResult_spec {s : State} {w k : Nat} {y : Window} (hy : s.window w = some y) {st : ResState}
    (hmem : (k, st) ∈ y.results) : (s.postResult w k).mem = s.mem ∧
    ∃ z, (s.postResult w k).window w = some z ∧ (k, ResState.posted) ∈ z.results := by
  unfold State.postResult
  rw [hy]
  refine ⟨?_, ?_⟩
  · exact (announce_reports _ _ _ _ _).mem
  · dsimp only
    rw [window_announce, window_setWindow_self]
    exact ⟨_, rfl, List.mem_map.mpr ⟨_, hmem, if_pos rfl⟩⟩

theorem contains_of_mem {w : Nat} {t : State} {r : Nat × ResState} (h : ∃ z, t.window w = some z ∧ r ∈ z.results) :
    ((t.window w).map fun y => y.results.contains r) = some true := by
  obtain ⟨z, hz, hr⟩ := h
  rw [hz, Option.map_some, List.contains_iff_mem.mpr hr]

theorem exec_resultCopyResume {w : Fin 64} {s : State} {x : Window} {r : Nat × ResState} (hx : s.window w = some x)
    (hr : (x.results.find? fun r => r.2 == .waiting) = some r) (hmode : s.mode = 3 ∨ s.mode = 4)
    (hfree : s.copyFree x r.1 = true) : exec (.resultCopyResume w) s =
      .next (if r.1 ≤ (s.takeCopy w r.1 x).committed then (s.takeCopy w r.1 x).postResult w r.1
        else s.takeCopy w r.1 x) := by
  have hexec : exec (.resultCopyResume w) s = execResultCopyResume w s := rfl
  rw [hexec, execResultCopyResume, if_pos hmode]
  unfold State.resumeCopy
  simp only [hx, hr, hfree, if_true]

/-- The windows whose copies wait are noted as stalled. -/
def State.noteStalled (s : State) : State :=
  (List.range 64).foldl (fun s w => match s.window w with
    | some x => s.setWindow w (some { x with stalled := true })
    | none => s) s

theorem noteStalled_spec (s : State) : s.noteStalled.mem = s.mem ∧ ∀ a, s.noteStalled.reg a = s.reg a := by
  refine List.foldlRecOn (List.range 64) _ (motive := fun t : State => t.mem = s.mem ∧ ∀ a, t.reg a = s.reg a)
    ⟨rfl, fun _ => rfl⟩ fun t ht w _ => ?_
  split
  · exact ht
  · exact ht

theorem exec_resultStall {s : State} {w : Fin 64} {x : Window} (hx : s.window w = some x)
    (hlate : ∃ r ∈ x.results, r.2 = .waiting ∧ x.slotFree r.1 = false) (hst : x.stalled = false)
    (hwait : x.waitSince + 1000 < s.now) : exec .resultStall s = .next (s.noteStalled.inc Reg.GLB_RESULT_STALL_CNT 1) := by
  have hexec : exec .resultStall s = execResultStall s := rfl
  rw [hexec]
  unfold execResultStall
  refine if_pos (List.any_eq_true.mpr ⟨w.val, List.mem_range.mpr w.isLt, ?_⟩)
  obtain ⟨r, hr, hwaiting, hfree⟩ := hlate
  have hany : (x.results.any fun r => r.2 == .waiting && !x.slotFree r.1) = true :=
    List.any_eq_true.mpr ⟨r, hr, by rw [hwaiting, hfree]; decide⟩
  simp only [hx, hany, hst, decide_eq_true hwait, Bool.not_false, Bool.and_self]

theorem exec_feedStall {s : State} {k since f : Nat} {l : List Nat} (hk : k = s.ctl.begun + 1)
    (hwait : s.ctl.feedWait = some since) (hmiss : s.missingFeeds k = f :: l) (hlate : since + 1000 < s.now)
    (hst : s.ctl.feedStalled = false) (hmode : s.mode = 3) : exec .feedStall s =
      .next (((s.setCtl fun c => { c with feedStalled := true }).inc Reg.GLB_FEED_STALL_CNT 1).announce
        s.ctlIsl 4 f [f, k]) := by
  have hexec : exec .feedStall s = execFeedStall s := rfl
  rw [hexec]
  unfold execFeedStall
  rw [← hk]
  simp only [hwait, hmiss]
  exact if_pos ⟨hlate, hst, hmode⟩

/-- Settles O53: the start of a step by what stands in its way (`exec_stepBeginIssue`), a completion word by its kind
(`exec_phaseDoneReceive`, `phaseDone_issued`), a copy that waited by `takeCopy_spec`. -/
theorem stepControllerRuns : Obligations.StepControllerRuns := by
  unfold Obligations.StepControllerRuns
  intro s k
  refine ⟨fun hk hprog hmay => ⟨fun hmiss hreach => ?_, fun hmiss hreach => ?_, fun hmiss hwait => ?_⟩,
    fun since f l hk hwait hmiss hlate hst hmode => ?_,
    fun c w rest u l hq hpath hu => ⟨fun i bad hl hop hi ha hr hbad => ?_, fun hl hop => ?_, fun hl => ?_⟩,
    fun c l hpath => ?_, fun w x r hx hr hmode hfree hclean => ?_, fun w x hx hlate hst hwait => ?_⟩
  · rw [exec_stepBeginIssue hk hprog hmay, hmiss, hreach]
    rfl
  · rw [exec_stepBeginIssue hk hprog hmay, hmiss, hreach]
    rfl
  · have hne : (!(s.missingFeeds k).isEmpty) = true := by
      rw [Bool.not_eq_true', List.isEmpty_eq_false_iff]
      exact hmiss
    rw [exec_stepBeginIssue hk hprog hmay, if_pos hne, hwait]
    exact ⟨_, rfl, rfl, rfl, rfl⟩
  · obtain ⟨t, ht⟩ : ∃ t, t = (s.setCtl fun c => { c with feedStalled := true }).inc Reg.GLB_FEED_STALL_CNT 1 := ⟨_, rfl⟩
    have hparts : t.ctl.feedStalled = true ∧ t.mem = s.mem := by
      rw [ht]
      exact ⟨rfl, rfl⟩
    have hreg : t.reg Reg.GLB_FEED_STALL_CNT = satAdd (s.reg Reg.GLB_FEED_STALL_CNT) 1 := by
      rw [ht, State.reg_inc_self]
      rfl
    have hrep := announce_reports t s.ctlIsl 4 f [f, k]
    rw [exec_feedStall hk hwait hmiss hlate hst hmode, ← ht]
    refine ⟨_, rfl, ?_, ?_, hrep.mem.trans hparts.2⟩
    · rw [hrep.ctl, hparts.1]
    · rw [State.reg_announce _ _ _ _ _ _ (by decide), hreg, toNat_satAdd]
  · subst hu
    have hno : ¬l.any id = true := by rw [hl]; decide
    obtain ⟨v, hv⟩ : ∃ v, v = (s.setCore c { s.core c with cplq := rest }).setCtl
        fun x => { x with seen := (c, w) :: x.seen } := ⟨_, rfl⟩
    obtain ⟨hvi, hva, hvr, hvp⟩ : v.ctl.issued = s.ctl.issued ∧ v.ctl.abandoned = s.ctl.abandoned ∧
        v.ctl.stepReplay = s.ctl.stepReplay ∧ v.ctl.lenPoison = s.ctl.lenPoison := by
      rw [hv]
      exact ⟨rfl, rfl, rfl, rfl⟩
    rw [← hvi] at hi
    rw [exec_phaseDoneReceive hq hpath, if_neg hno, if_pos hop, ← hv, phaseDone_issued hi (hva.trans ha) (hvr.trans hr), hvp,
      ← hbad, hv, setCtl_setCtl]
  · subst hu
    have hno : ¬l.any id = true := by rw [hl]; decide
    rw [exec_phaseDoneReceive hq hpath, if_neg hno, if_neg hop]
  · subst hu
    rw [exec_phaseDoneReceive hq hpath, if_pos hl]
  · have hexec : exec (.phaseDoneReceive ⟨c, l⟩) s = execPhaseDoneReceive ⟨c, l⟩ s := rfl
    rw [hexec]
    unfold execPhaseDoneReceive
    simp only [hpath, Bool.false_eq_true, if_false]
    split <;> rfl
  · obtain ⟨hmem, ⟨y, hy, hk⟩, hreg⟩ := takeCopy_spec w r.1 hclean
    have hcom : (s.takeCopy w r.1 x).committed = s.committed := by
      rw [State.committed, hreg _ (by unfold GlobalReg; decide), State.committed]
    rw [exec_resultCopyResume hx hr hmode hfree, hcom]
    by_cases hle : r.1 ≤ s.committed
    · obtain ⟨hmem', hposted⟩ := postResult_spec hy hk
      rw [if_pos hle, if_pos hle]
      exact ⟨_, rfl, hmem'.trans hmem, contains_of_mem hposted⟩
    · rw [if_neg hle, if_neg hle]
      exact ⟨_, rfl, hmem, contains_of_mem ⟨y, hy, hk⟩⟩
  · obtain ⟨hmem, hreg⟩ := noteStalled_spec s
    refine ⟨_, exec_resultStall hx hlate hst hwait, ?_, fun a ha => ?_, ?_⟩
    · rw [State.reg_inc_self, hreg, toNat_satAdd]
    · rw [State.reg_inc_ne _ _ _ _ ha, hreg]
    · rw [State.inc, State.setReg_mem, hmem]

end Sys2Proof.Machine
end

section
/-! The ports (R316, R318, R342, R344, R345). -/

namespace Sys2Proof.Machine

open Sys2Proof

/-! ### The return of a receiver -/

section
variable (s : State)

/-- What a link receives by is as it was before its island came back. -/
theorem link_rejoin (is : List Nat) (l : Nat) : (s.link l).SameRx ((s.rejoin is).link l) := by
  unfold State.rejoin
  extract_lets t u
  have ht : t.link l = s.link l :=
    List.foldlRecOn is _ (motive := fun t : State => t.link l = s.link l) rfl fun t ht i _ => ht
  have hsettle (s : State) (i : Nat) : (s.link l).SameRx ((s.settleIsland i).link l) := by
    unfold State.settleIsland
    extract_lets x own nbrs v
    have hv : Sends s v := Sends.foldl (fun s _ => sends_countResync s i) _ s
    exact pred_ite (P := fun u : State => (s.link l).SameRx (u.link l)) (LinkSt.SameRx.refl _) (hv.link l)
  have hu : (t.link l).SameRx (u.link l) :=
    List.foldlRecOn (List.range 62) _ (motive := fun u : State => (t.link l).SameRx (u.link l)) (LinkSt.SameRx.refl _)
      fun u hu i _ => hu.trans (hsettle u i)
  have hheld (u : State) : ((List.range 54).foldl State.releaseHeld u).link l = u.link l :=
    List.foldlRecOn (List.range 54) _ (motive := fun v : State => v.link l = u.link l) rfl fun v hv c _ => by
      unfold State.releaseHeld
      exact pred_ite (P := fun w : State => w.link l = u.link l) hv hv
  have hmsgs (v : State) : v.releaseMsgs.link l = v.link l := rfl
  have hxfer (v : State) : (v.link l).SameRx (v.releaseXfer.link l) :=
    (Sends.foldl (fun s x => sends_linkSend s _ _) _ _).link l
  rw [← ht]
  refine hu.trans ?_
  rw [← hheld u, ← hmsgs]
  exact hxfer _

theorem link_clockIn {i : Nat} (hi : 54 ≤ i) (l : Nat) : (s.link l).SameRx ((s.clockIn i).link l) := by
  unfold State.clockIn
  refine pred_ite (P := fun u : State => (s.link l).SameRx (u.link l)) (LinkSt.SameRx.refl _) ?_
  unfold State.leaveReset
  rw [if_neg (Nat.not_lt.mpr hi)]
  exact pred_ite (P := fun u : State => (s.link l).SameRx (u.link l)) (link_rejoin s _ l) (link_rejoin s _ l)

end

/-! ### Attempts -/

theorem linkStat_port (p : Port) : linkStat p = portReg p 0 := if_pos p.isLt

theorem portReg_ne (p : Nat) {o o' : Nat} (h : o ≠ o') : portReg p o ≠ portReg p o' := by
  unfold portReg
  omega

/-- An attempt of a port is counted (R345). -/
theorem portAttempt_spec (s : State) (p : Port) : OnlyRegs s (s.portAttempt p) ∧ (s.portAttempt p).linkState p = 1 ∧
    (s.portAttempt p).regF (portReg p 0x60) 7 0 = min (s.regF (portReg p 0x60) 7 0 + 1) 255 := by
  have hset := setLinkState_eq s p 1
  rw [linkStat_port] at hset
  unfold State.portAttempt
  rw [hset]
  refine ⟨(onlyRegs_setRegF s _ _ _ _).trans (onlyRegs_setRegF _ _ _ _ _), ?_, ?_⟩
  · rw [linkState_eq, linkStat_port, State.regF_setRegF_of_ne _ _ _ (portReg_ne p (by decide)),
      State.regF_setRegF_self _ _ _ (by decide)]
    rfl
  · rw [State.regF_setRegF_self _ _ _ (by decide)]
    have hle : min (s.regF (portReg p 0x60) 7 0 + 1) 255 < 2 ^ (7 + 1 - 0) := by omega
    exact Nat.mod_eq_of_lt hle

theorem OnlyRegs.link {s t : State} (h : OnlyRegs s t) (l : Nat) : t.link l = s.link l := by
  unfold State.link
  rw [h]

/-- A port that is down or training, once its training is under way. -/
def State.portBegun (s : State) (p : Nat) : State := if s.linkState p = 0 then s.portAttempt p else s

theorem portBegun_spec {s : State} {p : Port} (h : s.linkState p = 0 ∨ s.linkState p = 1) :
    OnlyRegs s (s.portBegun p) ∧ (s.portBegun p).linkState p = 1 ∧ (s.portBegun p).regF (portReg p 0x60) 7 0 =
      (if s.linkState p = 0 then min (s.regF (portReg p 0x60) 7 0 + 1) 255 else s.regF (portReg p 0x60) 7 0) := by
  unfold State.portBegun
  rcases h with h | h
  · rw [if_pos h, if_pos h]
    exact portAttempt_spec s p
  · rw [if_neg (by omega), if_neg (by omega)]
    exact ⟨OnlyRegs.refl s, h, rfl⟩

section
variable {s : State} {p : Port} {marks : List (BitVec 5140)} (h : s.linkState p = 0 ∨ s.linkState p = 1)
  (hk : s.keptInReset (62 + p) = false)
include h hk

theorem portTrain_goes (hstep : (s.link p).trainStep < 3) :
    ¬(s.linkState p = 2 ∨ s.linkState p = 3 ∨ 3 ≤ (s.link p).trainStep ∨ s.keptInReset (linkIsland p) = true) := by
  have hki : s.keptInReset (linkIsland p) = false := hk
  rw [hki]
  rintro (h2 | h3 | h4 | h5)
  · omega
  · omega
  · omega
  · cases h5

theorem exec_portTrain_early (hstep : (s.link p).trainStep < 2) : exec (.portTrain ⟨p, marks⟩) s =
    .next (if (s.link p).trainStep = 0 then ((s.portBegun p).setLink p
      { (s.portBegun p).link p with trainStep := (s.link p).trainStep + 1 }).clockIn (62 + p)
      else (s.portBegun p).setLink p { (s.portBegun p).link p with trainStep := (s.link p).trainStep + 1 }) := by
  have hexec : exec (.portTrain ⟨p, marks⟩) s = execPortTrain ⟨p, marks⟩ s := rfl
  rw [hexec]
  unfold execPortTrain
  dsimp only
  rw [if_neg (portTrain_goes h hk (by omega)), if_neg (by omega)]
  rfl

theorem exec_portTrain_aligned (hstep : (s.link p).trainStep = 2) {m : BitVec 32 × BitVec 16} (hm : aligned marks = some m) :
    exec (.portTrain ⟨p, marks⟩) s = .next (((s.portBegun p).setLink p
      { (s.portBegun p).link p with trainStep := 3, marker := some m }).sendCtl p 0) := by
  have hexec : exec (.portTrain ⟨p, marks⟩) s = execPortTrain ⟨p, marks⟩ s := rfl
  rw [hexec]
  unfold execPortTrain
  dsimp only
  rw [if_neg (portTrain_goes h hk (by omega)), if_pos hstep, hm]
  rfl

theorem exec_portTrain_unaligned (hstep : (s.link p).trainStep = 2) (hm : aligned marks = none) :
    exec (.portTrain ⟨p, marks⟩) s = .next (s.portBegun p) := by
  have hexec : exec (.portTrain ⟨p, marks⟩) s = execPortTrain ⟨p, marks⟩ s := rfl
  rw [hexec]
  unfold execPortTrain
  dsimp only
  rw [if_neg (portTrain_goes h hk (by omega)), if_pos hstep, hm]
  rfl

end

theorem LinkReg.reg_linkSend {a : Nat} (ha : LinkReg a) (s : State) (l : Nat) (q : Pkt) : (s.linkSend l q).reg a = s.reg a :=
  ha.lowPlace.reg_linkSend s l q

theorem sends_sendCtl (s : State) (p sub : Nat) : Sends s (s.sendCtl p sub) := sends_linkSend s p _

theorem LinkReg.reg_sendCtl {a : Nat} (ha : LinkReg a) (s : State) (p sub : Nat) : (s.sendCtl p sub).reg a = s.reg a :=
  ha.reg_linkSend s p _

theorem linkState_sendCtl (s : State) (p sub l : Nat) : (s.sendCtl p sub).linkState l = s.linkState l :=
  linkState_of_reg ((linkReg_linkStat l).reg_sendCtl s p sub)

/-! ### Markers -/

/-- The fields of a marker codeword stand where its layout puts them (R316). -/
theorem markerWord_spec {lane : Nat} (hlane : lane < 8) (count : BitVec 32) (id : BitVec 16) :
    markerLane (markerWord lane count id.toNat) = lane ∧ markerCount (markerWord lane count id.toNat) = count ∧
    markerId (markerWord lane count id.toNat) = id.toNat ∧ isMarker lane (markerWord lane count id.toNat) = true ∧
    ∀ i, 51 ≤ i → (markerWord lane count id.toNat).getLsbD i = false := by
  have hc := count.isLt
  have hi := id.isLt
  obtain ⟨n, hn⟩ : ∃ n, n = lane + count.toNat * 2 ^ 3 + id.toNat * 2 ^ 35 := ⟨_, rfl⟩
  have hlt : n < 2 ^ 51 := by omega
  have hbig (i : Nat) (h : 51 ≤ i) : n < 2 ^ i := Nat.lt_of_lt_of_le hlt (Nat.pow_le_pow_right (by decide) h)
  have hnat : (markerWord lane count id.toNat).toNat = n := by
    rw [markerWord, BitVec.toNat_ofNat, Nat.mod_eq_of_lt hlane, Nat.mod_eq_of_lt (show id.toNat < 2 ^ 16 from hi), ← hn]
    have hwidth : 51 ≤ 5140 := by decide
    generalize 5140 = width at hwidth ⊢
    exact Nat.mod_eq_of_lt (hbig width hwidth)
  have hcount : markerCount (markerWord lane count id.toNat) = count := by
    refine BitVec.eq_of_toNat_eq ?_
    rw [markerCount, hnat, BitVec.toNat_ofNat, fld]
    omega
  have hid : markerId (markerWord lane count id.toNat) = id.toNat := by
    rw [markerId, hnat, fld]
    omega
  refine ⟨?_, hcount, hid, ?_, fun i h => ?_⟩
  · rw [markerLane, hnat, fld]
    omega
  · rw [isMarker, hcount, hid, beq_self_eq_true]
  · rw [BitVec.getLsbD, hnat]
    exact Nat.testBit_lt_two_pow (hbig i h)

/-! ### Hello and fences -/

theorem exec_linkCtlHello {p : Port} {s t : State} {q : Pkt} (hq : s.takeRx p 0x40 = some (q, t)) (hop : q.ops 0 0 = 0)
    {credits : List Nat} (hc : credits = ((List.range 4).map fun v => q.ops (5 + 2 * v) (4 + 2 * v))) :
    exec (.linkCtlHello p) s =
      if t.linkState p = 1 ∧ (t.link p).trainStep = 3 then
        .next (((t.setRegF (portReg p 0) 15 0 (q.ops 3 2)).linkUp p credits).twinPartner p (q.ops 3 2))
      else if t.linkState p = 2 then
        .next ((((t.setRegF (portReg p 0) 15 0 (q.ops 3 2)).linkUp p credits).sendCtl p 0).twinPartner p (q.ops 3 2))
      else .next t := by
  have hexec : exec (.linkCtlHello p) s = execLinkCtlHello p s := rfl
  rw [hexec]
  unfold execLinkCtlHello
  simp only [hq, hop, ne_eq, not_true_eq_false, if_false, ← hc]

/-- A port comes up by a hello that it can take; whether it is a twin port is not changed by that. -/
theorem linkUp_twinPort (t : State) (p : Port) (node : Nat) (credits : List Nat) :
    ((t.setRegF (portReg p 0) 15 0 node).linkUp p credits).isTwinPort p = t.isTwinPort p := by
  have hstat : linkStat p = portReg p 0 := linkStat_port p
  have hup (u : State) : (u.linkUp p credits).regF (portReg p 0) 29 29 = u.regF (portReg p 0) 29 29 := by
    have hr := linkReg_linkStat p
    rw [hstat] at hr
    unfold State.linkUp
    rw [State.regF, hr.reg_pump, reg_adoptQueue, setLinkState_eq, hstat, ← State.regF,
      State.regF_setRegF_ne _ _ _ (by decide) (by decide) (.inr (by decide))]
    rfl
  unfold State.isTwinPort
  rw [hup, State.regF_setRegF_ne _ _ _ (by decide) (by decide) (.inl (by decide))]

theorem twinPartner_of_not {s : State} {p : Nat} (h : s.isTwinPort p = false) (node : Nat) : s.twinPartner p node = s := by
  unfold State.twinPartner
  rw [h]
  rfl

/-- A fence that ends on a port whose lanes have trained (R342). -/
def State.unfenced (s : State) (p : Nat) : State :=
  ((s.setLink p { s.link p with trainStep := 3, helloSeen := false, viol := [], txq := [], rx := [],
                                granted := ownCredits p, owed := [0, 0, 0, 0] }).setLinkState p 1).sendCtl p 0

theorem unfenced_spec (s : State) (p : Nat) : (s.unfenced p).linkState p = 1 ∧ ((s.unfenced p).link p).trainStep = 3 ∧
    ((s.unfenced p).link p).viol = [] ∧ ((s.unfenced p).link p).rx = [] := by
  have hs := fun t : State => sends_sendCtl t p 0
  have hset (u : State) : (u.setLinkState p 1).link p = u.link p := by
    rw [setLinkState_eq, (onlyRegs_setRegF u _ _ _ _).link]
  unfold State.unfenced
  refine ⟨?_, ?_, ?_, ?_⟩
  · rw [linkState_sendCtl, linkState_setLinkState _ _ (by decide)]
  · rw [(hs _).trainStep, hset, State.link_setLink_self]
  · rw [(hs _).viol, hset, State.link_setLink_self]
  · rw [(hs _).rx, hset, State.link_setLink_self]

theorem exec_unfence {p : Port} {s : State} (h : s.linkState p = 3) : exec (.unfence p) s =
    .next (if s.lanesUp p = false then s.setLinkState p (if (s.link p).trainStep = 0 then 0 else 1) else s.unfenced p) := by
  have hexec : exec (.unfence p) s = execUnfence p s := rfl
  rw [hexec, execUnfence]
  unfold State.unfencePort
  rw [h]
  by_cases hl : s.lanesUp p = false
  · rw [if_pos ⟨rfl, hl⟩, if_pos hl]
  · rw [if_neg fun ⟨_, h⟩ => hl h, if_pos rfl, if_neg hl]
    rfl

/-- Settles O35: the steps of a port's training by `exec_portTrain_early`, `exec_portTrain_aligned` and
`exec_portTrain_unaligned`, the hello by `linkUp_spec`, markers by `markerWord_spec`. -/
theorem portsTrainAndFence : Obligations.PortsTrainAndFence := by
  unfold Obligations.PortsTrainAndFence
  refine ⟨fun p s => ⟨fun marks n h hk hn => ⟨fun hstep => ?_, fun hstep => ⟨fun m hm => ?_, fun hm => ?_⟩⟩, fun h => ?_,
    fun q t credits hq hop hc hst hstep => ⟨?_, fun htwin u hu => ?_⟩, fun q t credits hq hop hc hst => ?_⟩,
    fun p s => ⟨fun h => ?_, fun h => ?_, fun h hl => ?_, fun h hl => ?_, fun h => ?_, fun q t hq hop => ?_⟩,
    fun lane count id m hlane hm => ?_⟩
  · obtain ⟨honly, hst, hcnt⟩ := portBegun_spec h
    have hlink := honly.link p
    rw [exec_portTrain_early h hk hstep]
    obtain ⟨v, hv⟩ : ∃ v, v = (s.portBegun p).setLink p { (s.portBegun p).link p with trainStep := (s.link p).trainStep + 1 } :=
      ⟨_, rfl⟩
    have hvreg (a : Nat) : v.reg a = (s.portBegun p).reg a := by rw [hv, State.reg_setLink]
    have hvlink : (v.link p).trainStep = (s.link p).trainStep + 1 := by rw [hv, State.link_setLink_self]
    rw [← hv, hn]
    by_cases h0 : (s.link p).trainStep = 0
    · rw [if_pos h0]
      have hi : 54 ≤ 62 + p.val := by omega
      refine ⟨_, rfl, ?_, ?_, ?_, fun _ => ready_clockIn v _⟩
      · rw [linkState_of_reg ((linkReg_linkStat _).reg_clockIn v hi), linkState_of_reg (hvreg _), hst]
      · rw [State.regF, (linkReg_port 0x60 (by decide)).reg_clockIn v hi, hvreg, ← State.regF, hcnt]
      · rw [link_clockIn v hi p]
        exact hvlink
    · rw [if_neg h0]
      refine ⟨_, rfl, ?_, ?_, hvlink, fun h => absurd h h0⟩
      · rw [linkState_of_reg (hvreg _), hst]
      · rw [State.regF, hvreg, ← State.regF, hcnt]
  · obtain ⟨honly, hst, hcnt⟩ := portBegun_spec h
    rw [exec_portTrain_aligned h hk hstep hm, hn]
    obtain ⟨v, hv⟩ : ∃ v, v = (s.portBegun p).setLink p { (s.portBegun p).link p with trainStep := 3, marker := some m } :=
      ⟨_, rfl⟩
    have hvreg (a : Nat) : v.reg a = (s.portBegun p).reg a := by rw [hv, State.reg_setLink]
    have hs := sends_sendCtl v p 0
    rw [← hv]
    refine ⟨_, rfl, ?_, ?_, ?_, ?_⟩
    · rw [linkState_sendCtl, linkState_of_reg (hvreg _), hst]
    · rw [State.regF, (linkReg_port 0x60 (by decide)).reg_sendCtl, hvreg, ← State.regF, hcnt]
    · rw [hs.trainStep, hv, State.link_setLink_self]
    · rw [hs.marker, hv, State.link_setLink_self]
  · obtain ⟨honly, hst, hcnt⟩ := portBegun_spec h
    rw [exec_portTrain_unaligned h hk hstep hm, hn]
    exact ⟨_, rfl, hst, hcnt, by rw [honly.link, hstep]⟩
  · have hexec : exec (.portTrainTimeout p) s = execPortTrainTimeout p s := rfl
    rw [hexec, execPortTrainTimeout, if_pos h]
    obtain ⟨v, hv⟩ : ∃ v, v = s.setLink p { s.link p with trainStep := 0, helloSeen := false, marker := none, stream := [],
                                                          rx := [] } := ⟨_, rfl⟩
    obtain ⟨honly, hst, hcnt⟩ := portAttempt_spec v p
    have hvreg (a : Nat) : v.reg a = s.reg a := by rw [hv, State.reg_setLink]
    rw [← hv]
    refine ⟨_, rfl, hst, ?_, ?_, ?_, fun q hq => ?_⟩
    · rw [hcnt, State.regF, hvreg, State.regF]
    · rw [honly.link, hv, State.link_setLink_self]
    · rw [honly.link, hv, State.link_setLink_self]
    · rw [honly.link, hv, State.link_setLink_ne _ _ _ _ hq]
  · rw [exec_linkCtlHello hq hop hc, if_pos ⟨hst, hstep⟩]
  · rw [exec_linkCtlHello hq hop hc, if_pos ⟨hst, hstep⟩,
      twinPartner_of_not ((linkUp_twinPort t p _ credits).trans htwin)] at hu
    rw [← Host.Outcome.next.inj hu]
    exact (linkUp_spec _ p credits).1
  · rw [exec_linkCtlHello hq hop hc, if_neg (by rw [hst]; omega), if_pos hst]
  · exact congrArg Host.Outcome.next (if_neg h)
  · exact congrArg Host.Outcome.next (if_pos h)
  · rw [exec_unfence h, if_neg (by rw [hl]; decide)]
    exact ⟨_, rfl, unfenced_spec s p⟩
  · rw [exec_unfence h, if_pos hl]
  · have hexec : exec (.unfence p) s = execUnfence p s := rfl
    rw [hexec, execUnfence]
    unfold State.unfencePort
    rw [if_neg fun hc => h hc.1, if_neg h]
  · have hexec : exec (.linkCtlFenceNotice p) s = execLinkCtlFenceNotice p s := rfl
    rw [hexec]
    unfold execLinkCtlFenceNotice
    simp only [hq, hop, if_true]
  · rw [hm]
    exact markerWord_spec hlane count id

end Sys2Proof.Machine
end

section
/-! The fabric's reads and writes (R262, R323, R327, R340, R343). -/

namespace Sys2Proof.Machine

open Sys2Proof

/-- A packet that is taken from a receive buffer leaves the registers and memory alone. -/
theorem takeRx_same {s t : State} {l op : Nat} {q : Pkt} (h : s.takeRx l op = some (q, t)) : Same s t := by
  unfold State.takeRx at h
  extract_lets k at h
  split at h
  · cases h
  · obtain ⟨-, rfl⟩ := Prod.mk.inj (Option.some.inj h)
    exact State.freeRx_same _ (Same.upd (Same.refl s)) _ _

/-- A packet that is taken at its flow's turn leaves memory alone. -/
theorem accepted_same {s t : State} {p : Port} {op : Nat} {q : Pkt} (h : s.takeRx p op = some (q, t)) :
    Same s (t.e2eAccept p q).2 := (State.e2eAccept_same t (takeRx_same h) p q).out

theorem badRange_of_same {s t : State} (h : Same s t) (a n : Nat) : t.badRange a n = s.badRange a n := by
  rw [State.badRange, State.poisonIn, h.poison, State.badRange, State.poisonIn]

theorem not_turnedAway {s : State} {p : Port} {src addr n : Nat} {rd : Bool}
    (h : s.permitted (p / 8) src addr n rd = false ∨ s.memPath (6 + p / 8) addr n = true) :
    ¬(s.permitted (p / 8) src addr n rd && !s.memPath (6 + p / 8) addr n) = true := by
  rcases h with h | h
  · rw [h, Bool.false_and]
    decide
  · rw [h, Bool.not_true, Bool.and_false]
    decide

section
variable {p : Port} {s t : State} {q : Pkt}

theorem exec_write (hq : s.takeRx p 0x10 = some (q, t)) : exec (.write p) s =
    if t.permitted (p / 8) q.src (q.ops 5 0) q.len false && !t.memPath (6 + p / 8) (q.ops 5 0) q.len then .next s
    else if !(t.e2eAccept p q).1 then .next (t.e2eAccept p q).2
    else if (t.e2eAccept p q).2.permitted (p / 8) q.src (q.ops 5 0) q.len false then
      .next ((t.e2eAccept p q).2.put .other (q.ops 5 0) q.payload false)
    else .next ((t.e2eAccept p q).2.refusePkt p 7 q false) := by
  have hexec : exec (.write p) s = execWrite p s := rfl
  rw [hexec]
  unfold execWrite
  simp only [hq]

theorem exec_read (hq : s.takeRx p 0x11 = some (q, t)) : exec (.read p) s =
    if t.permitted (p / 8) q.src (q.ops 5 0) (q.ops 7 6) true && !t.memPath (6 + p / 8) (q.ops 5 0) (q.ops 7 6) then .next s
    else if !(t.e2eAccept p q).1 then .next (t.e2eAccept p q).2
    else if q.ops 7 6 < 4 ∨ 8192 < q.ops 7 6 ∨ q.ops 7 6 % 4 ≠ 0 then
      .next ((t.e2eAccept p q).2.refusePkt p 1 q false)
    else if (t.e2eAccept p q).2.permitted (p / 8) q.src (q.ops 5 0) (q.ops 7 6) true then
      .next (((t.e2eAccept p q).2.readRange (q.ops 5 0) (q.ops 7 6)).e2eSend (p / 8) q.src 3 (q.fld 11 10) 0x12
        (q.ops 9 8 * 2 ^ 64) (if (t.e2eAccept p q).2.badRange (q.ops 5 0) (q.ops 7 6) then []
          else Memory.bytes (t.e2eAccept p q).2.mem (q.ops 5 0) (q.ops 7 6)))
    else .next ((t.e2eAccept p q).2.refusePkt p 7 q false) := by
  have hexec : exec (.read p) s = execRead p s := rfl
  rw [hexec]
  unfold execRead
  simp only [hq]

end

section
variable {p : Port} {s t u : State} {q : Pkt} (hq : s.takeRx p 0x12 = some (q, t)) (hacc : t.e2eAccept p q = (true, u))
include hq hacc

/-- A response that answers a read of this module's is used (R396, R397, R404). -/
theorem exec_readResp {r : ReadOut}
    (hr : (u.reads.find? fun r => r.tag.toNat == q.ops 9 8 && r.node.toNat == q.src) = some r) (hlen : q.len = r.bytes) :
    (∀ a, r.use = .reconstruct a → exec (.readResp p) s =
      .next ({ u with reads := u.reads.erase r }.burstBack a r.bytes q.payload)) ∧
    (∀ a, r.use = .restore a → exec (.readResp p) s =
      .next ({ u with reads := u.reads.erase r }.restoreBack a q.payload)) ∧
    (r.use = .pairCheck → exec (.readResp p) s = .next ({ u with reads := u.reads.erase r }.pairBack q.payload)) := by
  have hexec : exec (.readResp p) s = execReadResp p s := rfl
  rw [hexec]
  unfold execReadResp
  simp only [hq, hacc, hr, Bool.not_true, Bool.false_eq_true, if_false, hlen, if_true]
  refine ⟨fun a ha => ?_, fun a ha => ?_, fun ha => ?_⟩
  · simp only [ha]
  · simp only [ha]
  · simp only [ha]

theorem exec_readResp_unasked
    (hr : (u.reads.find? fun r => r.tag.toNat == q.ops 9 8 && r.node.toNat == q.src) = none) :
    exec (.readResp p) s = .next (u.refusePkt p 4 q false) := by
  have hexec : exec (.readResp p) s = execReadResp p s := rfl
  rw [hexec]
  unfold execReadResp
  simp only [hq, hacc, hr, Bool.not_true, Bool.false_eq_true, if_false]

end

/-- Settles O39: a write by `exec_write`, a read by `exec_read`, a response by `exec_readResp`; a packet that is taken
leaves memory as it is (`accepted_same`). -/
theorem fabricReadsAndWrites : Obligations.FabricReadsAndWrites := by
  unfold Obligations.FabricReadsAndWrites
  intro p s t q addr haddr
  subst haddr
  refine ⟨fun hq hacc => ⟨fun hperm hpath => ?_, fun hperm haway => ?_, fun hperm hpath => ?_⟩,
    fun n hq hacc hn hlo hhi hfour => ⟨fun hperm hpath hclean => ?_, fun hperm haway => ?_, fun hperm hpath => ?_⟩,
    fun u hq hacc => ⟨fun r hr hlen => exec_readResp hq hacc hr hlen, fun hr => exec_readResp_unasked hq hacc hr⟩⟩
  · have hmem : ((t.e2eAccept p q).2.put .other (q.ops 5 0) q.payload false).mem =
        Memory.write s.mem (q.ops 5 0) q.payload := by
      rw [State.put_mem, (accepted_same hq).mem]
    rw [exec_write hq, if_neg (not_turnedAway (.inr hpath)), hacc, if_neg (by decide), if_pos hperm]
    refine ⟨_, rfl, hmem, fun j hj => ?_⟩
    rw [hmem, Memory.byte_write_out _ _ _ _ hj]
  · rw [exec_write hq, if_neg (not_turnedAway haway), hacc, if_neg (by decide), hperm, if_neg Bool.false_ne_true]
  · rw [exec_write hq, hperm, hpath]
    rfl
  · subst hn
    have hbad : (t.e2eAccept p q).2.badRange (q.ops 5 0) (q.ops 7 6) = false :=
      (badRange_of_same (accepted_same hq) _ _).trans hclean
    rw [exec_read hq, if_neg (not_turnedAway (.inr hpath)), hacc, if_neg (by decide), if_neg (by omega), if_pos hperm, hbad,
      if_neg Bool.false_ne_true, (accepted_same hq).mem]
  · subst hn
    rw [exec_read hq, if_neg (not_turnedAway haway), hacc, if_neg (by decide), if_neg (by omega), hperm,
      if_neg Bool.false_ne_true]
  · subst hn
    rw [exec_read hq, hperm, hpath]
    rfl

end Sys2Proof.Machine
end

section
/-! Pass 1 of the update engines (R286, R296, R307, R392, R396). -/

namespace Sys2Proof.Machine

open Sys2Proof

/-! ### Engines -/

theorem Works.engine {s t : State} (h : Works s t) (e : Nat) : t.engine e = s.engine e := by
  unfold State.engine
  rw [h]

theorem group_of_ugroup {s : State} {g : Nat} {u : UGroup} (h : s.ugroup g = some u) : u.group = g := by
  unfold State.ugroup at h
  split at h
  · have hfound := List.find?_some h
    exact eq_of_beq hfound
  · cases h

theorem engineRuns_of_groupReach {s : State} {e : Nat} {u : UGroup} (h : s.groupReach e u = true) :
    s.engineRuns e = true :=
  (Bool.and_eq_true _ _ ▸ h : _ ∧ _).1

theorem sendMwr_works (s : State) (e step group off : Nat) (bytes : List Byte) (isRec : Bool) :
    Works s (s.sendMwr e step group off bytes isRec) := Works.e2eSend s _ _ _ _ _ _ _

theorem e2eSend_mem (s : State) (e peer vc flow opcode ops : Nat) (payload : List Byte) :
    (s.e2eSend e peer vc flow opcode ops payload).mem = s.mem :=
  (State.e2eSend_same s (Same.refl s) e peer vc flow opcode ops payload).mem

/-- A write of an engine stores its bytes, and goes to the twin where it is mirrored. -/
theorem updWrite_spec (s : State) (e step group a : Nat) (bytes : List Byte) (isRec bad : Bool) :
    Works s (s.updWrite e step group a bytes isRec bad) ∧
      (s.updWrite e step group a bytes isRec bad).mem = Memory.write s.mem a bytes := by
  unfold State.updWrite
  by_cases hb : bytes.isEmpty = true
  · rw [if_pos hb, List.isEmpty_iff.mp hb]
    exact ⟨Works.refl s, rfl⟩
  rw [if_neg hb]
  extract_lets t
  have ht : Works s t ∧ t.mem = Memory.write s.mem a bytes := ⟨Works.put s _ _ _ _, State.put_mem s _ _ _ _⟩
  split
  · split
    · exact ⟨ht.1.trans (sendMwr_works t _ _ _ _ _ _), (e2eSend_mem t _ _ _ _ _ _ _).trans ht.2⟩
    · exact ht
  · exact ht

theorem engine_setRun_self (s : State) (e g step : Nat) (r : GrpRun) : (s.setRun e g step r).engine e =
    { s.engine e with groups := SMap.set (fun _ => none) (s.engine e).groups (2 * g + step % 2) (some r) } :=
  State.engine_setEngine_self _ _ _

theorem run_setRun_self (s : State) (e g : Nat) {step : Nat} {r : GrpRun} (hr : r.step.toNat = step) :
    (s.setRun e g step r).run? e g step = some r := by
  unfold State.run?
  rw [engine_setRun_self, SMap.get_set_self]
  exact if_pos hr

/-- The run of a group that is found is the run of the step asked for. -/
theorem step_of_run {s : State} {e g step : Nat} {r : GrpRun} (h : s.run? e g step = some r) : r.step.toNat = step := by
  unfold State.run? at h
  split at h
  · split at h
    · rename_i hstep
      rw [← Option.some.inj h]
      exact hstep
    · cases h
  · cases h

/-! ### Chunks -/

/-- A chunk that is none of the engine's own sub-shard, or that it has had already (R286, R307). -/
def GrpRun.refuses (r : GrpRun) (u : UGroup) (e : Half) (c : Chunk) : Bool :=
  !(enginesOf u.engines).contains e || decide (c.off % 2048 ≠ 0) ||
    decide ((u.range e).2 < (u.range e).1 + c.off + c.vals.length) || r.normSent ||
    r.covered.contains (((u.range e).1 + c.off) / 2048)

theorem refuses_iff {r : GrpRun} {u : UGroup} {e : Half} {c : Chunk} : r.refuses u e c = true ↔
    (e.val ∉ enginesOf u.engines ∨ c.off % 2048 ≠ 0 ∨ (u.range e).2 < (u.range e).1 + c.off + c.vals.length ∨
      r.normSent = true ∨ ((u.range e).1 + c.off) / 2048 ∈ r.covered) := by
  simp only [GrpRun.refuses, Bool.or_eq_true, Bool.not_eq_true', decide_eq_true_eq, ← Bool.not_eq_true, List.contains_iff_mem,
    or_assoc]

/-- A chunk is passed, unless a word that the pass reads is poisoned (R392, R396). -/
def State.chunkPassed (s t : State) (u : UGroup) (e : Half) (c : Chunk) (r : GrpRun) (need : List (Nat × Nat)) : Out :=
  match s.poisonIn need with
  | some a => .next (s.stateBad u.group a)
  | none => .next ((t.readRanges need).passChunk u e c.step.toNat c r)

/-- A row record outside the engine's range, that the step has had already, or that finds no room (R296, R307). -/
def GrpRun.refusesRow (r : GrpRun) (u : UGroup) (e : Half) (c : Chunk) (x : Nat) : Bool :=
  !(enginesOf u.engines).contains e || !decide ((u.range e).1 ≤ c.off ∧ c.off < (u.range e).2) || r.normSent ||
    decide (u.maxRows ≤ x) || r.rows.any fun p => p.1 == c.off

theorem refusesRow_iff {r : GrpRun} {u : UGroup} {e : Half} {c : Chunk} {x : Nat} : r.refusesRow u e c x = true ↔
    (e.val ∉ enginesOf u.engines ∨ c.off < (u.range e).1 ∨ (u.range e).2 ≤ c.off ∨ r.normSent = true ∨ u.maxRows ≤ x ∨
      ∃ p ∈ r.rows, p.1 = c.off) := by
  simp only [GrpRun.refusesRow, Bool.or_eq_true, Bool.not_eq_true', decide_eq_true_eq,
    ← Bool.not_eq_true, List.contains_iff_mem, List.any_eq_true, beq_iff_eq, not_and_or, Nat.not_le, Nat.not_lt, or_assoc]

/-- The row joins those of the run, with its sums. -/
def GrpRun.withRow (r : GrpRun) (c : Chunk) (x : Nat) : GrpRun :=
  { r with rows := r.rows ++ [(c.off, x)], sqg := (pairAdd r.sqg (sumSq c.vals)).1,
           nonfin := r.nonfin || c.vals.any Machine.nonfin }

section
variable {e : Half} {s : State} {c : Chunk} {l : List Chunk} {u : UGroup} (hin : (s.engine e).inQ = c :: l)
  (hu : s.ugroup c.group = some u) (hreach : s.groupReach e u = true)
include hin hu hreach

/-- What pass 1 reads for a chunk: the record, and the state where the rule sums it. -/
theorem exec_updChunk (hkind : u.kind ≠ 1) {t : State} (ht : t = s.setEngine e { s.engine e with inQ := l }) {r : GrpRun}
    (hr : r = (s.run? e u.group c.step.toNat).getD (GrpRun.fresh c.step.toNat)) {need : List (Nat × Nat)}
    (hneed : need = (u.recAt (s.curRec u (c.step.toNat - 1)), 32) :: (if u.rule = 3 then
      u.stateRanges (s.curRec u (c.step.toNat - 1)) ((u.range e).1 + c.off) c.vals.length else [])) :
    exec (.updChunk e) s =
      if c.last then .next (if r.normSent then t else t.endPass1 u e c.step.toNat r)
      else if r.refuses u e c then .next (t.dropChunk e u.group)
      else s.chunkPassed t u e c r need := by
  have hexec : exec (.updChunk e) s = execUpdChunk e s := rfl
  have hruns : ¬s.engineRuns e = false := by rw [engineRuns_of_groupReach hreach]; decide
  have hgo : ¬(u.kind = 1 ∨ s.groupReach e u = false) := by rw [hreach]; exact fun h => h.elim hkind (by decide)
  rw [hexec]
  unfold execUpdChunk
  rw [if_neg hruns]
  simp only [hin, hu, if_neg hgo]
  rw [← hr, ← ht, ← hneed]
  rfl

/-- What the record's poison leaves of a row record: it is taken, or dropped (R296, R307). -/
theorem exec_updRowRecord (hkind : u.kind = 1)
    (hclean : s.poisonIn [(u.recAt (s.curRec u (c.step.toNat - 1)), 32)] = none)
    {t : State} (ht : t = s.setEngine e { s.engine e with inQ := l }) {r : GrpRun}
    (hr : r = (s.run? e u.group c.step.toNat).getD (GrpRun.fresh c.step.toNat)) :
    exec (.updRowRecord e) s =
      if c.last then .next (if r.normSent then t else t.endPass1 u e c.step.toNat r)
      else if r.refusesRow u e c (s.rowsTaken u c.step.toNat) then .next (t.dropChunk e u.group)
      else .next (((t.countIntake e (s.wireWidth u * c.vals.length)).updWrite e c.step.toNat u.group
        (u.parkRow (s.rowsTaken u c.step.toNat)) (leBytes 4 c.off ++ leBytes 4 0 ++ wordBytes c.vals) false false).setRun e
          u.group c.step.toNat (r.withRow c (s.rowsTaken u c.step.toNat))) := by
  have hexec : exec (.updRowRecord e) s = execUpdRowRecord e s := rfl
  have hruns : ¬s.engineRuns e = false := by rw [engineRuns_of_groupReach hreach]; decide
  have hgo : ¬(u.kind ≠ 1 ∨ s.groupReach e u = false) := by rw [hreach]; exact fun h => h.elim (· hkind) (by decide)
  rw [hexec]
  unfold execUpdRowRecord
  rw [if_neg hruns]
  simp only [hin, hu, if_neg hgo, hclean]
  rw [← hr, ← ht]
  rfl

end

/-- A row that pass 1 takes: its record is parked, and its run notes it. -/
theorem rowTaken_spec {s t : State} {e : Half} {u : UGroup} {c : Chunk} {l : List Chunk} {x n : Nat} {bytes : List Byte}
    {q : GrpRun} (ht : t = s.setEngine e { s.engine e with inQ := l }) {v : State}
    (hv : v = ((t.countIntake e n).updWrite e c.step.toNat u.group (u.parkRow x) bytes false false).setRun e u.group
      c.step.toNat q) : v.mem = Memory.write s.mem (u.parkRow x) bytes ∧ (v.engine e).inQ = l ∧
      SMap.get (fun _ => none) (v.engine e).groups (2 * u.group + c.step.toNat % 2) = some q := by
  obtain ⟨hworks, hmem⟩ := updWrite_spec (t.countIntake e n) e c.step.toNat u.group (u.parkRow x) bytes false false
  have hcount : Reports t (t.countIntake e n) := count_reports t _ _ _ _
  have htmem : t.mem = s.mem := by rw [ht, State.setEngine_mem]
  have hteng : t.engine e = { s.engine e with inQ := l } := by rw [ht, State.engine_setEngine_self]
  have heng := hworks.engine e
  rw [(Works.of_reports hcount).engine, hteng] at heng
  rw [hcount.mem, htmem] at hmem
  rw [hv]
  refine ⟨hmem, ?_, ?_⟩
  · rw [engine_setRun_self, heng]
  · rw [engine_setRun_self, SMap.get_set_self]

/-- Settles O31: a chunk by `exec_updChunk`, a row record by `exec_updRowRecord`. -/
theorem pass1TakesGradients : Obligations.Pass1TakesGradients := by
  unfold Obligations.Pass1TakesGradients
  refine ⟨fun e s t c l u r lo j need hin hu hkind hreach ht hr hlo hj hneed => ?_,
    fun e s t c l u r hin hu hkind hreach hclean ht hr => ?_⟩
  · subst hlo hj
    have hexec := exec_updChunk hin hu hreach hkind ht hr hneed
    refine ⟨fun hlast => ?_, fun hlast hown hoff hle hsent hnew => ?_, fun hlast hdrop => ?_⟩
    · rw [hexec, if_pos hlast]
    · have hno : ¬r.refuses u e c = true := by
        rw [refuses_iff]
        rintro (h | h | h | h | h)
        · exact h hown
        · exact h hoff
        · omega
        · exact Bool.noConfusion (hsent.symm.trans h)
        · exact hnew h
      rw [hexec, if_neg (by rw [hlast]; decide), if_neg hno]
      unfold State.chunkPassed
      exact ⟨fun hclean => by rw [hclean], fun a hbad => by rw [hbad]⟩
    · rw [hexec, if_neg (by rw [hlast]; decide), if_pos (refuses_iff.mpr hdrop)]
  · have hexec := exec_updRowRecord hin hu hreach hkind hclean ht hr
    refine ⟨fun hlast => ?_, fun hlast hown hlo hhi hsent hroom hnew => ?_, fun hlast hdrop => ?_⟩
    · rw [hexec, if_pos hlast]
    · have hno : ¬r.refusesRow u e c (s.rowsTaken u c.step.toNat) = true := by
        rw [refusesRow_iff]
        rintro (h | h | h | h | h | ⟨p, hp, h⟩)
        · exact h hown
        · omega
        · omega
        · exact Bool.noConfusion (hsent.symm.trans h)
        · omega
        · exact hnew p hp h
      rw [hexec, if_neg (by rw [hlast]; decide), if_neg hno]
      exact ⟨_, rfl, rowTaken_spec ht rfl⟩
    · rw [hexec, if_neg (by rw [hlast]; decide), if_pos (refusesRow_iff.mpr hdrop)]

end Sys2Proof.Machine
end

section
/-! Pass 2 of the update engines (R287, R288, R289, R298, R305). -/

namespace Sys2Proof.Machine

open Sys2Proof

/-! ### What a breach record leaves alone -/

/-- State t comes from s by breach records and reports. -/
def Records (s t : State) : Prop :=
  t = { s with
    regs := t.regs, islands := t.islands, links := t.links, log := t.log, evtSeq := t.evtSeq, thrFired := t.thrFired,
    breaches := t.breaches, breachQ := t.breachQ, freeCtr := t.freeCtr }

theorem Records.trans {s t u : State} (h : Records s t) (g : Records t u) : Records s u := by
  unfold Records at *
  rw [g, h]

theorem Records.of_reports {s t : State} (h : Reports s t) : Records s t := by
  unfold Records Reports at *
  rw [h]

theorem Records.engine {s t : State} (h : Records s t) (e : Nat) : t.engine e = s.engine e := by
  unfold State.engine
  rw [h]

theorem Records.ctl {s t : State} (h : Records s t) : t.ctl = s.ctl := by rw [h]

theorem records_withBreaches (s : State) (l : List Breach) : Records s { s with breaches := l } := rfl

theorem records_withBreachQ (s : State) (l : List Breach) : Records s { s with breachQ := l } := rfl

theorem breach_records (s : State) (i : Nat) (b : BreachInfo) : Records s (s.breach i b) := by
  unfold State.breach
  extract_lets +onlyGivenNames r t u v w w' x
  have hu : Records s u := (Records.of_reports (setIsland_reports s i _)).trans (records_withBreaches t _)
  have hw : Records u w := .of_reports ((inc_reports u _ _).trans (((inc_reports _ _ _).trans
    (count_reports v 60 0x344 0 1)).trans (count_reports _ 61 0x344 0 1)))
  have hx : Records w x := by
    unfold x
    split
    · exact (records_withBreachQ w _).trans (.of_reports (setRegF_reports w' _ _ _ _))
    · exact .of_reports (Reports.refl w)
  exact ((hu.trans hw).trans hx).trans (.of_reports (sendEvent_reports x 5 r.bytes))

theorem records_draw (s : State) : Records s s.draw.2 := rfl

theorem breachOpen_records (s : State) (i : Nat) (b : BreachInfo) : Records s (s.breachOpen i b) :=
  (records_draw s).trans (breach_records _ _ _)

/-! ### The registers of an engine -/

theorem evcPlace_edgeBase {d o : Nat} (ho : o < 0xC0000) : evcPlace (edgeBase d + o) = none := by
  have hw : (edgeBase d + o) / 0x01000000 = d + 7 := by unfold edgeBase; omega
  have hoff : (edgeBase d + o) % 0x01000000 = o := by unfold edgeBase; omega
  have hzero : ¬d + 7 = 0 := by omega
  have hdie : ¬(d + 7 < 7 ∧ 0x00100000 ≤ o) := by omega
  unfold evcPlace
  simp only [hw, hoff]
  rw [if_neg hzero, if_neg hdie, if_pos ho]

/-- A register of an update engine. -/
def EngineReg (a : Nat) : Prop := ∃ d o, 0x20000 ≤ o ∧ o < 0x22000 ∧ a = edgeBase d + o

theorem engineReg_late (e : Half) : EngineReg (updReg Reg.UPD_RECOMP_LATE_CNT e) :=
  ⟨e / 2, 0x2002C + 0x1000 * (e.val % 2), by omega, by omega, Nat.add_assoc _ _ _⟩

theorem engineReg_skip (e : Half) : EngineReg (updReg Reg.UPD_NONFIN_SKIP_CNT e) :=
  ⟨e / 2, 0x20024 + 0x1000 * (e.val % 2), by omega, by omega, Nat.add_assoc _ _ _⟩

section
variable {a : Nat} (ha : EngineReg a)
include ha

theorem EngineReg.evcPlace : evcPlace a = none := by
  obtain ⟨d, o, -, ho, rfl⟩ := ha
  exact evcPlace_edgeBase (by omega)

/-- It is none of the collectives' states. -/
theorem EngineReg.ne_coll (h : Nat) : a ≠ Reg.CLV_COLL_STAT (h / 2) (h % 2) := by
  obtain ⟨d, o, hlo, ho, rfl⟩ := ha
  unfold Reg.CLV_COLL_STAT edgeBase
  omega

theorem EngineReg.ne_global {b : Nat} (hb : b < 0x1000) : a ≠ b := by
  obtain ⟨d, o, -, -, rfl⟩ := ha
  unfold edgeBase
  omega

end

/-! ### The rest of a skipped group -/

theorem onlyRegs_restColl (s : State) (idx : Nat) : OnlyRegs s (s.restColl idx) :=
  OnlyRegs.foldl (fun s _ => pred_ite (P := OnlyRegs s) (onlyRegs_setReg s _ _) (OnlyRegs.refl s)) _ s

theorem onlyRegs_restGroup (s : State) (g step : Nat) : OnlyRegs s (s.restGroup g step) := by
  unfold State.restGroup
  split
  · exact OnlyRegs.refl s
  · refine OnlyRegs.foldl (fun s i => ?_) _ s
    split
    · exact pred_ite (P := OnlyRegs s) (onlyRegs_restColl s _) (OnlyRegs.refl s)
    · exact OnlyRegs.refl s

section
variable {a : Nat} (ha : EngineReg a)
include ha

theorem EngineReg.reg_restColl (s : State) (idx : Nat) : (s.restColl idx).reg a = s.reg a := by
  refine State.reg_foldl _ a _ (fun s h _ => ?_) s
  split
  · exact State.reg_setReg_ne s _ _ _ (ha.ne_coll h)
  · rfl

theorem EngineReg.reg_restGroup (s : State) (g step : Nat) : (s.restGroup g step).reg a = s.reg a := by
  unfold State.restGroup
  split
  · rfl
  · refine State.reg_foldl _ a _ (fun s i _ => ?_) s
    split
    · split
      · exact ha.reg_restColl s _
      · rfl
    · rfl

end

/-! ### A norm result -/

/-- What a norm result does to a mask rebuild that is late (R305). -/
def State.noteLate (s : State) (u : UGroup) (e : Half) (a : Norm) : State :=
  if u.kind = 2 ∧ a.ready = false then s.lateRebuild u e else s

theorem onlyRegs_noteLate (s : State) (u : UGroup) (e : Half) (a : Norm) : OnlyRegs s (s.noteLate u e a) := by
  refine pred_ite (P := OnlyRegs s) ?_ (OnlyRegs.refl s)
  unfold State.lateRebuild
  split
  · exact pred_ite (P := OnlyRegs s) ((onlyRegs_inc s _ _).trans (onlyRegs_setRegF _ _ _ _ _)) (OnlyRegs.refl s)
  · exact OnlyRegs.refl s

theorem reg_noteLate_late {s : State} {u : UGroup} {e : Half} {a : Norm} {b : Rebuild} (hkind : u.kind = 2)
    (hready : a.ready = false) (hb : (s.engine e).rebuild = some b) (hg : b.group = u.group) :
    (s.noteLate u e a).reg (updReg Reg.UPD_RECOMP_LATE_CNT e) =
      satAdd (s.reg (updReg Reg.UPD_RECOMP_LATE_CNT e)) 1 := by
  have hne : updReg Reg.UPD_RECOMP_LATE_CNT e ≠ updReg Reg.UPD_CTL e := by
    simp only [updReg, Reg.UPD_RECOMP_LATE_CNT, Reg.UPD_CTL]
    omega
  unfold State.noteLate State.lateRebuild
  rw [if_pos ⟨hkind, hready⟩, hb]
  dsimp only
  rw [if_pos hg, State.reg_setRegF_ne _ _ _ _ _ _ hne, State.reg_inc_self]

theorem reg_noteLate_skip (s : State) (u : UGroup) (e : Half) (a : Norm) :
    (s.noteLate u e a).reg (updReg Reg.UPD_NONFIN_SKIP_CNT e) = s.reg (updReg Reg.UPD_NONFIN_SKIP_CNT e) := by
  have hctl : updReg Reg.UPD_NONFIN_SKIP_CNT e ≠ updReg Reg.UPD_CTL e := by
    simp only [updReg, Reg.UPD_NONFIN_SKIP_CNT, Reg.UPD_CTL]
    omega
  have hlate : updReg Reg.UPD_NONFIN_SKIP_CNT e ≠ updReg Reg.UPD_RECOMP_LATE_CNT e := by
    simp only [updReg, Reg.UPD_NONFIN_SKIP_CNT, Reg.UPD_RECOMP_LATE_CNT]
    omega
  unfold State.noteLate State.lateRebuild
  split
  · split
    · split
      · rw [State.reg_setRegF_ne _ _ _ _ _ _ hctl, State.reg_inc_ne _ _ _ _ hlate]
      · rfl
    · rfl
  · rfl

/-- A skew of the members' step counts is reported where there is one (R298). -/
def State.noteSkew (s : State) (u : UGroup) (e : Half) (a : Norm) (t : Word) : State :=
  if a.tMin != a.tMax then s.skew u e t else s

/-- The step count that a norm result gives (R290, R298). -/
def Norm.count (a : Norm) (own : Word) : Word :=
  if a.tMin != a.tMax then (own &&& 0xFFFF0000#32) + a.tMax.zeroExtend 32 + 1 else own + 1

theorem reg_noteSkew_late (s : State) (u : UGroup) (e : Half) (a : Norm) (t : Word) :
    (s.noteSkew u e a t).reg (updReg Reg.UPD_RECOMP_LATE_CNT e) = s.reg (updReg Reg.UPD_RECOMP_LATE_CNT e) := by
  have hcnt : updReg Reg.UPD_RECOMP_LATE_CNT e ≠ updReg Reg.UPD_STEP_SKEW_CNT e := by
    simp only [updReg, Reg.UPD_RECOMP_LATE_CNT, Reg.UPD_STEP_SKEW_CNT]
    omega
  have hlast : updReg Reg.UPD_RECOMP_LATE_CNT e ≠ updReg Reg.UPD_LAST_SKEW e := by
    simp only [updReg, Reg.UPD_RECOMP_LATE_CNT, Reg.UPD_LAST_SKEW]
    omega
  have hval : updReg Reg.UPD_RECOMP_LATE_CNT e ≠ updReg Reg.UPD_LAST_SKEW_T e := by
    simp only [updReg, Reg.UPD_RECOMP_LATE_CNT, Reg.UPD_LAST_SKEW_T]
    omega
  have he := engineReg_late e
  unfold State.noteSkew
  split
  · rw [State.skew, reg_breachOpen _ _ _ he.evcPlace (he.ne_global (by decide)) (he.ne_global (by decide))
      (he.ne_global (by decide)), State.reg_setReg_ne _ _ _ _ hval, State.reg_setReg_ne _ _ _ _ hlast,
      State.reg_inc_ne _ _ _ _ hcnt]
  · rfl

theorem engine_noteSkew (s : State) (u : UGroup) (e : Half) (a : Norm) (t : Word) (n : Nat) :
    (s.noteSkew u e a t).engine n = s.engine n := by
  unfold State.noteSkew
  split
  · rw [State.skew, (breachOpen_records _ _ _).engine]
    rfl
  · rfl

section
variable {e : Half} {s : State} {step g : Nat} {a : Norm} {l : List (Nat × Nat × Norm)} {u : UGroup} {r : GrpRun}
  (hruns : s.engineRuns e = true) (hq : (s.engine e).normQ = (step, g, a) :: l) (hu : s.ugroup g = some u)
  (hr : s.run? e g step = some r) {v : State} (hv : v = s.setEngine e { s.engine e with normQ := l })
include hu hr hv

/-- A group's run, and the group, are as before once the result is taken from the queue. -/
theorem taken_normResult : v.ugroup g = some u ∧ v.run? e g step = some r ∧ v.curRec u = s.curRec u ∧
    v.recT u = s.recT u ∧ (v.engine e).rebuild = (s.engine e).rebuild ∧ (v.engine e).normQ = l := by
  have heng : v.engine e = { s.engine e with normQ := l } := by rw [hv, State.engine_setEngine_self]
  refine ⟨?_, ?_, ?_, ?_, ?_, ?_⟩
  · rw [hv]
    exact hu
  · unfold State.run? at hr ⊢
    rw [heng]
    exact hr
  · rw [hv]
    rfl
  · rw [hv]
    rfl
  · rw [heng]
  · rw [heng]

include hruns hq

theorem exec_normResult_skipped (hnon : a.nonfin = true) : exec (.normResult e) s =
    .next (((((v.noteLate u e a).setRun e g step { r with norm := some a, skipped := true }).inc
      (updReg Reg.UPD_NONFIN_SKIP_CNT e) 1).logNamed (60 + e / 2) 0x0203 g).restGroup g step) := by
  obtain ⟨hvu, hvr, -⟩ := taken_normResult hu hr hv
  have hexec : exec (.normResult e) s = execNormResult e s := rfl
  rw [hexec]
  unfold execNormResult
  rw [hruns, if_neg (by decide)]
  simp only [hq]
  rw [← hv, hvu, hvr]
  dsimp only
  rw [if_pos hnon]
  rfl

theorem exec_normResult_taken (hfin : a.nonfin = false) {t : Word}
    (ht : t = a.count (s.recT u (s.curRec u (step - 1)))) : exec (.normResult e) s =
    .next (((v.noteSkew u e a t).noteLate u e a).setRun e g step { r with
      norm := some a, clip := u.clipCoef a, t := t, swap := decide (u.kind = 2) && a.ready }) := by
  obtain ⟨hvu, hvr, hcur, hrec, -⟩ := taken_normResult hu hr hv
  have hexec : exec (.normResult e) s = execNormResult e s := rfl
  rw [hexec]
  unfold execNormResult
  rw [hruns, if_neg (by decide)]
  simp only [hq]
  rw [← hv, hvu, hvr]
  dsimp only
  rw [if_neg (by rw [hfin]; decide), ht, ← hrec, ← hcur]
  rfl

end

theorem run_logNamed (s : State) (i name arg e g step : Nat) :
    (s.logNamed i name arg).run? e g step = s.run? e g step := by
  unfold State.run?
  rw [State.engine_logNamed]

theorem OnlyRegs.engine {s t : State} (h : OnlyRegs s t) (e : Nat) : t.engine e = s.engine e := by
  unfold State.engine
  rw [h]

/-- What a skipped group leaves (R287). -/
theorem skipped_spec {s v t : State} {e : Half} {u : UGroup} {a : Norm} {q : GrpRun} {g step i name arg : Nat}
    {l : List (Nat × Nat × Norm)} (hv : v = s.setEngine e { s.engine e with normQ := l }) (hstep : q.step.toNat = step)
    (ht : t = ((((v.noteLate u e a).setRun e g step q).inc (updReg Reg.UPD_NONFIN_SKIP_CNT e) 1).logNamed i name
      arg).restGroup g step) :
    (t.engine e).normQ = l ∧ t.run? e g step = some q ∧ t.mem = s.mem ∧
      t.reg (updReg Reg.UPD_NONFIN_SKIP_CNT e) = satAdd (s.reg (updReg Reg.UPD_NONFIN_SKIP_CNT e)) 1 := by
  have hlate := onlyRegs_noteLate v u e a
  have hrest := onlyRegs_restGroup ((((v.noteLate u e a).setRun e g step q).inc (updReg Reg.UPD_NONFIN_SKIP_CNT e) 1
    ).logNamed i name arg) g step
  rw [← ht] at hrest
  have heng : t.engine e = ((v.noteLate u e a).setRun e g step q).engine e := by
    rw [hrest.engine, State.engine_logNamed]
    rfl
  have hskip := engineReg_skip e
  refine ⟨?_, ?_, ?_, ?_⟩
  · rw [heng, engine_setRun_self, hlate.engine, hv, State.engine_setEngine_self]
  · have hrun := run_setRun_self (v.noteLate u e a) e g hstep
    unfold State.run? at hrun ⊢
    rw [heng]
    exact hrun
  · have hset : (((v.noteLate u e a).setRun e g step q).inc (updReg Reg.UPD_NONFIN_SKIP_CNT e) 1).mem =
      (v.noteLate u e a).mem := rfl
    rw [hrest.mem, State.logNamed_mem, hset, hlate.mem, hv, State.setEngine_mem]
  · rw [ht, hskip.reg_restGroup, State.reg_logNamed _ _ _ _ _ hskip.evcPlace, State.reg_inc_self]
    have hset : ((v.noteLate u e a).setRun e g step q).reg (updReg Reg.UPD_NONFIN_SKIP_CNT e) =
      (v.noteLate u e a).reg (updReg Reg.UPD_NONFIN_SKIP_CNT e) := State.reg_setEngine _ _ _ _
    rw [hset, reg_noteLate_skip, hv, State.reg_setEngine]

/-- What a result leaves that skips nothing (R288). -/
theorem taken_spec {s v t : State} {e : Half} {u : UGroup} {a : Norm} {q : GrpRun} {g step : Nat}
    {l : List (Nat × Nat × Norm)} (hv : v = s.setEngine e { s.engine e with normQ := l }) (hstep : q.step.toNat = step)
    (ht : t = (v.noteLate u e a).setRun e g step q) :
    (t.engine e).normQ = l ∧ t.run? e g step = some q ∧ t.mem = s.mem := by
  have hlate := onlyRegs_noteLate v u e a
  rw [ht]
  refine ⟨?_, run_setRun_self _ e g hstep, ?_⟩
  · rw [engine_setRun_self, hlate.engine, hv, State.engine_setEngine_self]
  · have hset : ((v.noteLate u e a).setRun e g step q).mem = (v.noteLate u e a).mem := rfl
    rw [hset, hlate.mem, hv, State.setEngine_mem]

theorem reg_setRun (s : State) (e g step : Nat) (r : GrpRun) (a : Nat) : (s.setRun e g step r).reg a = s.reg a :=
  State.reg_setEngine _ _ _ _

theorem updLate_ne_skip (e : Half) : updReg Reg.UPD_RECOMP_LATE_CNT e ≠ updReg Reg.UPD_NONFIN_SKIP_CNT e := by
  simp only [updReg, Reg.UPD_NONFIN_SKIP_CNT, Reg.UPD_RECOMP_LATE_CNT]
  omega

/-- Settles O32: pass 2 by the equation of its start, a norm result by whether its group is skipped. -/
theorem pass2Starts : Obligations.Pass2Starts := by
  unfold Obligations.Pass2Starts
  refine ⟨fun e g s u r a hu hstart hnorm hreach => ?_, fun e s step g a l u r hruns hq hu hr => ?_⟩
  · have hgo : ¬s.groupReach e u = false := by rw [hreach]; decide
    have hexec : exec (.pass2Start e g) s = execPass2Start e g s := rfl
    refine ⟨fun hclean q t hqd ht => ?_, fun x hbad => ?_⟩
    · rw [hexec]
      unfold execPass2Start
      simp only [hu, hstart, if_neg hgo, hclean, hnorm]
      rw [ht, hqd, hnorm]
      rfl
    · rw [hexec]
      unfold execPass2Start
      simp only [hu, hstart, if_neg hgo, hbad]
  · obtain ⟨v, hv⟩ : ∃ v, v = s.setEngine e { s.engine e with normQ := l } := ⟨_, rfl⟩
    have hstep := step_of_run hr
    have hvreg (b : Nat) : v.reg b = s.reg b := by rw [hv, State.reg_setEngine]
    have hskipped := exec_normResult_skipped hruns hq hu hr hv
    have htaken (hfin : a.nonfin = false) := exec_normResult_taken hruns hq hu hr hv hfin rfl
    refine ⟨fun b hkind hready hb hg => ?_, fun hnon => ?_, fun hfin hagree => ?_⟩
    · have hlate := engineReg_late e
      obtain ⟨-, -, -, -, hrebuild, -⟩ := taken_normResult hu hr hv
      cases hnon : a.nonfin with
      | true =>
        refine ⟨_, hskipped hnon, ?_⟩
        rw [hlate.reg_restGroup, State.reg_logNamed _ _ _ _ _ hlate.evcPlace,
          State.reg_inc_ne _ _ _ _ (updLate_ne_skip e), reg_setRun,
          reg_noteLate_late hkind hready (hrebuild.trans hb) hg, hvreg]
      | false =>
        refine ⟨_, htaken hnon, ?_⟩
        have hb' : ((v.noteSkew u e a (a.count (s.recT u (s.curRec u (step - 1))))).engine e).rebuild = some b := by
          rw [engine_noteSkew, hrebuild, hb]
        rw [reg_setRun, reg_noteLate_late hkind hready hb' hg, reg_noteSkew_late, hvreg]
    · obtain ⟨hl, hrun, hmem, hreg⟩ := skipped_spec (a := a) (u := u)
        (q := { r with norm := some a, skipped := true }) hv hstep rfl
      exact ⟨_, hskipped hnon, hl, hrun, hreg, hmem⟩
    · have hsame : (a.tMin != a.tMax) = false := by rw [hagree]; exact bne_self_eq_false _
      have hskew (t : Word) : v.noteSkew u e a t = v := by rw [State.noteSkew, hsame]; rfl
      have hcount : a.count (s.recT u (s.curRec u (step - 1))) = s.recT u (s.curRec u (step - 1)) + 1 := by
        rw [Norm.count, hsame]; rfl
      have hexec := htaken hfin
      rw [hskew] at hexec
      obtain ⟨hl, hrun, hmem⟩ := taken_spec (a := a) (u := u) (q := { r with
        norm := some a, clip := u.clipCoef a, t := a.count (s.recT u (s.curRec u (step - 1))),
        swap := decide (u.kind = 2) && a.ready }) hv hstep rfl
      exact ⟨_, _, hexec, hl, hrun, rfl, rfl, hcount, rfl, rfl, hmem⟩

end Sys2Proof.Machine
end

section
/-! SUPPORT. What the work of the module leaves of the last committed step and of the controller's commit record
(R33, R37, R300). -/

namespace Sys2Proof.Machine

open Sys2Proof

/-! ### The step number's register -/

theorem globalReg_step : GlobalReg Reg.GLB_STEP_NUM := by
  unfold GlobalReg
  decide

/-- A register of a die, an edge die or a core is none of the global block. -/
theorem step_ne_block {a : Nat} (h : 0x01000000 ≤ a) : Reg.GLB_STEP_NUM ≠ a := by
  rintro rfl
  exact absurd h (by decide)

theorem step_ne_core (c o : Nat) : Reg.GLB_STEP_NUM ≠ coreBase c + o :=
  step_ne_block (by unfold coreBase; omega)

theorem step_ne_edge (e o : Nat) : Reg.GLB_STEP_NUM ≠ edgeBase e + o :=
  step_ne_block (by unfold edgeBase; omega)

theorem step_ne_die (d o : Nat) : Reg.GLB_STEP_NUM ≠ dieBase d + o :=
  step_ne_block (by unfold dieBase; omega)

theorem step_ne_coll (h : Nat) : Reg.GLB_STEP_NUM ≠ Reg.CLV_COLL_STAT (h / 2) (h % 2) :=
  step_ne_block (by unfold Reg.CLV_COLL_STAT edgeBase; omega)

theorem step_ne_evc {b a : Nat} (h : Reg.evcBase b ≤ a) : Reg.GLB_STEP_NUM ≠ a := by
  refine step_ne_block (Nat.le_trans ?_ h)
  unfold Reg.evcBase coreBase dieBase edgeBase
  split
  · omega
  · split <;> omega

/-! ### What leaves the controller's state as it is -/

/-- The last committed step and the controller's state are as before. -/
structure SameCtl (s t : State) : Prop where
  ctl : t.ctl = s.ctl
  reg : t.reg Reg.GLB_STEP_NUM = s.reg Reg.GLB_STEP_NUM

namespace SameCtl

theorem refl (s : State) : SameCtl s s := ⟨rfl, rfl⟩

theorem trans {s t u : State} (h : SameCtl s t) (g : SameCtl t u) : SameCtl s u :=
  ⟨g.ctl.trans h.ctl, g.reg.trans h.reg⟩

theorem foldl {α : Type} {f : State → α → State} (h : ∀ s a, SameCtl s (f s a)) (l : List α) (s : State) :
    SameCtl s (l.foldl f s) := by
  induction l generalizing s with
  | nil => exact refl s
  | cons a l ih => exact (h s a).trans (ih (f s a))

theorem of_reports {s t : State} (h : Reports s t) (hreg : t.reg Reg.GLB_STEP_NUM = s.reg Reg.GLB_STEP_NUM) :
    SameCtl s t := ⟨h.ctl, hreg⟩

theorem committed {s t : State} (h : SameCtl s t) : t.committed = s.committed := by
  unfold State.committed
  rw [h.reg]

section
variable (s : State)

/-! #### The state's operations -/

theorem setReg {a : Nat} (v : Word) (h : Reg.GLB_STEP_NUM ≠ a) : SameCtl s (s.setReg a v) :=
  ⟨rfl, State.reg_setReg_ne s _ _ _ h⟩

theorem setRegF {a : Nat} (hi lo v : Nat) (h : Reg.GLB_STEP_NUM ≠ a) : SameCtl s (s.setRegF a hi lo v) :=
  setReg s _ h

theorem inc {a : Nat} (n : Nat) (h : Reg.GLB_STEP_NUM ≠ a) : SameCtl s (s.inc a n) := setReg s _ h

theorem setIsland (i : Nat) (v : Island) : SameCtl s (s.setIsland i v) := ⟨rfl, rfl⟩
theorem setCore (c : Nat) (v : CoreSt) : SameCtl s (s.setCore c v) := ⟨rfl, rfl⟩
theorem setDie (d : Nat) (v : DieSt) : SameCtl s (s.setDie d v) := ⟨rfl, rfl⟩
theorem setBridge (b : Nat) (v : BridgeSt) : SameCtl s (s.setBridge b v) := ⟨rfl, rfl⟩
theorem setEngine (e : Nat) (v : EngineSt) : SameCtl s (s.setEngine e v) := ⟨rfl, rfl⟩
theorem setLink (l : Nat) (v : LinkSt) : SameCtl s (s.setLink l v) := ⟨rfl, rfl⟩
theorem setTxFlow (f : Nat) (v : TxFlow) : SameCtl s (s.setTxFlow f v) := ⟨rfl, rfl⟩
theorem setHostQ (q : Nat) (v : HostQ) : SameCtl s (s.setHostQ q v) := ⟨rfl, rfl⟩
theorem setFeed (f : Nat) (v : Option Feed) : SameCtl s (s.setFeed f v) := ⟨rfl, rfl⟩
theorem setWindow (w : Nat) (v : Option Window) : SameCtl s (s.setWindow w v) := ⟨rfl, rfl⟩
theorem draw : SameCtl s s.draw.2 := ⟨rfl, rfl⟩
theorem poison (p : List Nat) : SameCtl s { s with poison := p } := ⟨rfl, rfl⟩
theorem xfer (l : List HeldPkt) : SameCtl s { s with xfer := l } := ⟨rfl, rfl⟩
theorem norms (l : List NormRun) : SameCtl s { s with norms := l } := ⟨rfl, rfl⟩
theorem runs (l : List Staged) (k : List NormRun) : SameCtl s { s with staged := l, norms := k } := ⟨rfl, rfl⟩
theorem prog (p : Option Prog) : SameCtl s { s with prog := p } := ⟨rfl, rfl⟩
theorem breaches (l : List Breach) : SameCtl s { s with breaches := l } := ⟨rfl, rfl⟩
theorem breachQ (l : List Breach) : SameCtl s { s with breachQ := l } := ⟨rfl, rfl⟩
theorem lostPolders (l : List Nat) : SameCtl s { s with lostPolders := l } := ⟨rfl, rfl⟩
theorem fatal (b : Option Breach) : SameCtl s { s with fatal := b } := ⟨rfl, rfl⟩
theorem standby (b : Bool) : SameCtl s { s with standby := b } := ⟨rfl, rfl⟩
theorem healthDirty (b : Bool) : SameCtl s { s with healthDirty := b } := ⟨rfl, rfl⟩
theorem evcStage (m : SMap Word) : SameCtl s { s with evcStage := m } := ⟨rfl, rfl⟩
theorem freeCtr (n : Nat) : SameCtl s { s with freeCtr := n } := ⟨rfl, rfl⟩
theorem openWindow (cls polder obj : Nat) : SameCtl s (s.openWindow cls polder obj) := ⟨rfl, rfl⟩

/-! #### Counters and reports -/

theorem count (b src inst n : Nat) : SameCtl s (s.count b src inst n) := by
  refine of_reports (count_reports s b src inst n) ?_
  rcases Nat.lt_or_ge b 62 with hb | hb
  · exact State.reg_count s b src inst n _ globalReg_step.evcPlace hb
  · exact globalReg_step.reg_count s (by omega) src inst n

theorem linkSend (l : Nat) (p : Pkt) : SameCtl s (s.linkSend l p) :=
  of_reports (linkSend_reports s l p) (globalReg_step.lowPlace.reg_linkSend s l p)

theorem hostSend (lane : Nat) (p : Pkt) : SameCtl s (s.hostSend lane p) := linkSend s _ p

theorem sendEvent (code : Nat) (p : List Byte) : SameCtl s (s.sendEvent code p) :=
  of_reports (sendEvent_reports s code p) (State.reg_sendEvent s code p _ globalReg_step.evcPlace)

theorem addLogBy (i name arg : Nat) (cause : Option Cause) : SameCtl s (s.addLogBy i name arg cause) := ⟨rfl, rfl⟩

theorem announceBy (i code arg : Nat) (args : List Nat) (cause : Option Cause) :
    SameCtl s (s.announceBy i code arg args cause) := (addLogBy s i code arg cause).trans (sendEvent _ _ _)

theorem announce (i code arg : Nat) (args : List Nat) : SameCtl s (s.announce i code arg args) :=
  announceBy s i code arg args none

theorem setMode (m : Nat) : SameCtl s (s.setMode m) :=
  (setRegF s (a := Reg.GLB_STATE) _ _ _ (by decide)).trans (announce _ _ _ _ _)

theorem breach (i : Nat) (b : BreachInfo) : SameCtl s (s.breach i b) :=
  ⟨(breach_records s i b).ctl, reg_breach s i b globalReg_step.evcPlace (by decide) (by decide) (by decide)⟩

theorem breachOpen (i : Nat) (b : BreachInfo) : SameCtl s (s.breachOpen i b) := (draw s).trans (breach _ _ _)

theorem answerHost (h : HostCmd) (cmd status args : Nat) (data : List Byte) :
    SameCtl s (s.answerHost h cmd status args data) := (setHostQ s _ _).trans (hostSend _ _ _)

theorem flushBad (q n : Nat) : SameCtl s (State.flushBad q n s) := by
  induction n generalizing s with
  | zero => exact refl s
  | succ n ih =>
    unfold State.flushBad
    split
    · exact refl s
    split
    · exact refl s
    · exact (answerHost s _ _ _ _ _).trans (ih _)

theorem respond (h : HostCmd) (cmd status args : Nat) (data : List Byte) :
    SameCtl s (s.respond h cmd status args data) := (answerHost s h cmd status args data).trans (flushBad _ _ _)

/-! #### Memory -/

theorem readUnit (u : Nat) : SameCtl s (s.readUnit u) :=
  of_reports (readUnit_reports s u) (globalReg_step.reg_readUnit s u)

theorem readRange (a n : Nat) : SameCtl s (s.readRange a n) := foldl readUnit _ s

theorem readElems (l : List (Desc × List Nat)) : SameCtl s (s.readElems l) := foldl readUnit _ s

theorem readSlots (d : Desc) (lo n : Nat) : SameCtl s (s.readSlots d lo n) :=
  pred_ite (P := SameCtl s) (refl s) (readRange s _ _)

theorem readElements (d : Desc) (gs : List (List Nat)) : SameCtl s (s.readElements d gs) :=
  pred_ite (P := SameCtl s) (readElems s _) (foldl (fun s _ => readSlots s d _ _) _ s)

theorem put (w : Writer) (a : Nat) (bytes : List Byte) (bad : Bool) : SameCtl s (s.put w a bytes bad) := by
  obtain ⟨p, hp⟩ := put_writes s w a bytes bad
  exact ⟨by rw [hp], globalReg_step.reg_put s w a bytes bad⟩

theorem copyMem (src dst n : Nat) : SameCtl s (s.copyMem src dst n) :=
  ((readRange s src n).trans (put _ _ _ _ _)).trans (poison _ _)

theorem commitStage (w : Writer) (bad : List Nat) (st : Staging) : SameCtl s (s.commitStage w bad st).1 := by
  unfold State.commitStage
  extract_lets isBad bu t
  refine foldl (fun s r => ?_) _ s
  extract_lets u v
  exact pred_ite (P := SameCtl s) (put s w _ _ _) ((put s w _ _ _).trans (poison v _))

theorem scatter (R : Ring) (r j : Nat) (payload : List Byte) : SameCtl s (s.scatter R r j payload) := by
  unfold State.scatter
  split
  · exact refl s
  · exact commitStage s _ _ _

/-! #### Packets -/

theorem sendFrom (e l : Nat) (p : Pkt) : SameCtl s (s.sendFrom e l p) :=
  pred_ite (P := SameCtl s) (linkSend s l p) (xfer s _)

theorem transmit (mirror : Bool) (e : Nat) (q : Pkt) : SameCtl s (s.transmit mirror e q) := by
  unfold State.transmit
  split
  · split
    · exact (pred_ite (P := SameCtl s) (count s _ _ _ _) (refl s)).trans (sendFrom _ _ _ _)
    · exact refl s
  · unfold State.sendRouted
    split
    · exact sendFrom s _ _ _
    · exact refl s

theorem e2eSend (e peer vc flow opcode ops : Nat) (payload : List Byte) :
    SameCtl s (s.e2eSend e peer vc flow opcode ops payload) :=
  pred_ite (P := SameCtl s) ((setTxFlow s _ _).trans (transmit _ _ _ _)) (setTxFlow s _ _)

theorem updWrite (e step group a : Nat) (bytes : List Byte) (isRec bad : Bool) :
    SameCtl s (s.updWrite e step group a bytes isRec bad) := by
  unfold State.updWrite
  split
  · exact refl s
  extract_lets t
  have ht : SameCtl s t := put s _ _ _ _
  split
  · split
    · exact ht.trans (e2eSend t _ _ _ _ _ _ _)
    · exact ht
  · exact ht

/-! #### Collectives, feeds and result windows -/

theorem workColl (half idx : Nat) : SameCtl s (s.workColl half idx) := setReg s _ (step_ne_coll half)

theorem restColl (idx : Nat) : SameCtl s (s.restColl idx) :=
  foldl (fun s h => pred_ite (P := SameCtl s) (setReg s _ (step_ne_coll h)) (refl s)) _ s

theorem countChunk (half : Nat) : SameCtl s (s.countChunk half) :=
  (inc s 1 (step_ne_block (by unfold Reg.CLV_COLL_CHUNK_CNT edgeBase; omega))).trans (count _ _ _ _ _)

theorem freeFeeds (k : Nat) : SameCtl s (s.freeFeeds k) := foldl (fun s f => by
  split
  · exact setFeed s _ _
  · exact refl s) _ s

theorem postResult (w k : Nat) : SameCtl s (s.postResult w k) := by
  unfold State.postResult
  split
  · exact (setWindow s _ _).trans (announce _ _ _ _ _)
  · exact refl s

theorem postStep (k : Nat) : SameCtl s (s.postStep k) := foldl (fun s w => by
  split
  · exact pred_ite (P := SameCtl s) (postResult s w k) (refl s)
  · exact refl s) _ s

theorem forgetResults (above : Nat) : SameCtl s (s.forgetResults above) := foldl (fun s w => by
  split
  · exact setWindow s _ _
  · exact refl s) _ s

end

end SameCtl

end Sys2Proof.Machine
end

section
/-! SUPPORT. What neither commits a step nor writes its commit record (R33, R300). -/

namespace Sys2Proof.Machine

open Sys2Proof

/-- The last committed step is as before, and no commit record is written. -/
structure StaysAt (s t : State) : Prop where
  reg : t.reg Reg.GLB_STEP_NUM = s.reg Reg.GLB_STEP_NUM
  record : s.ctl.record = none → t.ctl.record = none

namespace StaysAt

theorem refl (s : State) : StaysAt s s := ⟨rfl, id⟩

theorem trans {s t u : State} (h : StaysAt s t) (g : StaysAt t u) : StaysAt s u :=
  ⟨g.reg.trans h.reg, fun hr => g.record (h.record hr)⟩

theorem foldl {α : Type} {f : State → α → State} (h : ∀ s a, StaysAt s (f s a)) (l : List α) (s : State) :
    StaysAt s (l.foldl f s) := by
  induction l generalizing s with
  | nil => exact refl s
  | cons a l ih => exact (h s a).trans (ih (f s a))

theorem of_same {s t : State} (h : SameCtl s t) : StaysAt s t := ⟨h.reg, fun hr => by rw [h.ctl, hr]⟩

section
variable (s : State)

/-- The controller's state changes in other things than its record. -/
theorem ctl (c : Ctl) (h : c.record = s.ctl.record) : StaysAt s { s with ctl := c } := ⟨rfl, fun hr => h.trans hr⟩

/-! ### Collectives -/

theorem sendColl (half op : Nat) (R : Ring) (step chunk : Nat) (payload : List Byte) :
    StaysAt s (s.sendColl half op R step chunk payload) := by
  unfold State.sendColl
  exact ((pred_ite (P := StaysAt s) (ctl s _ (by rfl)) (refl s)).trans (of_same (SameCtl.workColl _ _ _))).trans
    (of_same (SameCtl.e2eSend _ _ _ _ _ _ _ _))

theorem gatherChunk (half : Nat) (R : Ring) (step r j : Nat) (payload : List Byte) (own : Bool) :
    StaysAt s (s.gatherChunk half R step r j payload own) := by
  unfold State.gatherChunk
  extract_lets +onlyGivenNames c t k u v w
  have hu : StaysAt t u := pred_ite (P := StaysAt t) (refl t) (ctl t _ (by rfl))
  have hw : SameCtl v w := pred_ite (P := SameCtl v) (SameCtl.restColl v _) (SameCtl.refl v)
  have hsw : StaysAt s w := ((of_same (SameCtl.scatter s R r j payload)).trans hu).trans
    (of_same ((SameCtl.workColl u half R.idx).trans hw))
  refine pred_ite (P := StaysAt s) hsw ((hsw.trans (of_same ?_)).trans (sendColl _ _ _ _ _ _ _))
  exact pred_ite (P := SameCtl w) (SameCtl.refl w) (SameCtl.countChunk w half)

theorem gatherRead (d : Desc) (lo count : Nat) : SameCtl s (s.gatherRead d lo count) :=
  pred_ite (P := SameCtl s) (SameCtl.readElems s _) (SameCtl.readSlots s _ _ _)

theorem startGather (R : Ring) (step : Nat) : StaysAt s (s.startGather R step) := by
  unfold State.startGather
  dsimp only
  split
  · exact refl s
  · refine pred_ite (P := StaysAt s) (foldl (fun s j => ?_) _ s) (refl s)
    exact (of_same (gatherRead s _ _ _)).trans (gatherChunk _ _ R step _ _ _ _)

theorem deliver (half : Nat) (R : Ring) (step r j : Nat) (vals : List Word) :
    StaysAt s (s.deliver half R step r j vals) := by
  unfold State.deliver
  split
  · exact of_same (SameCtl.setEngine s _ _)
  · extract_lets l t
    have ht : SameCtl s t := pred_ite (P := SameCtl s) (SameCtl.refl s) (SameCtl.put s _ _ _ _)
    exact (of_same ht).trans (gatherChunk t _ _ _ _ _ _ _)

theorem reduceOn (half : Nat) (R : Ring) (step r j : Nat) (vals : List Word) :
    StaysAt s (s.reduceOn half R step r j vals) :=
  pred_ite (P := StaysAt s) (deliver s half R step r j _) (sendColl s _ _ _ _ _ _)

theorem rowsOn (half : Nat) (R : Ring) (step r : Nat) (rows : List (Nat × List Word)) :
    StaysAt s (s.rowsOn half R step r rows) := by
  unfold State.rowsOn
  extract_lets +onlyGivenNames v
  split
  · exact refl s
  split
  · exact of_same ((SameCtl.foldl (fun s _ => SameCtl.setEngine s _ _) _ s).trans
      (SameCtl.foldl (fun s _ => SameCtl.setEngine s _ _) _ _))
  · exact foldl (fun s _ => sendColl s _ _ _ _ _ _) _ s

theorem tellEmpty (R : Ring) (step : Nat) : SameCtl s (s.tellEmpty R step) := by
  unfold State.tellEmpty
  split
  · exact pred_ite (P := SameCtl s) (SameCtl.refl s) (SameCtl.foldl
      (fun s e => pred_ite (P := SameCtl s) (SameCtl.setEngine s _ _) (SameCtl.refl s)) _ s)
  · exact SameCtl.refl s

theorem taint (i polder : Nat) (cause : Option Cause) (step group : Nat) :
    StaysAt s (s.taint i polder cause step group) := by
  unfold State.taint
  split
  · exact refl s
  extract_lets held t
  have ht : StaysAt s t := of_same ((SameCtl.breachOpen s _ _).trans (SameCtl.inc _ _ (by decide)))
  exact pred_ite (P := StaysAt s) (ht.trans (ctl t _ (by rfl))) (ht.trans (ctl t _ (by rfl)))

theorem taintRing (half : Nat) (R : Ring) (step : Nat) : StaysAt s (s.taintRing half R step) := by
  unfold State.taintRing
  split
  · exact taint s _ _ _ _ _
  · exact refl s

theorem contribution (half : Nat) (R : Ring) (step r j : Nat) : StaysAt s (s.contribution half R step r j).2 := by
  unfold State.contribution
  split
  · exact refl s
  · rename_i d _
    have hread := of_same (SameCtl.readElements s d ((s.slotElems R r (2048 * j) (R.count r j)).filterMap id))
    exact pred_ite (P := StaysAt s) (hread.trans (taintRing _ _ _ _)) hread

theorem ownRows (half : Nat) (R : Ring) (step r : Nat) : StaysAt s (s.ownRows half R step r).2 := by
  unfold State.ownRows
  split
  · extract_lets sh rows t
    have hread : StaysAt s t := of_same (SameCtl.readElements s _ _)
    exact pred_ite (P := StaysAt s) (hread.trans (taintRing _ _ _ _)) hread
  · exact refl s

theorem startReduce (R : Ring) (step : Nat) : StaysAt s (s.startReduce R step) := by
  unfold State.startReduce
  refine (of_same (tellEmpty s R step)).trans (foldl (fun s r => ?_) _ _)
  refine pred_ite (P := StaysAt s) ((ownRows s _ _ _ _).trans (rowsOn _ _ _ _ _ _)) (foldl (fun s j => ?_) _ s)
  exact (contribution s _ _ _ _ _).trans (reduceOn _ _ _ _ _ _ _)

theorem startColls (step : Nat) : StaysAt s (s.startColls step) := by
  unfold State.startColls
  split
  · exact refl s
  · refine foldl (fun s i => ?_) _ s
    split
    · exact pred_ite (P := StaysAt s) (startGather s _ _) (startReduce s _ _)
    · exact refl s

theorem kickColls : StaysAt s s.kickColls := by
  unfold State.kickColls
  extract_lets k
  exact pred_ite (P := StaysAt s) ((ctl s { s.ctl with collStep := k } rfl).trans (startColls _ _)) (refl s)

/-! ### The module's states -/

theorem answerHolds (status detail : Nat) : StaysAt s (s.answerHolds status detail) :=
  (ctl s { s.ctl with holdWaiters := [] } rfl).trans (of_same ((SameCtl.foldl
    (fun s h => SameCtl.respond s h cmdHOLD status detail []) s.ctl.holdWaiters _).trans
      (SameCtl.setRegF _ (a := Reg.GLB_STATE) _ _ _ (by decide))))

theorem enterHolding (cause : Nat) : StaysAt s (s.enterHolding cause) :=
  ((ctl s { s.ctl with feedWait := none, mustRun := s.committed } rfl).trans (of_same
    ((SameCtl.setRegF _ (a := Reg.GLB_STATE) 7 4 cause (by decide)).trans (SameCtl.setMode _ 4)))).trans
      (answerHolds _ _ _)

theorem holdCheck : StaysAt s s.holdCheck := by
  unfold State.holdCheck
  extract_lets limit
  exact pred_ite (P := StaysAt s) (refl s) (pred_ite (P := StaysAt s) (enterHolding s _)
    (pred_ite (P := StaysAt s) (enterHolding s _) (refl s)))

theorem abandonSteps : StaysAt s s.abandonSteps := ⟨rfl, fun _ => rfl⟩

theorem dropEngines : SameCtl s s.dropEngines := by
  unfold State.dropEngines
  extract_lets c t u staged norms
  have ht : SameCtl s t := SameCtl.foldl (fun s e => by
    extract_lets k v
    refine SameCtl.trans (t := v) ?_ (SameCtl.setEngine v _ _)
    refine pred_ite (P := SameCtl s) ?_ (SameCtl.refl s)
    exact (SameCtl.setRegF s _ _ _ (step_ne_block (by simp only [updReg, Reg.UPD_RECOMP_STAT, edgeBase]; omega))).trans
      (SameCtl.setRegF _ _ _ _ (step_ne_block (by simp only [updReg, Reg.UPD_CTL, edgeBase]; omega)))) _ s
  have hu : SameCtl t u := SameCtl.foldl (fun s h => SameCtl.setReg s _ (step_ne_coll h)) _ t
  exact (ht.trans hu).trans (SameCtl.runs u _ _)

theorem giveUp : StaysAt s s.giveUp := by
  unfold State.giveUp
  extract_lets t
  have ht : StaysAt s t := (abandonSteps s).trans
    (of_same ((dropEngines _).trans (SameCtl.forgetResults _ _)))
  clear_value t
  exact ht.trans (ctl t _ (by rfl))

theorem pairLoss (i : Nat) (cause : Option Cause) (polder obj addr : Nat) :
    StaysAt s (s.pairLoss i cause polder obj addr) := by
  unfold State.pairLoss
  extract_lets t u
  have hu : StaysAt s u := of_same (((SameCtl.breachOpen s i _).trans
    (SameCtl.setRegF t (a := Reg.FLT_STAT) _ _ _ (by decide))).trans (SameCtl.announce _ _ _ _ _))
  exact pred_ite (P := StaysAt s) ((hu.trans (giveUp u)).trans (enterHolding _ _)) hu

theorem polderLoss (i polder obj : Nat) (detail : Option Nat) : StaysAt s (s.polderLoss i polder obj detail) := by
  unfold State.polderLoss
  split
  · exact refl s
  extract_lets takes t i' u b v w
  have ht : StaysAt s t := pred_ite (P := StaysAt s) ((of_same (SameCtl.standby s true)).trans (abandonSteps _)) (refl s)
  have hu : StaysAt t u := pred_ite (P := StaysAt t) (pairLoss t _ _ _ _ _) (refl t)
  have hv : SameCtl u v := by
    unfold v
    split
    · exact SameCtl.breach u _ _
    · exact SameCtl.breachOpen u _ _
  have hw : StaysAt s w := (ht.trans hu).trans (of_same (hv.trans (SameCtl.lostPolders v _)))
  exact pred_ite (P := StaysAt s) ((hw.trans (of_same ((SameCtl.fatal w _).trans (SameCtl.setMode _ 5)))).trans
    (answerHolds _ _ _)) hw

/-! ### Commands to cores and their replay -/

theorem sendCore (c : Nat) (ws : List CmdWord) : SameCtl s (s.sendCore c ws) :=
  pred_ite (P := SameCtl s) (SameCtl.setCore s _ _) (SameCtl.setCore s _ _)

theorem sendCmd (c : Nat) (w : CmdWord) : StaysAt s (s.sendCmd c w) :=
  (of_same (sendCore s c [w])).trans (ctl _ _ (by rfl))

theorem sendMb (e : Sched) (replay : Bool) : StaysAt s (s.sendMb e replay) := by
  unfold State.sendMb
  split
  · exact (sendCmd s _ _).trans (ctl _ _ (by rfl))
  · exact refl s

theorem sendBind (n : Nat) : StaysAt s (s.sendBind n) := by
  unfold State.sendBind
  split
  · exact sendCmd s _ _
  · exact refl s

theorem replayPhase (e : Sched) : StaysAt s (s.replayPhase e) := by
  unfold State.replayPhase
  exact ((ctl s _ (by rfl)).trans (of_same (SameCtl.inc _ (a := Reg.FLT_REPLAY_PHASE_CNT) 1 (by decide)))).trans
    (sendMb _ e true)

theorem startStepReplay : StaysAt s s.startStepReplay :=
  (ctl s _ (by rfl)).trans (of_same (SameCtl.inc _ (a := Reg.FLT_REPLAY_STEP_CNT) 1 (by decide)))

theorem absorbPhase (e : Sched) (c : Nat) (cause : Option Cause) : StaysAt s (s.absorbPhase e c cause).1 := by
  unfold State.absorbPhase
  split
  · exact replayPhase s e
  · exact startStepReplay s
  · exact foldl (fun s g => taint s _ _ _ _ _) _ s

/-! ### The loss of a core -/

theorem dropWords (i n : Nat) : SameCtl s (s.dropWords i n) := by
  unfold State.dropWords
  split
  · exact SameCtl.inc s n (step_ne_core _ _)
  split
  · exact SameCtl.inc s n (step_ne_die _ _)
  split
  · exact SameCtl.inc s n (step_ne_edge _ _)
  split
  · exact SameCtl.inc s n (step_ne_edge _ _)
  · exact SameCtl.inc s n (step_ne_edge _ _)

theorem evcMsgs (c : Ctl) (l : List EvcMsg) (h : c.record = s.ctl.record) :
    StaysAt s { s with ctl := c, evcMsgs := l } := ⟨rfl, fun hr => h.trans hr⟩

theorem dropMsgs (i : Nat) : StaysAt s (s.dropMsgs i) := by
  unfold State.dropMsgs
  exact (evcMsgs s _ _ (by rfl)).trans (of_same (dropWords _ _ _))

theorem cutCore (c : Nat) : SameCtl s (s.cutCore c) := (dropWords s _ _).trans (SameCtl.setCore _ _ _)

theorem cutBridges (d : Nat) : SameCtl s (s.cutBridges d) := SameCtl.foldl (fun s k => SameCtl.setBridge s k _) _ s

theorem resetEdge (e : Nat) : SameCtl s (s.resetEdge e) := by
  unfold State.resetEdge
  extract_lets ls t u
  have ht : SameCtl s t := pred_ite (P := SameCtl s) ((SameCtl.draw s).trans (dropWords _ _ _)) (SameCtl.refl s)
  have hu : SameCtl t u := SameCtl.foldl (fun s h => SameCtl.setEngine s h _) _ t
  exact (ht.trans hu).trans ((SameCtl.xfer u _).trans (SameCtl.foldl (fun s l => SameCtl.setLink s l _) _ _))

/-- Registers other than the step's are written. -/
theorem setRegs (l : List Nat) (f : Nat → Word) (h : ∀ a ∈ l, Reg.GLB_STEP_NUM ≠ a) :
    SameCtl s (l.foldl (fun s a => s.setReg a (f a)) s) := by
  induction l generalizing s with
  | nil => exact SameCtl.refl s
  | cons a l ih =>
    exact (SameCtl.setReg s (f a) (h a List.mem_cons_self)).trans (ih _ fun b hb => h b (List.mem_cons_of_mem a hb))

theorem resetEvc (b : Nat) : SameCtl s (s.resetEvc b) := by
  unfold State.resetEvc
  extract_lets addrs t
  have ht : SameCtl s t := setRegs s addrs regReset fun a ha => by
    refine step_ne_evc (b := b) ?_
    simp only [addrs, List.mem_append, List.mem_flatMap, List.mem_cons, List.not_mem_nil, or_false, Reg.EVC_SEL,
      Reg.EVC_CNT_LO, Reg.EVC_CNT_HI, Reg.EVC_SNAP_LO, Reg.EVC_SNAP_HI, Reg.EVC_CTL, Reg.EVC_SNAP_STEP,
      Reg.EVC_SNAP_INFO] at ha
    rcases ha with ⟨i, -, h⟩ | h
    · omega
    · omega
  exact ht.trans (SameCtl.evcStage t _)

theorem noteReset (i : Nat) : SameCtl s (s.noteReset i) := SameCtl.foldl (fun s j => by
  extract_lets x
  exact pred_ite (P := SameCtl s) (SameCtl.setIsland s _ _) (SameCtl.refl s)) _ s

theorem coreStatusRegs_ne {c a : Nat} (h : a ∈ coreStatusRegs c) : Reg.GLB_STEP_NUM ≠ a := by
  have hbase : 0x01000000 ≤ coreBase c := by unfold coreBase; omega
  refine step_ne_block (hbase.trans ?_)
  simp only [coreStatusRegs, List.mem_append, List.mem_cons, List.not_mem_nil, or_false, List.mem_map, Reg.SEQ_STAGE,
    Reg.SEQ_STAT, Reg.FDR_STAT, Reg.DRN_STAT, Reg.ACC_STAT, Reg.ACC_SAT_TILE, Reg.ACC_POISON_TILE, Reg.SEQ_LEN] at h
  rcases h with h | ⟨j, -, h⟩
  · omega
  · omega

theorem resetCore (c : Nat) : SameCtl s (s.resetCore c) := (dropWords s _ _).trans (SameCtl.setCore _ _ _)

theorem noteTherm : SameCtl s s.noteTherm := by
  unfold State.noteTherm
  exact SameCtl.setRegF s _ _ _ (by decide)

theorem enterReset (i : Nat) (off : Bool) : StaysAt s (s.enterReset i off) := by
  unfold State.enterReset
  extract_lets +onlyGivenNames t d v w x y u
  have hx : SameCtl t x := by
    unfold x
    split
    · exact (resetCore t i).trans (noteTherm _)
    split
    · exact ((SameCtl.foldl (fun s c => cutCore s _) _ t).trans (SameCtl.setDie v _ _)).trans (cutBridges _ _)
    split
    · exact (resetEdge t _).trans (cutBridges _ _)
    · exact SameCtl.refl t
  have hu : SameCtl x u := by
    unfold u
    split
    · exact SameCtl.refl x
    · have hy : SameCtl x y := pred_ite (P := SameCtl x)
        (setRegs x _ regReset fun a ha => coreStatusRegs_ne ha) (SameCtl.refl x)
      exact hy.trans (pred_ite (P := SameCtl y) (resetEvc y i) (SameCtl.refl y))
  refine ((dropMsgs s i).trans (of_same (hx.trans hu))).trans (of_same (SameCtl.foldl (fun s j => ?_) _ u))
  exact (noteReset s j).trans (SameCtl.setIsland _ _ _)

theorem setPstate (c p : Nat) : SameCtl s (s.setPstate c p) :=
  (SameCtl.setRegF s _ _ _ (step_ne_core c 8)).trans (SameCtl.setRegF _ _ _ _ (step_ne_core c 8))

theorem takeover (c spare stageNo : Nat) : StaysAt s (s.takeover c spare stageNo) := by
  unfold State.takeover
  extract_lets +onlyGivenNames mine t u upd v src w x
  have hv : SameCtl u v := by
    unfold v
    split
    · exact SameCtl.prog u _
    · exact SameCtl.refl u
  have hu : SameCtl s u := ((SameCtl.setCore s _ _).trans (setPstate _ _ _)).trans
    (SameCtl.setRegF t _ _ _ (step_ne_core spare 8))
  have hx : StaysAt s x := (((of_same (hu.trans hv)).trans (ctl v _ (by rfl))).trans (sendBind w _)).trans (sendCmd _ _ _)
  exact hx.trans (of_same ((SameCtl.inc x 1 (by decide)).trans (SameCtl.setReg _ _ (by decide))))

theorem loseCore (c : Nat) : StaysAt s (s.loseCore c) := by
  unfold State.loseCore
  extract_lets +onlyGivenNames others hurt t k u v w
  have hw : StaysAt s w := (enterReset s c false).trans (of_same (((SameCtl.setCore t _ _).trans
    ((setPstate u _ _).trans (SameCtl.setRegF _ _ _ _ (step_ne_core c 8)))).trans (SameCtl.healthDirty v true)))
  split
  · exact hw.trans (polderLoss w _ _ _ _)
  split
  · exact hw
  split
  · exact (hw.trans (takeover w _ _ _)).trans (of_same (SameCtl.openWindow _ _ _ _))
  · exact hw

theorem coreFail (i : Nat) (cause : Option Cause) (c : Nat) : StaysAt s (s.coreFail i cause c) := by
  unfold State.coreFail
  extract_lets held t
  have ht : StaysAt s t := of_same (SameCtl.breachOpen s _ _)
  exact pred_ite (P := StaysAt s) ht (ht.trans (loseCore t c))

theorem poisonedPhase (e : Sched) (c : Nat) : StaysAt s (s.poisonedPhase e c).1 := by
  unfold State.poisonedPhase
  split
  · exact refl s
  extract_lets cause x src held act t
  have ht : StaysAt s t := of_same (SameCtl.breachOpen s _ _)
  split
  · exact (ctl s _ (by rfl)).trans (coreFail _ _ _ _)
  split
  · exact ht.trans (ctl t _ (by rfl))
  · exact ht.trans (absorbPhase t e c cause)

/-! ### Result copies -/

theorem takeCopy (w k : Nat) (x : Window) : StaysAt s (s.takeCopy w k x) := by
  unfold State.takeCopy
  extract_lets +onlyGivenNames bad t u y y' v
  have ht : SameCtl s t := pred_ite (P := SameCtl s) (SameCtl.readRange s _ _) (SameCtl.refl s)
  have hv : StaysAt s v := of_same ((ht.trans (SameCtl.copyMem t _ _ _)).trans
    ((SameCtl.setWindow u _ _).trans (SameCtl.freeCtr _ _)))
  refine pred_ite (P := StaysAt s) ?_ hv
  split
  · extract_lets a r
    have hr : StaysAt s r.1 := (hv.trans (ctl v _ (by rfl))).trans (poisonedPhase a _ _)
    exact pred_ite (P := StaysAt s) (hr.trans (ctl _ _ (by rfl))) hr
  · exact hv.trans (of_same (SameCtl.breachOpen v _ _))

theorem resumeCopy (w : Nat) : StaysAt s (s.resumeCopy w) := by
  unfold State.resumeCopy
  split
  · exact refl s
  split
  · exact refl s
  refine pred_ite (P := StaysAt s) ?_ (refl s)
  extract_lets t
  have ht : StaysAt s t := takeCopy s _ _ _
  exact pred_ite (P := StaysAt s) (ht.trans (of_same (SameCtl.postResult t _ _))) ht

theorem takeWaiting : StaysAt s s.takeWaiting := foldl resumeCopy _ s

end

end StaysAt

end Sys2Proof.Machine
end

section
/-! The commit of steps (R33 to R37, R300, R302). -/

namespace Sys2Proof.Machine

open Sys2Proof

/-! ### The commit of a step -/

/-- No result copy waits (R371). -/
theorem copiesTaken_iff (s : State) : s.copiesTaken = true ↔
    ∀ w, w < 64 → ∀ x, s.window w = some x → ∀ r ∈ x.results, r.2 ≠ ResState.waiting := by
  have hone (w : Nat) : (match s.window w with
      | some x => x.results.all fun r => r.2 != .waiting
      | none => true) = true ↔ ∀ x, s.window w = some x → ∀ r ∈ x.results, r.2 ≠ ResState.waiting := by
    cases s.window w with
    | none => simp only [reduceCtorEq, false_implies, implies_true]
    | some x => simp only [List.all_eq_true, bne_iff_ne, Option.some.injEq, forall_eq']
  simp only [State.copiesTaken, List.all_eq_true, List.mem_range]
  exact forall_congr' fun w => imp_congr_right fun _ => hone w

theorem copiesTaken_of_windows {s t : State} (h : t.windows = s.windows) (hs : s.copiesTaken = true) :
    t.copiesTaken = true := by
  unfold State.copiesTaken State.window at *
  rw [h]
  exact hs

theorem windows_freeFeeds (s : State) (k : Nat) : (s.freeFeeds k).windows = s.windows := by
  refine pred_foldl (P := fun t : State => t.windows = s.windows) (fun t ht f => ?_) rfl
  split
  · exact ht
  · exact ht

/-- A result that is posted waits for no copy. -/
theorem copiesTaken_postResult {s : State} (w k : Nat) (hs : s.copiesTaken = true) :
    (s.postResult w k).copiesTaken = true := by
  unfold State.postResult
  split
  · rename_i x hx
    extract_lets res
    refine copiesTaken_of_windows (announce_reports _ _ _ _ _).windows ?_
    rw [copiesTaken_iff] at hs ⊢
    intro v hv y hy r hr
    by_cases hvw : v = w
    · subst hvw
      rw [window_setWindow_self] at hy
      have hres : y.results = res := by rw [← Option.some.inj hy]
      rw [hres] at hr
      obtain ⟨q, hq, rfl⟩ := List.mem_map.mp hr
      split
      · exact fun h => ResState.noConfusion h
      · exact hs v hv x hx q hq
    · rw [State.window_setWindow_ne _ _ _ _ hvw] at hy
      exact hs v hv y hy r hr
  · exact hs

theorem copiesTaken_postStep {s : State} (k : Nat) (hs : s.copiesTaken = true) : (s.postStep k).copiesTaken = true := by
  refine pred_foldl (P := fun t : State => t.copiesTaken = true) (fun t ht w => ?_) hs
  split
  · exact pred_ite (P := fun t : State => t.copiesTaken = true) (copiesTaken_postResult w k ht) ht
  · exact ht

theorem resumeCopy_of_taken {s : State} (hs : s.copiesTaken = true) {w : Nat} (hw : w < 64) : s.resumeCopy w = s := by
  rw [copiesTaken_iff] at hs
  unfold State.resumeCopy
  split
  · rfl
  · rename_i x hx
    have hnone : (x.results.find? fun r => r.2 == .waiting) = none :=
      List.find?_eq_none.mpr fun r hr h => hs w hw x hx r hr (eq_of_beq h)
    rw [hnone]

theorem takeWaiting_of_taken {s : State} (hs : s.copiesTaken = true) : s.takeWaiting = s := by
  have hall (l : List Nat) (hl : ∀ w ∈ l, w < 64) : l.foldl State.resumeCopy s = s := by
    induction l with
    | nil => rfl
    | cons w l ih =>
      rw [List.foldl_cons, resumeCopy_of_taken hs (hl w List.mem_cons_self)]
      exact ih fun v hv => hl v (List.mem_cons_of_mem w hv)
  exact hall _ fun w hw => List.mem_range.mp hw

theorem kickColls_of_started {s : State} (h : s.ctl.step ≤ s.ctl.collStep) : s.kickColls = s := by
  have hno : ¬(decide (s.ctl.collStep < s.ctl.step) && s.contribReady s.ctl.step && s.srcsReady) = true := by
    rw [decide_eq_false (Nat.not_lt.mpr h), Bool.false_and, Bool.false_and]
    exact Bool.false_ne_true
  unfold State.kickColls
  exact if_neg hno

/-- The step's number stands in its register, without its record. -/
def State.markCommit (s : State) (k : Nat) : State :=
  let s := (s.setReg Reg.GLB_STEP_NUM (BitVec.ofNat 32 k)).setCtl fun c =>
    { c with record := none, resent := [], tainted := c.tainted.filter fun t => decide (k < t.1) }
  { s with norms := s.norms.filter fun x => decide (k < x.step) }

/-- The commit of a step is reported (R32). -/
def State.reportCommit (s : State) (k : Nat) : State :=
  (((s.announceBy s.ctlIsl 2 k [k] s.ctl.ackCause).setCtl fun c =>
    { c with ackCause := none }).count 60 0x345 0 1).count 61 0x345 0 1

/-- What a commit changes before it lets waiting work go on. -/
def State.noteCommit (s : State) (k : Nat) : State := (s.markCommit k).reportCommit k

theorem commitStep_eq (s : State) (k : Nat) :
    s.commitStep k = (((s.noteCommit k).freeFeeds k).postStep k).takeWaiting.kickColls.holdCheck := rfl

theorem markCommit_spec (s : State) {k : Nat} (hk : k < 2 ^ 32) : (s.markCommit k).committed = k ∧
    (s.markCommit k).ctl.record = none ∧ (s.markCommit k).ctl.step = s.ctl.step ∧
    (s.markCommit k).ctl.collStep = s.ctl.collStep ∧ (s.markCommit k).windows = s.windows ∧
    Same s (s.markCommit k) := by
  refine ⟨?_, rfl, rfl, rfl, rfl, ⟨rfl, rfl, rfl, rfl⟩⟩
  have hreg : (s.markCommit k).reg Reg.GLB_STEP_NUM = BitVec.ofNat 32 k := State.reg_setReg_self s _ _
  rw [State.committed, hreg, BitVec.toNat_ofNat, Nat.mod_eq_of_lt hk]

theorem reportCommit_spec (s : State) (k : Nat) : StaysAt s (s.reportCommit k) ∧
    (s.reportCommit k).ctl.step = s.ctl.step ∧ (s.reportCommit k).ctl.collStep = s.ctl.collStep ∧
    (s.reportCommit k).windows = s.windows ∧ Same s (s.reportCommit k) := by
  obtain ⟨t, ht⟩ : ∃ t, t = s.announceBy s.ctlIsl 2 k [k] s.ctl.ackCause := ⟨_, rfl⟩
  obtain ⟨v, hv⟩ : ∃ v, v = t.setCtl fun c => { c with ackCause := none } := ⟨_, rfl⟩
  have hreport : s.reportCommit k = (v.count 60 0x345 0 1).count 61 0x345 0 1 := by
    rw [hv, ht]
    rfl
  have hst : SameCtl s t := by
    rw [ht]
    exact SameCtl.announceBy s _ _ _ _ _
  have htv : StaysAt t v := by
    rw [hv]
    exact StaysAt.ctl t _ rfl
  have hctl : v.ctl.step = s.ctl.step ∧ v.ctl.collStep = s.ctl.collStep := by
    rw [hv, ctl_setCtl, hst.ctl]
    exact ⟨rfl, rfl⟩
  have htw : t.windows = s.windows := by
    rw [ht]
    exact (sends_announceBy s _ _ _ _ _).reports.windows
  have hvw : v.windows = s.windows := by
    rw [← htw, hv]
    rfl
  have hsv : Same s v := by
    rw [hv, ht]
    exact State.setCtl_same _ (State.announceBy_same s (Same.refl s) _ _ _ _ _) _
  have hcounts := (SameCtl.count v 60 0x345 0 1).trans (SameCtl.count _ 61 0x345 0 1)
  have hrep := (count_reports v 60 0x345 0 1).trans (count_reports _ 61 0x345 0 1)
  rw [hreport]
  refine ⟨((StaysAt.of_same hst).trans htv).trans (StaysAt.of_same hcounts), ?_, ?_, hrep.windows.trans hvw,
    State.count_same _ (State.count_same v hsv _ _ _ _) _ _ _ _⟩
  · rw [hcounts.ctl, hctl.1]
  · rw [hcounts.ctl, hctl.2]

theorem noteCommit_spec (s : State) {k : Nat} (hk : k < 2 ^ 32) : (s.noteCommit k).committed = k ∧
    (s.noteCommit k).ctl.record = none ∧ (s.noteCommit k).ctl.step = s.ctl.step ∧
    (s.noteCommit k).ctl.collStep = s.ctl.collStep ∧ (s.noteCommit k).windows = s.windows ∧
    Same s (s.noteCommit k) := by
  obtain ⟨hcom, hrec, hstep, hcoll, hwin, hsame⟩ := markCommit_spec s hk
  obtain ⟨hstays, hstep', hcoll', hwin', hsame'⟩ := reportCommit_spec (s.markCommit k) k
  have hreg : ((s.markCommit k).reportCommit k).committed = (s.markCommit k).committed := congrArg BitVec.toNat hstays.reg
  unfold State.noteCommit
  refine ⟨hreg.trans hcom, hstays.record hrec, hstep'.trans hstep, hcoll'.trans hcoll, hwin'.trans hwin,
    ⟨hsame'.mem.trans hsame.mem, hsame'.poison.trans hsame.poison, hsame'.flash.trans hsame.flash,
      hsame'.otp.trans hsame.otp⟩⟩

theorem commitStep_spec (s : State) {k : Nat} (hk : k < 2 ^ 32) : (s.commitStep k).committed = k ∧
    (s.commitStep k).ctl.record = none ∧ (s.copiesTaken = true → s.ctl.step ≤ s.ctl.collStep →
      (s.commitStep k).mem = s.mem ∧ (s.commitStep k).poison = s.poison) := by
  obtain ⟨hcom, hrec, hstep, hcoll, hwin, hsame⟩ := noteCommit_spec s hk
  obtain ⟨t, ht⟩ : ∃ t, t = ((s.noteCommit k).freeFeeds k).postStep k := ⟨_, rfl⟩
  have hctl : SameCtl (s.noteCommit k) t := by
    rw [ht]
    exact (SameCtl.freeFeeds _ k).trans (SameCtl.postStep _ k)
  have hstays : StaysAt t (s.commitStep k) := by
    rw [commitStep_eq, ← ht]
    exact ((StaysAt.takeWaiting t).trans (StaysAt.kickColls _)).trans (StaysAt.holdCheck _)
  refine ⟨?_, hstays.record (by rw [hctl.ctl, hrec]), fun htaken hstarted => ?_⟩
  · have hreg : (s.commitStep k).committed = (s.noteCommit k).committed := by
      unfold State.committed
      rw [hstays.reg, hctl.reg]
    rw [hreg, hcom]
  · have htt : t.copiesTaken = true := by
      rw [ht]
      exact copiesTaken_postStep k (copiesTaken_of_windows ((windows_freeFeeds _ k).trans hwin) htaken)
    have hts : t.ctl.step ≤ t.ctl.collStep := by
      rw [hctl.ctl, hstep, hcoll]
      exact hstarted
    have hsamet : Same s t := by
      rw [ht]
      exact State.postStep_same _ (State.freeFeeds_same _ hsame k) k
    rw [commitStep_eq, ← ht, takeWaiting_of_taken htt, kickColls_of_started hts]
    have hend := State.holdCheck_same t hsamet
    exact ⟨hend.mem, hend.poison⟩

/-! ### A group that is local-done -/

theorem engineReg_done (e : Half) : EngineReg (updReg Reg.UPD_GRP_DONE_CNT e) :=
  ⟨e / 2, 0x20034 + 0x1000 * (e.val % 2), by omega, by omega, Nat.add_assoc _ _ _⟩

/-- The run of a group whose pass 2 is written, and what reports it (R300). -/
def State.noteDone (s : State) (e : Half) (g : Fin 4096) (r : GrpRun) : State :=
  (((s.setRun e g r.step.toNat { r with localDone := true }).inc (updReg Reg.UPD_GRP_DONE_CNT e) 1).count
    (60 + e / 2) 0x306 (e % 2) 1).addLog (60 + e / 2) evPass2 g

theorem noteDone_spec (s : State) (e : Half) (g : Fin 4096) (r : GrpRun) :
    (s.noteDone e g r).run? e g r.step.toNat = some { r with localDone := true } ∧
    (s.noteDone e g r).reg (updReg Reg.UPD_GRP_DONE_CNT e) = satAdd (s.reg (updReg Reg.UPD_GRP_DONE_CNT e)) 1 ∧
    (∃ x ev, (s.noteDone e g r).log = x ++ [ev] ∧ ev.name = BitVec.ofNat 16 evPass2 ∧
      ev.arg = BitVec.ofNat 32 g.val) ∧ (s.noteDone e g r).mem = s.mem := by
  obtain ⟨v, hv⟩ : ∃ v, v = (s.setRun e g r.step.toNat { r with localDone := true }).inc
      (updReg Reg.UPD_GRP_DONE_CNT e) 1 := ⟨_, rfl⟩
  obtain ⟨w, hw⟩ : ∃ w, w = v.count (60 + e / 2) 0x306 (e % 2) 1 := ⟨_, rfl⟩
  have hnote : s.noteDone e g r = w.addLog (60 + e / 2) evPass2 g := by
    rw [hw, hv]
    rfl
  have hplace := (engineReg_done e).evcPlace
  rw [hnote]
  refine ⟨?_, ?_, ⟨w.log, _, rfl, rfl, rfl⟩, ?_⟩
  · have heng : w.engine e = (s.setRun e g r.step.toNat { r with localDone := true }).engine e := by
      rw [hw, State.engine_count, hv]
      rfl
    have hlog : (w.addLog (60 + e / 2) evPass2 g).engine e = w.engine e := rfl
    have hrun := run_setRun_self s e g (r := { r with localDone := true }) (step := r.step.toNat) rfl
    unfold State.run? at hrun ⊢
    rw [hlog, heng]
    exact hrun
  · rw [State.reg_addLog, hw, State.reg_count _ _ _ _ _ _ hplace (by omega), hv, State.reg_inc_self, reg_setRun]
  · have hmem : (w.addLog (60 + e / 2) evPass2 g).mem = w.mem := rfl
    rw [hmem, hw, State.count_mem, hv]
    rfl

/-- Every engine of a group is done with it. -/
def State.allDone (s : State) (u : UGroup) (g : Fin 4096) (step : Nat) : Bool :=
  (enginesOf u.engines).all fun n => match s.run? n g step with
    | some x => x.localDone
    | none => false

theorem exec_groupLocalDone {e : Half} {g : Fin 4096} {s : State} {u : UGroup} {r : GrpRun}
    (hruns : s.engineRuns e = true) (hu : s.ugroup g = some u)
    (hr : (([s.committed, s.committed + 1].filterMap (s.run? e g)).find? fun x => x.pass2 && !x.localDone) = some r)
    (hpass : s.rowsCross u = false ∨ s.allPassed u r.step.toNat = true) :
    exec (.groupLocalDone e g) s = .next (if (s.noteDone e g r).allDone u g r.step.toNat then
      (s.noteDone e g r).gatherGroup g r.step.toNat else s.noteDone e g r) := by
  have hexec : exec (.groupLocalDone e g) s = execGroupLocalDone e g s := rfl
  have hno : ¬s.engineRuns e = false := by rw [hruns]; decide
  have hgo : ¬(s.rowsCross u && !s.allPassed u r.step.toNat) = true := by
    rcases hpass with h | h
    · rw [h, Bool.false_and]
      decide
    · rw [h, Bool.not_true, Bool.and_false]
      decide
  rw [hexec]
  unfold execGroupLocalDone
  simp only [if_neg hno, hu, hr, if_neg hgo]
  rfl

/-! ### The commit record -/

/-- The record of the next step's commit is written. -/
theorem exec_commitRecordWrite {s : State} {p : Prog} {k : Nat} (hp : s.prog = some p) (hupd : p.hasUpd = true)
    (hnone : s.ctl.record = none) (hruns : s.engineRuns 0 = true) (hpath : s.memPath 6 p.commit 64 = true)
    (hk : k = s.committed + 1) (hover : s.stepOver k = true) (hdone : s.groupsDone k = true)
    (hmir : s.allMirrored k = true) (hfail : s.ctl.failed = false) {t : State}
    (ht : t = s.updWrite 0 k 0 p.commit (leBytes 4 0x434D5431 ++ leBytes 4 k ++ List.replicate 56 0) true false) :
    exec .commitRecordWrite s = .next { t with ctl := { t.ctl with record := some (k, t.now,
      !(s.mirroring && (s.mirrorOff p.commit).isSome && (!s.alone || s.resyncAcked))) } } := by
  have hexec : exec .commitRecordWrite s = execCommitRecordWrite s := rfl
  have hno : ¬s.engineRuns 0 = false := by rw [hruns]; decide
  have hrec : s.ctl.record.isSome = false := by rw [hnone]; rfl
  subst hk
  rw [hexec, ht]
  unfold execCommitRecordWrite
  simp only [if_neg hno, hp, hupd, hpath, hrec, hover, hdone, hmir, hfail, Bool.not_true, Bool.or_self,
    Bool.false_eq_true, if_false]

/-- Settles O33: a commit by `commitStep_spec`, a group by `exec_groupLocalDone`, the record by
`exec_commitRecordWrite`. -/
theorem stepsCommitInOrder : Obligations.StepsCommitInOrder := by
  unfold Obligations.StepsCommitInOrder
  refine ⟨fun s => ⟨fun hcan hk => ?_, fun hcan => ?_⟩, fun e g s u r hruns hu hr hpass => ?_,
    fun s p k hp hupd hnone hruns hpath hk hover hdone hmir hfail => ?_, fun s hfail hmode hbehind hlost => ?_⟩
  · have hexec : exec .stepCommit s = .next (s.commitStep (s.committed + 1)) := by
      have h : exec .stepCommit s = execStepCommit s := rfl
      rw [h, execStepCommit, if_pos hcan]
    exact ⟨_, hexec, commitStep_spec s hk⟩
  · have h : exec .stepCommit s = execStepCommit s := rfl
    rw [h, execStepCommit, if_neg (by rw [hcan]; decide)]
  · obtain ⟨hrun, hreg, hlog, hmem⟩ := noteDone_spec s e g r
    exact ⟨_, hrun, hreg, hlog, hmem, exec_groupLocalDone hruns hu hr hpass⟩
  · obtain ⟨t, ht⟩ : ∃ t, t = s.updWrite 0 k 0 p.commit
        (leBytes 4 0x434D5431 ++ leBytes 4 k ++ List.replicate 56 0) true false := ⟨_, rfl⟩
    have hctl := SameCtl.updWrite s 0 k 0 p.commit (leBytes 4 0x434D5431 ++ leBytes 4 k ++ List.replicate 56 0) true false
    obtain ⟨hworks, hmem⟩ := updWrite_spec s 0 k 0 p.commit
      (leBytes 4 0x434D5431 ++ leBytes 4 k ++ List.replicate 56 0) true false
    rw [← ht] at hctl hworks hmem
    have hnow : t.now = s.now := by rw [hworks]
    refine ⟨_, _, exec_commitRecordWrite hp hupd hnone hruns hpath hk hover hdone hmir hfail ht, hmem, rfl, ?_,
      hctl.committed⟩
    rw [hctl.ctl, hnow]
  · have hgo : (s.ctl.failed && decide (s.mode = 3) && decide (s.committed < s.ctl.begun) &&
        s.txFlows.all (fun f => !f.2.lost)) = true := by
      have hall : s.txFlows.all (fun f => !f.2.lost) = true :=
        List.all_eq_true.mpr fun f hf => by rw [hlost f hf]; rfl
      rw [hfail, decide_eq_true hmode, decide_eq_true hbehind, hall]
      rfl
    have h : exec .stepResume s = execStepResume s := rfl
    rw [h, execStepResume, if_pos hgo]

end Sys2Proof.Machine
end
